-- ==== Sys2Proof/Word.lean ====
section
/-!
DEFINITION. The words of the module and the two plain containers every unit uses.

A register or a packet field that software sees as bits is a `BitVec`; a count, an index or an
address after it has been computed is a `Nat`.  Everything the module keeps per queue, per region,
per port … is a sparse map `SMap`: the pairs (key, value) with rising keys and no entry equal to the
default of the map.  The operations over it are in `Machine/SMap.lean`.
-/
namespace Sys2Proof

/-- One byte. -/
abbrev Byte := BitVec 8

/-- A register of a message engine, or any other 64-bit word (R373). -/
abbrev Word64 := BitVec 64

/-- A sparse map from natural keys: rising keys, no entry equal to the map's default. -/
abbrev SMap (α : Type) := List (Nat × α)

end Sys2Proof
end

