-- ==== Sys2Proof/Syntax/Operand.lean ====
section
/-!
DEFINITION. The operands of the commands: what a command carries from outside the module.
Packets are in `Syntax/Packet.lean`.
-/
namespace Sys2Proof

/-- The four access paths of the dictionary (R48), with the function a mailbox belongs to. -/
inductive Path where
  | mgmt
  | pf (link : Fin 2)
  | vf (link : Fin 2) (vf : Fin 256)
  | fabric
deriving DecidableEq, Repr

/-- Who sent a Yusto message (R51): a DTLS session of the management port, the mailbox of a
function, or a source identity over VC18 with the tenant of its packet. -/
inductive Carrier where
  | mgmt (session : BitVec 30)
  | mailbox (path : Path)
  | fabric (source : BitVec 32) (tenant : BitVec 16)
deriving DecidableEq, Repr

/-- The header fields of a Yusto request (Table 02-5) together with its carrier.  OP is the command's, and
bit 2 of FLAGS an operand of READ; `lengthOk` and `bodyOk` say whether LENGTH is the length of the body, and
the body one that its operation has. -/
structure YHdr where
  carrier : Carrier
  session : BitVec 32
  seq : BitVec 32
  version : BitVec 8 := 1
  status : BitVec 8 := 0
  flags : BitVec 8 := 0
  reserved : BitVec 16 := 0
  lengthOk : Bool := true
  bodyOk : Bool := true
deriving DecidableEq, Repr

/-- The header and the body parse (R52). -/
def YHdr.ok (h : YHdr) : Bool :=
  h.version == 1 && h.status == 0 && h.flags == 0 && h.reserved == 0 && h.lengthOk && h.bodyOk

/-- The bodies of the requests of Table 02-6. -/
inductive YBody where
  | read (idx : BitVec 16) (sub : BitVec 8) (shadow : Bool)
  | write (idx : BitVec 16) (sub : BitVec 8) (set : BitVec 8) (value : List Byte)
  | shape (idx : BitVec 16)
  | segRead (idx : BitVec 16) (sub : BitVec 8) (off : BitVec 32) (len : BitVec 16)
  | segWrite (idx : BitVec 16) (sub : BitVec 8) (set : BitVec 8) (total off : BitVec 32)
      (data : List Byte)
  | commit (set : BitVec 8) (applyMT : BitVec 64)
  | cancel (set : BitVec 8)
  | discard (set : BitVec 8)
  | report (set : BitVec 8) (first : BitVec 16)
  | subscribe (mask : BitVec 32) (lo hi : BitVec 16)
  | malformed (op : BitVec 8)
deriving DecidableEq, Repr

/-- A cell as it arrives (R320): the 12 B header, the 256 B payload and the CRC. -/
structure RawCell where
  hdr : BitVec 96
  payload : List Byte
  crc : BitVec 32
  /-- cells by which the sender's clock has gained on the receiver's since the previous cell, signed (R358) -/
  drift : BitVec 9 := 0
deriving DecidableEq, Repr

/-- A receive lane with the power found on it, in 0.01 dBm, signed (R359, R368). -/
structure LanePower where
  lane : Fin 4
  power : BitVec 32
deriving DecidableEq, Repr

/-- What the error-correcting code of a memory reports for an access (R373, R437). -/
inductive Ecc where
  | clean | correctable | uncorrectable
deriving DecidableEq, Repr

/-- A setting in the PCI Express configuration space of a function that the module acts on (R448 to
R451, R466): Bus Master Enable, D3hot, the MSI-X control word; in a PF also VF Enable with NumVFs,
AtomicOp Requester Enable, Relaxed Ordering, and the largest payload and read request (128 B × 2^code). -/
inductive CfgReg where
  | busMaster (v : Bool)
  | powerState (d3hot : Bool)
  | msix (enable mask : Bool)
  | srIov (enable : Bool) (numVfs : Fin 257)
  | atomicRequester (v : Bool)
  | relaxedOrdering (v : Bool)
  | maxPayload (code : Fin 3)
  | maxRead (code : Fin 6)
deriving DecidableEq, Repr

/-- Where a host write goes: a byte offset in BAR0, BAR2 or BAR4, or a configuration setting. -/
inductive RegLoc where
  | bar0 (off : BitVec 26)
  | bar2 (off : BitVec 20)
  | bar4 (off : BitVec 20)
  | config (r : CfgReg)
deriving DecidableEq, Repr

/-- The tag of a request on a host link: 14 bits (Table 16-1). -/
structure HostTag where
  link : Fin 2
  tag : BitVec 14
deriving DecidableEq, Repr

/-- How a request to a host link ends: with data, perhaps poisoned, or in error (R450). -/
inductive HostResult where
  | data (bytes : List Byte) (poisoned : Bool)
  | error
deriving DecidableEq, Repr

/-- Who issues a translation command (R223): a function by its register, by its mailbox, or the
management port. -/
inductive TransIssuer where
  | register (fn : Fin 514)
  | mailbox (fn : Fin 514)
  | mgmt
deriving DecidableEq, Repr

/-- The number that tells one issuer's commands from another's. -/
def TransIssuer.code : TransIssuer → Nat
  | .register fn => fn
  | .mailbox fn => 1024 + fn
  | .mgmt => 1023

/-- Where an engine instruction issues: the engine and its context, and what the codes of its
instruction memory and of the memory it reads report. -/
structure Issue where
  engine : Fin 96
  ctx : Fin 4
  fetch : Ecc := .clean
  data : Ecc := .clean
  /-- of the second half, where an access of 16 B is made as two of 8 B (R415) -/
  data2 : Ecc := .clean
deriving DecidableEq, Repr

/-- What a move finds (R408): the data of a source in host memory or a remote window, whether it comes poisoned,
and what the codes report of the words or granules that are read, and of the granules that are written, in
ascending order; behind the list they report nothing. -/
structure MoveInput where
  data : List (BitVec 8) := []
  poison : Bool := false
  source : List Ecc := []
  dest : List Ecc := []
deriving DecidableEq, Repr

/-- Where a handshake goes: the module's UDP port it comes to, which must be 0x2100:00 (R51), and the peer's
IPv6 address. -/
structure UdpAddress where
  port : BitVec 16
  address : BitVec 128
deriving DecidableEq, Repr

/-- The readings of one sensor scan (R524): temperature points in 0.125 °C, voltage in mV and current
in mA by domain, input voltage in mV and power in 100 mW, laser bias in 10 µA and output in 0.01 dBm
by port × 4 + lane, receive power in 0.01 dBm by port, optical engine temperature by sector.  A
reading that is not listed is as before. -/
structure Scan where
  temps : List (Fin 64 × BitVec 32) := []
  volts : List (Fin 30 × BitVec 32) := []
  currents : List (Fin 30 × BitVec 32) := []
  vin : Option (BitVec 32) := none
  pin : Option (BitVec 32) := none
  lasers : List (Fin 288 × BitVec 32 × BitVec 32) := []
  rx : List (Fin 72 × BitVec 32) := []
  optical : List (Fin 9 × BitVec 32) := []
deriving DecidableEq, Repr

end Sys2Proof
end

