-- ==== Sys2Proof/Syntax/Packet.lean ====
section
/-!
DEFINITION. Fabric packets (08_packet_format.md): the common header as a record, the type header as
the 256 bits the manual numbers, with one accessor per field of Tables 08-4 to 08-9.
-/
namespace Sys2Proof

/-- A packet: the common header of Table 08-1, the type header, and the payload.  LENGTH is the
payload's length (R235). -/
structure Packet where
  type : Nat
  vc : Nat := 0
  hops : Nat := 0
  detour : Nat := 0
  tepoch : Nat := 0
  order : Bool := false
  poison : Bool := false
  squall : Bool := false
  solicit : Bool := false
  tclass : Nat := 0
  colour : Nat := 0
  lane : Nat := 0
  tenant : Nat := 0
  dest : Nat
  source : Nat
  attempt : Nat := 0
  /-- bits [367:320], reserved -/
  rsvd : Nat := 0
  stamp : Nat := 0
  /-- the type header, bits [255:0] -/
  th : Nat := 0
  payload : List Byte := []
deriving DecidableEq, Repr

end Sys2Proof
end

