-- ==== Sys2Proof/Syntax.lean ====
section
/-!
DEFINITION. The commands of the module: one constructor per row of spec/opcode_table.json, with the
operands the command carries.
-/
namespace Sys2Proof

/-- The commands and events of the EDG-7296-A. -/
inductive Instr where
  /-- REF_CLK_LOST (R14): REF_CLK has had no edge for 100 ns or is out of frequency over 10 µs,
    so TB declares it lost and changes time state under Table 01-3. -/
  | refClkLost
  /-- EPOCH_EDGE (R15): An EPOCH edge is judged against MT, or against the previous edge, and is
    ignored, confirmed or used for qualification and correction. -/
  | epochEdge (spacing : BitVec 32) (refMs : BitVec 16)
  /-- EPOCH_LOST (R14): Three consecutive expected EPOCH edges are missing, so EPOCH is declared
    lost. -/
  | epochLost
  /-- TCODE_FRAME (R18): A 96-bit TCODE frame is checked for validity and compared with the
    seconds count or used for qualification. -/
  | tcodeFrame (frame : BitVec 96) (startUs endUs : BitVec 32)
  /-- TCODE_LOST (R19): Four seconds pass without a valid TCODE frame, so TB sets seconds
    unconfirmed and stays in its current state. -/
  | tcodeLost
  /-- SLEW_END (R37): The residual offset reaches 0, and MT returns to its nominal rate. -/
  | slewEnd
  /-- USABLE_PEER_ADVERTISED (R23): A usable peer has been advertised for 1 s, so TB sets or
    corrects MT to it and enters FABRIC_LOCKED. -/
  | usablePeerAdvertised (p : Fin 72)
  /-- SOURCE_PEER_LOST (R23): The FABRIC_LOCKED source peer is lost or its depth rises to 14 or
    15, so TB advertises 15 and enters HOLDOVER. -/
  | sourcePeerLost
  /-- HOLD_DOWN_EXPIRY (R28): The 1 s hold-down ends and TB chooses a time source again. -/
  | holdDownExpiry
  /-- TIME_EXCHANGE_START (R29): The transfer interval expires on a trained port, and TB sends a
    TIME request. -/
  | timeExchangeStart (p : Fin 72)
  /-- TIME_REQUEST_ARRIVE (R253): A TIME request arrives, and the module answers it with T2 and
    T3 stamps. -/
  | timeRequestArrive (port : Fin 72) (p : Packet)
  /-- TIME_RESPONSE_ARRIVE (R29): A TIME response arrives; offset, delay and depth are published,
    and the rate is disciplined or a correction is started. -/
  | timeResponseArrive (port : Fin 72) (p : Packet)
  /-- MEASURED_DELAY_UPDATE (R20): The 64 s average of peer offsets completes, and the measured
    cable delay is written and used. -/
  | measuredDelayUpdate
  /-- CALIBRATION_COMPLETE (R31): 600 s of continuous REF_LOCKED elapse, and the calibration flag
    is set. -/
  | calibrationComplete (ppb : BitVec 32)
  /-- UNCERTAINTY_LIMIT_CROSSED (R32): The uncertainty passes 0x4031:00 while the state is not
    FREE, and the fault source is raised once. -/
  | uncertaintyLimitCrossed
  /-- TIME_PULSE (R33): MT reaches a whole second, and TIME_PULSE is driven high unless the state
    is FREE or the pulse is disabled. -/
  | timePulse
  /-- TIME_PULSE_END (R33): 10 µs after its start, TIME_PULSE returns low. -/
  | timePulseEnd
  /-- SESSION_OPEN (R51): A DTLS 1.3 handshake on the management port opens a Yusto session, or
    is refused when the session limit is reached. -/
  | sessionOpen (accepted : Bool) (address : UdpAddress)
  /-- SESSION_IDLE_TIMEOUT (R51): A management session is idle for 0x2102:00 seconds and is
    closed; its OPEN sets are discarded. -/
  | sessionIdleTimeout (session : BitVec 30)
  /-- DATAGRAM_OUTSIDE_SESSION (R51): A datagram, or a record too short for a Yusto header,
    arrives outside an established session and is discarded and counted. -/
  | datagramOutsideSession
  /-- YUSTO_READ (R53): A READ request returns the live value of an object, or its shadow value
    on request, after the checks of R585. -/
  | yustoRead (h : YHdr) (idx : BitVec 16) (sub : BitVec 8) (shadow : Bool)
  /-- YUSTO_WRITE (R53): A WRITE request stores an RC value in a commit set's shadow, or writes
    an RW value under R586. -/
  | yustoWrite (h : YHdr) (idx : BitVec 16) (sub set : BitVec 8) (value : List Byte)
  /-- YUSTO_SHAPE (R47): A SHAPE request returns the element count, type code and entry size of
    an object. -/
  | yustoShape (h : YHdr) (idx : BitVec 16)
  /-- SEG_READ (R56): A SEG-READ request returns one segment of a TABLE with the configuration
    generation, or STALE. -/
  | segRead (h : YHdr) (idx : BitVec 16) (sub : BitVec 8) (off : BitVec 32) (len : BitVec 16)
  /-- SEG_WRITE (R57): A SEG-WRITE request writes one segment of a TABLE into a set's shadow or
    into the update staging. -/
  | segWrite (h : YHdr) (idx : BitVec 16) (sub set : BitVec 8) (total off : BitVec 32) (data :
    List Byte)
  /-- COMMIT (R62): COMMIT action 0 freezes a set, checks it in three passes, and arms or applies
    it. -/
  | commit (h : YHdr) (set : BitVec 8) (applyMT : BitVec 64)
  /-- COMMIT_CANCEL (R59): COMMIT action 1 releases an ARMED set's slot and reopens the set, or
    answers ALREADY_APPLIED. -/
  | commitCancel (h : YHdr) (set : BitVec 8)
  /-- COMMIT_DISCARD (R59): COMMIT action 2 discards an OPEN set's shadow and closes the set. -/
  | commitDiscard (h : YHdr) (set : BitVec 8)
  /-- REPORT (R65): A REPORT request returns a set's state, apply MT, clamp count and report
    entries. -/
  | report (h : YHdr) (set : BitVec 8) (first : BitVec 16)
  /-- SUBSCRIBE (R58): A SUBSCRIBE request with a non-zero mask registers a subscription for the
    session. -/
  | subscribe (h : YHdr) (mask : BitVec 32) (lo hi : BitVec 16)
  /-- SUBSCRIBE_CANCEL (R58): A SUBSCRIBE request with mask 0 cancels a subscription. -/
  | subscribeCancel (h : YHdr) (lo hi : BitVec 16)
  /-- SEQ_GAP_WAIT_EXPIRY (R55): The held request nearest NEXT has waited 0x2105:00; the missing
    SEQ values are passed over, and the held requests execute in order. -/
  | seqGapWaitExpiry (session : BitVec 30)
  /-- APPLY (R64): A set's apply instant is reached; every unit switches its objects at one clock
    edge, and pass 3 is re-evaluated if needed. -/
  | apply (set : Fin 16)
  /-- PERSIST_COMPLETE (R69): Both MRAM configuration copies have been written and checked with a
    new persist generation. -/
  | persistComplete
  /-- CHECK_WORD_SCAN (R67): A full scan recomputes the live check word, compares it with the
    reference word, and may raise configuration drift. -/
  | checkWordScan
  /-- DOORBELL_TAIL (R84): A KIND 0 doorbell is checked and sets TAIL, halts the queue, or is
    discarded or ignored. -/
  | doorbellTail (fn : Fin 514) (slot : BitVec 20) (rsvd1 : BitVec 12) (gen rsvd0 : BitVec 8)
    (index : BitVec 32)
  /-- DOORBELL_HEAD (R84): A KIND 1 doorbell is checked and sets HEAD of a completion or event
    queue. -/
  | doorbellHead (fn : Fin 514) (slot : BitVec 20) (rsvd1 : BitVec 12) (gen rsvd0 : BitVec 8)
    (index : BitVec 32)
  /-- DOORBELL_HEAD_ARM (R96): A KIND 2 doorbell sets HEAD and arms interrupt moderation of a
    completion or event queue. -/
  | doorbellHeadArm (fn : Fin 514) (slot : BitVec 20) (rsvd1 : BitVec 12) (gen rsvd0 : BitVec 8)
    (index : BitVec 32)
  /-- KEY_RIGHTS_WRITE (R232): A write to a queue's key-rights word is checked and sets the
    rights for descriptors fetched after it. -/
  | keyRightsWrite (fn : Fin 514) (slot : BitVec 20) (rsvd1 : BitVec 16) (gen rsvd0 : BitVec 8)
    (rights : BitVec 32)
  /-- REGISTER_WRITE (R457): A write to a register or window location that has no row of its own
    is stored or discarded and counted. -/
  | registerWrite (fn : Fin 514) (loc : RegLoc) (data : List Byte) (poisoned : Bool)
  /-- FETCH_VISIT (R99): QM visits an eligible queue and fetches up to a gust of descriptors,
    checking each at fetch. -/
  | fetchVisit
  /-- HOST_READ_COMPLETION (R450): A completion for a host-memory read (ring, fragment table,
    data, table entry or zero-length read) arrives, or the read ends in error. -/
  | hostReadCompletion (tag : HostTag) (r : HostResult)
  /-- DESCRIPTOR_RETIRE (R88): An operation reaches its completion condition and retires in ring
    order, and its completion is written when required. -/
  | descriptorRetire (qn : BitVec 20)
  /-- MODERATION_TIMEOUT (R96): MOD_TIME elapses on an armed completion or event queue, so the
    queue raises its MSI-X vector and disarms. -/
  | moderationTimeout (qn : BitVec 20)
  /-- NOP (R86): A NOP descriptor does nothing and retires in order. -/
  | nop (qn : BitVec 20)
  /-- QUEUE_CREATE (R102): The admin command CREATE checks its parameters and makes an UNBORN or
    DESTROYED queue READY. -/
  | queueCreate (fn : Fin 514)
  /-- QUEUE_RESIZE (R103): The admin command RESIZE moves a queue to a new ring size. -/
  | queueResize (fn : Fin 514)
  /-- QUEUE_HALT (R80): The admin command HALT stops fetching and latches HOST_HALT. -/
  | queueHalt (fn : Fin 514)
  /-- QUEUE_DRAIN (R80): The admin command DRAIN sets the drain mark and makes the queue
    DRAINING. -/
  | queueDrain (fn : Fin 514)
  /-- DRAIN_COMPLETE (R80): Work up to the drain mark finishes; the queue latches DRAINED, or
    DESTROY proceeds. -/
  | drainComplete (qn : BitVec 20)
  /-- QUEUE_RESUME (R106): The admin command RESUME with SKIP 0 returns a HALTED queue to READY
    and refetches from HALT_INDEX. -/
  | queueResume (fn : Fin 514)
  /-- QUEUE_RESUME_SKIP (R106): The admin command RESUME with SKIP 1 skips the offending entry
    with DESC_ERROR, where that applies, and returns the queue to READY. -/
  | queueResumeSkip (fn : Fin 514)
  /-- QUEUE_DESTROY (R107): The admin command DESTROY without FORCE drains the queue's work and
    then destroys it. -/
  | queueDestroy (fn : Fin 514)
  /-- QUEUE_DESTROY_FORCE (R108): The admin command DESTROY with FORCE abandons the queue's work
    without completions. -/
  | queueDestroyForce (fn : Fin 514)
  /-- DESTROY_COMPLETE (R109): No host access on a destroyed queue's behalf remains, so DESTROY
    retires and the queue becomes DESTROYED. -/
  | destroyComplete (qn : BitVec 20)
  /-- QUEUE_QUERY (R104): The admin command QUERY writes a 64 B snapshot of a queue to
    RESULT_ADDR. -/
  | queueQuery (fn : Fin 514)
  /-- QUEUE_MODIFY (R101): The admin command MODIFY replaces a queue's weight, gust, event queue
    and moderation fields. -/
  | queueModify (fn : Fin 514)
  /-- DOMAIN_OPEN (R117): A domain command OPEN sets a CLOSED domain's attributes and opens it.
    -/
  | domainOpen (domain tenant : BitVec 16) (eqn : BitVec 20) (eager : BitVec 9) (uqHeaders :
    BitVec 15) (uqMib : BitVec 14) (rsvd : BitVec 30)
  /-- DOMAIN_CLOSE (R141): A domain command CLOSE takes the close actions at the arbiter and
    makes the domain CLOSING. -/
  | domainClose (domain : BitVec 16) (rsvd : BitVec 104)
  /-- DOMAIN_CLOSE_COMPLETE (R141): A CLOSING domain's placements finish and its storage is free,
    so DOMAIN_CLOSED is posted and the domain is CLOSED. -/
  | domainCloseComplete (domain : BitVec 16)
  /-- RECV_POST (R136): A POST reaches the domain arbiter and binds to an unexpected message or
    enters the posted list. -/
  | recvPost (qn : BitVec 20)
  /-- RECV_CANCEL (R136): A receive CANCEL reaches the arbiter and removes its posted receive, or
    completes ALREADY_MATCHED. -/
  | recvCancel (qn : BitVec 20)
  /-- TSEND (R125): A TSEND starts, takes its sequence number and is sent eager or rendezvous. -/
  | tsend (qn : BitVec 20)
  /-- TSEND_ARRIVE (R133): An eager TSEND packet arrives at MU, is checked, ordered, and bound,
    stored, deferred or refused. -/
  | tsendArrive (p : Packet)
  /-- RTS_ARRIVE (R133): A rendezvous request-to-send header arrives and is ordered and bound or
    stored. -/
  | rtsArrive (p : Packet)
  /-- SKIP_ARRIVE (R134): A skip notice arrives; at its turn it advances NEXT and binds nothing.
    -/
  | skipArrive (p : Packet)
  /-- SKIP_NOTICE_RESEND (R134): The loss-detection interval passes with a skip notice
    unacknowledged, so it is sent again. -/
  | skipNoticeResend (flow : Nat) (rsn : BitVec 24)
  /-- MU_RETRY_RESEND (R140): The MU retry interval after a refusal with retry expires, and the
    message header is sent again as a new attempt. -/
  | muRetryResend (flow : Nat) (rsn : BitVec 24)
  /-- RGET_ARRIVE (R131): An RGET arrives at the sender and is answered with GET_DATA from the
    rendezvous handle. -/
  | rgetArrive (p : Packet)
  /-- PUT (R146): A PUT descriptor starts; its packets are policed, stamped and injected. -/
  | put (qn : BitVec 20)
  /-- PUT_IMM (R159): A PUT_IMM descriptor starts and sends data that a BUFFER entry notifies at
    the target. -/
  | putImm (qn : BitVec 20)
  /-- GET (R146): A GET descriptor starts and requests data from a remote region. -/
  | get (qn : BitVec 20)
  /-- FADD64 (R155): An FADD64 descriptor starts a remote 64-bit fetch-and-add. -/
  | fadd64 (qn : BitVec 20)
  /-- SWAP64 (R155): A SWAP64 descriptor starts a remote 64-bit swap. -/
  | swap64 (qn : BitVec 20)
  /-- CAS64 (R155): A CAS64 descriptor starts a remote 64-bit compare-and-swap. -/
  | cas64 (qn : BitVec 20)
  /-- CAS128 (R155): A CAS128 descriptor starts a remote 128-bit compare-and-swap. -/
  | cas128 (qn : BitVec 20)
  /-- FLUSH (R165): A FLUSH descriptor starts, marks the outstanding RSNs of its flow, and is
    sent. -/
  | flush (qn : BitVec 20)
  /-- CSEND (R176): A connected CSEND starts on an OPEN connection, or is cancelled. -/
  | csend (qn : BitVec 20)
  /-- CPUT (R176): A connected CPUT starts on an OPEN connection, or is cancelled. -/
  | cput (qn : BitVec 20)
  /-- CGET (R176): A connected CGET starts on an OPEN connection, or is cancelled. -/
  | cget (qn : BitVec 20)
  /-- PUT_ARRIVE (R154): A PUT packet is checked at the target and placed, stalled or refused. -/
  | putArrive (p : Packet)
  /-- PUT_IMM_ARRIVE (R159): A PUT_IMM packet is placed and, once the message is complete,
    consumes a BUFFER entry and is acknowledged. -/
  | putImmArrive (p : Packet)
  /-- GET_ARRIVE (R154): A GET packet is checked at the target and answered with GET_DATA, or
    with an ACK for zero length. -/
  | getArrive (p : Packet)
  /-- FADD64_ARRIVE (R155): An FADD64 request is checked and executed as a PCIe FetchAdd. -/
  | fadd64Arrive (p : Packet)
  /-- SWAP64_ARRIVE (R155): A SWAP64 request is checked and executed as a PCIe Swap. -/
  | swap64Arrive (p : Packet)
  /-- CAS64_ARRIVE (R155): A CAS64 request is checked and executed as a 64-bit PCIe CAS. -/
  | cas64Arrive (p : Packet)
  /-- CAS128_ARRIVE (R155): A CAS128 request is checked and executed as a 128-bit PCIe CAS. -/
  | cas128Arrive (p : Packet)
  /-- FLUSH_ARRIVE (R165): A FLUSH arrives and is acknowledged once its named RSNs have completed
    and the zero-length reads are done. -/
  | flushArrive (p : Packet)
  /-- CSEND_ARRIVE (R177): A CSEND packet is checked against its connection and placed into a
    BUFFER entry of SRQN. -/
  | csendArrive (p : Packet)
  /-- CPUT_ARRIVE (R176): A CPUT packet is checked against its connection and region and placed.
    -/
  | cputArrive (p : Packet)
  /-- CGET_ARRIVE (R176): A CGET packet is checked against its connection and region and
    answered. -/
  | cgetArrive (p : Packet)
  /-- ACK_ARRIVE (R171): An ACK arrives at the source, completes the message, and updates the
    flow's congestion window. -/
  | ackArrive (p : Packet)
  /-- REFUSAL_ARRIVE (R246): A REFUSAL arrives, failing the message or scheduling a retry with
    its interval. -/
  | refusalArrive (p : Packet)
  /-- GET_DATA_ARRIVE (R146): A GET_DATA packet arrives and its payload is written to LOCAL_ADDR.
    -/
  | getDataArrive (p : Packet)
  /-- ATOMIC_RESP_ARRIVE (R245): An ATOMIC_RESP arrives and the old value is written to
    LOCAL_ADDR. -/
  | atomicRespArrive (p : Packet)
  /-- LOSS_NOTICE_ARRIVE (R166): A LOSS_NOTICE reaches its owning unit, which retransmits or
    reports the lost packet. -/
  | lossNoticeArrive (p : Packet)
  /-- LOSS_INTERVAL_EXPIRY (R166): A message stays unacknowledged for 0x7830:00, so it is
    retransmitted whole or fails with LOSS. -/
  | lossIntervalExpiry (flow : Nat) (rsn : BitVec 24)
  /-- RNR_RETRY (R160): The RNR interval after a no-buffer refusal expires, and the whole message
    is resent. -/
  | rnrRetry (flow : Nat) (rsn : BitVec 24)
  /-- FLOW_CONTEXT_RETRY (R167): The retry interval after a FLOW_CONTEXTS refusal expires, and
    the message is resent. -/
  | flowContextRetry (flow : Nat) (rsn : BitVec 24)
  /-- PAGE_RETRY_RESEND (R169): The retry-after hint of a PAGE_RETRY refusal passes, and the
    message is fetched again and resent. -/
  | pageRetryResend (flow : Nat) (rsn : BitVec 24)
  /-- FLOW_CONTEXT_EXPIRY (R167): An idle target flow context passes its keep time and is freed.
    -/
  | flowContextExpiry (flow : Nat)
  /-- BASE_DELAY_RESET (R171): The base-delay reset interval expires, so the base delay is reset
    to the next sample. -/
  | baseDelayReset (node : BitVec 20)
  /-- STALL_EXPIRY (R168): A packet stalled in the fault buffer reaches 0x7850:00 and is refused
    with STALL_EXPIRED. -/
  | stallExpiry (slot : BitVec 12)
  /-- POLICER_REEVALUATE (R315): The peak bucket allows a held red message, which is evaluated
    again and injected. -/
  | policerReevaluate (flow : Nat) (rsn : BitVec 24)
  /-- REGISTER_REGION (R153): The REMOTE action REGISTER makes a FREE region LIVE under a new
    key. -/
  | registerRegion (fn : Fin 514)
  /-- DEREGISTER (R153): The REMOTE action DEREGISTER makes a LIVE region DRAINING and refuses
    stalled packets. -/
  | deregister (fn : Fin 514)
  /-- REGION_DRAIN_COMPLETE (R153): No checked access of a DRAINING region can still touch
    memory, so DEREGISTER retires and the region is FREE. -/
  | regionDrainComplete (region : BitVec 20)
  /-- OPEN_CONN (R175): The REMOTE action OPEN_CONN allocates a connection context and opens the
    connection. -/
  | openConn (fn : Fin 514)
  /-- CLOSE_CONN (R175): The REMOTE action CLOSE_CONN without FORCE makes the connection CLOSING.
    -/
  | closeConn (fn : Fin 514)
  /-- CLOSE_CONN_FORCE (R175): The REMOTE action CLOSE_CONN with FORCE abandons started
    operations and closes the connection. -/
  | closeConnForce (fn : Fin 514)
  /-- CONN_CLOSE_COMPLETE (R175): Every started operation of a CLOSING connection has retired, so
    CLOSE_CONN retires. -/
  | connCloseComplete (conn : BitVec 24)
  /-- GROUP_CREATE (R187): GROUP_CREATE reads and checks the member table, reserves staging,
    computes the tree and starts the join. -/
  | groupCreate (qn : BitVec 20)
  /-- GROUP_DESTROY (R189): GROUP_DESTROY cancels open steps, sends DEPART and releases the
    group. -/
  | groupDestroy (qn : BitVec 20)
  /-- ALLREDUCE (R190): An ALLREDUCE starts a step, reads its contribution into staging, and arms
    its launch. -/
  | allreduce (qn : BitVec 20)
  /-- BROADCAST (R199): A BROADCAST starts a step carrying ROOT's data or an empty token. -/
  | broadcast (qn : BitVec 20)
  /-- BARRIER (R199): A BARRIER starts a step with an empty token. -/
  | barrier (qn : BitVec 20)
  /-- COLLECTIVE_LAUNCH (R200): A step's launch instant is reached, and the member's contribution
    is combined, possibly marked LATE. -/
  | collectiveLaunch (group : BitVec 12) (step : BitVec 32)
  /-- COLL_JOIN (R188): A JOIN arrives, is refused with retry, or is recorded, and the member may
    send JOIN or READY. -/
  | collJoin (p : Packet)
  /-- COLL_READY (R188): A READY arrives; the member becomes ACTIVE, forwards READY, and retires
    GROUP_CREATE. -/
  | collReady (p : Packet)
  /-- COLL_ABANDON (R188): An ABANDON arrives; a JOINING member abandons and forwards it, an
    ACTIVE member declares a loss. -/
  | collAbandon (p : Packet)
  /-- COLL_CONTRIB (R192): A child's CONTRIB arrives, is checked against the step's signature,
    and is combined or kept in staging. -/
  | collContrib (p : Packet)
  /-- COLL_RESULT (R192): A RESULT arrives from the parent, is forwarded to the children and
    written to TARGET. -/
  | collResult (p : Packet)
  /-- COLL_ABORT (R201): An ABORT arrives and ends its step at this member, being forwarded down
    at the top root. -/
  | collAbort (p : Packet)
  /-- COLL_HEARTBEAT (R204): A HEARTBEAT arrives and renews its neighbour's liveness. -/
  | collHeartbeat (p : Packet)
  /-- COLL_DEPART (R204): A DEPART arrives and its sender is declared lost. -/
  | collDepart (p : Packet)
  /-- COLL_LOST (R205): A LOST reaches the top root, which decides the open steps and sends
    BROKEN. -/
  | collLost (p : Packet)
  /-- COLL_BROKEN (R205): A BROKEN arrives; the survivor completes steps above E with MEMBER_LOST
    and fetches the rest. -/
  | collBroken (p : Packet)
  /-- COLL_FETCH (R205): A FETCH reaches the top root, which returns the step's result from
    staging. -/
  | collFetch (p : Packet)
  /-- JOIN_RETRY (R188): The join retry interval expires, and a refused JOIN is sent again. -/
  | joinRetry (group : BitVec 12)
  /-- JOIN_TIMEOUT_EXPIRY (R188): The join timeout expires, so the member abandons the group with
    JOIN_TIMEOUT. -/
  | joinTimeoutExpiry (group : BitVec 12)
  /-- HEARTBEAT_INTERVAL (R204): The heartbeat interval expires while a step is open, and
    HEARTBEAT is sent to the tree neighbours. -/
  | heartbeatInterval (group : BitVec 12)
  /-- LIVENESS_TIMEOUT (R204): No packet arrives from a tree neighbour for 0x7C12:00 during an
    open step, so that neighbour is declared LOST_SILENT. -/
  | livenessTimeout (group : BitVec 12) (node : BitVec 20)
  /-- STEP_TIMEOUT_EXPIRY (R202): A step open longer than 0x7C13:00 at the top root is aborted
    with STEP_TIMEOUT. -/
  | stepTimeoutExpiry (group : BitVec 12) (step : BitVec 32)
  /-- AS_CREATE (R214): An address-space command CREATE makes a FREE ASID LIVE. -/
  | asCreate (writer : Option (Fin 514)) (asid : BitVec 16) (fn : BitVec 10) (tenant : BitVec 16)
    (eqn : BitVec 20) (failPolicy mark : Bool) (rsvd2 : BitVec 24) (rights : BitVec 32) (rsvd1 :
    BitVec 8) (root : BitVec 56) (rsvd0 : BitVec 64)
  /-- AS_MODIFY (R214): An address-space command MODIFY changes a LIVE ASID's EQN, policies and
    rights, invalidating everything if ROOT changes. -/
  | asModify (writer : Option (Fin 514)) (asid : BitVec 16) (fn : BitVec 10) (tenant : BitVec 16)
    (eqn : BitVec 20) (failPolicy mark : Bool) (rsvd2 : BitVec 24) (rights : BitVec 32) (rsvd1 :
    BitVec 8) (root : BitVec 56) (rsvd0 : BitVec 64)
  /-- AS_DESTROY (R214): An address-space command DESTROY discards the ASID's cached entries and
    makes it CLOSING. -/
  | asDestroy (writer : Option (Fin 514)) (asid : BitVec 16) (fn : BitVec 10) (rsvd : BitVec 222)
  /-- AS_CLOSE_COMPLETE (R214): No walk or access of a CLOSING ASID remains, so it becomes FREE.
    -/
  | asCloseComplete (asid : BitVec 16)
  /-- TRANSLATION_INVALIDATE (R224): A translation command INVALIDATE removes the TLB and
    walk-cache entries in scope. -/
  | translationInvalidate (issuer : TransIssuer) (asid token : BitVec 16) (tlb walk all rsvd3 :
    Bool) (pages : BitVec 20) (rsvd2 : BitVec 16) (page : BitVec 36) (rsvd0 : BitVec 12)
  /-- INVALIDATE_DONE (R224): Every access and walk through the entries in scope has finished, so
    INVALIDATE_DONE is posted. -/
  | invalidateDone (issuer : TransIssuer)
  /-- FAULT_RESUME (R230): A translation command RESUME retranslates every waiter of a fault
    record by a fresh walk. -/
  | faultResume (issuer : TransIssuer) (asid id : BitVec 16) (rsvd : BitVec 88)
  /-- FAULT_FAIL (R230): A translation command FAIL fails every waiter of a fault record. -/
  | faultFail (issuer : TransIssuer) (asid id : BitVec 16) (rsvd : BitVec 88)
  /-- LOCAL_WAIT_EXPIRY (R227): A local-buffer access waits 0x8040:00 on a fault record and
    fails. -/
  | localWaitExpiry (slot : BitVec 12)
  /-- PACKET_ROUTE (R269): RT computes a route for a packet at injection or in transit, delivers
    it, queues it on a port, or discards or refuses it. -/
  | packetRoute (src : Option (Fin 72))
  /-- PACKET_START (R303): Weighted fair queueing picks an eligible head with credit, an open
    gate and shaper tokens, and the packet starts on the port. -/
  | packetStart (p : Fin 72)
  /-- SINGLE_VC_WAIT_EXPIRY (R268): A VC16 or VC18 packet in transit waits 0x6037:00 for credit
    and is discarded. -/
  | singleVcWaitExpiry (p : Fin 72) (vc18 : Bool)
  /-- HEALTH_INTERVAL (R266): The health interval expires, and HEALTH is sent per used dimension
    on each UP or DEPARTING port. -/
  | healthInterval
  /-- HEALTH_ARRIVE (R266): A HEALTH message arrives and its reach mask is stored, and peer
    reachability is evaluated. -/
  | healthArrive (port : Fin 72) (p : Packet)
  /-- VANE_UPDATE (R271): The vane period expires, and each port's per-VC vanes are updated. -/
  | vaneUpdate
  /-- REPLICA_CHECK (R283): The replica check interval expires; RT compares sector replicas with
    the management copy and repairs used entries. -/
  | replicaCheck (diffs : List (Fin 9 × BitVec 16 × Nat))
  /-- LANE_OPEN (R387): The engine service LANE_OPEN computes a path and sends LANE_SETUP for a
    new trade lane. -/
  | laneOpen (qn : BitVec 20)
  /-- LANE_SEND (R387): The engine service LANE_SEND emits its data as LANE_DATA packets on an
    OPEN lane. -/
  | laneSend (qn : BitVec 20)
  /-- LANE_CLOSE (R387): The engine service LANE_CLOSE sends LANE_RELEASE and retires when the
    lane is FREE. -/
  | laneClose (qn : BitVec 20)
  /-- LANE_SETUP_ARRIVE (R286): A LANE_SETUP arrives at a hop, is checked, and is forwarded with
    a tentative entry or answered with LANE_REPLY. -/
  | laneSetupArrive (port : Fin 72) (p : Packet)
  /-- LANE_REPLY_ARRIVE (R286): A LANE_REPLY arrives, and the hop activates or releases its
    entry, or the origin opens or frees the lane. -/
  | laneReplyArrive (port : Fin 72) (p : Packet)
  /-- LANE_DATA_ARRIVE (R388): A LANE_DATA packet is relabelled in transit, or checked and placed
    at the far end. -/
  | laneDataArrive (port : Fin 72) (p : Packet)
  /-- LANE_RELEASE_ARRIVE (R289): A LANE_RELEASE arrives, and the hop releases its lane entry,
    label and share. -/
  | laneReleaseArrive (port : Fin 72) (p : Packet)
  /-- LANE_LAST_DEPART (R289): A LAST LANE_DATA packet leaves an egress port, and that hop
    releases its entry, label and share. -/
  | laneLastDepart (port : Fin 72) (label : BitVec 16)
  /-- LANE_SETUP_TIMEOUT (R290): An origin lane in SETUP gets no reply within 0x6045:00, so it
    sends LANE_RELEASE and reports TIMEOUT. -/
  | laneSetupTimeout (lnum : BitVec 10)
  /-- TENTATIVE_LANE_TIMEOUT (R286): A tentative lane entry gets no reply within 2 × 0x6045:00
    and is released. -/
  | tentativeLaneTimeout (port : Fin 72) (label : BitVec 16)
  /-- SQUALL_NOTICE_ARRIVE (R288): A SQUALL_NOTICE reaches a lane origin, which limits the lane
    to its reserved share. -/
  | squallNoticeArrive (p : Packet)
  /-- SQUALL_HOLD_EXPIRY (R288): The squall hold of a lane expires, and the lane may use idle
    bandwidth again. -/
  | squallHoldExpiry (lnum : BitVec 10)
  /-- GATE_BOUNDARY (R307): MT reaches a gate-list entry boundary, and the port's class gates
    change. -/
  | gateBoundary (p : Fin 72)
  /-- QUEUE_SAMPLE (R316): The sample interval instant is reached, and depth and delay records
    are written for the selected ports and VCs. -/
  | queueSample (skip : Bool)
  /-- SYNC_MARKER_INTERVAL (R298): The sync interval expires, and a credit-sync marker is queued
    in the port's cell sequence. -/
  | syncMarkerInterval (p : Fin 72)
  /-- CELL_TRANSMIT (R329): A cell slot arrives, and the sender chooses a retransmission, packet
    cell, control cell, compensation cell or IDLE. -/
  | cellTransmit (p : Fin 72)
  /-- DATA_CELL_RECEIVE (R330): A DATA cell is checked, stored or discarded, and cells are
    released in sequence, with packets going to XB. -/
  | dataCellReceive (p : Fin 72) (c : RawCell)
  /-- CREDIT_CELL_RECEIVE (R334): A CREDIT cell is stored and, at its release in sequence, its
    credit returns are applied. -/
  | creditCellReceive (p : Fin 72) (c : RawCell)
  /-- SYNC_MARK_RECEIVE (R299): A SYNC_MARK cell is released in sequence, the credit books are
    evaluated, and a SYNC_REPLY is queued. -/
  | syncMarkReceive (p : Fin 72) (c : RawCell)
  /-- SYNC_REPLY_RECEIVE (R337): A SYNC_REPLY is released in sequence, and each VC's D is
    subtracted from the sender's credit. -/
  | syncReplyReceive (p : Fin 72) (c : RawCell)
  /-- TRAIN_CELL_RECEIVE (R340): A TRAIN cell is taken for the training exchange, or it takes an
    ACTIVE link down. -/
  | trainCellReceive (p : Fin 72) (c : RawCell)
  /-- IDLE_CELL_RECEIVE (R322): An IDLE cell is received and is used only for its header, or is
    deleted by rate matching. -/
  | idleCellReceive (p : Fin 72) (c : RawCell) (matched : Option Bool)
  /-- REPLAY_TIMEOUT (R332): The oldest cell in replay stays unacknowledged for T_R, so all of
    replay is retransmitted, or the link goes down. -/
  | replayTimeout (p : Fin 72)
  /-- SILENCE_LIMIT_EXPIRY (R342): No good cell arrives for 0x5812:00, so the link goes down and
    enters RESUMING. -/
  | silenceLimitExpiry (p : Fin 72)
  /-- GRACE_EXPIRY (R341): The grace timer of a RESUMING link expires, and the port is flushed
    and retrains. -/
  | graceExpiry (p : Fin 72)
  /-- HELD_RETRY_EXPIRY (R341): One second after entering HELD, the link starts the training
    exchange again. -/
  | heldRetryExpiry (p : Fin 72)
  /-- RETRAIN (R341): A write to the Retrain object flushes the port and restarts bring-up. -/
  | retrain (p : Fin 72)
  /-- TRAINING_TIME_EXPIRY (R359): The training time passes after bring-up starts, and the
    transmitter switches from PRBS13Q to the framed stream. -/
  | trainingTimeExpiry (p : Fin 72)
  /-- ALIGNMENT_MARKER_RECEIVE (R355): An alignment marker arrives, updates marker lock, deskew
    and RX_GOOD, and may announce a lane-set change. -/
  | alignmentMarkerReceive (p : Fin 72) (lane : Fin 4) (marker : BitVec 128) (scheduled : Bool)
    (bips skew : BitVec 16)
  /-- CODEWORD_DECODE (R352): An RS(544,514) codeword is decoded and corrected, or the cells that
    overlap it are marked lost; FEC lock may be reached. -/
  | codewordDecode (p : Fin 72) (e0 e1 e2 e3 : BitVec 16) (cells : BitVec 4)
  /-- LANE_LOCK_LOSS (R364): A receive lane loses CDR or marker lock; RX_GOOD changes, and the
    link goes down if no lane remains good. -/
  | laneLockLoss (p : Fin 72) (lane : Fin 4) (cdr : Bool)
  /-- LOSS_OF_SIGNAL (R368): A lane's receive power falls below 0x5064:00, which is loss of
    signal for the lane. -/
  | lossOfSignal (p : Fin 72) (lane : LanePower)
  /-- BRING_UP_TIMEOUT (R360): Bring-up does not reach FEC lock within 0x5017:00, and a restart
    is scheduled after a random delay. -/
  | bringUpTimeout (p : Fin 72)
  /-- BRING_UP_RESTART (R360): The random delay passes, and blind bring-up restarts at step 1. -/
  | bringUpRestart (p : Fin 72)
  /-- LULL_DWELL_EXPIRY (R362): Under LOAD policy, payload stays below the utilisation threshold
    for the dwell time, so the lane set narrows one step. -/
  | lullDwellExpiry (p : Fin 72)
  /-- LULL_EXIT_DEPTH (R362): Under LOAD policy, an egress VC depth reaches 0x5013:00, so
    widening to the widest good set starts. -/
  | lullExitDepth (p : Fin 72)
  /-- LANE_RESTORE_HOLD_EXPIRY (R362): Every lane of a wider set has been good for 0x5018:00, so
    widening starts. -/
  | laneRestoreHoldExpiry (p : Fin 72)
  /-- WARM_UP_EXPIRY (R363): The warm-up time of lasers turned on for widening passes, and
    markers are sent on the lanes being added. -/
  | warmUpExpiry (p : Fin 72)
  /-- WIDENING_TIMEOUT (R363): Added lanes are not reported good within 0x5017:00, so the set
    stays unchanged and the attempt is counted. -/
  | wideningTimeout (p : Fin 72)
  /-- PEAKING_TRACK (R356): Once per 1 ms, an unfixed receive equaliser may move by one peaking
    step. -/
  | peakingTrack (p : Fin 72) (lane : Fin 4) (up : Option Bool)
  /-- BIT_SLIP (R365): A write of the Bit-slip object delays a lane's receive symbol boundary by
    one symbol. -/
  | bitSlip (p : Fin 72) (lane : Fin 4)
  /-- EYE_SCAN (R367): An eye scan command starts a scan in its sector, aborting any scan running
    there, or ends as invalid. -/
  | eyeScan (port : BitVec 7) (lane eye : BitVec 2) (hstep : BitVec 6) (voff dwell : BitVec 8)
    (rsvd : BitVec 95)
  /-- EYE_SCAN_COMPLETE (R367): A scan's dwell is complete, or its lane becomes unusable, and the
    result is posted as done or aborted. -/
  | eyeScanComplete (k : Fin 9) (errors : BitVec 64)
  /-- LASER_OUTPUT_LOW_EXPIRY (R368): A laser stays 3 dB below its set point for 10 µs, so it is
    turned off and laser fault is raised. -/
  | laserOutputLowExpiry (p : Fin 72) (lane : Fin 4) (output : BitVec 32)
  /-- WORK_ITEM_DISPATCH (R385): The dispatcher gives a new work item to a free context with a
    fresh budget, or ends it NO_ENGINE. -/
  | workItemDispatch (controlPacket : Bool)
  /-- PACKAGE_CALL (R390): A package-call descriptor runs handler h of a slot's package in
    package mode. -/
  | packageCall (qn : Fin 1048576)
  /-- BUDGET_EXHAUSTED (R385): A work item's budget reaches 0, so the context traps BUDGET. -/
  | budgetExhausted (engine : Fin 96) (ctx : Fin 4)
  /-- INTERRUPT_TAKEN (R384): With IE set, a pending event in the interrupt mask causes the
    context to trap INTERRUPT at its next instruction boundary. -/
  | interruptTaken (engine : Fin 96) (ctx : Fin 4)
  /-- DMA_MOVE_COMPLETE (R408): A move finishes, and the context's DMA event is set. -/
  | dmaMoveComplete (engine : Fin 96) (ctx : Fin 4) (tag : BitVec 64) (given : MoveInput) (status
    : BitVec 8)
  /-- MTCMP_REACHED (R384): MT reaches a context's mtcmp, and the MTCMP event is set. -/
  | mtcmpReached (engine : Fin 96) (ctx : Fin 4)
  /-- ADD (R379): ADD computes ra + rb, setting OV on signed overflow. -/
  | add (w : Issue) (rd ra rb : Fin 32)
  /-- SUB (R379): SUB computes ra − rb, setting OV on signed overflow. -/
  | sub (w : Issue) (rd ra rb : Fin 32)
  /-- NEG (R379): NEG computes −ra, setting OV for −2^63. -/
  | neg (w : Issue) (rd ra : Fin 32)
  /-- AND (R378): AND computes the bitwise AND of ra and rb. -/
  | and (w : Issue) (rd ra rb : Fin 32)
  /-- OR (R378): OR computes the bitwise OR of ra and rb. -/
  | or (w : Issue) (rd ra rb : Fin 32)
  /-- XOR (R378): XOR computes the bitwise XOR of ra and rb. -/
  | xor (w : Issue) (rd ra rb : Fin 32)
  /-- ANDN (R378): ANDN computes ra AND NOT rb. -/
  | andn (w : Issue) (rd ra rb : Fin 32)
  /-- CMPLT (R378): CMPLT sets rd to 1 when ra < rb, signed. -/
  | cmplt (w : Issue) (rd ra rb : Fin 32)
  /-- CMPLTU (R378): CMPLTU sets rd to 1 when ra < rb, unsigned. -/
  | cmpltu (w : Issue) (rd ra rb : Fin 32)
  /-- MIN (R378): MIN gives the signed minimum of ra and rb. -/
  | min (w : Issue) (rd ra rb : Fin 32)
  /-- MAX (R378): MAX gives the signed maximum of ra and rb. -/
  | max (w : Issue) (rd ra rb : Fin 32)
  /-- MINU (R378): MINU gives the unsigned minimum of ra and rb. -/
  | minu (w : Issue) (rd ra rb : Fin 32)
  /-- MAXU (R378): MAXU gives the unsigned maximum of ra and rb. -/
  | maxu (w : Issue) (rd ra rb : Fin 32)
  /-- SHL (R379): SHL shifts ra left by rb, giving 0 for amounts of 64 or more. -/
  | shl (w : Issue) (rd ra rb : Fin 32)
  /-- SHR (R379): SHR shifts ra right with zero fill by rb. -/
  | shr (w : Issue) (rd ra rb : Fin 32)
  /-- SAR (R379): SAR shifts ra right with sign fill by rb. -/
  | sar (w : Issue) (rd ra rb : Fin 32)
  /-- ROTL (R379): ROTL rotates ra left by rb modulo 64. -/
  | rotl (w : Issue) (rd ra rb : Fin 32)
  /-- ROTR (R379): ROTR rotates ra right by rb modulo 64. -/
  | rotr (w : Issue) (rd ra rb : Fin 32)
  /-- ADD_32 (R379): ADD.32 adds at width 32, with the result sign-extended. -/
  | add32 (w : Issue) (rd ra rb : Fin 32)
  /-- SUB_32 (R379): SUB.32 subtracts at width 32, with the result sign-extended. -/
  | sub32 (w : Issue) (rd ra rb : Fin 32)
  /-- NEG_32 (R379): NEG.32 negates at width 32, with the result sign-extended. -/
  | neg32 (w : Issue) (rd ra : Fin 32)
  /-- SHL_32 (R379): SHL.32 shifts left at width 32. -/
  | shl32 (w : Issue) (rd ra rb : Fin 32)
  /-- SHR_32 (R379): SHR.32 shifts right with zero fill at width 32. -/
  | shr32 (w : Issue) (rd ra rb : Fin 32)
  /-- SAR_32 (R379): SAR.32 shifts right with sign fill at width 32. -/
  | sar32 (w : Issue) (rd ra rb : Fin 32)
  /-- ROTL_32 (R379): ROTL.32 rotates left modulo 32. -/
  | rotl32 (w : Issue) (rd ra rb : Fin 32)
  /-- ROTR_32 (R379): ROTR.32 rotates right modulo 32. -/
  | rotr32 (w : Issue) (rd ra rb : Fin 32)
  /-- ADDK (R378): ADDK adds a sign-extended immediate to ra. -/
  | addk (w : Issue) (rd ra : Fin 32) (imm : BitVec 16)
  /-- ADDK_32 (R378): ADDK.32 adds a sign-extended immediate at width 32. -/
  | addk32 (w : Issue) (rd ra : Fin 32) (imm : BitVec 16)
  /-- ANDK (R378): ANDK ANDs ra with a zero-extended immediate. -/
  | andk (w : Issue) (rd ra : Fin 32) (imm : BitVec 16)
  /-- ORK (R378): ORK ORs ra with a zero-extended immediate. -/
  | ork (w : Issue) (rd ra : Fin 32) (imm : BitVec 16)
  /-- XORK (R378): XORK XORs ra with a zero-extended immediate. -/
  | xork (w : Issue) (rd ra : Fin 32) (imm : BitVec 16)
  /-- CMPLTK (R378): CMPLTK compares ra, signed, with a sign-extended immediate. -/
  | cmpltk (w : Issue) (rd ra : Fin 32) (imm : BitVec 16)
  /-- CMPLTUK (R378): CMPLTUK compares ra, unsigned, with a sign-extended immediate. -/
  | cmpltuk (w : Issue) (rd ra : Fin 32) (imm : BitVec 16)
  /-- SHK_SHL (R378): SHK with selector 0 shifts ra left by an immediate amount. -/
  | shkShl (w : Issue) (rd ra : Fin 32) (amount : BitVec 8)
  /-- SHK_SHR (R378): SHK with selector 1 shifts ra right with zero fill by an immediate amount.
    -/
  | shkShr (w : Issue) (rd ra : Fin 32) (amount : BitVec 8)
  /-- SHK_SAR (R378): SHK with selector 2 shifts ra right with sign fill by an immediate amount.
    -/
  | shkSar (w : Issue) (rd ra : Fin 32) (amount : BitVec 8)
  /-- SHK_ROTL (R378): SHK with selector 3 rotates ra left by an immediate amount. -/
  | shkRotl (w : Issue) (rd ra : Fin 32) (amount : BitVec 8)
  /-- SHK_ROTR (R378): SHK with selector 4 rotates ra right by an immediate amount. -/
  | shkRotr (w : Issue) (rd ra : Fin 32) (amount : BitVec 8)
  /-- SHK_SHL_32 (R378): SHK with selector 0x10 shifts left by an immediate amount at width 32.
    -/
  | shkShl32 (w : Issue) (rd ra : Fin 32) (amount : BitVec 8)
  /-- SHK_SHR_32 (R378): SHK with selector 0x11 shifts right with zero fill by an immediate
    amount at width 32. -/
  | shkShr32 (w : Issue) (rd ra : Fin 32) (amount : BitVec 8)
  /-- SHK_SAR_32 (R378): SHK with selector 0x12 shifts right with sign fill by an immediate
    amount at width 32. -/
  | shkSar32 (w : Issue) (rd ra : Fin 32) (amount : BitVec 8)
  /-- SHK_ROTL_32 (R378): SHK with selector 0x13 rotates left by an immediate amount at width 32.
    -/
  | shkRotl32 (w : Issue) (rd ra : Fin 32) (amount : BitVec 8)
  /-- SHK_ROTR_32 (R378): SHK with selector 0x14 rotates right by an immediate amount at width
    32. -/
  | shkRotr32 (w : Issue) (rd ra : Fin 32) (amount : BitVec 8)
  /-- KHI (R378): KHI loads a sign-extended immediate shifted left by 16. -/
  | khi (w : Issue) (rd : Fin 32) (imm : BitVec 16)
  /-- KSHOR (R378): KSHOR shifts ra left by 16 and ORs in the immediate. -/
  | kshor (w : Issue) (rd ra : Fin 32) (imm : BitVec 16)
  /-- MULLO (R379): MULLO gives the low 64 bits of ra × rb, setting OV on signed overflow. -/
  | mullo (w : Issue) (rd ra rb : Fin 32)
  /-- MULHS (R378): MULHS gives the high 64 bits of the signed product. -/
  | mulhs (w : Issue) (rd ra rb : Fin 32)
  /-- MULHU (R378): MULHU gives the high 64 bits of the unsigned product. -/
  | mulhu (w : Issue) (rd ra rb : Fin 32)
  /-- MULHM (R378): MULHM gives the high 64 bits of the product of ra signed and rb unsigned. -/
  | mulhm (w : Issue) (rd ra rb : Fin 32)
  /-- QUOS (R379): QUOS gives the signed quotient truncated toward 0, with DZ and OV at the
    edges. -/
  | quos (w : Issue) (rd ra rb : Fin 32)
  /-- QUOU (R379): QUOU gives the unsigned quotient, setting DZ on division by 0. -/
  | quou (w : Issue) (rd ra rb : Fin 32)
  /-- RMDS (R379): RMDS gives the signed remainder, with the sign of the dividend. -/
  | rmds (w : Issue) (rd ra rb : Fin 32)
  /-- RMDU (R379): RMDU gives the unsigned remainder. -/
  | rmdu (w : Issue) (rd ra rb : Fin 32)
  /-- MULLO_32 (R379): MULLO.32 multiplies at width 32. -/
  | mullo32 (w : Issue) (rd ra rb : Fin 32)
  /-- QUOS_32 (R379): QUOS.32 divides signed at width 32. -/
  | quos32 (w : Issue) (rd ra rb : Fin 32)
  /-- QUOU_32 (R379): QUOU.32 divides unsigned at width 32. -/
  | quou32 (w : Issue) (rd ra rb : Fin 32)
  /-- RMDS_32 (R379): RMDS.32 gives the signed remainder at width 32. -/
  | rmds32 (w : Issue) (rd ra rb : Fin 32)
  /-- RMDU_32 (R379): RMDU.32 gives the unsigned remainder at width 32. -/
  | rmdu32 (w : Issue) (rd ra rb : Fin 32)
  /-- CLZ (R378): CLZ counts the leading zeros of ra. -/
  | clz (w : Issue) (rd ra rb : Fin 32)
  /-- CTZ (R378): CTZ counts the trailing zeros of ra. -/
  | ctz (w : Issue) (rd ra rb : Fin 32)
  /-- POPC (R378): POPC counts the one bits of ra. -/
  | popc (w : Issue) (rd ra rb : Fin 32)
  /-- BSWAP (R378): BSWAP reverses the bytes of ra. -/
  | bswap (w : Issue) (rd ra rb : Fin 32)
  /-- CRC (R378): CRC updates a CRC-32C state with the 8 bytes of rb. -/
  | crc (w : Issue) (rd ra rb : Fin 32)
  /-- CLZ_32 (R378): CLZ.32 counts leading zeros at width 32. -/
  | clz32 (w : Issue) (rd ra rb : Fin 32)
  /-- CTZ_32 (R378): CTZ.32 counts trailing zeros at width 32. -/
  | ctz32 (w : Issue) (rd ra rb : Fin 32)
  /-- POPC_32 (R378): POPC.32 counts one bits at width 32. -/
  | popc32 (w : Issue) (rd ra rb : Fin 32)
  /-- LD8 (R376): LD8 loads a sign-extended byte. -/
  | ld8 (w : Issue) (rd ra : Fin 32) (imm : BitVec 16)
  /-- LD8U (R376): LD8U loads a zero-extended byte. -/
  | ld8u (w : Issue) (rd ra : Fin 32) (imm : BitVec 16)
  /-- LD16 (R376): LD16 loads a sign-extended halfword. -/
  | ld16 (w : Issue) (rd ra : Fin 32) (imm : BitVec 16)
  /-- LD16U (R376): LD16U loads a zero-extended halfword. -/
  | ld16u (w : Issue) (rd ra : Fin 32) (imm : BitVec 16)
  /-- LD32 (R376): LD32 loads a sign-extended word. -/
  | ld32 (w : Issue) (rd ra : Fin 32) (imm : BitVec 16)
  /-- LD32U (R376): LD32U loads a zero-extended word. -/
  | ld32u (w : Issue) (rd ra : Fin 32) (imm : BitVec 16)
  /-- LD64 (R376): LD64 loads 8 bytes from any region of the engine map. -/
  | ld64 (w : Issue) (rd ra : Fin 32) (imm : BitVec 16)
  /-- LD2W (R415): LD2W loads 16 bytes into an even register pair. -/
  | ld2w (w : Issue) (rd ra : Fin 32) (imm : BitVec 16)
  /-- ST8 (R376): ST8 stores a byte. -/
  | st8 (w : Issue) (rs ra : Fin 32) (imm : BitVec 16)
  /-- ST16 (R376): ST16 stores a halfword. -/
  | st16 (w : Issue) (rs ra : Fin 32) (imm : BitVec 16)
  /-- ST32 (R376): ST32 stores a word, as a read-modify-write in context memory. -/
  | st32 (w : Issue) (rs ra : Fin 32) (imm : BitVec 16)
  /-- ST64 (R376): ST64 stores 8 bytes. -/
  | st64 (w : Issue) (rs ra : Fin 32) (imm : BitVec 16)
  /-- ST2W (R415): ST2W stores 16 bytes from an even register pair. -/
  | st2w (w : Issue) (rs ra : Fin 32) (imm : BitVec 16)
  /-- LRSV (R412): LRSV loads 8 bytes and reserves the 128 B granule. -/
  | lrsv (w : Issue) (rd ra : Fin 32) (imm : BitVec 16)
  /-- SCND (R413): SCND stores when the reservation holds, reports success, and ends the
    reservation. -/
  | scnd (w : Issue) (rd ra rb : Fin 32)
  /-- FENCE_O (R406): FENCE.O orders the context's earlier accesses before its later ones. -/
  | fenceO (w : Issue)
  /-- FENCE_P (R406): FENCE.P waits until every earlier access is complete at its end point,
    trapping BUS on remote failure. -/
  | fenceP (w : Issue)
  /-- BR_EQ (R378): BR.EQ branches when ra equals rb. -/
  | brEq (w : Issue) (ra rb : Fin 32) (off : BitVec 16)
  /-- BR_NE (R378): BR.NE branches when ra differs from rb. -/
  | brNe (w : Issue) (ra rb : Fin 32) (off : BitVec 16)
  /-- BR_LT (R378): BR.LT branches when ra < rb, signed. -/
  | brLt (w : Issue) (ra rb : Fin 32) (off : BitVec 16)
  /-- BR_GE (R378): BR.GE branches when ra ≥ rb, signed. -/
  | brGe (w : Issue) (ra rb : Fin 32) (off : BitVec 16)
  /-- BR_LTU (R378): BR.LTU branches when ra < rb, unsigned. -/
  | brLtu (w : Issue) (ra rb : Fin 32) (off : BitVec 16)
  /-- BR_GEU (R378): BR.GEU branches when ra ≥ rb, unsigned. -/
  | brGeu (w : Issue) (ra rb : Fin 32) (off : BitVec 16)
  /-- CALL (R378): CALL saves pc + 4 in g31 and jumps relative. -/
  | call (w : Issue) (off : BitVec 26)
  /-- JUMP (R378): JUMP jumps relative to pc. -/
  | jump (w : Issue) (off : BitVec 26)
  /-- CALLR (R378): CALLR saves pc + 4 in rd and jumps to a register-relative address. -/
  | callr (w : Issue) (rd ra : Fin 32) (imm : BitVec 16)
  /-- RDS (R380): RDS reads a special register under the mode checks. -/
  | rds (w : Issue) (rd ra : Fin 32) (sel : BitVec 12)
  /-- WRS (R380): WRS writes a special register under the mode checks. -/
  | wrs (w : Issue) (rd ra : Fin 32) (sel : BitVec 12)
  /-- TRAP (R381): The TRAP instruction raises trap TRAP with its selector. -/
  | trap (w : Issue) (rd ra : Fin 32) (sel : BitVec 12)
  /-- BREAK (R381): The BREAK instruction raises trap BREAK with its selector. -/
  | brk (w : Issue) (rd ra : Fin 32) (sel : BitVec 12)
  /-- RETURN (R382): RETURN returns from a trap, restoring mode and interrupt enable. -/
  | ret (w : Issue) (rd ra : Fin 32) (sel : BitVec 12)
  /-- WAIT (R384): WAIT blocks until a pending event in the mask, then takes and clears those
    events. -/
  | wait (w : Issue) (rd ra : Fin 32) (sel : BitVec 12)
  /-- YIELD (R378): YIELD offers a context switch. -/
  | yield (w : Issue) (rd ra : Fin 32) (sel : BitVec 12)
  /-- DONE (R390): DONE ends the work item and writes a package call's completion from g1 to g3.
    -/
  | doneItem (w : Issue) (rd ra : Fin 32) (sel : BitVec 12)
  /-- MTREAD (R378): MTREAD reads MT into rd. -/
  | mtread (w : Issue) (rd ra : Fin 32)
  /-- DMA (R408): DMA starts the move described at an LDM address and returns a tag. -/
  | dma (w : Issue) (rd ra : Fin 32)
  /-- DMAWAIT (R408): DMAWAIT waits for a move's tag and returns its status. -/
  | dmawait (w : Issue) (rd ra : Fin 32)
  /-- WAKE (R384): WAKE posts a WAKE event to a context of an engine. -/
  | wake (w : Issue) (rd ra : Fin 32)
  /-- ACQUIRE (R425): The engine ACQUIRE takes a lock or blocks the context until a grant. -/
  | acquire (w : Issue) (rd ra : Fin 32)
  /-- RELEASE (R421): The engine RELEASE gives up a lock, handing it off to the first waiter. -/
  | release (w : Issue) (rd ra : Fin 32)
  /-- TRY (R421): The engine TRY takes a free lock, or returns BUSY without queuing. -/
  | tryLock (w : Issue) (rd ra : Fin 32)
  /-- ILLEGAL_INSTRUCTION (R378): An instruction word with an undefined opcode, function or
    non-zero zero field raises ILLEGAL. -/
  | illegalInstruction (w : Issue) (word : BitVec 32)
  /-- ACTIVATE (R393): The activation command ACTIVATE checks an image and arms its activation
    instant, or is refused. -/
  | activate (target source : BitVec 8) (instant : BitVec 64)
  /-- ACTIVATION_CANCEL (R393): The activation command CANCEL releases an armed activation. -/
  | activationCancel (target : BitVec 8)
  /-- PACKAGE_REMOVE (R393): The activation command REMOVE quiesces a package slot and empties
    it. -/
  | packageRemove (target : BitVec 8)
  /-- ACTIVATION_INSTANT (R394): The activation instant is reached, and the scope begins to
    quiesce. -/
  | activationInstant (target : BitVec 8)
  /-- QUIESCE_COMPLETE (R394): The scope is quiescent; the loader writes the new image and
    dispatch resumes. -/
  | quiesceComplete (target : BitVec 8)
  /-- QUIESCE_TIMEOUT (R395): The scope is not quiescent within 0x8412:00, so the activation is
    abandoned. -/
  | quiesceTimeout (target : BitVec 8)
  /-- LOCK_ACQUIRE (R427): A host lock command ACQUIRE takes a lock or queues its client. -/
  | lockAcquire (fn : Fin 514) (priority : BitVec 4) (token : BitVec 16) (eqn : BitVec 20) (rsvd
    : BitVec 8) (lock : BitVec 12)
  /-- LOCK_RELEASE (R427): A host lock command RELEASE gives up a lock with handoff. -/
  | lockRelease (fn : Fin 514) (priority : BitVec 4) (token : BitVec 16) (eqn : BitVec 20) (rsvd
    : BitVec 8) (lock : BitVec 12)
  /-- LOCK_TRY (R427): A host lock command TRY takes a free lock, or reports BUSY. -/
  | lockTry (fn : Fin 514) (priority : BitVec 4) (token : BitVec 16) (eqn : BitVec 20) (rsvd :
    BitVec 8) (lock : BitVec 12)
  /-- LOCK_CANCEL (R421): A host lock command CANCEL removes its client's waiter. -/
  | lockCancel (fn : Fin 514) (priority : BitVec 4) (token : BitVec 16) (eqn : BitVec 20) (rsvd :
    BitVec 8) (lock : BitVec 12)
  /-- SCRUB_READ (R443): Patrol scrub reads the next granule and writes back a correction or
    poisons it. -/
  | scrubRead (k : Fin 2) (ecc : Ecc)
  /-- STACK_LOST (R445): A context-memory stack is removed from service; its pools leave, objects
    in it are lost, and capacities halve. -/
  | stackLost (k : Fin 2)
  /-- MAILBOX_SUBMIT (R464): A write of MB_SUBMIT copies a Yusto request from MB_REQ for
    execution, or is discarded. -/
  | mailboxSubmit (fn : Fin 514) (len : BitVec 16)
  /-- AQ_ENABLE (R461): AQ_CONTROL ENABLE creates the admin queue pair from the AQ registers. -/
  | aqEnable (fn : Fin 514)
  /-- AQ_DISABLE (R461): AQ_CONTROL DISABLE destroys the admin pair as by FORCE. -/
  | aqDisable (fn : Fin 514)
  /-- AQ_RESUME (R461): AQ_CONTROL RESUME resumes a halted admin SQ with SKIP 0. -/
  | aqResume (fn : Fin 514)
  /-- AQ_RESUME_SKIP (R461): AQ_CONTROL RESUME_SKIP resumes a halted admin SQ with SKIP 1. -/
  | aqResumeSkip (fn : Fin 514)
  /-- AQ_RESIZE_CQ (R461): AQ_CONTROL RESIZE_CQ resizes the admin CQ and records the old WRITTEN.
    -/
  | aqResizeCq (fn : Fin 514)
  /-- GROUP_WRITE_TAKES_EFFECT (R459): A posted write to a slow register group takes effect in
    the group's domain, and BUSY clears. -/
  | groupWriteTakesEffect (fn : Fin 514) (translation : Bool)
  /-- FUNCTION_LEVEL_RESET (R454): A function-level reset starts; the function's BARs read 0 and
    its resources are torn down. -/
  | functionLevelReset (fn : Fin 514)
  /-- FLR_COMPLETE (R454): A function-level reset completes, and its registers hold reset values
    with a new mailbox session. -/
  | flrComplete (fn : Fin 514)
  /-- HOST_LINK_DOWN (R450): A host link goes down or takes a hot reset, and its functions are
    reset with host accesses ended. -/
  | hostLinkDown (k : Fin 2)
  /-- PERST_ASSERT (R511): HLk_PERST_N goes low, holding the link down and resetting its
    functions. -/
  | perstAssert (k : Fin 2)
  /-- SB_READ (R484): A committed sideband frame with OP READ captures a register value in the
    response. -/
  | sbRead (addr : BitVec 12) (data : BitVec 16)
  /-- SB_WRITE (R484): A committed sideband frame with OP WRITE writes SCRATCH, or is refused
    READ_ONLY. -/
  | sbWrite (addr : BitVec 12) (data : BitVec 16)
  /-- SB_NOP (R482): A committed sideband NOP frame captures an empty OK response, or BAD_OP. -/
  | sbNop (op : BitVec 4) (addr : BitVec 12) (data : BitVec 16)
  /-- SB_FRAME_ABORT (R483): SB_CS_N rises before the 32nd edge, so the frame is discarded and
    counted. -/
  | sbFrameAbort
  /-- INPUT_GOOD (R487): VIN has been at least 39 V for 20 ms, so PD_AO may start or restart. -/
  | inputGood (vin : BitVec 32)
  /-- INPUT_LOSS (R488): VIN falls below 38 V for 10 µs, so the module sheds to PD_AO and logs.
    -/
  | inputLoss (vin : BitVec 32)
  /-- INPUT_OVERVOLTAGE (R487): VIN exceeds 63 V for 10 µs, so the module sheds and raises input
    overvoltage. -/
  | inputOvervoltage (vin : BitVec 32)
  /-- DOMAIN_START (R493): An enabled domain's turn in the start order is reached with its parent
    ON, and its regulator soft-starts. -/
  | domainStart (d : Fin 30)
  /-- DOMAIN_POWER_GOOD (R490): A ramping domain reaches power good, and its reset is released.
    -/
  | domainPowerGood (d : Fin 30)
  /-- DOMAIN_RAMP_TIMEOUT (R490): A domain gets no power good within 5 ms and is isolated with a
    regulator fault. -/
  | domainRampTimeout (d : Fin 30)
  /-- DOMAIN_RESTART (R490): A write of a domain number to 0x3020:00 resets an ISOLATED domain
    and restarts it. -/
  | domainRestart (d : BitVec 8)
  /-- DEPART_REQUEST (R496): A write of 1 to 0x3100:00 starts a planned departure in state
    DRAINING. -/
  | departRequest
  /-- DEPART_QUIESCE_COMPLETE (R497): No message of the module's flows is unacknowledged, so
    DEPART is sent on every UP port. -/
  | departQuiesceComplete
  /-- DEPART_DRAIN_COMPLETE (R497): Every port's egress queue and replay are empty, so
    DEPART_DONE is sent, sectors turn off, and the state is DEPARTED. -/
  | departDrainComplete
  /-- DRAIN_LIMIT_EXPIRY (R497): The drain limit expires during departure; held packets are
    discarded and DEPART_DONE is sent with outcome 1. -/
  | drainLimitExpiry
  /-- LINK_CTL_DEPART_ARRIVE (R264): A LINK_CTL DEPART arrives on an UP port, and the port
    becomes DEPARTING. -/
  | linkCtlDepartArrive (port : Fin 72) (p : Packet)
  /-- DEPART_DONE_ARRIVE (R498): A DEPART_DONE arrives; reach masks are cleared and reachability
    is evaluated without grace. -/
  | departDoneArrive (port : Fin 72) (p : Packet)
  /-- POWER_ON_RESET (R504): PD_AO reaches power good from off, causing a cold reset. -/
  | powerOnReset
  /-- BROWN_OUT_RESET (R504): VIN falls below 34 V, or input good returns after a shed, causing a
    cold reset. -/
  | brownOutReset
  /-- PIN_RESET (R504): MOD_RST_N is low for at least 1 µs, causing a cold reset. -/
  | pinReset
  /-- WATCHDOG_EXPIRY (R504): The management watchdog is not refreshed within 0x3440:00, causing
    a warm reset. -/
  | watchdogExpiry
  /-- START_TIMEOUT (R512): The start timer expires before the operational milestone, causing a
    warm reset with WATCHDOG detail 2. -/
  | startTimeout
  /-- RESET_REQUEST_WARM (R504): A write of 1 to 0x3410:00 takes a warm reset with source
    SOFTWARE. -/
  | resetRequestWarm
  /-- RESET_REQUEST_COLD (R504): A write of 2 to 0x3410:00 takes a cold reset with source
    SOFTWARE. -/
  | resetRequestCold
  /-- RESET_WARM (R504): The TAP instruction RESET_WARM takes a warm DEBUG reset. -/
  | resetWarm
  /-- RESET_COLD (R504): The TAP instruction RESET_COLD takes a cold DEBUG reset. -/
  | resetCold
  /-- CLOCK_FAILURE (R504): An on-die PLL loses lock for 2 µs, causing a warm reset. -/
  | clockFailure (pll : Fin 16)
  /-- LOCKUP (R521): A lockstep mismatch or a 10 ms bus hang of the management processor causes a
    warm reset. -/
  | lockup (busHang : Bool)
  /-- RESET_RELEASE (R508): A reset is released in stages; straps are sampled on cold release,
    and the boot ROM starts and selects an image or enters Doldrums. -/
  | resetRelease (bootSel : BitVec 2) (clkMode : Bool) (slotId : BitVec 6)
  /-- BUNDLE_WAIT_EXPIRY (R513): No bundle arrives for network or host boot within 0x3414:00, so
    the boot ROM falls back to slot A or B. -/
  | bundleWaitExpiry
  /-- MANAGEMENT_FIRMWARE_START (R512): The management firmware runs, loads the configuration and
    decides a normal or restricted start. -/
  | managementFirmwareStart
  /-- OPERATIONAL_MILESTONE (R514): The start reaches operational, so the start timer stops and
    the failed-start count is reset to 0. -/
  | operationalMilestone
  /-- DOLDRUMS_EXIT (R517): A write of 1 to 0x3430:00 clears the failed-start count and takes a
    warm reset. -/
  | doldrumsExit
  /-- SENSOR_SCAN (R524): The 1 ms sensor scan reads every sensor and raises temperature warnings
    or criticals on crossings. -/
  | sensorScan (x : Scan)
  /-- TELEMETRY_SAMPLE (R525): A telemetry instant is reached; published sensor values change at
    once, and a ring record is written. -/
  | telemetrySample
  /-- LOG_COALESCE_FLUSH (R528): At the end of a second, a coalesced entry reports the entries
    omitted for one class, source and code. -/
  | logCoalesceFlush
  /-- UPDATE_BEGIN (R533): The update command BEGIN invalidates the target and starts RECEIVING,
    or is refused. -/
  | updateBegin (session : BitVec 30) (target : BitVec 8) (length : BitVec 32)
  /-- UPDATE_FINISH (R534): The update command FINISH freezes the image and starts verification.
    -/
  | updateFinish (session : BitVec 30)
  /-- UPDATE_VERIFY_COMPLETE (R534): Verification ends with the target VERIFIED or FAILED and a
    log entry. -/
  | updateVerifyComplete
  /-- UPDATE_ABORT (R533): The update command ABORT leaves the target invalid and returns the
    machine to IDLE. -/
  | updateAbort (session : BitVec 30)
  /-- UPDATE_COPY (R535): The update command COPY verifies a source slot and copies it to the
    target slot. -/
  | updateCopy (source target : BitVec 8)
  /-- BOOT_ONCE (R535): The update command BOOT_ONCE requests that the next warm reset boot a
    valid slot once. -/
  | bootOnce (target : BitVec 8)
  /-- UPDATE_ERASE (R535): The update command ERASE invalidates a target not in use. -/
  | updateErase (target : BitVec 8)
  /-- FAULT_RAISE (R547): The collector takes a raise and applies its severity's reactions:
    count, log, notice, isolation, withdrawal, safe state. -/
  | faultRaise (source : BitVec 8) (inst : BitVec 16) (data : BitVec 32)
  /-- RESET_HOLD_EXPIRY (R554): The reset-hold timer of a severity-7 raise expires, and a warm
    SOFTWARE reset is taken. -/
  | resetHoldExpiry
  /-- CLEAR_SOURCE (R556): The clear command CLEAR_SOURCE clears one sticky bit and re-evaluates
    FAULT_N. -/
  | clearSource (source : BitVec 8)
  /-- CLEAR_ALL (R556): The clear command CLEAR_ALL clears every sticky bit and re-evaluates
    FAULT_N. -/
  | clearAll
  /-- UNFREEZE (R556): The clear command UNFREEZE unfreezes the history queue. -/
  | unfreeze
  /-- EMPTY (R556): The clear command EMPTY empties the history queue and unfreezes it. -/
  | empty
  /-- FAULT_INJECTION (R557): A write of 0x3812:00 raises the named source from the management
    port. -/
  | faultInjection (source : BitVec 8)
  /-- BREEZE_TOGGLE (R555): Every 500 µs, BREEZE toggles while the keepalive is fresh and the
    module is not in safe state. -/
  | breezeToggle (written : Bool)
  /-- BREEZE_KEEPALIVE_EXPIRY (R555): No breeze keepalive is written for the allowed time, so
    BREEZE holds its level. -/
  | breezeKeepaliveExpiry
  /-- CDR_LOCK_ACQUIRED (R359): A receive lane whose power rises above 0x5064:00 gains CDR lock,
    and its peaking sweep then picks the step with the widest middle eye. -/
  | cdrLockAcquired (p : Fin 72) (lane : LanePower) (step : Fin 16)
  /-- STACK_TRAINING_COMPLETE (R433): HBM stack bring-up ends, and the stack becomes WORKING or,
    when it failed to train, ABSENT. -/
  | stackTrainingComplete (k : Fin 2) (ok : Bool)
  /-- HOST_LINK_UP (R451): A host link finishes PCI Express training and comes up, enabling its
    PF and VFs and letting the module issue requests for them. -/
  | hostLinkUp (k : Fin 2) (width rate : BitVec 8) (flit : Bool)
  /-- PERST_DEASSERT (R511): HLk_PERST_N goes high, and with HLk_REFCLK valid the link starts
    training. -/
  | perstDeassert (k : Fin 2) (refclk : Bool)
  /-- ROUND_TRIP_SAMPLE (R339): At each 1 s interval while the link is ACTIVE, a round-trip
    sample is taken and the running mean in 0x5804:p is updated. -/
  | roundTripSample (p : Fin 72) (sample : BitVec 32)
deriving DecidableEq, Repr

end Sys2Proof
end

