-- ==== Sys2Proof/Decode.lean ====
section
/-!
DEFINITION. The words of the opcode table.  spec/opcode_table.json gives no row of this module any bits:
its commands arrive on buses, ports and pins, each in a form of its own, so no word spells a command.
-/
namespace Sys2Proof

/-- The command that a word spells: none, since no row has bits. -/
def decodeTableWord (_nbits _w : Nat) : Option Instr := none

end Sys2Proof
end

