-- ==== Sys2Proof/Config.lean ====
section
/-!
DEFINITION. What the spec leaves open: the free values, and the constants of one part that the spec
names and does not give.  None has a body, so no proof can see its value.
-/
namespace Sys2Proof.Config

/-- A value the spec leaves open; the argument counts the values drawn (State.free).
DESIGN CHOICE (assumption 1): a free value, never a number.  Safe. -/
opaque freeValue : Nat → Nat

/-- The identity constants of the part (Table 20-11, Table 17-9): stepping, serial number, management
MAC address.  DESIGN CHOICE (assumption 2): constants without a value.  Safe. -/
opaque stepping : BitVec 8
opaque serial : BitVec 64
opaque macAddress : BitVec 48

/-- Trust anchor 0 (R531), and the module certificate (0x1040:00).  Assumption 2.  Safe. -/
opaque anchor0 : BitVec 832
opaque certificate : List Byte

/-- Whether a signature trailer verifies under a public key (R530, R531): key, bytes signed, r and s.
UNVERIFIED (assumption 3): ECDSA P-384 over SHA-384 is not computed.  Safe. -/
opaque signatureOk : Nat → List Byte → Nat → Nat → Bool

/-- Source, destination and length that the 32 B move descriptor of DMA spells (R408): the spec does
not lay the descriptor out.  DESIGN CHOICE (assumption 4).  Safe. -/
opaque moveSource : List Byte → Nat
opaque moveDest : List Byte → Nat
opaque moveLength : List Byte → Nat

/-- The code for IMEM and the data for LDM that an engine firmware image spells (R394): the spec does not divide
the image.  DESIGN CHOICE (assumption 228).  Safe. -/
opaque engineCode : List Byte → List Byte
opaque engineData : List Byte → List Byte

/-- The bytes by which TENANT, GEN, WINDOW, MAX_UNITS, EXACT_ENABLE and DEADLINE follow the member table
in the digest of a JOIN (R188): the spec gives their order and no encoding.  DESIGN CHOICE
(assumption 21).  Safe. -/
opaque digestFields : Nat → Nat → Nat → Nat → Bool → Nat → List Byte

/-- How 0x8431 spells its fields (state, PACKAGE_ID, VERSION, tenant, cluster mask, HANDLERS): the spec
gives their order and no widths.  DESIGN CHOICE (assumption 27).  Safe. -/
opaque slotStatus : Nat → Nat → Nat → Nat → Nat → Nat → BitVec 256

/-- Whether the temperature of an optical engine, in 0.125 °C, is in range (0x5070, Table 21-1 source 18):
the spec states no range.  DESIGN CHOICE (assumption 34).  Safe. -/
opaque opticalInRange : Int → Bool

/-- The body of a push after its first four bytes (R58): the class bit, the index, and what is reported. -/
opaque pushBody : Nat → Nat → List Byte → List Byte

end Sys2Proof.Config
end

