-- ==== Sys2Proof/Machine/Bits.lean ====
section
/-!
DEFINITION. Bit fields, byte orders, two's complement and the CRCs.
R6 (field notation), R8 (byte orders), R44 (value lengths).
-/
namespace Sys2Proof.Machine

/-- Bits `[hi:lo]` of a number (R6). -/
def fld (n hi lo : Nat) : Nat := n / 2 ^ lo % 2 ^ (hi + 1 - lo)

/-- One bit of a number. -/
def bit (n i : Nat) : Bool := n / 2 ^ i % 2 == 1

/-- A Boolean as a bit. -/
def b2n (b : Bool) : Nat := if b then 1 else 0

/-- Replace bits `[hi:lo]` of a number. -/
def setFld (n hi lo v : Nat) : Nat :=
  n - fld n hi lo * 2 ^ lo + v % 2 ^ (hi + 1 - lo) * 2 ^ lo

/-- The number that a list of bytes spells, most significant byte first (R8). -/
def beNat (bs : List Byte) : Nat := bs.foldl (fun a b => a * 256 + b.toNat) 0

/-- The number that a list of bytes spells, least significant byte first (R8). -/
def leNat : List Byte → Nat
  | [] => 0
  | b :: r => b.toNat + 256 * leNat r

/-- `k` bytes of a number, least significant first. -/
def leBytes : Nat → Nat → List Byte
  | 0, _ => []
  | k + 1, n => BitVec.ofNat 8 n :: leBytes k (n / 256)

/-- `k` bytes of a number, most significant first. -/
def beBytes (k n : Nat) : List Byte := (leBytes k n).reverse

/-- Two's complement reading of `w` bits. -/
def toSigned (w n : Nat) : Int :=
  if n % 2 ^ w < 2 ^ (w - 1) then (n % 2 ^ w : Nat) else ((n % 2 ^ w : Nat) : Int) - (2 ^ w : Nat)

/-- Two's complement spelling in `w` bits. -/
def ofSigned (w : Nat) (i : Int) : Nat := (i % ((2 ^ w : Nat) : Int)).toNat

/-- A slice of a list of bytes. -/
def slice (bs : List Byte) (off len : Nat) : List Byte := (bs.drop off).take len

/-- The bytes at `off`, little-endian. -/
def leAt (bs : List Byte) (off len : Nat) : Nat := leNat (slice bs off len)

/-- The bytes at `off`, big-endian. -/
def beAt (bs : List Byte) (off len : Nat) : Nat := beNat (slice bs off len)

/-- One bit of a reflected CRC with polynomial `poly`. -/
def crcBit (poly c : Nat) : Nat := if c % 2 = 1 then Nat.xor (c / 2) poly else c / 2

/-- `n` bits of a reflected CRC. -/
def crcBits (poly : Nat) : Nat → Nat → Nat
  | 0, c => c
  | n + 1, c => crcBits poly n (crcBit poly c)

/-- The running CRC after a list of bytes (reflected form). -/
def crcRun (poly : Nat) : List Byte → Nat → Nat
  | [], c => c
  | b :: r, c => crcRun poly r (crcBits poly 8 (Nat.xor c b.toNat))

/-- CRC-32C (Castagnoli) of a list of bytes. -/
def crc32c (bs : List Byte) : Nat := Nat.xor (crcRun 0x82F63B78 bs 0xFFFFFFFF) 0xFFFFFFFF

/-- Saturate a count at `w` bits. -/
def sat (w n : Nat) : Nat := if n < 2 ^ w then n else 2 ^ w - 1

/-- A value clamped into `lo..hi`. -/
def clampNat (lo hi n : Nat) : Nat := if n < lo then lo else if hi < n then hi else n

/-- Serial-number difference (a − b) modulo 2^32 (R54, R79). -/
def diff32 (a b : Nat) : Nat := (a + 2 ^ 32 - b % 2 ^ 32) % 2 ^ 32

/-- One more, modulo `2^w`. -/
def inc (w n : Nat) : Nat := (n + 1) % 2 ^ w

/-- Nearest tick of a fraction of a second, ties rounded up (R7): `num / den` seconds. -/
def ticksOf (num den : Nat) : Nat := (2 * num * 2 ^ 32 + den) / (2 * den)

end Sys2Proof.Machine
end

