-- ==== Sys2Proof/Machine/Objects.lean ====
section
/-!
DEFINITION. The object tables of the chapters: index, subindices, type, access code, default and
range of every object (R43 to R45,
    R50).  A range that needs more than bounds is `custom`; its rule is
in Machine/Clamp.lean.
-/
namespace Sys2Proof.Machine

/-- Object types (Table 02-1). -/
inductive OType where
  | bool | u8 | u16 | u32 | u64 | i32 | i64 | mt | enum8 | bits32
  | octets (n : Nat) | text (n : Nat) | table
deriving DecidableEq, Repr

/-- Access codes (Table 02-2). -/
inductive OAccess where
  | const | ro | rw | rc | wo
deriving DecidableEq, Repr

/-- Legal ranges. -/
inductive ORange where
  | any
  | nat (lo hi : Nat)
  | int (lo hi : Int)
  /-- 0, or a value between the bounds -/
  | orZero (lo hi : Nat)
  | enum (values : List Nat)
  /-- the bits that are defined; the others are reserved -/
  | bits (mask : Nat)
  | custom
deriving DecidableEq, Repr

/-- One row of an object table.  `dflt`: the default by element; the last one repeats. -/
structure ObjDef where
  idx : Nat
  idxHi : Nat
  lo : Nat
  hi : Nat
  ty : OType
  acc : OAccess
  dflt : List Nat
  range : ORange
deriving DecidableEq, Repr

def objects0 : List ObjDef := [
  ⟨0x1000, 0x1000, 0, 0, .u16, .const, [29334], .any⟩,
  ⟨0x1001, 0x1001, 0, 0, .text 16, .const, [327102794731257261862209], .any⟩,
  ⟨0x1002, 0x1002, 0, 0, .u8, .ro, [0], .any⟩,
  ⟨0x1003, 0x1003, 0, 0, .u64, .ro, [0], .any⟩,
  ⟨0x1004, 0x1004, 0, 0, .octets 6, .ro, [0], .any⟩,
  ⟨0x1010, 0x1010, 0, 0, .u16, .ro, [0], .any⟩,
  ⟨0x1011, 0x1011, 0, 0, .u16, .ro, [0], .any⟩,
  ⟨0x1012, 0x1012, 0, 0, .u16, .ro, [0], .any⟩,
  ⟨0x1013, 0x1013, 0, 0, .u8, .const, [1], .any⟩,
  ⟨0x1014, 0x1014, 0, 0, .u16, .const, [769], .any⟩,
  ⟨0x1020, 0x1020, 0, 0, .u32, .ro, [0], .any⟩,
  ⟨0x1021, 0x1021, 0, 0, .enum8, .ro, [0], .any⟩,
  ⟨0x1022, 0x1022, 0, 0, .u32, .ro, [0], .any⟩,
  ⟨0x1040, 0x1040, 0, 0, .table, .ro, [0], .any⟩,
  ⟨0x1F00, 0x1F00, 0, 0, .u16, .wo, [0], .any⟩,
  ⟨0x1F01, 0x1F01, 1, 15, .mt, .rw, [0], .any⟩,
  ⟨0x1F02, 0x1F02, 1, 15, .enum8, .ro, [0], .any⟩,
  ⟨0x1F03, 0x1F03, 1, 15, .u32, .ro, [0], .any⟩,
  ⟨0x1F10, 0x1F10, 0, 255, .octets 24, .ro, [0], .any⟩,
  ⟨0x1F11, 0x1F11, 0, 0, .u32, .ro, [0], .any⟩,
  ⟨0x1F12, 0x1F12, 0, 0, .bits32, .ro, [0], .any⟩,
  ⟨0x1F20, 0x1F20, 0, 0, .u32, .rc, [0], .any⟩,
  ⟨0x1F21, 0x1F21, 0, 0, .u32, .ro, [0], .any⟩,
  ⟨0x1F22, 0x1F22, 0, 0, .bits32, .ro, [1], .any⟩,
  ⟨0x1F23, 0x1F23, 0, 0, .u32, .ro, [0], .any⟩,
  ⟨0x1F30, 0x1F30, 0, 0, .u64, .ro, [0], .any⟩,
  ⟨0x1F31, 0x1F31, 0, 0, .bits32, .ro, [0], .any⟩,
  ⟨0x1F32, 0x1F32, 0, 0, .u64, .ro, [0], .any⟩,
  ⟨0x2000, 0x2000, 0, 63, .i32, .ro, [0], .any⟩,
  ⟨0x2001, 0x2001, 0, 63, .i32, .rc, [760], .int (-320) (1000)⟩,
  ⟨0x2002, 0x2002, 0, 63, .i32, .rc, [840], .int (-320) (1040)⟩,
  ⟨0x2003, 0x2003, 0, 29, .u32, .ro, [0], .any⟩,
  ⟨0x2004, 0x2004, 0, 29, .u32, .ro, [0], .any⟩,
  ⟨0x2010, 0x2010, 0, 0, .mt, .rc, [4294967296], .nat 4294967 257698037760⟩,
  ⟨0x2011, 0x2011, 0, 0, .mt, .ro, [0], .any⟩,
  ⟨0x2012, 0x2012, 0, 0, .table, .ro, [0], .any⟩,
  ⟨0x2013, 0x2013, 0, 0, .u64, .ro, [0], .any⟩,
  ⟨0x2020, 0x2020, 0, 0, .table, .ro, [0], .any⟩,
  ⟨0x2021, 0x2021, 0, 0, .u32, .ro, [0], .any⟩,
  ⟨0x2022, 0x2022, 0, 0, .u64, .ro, [0], .any⟩]

def objects1 : List ObjDef := [
  ⟨0x2032, 0x2032, 0, 0, .u64, .ro, [0], .any⟩,
  ⟨0x2100, 0x2100, 0, 0, .u16, .rc, [7394], .nat 1024 65535⟩,
  ⟨0x2101, 0x2101, 0, 0, .u8, .rc, [8], .nat 1 16⟩,
  ⟨0x2102, 0x2102, 0, 0, .u16, .rc, [300], .nat 10 3600⟩,
  ⟨0x2103, 0x2103, 0, 0, .bool, .rc, [1], .nat 0 1⟩,
  ⟨0x2104, 0x2104, 0, 0, .bool, .rc, [1], .nat 0 1⟩,
  ⟨0x2105, 0x2105, 0, 0, .u16, .rc, [10], .nat 1 1000⟩,
  ⟨0x2110, 0x2110, 0, 0, .u32, .ro, [0], .any⟩,
  ⟨0x2111, 0x2111, 0, 0, .u32, .ro, [0], .any⟩,
  ⟨0x2200, 0x2200, 0, 0, .u32, .ro, [0], .any⟩,
  ⟨0x2201, 0x2201, 0, 0, .u32, .ro, [0], .any⟩,
  ⟨0x2202, 0x2202, 0, 0, .u32, .ro, [0], .any⟩,
  ⟨0x2300, 0x2300, 0, 0, .octets 16, .wo, [0], .any⟩,
  ⟨0x2301, 0x2301, 0, 0, .octets 16, .ro, [0], .any⟩,
  ⟨0x2302, 0x2302, 0, 0, .table, .rw, [0], .custom⟩,
  ⟨0x2303, 0x2303, 0, 1, .octets 16, .ro, [0], .any⟩,
  ⟨0x2304, 0x2304, 0, 15, .octets 16, .ro, [0], .any⟩,
  ⟨0x2305, 0x2305, 0, 0, .enum8, .ro, [0], .any⟩,
  ⟨0x2310, 0x2310, 0, 0, .octets 8, .rc, [0], .any⟩,
  ⟨0x2311, 0x2311, 0, 0, .enum8, .ro, [0], .any⟩,
  ⟨0x2312, 0x2312, 0, 0, .enum8, .rc, [0], .enum [0, 1, 2]⟩,
  ⟨0x2330, 0x2330, 0, 0, .octets 104, .const, [0], .any⟩,
  ⟨0x2330, 0x2330, 1, 7, .octets 104, .rc, [0], .custom⟩,
  ⟨0x3000, 0x3000, 0, 29, .bool, .rc, [1], .nat 0 1⟩,
  ⟨0x3001, 0x3001, 0, 29, .enum8, .ro, [0], .any⟩,
  ⟨0x3002, 0x3002, 0, 29, .u32, .ro, [0], .any⟩,
  ⟨0x3003, 0x3003, 0, 29, .u32, .ro, [0], .any⟩,
  ⟨0x3010, 0x3010, 0, 0, .u32, .ro, [0], .any⟩,
  ⟨0x3011, 0x3011, 0, 0, .u32, .ro, [0], .any⟩,
  ⟨0x3012, 0x3012, 0, 0, .bits32, .ro, [0], .any⟩,
  ⟨0x3013, 0x3013, 0, 0, .u16, .const, [3000], .any⟩,
  ⟨0x3020, 0x3020, 0, 0, .u8, .wo, [0], .any⟩,
  ⟨0x3100, 0x3100, 0, 0, .u8, .wo, [0], .any⟩,
  ⟨0x3101, 0x3101, 0, 0, .mt, .rc, [429496730], .nat 42949673 42949672960⟩,
  ⟨0x3102, 0x3102, 0, 0, .enum8, .ro, [0], .any⟩,
  ⟨0x3103, 0x3103, 0, 0, .bits32, .ro, [0], .any⟩,
  ⟨0x3104, 0x3104, 0, 0, .u64, .ro, [0], .any⟩,
  ⟨0x3400, 0x3400, 0, 0, .u16, .ro, [0], .any⟩,
  ⟨0x3401, 0x3401, 0, 0, .mt, .ro, [0], .any⟩,
  ⟨0x3402, 0x3402, 1, 8, .u32, .ro, [0], .any⟩]

def objects2 : List ObjDef := [
  ⟨0x3410, 0x3410, 0, 0, .u8, .wo, [0], .any⟩,
  ⟨0x3411, 0x3411, 0, 0, .u16, .ro, [0], .any⟩,
  ⟨0x3412, 0x3412, 0, 0, .enum8, .ro, [0], .any⟩,
  ⟨0x3413, 0x3413, 0, 0, .bits32, .ro, [0], .any⟩,
  ⟨0x3414, 0x3414, 0, 0, .u16, .rc, [120], .nat 10 3600⟩,
  ⟨0x3420, 0x3420, 0, 0, .u16, .rc, [5000], .nat 1000 60000⟩,
  ⟨0x3421, 0x3421, 0, 0, .u8, .rc, [3], .nat 2 8⟩,
  ⟨0x3422, 0x3422, 0, 0, .u8, .ro, [0], .any⟩,
  ⟨0x3423, 0x3423, 0, 0, .enum8, .ro, [0], .any⟩,
  ⟨0x3424, 0x3424, 0, 0, .u32, .ro, [0], .any⟩,
  ⟨0x3430, 0x3430, 0, 0, .u8, .wo, [0], .any⟩,
  ⟨0x3431, 0x3431, 0, 0, .bool, .ro, [0], .any⟩,
  ⟨0x3440, 0x3440, 0, 0, .u16, .rc, [1000], .nat 100 10000⟩,
  ⟨0x3450, 0x3450, 0, 29, .u64, .ro, [0], .any⟩,
  ⟨0x3460, 0x3460, 0, 0, .bits32, .ro, [0], .any⟩,
  ⟨0x3800, 0x3800, 0, 255, .u8, .rc, [0, 3, 4, 3, 6, 7, 3, 3, 3, 3, 3, 2, 3, 3, 3, 3, 3, 2, 4,
    3, 4, 3, 0, 0, 0, 0, 0, 0, 0, 0, 0, 0, 0, 0, 0, 0, 0, 0, 0, 0, 0, 0, 0, 0, 0, 0, 0, 0, 0, 0,
    0, 0, 0, 0, 0, 0, 0, 0, 0, 0, 0, 0, 0, 0, 0, 0, 0, 0, 0, 0, 0, 0, 0, 0, 0, 0, 0, 0, 0, 0, 0,
    0, 0, 0, 0, 0, 0, 0, 0, 0, 0, 0, 0, 0, 0, 0, 0, 0, 0, 0, 0, 0, 0, 0, 0, 0, 0, 0, 0, 0, 0, 0,
    0, 0, 0, 0, 0, 0, 0, 0, 0, 0, 0, 0, 0, 0, 0, 0, 0, 0, 0, 0, 0, 0, 0, 0, 0, 0, 0, 0, 0, 0, 0,
    0, 0, 0, 0, 0, 0, 0, 0, 0, 0, 0, 0, 0, 0, 0, 0, 0, 0, 0, 0, 0, 0, 0, 0, 0, 0, 0, 0, 0, 0, 0,
    0, 0, 0, 0, 0, 0, 0, 0, 0, 0, 0, 0, 0, 0, 0, 0, 0, 0, 0, 0, 0, 0, 0, 0, 0, 0, 0, 0, 0, 0, 0,
    0, 0, 0, 0, 0, 0, 0, 0, 0, 0, 0, 0, 0, 0, 0, 0, 0, 0, 0, 0, 0, 0, 0, 0, 0, 0, 0, 0, 0, 0, 0,
    0, 0, 0, 0, 0, 0, 0, 0, 0, 0, 0, 0, 0, 0, 0, 0, 0, 0, 0, 2], .nat 0 7⟩,
  ⟨0x3801, 0x3801, 0, 255, .u32, .ro, [0], .any⟩,
  ⟨0x3802, 0x3802, 0, 0, .octets 32, .ro, [0], .any⟩,
  ⟨0x3803, 0x3803, 0, 0, .octets 32, .ro, [0], .any⟩,
  ⟨0x3804, 0x3804, 0, 0, .bits32, .ro, [0], .any⟩,
  ⟨0x3805, 0x3805, 0, 0, .u8, .rc, [4], .nat 1 6⟩,
  ⟨0x3806, 0x3806, 0, 0, .mt, .rc, [42949673], .nat 4294967 429496730⟩,
  ⟨0x3810, 0x3810, 0, 0, .u16, .wo, [0], .any⟩,
  ⟨0x3812, 0x3812, 0, 0, .u8, .wo, [0], .any⟩,
  ⟨0x3830, 0x3830, 0, 1, .u32, .rc, [0], .bits 0x800FFFFF⟩,
  ⟨0x3840, 0x3840, 0, 0, .table, .ro, [0], .any⟩,
  ⟨0x3841, 0x3841, 0, 0, .u32, .ro, [0], .any⟩,
  ⟨0x3842, 0x3842, 0, 0, .u64, .ro, [0], .any⟩,
  ⟨0x3843, 0x3843, 0, 0, .u32, .ro, [0], .any⟩,
  ⟨0x3844, 0x3844, 0, 0, .mt, .ro, [0], .any⟩,
  ⟨0x4000, 0x4000, 0, 0, .mt, .ro, [0], .any⟩,
  ⟨0x4001, 0x4001, 0, 0, .enum8, .ro, [0], .any⟩,
  ⟨0x4002, 0x4002, 0, 0, .u8, .ro, [15], .any⟩,
  ⟨0x4003, 0x4003, 0, 0, .bits32, .ro, [0], .any⟩,
  ⟨0x4004, 0x4004, 0, 0, .u64, .ro, [0], .any⟩,
  ⟨0x4005, 0x4005, 0, 0, .u8, .ro, [255], .any⟩,
  ⟨0x4006, 0x4006, 0, 0, .u64, .ro, [0], .any⟩,
  ⟨0x4007, 0x4007, 0, 0, .mt, .ro, [0], .any⟩,
  ⟨0x4008, 0x4008, 0, 0, .u32, .ro, [0], .any⟩,
  ⟨0x4010, 0x4010, 0, 0, .enum8, .rc, [0], .enum [0, 1]⟩]

def objects3 : List ObjDef := [
  ⟨0x4011, 0x4011, 0, 0, .u32, .rc, [0], .nat 0 429497⟩,
  ⟨0x4012, 0x4012, 0, 0, .u32, .ro, [0], .any⟩,
  ⟨0x4013, 0x4013, 0, 0, .u32, .rc, [9], .nat 0 4295⟩,
  ⟨0x4020, 0x4020, 0, 0, .u32, .rc, [268435456], .nat 16777216 4294967295⟩,
  ⟨0x4021, 0x4021, 0, 0, .bool, .rc, [1], .nat 0 1⟩,
  ⟨0x4022, 0x4022, 0, 0, .u32, .rc, [4], .nat 0 4295⟩,
  ⟨0x4030, 0x4030, 0, 0, .u8, .rc, [50], .nat 1 50⟩,
  ⟨0x4031, 0x4031, 0, 0, .u64, .rc, [42950], .nat 4295 4294967296⟩,
  ⟨0x4032, 0x4032, 0, 0, .u32, .ro, [4294967295], .any⟩,
  ⟨0x4033, 0x4033, 0, 0, .i32, .ro, [0], .any⟩,
  ⟨0x4040, 0x4040, 0, 71, .i32, .ro, [2147483648], .any⟩,
  ⟨0x4041, 0x4041, 0, 71, .u32, .ro, [0], .any⟩,
  ⟨0x4042, 0x4042, 0, 71, .u8, .ro, [15], .any⟩,
  ⟨0x4050, 0x4050, 0, 0, .bool, .rw, [1], .nat 0 1⟩,
  ⟨0x4060, 0x4060, 0, 0, .bits32, .ro, [0], .any⟩,
  ⟨0x4061, 0x4061, 0, 0, .u32, .ro, [0], .any⟩,
  ⟨0x4062, 0x4062, 0, 0, .u32, .ro, [0], .any⟩,
  ⟨0x5000, 0x5000, 0, 0, .u32, .const, [106250], .any⟩,
  ⟨0x5001, 0x5001, 0, 71, .bits32, .ro, [0], .any⟩,
  ⟨0x5002, 0x5002, 0, 71, .bits32, .ro, [0], .any⟩,
  ⟨0x5003, 0x5003, 0, 71, .octets 8, .ro, [0], .any⟩,
  ⟨0x5010, 0x5010, 0, 71, .enum8, .rc, [1], .enum [0, 1, 2]⟩,
  ⟨0x5011, 0x5011, 0, 0, .u8, .rc, [5], .nat 1 40⟩,
  ⟨0x5012, 0x5012, 0, 0, .mt, .rc, [42949673], .nat 4294967 4294967296⟩,
  ⟨0x5013, 0x5013, 0, 0, .u16, .rc, [64], .nat 8 1024⟩,
  ⟨0x5014, 0x5014, 0, 0, .mt, .rc, [85899], .nat 4295 4294967⟩,
  ⟨0x5015, 0x5015, 0, 0, .u16, .rc, [64], .nat 1 65535⟩,
  ⟨0x5016, 0x5016, 0, 0, .mt, .rc, [21474836], .nat 4294967 429496730⟩,
  ⟨0x5017, 0x5017, 0, 0, .mt, .rc, [214748365], .nat 42949673 4294967296⟩,
  ⟨0x5018, 0x5018, 0, 0, .mt, .rc, [4294967296], .nat 42949673 42949672960⟩,
  ⟨0x5019, 0x5019, 0, 71, .u32, .ro, [0], .any⟩,
  ⟨0x5020, 0x5020, 0, 71, .octets 16, .rc, [1289980978905059392402819772493361401], .custom⟩,
  ⟨0x5021, 0x5021, 0, 71, .octets 4, .rc, [0], .custom⟩,
  ⟨0x5022, 0x5022, 0, 71, .octets 4, .ro, [0], .any⟩,
  ⟨0x5030, 0x5030, 0, 71, .enum8, .rc, [0], .enum [0, 1, 2, 3]⟩,
  ⟨0x5031, 0x5031, 0, 71, .enum8, .rc, [0], .enum [0, 1, 2, 3]⟩,
  ⟨0x5032, 0x5032, 0, 71, .octets 32, .ro, [0], .any⟩,
  ⟨0x5033, 0x5033, 0, 71, .u8, .wo, [0], .any⟩,
  ⟨0x5040, 0x5040, 0, 71, .u64, .ro, [0], .any⟩,
  ⟨0x5041, 0x5041, 0, 71, .u64, .ro, [0], .any⟩]

def objects4 : List ObjDef := [
  ⟨0x5042, 0x5042, 0, 71, .u64, .ro, [0], .any⟩,
  ⟨0x5043, 0x5043, 0, 71, .octets 16, .ro, [0], .any⟩,
  ⟨0x5044, 0x5044, 0, 71, .u32, .ro, [0], .any⟩,
  ⟨0x5045, 0x5045, 0, 71, .octets 24, .ro, [0], .any⟩,
  ⟨0x5050, 0x5050, 0, 0, .octets 16, .wo, [0], .any⟩,
  ⟨0x5051, 0x5051, 0, 8, .octets 24, .ro, [0], .any⟩,
  ⟨0x5060, 0x5060, 0, 71, .octets 8, .ro, [0], .any⟩,
  ⟨0x5061, 0x5061, 0, 71, .octets 8, .ro, [0], .any⟩,
  ⟨0x5062, 0x5062, 0, 71, .i32, .ro, [4294963296], .any⟩,
  ⟨0x5063, 0x5063, 0, 71, .bits32, .ro, [0], .any⟩,
  ⟨0x5064, 0x5064, 0, 0, .i32, .rc, [4294965896], .int (-2500) (-500)⟩,
  ⟨0x5065, 0x5065, 0, 0, .u16, .rc, [9000], .nat 1000 12000⟩,
  ⟨0x5070, 0x5070, 0, 8, .bits32, .ro, [0], .any⟩,
  ⟨0x5800, 0x5800, 0, 0, .u16, .const, [769], .any⟩,
  ⟨0x5801, 0x5801, 0, 71, .enum8, .ro, [0], .any⟩,
  ⟨0x5802, 0x5802, 0, 71, .u32, .ro, [0], .any⟩,
  ⟨0x5803, 0x5803, 0, 71, .enum8, .ro, [0], .any⟩,
  ⟨0x5804, 0x5804, 0, 71, .u32, .ro, [0], .any⟩,
  ⟨0x5805, 0x5805, 0, 71, .u32, .ro, [0], .any⟩,
  ⟨0x5810, 0x5810, 0, 0, .u16, .rc, [20], .nat 1 10000⟩,
  ⟨0x5811, 0x5811, 0, 0, .mt, .rc, [21475], .nat 4295 429497⟩,
  ⟨0x5812, 0x5812, 0, 0, .mt, .rc, [85899], .nat 4295 4294967⟩,
  ⟨0x5813, 0x5813, 0, 0, .mt, .rc, [1288], .nat 430 429497⟩,
  ⟨0x5814, 0x5814, 0, 0, .mt, .rc, [107374], .nat 4295 107374⟩,
  ⟨0x5815, 0x5815, 0, 0, .u8, .rc, [8], .nat 2 64⟩,
  ⟨0x5820, 0x5820, 0, 71, .u64, .ro, [0], .any⟩,
  ⟨0x5821, 0x5821, 0, 71, .u64, .ro, [0], .any⟩,
  ⟨0x5822, 0x5822, 0, 71, .u64, .ro, [0], .any⟩,
  ⟨0x5823, 0x5823, 0, 71, .u64, .ro, [0], .any⟩,
  ⟨0x5824, 0x5824, 0, 71, .u64, .ro, [0], .any⟩,
  ⟨0x5825, 0x5825, 0, 71, .u64, .ro, [0], .any⟩,
  ⟨0x5826, 0x5826, 0, 71, .u64, .ro, [0], .any⟩,
  ⟨0x5827, 0x5827, 0, 71, .u64, .ro, [0], .any⟩,
  ⟨0x5828, 0x5828, 0, 71, .u32, .ro, [0], .any⟩,
  ⟨0x5829, 0x5829, 0, 71, .u32, .ro, [0], .any⟩,
  ⟨0x582A, 0x582A, 0, 71, .u32, .ro, [0], .any⟩,
  ⟨0x582B, 0x582B, 0, 71, .u64, .ro, [0], .any⟩,
  ⟨0x582C, 0x582C, 0, 71, .u64, .ro, [0], .any⟩,
  ⟨0x582D, 0x582D, 0, 71, .u64, .ro, [0], .any⟩,
  ⟨0x582E, 0x582E, 0, 71, .u64, .ro, [0], .any⟩]

def objects5 : List ObjDef := [
  ⟨0x582F, 0x582F, 0, 71, .u64, .ro, [0], .any⟩,
  ⟨0x5830, 0x5830, 0, 71, .bool, .wo, [0], .any⟩,
  ⟨0x6000, 0x6000, 0, 0, .u32, .rc, [0], .custom⟩,
  ⟨0x6001, 0x6001, 0, 3, .u8, .rc, [19], .custom⟩,
  ⟨0x6002, 0x6002, 0, 0, .u8, .rc, [0], .nat 0 3⟩,
  ⟨0x6003, 0x6003, 0, 0, .bits32, .ro, [0], .any⟩,
  ⟨0x6010, 0x6010, 0, 0, .table, .rc, [0], .custom⟩,
  ⟨0x6011, 0x6011, 0, 71, .bool, .rc, [1], .nat 0 1⟩,
  ⟨0x6012, 0x6012, 0, 71, .enum8, .ro, [0], .any⟩,
  ⟨0x6013, 0x6013, 0, 71, .u32, .ro, [4294967295], .any⟩,
  ⟨0x6014, 0x6014, 0, 0, .table, .ro, [0], .any⟩,
  ⟨0x6020, 0x6020, 0, 0, .table, .rc, [0], .custom⟩,
  ⟨0x6021, 0x6021, 0, 0, .table, .rc, [0], .custom⟩,
  ⟨0x6030, 0x6030, 0, 0, .bool, .rc, [1], .nat 0 1⟩,
  ⟨0x6031, 0x6031, 0, 0, .u8, .rc, [32], .nat 0 255⟩,
  ⟨0x6032, 0x6032, 0, 0, .u16, .rc, [16], .nat 4 1024⟩,
  ⟨0x6033, 0x6033, 0, 0, .u8, .rc, [3], .nat 1 8⟩,
  ⟨0x6034, 0x6034, 0, 0, .u16, .rc, [64], .nat 8 1024⟩,
  ⟨0x6035, 0x6035, 0, 71, .octets 20, .ro, [0], .any⟩,
  ⟨0x6036, 0x6036, 0, 0, .mt, .rc, [42949673], .nat 4294967 4294967296⟩,
  ⟨0x6037, 0x6037, 0, 0, .mt, .rc, [429497], .nat 42950 42949673⟩,
  ⟨0x6040, 0x6040, 0, 0, .u32, .const, [1024], .any⟩,
  ⟨0x6041, 0x6041, 0, 0, .u32, .const, [8192], .any⟩,
  ⟨0x6042, 0x6042, 0, 0, .u32, .ro, [0], .any⟩,
  ⟨0x6043, 0x6043, 0, 0, .u32, .ro, [0], .any⟩,
  ⟨0x6044, 0x6044, 0, 0, .u32, .rc, [49152], .nat 0 65536⟩,
  ⟨0x6045, 0x6045, 0, 0, .mt, .rc, [4294967], .nat 429497 429496730⟩,
  ⟨0x6046, 0x6046, 0, 0, .mt, .rc, [429497], .nat 42950 42949673⟩,
  ⟨0x6047, 0x6047, 0, 71, .u32, .ro, [0], .any⟩,
  ⟨0x6048, 0x6048, 0, 0, .table, .ro, [0], .any⟩,
  ⟨0x6050, 0x6050, 0, 0, .mt, .rc, [4294967296], .nat 42949673 42949672960⟩,
  ⟨0x6060, 0x6060, 0, 0, .u64, .ro, [0], .any⟩,
  ⟨0x6061, 0x6061, 0, 0, .u64, .ro, [0], .any⟩,
  ⟨0x6062, 0x6062, 0, 0, .u64, .ro, [0], .any⟩,
  ⟨0x6063, 0x6063, 0, 0, .u64, .ro, [0], .any⟩,
  ⟨0x6064, 0x6064, 0, 0, .u64, .ro, [0], .any⟩,
  ⟨0x6065, 0x6065, 0, 0, .u64, .ro, [0], .any⟩,
  ⟨0x6066, 0x6066, 0, 0, .u64, .ro, [0], .any⟩,
  ⟨0x6067, 0x6067, 0, 0, .u64, .ro, [0], .any⟩,
  ⟨0x6068, 0x6068, 0, 10, .u64, .ro, [0], .any⟩]

def objects6 : List ObjDef := [
  ⟨0x6069, 0x6069, 0, 0, .u64, .ro, [0], .any⟩,
  ⟨0x606A, 0x606A, 0, 0, .u64, .ro, [0], .any⟩,
  ⟨0x6800, 0x6800, 0, 19, .u16, .rc, [160, 160, 160, 160, 160, 160, 160, 160, 128, 128, 128,
    128, 128, 128, 128, 128, 192, 512, 32, 32], .nat 16 2768⟩,
  ⟨0x6801, 0x6801, 0, 0, .u16, .const, [3072], .any⟩,
  ⟨0x6802, 0x6802, 0, 71, .bits32, .ro, [0], .any⟩,
  ⟨0x6803, 0x6803, 0, 0, .mt, .rc, [4294967], .nat 429497 4294967296⟩,
  ⟨0x6804, 0x6804, 0, 71, .u32, .ro, [0], .any⟩,
  ⟨0x6810, 0x6810, 0, 71, .u32, .ro, [12], .any⟩,
  ⟨0x6811, 0x6811, 0, 7, .u8, .rc, [16], .nat 1 255⟩,
  ⟨0x6812, 0x6812, 0, 0, .u32, .rc, [8000], .nat 100 80000⟩,
  ⟨0x6813, 0x6813, 0, 0, .u32, .rc, [65536], .nat 4096 1048576⟩,
  ⟨0x6820, 0x6820, 0, 71, .table, .rc, [0], .custom⟩,
  ⟨0x6821, 0x6821, 0, 71, .mt, .rc, [0], .any⟩,
  ⟨0x6822, 0x6822, 0, 71, .bits32, .rc, [0], .bits 0xFF⟩,
  ⟨0x6823, 0x6823, 0, 71, .bits32, .ro, [255], .any⟩,
  ⟨0x6824, 0x6824, 0, 0, .u32, .ro, [0], .any⟩,
  ⟨0x6830, 0x6830, 0, 71, .table, .rc, [0], .custom⟩,
  ⟨0x6831, 0x6831, 0, 71, .octets 32, .ro, [0], .any⟩,
  ⟨0x6832, 0x6832, 0, 71, .u32, .ro, [0], .any⟩,
  ⟨0x6840, 0x6840, 0, 19, .u16, .rc, [80, 80, 80, 80, 80, 80, 80, 80, 64, 64, 64, 64, 64, 64,
    64, 64, 96, 256, 16, 16], .nat 1 2768⟩,
  ⟨0x6841, 0x6841, 0, 19, .u16, .rc, [40, 40, 40, 40, 40, 40, 40, 40, 32, 32, 32, 32, 32, 32,
    32, 32, 48, 128, 8, 8], .nat 1 2768⟩,
  ⟨0x6842, 0x6842, 0, 71, .u64, .ro, [0], .any⟩,
  ⟨0x6850, 0x6850, 0, 0, .table, .rc, [0], .custom⟩,
  ⟨0x6851, 0x6851, 0, 2, .u64, .ro, [0], .any⟩,
  ⟨0x6860, 0x6860, 0, 0, .mt, .rc, [0], .orZero 42950 4294967296⟩,
  ⟨0x6861, 0x6861, 0, 1, .u64, .rc, [0], .custom⟩,
  ⟨0x6862, 0x6862, 0, 0, .bits32, .rc, [0], .bits 0xFFFFF⟩,
  ⟨0x6863, 0x6863, 0, 0, .u32, .rc, [65536], .nat 1024 16777216⟩,
  ⟨0x6864, 0x6864, 0, 0, .table, .ro, [0], .any⟩,
  ⟨0x6865, 0x6865, 0, 0, .u64, .ro, [0], .any⟩,
  ⟨0x6866, 0x6866, 0, 0, .u32, .ro, [0], .any⟩,
  ⟨0x7000, 0x7000, 0, 0, .u32, .ro, [0], .any⟩,
  ⟨0x7001, 0x7001, 0, 0, .u32, .ro, [1048576], .any⟩,
  ⟨0x7002, 0x7002, 0, 0, .u32, .const, [32768], .any⟩,
  ⟨0x7010, 0x7010, 0, 1, .u32, .rc, [0, 32768], .nat 0 65535⟩,
  ⟨0x7011, 0x7011, 0, 255, .u32, .rc, [0], .nat 0 65535⟩,
  ⟨0x7012, 0x7012, 0, 255, .u32, .rc, [0], .nat 0 65535⟩,
  ⟨0x7014, 0x7014, 0, 1, .u32, .rc, [32768], .nat 0 65536⟩,
  ⟨0x7015, 0x7015, 0, 255, .u32, .rc, [0], .nat 0 65536⟩,
  ⟨0x7016, 0x7016, 0, 255, .u32, .rc, [0], .nat 0 65536⟩]

def objects7 : List ObjDef := [
  ⟨0x7018, 0x7018, 0, 1, .u8, .rc, [16], .nat 1 255⟩,
  ⟨0x7019, 0x7019, 0, 255, .u8, .rc, [16], .nat 1 255⟩,
  ⟨0x701A, 0x701A, 0, 255, .u8, .rc, [16], .nat 1 255⟩,
  ⟨0x7030, 0x7030, 0, 0, .u64, .ro, [0], .any⟩,
  ⟨0x7031, 0x7031, 0, 0, .u64, .ro, [0], .any⟩,
  ⟨0x7032, 0x7032, 0, 0, .u64, .ro, [0], .any⟩,
  ⟨0x7033, 0x7033, 0, 0, .u64, .ro, [0], .any⟩,
  ⟨0x7034, 0x7034, 0, 0, .u32, .ro, [0], .any⟩,
  ⟨0x7035, 0x7035, 0, 0, .u64, .ro, [0], .any⟩,
  ⟨0x7400, 0x7400, 0, 0, .u32, .ro, [67108864], .any⟩,
  ⟨0x7401, 0x7401, 0, 0, .u32, .ro, [16777216], .any⟩,
  ⟨0x7402, 0x7402, 0, 0, .u64, .ro, [8589934592], .any⟩,
  ⟨0x7403, 0x7403, 0, 0, .u32, .ro, [1048576], .any⟩,
  ⟨0x7404, 0x7404, 0, 0, .u32, .ro, [16777216], .any⟩,
  ⟨0x7410, 0x7410, 0, 0, .u32, .rc, [8192], .nat 0 16384⟩,
  ⟨0x7411, 0x7411, 0, 0, .mt, .rc, [42950], .nat 4295 429497⟩,
  ⟨0x7420, 0x7420, 0, 0, .u32, .ro, [0], .any⟩,
  ⟨0x7421, 0x7421, 0, 0, .octets 16, .wo, [0], .any⟩,
  ⟨0x7422, 0x7422, 0, 0, .u32, .ro, [0], .any⟩,
  ⟨0x7423, 0x7423, 0, 0, .table, .ro, [0], .any⟩,
  ⟨0x7430, 0x7430, 0, 0, .u64, .ro, [0], .any⟩,
  ⟨0x7431, 0x7431, 0, 0, .u64, .ro, [0], .any⟩,
  ⟨0x7432, 0x7432, 0, 0, .u64, .ro, [0], .any⟩,
  ⟨0x7433, 0x7433, 0, 0, .u64, .ro, [0], .any⟩,
  ⟨0x7434, 0x7434, 0, 0, .u64, .ro, [0], .any⟩,
  ⟨0x7435, 0x7435, 0, 0, .u64, .ro, [0], .any⟩,
  ⟨0x7436, 0x7436, 0, 0, .u64, .ro, [0], .any⟩,
  ⟨0x7437, 0x7437, 0, 0, .u64, .ro, [0], .any⟩,
  ⟨0x7438, 0x7438, 0, 0, .u64, .ro, [0], .any⟩,
  ⟨0x7439, 0x7439, 0, 0, .u64, .ro, [0], .any⟩,
  ⟨0x743A, 0x743A, 0, 0, .u32, .ro, [0], .any⟩,
  ⟨0x743B, 0x743B, 0, 0, .u64, .ro, [0], .any⟩,
  ⟨0x7440, 0x7440, 0, 2, .u64, .ro, [0], .any⟩,
  ⟨0x7441, 0x7441, 0, 0, .bool, .ro, [1], .any⟩,
  ⟨0x7800, 0x7800, 0, 0, .u32, .ro, [0], .any⟩,
  ⟨0x7801, 0x7801, 0, 0, .u32, .ro, [1048576], .any⟩,
  ⟨0x7802, 0x7802, 0, 0, .u32, .ro, [4194304], .any⟩,
  ⟨0x7803, 0x7803, 0, 0, .u32, .const, [65536], .any⟩,
  ⟨0x7804, 0x7804, 0, 0, .u32, .ro, [0], .any⟩,
  ⟨0x7810, 0x7810, 0, 1, .u64, .rc, [0], .any⟩]

def objects8 : List ObjDef := [
  ⟨0x7811, 0x7811, 0, 1, .bool, .rc, [1], .nat 0 1⟩,
  ⟨0x7812, 0x7812, 0, 255, .u64, .rc, [0], .any⟩,
  ⟨0x7813, 0x7813, 0, 255, .u64, .rc, [0], .any⟩,
  ⟨0x7820, 0x7820, 0, 0, .u64, .rc, [0], .bits 0xFFFFFFFFFFFFF000⟩,
  ⟨0x7821, 0x7821, 0, 0, .u32, .rc, [0], .nat 0 16711680⟩,
  ⟨0x7822, 0x7822, 0, 0, .enum8, .rc, [0], .enum [0, 1]⟩,
  ⟨0x7830, 0x7830, 0, 0, .mt, .rc, [214748], .nat 42950 429496730⟩,
  ⟨0x7831, 0x7831, 0, 0, .u8, .rc, [7], .nat 1 15⟩,
  ⟨0x7832, 0x7832, 0, 0, .u8, .rc, [15], .nat 0 15⟩,
  ⟨0x7833, 0x7833, 0, 0, .mt, .rc, [42950], .nat 4295 42949673⟩,
  ⟨0x7840, 0x7840, 0, 0, .u32, .rc, [262144], .nat 4096 16777216⟩,
  ⟨0x7841, 0x7841, 0, 0, .u32, .rc, [16777216], .nat 4096 16777216⟩,
  ⟨0x7842, 0x7842, 0, 0, .u8, .rc, [128], .nat 1 255⟩,
  ⟨0x7843, 0x7843, 0, 0, .u32, .rc, [2147], .nat 0 429497⟩,
  ⟨0x7844, 0x7844, 0, 0, .u32, .rc, [8590], .nat 0 429497⟩,
  ⟨0x7845, 0x7845, 0, 0, .mt, .rc, [42949673], .nat 4294967 4294967296⟩,
  ⟨0x7846, 0x7846, 0, 0, .u32, .rc, [4294967], .nat 4295 42949673⟩,
  ⟨0x7847, 0x7847, 0, 0, .u32, .rc, [4096], .nat 256 65536⟩,
  ⟨0x7850, 0x7850, 0, 0, .mt, .rc, [8589935], .nat 429497 4294967296⟩,
  ⟨0x7851, 0x7851, 0, 0, .mt, .rc, [85899], .nat 4295 42949673⟩,
  ⟨0x7852, 0x7852, 0, 0, .u8, .rc, [64], .nat 1 255⟩,
  ⟨0x7853, 0x7853, 0, 0, .u32, .const, [4194304], .any⟩,
  ⟨0x7854, 0x7854, 0, 0, .u32, .ro, [0], .any⟩,
  ⟨0x7860, 0x7860, 0, 36, .u64, .ro, [0], .any⟩,
  ⟨0x7861, 0x7861, 0, 0, .u64, .ro, [0], .any⟩,
  ⟨0x7862, 0x7862, 0, 0, .u64, .ro, [0], .any⟩,
  ⟨0x7863, 0x7863, 0, 0, .u64, .ro, [0], .any⟩,
  ⟨0x7864, 0x7864, 0, 0, .u64, .ro, [0], .any⟩,
  ⟨0x7865, 0x7865, 0, 0, .u64, .ro, [0], .any⟩,
  ⟨0x7866, 0x7866, 0, 0, .u64, .ro, [0], .any⟩,
  ⟨0x7867, 0x7867, 0, 0, .u64, .ro, [0], .any⟩,
  ⟨0x7868, 0x7868, 0, 0, .u64, .ro, [0], .any⟩,
  ⟨0x7869, 0x7869, 0, 0, .u64, .ro, [0], .any⟩,
  ⟨0x7C00, 0x7C00, 0, 0, .u32, .ro, [0], .any⟩,
  ⟨0x7C01, 0x7C01, 0, 0, .u32, .const, [4096], .any⟩,
  ⟨0x7C02, 0x7C02, 0, 0, .u64, .ro, [0], .any⟩,
  ⟨0x7C03, 0x7C03, 0, 0, .u64, .ro, [0], .any⟩,
  ⟨0x7C04, 0x7C04, 0, 0, .bits32, .ro, [1], .any⟩,
  ⟨0x7C05, 0x7C05, 0, 0, .u64, .ro, [0], .any⟩,
  ⟨0x7C10, 0x7C10, 0, 0, .mt, .rc, [42950], .nat 4295 42949673⟩]

def objects9 : List ObjDef := [
  ⟨0x7C11, 0x7C11, 0, 0, .mt, .rc, [4294967], .nat 429497 429496730⟩,
  ⟨0x7C12, 0x7C12, 0, 0, .mt, .rc, [21474836], .nat 1288491 4294967296⟩,
  ⟨0x7C13, 0x7C13, 0, 0, .mt, .rc, [4294967296], .nat 0 68719476736⟩,
  ⟨0x7C14, 0x7C14, 0, 0, .mt, .rc, [42949672960], .nat 429496730 257698037760⟩,
  ⟨0x7C20, 0x7C20, 0, 0, .table, .ro, [0], .any⟩,
  ⟨0x7C30, 0x7C30, 0, 0, .u64, .ro, [0], .any⟩,
  ⟨0x7C31, 0x7C31, 0, 0, .u64, .ro, [0], .any⟩,
  ⟨0x7C32, 0x7C32, 0, 0, .u64, .ro, [0], .any⟩,
  ⟨0x7C33, 0x7C33, 0, 0, .u64, .ro, [0], .any⟩,
  ⟨0x7C34, 0x7C34, 0, 0, .u64, .ro, [0], .any⟩,
  ⟨0x7C35, 0x7C35, 0, 0, .u64, .ro, [0], .any⟩,
  ⟨0x7C36, 0x7C36, 0, 0, .u64, .ro, [0], .any⟩,
  ⟨0x7C37, 0x7C37, 0, 0, .u64, .ro, [0], .any⟩,
  ⟨0x7C38, 0x7C38, 0, 0, .u64, .ro, [0], .any⟩,
  ⟨0x8000, 0x8000, 0, 0, .u32, .const, [8192], .any⟩,
  ⟨0x8001, 0x8001, 0, 0, .u32, .const, [1344], .any⟩,
  ⟨0x8002, 0x8002, 0, 0, .u32, .const, [4096], .any⟩,
  ⟨0x8003, 0x8003, 0, 0, .u32, .ro, [4096], .any⟩,
  ⟨0x8004, 0x8004, 0, 0, .u32, .ro, [0], .any⟩,
  ⟨0x8010, 0x8010, 0, 0, .octets 32, .wo, [0], .any⟩,
  ⟨0x8011, 0x8011, 0, 0, .u32, .ro, [0], .any⟩,
  ⟨0x8012, 0x8012, 0, 0, .table, .ro, [0], .any⟩,
  ⟨0x8020, 0x8020, 0, 0, .octets 16, .wo, [0], .any⟩,
  ⟨0x8021, 0x8021, 0, 0, .u64, .ro, [0], .any⟩,
  ⟨0x8030, 0x8030, 0, 0, .table, .ro, [0], .any⟩,
  ⟨0x8040, 0x8040, 0, 0, .mt, .rc, [8589935], .nat 429497 4294967296⟩,
  ⟨0x8050, 0x8050, 0, 4, .u64, .ro, [0], .any⟩,
  ⟨0x8051, 0x8051, 0, 0, .u64, .ro, [0], .any⟩,
  ⟨0x8052, 0x8052, 0, 0, .u64, .ro, [0], .any⟩,
  ⟨0x8053, 0x8053, 0, 0, .u64, .ro, [0], .any⟩,
  ⟨0x8054, 0x8054, 0, 0, .u64, .ro, [0], .any⟩,
  ⟨0x8055, 0x8055, 0, 0, .u64, .ro, [0], .any⟩,
  ⟨0x8056, 0x8056, 0, 0, .u64, .ro, [0], .any⟩,
  ⟨0x8057, 0x8057, 0, 0, .u64, .ro, [0], .any⟩,
  ⟨0x8400, 0x8400, 0, 0, .u8, .const, [96], .any⟩,
  ⟨0x8401, 0x8401, 0, 95, .enum8, .ro, [0], .any⟩,
  ⟨0x8402, 0x8402, 0, 95, .octets 24, .ro, [0], .any⟩,
  ⟨0x8403, 0x8403, 0, 11, .u64, .ro, [0], .any⟩,
  ⟨0x8410, 0x8410, 0, 0, .bits32, .rc, [4095], .bits 0xFFF⟩,
  ⟨0x8411, 0x8411, 0, 0, .u32, .rc, [1000000], .nat 10000 2000000000⟩]

def objects10 : List ObjDef := [
  ⟨0x8412, 0x8412, 0, 0, .mt, .rc, [42949673], .nat 429497 4294967296⟩,
  ⟨0x8413, 0x8413, 0, 0, .octets 16, .ro, [0], .any⟩,
  ⟨0x8420, 0x8420, 0, 0, .octets 16, .wo, [0], .any⟩,
  ⟨0x8421, 0x8421, 0, 0, .octets 16, .ro, [0], .any⟩,
  ⟨0x8430, 0x8430, 0, 7, .u64, .rc, [0], .bits 0xFFFF000000000FFF⟩,
  ⟨0x8431, 0x8431, 0, 7, .octets 32, .ro, [0], .any⟩,
  ⟨0x8438, 0x8438, 0, 255, .u64, .rc, [0], .bits 0xFFFFFFFFFFFC0001⟩,
  ⟨0x8440, 0x8440, 0, 0, .u32, .rc, [0], .orZero 1024 16777216⟩,
  ⟨0x8441, 0x8441, 0, 0, .bits32, .rc, [63], .bits 0x3F⟩,
  ⟨0x8442, 0x8442, 0, 1, .u64, .rc, [0], .custom⟩,
  ⟨0x8443, 0x8443, 0, 0, .u32, .rc, [32768], .nat 1024 8388608⟩,
  ⟨0x8444, 0x8444, 0, 0, .table, .ro, [0], .any⟩,
  ⟨0x8445, 0x8445, 0, 0, .u64, .ro, [0], .any⟩,
  ⟨0x8446, 0x8446, 0, 0, .u32, .ro, [0], .any⟩,
  ⟨0x8450, 0x8450, 0, 16, .u64, .ro, [0], .any⟩,
  ⟨0x8451, 0x8451, 0, 0, .u64, .ro, [0], .any⟩,
  ⟨0x8452, 0x8452, 0, 0, .u64, .ro, [0], .any⟩,
  ⟨0x8600, 0x8600, 0, 0, .u32, .const, [4096], .any⟩,
  ⟨0x8601, 0x8601, 0, 0, .u32, .const, [8192], .any⟩,
  ⟨0x8602, 0x8602, 0, 0, .u32, .ro, [8192], .any⟩,
  ⟨0x8603, 0x8603, 0, 0, .u32, .const, [384], .any⟩,
  ⟨0x8610, 0x8610, 0, 0, .table, .rc, [0], .custom⟩,
  ⟨0x8611, 0x8611, 0, 0, .u8, .rc, [8], .nat 1 16⟩,
  ⟨0x8620, 0x8620, 0, 0, .table, .ro, [0], .any⟩,
  ⟨0x8630, 0x8630, 0, 0, .u64, .ro, [0], .any⟩,
  ⟨0x8631, 0x8631, 0, 0, .u64, .ro, [0], .any⟩,
  ⟨0x8632, 0x8632, 0, 0, .u64, .ro, [0], .any⟩,
  ⟨0x8633, 0x8633, 0, 0, .u64, .ro, [0], .any⟩,
  ⟨0x8634, 0x8634, 0, 0, .u64, .ro, [0], .any⟩,
  ⟨0x8635, 0x8635, 0, 0, .u64, .ro, [0], .any⟩,
  ⟨0x8636, 0x8636, 0, 0, .u64, .ro, [0], .any⟩,
  ⟨0x8637, 0x8637, 0, 0, .u64, .ro, [0], .any⟩,
  ⟨0x8638, 0x8638, 0, 0, .u64, .ro, [0], .any⟩,
  ⟨0x8800, 0x8800, 0, 0, .u64, .const, [25769803776], .any⟩,
  ⟨0x8801, 0x8801, 0, 1, .enum8, .ro, [1], .any⟩,
  ⟨0x8802, 0x8802, 0, 0, .u32, .const, [1024], .any⟩,
  ⟨0x8810, 0x8810, 0, 5, .u32, .rc, [224, 2720, 4096, 512, 64, 16], .nat 16 224⟩,
  ⟨0x8811, 0x8811, 0, 5, .u64, .ro, [0], .any⟩,
  ⟨0x8812, 0x8812, 0, 5, .u64, .ro, [0], .any⟩,
  ⟨0x8813, 0x8813, 0, 5, .u64, .ro, [0], .any⟩]

def objects11 : List ObjDef := [
  ⟨0x8814, 0x8814, 0, 0, .bits32, .ro, [63], .any⟩,
  ⟨0x8820, 0x8820, 0, 0, .u32, .rc, [1024], .nat 16 1048576⟩,
  ⟨0x8830, 0x8830, 0, 0, .u32, .rc, [86400], .nat 3600 604800⟩,
  ⟨0x8831, 0x8831, 0, 1, .u32, .ro, [0], .any⟩,
  ⟨0x8840, 0x8840, 0, 1, .u64, .ro, [0], .any⟩,
  ⟨0x8841, 0x8841, 0, 1, .u64, .ro, [0], .any⟩,
  ⟨0x8842, 0x8842, 0, 1, .u32, .ro, [0], .any⟩,
  ⟨0x8843, 0x8843, 0, 1, .u64, .ro, [0], .any⟩,
  ⟨0x8844, 0x8844, 0, 1, .u64, .ro, [0], .any⟩,
  ⟨0x8850, 0x8850, 0, 0, .table, .ro, [0], .any⟩,
  ⟨0x9000, 0x9030, 0, 255, .u64, .ro, [0], .any⟩,
  ⟨0x9F00, 0x9F00, 0, 0, .u32, .const, [12352], .any⟩,
  ⟨0x9F01, 0x9F01, 0, 0, .mt, .ro, [0], .any⟩,
  ⟨0xA000, 0xA000, 0, 1, .bits32, .ro, [0], .any⟩,
  ⟨0xA001, 0xA001, 0, 1, .u16, .ro, [0], .any⟩,
  ⟨0xA002, 0xA002, 0, 1, .bool, .ro, [0], .any⟩,
  ⟨0xA010, 0xA010, 0, 1, .u16, .rc, [0, 2048], .nat 0 4095⟩,
  ⟨0xA011, 0xA011, 0, 255, .u16, .rc, [0], .nat 0 4095⟩,
  ⟨0xA012, 0xA012, 0, 255, .u16, .rc, [0], .nat 0 4095⟩,
  ⟨0xA014, 0xA014, 0, 1, .u16, .rc, [2048], .nat 0 4096⟩,
  ⟨0xA015, 0xA015, 0, 255, .u16, .rc, [0], .nat 0 4096⟩,
  ⟨0xA016, 0xA016, 0, 255, .u16, .rc, [0], .nat 0 4096⟩,
  ⟨0xA020, 0xA020, 0, 0, .u16, .const, [2048], .any⟩,
  ⟨0xA021, 0xA021, 0, 0, .u16, .const, [64], .any⟩,
  ⟨0xA030, 0xA030, 0, 1, .u64, .ro, [0], .any⟩,
  ⟨0xA031, 0xA031, 0, 1, .u32, .ro, [0], .any⟩,
  ⟨0xA032, 0xA032, 0, 1, .u64, .ro, [0], .any⟩,
  ⟨0xA033, 0xA033, 0, 1, .u64, .ro, [0], .any⟩]

/-- Every object of the module. -/
def objects : List ObjDef :=
  objects0 ++ objects1 ++ objects2 ++ objects3 ++ objects4 ++ objects5 ++ objects6 ++ objects7 ++ objects8 ++ objects9 ++ objects10 ++ objects11

/-- The row that describes an element (R47): `none` where there is no such object. -/
def objDef (idx sub : Nat) : Option ObjDef :=
  objects.find? fun o => o.idx ≤ idx && idx ≤ o.idxHi && o.lo ≤ sub && sub ≤ o.hi &&
    !(idx == 0x9030 && 0x3F < sub)

/-- The row of any element of an object. -/
def objAny (idx : Nat) : Option ObjDef := objects.find? fun o => o.idx ≤ idx && idx ≤ o.idxHi

/-- The number of elements (R47): the highest valid subindex plus one. -/
def objShape (idx : Nat) : Nat :=
  if idx == 0x9030 then 64
  else objects.foldl (fun n o => if o.idx ≤ idx && idx ≤ o.idxHi then max n (o.hi + 1) else n) 0

/-- The default of an element. -/
def ObjDef.dfltAt (o : ObjDef) (sub : Nat) : Nat :=
  match o.dflt[sub - o.lo]? with
  | some v => v
  | none => o.dflt.getLastD 0

/-- The default of an element of the dictionary, as a number. -/
def objDefault (idx sub : Nat) : Nat :=
  match objDef idx sub with
  | some o => o.dfltAt sub
  | none => 0

/-- The value length of a type with a fixed one (Table 02-1). -/
def OType.len : OType → Nat
  | .bool | .u8 | .enum8 => 1
  | .u16 => 2
  | .u32 | .i32 | .bits32 => 4
  | .u64 | .i64 | .mt => 8
  | .octets n | .text n => n
  | .table => 0

/-- The type code (Table 02-1). -/
def OType.code : OType → Nat
  | .bool => 1 | .u8 => 2 | .u16 => 3 | .u32 => 4 | .u64 => 5 | .i32 => 6 | .i64 => 7 | .mt => 8
  | .enum8 => 9 | .bits32 => 10 | .octets _ => 11 | .text _ => 12 | .table => 13

end Sys2Proof.Machine
end

