-- ==== Sys2Proof/Machine/SMap.lean ====
section
/-!
DEFINITION. Sparse maps and plain lists: read, write, and the canonical form.
-/
namespace Sys2Proof.Machine

/-- The value of a sparse map at a key; an unlisted key has the default `d`. -/
def sget {α : Type} (d : α) : SMap α → Nat → α
  | [], _ => d
  | (j, v) :: r, k => if j = k then v else sget d r k

/-- Write one key, keeping the keys rising and listing no default. -/
def sset {α : Type} [DecidableEq α] (d : α) : SMap α → Nat → α → SMap α
  | [], k, v => if v = d then [] else [(k, v)]
  | (j, w) :: r, k, v =>
    if k < j then (if v = d then (j, w) :: r else (k, v) :: (j, w) :: r)
    else if k = j then (if v = d then r else (k, v) :: r)
    else (j, w) :: sset d r k v

/-- Change one key by a function of its present value. -/
def smod {α : Type} [DecidableEq α] (d : α) (m : SMap α) (k : Nat) (f : α → α) : SMap α :=
  sset d m k (f (sget d m k))

/-- Change every listed value; a value that becomes the default is no longer listed. -/
def smapv {α : Type} [DecidableEq α] (d : α) (f : Nat → α → α) : SMap α → SMap α
  | [] => []
  | (k, v) :: r => if f k v = d then smapv d f r else (k, f k v) :: smapv d f r

/-- The canonical form: keys strictly rising and at least `lo`, no listed default. -/
def swfFrom {α : Type} [DecidableEq α] (d : α) : Nat → SMap α → Bool
  | _, [] => true
  | lo, (k, v) :: r => decide (lo ≤ k) && decide (v ≠ d) && swfFrom d (k + 1) r

/-- The canonical form of a sparse map. -/
def swf {α : Type} [DecidableEq α] (d : α) (m : SMap α) : Bool := swfFrom d 0 m

/-- Read a map whose absent keys mean "nothing there". -/
def mget? {α : Type} : SMap α → Nat → Option α
  | [], _ => none
  | (j, v) :: r, k => if j = k then some v else mget? r k

/-- Put an entry into such a map. -/
def mput {α : Type} : SMap α → Nat → α → SMap α
  | [], k, v => [(k, v)]
  | (j, w) :: r, k, v =>
    if k < j then (k, v) :: (j, w) :: r
    else if k = j then (k, v) :: r
    else (j, w) :: mput r k v

/-- Remove an entry of such a map. -/
def mdel {α : Type} : SMap α → Nat → SMap α
  | [], _ => []
  | (j, w) :: r, k => if j = k then r else (j, w) :: mdel r k

/-- Change an entry, if there is one. -/
def mmod {α : Type} (m : SMap α) (k : Nat) (f : α → α) : SMap α :=
  match mget? m k with
  | some v => mput m k (f v)
  | none => m

/-- Rising keys, from `lo` on. -/
def mwfFrom {α : Type} : Nat → SMap α → Bool
  | _, [] => true
  | lo, (k, _) :: r => decide (lo ≤ k) && mwfFrom (k + 1) r

/-- The canonical form of a map without a default: rising keys. -/
def mwf {α : Type} (m : SMap α) : Bool := mwfFrom 0 m

/-- The lowest number from `lo` on, at most `n` of them tried, that is no key of the map. -/
def freeKey {α : Type} (m : SMap α) : Nat → Nat → Option Nat
  | _, 0 => none
  | lo, n + 1 => if (mget? m lo).isSome then freeKey m (lo + 1) n else some lo

/-- Remove the first element that satisfies `p`. -/
def eraseFirst {α : Type} (p : α → Bool) : List α → List α
  | [] => []
  | a :: r => if p a then r else a :: eraseFirst p r

/-- Replace the first element that satisfies `p`. -/
def updFirst {α : Type} (p : α → Bool) (f : α → α) : List α → List α
  | [] => []
  | a :: r => if p a then f a :: r else a :: updFirst p f r

/-- Replace element `k` of a list. -/
def updAt {α : Type} (f : α → α) : List α → Nat → List α
  | [], _ => []
  | a :: r, 0 => f a :: r
  | a :: r, k + 1 => a :: updAt f r k

/-- Insert into a list sorted by a key, after equal keys. -/
def insertBy {α : Type} (key : α → Nat) (x : α) : List α → List α
  | [] => [x]
  | a :: r => if key x < key a then x :: a :: r else a :: insertBy key x r

/-- Apply `f` once per element of a list, threading a state. -/
def foldSt {α σ : Type} (f : α → σ → σ) : List α → σ → σ
  | [], s => s
  | a :: r, s => foldSt f r (f a s)

end Sys2Proof.Machine
end

