-- ==== Sys2Proof/Machine/State.lean ====
section
/-!
DEFINITION. The state of the module as plain data, unit by unit, and its value right after reset.

Names follow the spec.  Fields marked "the model's own" are no register of the module: they are the
record of what left the module (`out`), the counter of free values (`free`) and the queue of waiting
commands (`pending`).
-/
namespace Sys2Proof.Machine

/-! ### TB: machine time (01_machine_time.md) -/

/-- The four time states (R21), in the coding of 0x4001:00. -/
inductive TimeState where
  | free | refLocked | fabricLocked | holdover
deriving DecidableEq, Repr

/-- Who armed a one-shot event (Table 01-4). -/
inductive ShotOwner where
  | commitSet (set : Nat)
  | activation (target : Nat)
  | launch (group step : Nat)
deriving DecidableEq, Repr

/-- One armed one-shot event (R34); the list of them is in arming order (R36). -/
structure OneShot where
  owner : ShotOwner
  instant : Nat
  late : Bool
deriving DecidableEq, Repr

/-- What TB knows of the peer on one port (R26 to R29). -/
structure PeerTime where
  /-- the offset as measured; 0x4040 shows it as an I32 -/
  offset : Option Int := none
  delay : Nat := 0
  depth : Nat := 15
  uncert : Nat := 0xFFFFFFFF
  srcNode : Nat := 0xFFFFF
  /-- when it began to be usable without interruption, and to advertise a depth below the source's
  without interruption (R23, R28): in counted ticks -/
  since : Option Nat := none
  lowerSince : Option Nat := none
  /-- the number of the exchange in progress -/
  openXid : Option Nat := none
  nextXid : Nat := 0
  /-- when the next exchange may start (0x4020), in counted ticks -/
  nextStart : Nat := 0
  sumDelay : Nat := 0
  nDelay : Nat := 0
deriving DecidableEq, Repr

/-- The time base. -/
structure TimeBase where
  mt : Nat := 0
  /-- ticks counted at MT's rate since reset; no step moves it (R584) -/
  count : Nat := 0
  /-- the 32-bit fractional accumulator of R14 -/
  frac : Nat := 0
  /-- the increment per REF_CLK cycle in units of 2^-32 tick, nominally 42.949 672 96 ticks -/
  increment : Nat := 184467440737
  state : TimeState := .free
  srcPort : Option Nat := none
  srcDepth : Nat := 15
  srcUncert : Nat := 0
  secondsUnconfirmed : Bool := false
  calibrated : Bool := false
  stepSinceRead : Bool := false
  /-- offset still to be removed by the slew in progress (R37), in units of 2^-32 tick -/
  residual : Int := 0
  lastStep : Nat := 0
  armed : List OneShot := []
  refClkValid : Bool := false
  epochValid : Bool := false
  tcodeValid : Bool := false
  qualified : Bool := false
  quality : Nat := 0
  /-- consecutive expected EPOCH edges missing -/
  missed : Nat := 0
  /-- an accepted edge has been seen, so the spacing of the next one can be judged -/
  haveEdge : Bool := false
  /-- NEXT_SECONDS of a valid frame since the last EPOCH edge -/
  frameNow : Option Nat := none
  /-- NEXT_SECONDS of the valid frame that preceded the previous accepted edge -/
  framePrev : Option Nat := none
  /-- a frame that disagreed with the seconds count while REF_LOCKED (R18) -/
  disagree : Option Nat := none
  /-- the seconds value adopted at the next EPOCH edge (R18) -/
  adopt : Option Nat := none
  /-- consecutive ticks spent in REF_LOCKED (R31) -/
  lockTicks : Nat := 0
  /-- ticks counted since HOLDOVER was entered, and the uncertainty at entry (R30) -/
  holdTicks : Nat := 0
  holdUncert : Nat := 0
  /-- ticks counted since REF_LOCKED was last left (R31) -/
  awayTicks : Nat := 0
  oscOffset : Nat := 0
  /-- the hold-down after the loss of a source runs until this count of ticks (R28) -/
  holdDown : Option Nat := none
  /-- uncertainty above its limit, already raised (R32) -/
  overLimit : Bool := false
  measuredDelay : Nat := 0
  measuredOk : Bool := false
  medianSum : Int := 0
  medianCount : Nat := 0
  /-- when the running 64 s average began (R20) -/
  medianSince : Nat := 0
  /-- the cable delay that MT holds (R20): where it changes, the difference is an offset -/
  delayHeld : Nat := 0
  /-- a whole second was reached and its pulse is due (R33) -/
  pulseDue : Bool := false
  /-- TIME_PULSE -/
  timePulse : Bool := false
  /-- when it falls again, in counted ticks -/
  pulseEnd : Nat := 0
  peers : SMap PeerTime := []
deriving DecidableEq, Repr

/-! ### The dictionary, commits and Yusto (02_object_dictionary.md) -/

/-- The states of a commit set (Table 02-8), in the coding of 0x1F02. -/
inductive SetState where
  | closed | opened | checking | armed | applied
deriving DecidableEq, Repr

/-- A value in a shadow: a scalar as written, or a TABLE with the segments written so far (R57). -/
inductive ShadowVal where
  | scalar (bytes : List Byte)
  | table (total : Nat) (cells : List Host.Cell)
deriving DecidableEq, Repr

/-- One entry of a clamp report (Table 02-10). -/
structure ReportEntry where
  index : Nat
  sub : Nat
  reason : Nat
  set : Nat
  element : Nat
  written : Nat
  applied : Nat
deriving DecidableEq, Repr

/-- The report of one set (R65). -/
structure Report where
  entries : List ReportEntry := []
  count : Nat := 0
deriving DecidableEq, Repr

/-- One commit set (R59). -/
structure CommitSet where
  state : SetState := .closed
  /-- the owner in the layout of 0x1F03: path and session; `none`: no owner -/
  owner : Option Nat := none
  shadow : SMap ShadowVal := []
  /-- the values the check left, by key; what the apply writes -/
  checked : SMap (List Byte) := []
  applyMT : Nat := 0
  /-- applies counted at the check, to see whether another set was applied since (R64) -/
  checkGen : Nat := 0
  /-- MT at which it was applied, or the instant it was armed for -/
  doneMT : Nat := 0
  report : Report := {}
deriving DecidableEq, Repr

/-- The result shown in 0x1F12:00. -/
structure LastResult where
  set : Nat := 0
  status : Nat := 0
  late : Bool := false
deriving DecidableEq, Repr

/-- A subscription (R58). -/
structure Subscription where
  number : Nat
  mask : Nat
  lo : Nat
  hi : Nat
deriving DecidableEq, Repr

/-- A response as the module keeps it (R54). -/
structure YResponse where
  seq : Nat
  op : Nat
  status : Nat
  body : List Byte
deriving DecidableEq, Repr

/-- A Yusto session (R51, R54, R55, R58). -/
structure Session where
  carrier : Carrier
  /-- the UDP port at which the module has it (management port, R51) -/
  port : Nat := 0
  /-- the SESSION number that its messages carry -/
  number : Nat := 0
  /-- when it will have been idle for 0x2102:00 seconds (management port) -/
  idleAt : Nat := 0
  /-- the expected SEQ; none before the first request -/
  next : Option Nat := none
  /-- held requests: SEQ, body, when its wait ends -/
  held : List (Nat × YBody × Nat) := []
  kept : List YResponse := []
  subs : List Subscription := []
  pushSeq : Nat := 0
  /-- pushes sent in the running second, and pushes coalesced since the last one sent -/
  pushNow : Nat := 0
  pushSecond : Nat := 0
  coalesced : Nat := 0
  /-- by TABLE key: the configuration generation when offset 0 was last read (R56) -/
  passes : SMap Nat := []
deriving DecidableEq, Repr

/-- One copy of the persistent configuration (R69). -/
structure ConfigCopy where
  /-- the header: magic 0x5943_4647, persist generation, length of the content, CRC-32C -/
  magic : Nat := 0
  gen : Nat := 0
  length : Nat := 0
  crc : Nat := 0
  /-- the content: the complete set of RC values -/
  values : SMap (List Byte) := []
  /-- what the copy holds of a TABLE beyond its declared total (R71) -/
  tails : SMap (List Byte) := []
deriving DecidableEq, Repr

/-- The dictionary's live values, the commit machinery and the Yusto sessions. -/
structure Dict where
  /-- live RC and RW values by key index × 256 + subindex; an absent key has the default -/
  live : SMap (List Byte) := []
  /-- the commit sets 1..15; set 0 holds the report of the boot load -/
  sets : SMap CommitSet := []
  /-- the set whose report 0x1F10 shows -/
  lastChecked : Option Nat := none
  lastResult : LastResult := {}
  /-- 0x1F22 bits 0 to 3 -/
  refStale : Bool := true
  drift : Bool := false
  scanComplete : Bool := false
  persisted : Bool := false
  /-- the configuration generation at which an apply last changed a TABLE, by key (R56) -/
  changedAt : SMap Nat := []
  /-- the last scan's word, and whether it differed from the reference -/
  liveWord : Nat := 0
  lastDiffered : Bool := false
  gen : Nat := 0
  /-- applies and boot loads since power-on -/
  applies : Nat := 0
  /-- 0x1F31:00 -/
  bootCopy : Nat := 0
  persistGen : Nat := 0
  copyA : ConfigCopy := {}
  copyB : ConfigCopy := {}
  /-- a persist is due (R69) -/
  persistDue : Bool := false
  sessions : SMap Session := []
  nextSession : Nat := 1
deriving DecidableEq, Repr

/-! ### What an access to host memory is for -/

/-- The follow-up of an access, as plain data: which unit takes its result. -/
inductive Cont where
  /-- nothing follows -/
  | none
  /-- entry `n` of a SEND, RECV or SRQ ring (R99) -/
  | ring (qn n era : Nat)
  /-- entry `k` of the fragment table that the queue's fetch waits for (R91) -/
  | frag (qn k era : Nat)
  /-- the entry being written to a COMPLETION or EVENT ring: bytes 1 to 31, or byte 0 (R94) -/
  | entryWrite (qn : Nat) (last : Bool) (era : Nat)
  /-- the QUERY record of an admin command (R104) -/
  | query (adminQn n : Nat)
  /-- a piece of the local data of a message being sent (R242) -/
  | msgRead (flow rsn : Nat)
  /-- a piece of response data written to the local buffer (R146) -/
  | msgSink (flow rsn : Nat)
  /-- a piece of a packet placed in a region, from byte `pos` of the payload on (R154) -/
  | place (p : Packet) (pos : Nat)
  /-- a piece of the data that a GET asks for: offset of the packet, bytes read before (R154) -/
  | getRead (p : Packet) (off : Nat) (buf : List Byte) (poison : Bool)
  /-- an AtomicOp (R155) -/
  | atomic (p : Packet)
  /-- a zero-length read of a FLUSH (R165) -/
  | zeroRead (flow rsn : Nat)
  /-- a piece of a CSEND placed in the BUFFER's buffer (R159) -/
  | sendPlace (flow rsn : Nat)
  /-- a piece of a matched message placed in its receive buffer; its info record (R128, R124) -/
  | recvPlace (pid : Nat)
  | recvInfo (pid : Nat)
  /-- a piece of the data that an RGET asks for (R131) -/
  | rgetRead (p : Packet) (off : Nat) (buf : List Byte) (poison : Bool)
  /-- a piece of a collective group's member table; of a contribution; of a result (R187, R190) -/
  | memberTable (qn entry : Nat)
  | contribRead (group step : Nat)
  | resultWrite (group step : Nat)
  /-- an access of an engine's context (R376) -/
  | engine (engine ctx : Nat)
  /-- a zero-length read of a FENCE.P: its number, the link, and the first address stored there (R406) -/
  | fence (engine ctx no link addr : Nat)
  /-- a piece of a move's data written to host memory, up to byte `pos`; the zero-length read after them (R408) -/
  | move (engine ctx tag pos : Nat)
  | moveAck (engine ctx tag : Nat)
  /-- a piece of the data that a LANE_SEND carries (R387) -/
  | laneRead (lnum : Nat)
  /-- a piece of a LANE_DATA payload (R388) -/
  | lanePlace (p : Packet) (pos far : Nat)
deriving DecidableEq, Repr

/-! ### QM: queues (03_queues.md) -/

/-- The queue states (R80), in the coding of Table 03-14. -/
inductive QState where
  | unborn | ready | halted | draining | destroyed
deriving DecidableEq, Repr

/-- What a completion carries besides its queue's own fields (Table 03-7). -/
structure Comp where
  status : Nat
  length : Nat := 0
  imm : Nat := 0
  peer : Nat := 0
  flags : Nat := 0
  /-- the operation was abandoned: it retires without a completion (R108, R175) -/
  quiet : Bool := false
deriving DecidableEq, Repr

/-- A fetched descriptor of a SEND queue that has not retired. -/
structure SendOp where
  /-- the entry number -/
  n : Nat
  /-- the 512 bits of the descriptor -/
  desc : Nat
  frags : List (Nat × Nat) := []
  /-- the key rights in force at the fetch (R84) -/
  rights : Nat := 0
  started : Bool := false
  done : Option Comp := none
deriving DecidableEq, Repr

/-- An entry that waits to be written to its ring: its bits without PHASE, and whether it raises the
vector by itself (R94, R96). -/
structure PendingEntry where
  bits : Nat
  kick : Bool
  /-- the RECV or SRQ queue whose FETCHED it shows as SQ_HEAD when it is written (Table 03-7) -/
  recvOf : Option Nat := none
  /-- the message that is acknowledged once the entry is written (R159, R164): flow, RSN, COUNT, CODE -/
  ack : Option (Nat × Nat × Nat × Nat) := none
deriving DecidableEq, Repr

/-- One hardware queue. -/
structure Queue where
  state : QState := .unborn
  type : Nat := 0
  fn : Nat := 0
  base : Nat := 0
  log2 : Nat := 0
  gen : Nat := 0
  weight : Nat := 0
  gust : Nat := 0
  vector : Nat := 0
  tenant : Nat := 0
  asid : Nat := 0
  endpoint : Nat := 0
  cqn : Nat := 0
  eqn : Nat := 0
  noEq : Bool := false
  modCount : Nat := 0
  modTime : Nat := 0
  admin : Bool := false
  /-- the 32-bit counts of R79 -/
  tail : Nat := 0
  fetched : Nat := 0
  retired : Nat := 0
  written : Nat := 0
  head : Nat := 0
  reserved : Nat := 0
  haltReason : Nat := 0
  haltDetail : Nat := 0
  haltIndex : Nat := 0
  /-- USER_DATA and OPCODE of the entry read malformed (R106) -/
  skip : Nat × Nat := (0, 0)
  drainMark : Nat := 0
  /-- the admin queue and entry number of the DRAIN or DESTROY that waits for the mark, and whether
  it is a DESTROY -/
  drainFor : Option (Nat × Nat × Bool) := none
  /-- a DESTROY has taken the queue's work away and waits for host accesses (R109); with the result
  it will report: entries abandoned or receives removed, RETIRED, unfetched entries discarded -/
  destroying : Option (Nat × Nat × Nat) := none
  /-- destroyed with FORCE: no completion is written for it (R108) -/
  forced : Bool := false
  armed : Bool := false
  /-- entries written since the arm (R96) -/
  sinceArm : Nat := 0
  /-- when the first of them was written, in counted ticks, and the MOD_TIME in force for them: the value at
  the latest entry (R101) -/
  modAt : Nat := 0
  modNow : Nat := 0
  /-- events dropped since the last EQ_OVERFLOW (R98) -/
  droppedEvents : Nat := 0
  /-- the key-rights word's RIGHTS (R232) -/
  rights : Nat := 0
  stack : Nat := 0
  /-- the stack that held the context is lost (R112) -/
  lost : Bool := false
  /-- entries still to be fetched in the visit in progress, whose completion slots are reserved -/
  gustLeft : Nat := 0
  /-- the descriptor whose fragment table is being read, with the fragments read so far -/
  fragWait : Option (Nat × List (Nat × Nat)) := none
  ops : List SendOp := []
  /-- entries not yet written, oldest first; a write is in progress -/
  entries : List PendingEntry := []
  writing : Bool := false
  /-- how often it has halted: what was read or written for it before a halt is not taken after it -/
  era : Nat := 0
deriving DecidableEq, Repr

/-- The fetch position of one function (R99). -/
structure FetchPos where
  pass : Nat := 0
  qn : Nat := 0
deriving DecidableEq, Repr

/-- The queue manager. -/
structure QueueMgr where
  queues : SMap Queue := []
  /-- the outer loop of R99: the FN from which its admin queues are still to be served, `none` in the data
  passes -/
  aturn : Option Nat := some 0
  /-- the data pass and the next function -/
  fpass : Nat := 0
  fnext : Nat := 0
  pos : SMap FetchPos := []
deriving DecidableEq, Repr

/-! ### MU: message matching (04_message_matching.md) -/

/-- Bytes waiting to be written to a buffer: offset, data, poison. -/
structure Chunk where
  off : Nat
  data : List Byte
  poison : Bool := false
deriving DecidableEq, Repr

/-- The states of a match domain (Table 04-2), in the coding of Table 04-3. -/
inductive DomState where
  | closed | opened | closing
deriving DecidableEq, Repr

/-- A posted receive (R119, R122). -/
structure Recv where
  qn : Nat
  entry : Nat
  userData : Nat
  /-- the source pattern and ENDPOINT_ANY -/
  src : Nat
  anyEp : Bool
  endpoint : Nat
  mbits : Nat
  ignore : Nat
  length : Nat
  addr : Nat
  frags : List (Nat × Nat)
  info : Nat
  rights : Nat
  asid : Nat
  tenant : Nat
deriving DecidableEq, Repr

/-- How a message came: eager, request to send, or skip notice. -/
inductive UKind where
  | eager | rts | skip
deriving DecidableEq, Repr

/-- A message at the receiving MU: in the reorder area, or in the unexpected list. -/
structure UMsg where
  kind : UKind
  /-- the first packet, whose header the answers copy -/
  packet : Packet
  /-- its flow at this module, for the answers (R129) -/
  flow : Nat
  /-- data packets held in the unexpected store -/
  store : List Chunk := []
  /-- payload bytes of the message that have arrived -/
  got : Nat := 0
  /-- only the header is kept; the data is fetched when the message binds (R128) -/
  deferred : Bool := false
  /-- the sender has been acknowledged -/
  acked : Bool := false
deriving DecidableEq, Repr

/-- A bound receive whose data is being placed (R128, R131, R135). -/
structure Placing where
  recv : Recv
  msg : UMsg
  domain : Nat
  unexpected : Bool
  /-- bytes to place, placed, queued packets not yet placed, the first of them up to `pos` -/
  want : Nat
  placed : Nat := 0
  queue : List Chunk := []
  pos : Nat := 0
  /-- how many of the queued packets, its first ones, are still to be copied out of the unexpected store -/
  stored : Nat := 0
  /-- bytes that must have come before the receive ends: of an eager message all, placed or not; and bytes that
  have come -/
  due : Nat := 0
  come : Nat := 0
  /-- a piece of the message came poisoned -/
  poison : Bool := false
  /-- an access of it is in progress; the info record's access is over -/
  busy : Bool := false
  info : Bool := false
  /-- the status that ends it, when it is not OK -/
  fail : Nat := 0
deriving DecidableEq, Repr

/-- A match domain. -/
structure Domain where
  state : DomState := .closed
  tenant : Nat := 0
  eqn : Nat := 0
  eager : Nat := 0
  uqHeaders : Nat := 0
  uqMib : Nat := 0
  posted : List Recv := []
  unexpected : List UMsg := []
  reorder : List UMsg := []
  /-- receives cancelled and messages discarded or refused by the close -/
  cancelled : Nat := 0
  discarded : Nat := 0
  /-- the stack that holds its lists -/
  stack : Nat := 0
  /-- MT of the last resource event of each code (R143) -/
  lastEvent : SMap Nat := []
deriving DecidableEq, Repr

/-- A sequence context: source or receiver side of a triple (R132, R133). -/
structure SeqCtx where
  sending : Bool
  source : Nat
  /-- sending: the whole destination identity; receiving: the destination endpoint -/
  dest : Nat
  domain : Nat
  next : Nat
deriving DecidableEq, Repr

/-- What a rendezvous handle gives an RGET: the TSEND's queue and entry, and its buffer (R131). -/
structure Handle where
  qn : Nat
  entry : Nat
  source : Nat
  dest : Nat
  asid : Nat
  rights : Nat
  mlen : Nat
  laddr : Nat
  frags : List (Nat × Nat)
deriving DecidableEq, Repr

/-- The matching unit. -/
structure Matching where
  domains : SMap Domain := []
  seqs : List SeqCtx := []
  placing : SMap Placing := []
  nextPlacing : Nat := 0
  /-- rendezvous handles, each until its TSEND retires (R131) -/
  handles : SMap Handle := []
  nextHandle : Nat := 0
deriving DecidableEq, Repr

/-! ### RA: remote memory access (05_remote_access.md) -/

/-- The states of a region (Table 05-4). -/
inductive RegState where
  | free | live | draining
deriving DecidableEq, Repr

/-- A region. -/
structure Region where
  state : RegState := .free
  fn : Nat := 0
  tag : Nat := 0
  tenant : Nat := 0
  asid : Nat := 0
  notify : Nat := 0
  eqn : Nat := 0
  rd : Bool := false
  wr : Bool := false
  at_ : Bool := false
  resend : Bool := false
  length : Nat := 0
  base : Nat := 0
  stack : Nat := 0
  /-- the DEREGISTER to retire when drained: admin queue, entry number, stalled packets refused -/
  dereg : Option (Nat × Nat × Nat) := none
  /-- when FAULT_BUFFER_FULL was last posted (R179) -/
  fullAt : Option Nat := none
deriving DecidableEq, Repr

/-- The states of a connection (Table 05-8). -/
inductive ConnState where
  | closed | opened | error | closing
deriving DecidableEq, Repr

/-- A legacy connection (R174). -/
structure Conn where
  state : ConnState := .closed
  fn : Nat := 0
  peerConn : Nat := 0
  peer : Nat := 0
  tenant : Nat := 0
  srqn : Nat := 0
  eqn : Nat := 0
  /-- the CLOSE_CONN to retire: admin queue and entry number -/
  closeBy : Option (Nat × Nat) := none
deriving DecidableEq, Repr

/-- Whose operation a source message carries. -/
inductive MsgOwner where
  /-- a descriptor: queue and entry number -/
  | desc (qn entry : Nat)
  /-- a remote access of an engine's context: store number or none for a load, address (R376) -/
  | engine (engine ctx : Nat) (store : Option Nat) (addr : Nat)
  /-- the FLUSH of a FENCE.P: its number, and the first address stored in that flow (R406) -/
  | fence (engine ctx no addr : Nat)
  /-- the PUT of a move, and the FLUSH that follows it (R408) -/
  | move (engine ctx tag : Nat) (flush : Bool)
  /-- the get that fetches a matched message's data (R131) -/
  | rget (pid : Nat)
  /-- a skip notice (R134) -/
  | skip
deriving DecidableEq, Repr

/-- What a source message is doing. -/
inductive MsgPhase where
  /-- its packets are being built and injected -/
  | sending
  /-- held by the policer or the congestion window (R173, R171) -/
  | heldRed | heldWindow
  /-- every packet sent, no answer yet -/
  | waiting
  /-- refused with retry: the message is sent again when the interval is over (R160, R167, R169,
  R140); the code of Table 05-2 is kept -/
  | retry (code : Nat)
deriving DecidableEq, Repr

/-- A message of a flow at its source (R162, R163). -/
structure Msg where
  /-- packet type (Table 08-3) -/
  type : Nat
  rsn : Nat := 0
  owner : MsgOwner
  asid : Nat := 0
  rights : Nat := 0
  key : Nat := 0
  raddr : Nat := 0
  mlen : Nat := 0
  imm : Nat := 0
  laddr : Nat := 0
  frags : List (Nat × Nat) := []
  /-- payload that does not come from memory: operands, or the data of an engine's store -/
  inline : List Byte := []
  /-- that payload is poisoned (R441) -/
  tainted : Bool := false
  tclass : Nat := 0
  colour : Nat := 0
  order : Bool := false
  solicit : Bool := false
  /-- match words of TSEND: domain, sequence number, match bits, rendezvous handle -/
  domain : Nat := 0
  mseq : Nat := 0
  matchBits : Nat := 0
  handle : Nat := 0
  /-- RGET: first byte requested -/
  from_ : Nat := 0
  /-- the FLUSH's OUTSTANDING mask (R165) -/
  mask : Nat := 0
  /-- the connection number at the peer (R176), and the endpoint of the sending queue (R177) -/
  dconn : Nat := 0
  endpoint : Nat := 0
  phase : MsgPhase := .sending
  attempt : Nat := 0
  /-- next byte to inject, bytes of the packet gathered so far, poison seen in them -/
  cursor : Nat := 0
  buf : List Byte := []
  bufPoison : Bool := false
  /-- a read of its local data is under way; the message starts again when it is over -/
  reading : Bool := false
  again : Bool := false
  /-- colours given to the packets of the first injection, oldest first (R173); the next packet was judged
  red before, so that its later evaluations count nothing (R315) -/
  colours : List Nat := []
  red : Bool := false
  /-- payload bytes in flight (R171) -/
  flying : Nat := 0
  /-- offsets of the response packets taken; those not written yet, the first of them up to `sinkPos` -/
  gotOffs : List Nat := []
  got : Nat := 0
  sinkQueue : List Chunk := []
  sinkPos : Nat := 0
  sinking : Bool := false
  sunk : Nat := 0
  poisoned : Bool := false
  /-- when its last packet was injected -/
  sentAt : Nat := 0
  /-- when its retry interval is over -/
  due : Nat := 0
  /-- place in the start order of the module -/
  start : Nat := 0
  lossTries : Nat := 0
  rnrTries : Nat := 0
  pageTries : Nat := 0
  /-- its last packet has left the module: a PUT has retired -/
  left : Bool := false
  /-- a FLUSH has reported that failure already (R165) -/
  reported : Bool := false
  /-- a PUT or CPUT refused before that: status and reason, reported once it has retired (R146, R165) -/
  refusal : Option (Nat × Nat) := none
  /-- a TSEND whose domain has closed: no skip notice follows it (R134) -/
  orphan : Bool := false
deriving DecidableEq, Repr

/-- What names a flow: the triple, and the connection at this end (R162, R177).  At its source, a
connection's flow has the module's identity with endpoint 0: queues of several endpoints share it. -/
structure FlowKey where
  source : Nat
  dest : Nat
  tenant : Nat
  conn : Option Nat := none
deriving DecidableEq, Repr

/-- A failure that a FLUSH has still to report (R165). -/
structure Failure where
  source : Nat
  dest : Nat
  tenant : Nat
  qn : Nat
  /-- place in the start order -/
  start : Nat
  status : Nat
  reason : Nat
deriving DecidableEq, Repr

/-- A message whose record was dropped with its queue or connection (R108, R175): responses that name it are
counted. -/
structure Dropped where
  source : Nat
  dest : Nat
  tenant : Nat
  rsn : Nat
deriving DecidableEq, Repr

/-- The source side of a flow (R162). -/
structure FlowSrc where
  key : FlowKey
  nextRsn : Nat := 0
  w : Nat := 262144
  lastCut : Nat := 0
  srtt : Nat := 0
  msgs : List Msg := []
  /-- start order, for the least recently used choice of R167 -/
  lastUse : Nat := 0
  stack : Nat := 0
deriving DecidableEq, Repr

/-- A BUFFER entry held by RA (R158). -/
structure Buffer where
  qn : Nat
  entry : Nat
  userData : Nat
  length : Nat
  addr : Nat
  frags : List (Nat × Nat)
  rights : Nat
deriving DecidableEq, Repr

/-- A message at its target, being received. -/
structure RMsg where
  rsn : Nat
  /-- the first packet of the message that arrived, whose header the answers copy; the latest attempt seen -/
  packet : Packet
  attempt : Nat
  /-- its place among the messages that have arrived at the module -/
  since : Nat := 0
  /-- it was completed before: a GET that reads its region again (R164) -/
  dup : Bool := false
  /-- offsets whose packets have been taken, payload bytes in them, and bytes placed -/
  offsets : List Nat := []
  taken : Nat := 0
  placed : Nat := 0
  poison : Bool := false
  squall : Bool := false
  delay : Option Nat := none
  /-- the attempts seen since the last refusal with retry, newest first, and at most 8 of those before it: none
  of the latter is taken any more (R164) -/
  seen : List Nat := []
  spent : List Nat := []
  /-- the TRY that was refused with retry last (R164); no packet of a later attempt has come yet -/
  refused : Option Nat := none
  halted : Bool := false
  /-- the host link that its writes went to -/
  link : Option Nat := none
  /-- CSEND: packets not placed yet, the first of them up to `pos`; the BUFFER it consumed; the
  completion that waits for its turn (R177) -/
  waitQ : List Chunk := []
  pos : Nat := 0
  busy : Bool := false
  buffer : Option Buffer := none
  ready : Option Comp := none
deriving DecidableEq, Repr

/-- What the target remembers of a completed RSN (R162, R164). -/
structure DoneRec where
  rsn : Nat
  /-- the first packet of the message, the attempts seen, at most 8, newest first, and the TRY that was
  refused with retry last -/
  packet : Packet
  tries : List Nat
  refused : Option Nat
  /-- the answer; none: a GET, which reads its region again -/
  answer : Option Packet
  link : Option Nat := none
deriving DecidableEq, Repr

/-- A FLUSH held at the target (R165). -/
structure HeldFlush where
  rsn : Nat
  /-- RSNs that its mask names; those still to complete -/
  named : List Nat
  waits : List Nat
  /-- host links that received writes of the RSNs completed -/
  links : List Nat
  /-- zero-length reads still outstanding; `none` before they are issued -/
  reads : Option Nat := none
deriving DecidableEq, Repr

/-- The target side of a flow. -/
structure FlowTgt where
  key : FlowKey
  /-- the lowest RSN that may not have completed -/
  upTo : Nat := 0
  msgs : List RMsg := []
  record : List DoneRec := []
  flushes : List HeldFlush := []
  /-- when its last packet arrived -/
  lastAt : Nat := 0
  stack : Nat := 0
deriving DecidableEq, Repr

/-- A packet with ORDER that waits for the packets it covers (R168): its flow, and whether it is the first of
its attempt. -/
structure HeldOrder where
  flow : Nat
  first : Bool
  packet : Packet
deriving DecidableEq, Repr

/-- A message that cannot start yet and belongs to no descriptor (R163, R167, R278). -/
structure WaitMsg where
  key : FlowKey
  msg : Msg
deriving DecidableEq, Repr

/-- The base delay of a destination node (R171): its value, and when it was last reset. -/
structure BaseDelay where
  value : Nat
  since : Nat
deriving DecidableEq, Repr

/-- The remote access unit. -/
structure Remote where
  regions : SMap Region := []
  conns : SMap Conn := []
  src : SMap FlowSrc := []
  tgt : SMap FlowTgt := []
  nextFlow : Nat := 0
  waiting : List WaitMsg := []
  failures : List Failure := []
  dropped : List Dropped := []
  /-- packets with ORDER that wait for those they cover, in arrival order (R168) -/
  ordered : List HeldOrder := []
  /-- base delay per destination node (R171) -/
  base : SMap BaseDelay := []
  buffers : SMap (List Buffer) := []
  useClock : Nat := 0
deriving DecidableEq, Repr

/-! ### CE: collectives (06_collectives.md) -/

/-- The states of a group (Table 06-4), in the coding of Table 06-14. -/
inductive GroupState where
  | free | joining | active | broken
deriving DecidableEq, Repr

/-- The progress of a step (Table 06-5). -/
inductive StepState where
  | held | launched | waiting | result | done
deriving DecidableEq, Repr

/-- What a child has sent of its CONTRIB of a step: the packets by OFFSET. -/
structure ChildPart where
  child : Nat
  sig : Nat := 0
  parts : List (Nat × List Byte) := []
  /-- the offsets of the packets that carried the overflow mark -/
  overflowed : List Nat := []
  late : Bool := false
  poison : Bool := false
  /-- whole contribution here (R192) -/
  complete : Bool := false
deriving DecidableEq, Repr

/-- A step of a group at this member (R190 to R192). -/
structure Step where
  num : Nat
  /-- entry number of the descriptor; none while only the children's parts are here -/
  entry : Option Nat := none
  state : StepState := .held
  /-- the signature of R191 in the layout of Table 08-7, bits [137:18] -/
  sig : Nat := 0
  tclass : Nat := 0
  rights : Nat := 0
  laddr : Nat := 0
  target : Nat := 0
  /-- at the top root: when it has been open for the step timeout (R202); 0: never -/
  due : Nat := 0
  /-- the member's own contribution, read so far, and whether it is whole -/
  own : List Byte := []
  ownDone : Bool := false
  /-- parts of the children, in the order in which they became whole (R195 FAST) -/
  parts : List ChildPart := []
  /-- what the member has sent up, kept for R203 -/
  up : List Packet := []
  /-- what has arrived of the RESULT, by OFFSET -/
  resParts : List (Nat × List Byte) := []
  res : Option (List Byte) := none
  written : Nat := 0
  /-- an ABORT that reached the member before its descriptor: reason and originator (R201) -/
  aborted : Option (Nat × Nat) := none
  /-- this member has sent the ABORT that it waits for (R201) -/
  stopped : Bool := false
  /-- its result is fetched from the top root (R205) -/
  fetching : Bool := false
  late : Bool := false
  overflow : Bool := false
  poison : Bool := false
deriving DecidableEq, Repr

/-- A result that a member keeps: for FETCH at the top root (R207), to be sent again elsewhere (R203). -/
structure KeptResult where
  num : Nat
  sig : Nat
  bytes : List Byte
  late : Bool
  overflow : Bool
  poison : Bool
  tclass : Nat
deriving DecidableEq, Repr

/-- A GROUP_CREATE whose member table is being read (R187). -/
structure Create where
  qn : Nat
  entry : Nat
  desc : Nat
  frags : List (Nat × Nat)
  rights : Nat
  /-- when its join times out: measured from the start of the command (R188) -/
  joinBy : Nat
  bytes : List Byte := []
deriving DecidableEq, Repr

/-- A group at this module. -/
structure Group where
  state : GroupState := .free
  gen : Nat := 0
  tenant : Nat := 0
  qn : Nat := 0
  /-- entry number and TCLASS of the GROUP_CREATE; `creating`: it has not retired -/
  entry : Nat := 0
  creating : Bool := false
  tclass : Nat := 0
  window : Nat := 0
  maxLen : Nat := 0
  exact : Bool := false
  deadline : Nat := 0
  /-- when the join times out, and when JOIN is due again -/
  joinBy : Nat := 0
  joinAt : Nat := 0
  members : List Nat := []
  /-- this module's children, level by level, each level ascending; its parent and the top root -/
  kids : List (List Nat) := []
  parent : Option Nat := none
  levels : Nat := 0
  top : Nat := 0
  digest : Nat := 0
  joined : List Nat := []
  joinSent : Bool := false
  reserved : Nat := 0
  stack : Nat := 0
  nextStep : Nat := 0
  steps : List Step := []
  kept : List KeptResult := []
  /-- at the top root: how many steps are decided OK, up to the highest -/
  decided : Nat := 0
  /-- the neighbours that this member has declared lost (R204) -/
  declared : List Nat := []
  /-- the loss that this member knows: lost member and reason -/
  lost : Option (Nat × Nat) := none
  /-- GROUP_BROKEN has been posted (R209); E as its DATA gives it -/
  told : Bool := false
  lastOk : Nat := 0
  /-- this member has declared a loss and waits for the decision (R205); GROUP_BROKEN is owed then -/
  undecided : Bool := false
  owes : Bool := false
  /-- when each tree neighbour counts as silent; when HEARTBEAT is due -/
  heard : SMap Nat := []
  beatAt : Nat := 0
deriving DecidableEq, Repr

/-- Cells of a released group that packets still reference (R208). -/
structure Transient where
  group : Nat
  gen : Nat
  /-- the stack that holds them -/
  stack : Nat
  bytes : Nat
deriving DecidableEq, Repr

/-- The collective engine. -/
structure Collective where
  groups : SMap Group := []
  creates : List Create := []
  transient : List Transient := []
  /-- squall marks counted on VC16 (R248) -/
  squallMarks : Nat := 0
deriving DecidableEq, Repr
/-! ### TU: translation (07_translation.md) -/

/-- The states of an address space (Table 07-2). -/
inductive AsState where
  | free | live | closing
deriving DecidableEq, Repr

/-- One address space. -/
structure AddrSpace where
  state : AsState := .free
  fn : Nat := 0
  tenant : Nat := 0
  eqn : Nat := 0
  failPolicy : Bool := false
  mark : Bool := false
  rights : Nat := 0
  root : Nat := 0
  /-- its function was reset or moved: it closes once its queues and regions are gone (Table 07-2) -/
  dying : Bool := false
  /-- MT of the last FAULT_TABLE_FULL (R228) -/
  fullAt : Option Nat := none
deriving DecidableEq, Repr

/-- A cached leaf: first page, pages covered, and the level-0 entry (R219, R220). -/
structure TlbSlot where
  asid : Nat
  page : Nat
  pages : Nat
  /-- the entry as read, its ADDR taken back to the first page of the slot -/
  entry : Nat
deriving DecidableEq, Repr

/-- A cached upper-level entry: level 3, 2 or 1, index prefix, entry (R221). -/
structure WalkSlot where
  asid : Nat
  level : Nat
  pfx : Nat
  entry : Nat
deriving DecidableEq, Repr

/-- The access classes of Table 07-9, and engine accesses (R376). -/
inductive AccClass where
  | ring | adminResult | localBuf | region | engine
deriving DecidableEq, Repr

/-- The forms of a PCIe AtomicOp (R155), with operands. -/
inductive HostAtomic where
  | fetchAdd (v : Nat)
  | swap (v : Nat)
  | cas64 (cmp new : Nat)
  | cas128 (cmp new : Nat)
deriving DecidableEq, Repr

/-- An access to host memory within one page, to be translated and performed (R216, R227). -/
structure Acc where
  asid : Nat
  addr : Nat
  len : Nat
  /-- the bytes of a write; none for a read -/
  data : Option (List Byte) := none
  atomic : Option HostAtomic := none
  /-- the bytes of a write are poisoned (R441) -/
  poison : Bool := false
  cls : AccClass
  rights : Nat := 0
  /-- a fault waits on a record (Table 07-9) -/
  waits : Bool := false
  /-- the queue on whose behalf it is made (R109) -/
  qn : Option Nat := none
  /-- the region it reaches, and the packet bytes it holds in the fault buffer -/
  region : Option Nat := none
  held : Nat := 0
  /-- when its wait on a fault record ends (R168, R227); 0: it has not waited -/
  deadline : Nat := 0
  /-- a RESUME released it: it is translated by a fresh walk of the tables (R230) -/
  fresh : Bool := false
  /-- a KEY fault has captured its rights (R231) -/
  kept : Bool := false
  /-- how it is translated: first page and pages of the leaf used, and the highest level whose entry its walk
  used; 0: it hit the TLB (R224) -/
  via : Nat × Nat := (0, 0)
  top : Nat := 0
  /-- a write that is only translated: half of an ST2W (R381) -/
  probe : Bool := false
  /-- the released waiters that follow it in arrival order (R168) -/
  chain : Option Nat := none
  cont : Cont
deriving DecidableEq, Repr

/-- A fault record (R228). -/
structure FaultRec where
  seq : Nat := 0
  asid : Nat := 0
  page : Nat := 0
  /-- 0: the slot is free -/
  kind : Nat := 0
  level : Nat := 0
  flags : Nat := 0
  addr : Nat := 0
  waiters : List Acc := []
deriving DecidableEq, Repr

/-- What an outstanding host read is for. -/
inductive ReadPurpose where
  /-- a table entry of the level given, for an access (R218) -/
  | walk (a : Acc) (level : Nat)
  /-- the data of an access -/
  | data (a : Acc)
  /-- a zero-length read (R165, R406) -/
  | zero (c : Cont)
deriving DecidableEq, Repr

/-- One request of a read: its place in what is read, its tag once it is issued (14 bits), and how it has
ended (R448). -/
structure HostPart where
  off : Nat
  len : Nat
  tag : Option Nat := none
  got : Option HostResult := none
deriving DecidableEq, Repr

/-- A read of host memory that returns completions, in one or more requests. -/
structure HostRead where
  fn : Nat
  addr : Nat
  len : Nat
  purpose : ReadPurpose
  parts : List HostPart := []
  /-- a walk that read an entry invalidated meanwhile restarts (R224) -/
  restart : Bool := false
deriving DecidableEq, Repr

/-- A translation command (Table 07-7) with its issuer: FN, or 1023 for the management port. -/
structure TransCmd where
  issuer : Nat
  word : Nat
deriving DecidableEq, Repr

/-- An INVALIDATE in progress (R224), with the reads that must finish first. -/
structure Inval where
  issuer : Nat
  asid : Nat
  token : Nat
  waitTags : List Nat
deriving DecidableEq, Repr

/-- The translation unit. -/
structure Trans where
  spaces : SMap AddrSpace := []
  /-- the slots of each TLB slice 0..7 -/
  tlb : SMap (List TlbSlot) := []
  /-- the walk caches by level 3, 2, 1 -/
  walks : SMap (List WalkSlot) := []
  recs : SMap FaultRec := []
  /-- the packets that a RESUME released and that are still to be translated, in arrival order (R168, R230) -/
  chains : SMap (List Acc) := []
  nextChain : Nat := 0
  reads : SMap HostRead := []
  nextRead : Nat := 0
  invals : List Inval := []
  /-- commands held behind 16 INVALIDATEs, and RESUME or FAIL behind earlier INVALIDATEs (R225) -/
  held : List TransCmd := []
deriving DecidableEq, Repr

/-! ### RT: routing (09_routing.md) -/

/-- The mode of a port-map entry after resolution (R262). -/
inductive PortMode where
  | direct | bonded | disabled
deriving DecidableEq, Repr

/-- A resolved port-map entry. -/
structure PortEntry where
  mode : PortMode
  dim : Nat
  coord : Nat
deriving DecidableEq, Repr

/-- One set of epoch tables (R279). -/
structure EpochTables where
  epoch : Nat := 0
  map : List PortEntry := []
  /-- bit p: route enable of port p -/
  enables : Nat := 2 ^ 72 - 1
  /-- entries of 0x6020 and 0x6021 as numbers -/
  exceptions : List Nat := []
  absent : List Nat := []
  crosswind : Bool := true
deriving DecidableEq, Repr

/-- The route states of a port (Table 09-2), in the coding of 0x6012. -/
inductive PortState where
  | disabled | training | up | down | departing | miswired
deriving DecidableEq, Repr

/-- What RT holds for a port. -/
structure PortRoute where
  state : PortState := .disabled
  peer : Option Nat := none
  /-- the latest HEALTH argument per dimension (R266) -/
  masks : SMap Nat := []
  vanes : List Nat := []
deriving DecidableEq, Repr

/-- The states of an origin lane (Table 09-6). -/
inductive OLaneState where
  | free | setup | opened
deriving DecidableEq, Repr

/-- A LANE_SEND that has started (R387). -/
structure LaneSend where
  qn : Nat
  entry : Nat
  key : Nat
  addr : Nat
  laddr : Nat
  frags : List (Nat × Nat)
  length : Nat
  rights : Nat
  asid : Nat
  last : Bool
  notify : Bool
  /-- next byte to send; bytes gathered for the next packet, poison seen in them -/
  cursor : Nat := 0
  buf : List Byte := []
  poison : Bool := false
  /-- SEQ of its last packet, once that is sent -/
  lastSeq : Option Nat := none
deriving DecidableEq, Repr

/-- A lane that this module originates. -/
structure OLane where
  state : OLaneState := .free
  far : Nat := 0
  share : Nat := 0
  path : List Nat := []
  code : Nat := 0
  hop : Nat := 0
  /-- LANE_DATA sent: SEQ of the next one -/
  sent : Nat := 0
  port : Nat := 0
  label : Nat := 0
  /-- the queue and entry of its LANE_OPEN, and the queue's function and tenant -/
  qn : Nat := 0
  entry : Nat := 0
  fn : Nat := 0
  tenant : Nat := 0
  tclass : Nat := 0
  /-- SETUP: when the reply is overdue -/
  deadline : Nat := 0
  /-- limited to its reserved share by a squall notice (R288), until `holdUntil` -/
  squallHold : Bool := false
  holdUntil : Nat := 0
  /-- the LANE_SENDs started, in order -/
  sends : List LaneSend := []
  /-- its LAST packet has left the egress port -/
  lastSent : Bool := false
deriving DecidableEq, Repr

/-- A transit or far-end entry of the lane table (R285). -/
structure LaneEntry where
  inPort : Nat
  inLabel : Nat
  origin : Nat
  lnum : Nat
  tenant : Nat
  share : Nat
  tclass : Nat
  /-- none: this module is the far end -/
  out : Option (Nat × Nat)
  tentative : Bool
  /-- when a tentative entry expires -/
  deadline : Nat := 0
  /-- its LAST or LANE_RELEASE has come (R289, R292), or its ingress port was flushed (R291): it ends when what
  ends it has left the egress port -/
  gone : Bool := false
  /-- far end: marked packets since the last notice, and until when no other is sent (R248), in counted
  ticks -/
  marked : Nat := 0
  quietTo : Nat := 0
  /-- its LAST packet has left the egress port -/
  lastSent : Bool := false
deriving DecidableEq, Repr

/-- A LANE_RELEASE of the origin that has not left its port yet: it keeps its label and share (R289).  `sent`:
it is in the egress queue; else it waits for the port (R290). -/
structure LaneRel where
  port : Nat
  label : Nat
  far : Nat
  lnum : Nat
  tenant : Nat
  tclass : Nat
  share : Nat
  sent : Bool := false
deriving DecidableEq, Repr

/-- A packet released from a port; `held`: it still occupies the port's receive buffer. -/
structure Ingress where
  port : Nat
  packet : Packet
  held : Bool := true
  /-- MT at which its last cell was received at the lane boundary (R253) -/
  arrived : Nat := 0
deriving DecidableEq, Repr

/-- The routing unit with the packets that wait for a lookup or for their unit. -/
structure Routing where
  live : EpochTables := {}
  prev : Option EpochTables := none
  pending : Option EpochTables := none
  ports : SMap PortRoute := []
  healthSeq : Nat := 0
  /-- when the next HEALTH, vane update and replica check are due (0x6036, 0x6032, 0x6050), in counted ticks -/
  healthAt : Nat := 0
  vaneAt : Nat := 0
  replicaAt : Nat := 0
  /-- packets of this module's units, oldest first, and packets received -/
  inject : List Packet := []
  ingress : List Ingress := []
  /-- packets handed to a unit of this module -/
  delivered : List Packet := []
  olanes : SMap OLane := []
  lanes : List LaneEntry := []
  laneRels : List LaneRel := []
deriving DecidableEq, Repr

/-! ### FS: credits, scheduling, gates (10_flow_and_scheduling.md) -/

/-- A packet in an egress queue. -/
structure QPkt where
  packet : Packet
  /-- class flow `0..7`, or the reserved lane flow `8 + label` (R301) -/
  flow : Nat
  /-- credits it costs (R295) -/
  cost : Nat
  /-- MT at which it entered the queue (R316) -/
  since : Nat
  /-- while it waits for a credit on VC16 or VC18: until when it may (R268), in counted ticks -/
  waitTo : Option Nat := none
  /-- the ingress port whose buffer it still occupies; none: injected here -/
  from_ : Option Nat
  /-- its finish tag, once its head became eligible (R303) -/
  tag : Option Nat := none
deriving DecidableEq, Repr

/-- A token bucket: tokens in units of 2^-32 byte, MT of the last accrual, and the books of R312. -/
structure Bucket where
  tokens : Nat := 0
  at_ : Nat := 0
  accrued : Nat := 0
  charged : Nat := 0
  clipped : Nat := 0
  adjust : Int := 0
deriving DecidableEq, Repr

/-- A gate list entry as classes open and duration (Table 10-3). -/
structure GateEntry where
  mask : Nat
  duration : Nat
deriving DecidableEq, Repr

/-- A gate schedule: the list and its base (R306). -/
structure GateList where
  entries : List GateEntry := []
  base : Nat := 0
deriving DecidableEq, Repr

/-- Credit books of one VC on one port, both directions (R295 to R299). -/
structure VcCredit where
  /-- the sender's count, which a sync reply may take below 0 (R299), and returns received -/
  credit : Int := 0
  seen : Nat := 0
  /-- the receiver's occupancy, returns sent, withheld, still to be withheld, and waiting for a cell -/
  occ : Nat := 0
  sent : Nat := 0
  withheld : Nat := 0
  toWithhold : Nat := 0
  waiting : Nat := 0
deriving DecidableEq, Repr

/-- What FS holds for a port. -/
structure PortFlow where
  queue : List QPkt := []
  vc : SMap VcCredit := []
  vtime : Nat := 0
  last : SMap Nat := []
  vc18 : Bucket := {}
  shapers : SMap Bucket := []
  /-- bandwidth limit of held lanes, by label (R304) -/
  held : SMap Bucket := []
  gates : GateList := {}
  nextGates : Option (GateList × Nat) := none
  /-- classes open, entry in force, list running (0x6823) -/
  open_ : Nat := 255
  entry : Nat := 0
  running : Bool := false
  gateAt : Nat := 0
  /-- 0x6802: VCs matched at the last marker, marker evaluated -/
  matched : Nat := 0
  evaluated : Bool := false
  /-- consecutive markers with a mismatch (R299) -/
  badMarkers : Nat := 0
  markerSeq : Nat := 0
  /-- when the next marker is due (R298), in counted ticks -/
  markerAt : Nat := 0
deriving DecidableEq, Repr

/-- The policer of a tenant (R313): Tc and Tp in units of 2^-32 byte. -/
structure Policer where
  tc : Nat := 0
  tp : Nat := 0
  at_ : Nat := 0
deriving DecidableEq, Repr

/-- A depth and delay sample record (Table 10-6). -/
structure SampleRecord where
  stamp : Nat
  port : Nat
  vc : Nat
  late : Bool
  depth : Nat
  sojourn : Nat
deriving DecidableEq, Repr

/-- Flow and scheduling. -/
structure Flow where
  ports : SMap PortFlow := []
  policers : SMap Policer := []
  ring : SMap SampleRecord := []
  /-- number of the next sample instant: instant ÷ interval -/
  nextSample : Nat := 0
deriving DecidableEq, Repr

/-! ### LL: cells, replay, training (11_link_layer.md) -/

/-- The link states (Table 11-6), in the coding of 0x5801. -/
inductive LinkState where
  | off | lanes | exchange | active | resuming | held
deriving DecidableEq, Repr

/-- A sequenced cell: the fields fixed at its first transmission (R326). -/
structure SCell where
  kind : Nat
  vc : Nat := 0
  sop : Bool := false
  eop : Bool := false
  seq : Nat
  cra : Nat × Nat := (0, 0)
  crb : Nat × Nat := (0, 0)
  payload : List Byte
  /-- a retransmission is due (R331) -/
  due : Bool := false
  /-- the timers that its last transmission started, in counted ticks: until when no NAK repeats it
  (R331), and when its replay timer runs out; and the timeouts then allowed (R332, R349) -/
  quietTo : Nat := 0
  timeoutAt : Nat := 0
  allowed : Nat := 0
deriving DecidableEq, Repr

/-- A cell held by the receiver. -/
structure RCell where
  seq : Nat
  kind : Nat
  vc : Nat
  sop : Bool
  eop : Bool
  cra : Nat × Nat
  crb : Nat × Nat
  payload : List Byte
  /-- MT at which it arrived at the lane boundary (R253) -/
  arrived : Nat := 0
deriving DecidableEq, Repr

/-- The packet in progress: its cells still to be sent, and whether none is sent yet. -/
structure InProgress where
  packet : Packet
  cells : List (List Byte)
  first : Bool := true
deriving DecidableEq, Repr

/-- What LL holds for a port. -/
structure PortLink where
  state : LinkState := .off
  current : Option InProgress := none
  /-- control cells pending: sync replies as payloads, a credit-sync marker -/
  replies : List (List Byte) := []
  markDue : Bool := false
  /-- the full grant after training is being returned (R335) -/
  granting : Bool := false
  /-- slots since a sequenced cell left, and since a TRAIN cell left -/
  sinceSeq : Nat := 0
  sinceTrain : Nat := 0
  txNext : Nat := 0
  replay : List SCell := []
  /-- packets with cells in the replay buffer: last SEQ and packet (R346) -/
  committed : List (Nat × Packet) := []
  rxNext : Nat := 0
  store : List RCell := []
  /-- payloads of the packet being released -/
  assembling : List (List Byte) := []
  /-- when the silence limit that the last good cell started runs out (R342), in counted ticks -/
  silentAt : Nat := 0
  /-- consecutive replay timeouts (R332) -/
  timeouts : Nat := 0
  peerEpoch : Nat := 0
  minor : Nat := 0
  holdReason : Nat := 0
  rtt : Nat := 0
  session : Nat := 0
  /-- MT at which grace ends, or a HELD link tries again -/
  deadline : Nat := 0
  /-- the training exchange: own proposal, the peer's latest record with its arrival, samples, and
  whether SEEN has been sent and received -/
  proposal : Nat := 0
  peerRec : Option Nat := none
  peerRecAt : Nat := 0
  /-- the round-trip limit of the exchange in progress (R349) -/
  rttLimit : Nat := 0
  samples : List Nat := []
  /-- when the next round-trip sample of an ACTIVE link is due (R339), in counted ticks -/
  sampleAt : Nat := 0
  peerSeen : Bool := false
  sentSeen : Bool := false
deriving DecidableEq, Repr

/-- The link layer. -/
structure Link where
  ports : SMap PortLink := []
deriving DecidableEq, Repr

/-! ### PX: lanes and optics (12_lanes_and_optics.md) -/

/-- Why a lane is outside the transmit set (R362). -/
inductive LaneDrop where
  | no | fault | load
deriving DecidableEq, Repr

/-- One lane of a port, both directions. -/
structure Lane where
  laser : Bool := false
  laserFault : Bool := false
  endOfLife : Bool := false
  drop : LaneDrop := .no
  widening : Bool := false
  cdr : Bool := false
  markerLock : Bool := false
  /-- consecutive valid markers, and the PORT and LANE of the last one (R355) -/
  goodMarkers : Nat := 0
  lastPort : Nat := 0
  lastLane : Nat := 0
  /-- BIP8 mismatches since the last marker, and all of them (0x5043) -/
  bipNow : Nat := 0
  bip : Nat := 0
  skew : Nat := 0
  /-- when the lane will have been in the peer's RX_GOOD for 0x5018:00 (R362), in counted ticks -/
  restoreAt : Option Nat := none
  /-- bit-interleaved parity of the bits sent since the previous marker (R353) -/
  txBip : Nat := 0
  peaking : Nat := 0
  /-- when the tracking may take its next step (R356), in counted ticks -/
  trackAt : Nat := 0
  /-- symbol errors of a test pattern (0x5032) -/
  errors : Nat := 0
  bias : Nat := 0
  output : Int := 0
  /-- latest scan of bias and output, not published yet (R525) -/
  biasScan : Nat := 0
  outputScan : Int := 0
deriving DecidableEq, Repr

/-- Where blind bring-up stands (Table 12-4). -/
inductive BringUp where
  | off | prbs | framed | locked
deriving DecidableEq, Repr

/-- What PX holds for a port. -/
structure PortLanes where
  bringUp : BringUp := .off
  /-- timers of a bring-up or a widening, in counted ticks: the end of its training or warm-up time, the
  end of the time it may take (R359, R360, R363), and a restart that is scheduled -/
  stepAt : Nat := 0
  limitAt : Nat := 0
  restartAt : Option Nat := none
  lanes : SMap Lane := []
  txSet : Nat := 0
  /-- the set that a widening in progress wants; its warm-up is over (R363) -/
  widenTo : Option Nat := none
  warm : Bool := false
  peerRxGood : Nat := 0
  peerTxSet : Nat := 0
  peerSynt : Bool := false
  rxGood : Nat := 0
  fecLock : Bool := false
  /-- consecutive codewords decoded, and failed -/
  goodCodewords : Nat := 0
  badCodewords : Nat := 0
  /-- the transmitted stream (R351): the scrambler's last 58 bits, the scrambled bits that wait for a
  codeword and their number -/
  scrambler : Nat := 0
  waiting : Nat := 0
  waitingLen : Nat := 0
  /-- codewords since the last scheduled marker, and that marker's number (R354) -/
  codewords : Nat := 0
  mcount : Nat := 0
  /-- the dwell of the LOAD policy (R362): when it began and ends, and the payload sent in it, in bytes -/
  dwellFrom : Nat := 0
  dwellEnd : Nat := 0
  dwellPayload : Nat := 0
  /-- cell slots since the last compensation cell, and the counts of 0x5045 -/
  sinceComp : Nat := 0
  compSent : Nat := 0
  compDeleted : Nat := 0
  compInserted : Nat := 0
  /-- depth of the receive crossing in cells (R357, R358) -/
  crossing : Nat := 2
  rxPower : Int := -4000
  rxPowerScan : Int := -4000
deriving DecidableEq, Repr

/-- An eye scan of a sector (R367). -/
structure EyeScan where
  status : Nat := 0
  cmd : Nat := 0
  compared : Nat := 0
  errors : Nat := 0
deriving DecidableEq, Repr

/-- The port complex. -/
structure PortComplex where
  ports : SMap PortLanes := []
  scans : SMap EyeScan := []
  /-- optical engines whose temperature is out of range (R369) -/
  hot : List Nat := []
deriving DecidableEq, Repr

/-! ### ME: message engines (13_message_engines.md) -/

/-- What an access in progress gives back to its context (R376). -/
inductive EAccess where
  /-- a load of `size` bytes into `rd`; `pair`: LD2W, with the bytes of its first half -/
  | load (rd size : Nat) (signed pair : Bool) (got : List Byte)
  /-- a store, with the bytes of an ST2W that are still to be written, and the number of the PUT that has still
  to leave the module (R146) -/
  | store (rest : List Byte) (put : Option Nat)
  /-- an ST2W to host memory whose half 0 or 1 is being translated: nothing is written before both can be
  (R381) -/
  | pairStore (bs : List Byte) (half : Nat)
deriving DecidableEq, Repr

/-- Why a context does not issue (R374, R384, R406, R425). -/
inductive EWait where
  | ready
  /-- WAIT: mask and destination -/
  | event (mask rd : Nat)
  /-- DMAWAIT: tag and destination -/
  | dma (tag rd : Nat)
  /-- a host or remote access at an engine address -/
  | access (addr : Nat) (what : EAccess)
  /-- ACQUIRE: lock and destination -/
  | lock (l rd : Nat)
  /-- FENCE.P: its number in the context, and the zero-length reads and FLUSHes outstanding -/
  | fence (no left : Nat)
deriving DecidableEq, Repr

/-- What a context works on (R385). -/
inductive ItemKind where
  | internal | control
  | service (qn entry : Nat)
  | package (slot qn entry : Nat)
deriving DecidableEq, Repr

/-- A work item. -/
structure Item where
  kind : ItemKind
  /-- cause, pc and faultaddr of the trap that entered firmware from package mode (R390) -/
  trapped : Option (Nat × Nat × Nat) := none
  /-- its queue was destroyed with FORCE (R396) -/
  abandoned : Bool := false
deriving DecidableEq, Repr

/-- A move started by DMA (R408): its 32 bytes of descriptor, and its status once it is done. -/
structure Move where
  tag : Nat
  desc : List Byte
  /-- its context could reach both ends when it started (Table 13-1, R392) -/
  permitted : Bool := true
  /-- asid, tenant and remote windows of its context at the start -/
  asid : Nat := 0
  tenant : Nat := 0
  rwin : SMap Word64 := []
  /-- the data is being written at its end point, and whether it is poisoned (R441) -/
  writing : Bool := false
  data : List Byte := []
  bad : Bool := false
  done : Option Nat := none
deriving DecidableEq, Repr

/-- The 128 B granule that a reservation holds: cluster memory of a cluster, or context memory. -/
structure Granule where
  cluster : Option Nat
  index : Nat
deriving DecidableEq, Repr

/-- A store to cluster memory or context memory that not every observer sees yet (R403). -/
structure Flight where
  /-- the context that stored -/
  writer : Nat
  /-- the memory: of a cluster, or context memory -/
  cluster : Option Nat
  off : Nat
  /-- the bytes before and after it -/
  old : List Byte
  new : List Byte
  /-- the observers that see it -/
  seen : List Nat := []
  /-- when it reached the observers of its memory's cluster, and when the array itself, counted in fences; an
  observer that neither fences nor depends on it may still read what was before (R402, R404) -/
  atCluster : Option Nat := none
  atArray : Option Nat := none
deriving DecidableEq, Repr

/-- One context (R374, Table 13-6). -/
structure ECtx where
  pc : Word64 := 0
  regs : SMap Word64 := []
  /-- of each register, the fence count at the load that its value depends on (R402) -/
  stamps : SMap Nat := []
  status : Word64 := 0
  cause : Word64 := 0
  vector : Word64 := 0
  priority : Word64 := 0
  resume : Word64 := 0
  faultaddr : Word64 := 0
  asid : Word64 := 0
  tenant : Word64 := 0
  rwin : SMap Word64 := []
  budget : Word64 := 0
  scratch : Word64 := 0
  mtcmp : Word64 := 0
  pending : Word64 := 0
  pbase : Word64 := 0
  item : Option Item := none
  wait : EWait := .ready
  resv : Option Granule := none
  /-- the MTCMP event of the present mtcmp value has been set -/
  mtcmpDone : Bool := false
  moves : List Move := []
  nextTag : Nat := 0
  /-- remote stores not yet acknowledged, by number; the first failing address (R407) -/
  stores : List Nat := []
  storeFail : Option Nat := none
  /-- host links, and flows (destination and tenant), written since the last FENCE.P that saw them done, with
  the engine address of the first such store (R406) -/
  wrote : List (Nat × Nat) := []
  flows : List (Nat × Nat × Nat) := []
  fenceNo : Nat := 0
  /-- a lock granted while the context was not blocked in its ACQUIRE, with ORPHAN (R425) -/
  granted : Option (Nat × Bool) := none
  /-- the instruction in progress is sampled: pc, word, kind, target, address (R397) -/
  samp : Option (Nat × Nat × Nat × Nat × Nat) := none
deriving DecidableEq, Repr

/-- One engine (R373, R374). -/
structure Engine where
  halted : Bool := false
  /-- the context that issues -/
  cur : Nat := 0
  /-- the context has offered a switch (YIELD, or a WAIT or DMAWAIT that did not block) -/
  offer : Bool := false
  ctxs : SMap ECtx := []
  /-- cause, resume, faultaddr of the last trap (0x8402) -/
  lastTrap : Nat × Nat × Nat := (0, 0, 0)
  /-- local data memory and instruction memory -/
  ldm : List Host.Cell := []
  imem : List Host.Cell := []
  /-- precise sampling: the period that runs (0: none) and its kinds, instructions issued in it, the
  position chosen, the choice still to be written (R397) -/
  sampPeriod : Nat := 0
  sampKinds : Nat := 0
  sampCap : Nat := 0
  sampCount : Nat := 0
  sampAt : Nat := 0
  sampDue : Bool := false
deriving DecidableEq, Repr

/-- The states of a package slot (0x8431). -/
inductive SlotState where
  | empty | active | quiescing
deriving DecidableEq, Repr

/-- A package slot with the binding it runs under (R392). -/
structure PkgSlot where
  state : SlotState := .empty
  packageId : Nat := 0
  version : Nat := 0
  tenant : Nat := 0
  mask : Nat := 0
  handlers : List Nat := []
  codeBase : Nat := 0
  codeSize : Nat := 0
  dataBase : Nat := 0
  dataSize : Nat := 0
  cmemKib : Nat := 0
  /-- offset of the partition in each bound cluster's memory -/
  part : Nat := 0
deriving DecidableEq, Repr

/-- States of an activation (0x8421). -/
inductive ActState where
  | armed | quiescing | loading
deriving DecidableEq, Repr

/-- An activation or removal in progress (R393, R394). -/
structure Activation where
  target : Nat
  state : ActState
  remove : Bool := false
  source : Nat := 0
  instant : Nat := 0
  /-- when quiesce began, and its limit, fixed then (R395, R400) -/
  since : Nat := 0
  limit : Nat := 0
  /-- the clusters of its scope, fixed then -/
  mask : Nat := 0
deriving DecidableEq, Repr

/-- What 0x8421:00 shows. -/
structure ActStatus where
  state : Nat := 0
  target : Nat := 0
  reason : Nat := 0
  instant : Nat := 0
  quiesce : Nat := 0
deriving DecidableEq, Repr

/-- A lane at its far end (R388). -/
structure FarLane where
  /-- what tells it from an earlier lane of the same ORIGIN and LNUM whose data is still being placed -/
  id : Nat
  origin : Nat
  lnum : Nat
  eqn : Nat
  /-- data was refused: the rest is discarded -/
  refused : Bool := false
  placed : Nat := 0
  /-- packets being placed -/
  busy : Nat := 0
  /-- the lane has ended; LANE_DONE is to be posted -/
  ended : Bool := false
  notify : Bool := false
deriving DecidableEq, Repr

/-- The message engines. -/
structure Engines where
  engines : SMap Engine := []
  /-- cluster memory by cluster -/
  cmem : SMap (List Host.Cell) := []
  slots : SMap PkgSlot := []
  acts : List Activation := []
  /-- the image slot of the firmware in force (0x8413:00) -/
  fwSlot : Nat := 0
  /-- the engine firmware in force, as the loader writes it (R394, R511) -/
  fwImage : List Byte := []
  /-- work items without a descriptor that wait for a free context, oldest first (R385) -/
  items : List ItemKind := []
  actStatus : ActStatus := {}
  /-- the sample ring by position: records as 256-bit numbers (R398) -/
  ring : SMap Nat := []
  /-- the number of the next remote store -/
  nextStore : Nat := 0
  /-- lanes that end here (R388) -/
  farLanes : List FarLane := []
  nextFar : Nat := 0
  /-- stores in flight, oldest first (R403) -/
  flights : List Flight := []
  /-- fences so far, by which the stores in flight and what registers depend on are ordered -/
  fences : Nat := 0
deriving DecidableEq, Repr
/-! ### The lock unit (14_ordering_and_locks.md) -/

/-- A party at the lock unit: an engine context (engine × 4 + context) or a host client (R416). -/
inductive Party where
  | engine (id : Nat)
  | host (fn token : Nat)
deriving DecidableEq, Repr

/-- A waiter (R417 to R419), in ACQUIRE order in its lock. -/
structure Waiter where
  party : Party
  own : Nat
  eff : Nat
  /-- the EQN of a host client's command -/
  eqn : Nat := 0
deriving DecidableEq, Repr

/-- The holder of a lock (Table 14-9). -/
structure Holder where
  party : Party
  own : Nat
  eff : Nat
  eqn : Nat := 0
  orphan : Bool := false
  mt : Nat := 0
deriving DecidableEq, Repr

/-- One queued lock. -/
structure Lock where
  holder : Option Holder := none
  waiters : List Waiter := []
deriving DecidableEq, Repr

/-! ### CM: context memory (15_context_memory.md) -/

/-- The states of a stack (R433), in the coding of 0x8801. -/
inductive StackState where
  | absent | training | working | lost
deriving DecidableEq, Repr

/-- One HBM stack. -/
structure Stack where
  state : StackState := .training
  /-- poisoned granules, rising -/
  poisoned : List Nat := []
  /-- MT of the poisonings of the last second (R433) -/
  recent : List Nat := []
  scrub : Nat := 0
  /-- when the scrub pass began, and the time it takes, fixed then (0: none has begun) (R443, R447) -/
  passAt : Nat := 0
  passTicks : Nat := 0
deriving DecidableEq, Repr

/-- Context memory: its bytes by offset in the 48 GiB, and the error records of 0x8850. -/
structure CtxMem where
  hbm : SMap Stack := []
  bytes : List Host.Cell := []
  records : List Nat := []
  /-- the number of the first event-log entry that the log mirror holds since it was placed (R434, R445) -/
  mirrorFrom : Nat := 0
deriving DecidableEq, Repr

/-! ### HL: host links and functions (16_register_window.md) -/

/-- One host link. -/
structure HostLink where
  up : Bool := false
  width : Nat := 0
  rate : Nat := 0
  flit : Bool := false
  /-- HLk_PERST_N as the pin reads; HLk_REFCLK valid -/
  perstN : Bool := false
  refclk : Bool := false
  training : Bool := false
  vfEnable : Bool := false
  numVfs : Nat := 0
  atomicReq : Bool := false
  /-- Enable Relaxed Ordering, and the codes of the largest payload and read request (R448) -/
  relaxed : Bool := true
  maxPayload : Nat := 0
  maxRead : Nat := 2
  /-- the tag that is tried next -/
  nextTag : Nat := 0
deriving DecidableEq, Repr

/-- The mailbox of a function (R464, R465). -/
structure Mailbox where
  req : List Host.Cell := []
  rsp : List Byte := []
  push : List Byte := []
  pending : Bool := false
  discarded : Nat := 0
  pushCount : Nat := 0
  rspCount : Nat := 0
  session : Nat := 0
deriving DecidableEq, Repr

/-- The admin group (Table 16-3, Table 16-6). -/
structure AdminGroup where
  /-- the write that has not taken effect: offset and value -/
  busy : Option (Nat × Nat) := none
  /-- a DISABLE waits for R109 -/
  disabling : Bool := false
  dropped : Nat := 0
  sqBase : Nat := 0
  cqBase : Nat := 0
  config : Nat := 0
  mod_ : Nat := 0
  result : Nat := 0
  haltReason : Nat := 0
  haltIndex : Nat := 0
  oldWritten : Nat := 0
deriving DecidableEq, Repr

/-- The translation group. -/
structure TransGroup where
  busy : Option (Nat × Nat) := none
  dropped : Nat := 0
  cmdHi : Nat := 0
deriving DecidableEq, Repr

/-- An MSI-X table entry, as PCI Express lays it out. -/
structure MsixEntry where
  addr : Nat := 0
  data : Nat := 0
  masked : Bool := true
  pending : Bool := false
deriving DecidableEq, Repr

/-- One function. -/
structure HostFn where
  bme : Bool := false
  d3hot : Bool := false
  msixEnable : Bool := false
  msixMask : Bool := false
  /-- a function-level reset is in progress -/
  flr : Bool := false
  funcInt : Nat := 0
  adm : AdminGroup := {}
  tr : TransGroup := {}
  mb : Mailbox := {}
  msix : SMap MsixEntry := []
  /-- counters of Table 16-9 -/
  counters : SMap Nat := []
deriving DecidableEq, Repr

/-- The host links. -/
structure HostLinks where
  links : SMap HostLink := []
  fns : SMap HostFn := []
deriving DecidableEq, Repr

/-! ### The sideband and the straps (17_module_and_connectors.md) -/

/-- The sideband SPI target and the sampled straps. -/
structure Sideband where
  /-- the captured response (Table 17-8) -/
  response : Nat := 0xF0000000
  scratch : Nat := 0
  bootSel : Nat := 0
  clkMode : Nat := 0
  slotId : Nat := 0
deriving DecidableEq, Repr

/-! ### PR: power, departure (18_power_and_hotplug.md) -/

/-- Domain states (Table 18-3), in the coding of 0x3001. -/
inductive DomPower where
  | off | ramping | on | isolated
deriving DecidableEq, Repr

/-- Departure states, in the coding of 0x3102. -/
inductive DepState where
  | joined | draining | departing | departed
deriving DecidableEq, Repr

/-- Power and departure. -/
structure Power where
  domains : SMap DomPower := []
  vin : Nat := 0
  pin : Nat := 0
  vinScan : Nat := 0
  pinScan : Nat := 0
  /-- 0x3012:00 -/
  inputEvents : Nat := 0
  inputGood : Bool := false
  shed : Bool := false
  departure : DepState := .joined
  outcome : Nat := 0
  /-- MT at which the drain limit expires -/
  drainAt : Nat := 0
  /-- domains that a departure or withdrawal has turned off, and no apply has enabled since -/
  held : List Nat := []
  /-- domains that start after the others (R493): enabled by an apply or restarted, in their order -/
  lateStart : List Nat := []
  /-- tick counts at the last start of a domain, and at the soft start of each (R490, R493) -/
  startAt : Option Nat := none
  rampAt : SMap Nat := []
  /-- domains whose power a warm reset has kept and whose reset is not released yet (R508) -/
  kept : List Nat := []
  /-- DMA mastering disabled by safe state or shed (R488, R553) -/
  dmaOff : Bool := false
deriving DecidableEq, Repr

/-! ### Reset and boot (19_reset_and_boot.md) -/

/-- Where a start stands. -/
inductive BootPhase where
  /-- no power, or reset asserted (cold or warm) -/
  | off | resetCold | resetWarm
  /-- the boot ROM waits for a bundle; the boot ROM has verified an image; firmware runs; Doldrums -/
  | waiting | verified | running | doldrums
deriving DecidableEq, Repr

/-- Reset and boot state. -/
structure Boot where
  phase : BootPhase := .off
  /-- 0x3400, 0x3401 -/
  cause : Nat := 0
  instant : Nat := 0
  source : Nat := 0
  fallbacks : Nat := 0
  failedStarts : Nat := 0
  milestone : Nat := 0
  duration : Nat := 0
  timerRunning : Bool := false
  /-- tick counts at the jump, at which the start timer expires, and at the assertion of a warm reset -/
  jumpAt : Nat := 0
  startLimit : Nat := 0
  assertedAt : Nat := 0
  /-- when the wait for a bundle ends (R513) -/
  waitUntil : Nat := 0
  restricted : Bool := false
  /-- a slot verified in Doldrums is booted once (R517) -/
  updateBoot : Option Nat := none
deriving DecidableEq, Repr
/-! ### MS: sensors, event log, updates (20_management.md) -/

/-- An event-log entry (Table 20-3) without its CRC, which follows from the rest. -/
structure LogEntry where
  stamp : Nat
  seq : Nat
  severity : Nat
  tfree : Bool
  cls : Nat
  source : Nat
  code : Nat
  data : List Byte
deriving DecidableEq, Repr

/-- Entries of one class, source and code within the running second (R528). -/
structure LogBurst where
  cls : Nat
  source : Nat
  code : Nat
  severity : Nat
  second : Nat
  written : Nat
  omitted : Nat
deriving DecidableEq, Repr

/-- A telemetry record (Table 20-2). -/
structure TelemetryRecord where
  stamp : Nat
  late : Bool
  free : Bool
  hottest : Nat
  tempMax : Int
  vin : Nat
  pin : Nat
  lasersOn : Nat
  rxMin : Int
  domainsOn : Nat
deriving DecidableEq, Repr

/-- The update machine's states (Table 20-6). -/
inductive UpdState where
  | idle | receiving | verifying
deriving DecidableEq, Repr

/-- A target of an update: an image area of MRAM with its validity (R533). -/
structure ImageArea where
  valid : Bool := false
  bytes : List Byte := []
deriving DecidableEq, Repr

/-- The update machine (R533). -/
structure Update where
  state : UpdState := .idle
  target : Nat := 0
  outcome : Nat := 0
  reason : Nat := 0
  received : Nat := 0
  owner : Nat := 0
  length : Nat := 0
  /-- the bytes written since BEGIN, by offset -/
  cells : SMap Byte := []
  /-- VERIFYING: the first check of R534 that fails, judged at FINISH with the anchors live then (R540) -/
  verdict : Nat := 0
deriving DecidableEq, Repr

/-- The firmware that runs, as its bundle header describes it (Table 20-4). -/
structure Firmware where
  present : Bool := false
  stepMin : Nat := 0
  stepMax : Nat := 0
  mgmtVersion : Nat := 0
  engineVersion : Nat := 0
  hostIfEpoch : Nat := 0
  engineIfEpoch : Nat := 0
  stateEpoch : Nat := 0
  testedMin : Nat := 0
  testedMax : Nat := 0
deriving DecidableEq, Repr

/-- The management subsystem. -/
structure Mgmt where
  /-- the latest scan, and the published values of the latest sample (R525) -/
  tempScan : SMap Int := []
  temp : SMap Int := []
  voltScan : SMap Nat := []
  volt : SMap Nat := []
  currScan : SMap Nat := []
  curr : SMap Nat := []
  /-- crossings taken and not re-armed (R524) -/
  warned : SMap Bool := []
  critical : SMap Bool := []
  /-- tick count of the latest scan (R524) -/
  scanAt : Option Nat := none
  lastSample : Nat := 0
  /-- number of the next telemetry instant: instant ÷ interval -/
  nextSample : Nat := 0
  ring : SMap TelemetryRecord := []
  records : Nat := 0
  /-- the event log by position, in MRAM -/
  log : SMap LogEntry := []
  nextSeq : Nat := 0
  bursts : List LogBurst := []
  update : Update := {}
  /-- image slots A and B and package entries 0..15, keyed by TARGET (Table 20-5); at 128 the bundle that
  a network or host boot has received into SRAM (R513) -/
  areas : SMap ImageArea := []
  bootOnce : Option Nat := none
  /-- the running management firmware, where it came from (0x3412:00), and the engine firmware -/
  mgmtFw : Firmware := {}
  mgmtSource : Nat := 0
  engineFw : Firmware := {}
  startDecision : Nat := 0
deriving DecidableEq, Repr

/-! ### The fault collector (21_faults.md) -/

/-- A history entry (Table 21-3). -/
structure HistEntry where
  stamp : Nat
  source : Nat
  severity : Nat
  tfree : Bool
  inst : Nat
  data : Nat
deriving DecidableEq, Repr

/-- The fault collector in PD_AO. -/
structure Faults where
  sticky : SMap Bool := []
  /-- the latest raise of each active condition: keyed source × 65 536 + instance, with its DATA -/
  active : SMap Nat := []
  safe : Bool := false
  faultN : Bool := false
  frozen : Bool := false
  withdrawn : Bool := false
  holdRunning : Bool := false
  /-- when the reset hold ends (R554) -/
  holdAt : Nat := 0
  safeSource : Nat := 0
  history : List HistEntry := []
  lastSafe : Nat := 0
  /-- the tick count at the last notice posted, keyed queue slot × 256 + source (R550) -/
  noticeAt : SMap Nat := []
  breeze : Bool := false
  /-- the keepalive has been written, and the tick counts at its last write seen and at the last half-period
  boundary (R555) -/
  keepalive : Bool := false
  keepaliveAt : Nat := 0
  boundaryAt : Option Nat := none
deriving DecidableEq, Repr

/-! ### What passes between the units, and what leaves the module -/

/-- How an access to host memory ended. -/
inductive AccResult where
  /-- read data, or nothing for a write -/
  | ok (data : List Byte)
  /-- read data that came poisoned -/
  | poison (data : List Byte)
  /-- Unsupported Request, Completer Abort or no completion (R450) -/
  | pcieError
  /-- translation failed with a fault kind of Table 07-8 -/
  | fault (kind : Nat)
  /-- refused by the ASID's policy with a retry hint (R231) -/
  | retry (kind : Nat)
deriving DecidableEq, Repr

/-- Work that one unit leaves for another within the same command.  It is settled, oldest first,
before the command ends. -/
inductive Work where
  /-- an event entry (Table 03-9); `kick`: raise the vector at once (R428) -/
  | event (eqn code subject detail data : Nat) (kick : Bool)
  /-- a raise at the fault collector: source, instance, DATA -/
  | fault (source inst data : Nat)
  /-- an access to host memory -/
  | access (a : Acc)
  | result (c : Cont) (r : AccResult)
  /-- a read whose function may not issue its requests any more ends in error (R450) -/
  | readEnds (key : Nat)
  /-- a descriptor has reached its completion condition -/
  | complete (qn entry : Nat) (c : Comp)
  /-- reachability of a node may have ended (R277) -/
  | reach
  /-- a power domain leaves ON: its number, and whether it ends ISOLATED -/
  | domainLeaves (d : Nat) (isolated : Bool)
  /-- a stack is lost (R445) -/
  | stackLost (k : Nat)
  /-- a granule of context memory is poisoned (R442) -/
  | poisoned (granule : Nat)
  /-- a port is flushed and retrains (R341, R346); a link goes down (R341); the lanes through a
  flushed port (R291) -/
  | flushPort (p : Nat)
  | linkDown (p : Nat)
  | lanesFlushed (p : Nat)
  /-- a remote operation of an engine (R376): engine, context, store number or none for a load, engine
  address, window destination and key, address, data or size; a store's PUT has left the module -/
  | engineRemote (engine ctx : Nat) (store : Option Nat) (at_ dest key addr : Nat) (data : List Byte)
      (size : Nat)
  | engineRemoteDone (engine ctx : Nat) (store : Option Nat) (addr : Nat) (r : AccResult)
  | engineLeft (engine ctx store : Nat)
  /-- the FLUSH of a FENCE.P has ended; the PUT of a move, or its FLUSH (R406, R408) -/
  | fenceFlushed (engine ctx no addr dest tenant : Nat) (ok : Bool)
  | moveSent (engine ctx tag : Nat) (flush : Bool) (status : Nat)
  /-- waiting work items find a context (R385); a service's item ends without its DONE (R383) -/
  | dispatch
  | serviceEnds (qn entry : Nat) (c : Comp)
  /-- data of the get of a matched message, and the end of a get that failed (R131) -/
  | fetched (pid off : Nat) (data : List Byte) (poison : Bool)
  | fetchFailed (pid : Nat)
  /-- a message's completion is written: its sender is acknowledged (R164) -/
  | sendAck (flow rsn count code : Nat)
  /-- an RSN of a connection's flow has completed at the target: CSENDs may go on (R177) -/
  | flowGo (flow : Nat)
  /-- packets with ORDER may go on (R168); the next waiter that a RESUME released is translated (R230) -/
  | orderGo
  | walkNext (chain : Nat)
  /-- a zero-length read on a host link (R165, R406) -/
  | zeroRead (link : Nat) (c : Cont)
  /-- a codeword and a marker of a port that a near-end loopback returns to its receiver (R366) -/
  | looped (port : Nat)
  | loopedMarker (port lane marker : Nat)
  /-- lock parties are gone, all at once (R423) -/
  | orphan (ps : List Party)
  /-- a LANE_DATA with LAST, or a LANE_RELEASE, has left a port (R289) -/
  | laneOut (port : Nat) (p : Packet)
  /-- a loss of a packet that this module originated (R166) -/
  | lost (p : Packet)
  /-- the last cell of a packet has entered a replay buffer (R328); RT finds no route for a packet at
  injection (R277) -/
  | left (p : Packet)
  | noRoute (p : Packet)
  /-- a service or a queue in general may go on -/
  | kickQueue (qn : Nat)
  /-- a warm or a cold reset is taken: source code, detail, cold -/
  | reset (code detail : Nat) (cold : Bool)
  /-- a departure request; withdrawal -/
  | withdraw
  /-- a push to subscribers: class bit of the mask, body (R58) -/
  | push (cls : Nat) (index : Nat) (body : List Byte)
  /-- the management port or firmware ends a session (R59) -/
  | sessionEnds (key : Nat)
  /-- MT was stepped from `a` to `b`; MT was set on leaving FREE: periodic schedules follow (R40) -/
  | stepped (a b : Nat)
  /-- the link of a port is down; ports or peers have changed (R20, R23, R28) -/
  | peerGone (p : Nat)
  | peers
  /-- a MGMT packet has been delivered to this module (R52) -/
  | mgmt (p : Packet)
  | mtSet
  /-- an armed one-shot event is due, or late (R36, R40) -/
  | shot (owner : ShotOwner)
  /-- a departure begins (R497): groups are released and origin lanes closed -/
  | departStart
  /-- every laser goes off (R488, R553); those of one sector (R491) -/
  | lasersOff
deriving DecidableEq, Repr

/-- What left the module, for an observer outside it. -/
inductive Out where
  /-- memory write TLP of a function: address, bytes, EP bit, Relaxed Ordering -/
  | hostWrite (fn addr : Nat) (data : List Byte) (poison relaxed : Bool)
  /-- memory read TLP: tag, function, address, length -/
  | hostRead (tag fn addr len : Nat)
  | hostAtomic (tag fn addr : Nat) (op : HostAtomic)
  /-- MSI-X message of a vector, with the address and data of its entry -/
  | msix (fn vector addr data : Nat)
  /-- a Yusto response or push to a carrier -/
  | yusto (carrier : Carrier) (session : Nat) (r : YResponse)
  | push (carrier : Carrier) (session seq : Nat) (body : List Byte)
  /-- a register read by the sideband, shifted out -/
  | sideband (frame : Nat)
  /-- a packet sent on a port at once -/
  | packet (port : Nat) (p : Packet)
  /-- a cell on a port's fibre: the 96-bit header, the payload and the CRC (R320) -/
  | cell (port hdr : Nat) (payload : List Byte) (crc : Nat)
  /-- a codeword on a port's transmit set: each lane with its bits, the first one most significant (R351) -/
  | codeword (port : Nat) (lanes : List (Nat × Nat))
  /-- an alignment marker on a lane of a port (R353) -/
  | marker (port lane bits : Nat)
  /-- the symbols of a codeword received on a port, retransmitted unchanged (R366) -/
  | returned (port : Nat)
  /-- a store of an engine to the unit register space: offset and bytes (Table 13-1) -/
  | unitStore (off : Nat) (data : List Byte)
deriving DecidableEq, Repr

/-! ### Why a command stops -/

/-- Faults of the model: the machine stops.  There is none: every command answers a next state. -/
inductive Fault where
deriving DecidableEq, Repr

/-- Refusals of the model: the command has no meaning. -/
inductive Refusal where
  /-- The command has no meaning yet.  Safe. -/
  | notModelled (mnemonic : String)
deriving DecidableEq, Repr

/-! ### The whole state -/

/-- The state of the module. -/
structure State where
  tb : TimeBase := {}
  od : Dict := {}
  qm : QueueMgr := {}
  mu : Matching := {}
  ra : Remote := {}
  ce : Collective := {}
  tu : Trans := {}
  rt : Routing := {}
  fs : Flow := {}
  ll : Link := {}
  px : PortComplex := {}
  me : Engines := {}
  lk : SMap Lock := []
  cm : CtxMem := {}
  hl : HostLinks := {}
  sb : Sideband := {}
  pr : Power := {}
  rs : Boot := {}
  ms : Mgmt := {}
  fc : Faults := {}
  /-- counts, keyed index × 256 + subindex of their object; module counters without an alias are
  keyed as the objects 0x9000 and up (R561) -/
  cnt : SMap Nat := []
  /-- the model's own: what one unit has left for another within this command -/
  work : List Work := []
  /-- the model's own: what left the module, latest first -/
  out : List Out := []
  /-- the model's own: how many free values have been drawn -/
  free : Nat := 0
  /-- the model's own: the commands waiting, first in first out -/
  pending : List Instr := []
deriving DecidableEq, Repr

/-- The module right after reset: every unit at its reset values, nothing powered, nothing waiting. -/
def State.reset : State := {}

end Sys2Proof.Machine
end

