-- ==== Sys2Proof/Machine/Ops.lean ====
section
/-!
DEFINITION. The operations every unit shares: counts, configuration values, machine time, free
values, work left for another unit, power domains, and byte memories.
-/
namespace Sys2Proof.Machine

/-! ### Counts -/

/-- The key of an element of the dictionary. -/
def okey (idx sub : Nat) : Nat := idx * 256 + sub

/-- A count (R561): the element that holds it. -/
def count (s : State) (idx sub : Nat) : Nat := sget 0 s.cnt (okey idx sub)

/-- Add to a count; a counter is 64 bits wide and wraps (R560). -/
def bumpBy (idx sub n : Nat) (s : State) : State :=
  { s with cnt := sset 0 s.cnt (okey idx sub) ((count s idx sub + n) % 2 ^ 64) }

/-- Count one event. -/
def bump (idx sub : Nat) (s : State) : State := bumpBy idx sub 1 s

/-- Count for a module counter without an alias (R560, R563). -/
def bumpMod (n by_ : Nat) (s : State) : State := bumpBy (0x9000 + n / 256) (n % 256) by_ s

/-- MODULE group 15 (Table 22-6). -/
def bumpG15 (k by_ : Nat) (s : State) : State := bumpMod (11264 + 64 * 15 + k) by_ s

/-- PORT and PORTVC events without an alias (Tables 22-2 and 22-3). -/
def bumpPort (port e by_ : Nat) (s : State) : State := bumpMod (port * 64 + e) by_ s
def bumpPortVc (port vc e by_ : Nat) (s : State) : State :=
  bumpMod (4608 + (port * 20 + vc) * 4 + e) by_ s

/-- ENGINE, HOSTLINK and STACK events without an alias (Tables 22-4, 22-5 and 22-7). -/
def bumpEngine (engine e by_ : Nat) (s : State) : State := bumpMod (10368 + engine * 8 + e) by_ s
def bumpHost (link e by_ : Nat) (s : State) : State := bumpMod (11136 + link * 64 + e) by_ s
def bumpStack (k e by_ : Nat) (s : State) : State := bumpMod (12288 + k * 32 + e) by_ s

/-! ### Configuration values -/

/-- The default of a configuration object: the port map, the shapers and the lock tenants start with
entries of 0 (Tables 09-9, 10-9 and 14-11), the other tables with none. -/
def defaultBytes (idx sub : Nat) : List Byte :=
  match objDef idx sub with
  | some o =>
    if o.ty = .table then
      List.replicate (if idx = 0x6010 then 288 else if idx = 0x6830 then 64
        else if idx = 0x8610 then 16384 else 0) 0
    else beBytes o.ty.len (o.dfltAt sub)
  | none => []

/-- The bytes of a live value: as applied, or the default (R44, R45). -/
def liveBytes (s : State) (idx sub : Nat) : List Byte :=
  match mget? s.od.live (okey idx sub) with
  | some bs => bs
  | none => defaultBytes idx sub

/-- The live value of a configuration object as a number. -/
def rc (s : State) (idx sub : Nat) : Nat :=
  match mget? s.od.live (okey idx sub) with
  | some bs => beNat bs
  | none => objDefault idx sub

/-- The live value of an I32 object. -/
def rcInt (s : State) (idx sub : Nat) : Int := toSigned 32 (rc s idx sub)

/-- A Boolean object. -/
def rcOn (s : State) (idx sub : Nat) : Bool := rc s idx sub != 0

/-- Entry `k`, of `n` bytes, of a live TABLE, as a number. -/
def rcEntry (s : State) (idx sub n k : Nat) : Nat := beAt (liveBytes s idx sub) (k * n) n

/-- Entries of `n` bytes of a list of bytes, as numbers. -/
def entriesOf (n : Nat) : Nat → List Byte → List Nat
  | 0, _ => []
  | fuel + 1, bs => if bs.isEmpty then [] else beNat (bs.take n) :: entriesOf n fuel (bs.drop n)

/-- All entries of a live TABLE. -/
def rcTable (s : State) (idx sub n : Nat) : List Nat :=
  let bs := liveBytes s idx sub
  entriesOf n bs.length bs

/-! ### Time, free values, work -/

/-- MT in ticks (R12). -/
def now (s : State) : Nat := s.tb.mt

/-- Ticks counted at MT's rate, which a step neither shortens nor lengthens: what durations are
measured in (R584). -/
def ticks (s : State) : Nat := s.tb.count

/-- Is the time state FREE? -/
def timeFree (s : State) : Bool := s.tb.state == .free

/-- Draw a free value below `bound`. -/
def draw (bound : Nat) (s : State) : Nat × State :=
  (Config.freeValue s.free % bound, { s with free := s.free + 1 })

/-- The first multiple of an interval at or after an instant, as its number. -/
def firstMultiple (n t : Nat) : Nat := (t + n - 1) / n

/-- Leave work for another unit. -/
def later (w : Work) (s : State) : State := { s with work := s.work ++ [w] }

/-- Every link is down: what the peers have advertised and measured for TB ends (assumption 151). -/
def forgetPeers (s : State) : State :=
  later .peers { s with tb := { s.tb with peers := s.tb.peers.map fun e => (e.1, { nextXid := e.2.nextXid }) } }

/-- Something leaves the module. -/
def emit (o : Out) (s : State) : State := { s with out := o :: s.out }

/-- Post an event (Table 03-9). -/
def postEvent (eqn code subject detail data : Nat) (s : State) : State :=
  later (.event eqn code subject detail data false) s

/-- Raise a fault source (R543). -/
def raiseFault (source inst data : Nat) (s : State) : State := later (.fault source inst data) s

/-- The node ID and the identity of an endpoint of this module (R2, R4). -/
def ownNode (s : State) : Nat := rc s 0x6000 0
def ownIdentity (s : State) (ep : Nat) : Nat := ownNode s * 4096 + ep

/-! ### Power domains (Table 18-2) -/

/-- Numbers of the domains. -/
def dCX : Nat := 1
def dHL (k : Nat) : Nat := 2 + k
def dSC (k : Nat) : Nat := 4 + k
def dOE (k : Nat) : Nat := 13 + k
def dEC (j : Nat) : Nat := 22 + j
def dHB (k : Nat) : Nat := 28 + k

/-- The state of a domain. -/
def domState (s : State) (d : Nat) : DomPower := sget .off s.pr.domains d

/-- Is a domain ON? -/
def domOn (s : State) (d : Nat) : Bool := domState s d == .on

/-- Is cluster `k` powered? -/
def clusterOn (s : State) (k : Nat) : Bool := domOn s (dEC (k / 2))

/-! ### Byte memories: lists of cells in canonical form; an unlisted address reads 0
(assumption 5) -/

/-- Read one byte. -/
def memGet (m : List Host.Cell) (a : Nat) : Byte := sget 0 m a

/-- Write one byte. -/
def memSet (m : List Host.Cell) (a : Nat) (b : Byte) : List Host.Cell := sset 0 m a b

/-- Read `n` bytes. -/
def memRead (m : List Host.Cell) (a : Nat) : Nat → List Byte
  | 0 => []
  | n + 1 => memGet m a :: memRead m (a + 1) n

/-- Write bytes. -/
def memWrite (m : List Host.Cell) (a : Nat) : List Byte → List Host.Cell
  | [] => m
  | b :: r => memWrite (memSet m a b) (a + 1) r

/-- The canonical form of a memory. -/
def Memory.wf (m : List Host.Cell) : Bool := swf (0 : Byte) m

/-! ### Plain lists -/

/-- The numbers `lo, lo + 1, …`, `n` of them. -/
def rangeFrom (lo : Nat) : Nat → List Nat
  | 0 => []
  | n + 1 => lo :: rangeFrom (lo + 1) n

/-- Apply a state change for each number of a range. -/
def forRange (lo n : Nat) (f : Nat → State → State) (s : State) : State :=
  foldSt f (rangeFrom lo n) s

/-- Apply a state change where a condition holds. -/
def when_ (c : Bool) (f : State → State) (s : State) : State := if c then f s else s

/-- Sum of a list. -/
def sumBy {α : Type} (f : α → Nat) (l : List α) : Nat := l.foldl (fun n a => n + f a) 0

end Sys2Proof.Machine
end

