-- ==== Sys2Proof/Machine/PacketFields.lean ====
section
/-!
DEFINITION. The fields of the type headers, the packet types and the header checks
(R235, R241, R243 to R255).
-/
namespace Sys2Proof.Machine

/-! Packet types (Table 08-3). -/
def tTSEND : Nat := 0x01
def tRTS : Nat := 0x02
def tSKIP : Nat := 0x03
def tRGET : Nat := 0x04
def tPUT : Nat := 0x10
def tPUTIMM : Nat := 0x11
def tGET : Nat := 0x12
def tFADD64 : Nat := 0x13
def tSWAP64 : Nat := 0x14
def tCAS64 : Nat := 0x15
def tCAS128 : Nat := 0x16
def tFLUSH : Nat := 0x17
def tCSEND : Nat := 0x18
def tCPUT : Nat := 0x19
def tCGET : Nat := 0x1A
def tACK : Nat := 0x20
def tREFUSAL : Nat := 0x21
def tGETDATA : Nat := 0x22
def tATOMRESP : Nat := 0x23
def tLOSS : Nat := 0x24
def tSQUALL : Nat := 0x25
def tCOLL : Nat := 0x30
def tLANESETUP : Nat := 0x38
def tLANEREPLY : Nat := 0x39
def tLANEDATA : Nat := 0x3A
def tLANEREL : Nat := 0x3B
def tMGMT : Nat := 0x40
def tTIME : Nat := 0x48
def tLINKCTL : Nat := 0x49

/-- Request types: VC 0..7 (R241). -/
def isRequest (t : Nat) : Bool := (0x01 ≤ t && t ≤ 0x04) || (0x10 ≤ t && t ≤ 0x1A)

/-- Response types: VC 8..15 (R241). -/
def isResponse (t : Nat) : Bool := 0x20 ≤ t && t ≤ 0x25

/-- The types of Table 08-3; every other code is reserved. -/
def isType (t : Nat) : Bool :=
  isRequest t || isResponse t || t == 0x30 || (0x38 ≤ t && t ≤ 0x3B) || t == 0x40 || t == 0x48 ||
    t == 0x49

/-- Types for which a flushed port sends a loss notice (Table 08-3, "Noticed"). -/
def isNoticed (t : Nat) : Bool := isRequest t || t == tCOLL || t == tLANEDATA

/-- The fixed VC of the types that are neither request nor response (Table 08-3). -/
def fixedVC (t : Nat) : Nat :=
  if t == tCOLL then 16 else if 0x38 ≤ t && t ≤ 0x3B then 17 else if t == tMGMT then 18 else 19

/-- The VC that R238 gives for a type after `hops` links. -/
def vcFor (t hops : Nat) : Nat :=
  if isRequest t then hops - 1 else if isResponse t then 8 + hops - 1 else fixedVC t

/-- The payload range of Table 08-3. -/
def payloadOk (t n : Nat) : Bool :=
  if t == tTSEND || t == tPUT || t == tPUTIMM || t == tCSEND || t == tCPUT || t == tCOLL then
    n ≤ 4032
  else if t == tFADD64 || t == tSWAP64 then n == 8
  else if t == tCAS64 then n == 16
  else if t == tCAS128 || t == tLANESETUP then n == 32
  else if t == tGETDATA || t == tLANEDATA then 1 ≤ n && n ≤ 4032
  else if t == tATOMRESP then n == 8 || n == 16
  else if t == tLOSS then n == 64
  else if t == tMGMT then 16 ≤ n && n ≤ 1116
  else n == 0

/-! Fields of the request header (Table 08-4). -/
def pRSN (p : Packet) : Nat := fld p.th 255 232
def pOFFSET (p : Packet) : Nat := fld p.th 231 200
def pMLEN (p : Packet) : Nat := fld p.th 199 168
def pW1 (p : Packet) : Nat := fld p.th 167 136
def pW2 (p : Packet) : Nat := fld p.th 135 104
def pW3 (p : Packet) : Nat := fld p.th 103 40
def pW4 (p : Packet) : Nat := fld p.th 39 0
def pDOMAIN (p : Packet) : Nat := fld p.th 39 24
def pMSEQ (p : Packet) : Nat := fld p.th 23 0
/-- SCONN of CSEND sits in W2 [135:112], of CPUT and CGET in W1 [167:144] (Table 08-5). -/
def pSCONN (p : Packet) : Nat :=
  if p.type == tCSEND then fld p.th 135 112 else fld p.th 167 144
def pDCONN (p : Packet) : Nat := fld p.th 39 16

/-- A request header (Table 08-4). -/
def reqTH (rsn off mlen w1 w2 w3 w4 : Nat) : Nat :=
  rsn % 2 ^ 24 * 2 ^ 232 + off % 2 ^ 32 * 2 ^ 200 + mlen % 2 ^ 32 * 2 ^ 168 + w1 % 2 ^ 32 * 2 ^ 136
    + w2 % 2 ^ 32 * 2 ^ 104 + w3 % 2 ^ 64 * 2 ^ 40 + w4 % 2 ^ 40

/-! Fields of the response header (Table 08-6). -/
def pCOUNT (p : Packet) : Nat := fld p.th 199 168
def pDELAY (p : Packet) : Nat := fld p.th 167 136
def pCODE (p : Packet) : Nat := fld p.th 135 128
def pSQSEEN (p : Packet) : Bool := bit p.th 127
def pDUP (p : Packet) : Bool := bit p.th 126

/-- A response header (Table 08-6). -/
def rspTH (rsn off count delay code : Nat) (sq dup : Bool) : Nat :=
  rsn % 2 ^ 24 * 2 ^ 232 + off % 2 ^ 32 * 2 ^ 200 + count % 2 ^ 32 * 2 ^ 168
    + delay % 2 ^ 32 * 2 ^ 136 + code % 2 ^ 8 * 2 ^ 128 + b2n sq * 2 ^ 127 + b2n dup * 2 ^ 126

/-! Fields of the collective header (Table 08-7). -/
def cKIND (p : Packet) : Nat := fld p.th 255 252
def cGROUP (p : Packet) : Nat := fld p.th 251 240
def cGEN (p : Packet) : Nat := fld p.th 239 232
def cSTEP (p : Packet) : Nat := fld p.th 231 200
def cLATE (p : Packet) : Bool := bit p.th 199
def cOVERFLOW (p : Packet) : Bool := bit p.th 198
def cOFFSET (p : Packet) : Nat := fld p.th 197 178
def cREASON (p : Packet) : Nat := fld p.th 177 170
def cARG (p : Packet) : Nat := fld p.th 169 138
/-- The signature fields [137:18] (R191). -/
def cSIG (p : Packet) : Nat := fld p.th 137 18

/-! Fields of the trade-lane header (Table 08-8). -/
def lORIGIN (p : Packet) : Nat := fld p.th 255 236
def lLNUM (p : Packet) : Nat := fld p.th 235 226
def lLAST (p : Packet) : Bool := bit p.th 225
def lPATHLEN (p : Packet) : Nat := fld p.th 224 221
def lCODE (p : Packet) : Nat := fld p.th 220 213
def lHOP (p : Packet) : Nat := fld p.th 212 205
def lSHARE (p : Packet) : Nat := fld p.th 204 189
def lSEQ (p : Packet) : Nat := fld p.th 188 157
def lKEY (p : Packet) : Nat := fld p.th 156 125
def lADDR (p : Packet) : Nat := fld p.th 124 61

/-- A lane header (Table 08-8). -/
def laneTH (origin lnum : Nat) (last : Bool) (pathLen code hop share seq key addr : Nat) : Nat :=
  origin % 2 ^ 20 * 2 ^ 236 + lnum % 2 ^ 10 * 2 ^ 226 + b2n last * 2 ^ 225
    + pathLen % 2 ^ 4 * 2 ^ 221 + code % 2 ^ 8 * 2 ^ 213 + hop % 2 ^ 8 * 2 ^ 205
    + share % 2 ^ 16 * 2 ^ 189 + seq % 2 ^ 32 * 2 ^ 157 + key % 2 ^ 32 * 2 ^ 125
    + addr % 2 ^ 64 * 2 ^ 61

/-! Fields of the time header (Table 08-9). -/
def tmT1 (p : Packet) : Nat := fld p.th 255 192
def tmT2 (p : Packet) : Nat := fld p.th 191 128
def tmT3 (p : Packet) : Nat := fld p.th 127 64
def tmUNCERT (p : Packet) : Nat := fld p.th 63 32
def tmSRC (p : Packet) : Nat := fld p.th 31 12
def tmDEPTH (p : Packet) : Nat := fld p.th 11 8
def tmKIND (p : Packet) : Nat := fld p.th 7 6
def tmXID (p : Packet) : Nat := fld p.th 5 0

/-- A time header (Table 08-9). -/
def timeTH (t1 t2 t3 uncert src depth kind xid : Nat) : Nat :=
  t1 % 2 ^ 64 * 2 ^ 192 + t2 % 2 ^ 64 * 2 ^ 128 + t3 % 2 ^ 64 * 2 ^ 64 + uncert % 2 ^ 32 * 2 ^ 32
    + src % 2 ^ 20 * 2 ^ 12 + depth % 2 ^ 4 * 2 ^ 8 + kind % 2 ^ 2 * 2 ^ 6 + xid % 2 ^ 6

/-! LINK_CTL (R254). -/
def kKIND (p : Packet) : Nat := fld p.th 255 248
def kARG (p : Packet) : Nat := fld p.th 191 128

/-- A LINK_CTL type header (R254). -/
def linkCtlTH (kind arg : Nat) : Nat := kind % 2 ^ 8 * 2 ^ 248 + arg % 2 ^ 64 * 2 ^ 128

/-- The reserved bits of the type header are 0, by type (Tables 08-4 to 08-9 and 09-3, R247, R248,
R252, R254). -/
def thReservedOk (p : Packet) : Bool :=
  let t := p.type
  let h := p.th
  if t == tSKIP then fld h 167 136 == 0 && fld h 135 104 == 0 && fld h 103 40 == 0
  else if t == tRGET then fld h 167 136 == 0 && fld h 103 40 == 0
  else if t == tPUT || (0x12 ≤ t && t ≤ 0x16) then fld h 167 136 == 0 && fld h 39 0 == 0
  else if t == tPUTIMM then fld h 39 0 == 0
  else if t == tFLUSH then fld h 167 136 == 0 && fld h 135 104 == 0 && fld h 39 0 == 0 && !bit h 103
  else if t == tCSEND then fld h 111 104 == 0 && fld h 103 40 == 0 && fld h 15 0 == 0
  else if t == tCPUT || t == tCGET then fld h 143 136 == 0 && fld h 15 0 == 0
  else if 0x20 ≤ t && t ≤ 0x23 then fld h 125 0 == 0
  else if t == tLOSS then fld h 239 0 == 0
  else if t == tSQUALL then fld h 193 0 == 0
  else if t == tCOLL then fld h 17 0 == 0
  else if 0x38 ≤ t && t ≤ 0x3B then fld h 60 0 == 0
  else if t == tMGMT then h == 0
  else if t == tLINKCTL then
    fld h 247 192 == 0 && fld h 127 0 == 0 &&
      (fld h 255 248 != 3 || (fld h 189 176 == 0 && fld h 167 165 == 0))
  else true

/-- The whole 512-bit header (R236). -/
def hdrBits (p : Packet) : Nat :=
  p.type % 2 ^ 8 * 2 ^ 504 + p.vc % 2 ^ 5 * 2 ^ 499 + p.hops % 2 ^ 4 * 2 ^ 495
    + p.detour % 2 ^ 4 * 2 ^ 491 + p.tepoch % 2 ^ 2 * 2 ^ 489 + b2n p.order * 2 ^ 488
    + b2n p.poison * 2 ^ 487 + b2n p.squall * 2 ^ 486 + b2n p.solicit * 2 ^ 485
    + p.tclass % 2 ^ 3 * 2 ^ 482 + p.colour % 2 ^ 2 * 2 ^ 480 + p.lane % 2 ^ 16 * 2 ^ 464
    + p.tenant % 2 ^ 16 * 2 ^ 448 + p.dest % 2 ^ 32 * 2 ^ 416 + p.source % 2 ^ 32 * 2 ^ 384
    + p.payload.length % 2 ^ 12 * 2 ^ 372 + p.attempt % 2 ^ 4 * 2 ^ 368
    + p.rsvd % 2 ^ 48 * 2 ^ 320 + p.stamp % 2 ^ 64 * 2 ^ 256 + p.th % 2 ^ 256

/-- The packet that a 512-bit header and a payload spell (R236). -/
def packetOfBits (h : Nat) (payload : List Byte) : Packet where
  type := fld h 511 504
  vc := fld h 503 499
  hops := fld h 498 495
  detour := fld h 494 491
  tepoch := fld h 490 489
  order := bit h 488
  poison := bit h 487
  squall := bit h 486
  solicit := bit h 485
  tclass := fld h 484 482
  colour := fld h 481 480
  lane := fld h 479 464
  tenant := fld h 463 448
  dest := fld h 447 416
  source := fld h 415 384
  attempt := fld h 371 368
  rsvd := fld h 367 320
  stamp := fld h 319 256
  th := fld h 255 0
  payload := payload

/-- Every field of a packet lies within its width, and the payload within 4 032 B (R235, R236). -/
def packetWf (p : Packet) : Bool :=
  p.type < 2 ^ 8 && p.vc < 2 ^ 5 && p.hops < 2 ^ 4 && p.detour < 2 ^ 4 && p.tepoch < 2 ^ 2 &&
    p.tclass < 2 ^ 3 && p.colour < 2 ^ 2 && p.lane < 2 ^ 16 && p.tenant < 2 ^ 16 &&
    p.dest < 2 ^ 32 && p.source < 2 ^ 32 && p.attempt < 2 ^ 4 && p.rsvd < 2 ^ 48 &&
    p.stamp < 2 ^ 64 && p.th < 2 ^ 256 && p.payload.length ≤ 4032

end Sys2Proof.Machine
end

