-- ==== Sys2Proof/Machine/CtxMem.lean ====
section
/-!
DEFINITION. Context memory: stacks, granules, poison, partial writes (15_context_memory.md,
R432 to R445).
-/
namespace Sys2Proof.Machine

/-- 24 GiB (R432). -/
def stackBytes : Nat := 25769803776

/-- The stack that holds an offset. -/
def stackOf (off : Nat) : Nat := off / stackBytes

/-- Is an offset inside the 48 GiB? -/
def cmInside (off n : Nat) : Bool := off + n ≤ 2 * stackBytes

def stack (s : State) (k : Nat) : Stack := sget {} s.cm.hbm k

def setStack (k : Nat) (f : Stack → Stack) (s : State) : State :=
  { s with cm := { s.cm with hbm := smod {} s.cm.hbm k f } }

/-- Is stack `k` in service? -/
def stackWorks (s : State) (k : Nat) : Bool := (stack s k).state == .working

/-- How many stacks are in service (R434, R445). -/
def stacksWorking (s : State) : Nat := b2n (stackWorks s 0) + b2n (stackWorks s 1)

/-! ### Reservations (R413) -/

/-- End every reservation of a granule: any write to one of its bytes breaks it. -/
def breakResv (g : Granule) (s : State) : State :=
  let f (c : ECtx) : ECtx := if c.resv == some g then { c with resv := none } else c
  { s with me := { s.me with engines := s.me.engines.map fun e =>
      (e.1, { e.2 with ctxs := e.2.ctxs.map fun c => (c.1, f c.2) }) } }

/-! ### Error records (Table 15-6) -/

/-- Append an error record; the last 64 are kept. -/
def cmRecord (kind k granule source : Nat) (s : State) : State :=
  let r := now s * 2 ^ 64 + kind * 2 ^ 60 + k * 2 ^ 59 + granule % 2 ^ 30 * 2 ^ 5 + source
  let l := s.cm.records ++ [r]
  { s with cm := { s.cm with records := l.drop (l.length - 64) } }

/-! ### Granules: `g` is the granule's number over both stacks -/

/-- The stack of a granule, and its number within it. -/
def granStack (g : Nat) : Nat := g / (stackBytes / 32)
def granLocal (g : Nat) : Nat := g % (stackBytes / 32)

/-- Is a granule poisoned? -/
def isPoisoned (s : State) (g : Nat) : Bool := (stack s (granStack g)).poisoned.contains (granLocal g)

/-- Keep the poisonings of the last second (R433). -/
def recentOf (s : State) (l : List Nat) : List Nat := l.filter fun t => ticks s < t + 2 ^ 32

/-- A granule is found uncorrectable: poison it (R437), and lose the stack above the threshold
(R433). -/
def poisonGranule (g source : Nat) (s : State) : State :=
  let k := granStack g
  let s := setStack k (fun t => { t with
    poisoned := insertBy id (granLocal g) t.poisoned
    recent := recentOf s t.recent ++ [ticks s] }) s
  let s := later (.poisoned g) (cmRecord 2 k (granLocal g) source (bump 0x8841 k s))
  when_ (rc s 0x8820 0 < (stack s k).recent.length && stackWorks s k) (later (.stackLost k)) s

/-- Whole-granule writes clear poison (R439). -/
def clearGranule (g : Nat) (s : State) : State :=
  setStack (granStack g) (fun t => { t with poisoned := t.poisoned.erase (granLocal g) }) s

/-- Read one granule: does it come poisoned? (R437, R445) -/
def readGranule (g source : Nat) (ecc : Ecc) (s : State) : Bool × State :=
  let k := granStack g
  if !stackWorks s k then (true, s)
  else
    let s := bumpStack k 0 1 s
    if isPoisoned s g then (true, s)
    else match ecc with
      | .clean => (false, s)
      | .correctable => (false, cmRecord 1 k (granLocal g) source (bump 0x8840 k s))
      | .uncorrectable => (true, poisonGranule g source s)

/-- The granules that an access touches. -/
def granules (off n : Nat) : List Nat :=
  if n = 0 then [] else rangeFrom (off / 32) ((off + n - 1) / 32 + 1 - off / 32)

/-- Read the granules of an access, each with its report. -/
def readGranules : List Nat → Nat → List Ecc → State → Bool × State
  | [], _, _, s => (false, s)
  | g :: r, src, ecc, s =>
    let (p, s) := readGranule g src (ecc.headD .clean) s
    let (q, s) := readGranules r src (ecc.drop 1) s
    (p || q, s)

/-- Read context memory: the bytes, and whether they are poisoned. -/
def cmRead (off n : Nat) (ecc : List Ecc) (s : State) : List Byte × Bool × State :=
  let (p, s) := readGranules (granules off n) 0 ecc s
  (memRead s.cm.bytes off n, p, s)

/-- Write the part of a request that lies in one granule (R438, R439).  It is the read of the granule that
finds it uncorrectable: SOURCE of that record is 0 (Table 15-5; assumption 180). -/
def writeGranule (g off : Nat) (bs : List Byte) (ecc : Ecc) (s : State) : State :=
  let k := granStack g
  let lo := max off (g * 32)
  let hi := min (off + bs.length) (g * 32 + 32)
  let part := slice bs (lo - off) (hi - lo)
  let put (s : State) : State := { s with cm := { s.cm with bytes := memWrite s.cm.bytes lo part } }
  if !stackWorks s k then s
  else if hi - lo = 32 then bumpStack k 1 1 (clearGranule g (put s))
  else
    let s := bumpStack k 2 1 s
    let lost (s : State) : State := cmRecord 3 k (granLocal g) 2 (bump 0x8844 k s)
    if isPoisoned s g then lost s
    else match ecc with
      | .clean => put s
      | .correctable => put (cmRecord 1 k (granLocal g) 2 (bump 0x8843 k s))
      | .uncorrectable => lost (poisonGranule g 0 s)

/-- Write the granules of a request, each with its report. -/
def writeGranules : List Nat → Nat → List Byte → List Ecc → State → State
  | [], _, _, _, s => s
  | g :: r, off, bs, ecc, s => writeGranules r off bs (ecc.drop 1) (writeGranule g off bs (ecc.headD .clean) s)

/-- A write in a range of context memory ends the reservations of its 128 B granules (R413). -/
def breakRange (off n : Nat) (s : State) : State :=
  if n = 0 then s
  else forRange (off / 128) ((off + n - 1) / 128 + 1 - off / 128)
    (fun i => breakResv { cluster := none, index := i }) s

/-- Write context memory in one request: reservations of the 128 B granules end (R413). -/
def cmWrite (off : Nat) (bs : List Byte) (ecc : List Ecc) (s : State) : State :=
  breakRange off bs.length (writeGranules (granules off bs.length) off bs ecc s)

/-- Write destination granules of a move as poisoned (Table 15-2); an object there is lost (R442). -/
def cmWritePoison (off n : Nat) (s : State) : State :=
  breakRange off n (foldSt (fun g s => if stackWorks s (granStack g) && !isPoisoned s g then
    later (.poisoned g)
      (setStack (granStack g) (fun t => { t with poisoned := insertBy id (granLocal g) t.poisoned }) s)
    else s) (granules off n) s)

/-! ### Pools (R434) -/

/-- Pool size in cells over the stacks in service: bytes ÷ cell size. -/
def poolCellBytes (p : Nat) : Nat :=
  if p = 2 then 256 else if p = 3 then 1024 else 64

/-- Total cells of a pool (0x8811): the split pools exist in every working stack; pools 4 and 5 in
one. -/
def poolCells (s : State) (p : Nat) : Nat :=
  let one := rc s 0x8810 p * 2 ^ 20 / poolCellBytes p
  if p < 4 then stacksWorking s * one
  else
    -- after the loss of HB0 pools 4 and 5 move to HB1 where the split pools leave room (R445)
    let used := sumBy (fun q => rc s 0x8810 q) [0, 1, 2, 3, 4, 5] + 1024
    if stackWorks s 0 || (stackWorks s 1 && used ≤ 24576) then one else 0

/-- The stack that holds pools 4 and 5: HB0, and HB1 once HB0 does not work (R434, R445). -/
def ringStack (s : State) : Nat := if stackWorks s 0 then 0 else 1

/-- Where a pool lies in a stack: base and size (R434, R445). -/
def poolSpan (s : State) (k p : Nat) : Nat × Nat :=
  let mib (q : Nat) : Nat := rc s 0x8810 q * 2 ^ 20
  let n := mib p
  if p < 4 then (2 ^ 30 + sumBy mib (rangeFrom 0 p), n)
  else if k ≠ ringStack s then (0, 0)
  else if p = 5 then (stackBytes - n, n)
  else (stackBytes - mib 5 - n, n)

/-- The pool of a place in a stack, with the offset in the pool and the pool's size there. -/
def poolAt (s : State) (k off : Nat) : Option (Nat × Nat × Nat) :=
  ((rangeFrom 0 6).find? fun p => (poolSpan s k p).1 ≤ off && off < (poolSpan s k p).1 + (poolSpan s k p).2).map
    fun p => (p, off - (poolSpan s k p).1, (poolSpan s k p).2)

/-- Cells of 256 B that a number of bytes takes in the unexpected store (Table 15-1). -/
def cells256 (n : Nat) : Nat := (n + 255) / 256

/-- Cells of the unexpected store that are released and still copied out (R436). -/
def storeTransient (s : State) : Nat :=
  sumBy (fun (e : Nat × Placing) =>
    cells256 (sumBy (fun (c : Chunk) => c.data.length) (e.2.queue.take e.2.stored))) s.mu.placing

/-- Store bytes that a message takes: its data, while it is kept. -/
def storeBytes (u : UMsg) : Nat := if u.kind == .eager && !u.deferred then pMLEN u.packet else 0

/-- Cells of the unexpected store that messages hold. -/
def storeCells (s : State) : Nat :=
  sumBy (fun (e : Nat × Domain) =>
    sumBy (fun u => cells256 (storeBytes u)) (e.2.unexpected ++ e.2.reorder)) s.mu.domains

/-- Entries of the event log that the mirror holds: those written since it was placed (R445), at most its
262 144. -/
def mirrorEntries (s : State) : Nat :=
  if poolCells s 5 = 0 then 0
  else min ((s.ms.nextSeq + 2 ^ 32 - s.cm.mirrorFrom) % 2 ^ 32) 262144

/-- The log mirror is empty at its place. -/
def mirrorPlaced (s : State) : State := { s with cm := { s.cm with mirrorFrom := s.ms.nextSeq } }

/-- Where the mirror of an entry of the event log lies (R434, R528). -/
def mirrorAt (s : State) (pos : Nat) : Nat := (ringStack s + 1) * stackBytes - 16777216 + pos * 64

/-- Does an entry of the event log lie, as the mirror holds it, in a poisoned granule (Table 15-3)? -/
def mirrorPoisoned (s : State) (pos : Nat) : Bool :=
  poolCells s 5 != 0 && (granules (mirrorAt s pos) 64).any (isPoisoned s)

/-- Pool bytes of a pool, over both stacks. -/
def poolBytes (s : State) (p : Nat) : Nat := poolCells s p * poolCellBytes p

/-- Capacities derived from the pools (R434): queue contexts, region entries, flow contexts. -/
def capQueues (s : State) : Nat := poolBytes s 0 * 2 / 7 / 128
def capRegions (s : State) : Nat := poolBytes s 0 / 7 / 64
def capFlows (s : State) : Nat := poolBytes s 0 * 4 / 7 / 64

/-- Capacities of pool 1: posted receives, unexpected headers, reorder headers, sequence contexts. -/
def capPosted (s : State) : Nat := poolBytes s 1 * 2048 / 2720 / 64
def capUnexpected (s : State) : Nat := poolBytes s 1 * 512 / 2720 / 64
def capReorder (s : State) : Nat := poolBytes s 1 * 32 / 2720 / 64
def capSeqs (s : State) : Nat := poolBytes s 1 * 128 / 2720 / 16

/-! ### Writes of the units (R439) -/

/-- Of the poisoned granules listed, at most `n` are replaced whole; which ones is a free value. -/
def clearSome : List Nat → Nat → State → State
  | [], _, s => s
  | _, 0, s => s
  | g :: r, n + 1, s =>
    let (hit, s) := draw 2 s
    if hit = 1 then clearSome r n (clearGranule g s) else clearSome r (n + 1) s

/-- The poisoned granules of a pool in a stack. -/
def poisonedIn (s : State) (k p : Nat) : List Nat :=
  let (base, size) := poolSpan s k p
  ((stack s k).poisoned.filter fun g => base ≤ g * 32 && g * 32 < base + size).map
    fun g => g + k * (stackBytes / 32)

/-- MU or CE writes whole granules of its pool, `n` bytes of them: poison in them is cleared (R439).  Where in
the pool they lie the spec does not say (assumption 150). -/
def poolWrote (k p n : Nat) (s : State) : State := clearSome (poisonedIn s k p) (n / 32) s

end Sys2Proof.Machine
end

