-- ==== Sys2Proof/Machine/Image.lean ====
section
/-!
DEFINITION. Images: headers, signature trailer, compatibility (R391, R530, R531, R534, R537).
Images are in Yusto byte order (assumption 6).
-/
namespace Sys2Proof.Machine

/-- An image area by its TARGET code (Table 20-5). -/
def area (s : State) (t : Nat) : ImageArea := sget {} s.ms.areas t

def setArea (t : Nat) (f : ImageArea → ImageArea) (s : State) : State :=
  { s with ms := { s.ms with areas := smod {} s.ms.areas t f } }

/-- Size of an area (Table 20-1). -/
def areaSize (t : Nat) : Nat := if t < 2 then 16777216 else 131072

def isTarget (t : Nat) : Bool := t < 2 || (16 ≤ t && t < 32)

/-- Bits `[hi:lo]` of the 64 B header. -/
def hdrFld (img : List Byte) (hi lo : Nat) : Nat := fld (beNat (img.take 64)) hi lo

/-- The bundle header as the firmware it describes (Table 20-4). -/
def bundleOf (img : List Byte) : Firmware where
  present := true
  stepMin := hdrFld img 455 448
  stepMax := hdrFld img 447 440
  mgmtVersion := hdrFld img 439 408
  engineVersion := hdrFld img 407 376
  hostIfEpoch := hdrFld img 375 360
  engineIfEpoch := hdrFld img 359 344
  stateEpoch := hdrFld img 343 328
  testedMin := hdrFld img 327 312
  testedMax := hdrFld img 311 296

/-- Is a bundle well-formed (R530, R534)? -/
def bundleOk (img : List Byte) : Bool :=
  let m := hdrFld img 295 272
  let e := hdrFld img 271 248
  64 + 104 ≤ img.length && hdrFld img 511 480 == 0x45444742 && hdrFld img 479 472 == 1 &&
    hdrFld img 471 464 == 1 && hdrFld img 463 456 == 0 && hdrFld img 247 0 == 0 &&
    1 ≤ m && m ≤ 1536 && 1 ≤ e && e ≤ 8192 && img.length == 64 + m * 1024 + e * 1024 + 104

/-- The engine firmware of a bundle (R530). -/
def engineImage (img : List Byte) : List Byte :=
  slice img (64 + hdrFld img 295 272 * 1024) (hdrFld img 271 248 * 1024)

/-- A package header (Table 13-10). -/
structure PackageHdr where
  id : Nat
  version : Nat
  ifEpoch : Nat
  handlers : Nat
  codeSize : Nat
  dataSize : Nat
  cmemKib : Nat
deriving DecidableEq, Repr

def packageOf (img : List Byte) : PackageHdr where
  id := hdrFld img 479 448
  version := hdrFld img 447 416
  ifEpoch := hdrFld img 415 400
  handlers := hdrFld img 399 392
  codeSize := hdrFld img 391 376
  dataSize := hdrFld img 375 360
  cmemKib := hdrFld img 359 348

/-- Is a package well-formed (R391)?  Header, handler table, code, data, trailer. -/
def packageOk (img : List Byte) : Bool :=
  let h := packageOf img
  64 + 104 ≤ img.length && hdrFld img 511 480 == 0x48504B47 && hdrFld img 347 0 == 0 &&
    1 ≤ h.handlers && h.handlers ≤ 64 && h.codeSize % 4 == 0 && h.codeSize ≤ 24576 &&
    h.dataSize ≤ 65280 && h.cmemKib ≤ 1024 &&
    img.length == 64 + 4 * h.handlers + h.codeSize + h.dataSize + 104

/-- The parts of a package after its header. -/
def packageHandlers (img : List Byte) : List Nat :=
  entriesOf 4 64 (slice img 64 (4 * (packageOf img).handlers))
def packageCode (img : List Byte) : List Byte :=
  let h := packageOf img
  slice img (64 + 4 * h.handlers) h.codeSize
def packageData (img : List Byte) : List Byte :=
  let h := packageOf img
  slice img (64 + 4 * h.handlers + h.codeSize) h.dataSize

/-- A trust anchor as 832 bits: anchor 0 is the vendor's constant (R531). -/
def anchor (s : State) (k : Nat) : Nat :=
  if k = 0 then Config.anchor0.toNat else rc s 0x2330 k

/-- ROLE permits a kind: bit 0 bundles, bit 1 packages; anchor 0 permits both. -/
def anchorPermits (s : State) (k : Nat) (package : Bool) : Bool :=
  k = 0 || bit (anchor s k) (824 + b2n package)

/-- The signature of an image verifies under an anchor that its KEY_ID names (R530, R531). -/
def signatureGood (s : State) (package : Bool) (img : List Byte) : Bool :=
  let n := img.length - 104
  let tr := img.drop n
  104 ≤ img.length && beAt tr 100 4 == 0x5349474E &&
    (rangeFrom 0 8).any fun k =>
      fld (anchor s k) 807 776 == beAt tr 0 4 && anchorPermits s k package &&
        Config.signatureOk (fld (anchor s k) 775 0) (img.take n) (beAt tr 4 48) (beAt tr 52 48)

/-- The first check that fails (R534), as a reason of Table 20-7; 0: the image verifies.  Checks 2 to
5; `INCOMPLETE` is the caller's. -/
def verifyImage (s : State) (package : Bool) (img : List Byte) : Nat :=
  if package then
    if !packageOk img then 5
    else if (packageOf img).ifEpoch != s.ms.engineFw.engineIfEpoch then 7
    else if signatureGood s true img then 0 else 8
  else
    let f := bundleOf img
    if !bundleOk img then 5
    else if Config.stepping.toNat < f.stepMin || f.stepMax < Config.stepping.toNat then 6
    else if signatureGood s false img then 0 else 8

/-- The start decision (Table 20-8) of management firmware `m` for engine firmware `e`, in the coding
of 0x2311:00. -/
def startDecision (s : State) (m e : Firmware) : Nat :=
  if Config.stepping.toNat < e.stepMin || e.stepMax < Config.stepping.toNat then 3
  else if m.testedMin ≤ e.engineIfEpoch && e.engineIfEpoch ≤ m.testedMax then 0
  else if rc s 0x2310 0 == m.mgmtVersion * 2 ^ 32 + e.engineVersion then 1
  else 2

/-! ### The event log (R527, R528, R587) -/

/-- The number of an event-log entry (Table 20-3). -/
def logBits (e : LogEntry) : Nat :=
  let d := beNat (e.data ++ List.replicate (40 - e.data.length) 0)
  let hi := e.stamp * 2 ^ 448 + e.seq * 2 ^ 416 + e.severity * 2 ^ 413 + b2n e.tfree * 2 ^ 412
    + e.cls * 2 ^ 400 + e.source * 2 ^ 392 + e.code * 2 ^ 376 + e.data.length * 2 ^ 368 + d * 2 ^ 48
  hi + crc32c (beBytes 60 (hi / 2 ^ 32))

/-- Write an entry to the log at its position, and to the log mirror at the top of HB0, or of HB1 once
HB0 is lost (R434, R445, R528).  Entries of severity 2 or above are pushed (R529). -/
def logWrite (e : LogEntry) (s : State) : State :=
  let e := { e with seq := s.ms.nextSeq }
  let pos := s.ms.nextSeq % 262144
  let s := { s with ms := { s.ms with
    log := mput s.ms.log pos e
    nextSeq := (s.ms.nextSeq + 1) % 2 ^ 32 } }
  let bs := beBytes 64 (logBits e)
  let s := if poolCells s 5 = 0 then s else cmWrite (mirrorAt s pos) bs [] s
  if e.severity < 2 then s else later (.push 3 0 bs) s

/-- The coalesced entry of a burst whose second is over: the number omitted for one class, source and code
(R528). -/
def closeBurst (b : LogBurst) (s : State) : State :=
  let same (x : LogBurst) : Bool := x.cls == b.cls && x.source == b.source && x.code == b.code
  let s := { s with ms := { s.ms with bursts := s.ms.bursts.filter fun x => !same x } }
  if b.omitted = 0 then s
  else logWrite { stamp := now s, seq := 0, severity := b.severity, tfree := timeFree s, cls := b.cls,
                  source := b.source, code := 0xFFFF, data := beBytes 2 b.code ++ beBytes 4 b.omitted } s

/-- The first entry of a burst. -/
def openBurst (e : LogEntry) (second : Nat) (s : State) : State :=
  logWrite e { s with ms := { s.ms with
    bursts := s.ms.bursts ++ [{ cls := e.cls, source := e.source, code := e.code, severity := e.severity,
                                second := second, written := 1, omitted := 0 }] } }

/-- Log an event: the first 100 entries of equal class, source and code of a second of MT are
written, the others counted (R528). -/
def logEvent (cls source code severity : Nat) (data : List Byte) (s : State) : State :=
  let e : LogEntry := { stamp := now s, seq := 0, severity := severity, tfree := timeFree s, cls := cls,
                        source := source, code := code, data := data }
  let sec := now s / 2 ^ 32
  let same (b : LogBurst) : Bool := b.cls == cls && b.source == source && b.code == code
  match s.ms.bursts.find? same with
  | some b =>
    if b.second = sec then
      if b.written < 100 then
        (logWrite e { s with ms := { s.ms with
          bursts := updFirst same (fun b => { b with written := b.written + 1 }) s.ms.bursts } })
      else bump 0x2022 0 { s with ms := { s.ms with
        bursts := updFirst same (fun b => { b with omitted := b.omitted + 1 }) s.ms.bursts } }
    else openBurst e sec (closeBurst b s)
  | none => openBurst e sec s

end Sys2Proof.Machine
end

