-- ==== Sys2Proof/Machine/Codes.lean ====
section
/-!
DEFINITION. The numbered codes of the tables that several units use.
-/
namespace Sys2Proof.Machine

/-! Completion status (Table 03-8) and admin status (Table 03-13). -/
def stOK : Nat := 0x00
def stLOCALFAULT : Nat := 0x01
def stDENIED : Nat := 0x02
def stREMOTEFAULT : Nat := 0x03
def stLOSS : Nat := 0x04
def stPOISON : Nat := 0x05
def stTRUNCATED : Nat := 0x06
def stCANCELLED : Nat := 0x07
def stALREADY : Nat := 0x08
def stMEMBERLOST : Nat := 0x09
def stUNREACHABLE : Nat := 0x0A
def stDESCERROR : Nat := 0x0B
def stDESTROYED : Nat := 0x0C

/-! Halt reasons (Table 03-15). -/
def hBADOPCODE : Nat := 1
def hRESERVED : Nat := 2
def hBADDEST : Nat := 3
def hBADLENGTH : Nat := 4
def hBADALIGN : Nat := 5
def hBADFRAGMENT : Nat := 6
def hRINGFAULT : Nat := 7
def hBADDOORBELL : Nat := 8
def hHOSTHALT : Nat := 9
def hDRAINED : Nat := 10
def hCONTEXTLOST : Nat := 11

/-! Queue types (Table 03-12). -/
def qSEND : Nat := 0
def qRECV : Nat := 1
def qSRQ : Nat := 2
def qCQ : Nat := 3
def qEQ : Nat := 4

/-! Refusal reasons (Table 05-2). -/
def rNOREGION : Nat := 1
def rKEY : Nat := 2
def rTENANT : Nat := 3
def rRIGHTS : Nat := 4
def rBOUNDS : Nat := 5
def rNONOTIFY : Nat := 6
def rRNR : Nat := 7
def rCONNECTION : Nat := 8
def rFLOWCTX : Nat := 9
def rDOMAIN : Nat := 16
def rSTOREFULL : Nat := 17
def rSEQBEHIND : Nat := 18
def rMURETRY : Nat := 19
def rSTALL : Nat := 32
def rFAULTFAILED : Nat := 33
def rRESEND : Nat := 34
def rHOSTERROR : Nat := 35
def rPAGERETRY : Nat := 36

/-! Engine service reasons (Table 13-9). -/
def esNOPACKAGE : Nat := 1
def esNOTPERMITTED : Nat := 2
def esBADHANDLER : Nat := 3
def esTRAP : Nat := 4
def esBUDGET : Nat := 5
def esHALT : Nat := 6
def esNOENGINE : Nat := 7
def esBADSTATUS : Nat := 8
def esNOTOWNER : Nat := 9
def esNOTOPEN : Nat := 10

/-! Trap causes (Table 13-7). -/
def cILLEGAL : Nat := 1
def cALIGN : Nat := 2
def cACCESS : Nat := 3
def cTRANSLATION : Nat := 4
def cPOISON : Nat := 5
def cBUS : Nat := 6
def cOV : Nat := 7
def cDZ : Nat := 8
def cTRAP : Nat := 9
def cBREAK : Nat := 10
def cBUDGET : Nat := 11
def cPARITY : Nat := 12
def cINTERRUPT : Nat := 16

end Sys2Proof.Machine
end

