-- ==== Sys2Proof/Machine/Visible.lean ====
section
/-!
DEFINITION. Which observers see a store (R401 to R409): cluster memory and context memory hold the newest
value, and a store stays in flight until every observer sees it.  An observer that does not see it yet reads
what was there before; when it comes to see it is a free value (assumption 178).
-/
namespace Sys2Proof.Machine

/-- The observers: the engine contexts, then the move units of the clusters (R401). -/
def ctxObserver (e c : Nat) : Nat := e * 4 + c
def moveObserver (cluster : Nat) : Nat := 384 + cluster

/-- The bytes of a memory: the cluster memory of a cluster, or context memory. -/
def sharedBytes (s : State) (cl : Option Nat) (off n : Nat) : List Byte :=
  match cl with
  | some k => memRead (sget [] s.me.cmem k) off n
  | none => memRead s.cm.bytes off n

/-- The cluster of an observer. -/
def observerCluster (o : Nat) : Nat := if o < 384 then o / 32 else o - 384

/-- Must an observer see a store: it was performed, for the observers of its cluster or in the array, before the
fence count `dep` (R402, R406)? -/
def Flight.due (f : Flight) (o dep : Nat) : Bool :=
  f.atArray.any (fun n => n ≤ dep) || (f.cluster == some (observerCluster o) && f.atCluster.any fun n => n ≤ dep)

/-- An observer sees a store. -/
def Flight.see (f : Flight) (o : Nat) : Flight :=
  if f.seen.contains o then f else { f with seen := o :: f.seen }

/-- Does a store in flight write a byte of a range? -/
def Flight.touches (f : Flight) (cl : Option Nat) (off n : Nat) : Bool :=
  f.cluster == cl && off < f.off + f.new.length && f.off < off + n

/-- An observer looks at a range: of each store in flight that it does not see yet, whether it sees it now
is a free value, unless it must (`dep`: the fence count at the load that the address depends on); what it has
seen it goes on seeing (Table 14-1). -/
def look (o : Nat) (cl : Option Nat) (off n dep : Nat) : List Flight → State → List Flight × State
  | [], s => ([], s)
  | f :: r, s =>
    if f.touches cl off n && !f.seen.contains o && !f.due o dep then
      let (v, s) := draw 2 s
      let (r, s) := look o cl off n dep r s
      ((if v = 1 then f.see o else f) :: r, s)
    else
      let (r, s) := look o cl off n dep r s
      ((if f.touches cl off n then f.see o else f) :: r, s)

/-- What follows the newest store that an observer sees. -/
def unseen (o : Nat) : List Flight → List Flight
  | [] => []
  | f :: r => if (f :: r).any fun g => g.seen.contains o then unseen o r else f :: r

/-- A byte as an observer sees it: what was there before the first store to it after the newest one that the
observer sees; `b`, what is there, where none follows. -/
def viewByte (l : List Flight) (o : Nat) (cl : Option Nat) (a : Nat) (b : Byte) : Byte :=
  match (unseen o (l.filter fun f => f.touches cl a 1)).head? with
  | some f => f.old.getD (a - f.off) b
  | none => b

/-- The bytes of a range as an observer sees them. -/
def viewBytes (l : List Flight) (o : Nat) (cl : Option Nat) : Nat → List Byte → List Byte
  | _, [] => []
  | a, b :: r => viewByte l o cl a b :: viewBytes l o cl (a + 1) r

/-- An observer reads a range. -/
def observe (o : Nat) (cl : Option Nat) (off n dep : Nat) (s : State) : List Byte × State :=
  let (l, s2) := look o cl off n dep s.me.flights s
  (viewBytes l o cl off (sharedBytes s cl off n), { s2 with me := { s2.me with flights := l } })

/-- A context's store is in flight: `old` is what its range held before; what it holds now is new.  The
context itself sees it (Table 14-1). -/
def launchStore (o : Nat) (cl : Option Nat) (off : Nat) (old : List Byte) (s : State) : State :=
  let f : Flight :=
    { writer := o, cluster := cl, off := off, old := old, new := sharedBytes s cl off old.length, seen := [o] }
  { s with me := { s.me with flights := s.me.flights ++ [f] } }

/-- The stores that stay in flight when those of `p` reach every observer, and those that do: an older
store to the same bytes is over with them. -/
def reached (p : Flight → Bool) (l : List Flight) : List Flight × List Flight :=
  l.foldr (fun f a =>
    if p f || a.2.any (fun (g : Flight) => g.touches f.cluster f.off f.new.length) then (a.1, f :: a.2)
    else (f :: a.1, a.2)) ([], [])

/-- Stores reach every observer. -/
def perform (p : Flight → Bool) (s : State) : State :=
  { s with me := { s.me with flights := (reached p s.me.flights).1 } }

/-- Stores to a range reach every observer, before another unit writes it. -/
def performRange (cl : Option Nat) (off n : Nat) (s : State) : State :=
  perform (fun f => f.touches cl off n) s

/-- An observer sees the newest value of a range: a load with reservation (R412). -/
def seeRange (o : Nat) (cl : Option Nat) (off n : Nat) (s : State) : State :=
  { s with me := { s.me with flights := s.me.flights.map fun f => if f.touches cl off n then f.see o else f } }

/-- An observer sees every store that has reached it: the start of a move or of a work item (R408). -/
def seeReached (o : Nat) (s : State) : State :=
  { s with me := { s.me with flights := s.me.flights.map fun f => if f.due o s.me.fences then f.see o else f } }

/-- FENCE.O of a context: its stores to the memory of its own cluster have reached the observers of the cluster,
and it sees those that had (R406). -/
def fenceCluster (e c : Nat) (s : State) : State :=
  let k := e / 8
  let o := ctxObserver e c
  let n := s.me.fences + 1
  let pass (f : Flight) : Flight :=
    if f.cluster != some k then f
    else
      let f := if f.writer == o then { f with atCluster := some (f.atCluster.getD n) } else f
      if f.due o n then f.see o else f
  { s with me := { s.me with fences := n, flights := s.me.flights.map pass } }

/-- The stores that `p` selects are in the arrays, with the older ones to the same bytes. -/
def toArrays (n : Nat) (p : Flight → Bool) (l : List Flight) : List Flight :=
  (l.foldr (fun f (a : List Flight × List Flight) =>
    if p f || a.2.any (fun (g : Flight) => g.touches f.cluster f.off f.new.length) then
      ({ f with atCluster := some (f.atCluster.getD n), atArray := some (f.atArray.getD n) } :: a.1, f :: a.2)
    else (f :: a.1, a.2)) ([], [])).1

/-- Does every observer see a store? -/
def Flight.over (f : Flight) : Bool := (rangeFrom 0 396).all f.seen.contains

/-- FENCE.P of a context: what it has written, and what it has seen, is in the arrays, and it sees all that is
(R406, Table 14-2). -/
def fenceArrays (e c : Nat) (s : State) : State :=
  let o := ctxObserver e c
  let n := s.me.fences + 1
  let l := toArrays n (fun f => f.seen.contains o) s.me.flights
  let l := (l.map fun f => if f.due o n then f.see o else f).filter fun f => !f.over
  { s with me := { s.me with fences := n, flights := l } }

end Sys2Proof.Machine
end

