-- ==== Sys2Proof/Machine/Operands.lean ====
section
/-!
DEFINITION. The operands of the engine instructions: contexts, general and special registers,
instruction words and the engine address map (R373 to R380).
-/
namespace Sys2Proof.Machine

/-! ### Contexts -/

def engine (s : State) (e : Nat) : Engine := sget {} s.me.engines e

def setEngine (e : Nat) (f : Engine → Engine) (s : State) : State :=
  { s with me := { s.me with engines := smod {} s.me.engines e f } }

def ectx (s : State) (e c : Nat) : ECtx := sget {} (engine s e).ctxs c

def setCtx (e c : Nat) (f : ECtx → ECtx) (s : State) : State :=
  setEngine e (fun g => { g with ctxs := smod {} g.ctxs c f }) s

/-- The cluster and the domain of an engine (R373). -/
def clusterOf (e : Nat) : Nat := e / 8
def domainOf (e : Nat) : Nat := dEC (e / 16)

/-- Is an engine powered and not halted? -/
def engineRuns (s : State) (e : Nat) : Bool := domOn s (domainOf e) && !(engine s e).halted

/-! ### General registers (R374): all general, none hardwired -/

def reg (s : State) (e c r : Nat) : Word64 := sget 0 (ectx s e c).regs r

def setReg (e c r : Nat) (v : Word64) (s : State) : State :=
  setCtx e c (fun x => { x with regs := sset 0 x.regs r v, stamps := sset 0 x.stamps r 0 }) s

/-- The load that a register's value depends on, as a fence count: 0 for none (R402). -/
def stampOf (s : State) (e c r : Nat) : Nat := sget 0 (ectx s e c).stamps r

def setStamp (e c r n : Nat) (s : State) : State :=
  setCtx e c (fun x => { x with stamps := sset 0 x.stamps r n }) s

def pcOf (s : State) (e c : Nat) : Word64 := (ectx s e c).pc

def setPc (e c : Nat) (v : Word64) (s : State) : State := setCtx e c (fun x => { x with pc := v }) s

/-! ### The status register (Table 13-6) -/

/-- A bit of a 64-bit word as a mask. -/
def bitW (i : Nat) : Word64 := BitVec.ofNat 64 (2 ^ i)

def statusBit (s : State) (e c i : Nat) : Bool := (ectx s e c).status.getLsbD i

/-- A word with one bit set or cleared. -/
def withBit (w : Word64) (i : Nat) (v : Bool) : Word64 :=
  if v then w ||| bitW i else w &&& ~~~(bitW i)

/-- Bits of status: MODE 8, PMODE 9, IE 12, PIE 13, INTRAP 16, interrupt mask 20..24. -/
def inPackage (s : State) (e c : Nat) : Bool := statusBit s e c 8

/-- The defined bits of status; the others are reserved and read 0 (R9). -/
def statusMask : Word64 := 0x1F13333

/-- The interrupt mask and the pending events, as numbers of five bits (R384). -/
def intMask (x : ECtx) : Nat := fld x.status.toNat 24 20
def pendingBits (x : ECtx) : Nat := fld x.pending.toNat 4 0

/-! ### Immediates and instruction words (Table 13-2) -/

/-- sext and zext of an imm16. -/
def sext16 (i : BitVec 16) : Word64 := i.signExtend 64
def zext16 (i : BitVec 16) : Word64 := i.zeroExtend 64

/-- Sign extension from bit 31 of a result of width 32. -/
def sext32 (w : BitVec 32) : Word64 := w.signExtend 64

/-- The low 32 bits of a register. -/
def lo32 (w : Word64) : BitVec 32 := w.truncate 32

def wordR (major rd ra rb func : Nat) : Nat :=
  major * 2 ^ 26 + rd * 2 ^ 21 + ra * 2 ^ 16 + rb * 2 ^ 11 + func
def wordI (major rd ra : Nat) (imm : BitVec 16) : Nat :=
  major * 2 ^ 26 + rd * 2 ^ 21 + ra * 2 ^ 16 + imm.toNat
def wordJ (major : Nat) (off : BitVec 26) : Nat := major * 2 ^ 26 + off.toNat
def wordX (major rd ra function selector : Nat) : Nat :=
  major * 2 ^ 26 + rd * 2 ^ 21 + ra * 2 ^ 16 + function * 2 ^ 12 + selector

/-! ### The engine address map (Table 13-1) -/

/-- A place in the engine address map. -/
inductive EPlace where
  | ldm (off : Nat)
  | cmem (cluster off : Nat)
  | context (off : Nat)
  | unit (off : Nat)
  | host (addr : Nat)
  | remote (w addr : Nat)
  | none
deriving DecidableEq, Repr

/-- Where an access of `n` bytes at an engine address goes. -/
def placeOf (a n : Nat) : EPlace :=
  if a + n ≤ 0x20000 then .ldm a
  else if 0x1000000 ≤ a && a + n ≤ 0x1000000 + 12 * 0x200000 &&
      (a - 0x1000000) / 0x200000 == (a + n - 1 - 0x1000000) / 0x200000 then
    .cmem ((a - 0x1000000) / 0x200000) ((a - 0x1000000) % 0x200000)
  else if 0x10000000000 ≤ a && cmInside (a - 0x10000000000) n then .context (a - 0x10000000000)
  else if 0x20000000000 ≤ a && a + n ≤ 0x20100000000 then .unit (a - 0x20000000000)
  else if 2 ^ 62 ≤ a && a + n ≤ 2 ^ 62 + 2 ^ 48 then .host (a - 2 ^ 62)
  else if 2 ^ 63 ≤ a && a % 2 ^ 61 + n ≤ 2 ^ 48 then .remote (a / 2 ^ 61 - 4) (a % 2 ^ 61)
  else .none

/-- The package slot of a context's item. -/
def slotOf (x : ECtx) : Option Nat :=
  match x.item with
  | some ⟨.package slot _ _, _, _⟩ => some slot
  | _ => none

def pkgSlot (s : State) (k : Nat) : PkgSlot := sget {} s.me.slots k

/-- May the context's mode reach a place of `n` bytes? (Table 13-1, R392) -/
def mayReach (s : State) (e c n : Nat) (p : EPlace) : Bool :=
  match p with
  | .none => false
  | .host _ | .remote _ _ => true
  | .ldm off =>
    -- a package: its own data, and the descriptor of its call (R390, R392)
    !inPackage s e c || (0x1FF00 + 64 * c ≤ off && off + n ≤ 0x1FF00 + 64 * c + 64) ||
      match slotOf (ectx s e c) with
      | some slot =>
        let g := pkgSlot s slot
        g.dataBase ≤ off && off + n ≤ g.dataBase + g.dataSize
      | none => false
  | .cmem k off =>
    !inPackage s e c ||
      match slotOf (ectx s e c) with
      | some slot =>
        let g := pkgSlot s slot
        k == clusterOf e && g.part ≤ off && off + n ≤ g.part + g.cmemKib * 1024
      | none => false
  | .context _ | .unit _ => !inPackage s e c

/-- The sample TARGET code of a place (Table 13-14). -/
def targetCode : EPlace → Nat
  | .none => 0 | .ldm _ => 1 | .cmem _ _ => 2 | .context _ => 3 | .unit _ => 4 | .host _ => 5
  | .remote _ _ => 6

/-! ### Cluster memory -/

def cmem (s : State) (k : Nat) : List Host.Cell := sget [] s.me.cmem k

/-- Write cluster memory: reservations of its 128 B granules end (R413). -/
def cmemWrite (k off : Nat) (bs : List Byte) (s : State) : State :=
  let s := { s with me := { s.me with cmem := smod [] s.me.cmem k fun m => memWrite m off bs } }
  if bs.isEmpty then s
  else forRange (off / 128) ((off + bs.length - 1) / 128 + 1 - off / 128)
    (fun i => breakResv { cluster := some k, index := i }) s

/-- Store to cluster memory or context memory: other observers may see it later (R403). -/
def cmemStore (e c k off : Nat) (bs : List Byte) (s : State) : State :=
  launchStore (ctxObserver e c) (some k) off (sharedBytes s (some k) off bs.length) (cmemWrite k off bs s)
def contextStore (e c off : Nat) (bs : List Byte) (ecc : Ecc) (s : State) : State :=
  launchStore (ctxObserver e c) none off (sharedBytes s none off bs.length) (cmWrite off bs [ecc] s)

/-- Write local data memory. -/
def ldmWrite (e off : Nat) (bs : List Byte) (s : State) : State :=
  setEngine e (fun g => { g with ldm := memWrite g.ldm off bs }) s

end Sys2Proof.Machine
end

