-- ==== Sys2Proof/Machine/Flags.lean ====
section
/-!
DEFINITION. Results and edge flags of the engine arithmetic (R378, R379, Table 13-5).  Every function
answers the 64-bit result, and whether it sets OV and DZ.
-/
namespace Sys2Proof.Machine

/-- A result with its edge flags. -/
structure AluOut where
  val : Word64
  ov : Bool := false
  dz : Bool := false
deriving DecidableEq, Repr

/-- Does an exact result fit `w` signed bits? -/
def fitsSigned (w : Nat) (i : Int) : Bool := decide (-(2 ^ (w - 1) : Int) ≤ i ∧ i < 2 ^ (w - 1))

/-- A word with a Boolean result. -/
def boolW (b : Bool) : Word64 := if b then 1 else 0

/-! Addition and subtraction -/
def fAdd (a b : Word64) : AluOut := { val := a + b, ov := !fitsSigned 64 (a.toInt + b.toInt) }
def fSub (a b : Word64) : AluOut := { val := a - b, ov := !fitsSigned 64 (a.toInt - b.toInt) }
def fNeg (a : Word64) : AluOut := { val := -a, ov := !fitsSigned 64 (-a.toInt) }
def fAdd32 (a b : Word64) : AluOut :=
  { val := sext32 (lo32 a + lo32 b), ov := !fitsSigned 32 ((lo32 a).toInt + (lo32 b).toInt) }
def fSub32 (a b : Word64) : AluOut :=
  { val := sext32 (lo32 a - lo32 b), ov := !fitsSigned 32 ((lo32 a).toInt - (lo32 b).toInt) }
def fNeg32 (a : Word64) : AluOut :=
  { val := sext32 (-lo32 a), ov := !fitsSigned 32 (-(lo32 a).toInt) }

/-! Comparison -/
def fLt (a b : Word64) : Bool := decide (a.toInt < b.toInt)
def fLtu (a b : Word64) : Bool := decide (a.toNat < b.toNat)

/-! Shifts and rotates at width 64 and 32; the amount is the full value (Table 13-5) -/
def fShl (a : Word64) (n : Nat) : Word64 := if 64 ≤ n then 0 else a <<< n
def fShr (a : Word64) (n : Nat) : Word64 := if 64 ≤ n then 0 else a >>> n
def fSar (a : Word64) (n : Nat) : Word64 := a.sshiftRight (min n 63)
def fRotl (a : Word64) (n : Nat) : Word64 := a.rotateLeft (n % 64)
def fRotr (a : Word64) (n : Nat) : Word64 := a.rotateRight (n % 64)
def fShl32 (a : Word64) (n : Nat) : Word64 := if 32 ≤ n then 0 else sext32 (lo32 a <<< n)
def fShr32 (a : Word64) (n : Nat) : Word64 := if 32 ≤ n then 0 else sext32 (lo32 a >>> n)
def fSar32 (a : Word64) (n : Nat) : Word64 := sext32 ((lo32 a).sshiftRight (min n 31))
def fRotl32 (a : Word64) (n : Nat) : Word64 := sext32 ((lo32 a).rotateLeft (n % 32))
def fRotr32 (a : Word64) (n : Nat) : Word64 := sext32 ((lo32 a).rotateRight (n % 32))

/-! Multiplication -/
def fMullo (a b : Word64) : AluOut := { val := a * b, ov := !fitsSigned 64 (a.toInt * b.toInt) }
def fMullo32 (a b : Word64) : AluOut :=
  { val := sext32 (lo32 a * lo32 b), ov := !fitsSigned 32 ((lo32 a).toInt * (lo32 b).toInt) }

/-- The high 64 bits of an exact product. -/
def highOf (p : Int) : Word64 := BitVec.ofInt 64 (p / 2 ^ 64)
def fMulhs (a b : Word64) : Word64 := highOf (a.toInt * b.toInt)
def fMulhu (a b : Word64) : Word64 := highOf ((a.toNat : Int) * b.toNat)
def fMulhm (a b : Word64) : Word64 := highOf (a.toInt * b.toNat)

/-! Division: quotient truncated toward 0; by 0 the quotient is 0 and the remainder the dividend -/
def fQuos (a b : Word64) : AluOut :=
  if b = 0 then { val := 0, dz := true }
  else { val := BitVec.ofInt 64 (a.toInt.tdiv b.toInt), ov := !fitsSigned 64 (a.toInt.tdiv b.toInt) }
def fQuou (a b : Word64) : AluOut :=
  if b = 0 then { val := 0, dz := true } else { val := BitVec.ofNat 64 (a.toNat / b.toNat) }
def fRmds (a b : Word64) : AluOut :=
  if b = 0 then { val := a, dz := true } else { val := BitVec.ofInt 64 (a.toInt.tmod b.toInt) }
def fRmdu (a b : Word64) : AluOut :=
  if b = 0 then { val := a, dz := true } else { val := BitVec.ofNat 64 (a.toNat % b.toNat) }
def fQuos32 (a b : Word64) : AluOut :=
  if lo32 b = 0 then { val := 0, dz := true }
  else { val := sext32 (BitVec.ofInt 32 ((lo32 a).toInt.tdiv (lo32 b).toInt))
         ov := !fitsSigned 32 ((lo32 a).toInt.tdiv (lo32 b).toInt) }
def fQuou32 (a b : Word64) : AluOut :=
  if lo32 b = 0 then { val := 0, dz := true }
  else { val := sext32 (BitVec.ofNat 32 ((lo32 a).toNat / (lo32 b).toNat)) }
def fRmds32 (a b : Word64) : AluOut :=
  if lo32 b = 0 then { val := sext32 (lo32 a), dz := true }
  else { val := sext32 (BitVec.ofInt 32 ((lo32 a).toInt.tmod (lo32 b).toInt)) }
def fRmdu32 (a b : Word64) : AluOut :=
  if lo32 b = 0 then { val := sext32 (lo32 a), dz := true }
  else { val := sext32 (BitVec.ofNat 32 ((lo32 a).toNat % (lo32 b).toNat)) }

/-! Bit counts -/

/-- Leading zeros of the low `n` bits of a number. -/
def clzN : Nat → Nat → Nat
  | 0, _ => 0
  | n + 1, a => if a.testBit n then 0 else 1 + clzN n a

/-- Trailing zeros among `n` bits, counted from bit `i`. -/
def ctzN : Nat → Nat → Nat → Nat
  | 0, _, _ => 0
  | n + 1, i, a => if a.testBit i then 0 else 1 + ctzN n (i + 1) a

/-- One bits among the low `n` bits. -/
def popN : Nat → Nat → Nat
  | 0, _ => 0
  | n + 1, a => b2n (a.testBit n) + popN n a

def fBswap (a : Word64) : Word64 := BitVec.ofNat 64 (beNat (leBytes 8 a.toNat))

/-- CRC: the CRC-32C state `a [31:0]` updated with the bytes of `b`, least significant first. -/
def fCrc (a b : Word64) : Word64 :=
  BitVec.ofNat 64 (crcRun 0x82F63B78 (leBytes 8 b.toNat) (lo32 a).toNat)

/-- Set the sticky flags that a result sets (R379). -/
def stickFlags (st : Word64) (ov dz : Bool) : Word64 :=
  (if ov then st ||| 1 else st) ||| (if dz then 2 else 0)

end Sys2Proof.Machine
end

