-- ==== Sys2Proof/Machine/QueueBase.lean ====
section
/-!
DEFINITION. Access to the hardware queues and to the fields of a send descriptor (R73, R77, R85).
-/
namespace Sys2Proof.Machine

def queue (s : State) (qn : Nat) : Queue := sget {} s.qm.queues qn

def setQueue (qn : Nat) (f : Queue → Queue) (s : State) : State :=
  { s with qm := { s.qm with queues := smod {} s.qm.queues qn f } }

/-- Does a queue exist (R80)? -/
def qExists (q : Queue) : Bool := q.state != .unborn && q.state != .destroyed

/-- Is a queue on its way to DESTROYED with its work abandoned (R108)? -/
def dying (q : Queue) : Bool := q.forced && q.destroying.isSome

/-- Ring size. -/
def qSize (q : Queue) : Nat := 2 ^ q.log2

/-! Fields of the send descriptor (Table 03-4). -/
def dOPCODE (d : Nat) : Nat := fld d 7 0
def dSIGNAL (d : Nat) : Bool := bit d 8
def dFENCE (d : Nat) : Bool := bit d 9
def dORDER (d : Nat) : Bool := bit d 10
def dINDIRECT (d : Nat) : Bool := bit d 11
def dSOLICIT (d : Nat) : Bool := bit d 12
def dTCLASS (d : Nat) : Nat := fld d 18 16
def dCOLOUR (d : Nat) : Nat := fld d 20 19
def dDOMAIN (d : Nat) : Nat := fld d 63 48
def dDEST (d : Nat) : Nat := fld d 95 64
def dKEY (d : Nat) : Nat := fld d 127 96
def dUSER (d : Nat) : Nat := fld d 191 128
def dTARGET (d : Nat) : Nat := fld d 255 192
def dLOCAL (d : Nat) : Nat := fld d 319 256
def dLENGTH (d : Nat) : Nat := fld d 351 320
def dFRAGS (d : Nat) : Nat := fld d 367 352
def dOP0 (d : Nat) : Nat := fld d 447 384
def dOP1 (d : Nat) : Nat := fld d 511 448
def dIMM (d : Nat) : Nat := fld d 415 384

/-- The operation of an entry number. -/
def findOp (q : Queue) (entry : Nat) : Option SendOp := q.ops.find? fun o => o.n == entry

/-- The next operation to start: the oldest that has not started, where its FENCE allows it: every
earlier descriptor of the queue has retired (Table 03-4). -/
def nextOp (q : Queue) : Option SendOp :=
  match q.ops.find? fun o => !o.started && o.done.isNone with
  | none => none
  | some o =>
    if dFENCE o.desc && (match q.ops.head? with | some h => h.n != o.n | none => false) then none
    else some o

/-- Mark an operation as started. -/
def markStarted (qn entry : Nat) (s : State) : State :=
  setQueue qn (fun q => { q with
    ops := updFirst (fun o => o.n == entry) (fun o => { o with started := true }) q.ops }) s

/-- The descriptor of kind `p` that a start command finds at the front of a queue. -/
def startable (s : State) (qn : Nat) (p : Nat → Bool) : Option SendOp :=
  let q := queue s qn
  if q.type = qSEND && qExists q then
    match nextOp q with
    | some o => if p (dOPCODE o.desc) then some o else none
    | none => none
  else none

/-- An operation reaches its completion condition: QM retires it in ring order (R88). -/
def complete (qn entry : Nat) (c : Comp) (s : State) : State := later (.complete qn entry c) s

end Sys2Proof.Machine
end

