-- ==== Sys2Proof/Machine/Functions.lean ====
section
/-!
DEFINITION. Host functions: numbering, ranges, tenants, and when the module may issue requests for one
(R73, R148, R450 to R452).
-/
namespace Sys2Proof.Machine

/-- The link of a function (R73): FN 0 and 1 are the PFs; 2..257 the VFs of HL0; 258..513 of HL1. -/
def fnLink (fn : Nat) : Nat := if fn < 2 then fn else if fn < 258 then 0 else 1

/-! What configuration space says of a link (R448, R451): class code network controller, other; the SR-IOV
capability. -/
def classCode : Nat := 0x028000
def firstVfOffset : Nat := 1
def vfStride : Nat := 1
def initialVfs : Nat := 256
def totalVfs : Nat := 256

/-- The function number of a VF on its link: the PF is function 0 (R451). -/
def vfFunction (v : Nat) : Nat := firstVfOffset + v * vfStride

/-- Is a function a VF, and its VF number. -/
def fnIsVf (fn : Nat) : Bool := 2 ≤ fn
def fnVf (fn : Nat) : Nat := if fn < 258 then fn - 2 else fn - 258

def hostLink (s : State) (k : Nat) : HostLink := sget {} s.hl.links k
def hostFn (s : State) (fn : Nat) : HostFn := sget {} s.hl.fns fn

def setLink (k : Nat) (f : HostLink → HostLink) (s : State) : State :=
  { s with hl := { s.hl with links := smod {} s.hl.links k f } }

def setFn (fn : Nat) (f : HostFn → HostFn) (s : State) : State :=
  { s with hl := { s.hl with fns := smod {} s.hl.fns fn f } }

/-- A counter of Table 16-9. -/
def bumpFnBy (fn k n : Nat) (s : State) : State :=
  setFn fn (fun f => { f with counters := sset 0 f.counters k ((sget 0 f.counters k + n) % 2 ^ 64) }) s

def bumpFn (fn k : Nat) (s : State) : State := bumpFnBy fn k 1 s

/-- Is a function enabled (R451)?  VF Enable has no effect until management firmware runs (R513). -/
def fnEnabled (s : State) (fn : Nat) : Bool :=
  let l := hostLink s (fnLink fn)
  fn < 514 && l.up && (!fnIsVf fn || (l.vfEnable && fnVf fn < l.numVfs && s.rs.phase == .running))

/-- Are the BARs of a function served: enabled and not in a function-level reset (R454)? -/
def barsLive (s : State) (fn : Nat) : Bool :=
  fnEnabled s fn && !(hostFn s fn).flr && domOn s (dHL (fnLink fn))

/-- May the module issue a request for a function (R450, R488, R553)? -/
def hostOk (s : State) (fn : Nat) : Bool :=
  fnEnabled s fn && (hostFn s fn).bme && !(hostFn s fn).d3hot && domOn s (dHL (fnLink fn)) &&
    !s.pr.dmaOff

/-- The element that holds a per-function value: PF array, HL0 VF array, HL1 VF array. -/
def fnObj (s : State) (fn pf vf0 vf1 : Nat) : Nat :=
  if fn < 2 then rc s pf fn else if fn < 258 then rc s vf0 (fn - 2) else rc s vf1 (fn - 258)

/-- The queue range of a function: first QN and count; objects count blocks of 16 (R73). -/
def queueRange (s : State) (fn : Nat) : Nat × Nat :=
  (16 * fnObj s fn 0x7010 0x7011 0x7012, 16 * fnObj s fn 0x7014 0x7015 0x7016)

/-- Does a QN belong to a function's range? -/
def ownsQn (s : State) (fn qn : Nat) : Bool :=
  let (lo, n) := queueRange s fn
  lo ≤ qn && qn < lo + n

/-- The endpoint range of a function (R452). -/
def endpointRange (s : State) (fn : Nat) : Nat × Nat :=
  (fnObj s fn 0xA010 0xA011 0xA012, fnObj s fn 0xA014 0xA015 0xA016)

/-- Size of the MSI-X table (R466). -/
def msixSize (fn : Nat) : Nat := if fnIsVf fn then 64 else 2048

/-- Is a tenant permitted to a function (R148)? -/
def tenantOk (s : State) (fn t : Nat) : Bool :=
  let v := fnObj s fn 0x7810 0x7812 0x7813
  t != 0 && (fld v 15 0 == t || fld v 31 16 == t || fld v 47 32 == t || fld v 63 48 == t ||
    (fn < 2 && rcOn s 0x7811 fn))

/-- Is a QN an existing EVENT queue of a function? -/
def isEventQueue (s : State) (fn qn : Nat) : Bool :=
  let q := queue s qn
  q.type == qEQ && qExists q && q.fn == fn

end Sys2Proof.Machine
end

