-- ==== Sys2Proof/Machine/HostBase.lean ====
section
/-!
DEFINITION. Requests of the module on the host links, and MSI-X (R450, R466).
-/
namespace Sys2Proof.Machine

/-- A request TLP leaves on the link of a function (Table 22-5). -/
def countTlp (fn : Nat) (s : State) : State := bumpHost (fnLink fn) 0 1 s

/-- Bytes read from host memory for a function (Tables 16-9 and 22-5). -/
def countRead (fn n : Nat) (s : State) : State := bumpFnBy fn 6 n (bumpHost (fnLink fn) 2 n s)

/-- Bytes written to host memory for a function. -/
def countWrite (fn n : Nat) (s : State) : State := bumpFnBy fn 7 n (bumpHost (fnLink fn) 3 n s)

/-- The message of an MSI-X entry is sent. -/
def sendVector (fn v : Nat) (s : State) : State :=
  if !hostOk s fn then s
  else
    let e := sget {} (hostFn s fn).msix v
    emit (.msix fn v e.addr e.data) (bumpG15 3 1 (bumpFn fn 10 (countTlp fn s)))

/-- A cause raises a vector (R466): nothing while MSI-X Enable is 0; pending while masked. -/
def raiseVector (fn v : Nat) (s : State) : State :=
  let f := hostFn s fn
  if !f.msixEnable || !fnEnabled s fn || msixSize fn ≤ v then s
  else if f.msixMask || (sget {} f.msix v).masked then
    setFn fn (fun f => { f with msix := smod {} f.msix v fun e => { e with pending := true } }) s
  else sendVector fn v s

/-- Pending messages of unmasked entries go out, as PCI Express defines. -/
def flushVectors (fn : Nat) (s : State) : State :=
  let f := hostFn s fn
  if !f.msixEnable || f.msixMask then s
  else foldSt (fun e s =>
    if e.2.pending && !e.2.masked then
      sendVector fn e.1 (setFn fn (fun f => { f with
        msix := smod {} f.msix e.1 fun e => { e with pending := false } }) s)
    else s) f.msix s

/-- The largest payload and the largest read request of a link, in bytes (R448). -/
def mpsOf (s : State) (k : Nat) : Nat := 128 * 2 ^ (hostLink s k).maxPayload
def mrrsOf (s : State) (k : Nat) : Nat := 128 * 2 ^ (hostLink s k).maxRead

/-- Pieces of at most `m` bytes: offset and length; at least one. -/
def pieces (m n : Nat) : List (Nat × Nat) :=
  if n ≤ m then [(0, n)] else (rangeFrom 0 ((n + m - 1) / m)).map fun i => (i * m, min m (n - i * m))

/-- The requests that are outstanding on a link. -/
def outstanding (s : State) (k : Nat) : List HostPart :=
  s.tu.reads.flatMap fun (e : Nat × HostRead) =>
    if fnLink e.2.fn = k then e.2.parts.filter fun p => p.tag.isSome && p.got.isNone else []

/-- The first tag at or after `t` that no outstanding request has. -/
def freeTag (used : List (Option Nat)) : Nat → Nat → Nat
  | 0, t => t
  | n + 1, t => if used.contains (some t) then freeTag used n ((t + 1) % 16384) else t

/-- The request TLP of one part of a read. -/
def requestOut (h : HostRead) (p : HostPart) (tag : Nat) : Out :=
  match h.purpose with
  | .data a => match a.atomic with
    | some op => .hostAtomic tag h.fn h.addr op
    | none => .hostRead tag h.fn (h.addr + p.off) p.len
  | _ => .hostRead tag h.fn (h.addr + p.off) p.len

/-- The first read of a link with a request that is not issued yet. -/
def nextUnsent (s : State) (k : Nat) : Option (Nat × HostRead) :=
  s.tu.reads.find? fun (e : Nat × HostRead) =>
    fnLink e.2.fn == k && e.2.parts.any fun p => p.tag.isNone && p.got.isNone

/-- Issue the requests of a link that wait, in order, while fewer than 4 096 are outstanding (R448). -/
def sendReads (k : Nat) : Nat → State → State
  | 0, s => s
  | n + 1, s =>
    match nextUnsent s k with
    | none => s
    | some (key, h) =>
      if 4096 ≤ (outstanding s k).length then s
      else
        let unsent (p : HostPart) : Bool := p.tag.isNone && p.got.isNone
        let setParts (f : HostPart → HostPart) (s : State) : State :=
          { s with tu := { s.tu with
            reads := mput s.tu.reads key { h with parts := updFirst unsent f h.parts } } }
        if !hostOk s h.fn then
          sendReads k n (later (.readEnds key) (setParts (fun p => { p with got := some .error }) s))
        else match h.parts.find? unsent with
          | none => s
          | some p =>
            let used := (outstanding s k).map fun p => p.tag
            let t := freeTag used 4096 (hostLink s k).nextTag
            let s := setLink k (fun l => { l with nextTag := (t + 1) % 16384 })
              (setParts (fun p => { p with tag := some t }) s)
            sendReads k n (emit (requestOut h p t) (countTlp h.fn s))

/-- Requests of a link that are not issued yet. -/
def unsentOf (s : State) (k : Nat) : Nat :=
  sumBy (fun (e : Nat × HostRead) =>
    if fnLink e.2.fn = k then (e.2.parts.filter fun p => p.tag.isNone && p.got.isNone).length else 0) s.tu.reads

/-- Go on with the requests of a link. -/
def pumpReads (k : Nat) (s : State) : State := sendReads k (unsentOf s k) s

/-- A read begins: it is cut into requests of at most the largest size; an AtomicOp is one. -/
def issueRead (r : HostRead) (s : State) : State :=
  let k := fnLink r.fn
  let whole := match r.purpose with
    | .data a => a.atomic.isSome
    | _ => false
  let cut := if whole then [(0, r.len)] else pieces (mrrsOf s k) r.len
  let r := { r with parts := cut.map fun c => { off := c.1, len := c.2 } }
  pumpReads k { s with tu := { s.tu with
    nextRead := inc 32 s.tu.nextRead
    reads := mput s.tu.reads s.tu.nextRead r } }

/-- Bytes are written to host memory, in TLPs of at most the largest payload (R448).  Relaxed Ordering is set on
data writes, where it is enabled. -/
def issueWrite (fn addr : Nat) (bs : List Byte) (poison data : Bool) (s : State) : State :=
  let k := fnLink fn
  foldSt (fun (c : Nat × Nat) s =>
    emit (.hostWrite fn (addr + c.1) (slice bs c.1 c.2) poison (data && (hostLink s k).relaxed)) (countTlp fn s))
    (pieces (mpsOf s k) bs.length) (countWrite fn bs.length s)

/-- A zero-length read on a host link (R165, R406). -/
def zeroRead (link : Nat) (c : Cont) (s : State) : State :=
  if !hostOk s link then later (.result c .pcieError) s
  else issueRead { fn := link, addr := 0, len := 0, purpose := .zero c } s

end Sys2Proof.Machine
end

