-- ==== Sys2Proof/Machine/TransOps.lean ====
section
/-!
DEFINITION. The translation unit: caches, walks, faults and fault records, invalidation, address
spaces (07_translation.md).
-/
namespace Sys2Proof.Machine

def space (s : State) (asid : Nat) : AddrSpace := sget {} s.tu.spaces asid

def setSpace (asid : Nat) (f : AddrSpace → AddrSpace) (s : State) : State :=
  { s with tu := { s.tu with spaces := smod {} s.tu.spaces asid f } }

/-- May a function name an address space with a tenant (R211)? -/
def asidOk (s : State) (fn asid tenant : Nat) : Bool :=
  let a := space s asid
  a.state == .live && a.fn == fn && a.tenant == tenant

/-- Queues and regions that use an address space (R214). -/
def asidUsers (s : State) (asid : Nat) : Nat :=
  (s.qm.queues.filter fun q => qExists q.2 && q.2.asid == asid).length
    + (s.ra.regions.filter fun r => r.2.state != .free && r.2.asid == asid).length

def accReads (a : Acc) : Bool := a.data.isNone || a.atomic.isSome
def accWrites (a : Acc) : Bool := a.data.isSome || a.atomic.isSome

/-! ### Faults and fault records (R226 to R229) -/

def flRESERVED : Nat := 8
def flHIGH : Nat := 16
def flRIGHTS : Nat := 32

def setRec (k : Nat) (f : FaultRec → FaultRec) (s : State) : State :=
  { s with tu := { s.tu with recs := smod {} s.tu.recs k f } }

/-- Every access that waits on a record, is about to be translated again, or has a read outstanding. -/
def accessesUnderWay (s : State) : List Acc :=
  s.tu.recs.flatMap (fun (e : Nat × FaultRec) => e.2.waiters) ++
    s.tu.chains.flatMap (fun (e : Nat × List Acc) => e.2) ++
    s.tu.reads.flatMap fun (e : Nat × HostRead) => match e.2.purpose with
      | .walk a _ | .data a => [a]
      | .zero _ => []

/-- Does an access with one of the follow-ups given wait on a record? -/
def waitsOn (s : State) (p : Cont → Bool) : Bool :=
  s.tu.recs.any fun r => r.2.waiters.any fun a => p a.cont

/-- Bytes that chunks of arrived data take. -/
def chunkBytes (l : List Chunk) : Nat := sumBy (fun c => 64 + c.data.length) l

/-- Does the receive buffer of a placing wait? -/
def placingWaits (s : State) (pid : Nat) : Bool := waitsOn s fun c => c == .recvPlace pid

/-- Bytes held in the fault buffer: waiting packets, and arrived data for waiting receive buffers
(R168, R227). -/
def faultBufferUse (s : State) : Nat :=
  sumBy (fun r => sumBy (fun a => a.held) r.2.waiters) s.tu.recs
    + sumBy (fun (e : Nat × List Acc) => sumBy (fun a => a.held) e.2) s.tu.chains
    + sumBy (fun (e : Nat × Placing) => if placingWaits s e.1 then chunkBytes e.2.queue else 0) s.mu.placing
    + sumBy (fun (e : Nat × FlowTgt) => sumBy (fun (m : RMsg) =>
        if waitsOn s fun c => c == .sendPlace e.1 m.rsn then chunkBytes m.waitQ else 0) e.2.msgs) s.ra.tgt

/-- Does the fault buffer lack the room for what has arrived for a receive or a CSEND whose access would begin
to wait (R227)? -/
def bufferFull (s : State) (a : Acc) : Bool :=
  let n := match a.cont with
    | .recvPlace pid => (match mget? s.mu.placing pid with | some x => chunkBytes x.queue | none => 0)
    | .sendPlace f rsn => (match mget? s.ra.tgt f with
      | some x => sumBy (fun (m : RMsg) => if m.rsn = rsn then chunkBytes m.waitQ else 0) x.msgs
      | none => 0)
    | _ => 0
  n != 0 && 4194304 < faultBufferUse s + n

/-- FAULT_ID of a slot. -/
def faultId (slot : Nat) (r : FaultRec) : Nat := r.seq * 4096 + slot

/-- The FAULT event. -/
def faultEvent (a : Acc) (kind level flags id : Nat) (s : State) : State :=
  postEvent (space s a.asid).eqn 0x0100 (a.asid * 65536 + id) (kind * 4096 + level * 256 + flags) a.addr s

/-- A record is released: the next use of its slot has the next SEQ (R228). -/
def releaseRec (k : Nat) (s : State) : State :=
  setRec k (fun r => { seq := inc 4 r.seq }) s

/-- How long an access of its class waits: a packet counts from its first stall (R168, R227). -/
def waitDeadline (a : Acc) (s : State) : Nat :=
  if a.cls == .region then (if a.deadline = 0 then ticks s + rc s 0x7850 0 else a.deadline)
  else ticks s + rc s 0x8040 0

/-- The access fails at once, or is refused as under RESEND. -/
def failAcc (a : Acc) (kind level flags : Nat) (s : State) : State :=
  let r : AccResult := if a.cls == .region then .retry kind else .fault kind
  later (.result a.cont r) (faultEvent a kind level flags 0 s)

/-- The translation of an access is over, well or badly: the released waiter that follows it is next. -/
def followOn (a : Acc) (s : State) : State :=
  match a.chain with
  | some c => later (.walkNext c) s
  | none => s

/-- An access waits: it joins a record, or opens one (R228). -/
def holdAcc (a : Acc) (kind level flags : Nat) (s : State) : State :=
  let page := a.addr / 4096
  let s := when_ (a.cls == .region && a.deadline = 0) (bump 0x7863 0) s
  let a := { a with
    deadline := waitDeadline a s
    rights := if a.cls == .region && !a.kept then (space s a.asid).rights else a.rights
    kept := a.kept || kind == 4
    fresh := false
    chain := none }
  let same (r : FaultRec) : Bool := r.asid == a.asid && r.page == page && r.kind == kind
  match s.tu.recs.find? fun e => same e.2 with
  | some e => setRec e.1 (fun r => { r with waiters := r.waiters ++ [a] }) s
  | none =>
    let free := (rangeFrom 0 4096).filter fun k => (sget {} s.tu.recs k).kind == 0
    if free.isEmpty then
      let s := bump 0x8055 0 s
      let recent : Bool := match (space s a.asid).fullAt with
        | some t => ticks s < t + ticksOf 1 1000
        | none => false
      let s := if recent then s
        else postEvent (space s a.asid).eqn 0x0102 (a.asid * 65536) 0 a.addr
          (setSpace a.asid (fun x => { x with fullAt := some (ticks s) }) s)
      failAcc a kind level flags s
    else
      let (k, s) := draw free.length s
      let slot := free.getD k 0
      let flags := flags + 4
      let s := setRec slot (fun r => { r with
        asid := a.asid
        page := page
        kind := kind
        level := level
        flags := flags
        addr := a.addr
        waiters := [a] }) s
      faultEvent a kind level flags (faultId slot (sget {} s.tu.recs slot)) s

/-- An access in an address space that is not LIVE fails at once, without record or event (R588). -/
def deadSpace (a : Acc) (s : State) : State :=
  later (.result a.cont (.fault 1)) (bump 0x8050 1 (followOn a s))

/-- An access cannot be translated (Table 07-9). -/
def accFault (a : Acc) (kind level flags : Nat) (s : State) : State :=
  if (space s a.asid).state != .live then deadSpace a s
  else
  let s := bump 0x8050 kind (followOn a s)
  let flags := flags + b2n (accWrites a) + 2 * b2n (a.cls == .region)
  match a.cls with
  | .ring | .adminResult => failAcc a kind level flags s
  | .localBuf | .engine =>
    if (space s a.asid).failPolicy || bufferFull s a then failAcc a kind level flags s else holdAcc a kind level flags s
  | .region =>
    if !a.waits then failAcc a kind level flags s
    else if 4194304 < faultBufferUse s + a.held then
      let s := bump 0x7864 0 s
      let k := a.region.getD 0
      let r := sget {} s.ra.regions k
      let recent : Bool := match r.fullAt with
        | some t => ticks s < t + ticksOf 1 1000
        | none => false
      let src := match a.cont with
        | .place p _ | .getRead p _ _ _ | .atomic p => p.source
        | _ => 0
      let s := if recent then s
        else postEvent r.eqn 0x0301 k 0 src { s with ra := { s.ra with
          regions := smod {} s.ra.regions k fun x => { x with fullAt := some (ticks s) } } }
      failAcc a kind level flags s
    else holdAcc a kind level flags s

/-! ### The access itself -/

/-- The access is performed at a host address (R450); an AtomicOp only while AtomicOp Requester Enable is set
(R449, Table 16-11). -/
def performAcc (a : Acc) (host : Nat) (s : State) : State :=
  let fn := (space s a.asid).fn
  let s := followOn a s
  if !hostOk s fn then later (.result a.cont .pcieError) s
  else if a.probe then later (.result a.cont (.ok [])) s
  else if a.atomic.isSome && !(hostLink s (fnLink fn)).atomicReq then later (.result a.cont .pcieError) s
  else match a.atomic, a.data with
    | none, some bs =>
      -- writes to a ring are entries and their PHASE, which are never relaxed (R94, R448)
      let data := a.cls != .ring && a.cls != .adminResult
      later (.result a.cont (.ok [])) (issueWrite fn host bs a.poison data s)
    | _, _ => issueRead { fn := fn, addr := host, len := a.len, purpose := .data a } s

/-- Key rights in force for an access (Table 07-9). -/
def accRights (s : State) (a : Acc) : Nat :=
  match a.cls with
  | .ring | .adminResult => 0
  | .region => if a.kept then a.rights else (space s a.asid).rights
  | .localBuf | .engine => a.rights

/-- The second, third and fourth check of R218: fault kind and flags. -/
def leafCheck (mark : Bool) (rights entry : Nat) (rd wr : Bool) : Option (Nat × Nat) :=
  let k := fld entry 63 60
  if (rd && !bit entry 1) || (wr && !bit entry 2) then some (1, flRIGHTS)
  else if bit rights (2 * k) || (wr && bit rights (2 * k + 1)) then some (4, 0)
  else if mark && (!bit entry 5 || (wr && !bit entry 6)) then some (3, 0)
  else none

/-- The leaf of the page is known: check it and go on. -/
def useLeaf (a : Acc) (entry : Nat) (s : State) : State :=
  match leafCheck (space s a.asid).mark (accRights s a) entry (accReads a) (accWrites a) with
  | some (kind, flags) => accFault a kind 0 flags s
  | none => performAcc a (fld entry 55 12 * 4096 + a.addr % 4096) s

/-! ### Caches (R219 to R221) -/

/-- The slice of an access (R220). -/
def tlbSlice (asid page : Nat) : Nat := Nat.xor (asid % 8) (page / 512 % 8)

def slotCovers (asid page : Nat) (t : TlbSlot) : Bool :=
  t.asid == asid && t.page ≤ page && page < t.page + t.pages

/-- The slot that serves a page. -/
def tlbSlotOf (s : State) (asid page : Nat) : Option TlbSlot :=
  (sget [] s.tu.tlb (tlbSlice asid page)).find? (slotCovers asid page)

/-- The entry of a page as a slot gives it: ADDR moved to the page's place in the block. -/
def slotEntry (t : TlbSlot) (page : Nat) : Nat :=
  setFld t.entry 55 12 (fld t.entry 55 12 + (page - t.page))

def tlbFind (s : State) (asid page : Nat) : Option Nat := (tlbSlotOf s asid page).map fun t => slotEntry t page

/-- Put an entry into a cache of `n` slots: the slot is chosen at random. -/
def cachePut {α : Type} (n : Nat) (x : α) (l : List α) (s : State) : List α × State :=
  let (k, s) := draw n s
  (if k < l.length then updAt (fun _ => x) l k else l ++ [x], s)

/-- Pages that a leaf covers (R219): the hint is ignored where ADDR is out of place. -/
def leafPages (entry page : Nat) : Nat :=
  let n := match fld entry 59 58 with | 1 => 16 | 2 => 512 | _ => 1
  if fld entry 55 12 % n = page % n then n else 1

/-- Cache a leaf. -/
def tlbPut (asid page entry : Nat) (s : State) : State :=
  let n := leafPages entry page
  let t : TlbSlot :=
    { asid := asid, page := page - page % n, pages := n
      entry := setFld entry 55 12 (fld entry 55 12 - page % n) }
  let k := tlbSlice asid page
  let (l, s) := cachePut 1024 t (sget [] s.tu.tlb k) s
  { s with tu := { s.tu with tlb := sset [] s.tu.tlb k l } }

/-- Slots of the walk cache of a level. -/
def walkSlots (level : Nat) : Nat := if level = 3 then 64 else if level = 2 then 256 else 1024

/-- The prefix that an entry of a level serves: 512 GiB, 1 GiB, 2 MiB. -/
def walkPrefix (level addr : Nat) : Nat := addr / 2 ^ (12 + 9 * level)

def walkPut (asid level addr entry : Nat) (s : State) : State :=
  let w : WalkSlot := { asid := asid, level := level, pfx := walkPrefix level addr, entry := entry }
  let (l, s) := cachePut (walkSlots level) w (sget [] s.tu.walks level) s
  { s with tu := { s.tu with walks := sset [] s.tu.walks level l } }

def walkFind (s : State) (asid level addr : Nat) : Option Nat :=
  match (sget [] s.tu.walks level).find? fun w =>
      w.asid == asid && w.pfx == walkPrefix level addr with
  | some w => some w.entry
  | none => none

/-! ### Walks (R216 to R218) -/

/-- Read the entry of a level from its table. -/
def readEntry (a : Acc) (level table : Nat) (s : State) : State :=
  let fn := (space s a.asid).fn
  let addr := table + 8 * fld a.addr (20 + 9 * level) (12 + 9 * level)
  if !hostOk s fn then accFault a 2 level 0 s
  else issueRead { fn := fn, addr := addr, len := 8, purpose := .walk a level } (bump 0x8053 0 s)

/-- The table that an upper-level entry points to. -/
def nextTable (entry : Nat) : Nat := fld entry 55 12 * 4096

/-- A walk starts from the deepest level found in the caches (R221). -/
def walkFrom (a : Acc) (s : State) : State :=
  match walkFind s a.asid 1 a.addr with
  | some e => readEntry { a with top := 1 } 0 (nextTable e) s
  | none => match walkFind s a.asid 2 a.addr with
    | some e => readEntry { a with top := 2 } 1 (nextTable e) s
    | none => match walkFind s a.asid 3 a.addr with
      | some e => readEntry { a with top := 3 } 2 (nextTable e) s
      | none => readEntry { a with top := 3 } 3 (space s a.asid).root s

/-- Checks before any table: a LIVE address space (R588), and a translatable address (R216). -/
def preCheck (a : Acc) (go : State → State) (s : State) : State :=
  if (space s a.asid).state != .live then deadSpace a s
  else if 2 ^ 48 ≤ a.addr then accFault a 1 0 flHIGH s
  else go s

/-- An access to host memory starts. -/
def startAcc (a : Acc) (s : State) : State :=
  preCheck a (fun s =>
    match tlbSlotOf s a.asid (a.addr / 4096) with
    | some t => useLeaf { a with via := (t.page, t.pages), top := 0 } (slotEntry t (a.addr / 4096)) (bump 0x8051 0 s)
    | none => walkFrom a (bump 0x8052 0 s)) s

/-- A walk of the tables as they stand (R230); it stays one when an INVALIDATE restarts it. -/
def freshWalk (a : Acc) (s : State) : State :=
  preCheck a (fun s => readEntry { a with top := 3, fresh := true } 3 (space s a.asid).root s) s

/-- The next released waiter of a chain is translated. -/
def walkNext (c : Nat) (s : State) : State :=
  match mget? s.tu.chains c with
  | some (a :: r) =>
    freshWalk { a with chain := some c } { s with tu := { s.tu with
      chains := if r.isEmpty then mdel s.tu.chains c else mput s.tu.chains c r } }
  | _ => s

/-- An entry of a level has been read. -/
def entryRead (a : Acc) (level entry : Nat) (s : State) : State :=
  let live := (space s a.asid).state == .live
  let reserved := if level = 0 then
      fld entry 57 56 != 0 || fld entry 11 7 != 0 || fld entry 4 3 != 0 || fld entry 59 58 == 3
    else fld entry 63 56 != 0 || fld entry 11 1 != 0
  if !bit entry 0 then accFault a 1 level 0 s
  else if reserved then accFault a 1 level flRESERVED s
  else if level = 0 then
    let keep := live && !((space s a.asid).mark && !bit entry 5)
    let n := leafPages entry (a.addr / 4096)
    useLeaf { a with via := (a.addr / 4096 / n * n, n) } entry (when_ keep (tlbPut a.asid (a.addr / 4096) entry) s)
  else
    readEntry a (level - 1) (nextTable entry) (when_ live (walkPut a.asid level a.addr entry) s)

/-- A read has ended, `key` its number: with all its data, or in error. -/
def readCompletion (key : Nat) (r : HostResult) (s : State) : State :=
  match mget? s.tu.reads key with
  | none => s
  | some h =>
    let s := { s with tu := { s.tu with reads := mdel s.tu.reads key } }
    let s := match r with | .data bs _ => countRead h.fn bs.length s | .error => s
    match h.purpose with
    | .zero c => later (.result c (match r with | .error => .pcieError | _ => .ok [])) s
    | .data a =>
      later (.result a.cont (match r with
        | .error => .pcieError
        | .data bs true => .poison bs
        | .data bs false => .ok bs)) s
    | .walk a level =>
      if h.restart then (if a.fresh then freshWalk a s else startAcc a s)
      else match r with
        | .data bs false => entryRead a level (leNat bs) s
        | _ => accFault a 2 level 0 s

/-- How a read whose requests have all ended ends: in error if one of them did, else with the data of all of
them in order. -/
def joinResults : List HostPart → HostResult
  | [] => .data [] false
  | p :: r => match p.got, joinResults r with
    | some (.data a x), .data b y => .data (a ++ b) (x || y)
    | _, _ => .error

/-- One of the requests of a read has ended. -/
def partEnds (key : Nat) (s : State) : State :=
  match mget? s.tu.reads key with
  | none => s
  | some h => if h.parts.all fun p => p.got.isSome then readCompletion key (joinResults h.parts) s else s

/-! ### Commands (R223 to R225, R230) -/

/-- Do two ranges of pages overlap? -/
def overlap (a na b nb : Nat) : Bool := a < b + nb && b < a + na

/-- INVALIDATE takes its entries away, and notes the reads that must finish first. -/
def invalidate (issuer asid token : Nat) (tlb walk all : Bool) (pages page : Nat) (s : State) : State :=
  let hit (p n : Nat) : Bool := all || overlap page pages p n
  let s := if tlb then { s with tu := { s.tu with
      tlb := smapv [] (fun _ l => l.filter fun t => !(t.asid == asid && hit t.page t.pages)) s.tu.tlb } }
    else s
  let s := if walk then { s with tu := { s.tu with
      walks := smapv [] (fun _ l => l.filter fun w =>
        !(w.asid == asid && hit (w.pfx * 512 ^ w.level) (512 ^ w.level))) s.tu.walks } }
    else s
  -- upper-level entries in scope among those of a walk; the leaf of one in progress may serve 2 MiB
  let upper (a : Acc) : Bool := walk && (rangeFrom 1 a.top).any fun l =>
    hit (a.addr / 4096 / 512 ^ l * 512 ^ l) (512 ^ l)
  let redo (a : Acc) : Bool := a.asid == asid && ((tlb && hit (a.addr / 4096 / 512 * 512) 512) || upper a)
  let s := { s with tu := { s.tu with
    reads := s.tu.reads.map fun (e : Nat × HostRead) =>
      match e.2.purpose with
      | .walk a _ => (e.1, { e.2 with restart := e.2.restart || redo a })
      | _ => e } }
  let waits := s.tu.reads.filter fun (e : Nat × HostRead) =>
    match e.2.purpose with
    | .walk a _ => redo a
    | .data a => a.asid == asid && ((tlb && hit a.via.1 a.via.2) || upper a)
    | .zero _ => false
  { s with tu := { s.tu with
    invals := s.tu.invals ++
      [{ issuer := issuer, asid := asid, token := token, waitTags := waits.map fun e => e.1 }] } }

/-- The record that ASID and FAULT_ID name. -/
def recOf (s : State) (asid id : Nat) : Option (Nat × FaultRec) :=
  let k := id % 4096
  let r := sget {} s.tu.recs k
  if r.kind != 0 && r.asid == asid && r.seq == id / 4096 then some (k, r) else none

/-- RESUME (R230): the page's TLB slot goes, and every waiter is translated again.  Packets of a region are
placed in their arrival order (R168): each is translated once the one before it has been. -/
def faultResume (asid id : Nat) (s : State) : State :=
  match recOf s asid id with
  | none => bump 0x8054 0 s
  | some (k, r) =>
    let i := tlbSlice asid r.page
    let s := { s with tu := { s.tu with
      tlb := smod [] s.tu.tlb i fun l => l.filter fun t => !slotCovers asid r.page t } }
    let packets := r.waiters.filter fun a => a.cls == .region
    let c := s.tu.nextChain
    let s := foldSt freshWalk (r.waiters.filter fun a => a.cls != .region) (releaseRec k s)
    if packets.isEmpty then s
    else walkNext c { s with tu := { s.tu with nextChain := c + 1, chains := mput s.tu.chains c packets } }

/-- FAIL (R230). -/
def faultFail (asid id : Nat) (s : State) : State :=
  match recOf s asid id with
  | none => bump 0x8054 0 s
  | some (k, r) =>
    foldSt (fun (a : Acc) s => later (.result a.cont (.fault r.kind)) s) r.waiters (releaseRec k s)

/-! Fields of a translation command (Table 07-7). -/
def tcOP (w : Nat) : Nat := fld w 127 120
def tcASID (w : Nat) : Nat := fld w 119 104
def tcTOKEN (w : Nat) : Nat := fld w 103 88
def tcPAGES (w : Nat) : Nat := fld w 83 64
def tcADDR (w : Nat) : Nat := fld w 47 12

/-- Is a command valid (R223)?  Issuer 1023 is the management port. -/
def transValid (s : State) (c : TransCmd) : Bool :=
  let w := c.word
  let sp := space s (tcASID w)
  let mine := sp.state == .live && (c.issuer == 1023 || sp.fn == c.issuer % 1024)
  if tcOP w = 1 then
    mine && !bit w 84 && fld w 63 48 == 0 && fld w 11 0 == 0 && (bit w 87 || bit w 86) &&
      tcTOKEN w != 0xFFFF &&
      (if bit w 85 then tcPAGES w == 0 && tcADDR w == 0
       else tcPAGES w != 0 && tcADDR w + tcPAGES w ≤ 2 ^ 36)
  else (tcOP w == 2 || tcOP w == 3) && mine && fld w 87 0 == 0

/-- INVALIDATEs of an issuer in progress. -/
def invalsOf (s : State) (issuer : Nat) : List Inval := s.tu.invals.filter fun v => v.issuer == issuer

/-- May a command take effect now (R225)? -/
def transReady (s : State) (c : TransCmd) : Bool :=
  let n := (invalsOf s c.issuer).length
  if tcOP c.word = 1 then n < 16 else n == 0

/-- A command takes effect. -/
def transEffect (c : TransCmd) (s : State) : State :=
  let w := c.word
  if tcOP w = 1 then
    invalidate c.issuer (tcASID w) (tcTOKEN w) (bit w 87) (bit w 86) (bit w 85) (tcPAGES w) (tcADDR w) s
  else if tcOP w = 2 then faultResume (tcASID w) (tcTOKEN w) s
  else faultFail (tcASID w) (tcTOKEN w) s

/-- A translation command arrives: taken in issue order, or held (R223, R225). -/
def transCommand (issuer word : Nat) (s : State) : State :=
  let c : TransCmd := { issuer := issuer, word := word }
  if !transValid s c then bump 0x8021 0 s
  else if s.tu.held.any (fun h => h.issuer == issuer) || !transReady s c then
    { s with tu := { s.tu with held := s.tu.held ++ [c] } }
  else transEffect c s

/-- The held commands of an issuer that may go on do so, at most `n`.  One that is not valid any more is
discarded when its turn comes (R223). -/
def releaseHeld (issuer : Nat) : Nat → State → State
  | 0, s => s
  | n + 1, s =>
    match s.tu.held.find? fun h => h.issuer == issuer with
    | none => s
    | some c =>
      if transReady s c then
        releaseHeld issuer n ((if transValid s c then transEffect c else bump 0x8021 0) { s with tu := { s.tu with
          held := eraseFirst (fun h => h.issuer == issuer) s.tu.held } })
      else s

/-- The oldest INVALIDATE of an issuer completes, once its reads are over (R224). -/
def invalidateDone (issuer : Nat) (s : State) : State :=
  match s.tu.invals.find? fun v => v.issuer == issuer with
  | none => s
  | some v =>
    if v.waitTags.any fun t => (mget? s.tu.reads t).isSome then s
    else
      let s := { s with tu := { s.tu with invals := eraseFirst (fun v => v.issuer == issuer) s.tu.invals } }
      let s := bump 0x8056 0 s
      let sp := space s v.asid
      let s := if sp.state == .free then s
        else postEvent sp.eqn 0x0101 (v.asid * 65536 + v.token) 0 0 s
      releaseHeld issuer s.tu.held.length s

/-! ### Address spaces (R212 to R215) -/

/-- Discard every cached entry of an address space. -/
def discardCaches (asid : Nat) (s : State) : State :=
  { s with tu := { s.tu with
    tlb := smapv [] (fun _ l => l.filter fun t => t.asid != asid) s.tu.tlb
    walks := smapv [] (fun _ l => l.filter fun w => w.asid != asid) s.tu.walks } }

/-- An address space leaves LIVE. -/
def closeSpace (asid : Nat) (s : State) : State :=
  setSpace asid (fun a => { a with state := .closing }) (discardCaches asid s)

/-- Are the queues and regions of a function that was reset or moved gone (Table 07-2): does no address space of
it that is to close have a user? -/
def fnGone (s : State) (fn : Nat) : Bool :=
  s.tu.spaces.all fun e => !(e.2.fn == fn && e.2.dying && e.2.state == .live) || asidUsers s e.1 == 0

/-- The address spaces of a function that was reset or moved close once its queues and regions are gone. -/
def closeDying (s : State) : State :=
  foldSt (fun e s =>
    if e.2.dying && e.2.state == .live && fnGone s e.2.fn then closeSpace e.1 s else s) s.tu.spaces s

/-- Is an address-space command valid (R213)?  `writer`: the function of the mailbox, if any. -/
def asValid (s : State) (writer : Option Nat) (v : Nat) : Bool :=
  let action := fld v 255 248
  let asid := fld v 247 232
  let fn := fld v 231 222
  let tenant := fld v 221 206
  let eqn := fld v 205 186
  let a := space s asid
  let who := match writer with | some f => f == fn | none => true
  let resv := fld v 183 160 == 0 && fld v 127 120 == 0 && fld v 63 0 == 0
  let common := who && resv && fnEnabled s fn
  let named := tenantOk s fn tenant && isEventQueue s fn eqn && (queue s eqn).state == .ready &&
    fld v 119 64 % 4096 == 0
  if action = 1 then common && named && a.state == .free
  else if action = 3 then common && named && a.state == .live && a.fn == fn && a.tenant == tenant
  else if action = 2 then
    common && fld v 221 184 == 0 && fld v 159 128 == 0 && fld v 119 64 == 0 && a.state == .live &&
      a.fn == fn && asidUsers s asid == 0
  else false

/-- The address-space command (Table 07-1, Table 07-2). -/
def asCommand (writer : Option Nat) (v : Nat) (s : State) : State :=
  if !asValid s writer v then bump 0x8011 0 s
  else
    let asid := fld v 247 232
    let rec_ (a : AddrSpace) : AddrSpace :=
      { a with
        eqn := fld v 205 186
        failPolicy := bit v 185
        mark := bit v 184
        rights := fld v 159 128
        root := fld v 119 64 }
    match fld v 255 248 with
    | 1 =>
      setSpace asid (fun _ => rec_ { state := .live, fn := fld v 231 222, tenant := fld v 221 206 })
        (discardCaches asid s)
    | 3 =>
      let moved := (space s asid).root != fld v 119 64
      let s := setSpace asid rec_ s
      if moved then invalidate (match writer with | some fn => 1024 + fn | none => 1023) asid 0xFFFF true true true 0 0 s else s
    | _ => closeSpace asid s

/-- Does a walk or an access of an address space go on? -/
def asidBusy (s : State) (asid : Nat) : Bool :=
  s.tu.reads.any (fun e => match e.2.purpose with
    | .walk a _ | .data a => a.asid == asid
    | .zero _ => false) ||
  s.tu.recs.any (fun e => e.2.kind != 0 && e.2.asid == asid) ||
  s.tu.chains.any fun (e : Nat × List Acc) => e.2.any fun a => a.asid == asid

/-- CLOSING ends. -/
def asCloseComplete (asid : Nat) (s : State) : State :=
  if (space s asid).state == .closing && !asidBusy s asid then setSpace asid (fun _ => {}) s else s

/-- FAULTS of an address space. -/
def asidFaults (s : State) (asid : Nat) : Nat :=
  (s.tu.recs.filter fun e => e.2.kind != 0 && e.2.asid == asid).length

/-- A status entry (Table 07-3). -/
def asEntry (s : State) (asid : Nat) : Nat :=
  let a := space s asid
  let st := match a.state with | .free => 0 | .live => 1 | .closing => 2
  st * 2 ^ 254 + b2n a.mark * 2 ^ 253 + b2n a.failPolicy * 2 ^ 252 + a.fn * 2 ^ 242
    + a.tenant * 2 ^ 226 + a.eqn * 2 ^ 206 + asidUsers s asid * 2 ^ 184
    + asidFaults s asid * 2 ^ 171 + a.rights * 2 ^ 128 + a.root * 2 ^ 64

/-- A pending record as 0x8030 shows it (Table 07-14). -/
def recEntry (s : State) (k : Nat) : Nat :=
  let r := sget {} s.tu.recs k
  if r.kind = 0 then 0
  else faultId k r * 2 ^ 112 + r.asid * 2 ^ 96 + r.kind * 2 ^ 92 + r.level * 2 ^ 88 + r.flags * 2 ^ 80
    + sat 16 r.waiters.length * 2 ^ 64 + r.addr % 2 ^ 64

/-! ### Waiters -/

/-- Take waiters out of their records and of the chains of released ones; an empty record is released
(R228). -/
def dropWaiters (p : Acc → Bool) (s : State) : State :=
  let rest (e : Nat × List Acc) : Option (Nat × List Acc) :=
    let l := e.2.filter fun a => !p a
    if l.isEmpty then none else some (e.1, l)
  let s := { s with tu := { s.tu with chains := s.tu.chains.filterMap rest } }
  foldSt (fun e s =>
    if e.2.kind != 0 && e.2.waiters.any p then
      let l := e.2.waiters.filter fun a => !p a
      if l.isEmpty then releaseRec e.1 s else setRec e.1 (fun r => { r with waiters := l }) s
    else s) s.tu.recs s

/-- The first waiter of a record that satisfies `p`. -/
def firstDue (s : State) (k : Nat) (p : Acc → Bool) : Option Acc :=
  let r := sget {} s.tu.recs k
  if r.kind = 0 then none else r.waiters.find? fun a => p a && a.deadline ≤ ticks s

/-- One waiter leaves its record. -/
def takeWaiter (k : Nat) (p : Acc → Bool) (s : State) : State :=
  let l := eraseFirst p (sget {} s.tu.recs k).waiters
  if l.isEmpty then releaseRec k s else setRec k (fun r => { r with waiters := l }) s

/-- A local-buffer access has waited its limit: it fails (R227). -/
def localWaitExpiry (k : Nat) (s : State) : State :=
  let p (a : Acc) : Bool := a.cls != .region && a.deadline ≤ ticks s
  match firstDue s k p with
  | none => s
  | some a => later (.result a.cont (.fault (sget {} s.tu.recs k).kind)) (takeWaiter k p s)

/-- Does an access of a queue go on (R109)? -/
def queueBusy (s : State) (qn : Nat) : Bool :=
  s.tu.reads.any (fun e => match e.2.purpose with
    | .walk a _ | .data a => a.qn == some qn
    | .zero _ => false) ||
  s.tu.recs.any (fun e => e.2.waiters.any fun a => a.qn == some qn) ||
  s.tu.chains.any fun (e : Nat × List Acc) => e.2.any fun a => a.qn == some qn

/-- Does an access of a region go on (Table 05-4)? -/
def regionBusy (s : State) (k : Nat) : Bool :=
  s.tu.reads.any (fun e => match e.2.purpose with
    | .walk a _ | .data a => a.region == some k
    | .zero _ => false) ||
  s.tu.recs.any (fun e => e.2.waiters.any fun a => a.region == some k) ||
  s.tu.chains.any fun (e : Nat × List Acc) => e.2.any fun a => a.region == some k

end Sys2Proof.Machine
end

