-- ==== Sys2Proof/Machine/Engine.lean ====
section
/-!
DEFINITION. How an engine runs: issue and switch, traps and the return from them, events, work items,
loads and stores, precise sampling (R374, R376, R381 to R385, R397, R412 to R415).
-/
namespace Sys2Proof.Machine

/-- The outcome of a command. -/
abbrev Out3 := Host.Outcome State Fault Refusal

/-! ### Precise sampling (R397, R398) -/

/-- Is an engine selected in 0x8442? -/
def sampleEngine (s : State) (e : Nat) : Bool :=
  if e < 64 then bit (rc s 0x8442 0) e else bit (rc s 0x8442 1) (e - 64)

/-- A period of sampling begins where none runs: the objects of R400 take effect here. -/
def samplePeriod (e : Nat) (s : State) : State :=
  if (engine s e).sampCount ≠ 0 then s
  else
    let period := if sampleEngine s e then rc s 0x8440 0 else 0
    setEngine e (fun g => { g with
      sampPeriod := period, sampKinds := rc s 0x8441 0, sampCap := rc s 0x8443 0, sampDue := false }) s

/-- One instruction issues: choose whether it is the sampled one.  The position within each period is
a free value. -/
def sampleIssue (e c word kind : Nat) (s : State) : State :=
  let s := samplePeriod e s
  let g := engine s e
  if g.sampPeriod = 0 then setCtx e c (fun x => { x with samp := none }) s
  else
    let (pos, s) := if g.sampCount = 0 then draw g.sampPeriod s else (g.sampAt, s)
    let due := g.sampDue || g.sampCount == pos
    let take := due && bit g.sampKinds kind
    let s := setEngine e (fun g => { g with
      sampAt := pos
      sampDue := due && !take
      sampCount := if g.sampCount + 1 = g.sampPeriod then 0 else g.sampCount + 1 }) s
    let pc := (pcOf s e c).toNat
    setCtx e c (fun x => { x with samp := if take then some (pc, word, kind, 0, 0) else none }) s

/-- The place that the instruction in progress accesses. -/
def sampleAccess (e c : Nat) (p : EPlace) (addr : Nat) (s : State) : State :=
  setCtx e c (fun x => { x with
    samp := x.samp.map (fun t => (t.1, t.2.1, t.2.2.1, targetCode p, addr)) }) s

/-- Write a sample record (Table 13-14); LATENCY and whether the pool's write bandwidth is exhausted are free
values (timing).  Without a pool sampling has stopped (R445). -/
def sampleWrite (e c : Nat) (t : Nat × Nat × Nat × Nat × Nat) (s : State) : State :=
  let (drop, s) := draw 2 s
  if poolCells s 4 = 0 then s
  else if drop = 1 then bump 0x8446 0 s
  else
    let (lat, s) := draw (2 ^ 24) s
    let pkg := inPackage s e c
    let slot := match slotOf (ectx s e c) with
      | some k => if pkg then k + 1 else 0
      | none => 0
    let r := now s * 2 ^ 192 + t.2.2.2.2 % 2 ^ 64 * 2 ^ 128 + t.2.1 % 2 ^ 32 * 2 ^ 96
      + t.1 % 2 ^ 16 * 2 ^ 80 + e * 2 ^ 73 + c * 2 ^ 71 + t.2.2.1 * 2 ^ 68 + t.2.2.2.1 * 2 ^ 65
      + b2n pkg * 2 ^ 64 + lat * 2 ^ 40 + slot * 2 ^ 32
    let pos := count s 0x8445 0 % (engine s e).sampCap
    let s := { s with me := { s.me with ring := sset 0 s.me.ring pos r } }
    bumpEngine e 7 1 (bump 0x8445 0 s)

/-- An instruction retires (Table 22-4 e 0). -/
def retire (e c : Nat) (s : State) : State :=
  let s := bumpEngine e 0 1 s
  match (ectx s e c).samp with
  | none => s
  | some t => setCtx e c (fun x => { x with samp := none }) (sampleWrite e c t s)

/-- An instruction without a result completes: pc + 4. -/
def nextPc (e c : Nat) (s : State) : State := retire e c (setPc e c (pcOf s e c + 4) s)

/-- An instruction completes with a result. -/
def finish (e c rd : Nat) (v : Word64) (s : State) : State := nextPc e c (setReg e c rd v s)

/-! ### Work items (R383, R385, R386) -/

/-- The completion of a service that ends CANCELLED (R386). -/
def cancelled (reason cause : Nat) : Comp := { status := stCANCELLED, imm := cause * 256 + reason }

/-- The queue descriptor that an item serves. -/
def itemDesc : ItemKind → Option (Nat × Nat)
  | .service qn entry | .package _ qn entry => some (qn, entry)
  | _ => none

/-- An item leaves its context: with a completion where it serves a descriptor, unless its queue was
destroyed with FORCE; a built-in service ends its descriptor itself where its handler has ended.  The
context's reservation and locks go (R413, R423), and an item that waits takes its place. -/
def endItem (e c : Nat) (comp : Comp) (s : State) : State :=
  match (ectx s e c).item with
  | none => s
  | some it =>
    let s := setCtx e c (fun x => { x with item := none, resv := none, wait := .ready, granted := none }) s
    let s := setEngine e (fun g => { g with offer := true }) s
    let s := later (.orphan [.engine (e * 4 + c)]) (bumpEngine e 3 1 s)
    let s := when_ (!s.me.items.isEmpty) (later .dispatch) s
    match itemDesc it.kind with
    | none => s
    | some (qn, entry) =>
      if it.abandoned then later (.kickQueue qn) s
      else match it.kind with
        | .package _ _ _ =>
          later (.complete qn entry comp) (when_ (comp.status == stCANCELLED) (bump 0x8451 0) s)
        | _ => when_ (comp.status == stCANCELLED) (later (.serviceEnds qn entry comp)) s

/-- Every item of an engine ends with ENGINE_HALT (R383, R385). -/
def endItems (e : Nat) (s : State) : State :=
  forRange 0 4 (fun c => endItem e c (cancelled esHALT 0)) s

/-- Every context of an engine is gone as a lock party, at once (R423). -/
def orphanEngine (e : Nat) (s : State) : State :=
  later (.orphan ([0, 1, 2, 3].map fun c => .engine (e * 4 + c))) s

/-- An engine halts (R383). -/
def haltEngine (e cause : Nat) (s : State) : State :=
  raiseFault 19 e cause (endItems e (orphanEngine e (setEngine e (fun g => { g with halted := true }) s)))

/-! ### Traps (R381, R382) -/

/-- What a trap writes: cause, faultaddr, resume; PMODE := MODE, PIE := IE; MODE := firmware, IE := 0,
INTRAP := 1; pc := vector.  The reservation ends (R413); a package trap marks its item (R390). -/
def trapCtx (cause faultaddr : Nat) (resume : Word64) (x : ECtx) : ECtx :=
  let pkg := x.status.getLsbD 8
  let st := withBit (withBit x.status 9 pkg) 13 (x.status.getLsbD 12)
  { x with
    cause := BitVec.ofNat 64 cause
    faultaddr := BitVec.ofNat 64 faultaddr
    resume := resume
    status := withBit (withBit (withBit st 8 false) 12 false) 16 true
    pc := x.vector
    wait := .ready
    resv := none
    samp := none
    item := if pkg && cause != cINTERRUPT then
      x.item.map fun i => { i with trapped := some (cause, x.pc.toNat, faultaddr) } else x.item }

/-- Take a trap: the one operation for every cause.  While INTRAP is 1 the engine halts instead
(R383). -/
def takeTrap (e c cause faultaddr : Nat) (resume : Word64) (s : State) : State :=
  let s := bumpEngine e 4 1 (bump 0x8450 cause s)
  let s := setEngine e (fun g => { g with lastTrap := (cause, resume.toNat, faultaddr) }) s
  if statusBit s e c 16 then haltEngine e cause s
  else setCtx e c (trapCtx cause faultaddr resume) s

/-- A trap whose resume is the trapping instruction. -/
def trapHere (e c cause faultaddr : Nat) (s : State) : State :=
  takeTrap e c cause faultaddr (pcOf s e c) s

/-- The return from a trap (R382). -/
def trapReturn (x : ECtx) : ECtx :=
  let st := withBit (withBit x.status 8 (x.status.getLsbD 9)) 12 (x.status.getLsbD 13)
  { x with
    status := withBit st 16 false
    pc := x.resume
    item := x.item.map fun i => { i with trapped := none } }

/-! ### Issue and switch (R374) -/

/-- Has a context given way: WAIT, DMAWAIT, a host or remote access, a lock?  A fence does not (R374). -/
def switchedOut : EWait → Bool
  | .ready | .fence _ _ => false
  | _ => true

/-- Can the context in charge give way? -/
def givesWay (s : State) (e : Nat) : Bool :=
  let g := engine s e
  let x := ectx s e g.cur
  g.offer || x.item.isNone || switchedOut x.wait

/-- Can this context issue now? -/
def canIssue (s : State) (e c : Nat) : Bool :=
  let x := ectx s e c
  engineRuns s e && x.item.isSome && x.wait == .ready &&
    ((engine s e).cur == c || givesWay s e)

/-- The context takes the engine; a switch breaks the reservation of the one switched out. -/
def switchTo (e c : Nat) (s : State) : State :=
  let g := engine s e
  let s := setEngine e (fun g => { g with cur := c, offer := false }) s
  if g.cur = c then s
  else bumpEngine e 5 1 (setCtx e g.cur (fun x => { x with resv := none }) s)

/-- Is an interrupt due at the next instruction boundary? (R384) -/
def intDue (s : State) (e c : Nat) : Bool :=
  let x := ectx s e c
  statusBit s e c 12 && Nat.land (intMask x) (pendingBits x) != 0

/-- Trap INTERRUPT, with the event bits taken in faultaddr. -/
def takeInterrupt (e c : Nat) (s : State) : State :=
  let x := ectx s e c
  takeTrap e c cINTERRUPT (Nat.land (intMask x) (pendingBits x)) x.pc s

/-- May the context fetch at its pc? IMEM is 64 KiB; a package reaches only its own code (R392). -/
def fetchOk (s : State) (e c : Nat) : Bool :=
  let pc := (pcOf s e c).toNat
  pc + 4 ≤ 0x10000 &&
    (!inPackage s e c ||
      match slotOf (ectx s e c) with
      | some k => let g := pkgSlot s k; g.codeBase ≤ pc && pc + 4 ≤ g.codeBase + g.codeSize
      | none => false)

/-- Issue one instruction: nothing where the context cannot issue; the interrupt that is due; the
traps of the fetch; and then the instruction's own effect. -/
def meRun (w : Issue) (word kind : Nat) (body : State → Out3) (s : State) : Out3 :=
  let e := w.engine.val
  let c := w.ctx.val
  if !canIssue s e c then .next s
  else
    let s := switchTo e c s
    if intDue s e c then .next (takeInterrupt e c s)
    else
      let pc := (pcOf s e c).toNat
      if !fetchOk s e c then .next (trapHere e c cACCESS pc s)
      else if pc % 4 ≠ 0 then .next (trapHere e c cALIGN pc s)
      else match w.fetch with
        | .uncorrectable => .next (trapHere e c cPARITY pc s)
        | .correctable => body (sampleIssue e c word kind (bump 0x8403 (clusterOf e) s))
        | .clean => body (sampleIssue e c word kind s)

/-- The context blocks: its reservation goes with the switch (R374). -/
def block (e c : Nat) (wt : EWait) (s : State) : State :=
  setCtx e c (fun x => { x with wait := wt, resv := if switchedOut wt then none else x.resv }) s

/-! ### Arithmetic -/

/-- A result with edge flags: written, the sticky flags set, and the trap OV or DZ taken after it
where OVE or DZE is 1 (R379).  `dep`: the load that its operands depend on (R402). -/
def aluDone (e c rd dep : Nat) (o : AluOut) (s : State) : State :=
  let s := setStamp e c rd dep (setReg e c rd o.val s)
  let s := setCtx e c (fun x => { x with status := stickFlags x.status o.ov o.dz }) s
  let s := nextPc e c s
  if o.ov && statusBit s e c 4 then takeTrap e c cOV 0 (pcOf s e c) s
  else if o.dz && statusBit s e c 5 then takeTrap e c cDZ 0 (pcOf s e c) s
  else s

/-- An arithmetic instruction over two registers. -/
def aluRR (w : Issue) (word : Nat) (rd ra rb : Fin 32) (f : Word64 → Word64 → AluOut) (s : State) :
    Out3 :=
  meRun w word 0 (fun s =>
    .next (aluDone w.engine w.ctx rd (max (stampOf s w.engine w.ctx ra) (stampOf s w.engine w.ctx rb))
      (f (reg s w.engine w.ctx ra) (reg s w.engine w.ctx rb)) s)) s

/-- An arithmetic instruction over one register and an immediate, or over one register. -/
def aluR (w : Issue) (word : Nat) (rd ra : Fin 32) (f : Word64 → AluOut) (s : State) : Out3 :=
  meRun w word 0 (fun s =>
    .next (aluDone w.engine w.ctx rd (stampOf s w.engine w.ctx ra) (f (reg s w.engine w.ctx ra)) s)) s

/-- An instruction that gives a constant. -/
def aluK (w : Issue) (word : Nat) (rd : Fin 32) (v : Word64) (s : State) : Out3 :=
  meRun w word 0 (fun s => .next (aluDone w.engine w.ctx rd 0 { val := v } s)) s

/-- A result without edge flags. -/
def plain (v : Word64) : AluOut := { val := v }

/-- A branch. -/
def branch (w : Issue) (word : Nat) (ra rb : Fin 32) (off : BitVec 16) (p : Word64 → Word64 → Bool)
    (s : State) : Out3 :=
  meRun w word 4 (fun s =>
    let e := w.engine.val
    let c := w.ctx.val
    let pc := pcOf s e c
    let t := if p (reg s e c ra) (reg s e c rb) then pc + sext16 off * 4 else pc + 4
    .next (retire e c (setPc e c t s))) s

/-! ### Events (R384) -/

/-- Set an event in a context; a WAIT that asks for it completes. -/
def setEvent (e c i : Nat) (s : State) : State :=
  let s := setCtx e c (fun x => { x with pending := x.pending ||| bitW i }) s
  let x := ectx s e c
  match x.wait with
  | .event mask rd =>
    let t := Nat.land mask (pendingBits x)
    if t = 0 then s
    else finish e c rd (BitVec.ofNat 64 t)
      (setCtx e c (fun x => { x with wait := .ready, pending := x.pending &&& ~~~(BitVec.ofNat 64 t) }) s)
  | _ => s

/-! ### Loads and stores (R376, R405, R415) -/

/-- A loaded value, extended to 64 bits. -/
def extend (size : Nat) (signed : Bool) (bs : List Byte) : Word64 :=
  if signed then BitVec.ofInt 64 (toSigned (8 * size) (leNat bs)) else BitVec.ofNat 64 (leNat bs)

/-- Write back a load: what depends on its value comes after it (R402). -/
def loadDone (e c rd size : Nat) (signed pair : Bool) (bs : List Byte) (s : State) : State :=
  let put (r : Nat) (v : Word64) (s : State) : State := setStamp e c r s.me.fences (setReg e c r v s)
  if pair then
    nextPc e c (put (rd + 1) (BitVec.ofNat 64 (leNat (bs.drop 8)))
      (put rd (BitVec.ofNat 64 (leNat (bs.take 8))) s))
  else nextPc e c (put rd (extend size signed bs) s)

/-- Key rights of an engine access: all of them, so nothing is disabled (R376, Table 07-11). -/
def allRights : Nat := 0

/-- Start the host access of a context, or the translation alone of a write (`probe`); its result comes back
through `Cont.engine`. -/
def hostAccess (e c addr n : Nat) (data : Option (List Byte)) (probe : Bool) (s : State) : State :=
  let x := ectx s e c
  later (.access { asid := x.asid.toNat % 2 ^ 16, addr := addr, len := n, data := data, cls := .engine,
                   rights := allRights, probe := probe, cont := .engine e c }) s

/-- The rwin of a window: DEST identity and KEY (Table 13-6). -/
def window (rwin : SMap Word64) (w : Nat) : Nat × Nat :=
  let v := (sget 0 rwin w).toNat
  (fld v 63 32, fld v 31 0)

/-- Start a remote access through a window: a load is a GET, a store a PUT (R376); `ea` is its engine
address. -/
def remoteAccess (e c w ea addr n : Nat) (store : Option Nat) (data : List Byte) (s : State) : State :=
  let (dest, key) := window (ectx s e c).rwin w
  later (.engineRemote e c store ea dest key addr data n) s

/-- The item's queue was destroyed with FORCE: its handler ends here (R396). -/
def isAbandoned (s : State) (e c : Nat) : Bool :=
  match (ectx s e c).item with
  | some i => i.abandoned
  | none => false

/-- Is a place in an array: local data memory, cluster memory, context memory? -/
def inArray : EPlace → Bool
  | .ldm _ | .cmem _ _ | .context _ => true
  | _ => false

/-- The accesses, address and length, that an access of `n` bytes is made as: a pair of words is one only in
an array and aligned to 16 B, and else two (R415). -/
def parts (addr n : Nat) (pair : Bool) : List (Nat × Nat) :=
  if pair && (addr % 16 ≠ 0 || !inArray (placeOf addr 8)) then [(addr, 8), (addr + 8, 8)] else [(addr, n)]

/-- Checks common to loads and stores: alignment, then the map.  A pair needs 8 B alignment. -/
def accessTrap (s : State) (e c addr size : Nat) (pair : Bool) : Option Nat :=
  if addr % (if pair then 8 else size) ≠ 0 then some cALIGN
  else if (parts addr (if pair then 16 else size) pair).any fun p => !mayReach s e c p.2 (placeOf p.1 p.2) then
    some cACCESS
  else none

/-- What a code reports of a word or words of a local memory: PARITY where it cannot correct (R373). -/
def sramRead (w : Issue) (ecc : Ecc) (cluster addr : Nat) (bs : List Byte) (done : List Byte → State → State)
    (s : State) : State :=
  match ecc with
  | .uncorrectable => trapHere w.engine w.ctx cPARITY addr s
  | .correctable => done bs (bump 0x8403 cluster s)
  | .clean => done bs s

/-- A load from local data memory, cluster memory or context memory: what is read goes to `done`, or the
access traps (R376).  `dep`: the load that the address depends on (R402). -/
def localLoad (w : Issue) (ecc : Ecc) (dep addr n : Nat) (done : List Byte → State → State) (s : State) : State :=
  let e := w.engine.val
  let c := w.ctx.val
  match placeOf addr n with
  | .ldm off => sramRead w ecc (clusterOf e) addr (memRead (engine s e).ldm off n) done s
  | .cmem k off =>
    if !clusterOn s k then trapHere e c cBUS addr s
    else
      let (bs, s) := observe (ctxObserver e c) (some k) off n dep s
      sramRead w ecc k addr bs done s
  | .context off =>
    let (_, bad, s) := cmRead off n [ecc] s
    let (bs, s) := observe (ctxObserver e c) none off n dep s
    if bad then trapHere e c cPOISON addr s else done bs s
  | _ => trapHere e c cACCESS addr s

/-- The load of one access, or of the two of a pair, one after the other. -/
def loadParts (w : Issue) (dep : Nat) (l : List (Nat × Nat)) (done : List Byte → State → State) (s : State) : State :=
  match l with
  | [a] => localLoad w w.data dep a.1 a.2 done s
  | [a, b] => localLoad w w.data dep a.1 a.2 (fun x s =>
      localLoad w w.data2 dep b.1 b.2 (fun y s => done (x ++ y) s) s) s
  | _ => s

/-- A load of `n` bytes (R376).  The registers of the units are not in the spec: what they give is a free
value. -/
def doLoad (w : Issue) (rd size : Nat) (signed pair : Bool) (dep addr : Nat) (s : State) : Out3 :=
  let e := w.engine.val
  let c := w.ctx.val
  let n := if pair then 16 else size
  match accessTrap s e c addr size pair with
  | some cause => .next (trapHere e c cause addr s)
  | none =>
    let p := placeOf addr (if pair then 8 else n)
    let s := sampleAccess e c p addr s
    match p with
    | .ldm _ | .cmem _ _ | .context _ =>
      .next (loadParts w dep (parts addr n pair) (loadDone e c rd size signed pair) s)
    | .unit _ =>
      if isAbandoned s e c then .next (endItem e c (cancelled esHALT 0) s)
      else
        let (v, s) := draw (2 ^ (8 * n)) s
        .next (loadDone e c rd size signed pair (leBytes n v) s)
    | .host a =>
      if isAbandoned s e c then .next (endItem e c (cancelled esHALT 0) s)
      else
        let s := block e c (.access addr (.load rd size signed pair [])) s
        .next (hostAccess e c a (if pair then 8 else n) none false s)
    | .remote k a =>
      if isAbandoned s e c then .next (endItem e c (cancelled esHALT 0) s)
      else
        let s := block e c (.access addr (.load rd size signed pair [])) s
        .next (remoteAccess e c k addr a (if pair then 8 else n) none [] s)
    | .none => .next (trapHere e c cACCESS addr s)

/-- Start a remote store, of the bytes `bs` now and of `rest` after it: it completes when its PUT has left the
module (R146, R376), and its outcome is awaited by FENCE.P (R406, R407). -/
def remoteStore (e c k ea a : Nat) (bs rest : List Byte) (s : State) : State :=
  let id := s.me.nextStore
  let s := { s with me := { s.me with nextStore := id + 1 } }
  let (dest, _) := window (ectx s e c).rwin k
  let flow := (dest, (ectx s e c).tenant.toNat)
  let s := block e c (.access ea (.store rest (some id))) s
  let s := setCtx e c (fun x => { x with
    stores := x.stores ++ [id]
    flows := if x.flows.any fun f => (f.1, f.2.1) == flow then x.flows else x.flows ++ [(flow.1, flow.2, ea)] }) s
  remoteAccess e c k ea a bs.length (some id) bs s

/-- The store of one part in an array. -/
def arrayStore (e c addr : Nat) (bs : List Byte) (ecc : Ecc) (s : State) : State :=
  match placeOf addr bs.length with
  | .ldm off => ldmWrite e off bs s
  | .cmem k off => cmemStore e c k off bs s
  | .context off => contextStore e c off bs ecc s
  | _ => s

/-- The store of one access, or of the two of a pair. -/
def storeParts (w : Issue) (l : List (Nat × Nat)) (bs : List Byte) (s : State) : State :=
  match l with
  | [a, b] => arrayStore w.engine w.ctx b.1 (bs.drop 8) w.data2 (arrayStore w.engine w.ctx a.1 (bs.take 8) w.data s)
  | [a] => arrayStore w.engine w.ctx a.1 bs w.data s
  | _ => s

/-- Is a place in the memory of a cluster that is off? -/
def clusterOff (s : State) : EPlace → Bool
  | .cmem k _ => !clusterOn s k
  | _ => false

/-- A store of the bytes `bs` (R376); a store of the holder ends its reservation (R413).  An ST2W to host memory
first finds both its translations (R381). -/
def doStore (w : Issue) (bs : List Byte) (pair : Bool) (addr : Nat) (s : State) : Out3 :=
  let e := w.engine.val
  let c := w.ctx.val
  let n := bs.length
  match accessTrap s e c addr n pair with
  | some cause => .next (trapHere e c cause addr s)
  | none =>
    let p := placeOf addr (if pair then 8 else n)
    let s := sampleAccess e c p addr s
    match p with
    | .ldm _ | .cmem _ _ | .context _ =>
      let l := parts addr n pair
      match l.find? fun a => clusterOff s (placeOf a.1 a.2) with
      | some a => .next (trapHere e c cBUS a.1 s)
      | none => .next (nextPc e c (storeParts w l bs s))
    | .unit off =>
      if isAbandoned s e c then .next (endItem e c (cancelled esHALT 0) s)
      else if pair then
        .next (nextPc e c (emit (.unitStore (off + 8) (bs.drop 8)) (emit (.unitStore off (bs.take 8)) s)))
      else .next (nextPc e c (emit (.unitStore off bs) s))
    | .host a =>
      if isAbandoned s e c then .next (endItem e c (cancelled esHALT 0) s)
      else if pair then
        .next (hostAccess e c a 8 (some (bs.take 8)) true (block e c (.access addr (.pairStore bs 0)) s))
      else .next (hostAccess e c a n (some bs) false (block e c (.access addr (.store [] none)) s))
    | .remote k a =>
      if isAbandoned s e c then .next (endItem e c (cancelled esHALT 0) s)
      else if pair then .next (remoteStore e c k addr a (bs.take 8) (bs.drop 8) s)
      else .next (remoteStore e c k addr a bs [] s)
    | .none => .next (trapHere e c cACCESS addr s)

/-- The function that an ASID belongs to. -/
def asidFn (s : State) (asid : Nat) : Nat :=
  match mget? s.tu.spaces asid with
  | some a => a.fn
  | none => 0

/-- A context has stored to host memory of its ASID: a FENCE.P awaits it (R406). -/
def noteWrote (e c addr : Nat) (s : State) : State :=
  let link := fnLink (asidFn s ((ectx s e c).asid.toNat % 2 ^ 16))
  setCtx e c (fun x => { x with
    wrote := if x.wrote.any fun l => l.1 == link then x.wrote else x.wrote ++ [(link, addr)] }) s

/-- A context goes on. -/
def unblock (e c : Nat) (s : State) : State := setCtx e c (fun x => { x with wait := .ready }) s

/-- The PUT of a remote store has left the module: the store is complete, or its other half follows (R146,
R415). -/
def storeLeft (e c id : Nat) (s : State) : State :=
  match (ectx s e c).wait with
  | .access addr (.store rest (some k)) =>
    if k ≠ id then s
    else if rest.isEmpty then nextPc e c (unblock e c s)
    else match placeOf (addr + 8) 8 with
      | .remote w a => remoteStore e c w (addr + 8) a rest [] (unblock e c s)
      | _ => s
  | _ => s

/-- The host address of a page that the TLB holds and that the write of a context may use now. -/
def translateNow (s : State) (e c addr : Nat) : Option Nat :=
  let asid := (ectx s e c).asid.toNat % 2 ^ 16
  match tlbFind s asid (addr / 4096) with
  | none => none
  | some entry =>
    if (space s asid).state == .live &&
        (leafCheck (space s asid).mark allRights entry false true).isNone then
      some (fld entry 55 12 * 4096 + addr % 4096)
    else none

/-- A half of an ST2W to host memory has been translated: the other one is, and then both are written
(R381, R415). -/
def pairProbed (e c addr : Nat) (bs : List Byte) (half : Nat) (s : State) : State :=
  let a := addr - 2 ^ 62
  let asid := (ectx s e c).asid.toNat % 2 ^ 16
  let probe (h : Nat) (s : State) : State :=
    hostAccess e c (a + 8 * h) 8 (some ((bs.drop (8 * h)).take 8)) true
      (setCtx e c (fun x => { x with wait := .access addr (.pairStore bs h) }) s)
  if half = 0 then probe 1 s
  else match translateNow s e c a, translateNow s e c (a + 8) with
    | some h0, some h1 =>
      if !hostOk s (asidFn s asid) then trapHere e c cBUS addr (unblock e c s)
      else
        let acc (d : List Byte) : Acc :=
          { asid := asid, addr := a, len := 8, data := some d, cls := .engine, cont := .none }
        nextPc e c (noteWrote e c addr (unblock e c
          (performAcc (acc (bs.drop 8)) h1 (performAcc (acc (bs.take 8)) h0 s))))
    | _, _ => probe 0 s

/-- The result of a host or remote access comes back to a context (R376). -/
def engineResult (e c : Nat) (r : AccResult) (s : State) : State :=
  let x := ectx s e c
  match x.wait with
  | .access addr what =>
    if x.item.isNone || !engineRuns s e then unblock e c s
    else
      let trap (cause a : Nat) : State := trapHere e c cause a (unblock e c s)
      match what with
      | .load rd size signed pair got =>
        let at_ := addr + got.length
        match r with
        | .ok bs =>
          let bs := got ++ bs
          if pair && bs.length < 16 then
            let s := setCtx e c (fun x => { x with wait := .access addr (.load rd size signed pair bs) }) s
            match placeOf (addr + 8) 8 with
            | .host a => hostAccess e c a 8 none false s
            | .remote k a => remoteAccess e c k (addr + 8) a 8 none [] s
            | _ => s
          else loadDone e c rd size signed pair bs (unblock e c s)
        | .poison _ => trap cPOISON at_
        | .pcieError => trap cBUS at_
        | .fault _ | .retry _ => trap cTRANSLATION at_
      | .store _ _ =>
        match r with
        | .ok _ | .poison _ => nextPc e c (noteWrote e c addr (unblock e c s))
        | .pcieError => trap cBUS addr
        | .fault _ | .retry _ => trap cTRANSLATION addr
      | .pairStore bs half =>
        match r with
        | .ok _ | .poison _ => pairProbed e c addr bs half s
        | .pcieError => trap cBUS (addr + 8 * half)
        | .fault _ | .retry _ => trap cTRANSLATION (addr + 8 * half)
  | _ => s

/-! ### FENCE.P (R406, R407) -/

/-- A FENCE.P waits for this many acknowledgements. -/
def fenceLeft (e c no left : Nat) (s : State) : State := setCtx e c (fun x => { x with wait := .fence no left }) s

/-- The first failure is the one that counts. -/
def noteFail (addr : Nat) (x : ECtx) : ECtx := { x with storeFail := some (x.storeFail.getD addr) }

/-- FENCE.P completes when every store and acknowledgement it waits for is done, and what the context has stored
and seen is in the arrays; a failed remote store raises BUS at it (R406, R407). -/
def fenceCheck (e c : Nat) (s : State) : State :=
  let x := ectx s e c
  match x.wait with
  | .fence _ left =>
    match x.storeFail with
    | some a => trapHere e c cBUS a (setCtx e c (fun x => { x with wait := .ready, storeFail := none }) s)
    | none => if left = 0 && x.stores.isEmpty then nextPc e c (fenceArrays e c (unblock e c s)) else s
  | _ => s

/-- An acknowledgement comes back to the FENCE.P that asked for it: what it acknowledges (`ack`) is done, or has
failed at an address.  One of an earlier FENCE.P counts no more. -/
def fenceAck (e c no : Nat) (ok : Bool) (addr : Nat) (ack : ECtx → ECtx) (s : State) : State :=
  match (ectx s e c).wait with
  | .fence k left =>
    if k ≠ no then s
    else
      let s := fenceLeft e c no (left - 1) s
      fenceCheck e c (setCtx e c (if ok then ack else noteFail addr) s)
  | _ => s

/-- A host link has answered the zero-length read (R165): everything written to it is there. -/
def fenceRead (e c no link addr : Nat) (r : AccResult) (s : State) : State :=
  fenceAck e c no (match r with | .ok _ => true | _ => false) addr
    (fun x => { x with wrote := x.wrote.filter fun l => l.1 != link }) s

/-- The FLUSH of a flow has ended: answered, or failed with what it followed, which is so reported. -/
def fenceFlushed (e c no addr dest tenant : Nat) (ok : Bool) (s : State) : State :=
  let drop (x : ECtx) : ECtx :=
    { x with flows := x.flows.filter fun f => !(f.1 == dest && f.2.1 == tenant) }
  match (ectx s e c).wait with
  | .fence k _ => if k ≠ no then s else fenceAck e c no ok addr id (setCtx e c drop s)
  | _ => s

/-- A remote operation of a context is over (R376, R407): a store that fails before its PUT has left traps at
once, and else at the FENCE.P. -/
def remoteDone (e c : Nat) (store : Option Nat) (r : AccResult) (addr : Nat) (s : State) : State :=
  let ok : Bool := match r with | .ok _ => true | _ => false
  match store, (ectx s e c).wait with
  | none, .access a (.load _ _ _ _ got) =>
    (match r with
      | .ok _ | .poison _ => engineResult e c r s
      | _ => trapHere e c cBUS (a + got.length) (unblock e c s))
  | none, _ => s
  | some id, wt =>
    let mine : Bool := match wt with | .access _ (.store _ (some k)) => k == id | _ => false
    let there := (ectx s e c).stores.contains id
    let s := setCtx e c (fun x => { x with stores := x.stores.erase id }) s
    if mine then
      if ok then storeLeft e c id s else trapHere e c cBUS addr (unblock e c s)
    else fenceCheck e c (when_ (!ok && there) (setCtx e c (noteFail addr)) s)

end Sys2Proof.Machine
end

