-- ==== Sys2Proof/Machine/Locks.lean ====
section
/-!
DEFINITION. The queued lock unit (R416 to R431).
-/
namespace Sys2Proof.Machine

def lockOf (s : State) (l : Nat) : Lock := sget {} s.lk l

def setLock (l : Nat) (f : Lock → Lock) (s : State) : State := { s with lk := smod {} s.lk l f }

/-- The tenant of a lock (0x8610). -/
def lockTenant (s : State) (l : Nat) : Nat := fld (rcEntry s 0x8610 0 4 l) 31 16

/-- The locks that a party holds, and the lock it waits for. -/
def heldBy (s : State) (p : Party) : List Nat :=
  (s.lk.filter fun e => match e.2.holder with | some h => h.party == p | none => false).map (·.1)

def waitsFor (s : State) (p : Party) : Option Nat :=
  (s.lk.find? fun e => e.2.waiters.any fun w => w.party == p).map (·.1)

/-- Waiter entries in use: all, and those of host clients (R417). -/
def waitersUsed (s : State) : Nat := sumBy (fun e => e.2.waiters.length) s.lk
def hostWaiters (s : State) : Nat :=
  sumBy (fun e => (e.2.waiters.filter fun w => match w.party with | .host _ _ => true | _ => false).length)
    s.lk

/-! ### Priorities (R418, R419) -/

/-- The highest effective priority among waiters. -/
def maxEff (ws : List Waiter) : Nat := ws.foldl (fun n w => max n w.eff) 0

/-- The highest effective priority among the waiters of every lock a party holds. -/
def inherited (s : State) (p : Party) : Nat :=
  (heldBy s p).foldl (fun n l => max n (maxEff (lockOf s l).waiters)) 0

/-- The first waiter: highest effective priority, then ACQUIRE order. -/
def firstWaiter (ws : List Waiter) : Option Waiter := ws.find? fun w => w.eff == maxEff ws

/-- The event of a lock command or grant (Table 14-6), raising the vector at once (R428). -/
def lockEvent (eqn code token l detail data : Nat) (s : State) : State :=
  later (.event eqn code (token * 65536 + l) detail data true) s

/-- A holder's effective priority changed on one lock: INHERIT, to the engine or the host (R426,
R428). -/
def signalInherit (l : Nat) (h : Holder) (eff : Nat) (s : State) : State :=
  let s := bump 0x8634 0 s
  match h.party with
  | .engine id => setEvent (id / 4) (id % 4) 4 s
  | .host _ token => lockEvent h.eqn 0x0201 token l (eff + h.eff * 16) 0 s

/-- Recompute the effective priority of every lock a party holds.  An engine gets one INHERIT when any
of them changed; a host one for the lock whose waiters changed, `l0` (R426, R428). -/
def recomputeHeld (p : Party) (l0 : Nat) (s : State) : State :=
  let inh := inherited s p
  let ls := (heldBy s p).filter fun l => match (lockOf s l).holder with
    | some h => max h.own inh != h.eff
    | none => false
  let signal := match p with | .engine _ => ls.take 1 | .host _ _ => ls.filter (· == l0)
  let s2 := foldSt (fun l s => setLock l (fun k => { k with
    holder := k.holder.map fun h => { h with eff := max h.own inh } }) s) ls s
  foldSt (fun l s2 => match (lockOf s l).holder with
    | some h => signalInherit l h (max h.own inh) s2
    | none => s2) signal s2

/-- The effective priority of a party as a waiter, where it waits for a lock. -/
def waitEff (s : State) (l : Nat) (p : Party) : Option Nat :=
  ((lockOf s l).waiters.find? fun w => w.party == p).map (·.eff)

/-- Recompute a party after the waiters of lock `l` changed, and along the chain of holders that it waits
for; propagation stops after 0x8611:00 holders (R418). -/
def propagate : Nat → Party → Nat → State → State
  | 0, _, _, s => bump 0x8636 0 s
  | n + 1, p, l, s =>
    let s := recomputeHeld p l s
    match waitsFor s p with
    | none => s
    | some l2 =>
      let inh := inherited s p
      let s2 := setLock l2 (fun k => { k with waiters := k.waiters.map fun w =>
        if w.party == p then { w with eff := max w.own inh } else w }) s
      if waitEff s l2 p == waitEff s2 l2 p then s
      else match (lockOf s2 l2).holder with
        | some h => propagate n h.party l2 s2
        | none => s2

/-- The waiters of a lock have changed: its holder is recomputed. -/
def reprioritise (l : Nat) (s : State) : State :=
  match (lockOf s l).holder with
  | some h => propagate (rc s 0x8611 0) h.party l s
  | none => s

/-! ### Grants (R421, R422) -/

/-- The grant of a queued ACQUIRE reaches its party: an engine blocked in it completes; one that is
not keeps the grant for its re-executed ACQUIRE (R425); a host gets LOCK_GRANT (R428). -/
def deliverGrant (l : Nat) (w : Waiter) (orphan : Bool) (s : State) : State :=
  match w.party with
  | .host _ token =>
    lockEvent w.eqn 0x0200 token l (b2n orphan) (lockOf s l).waiters.length s
  | .engine id =>
    let e := id / 4
    let c := id % 4
    match (ectx s e c).wait with
    | .lock _ rd =>
      finish e c rd (BitVec.ofNat 64 (if orphan then 256 else 0))
        (setCtx e c (fun x => { x with wait := .ready, pending := withBit x.pending 1 false }) s)
    | _ => setEvent e c 1 (setCtx e c (fun x => { x with granted := some (l, orphan) }) s)

/-- The holder of a lock is done with it: a grant that it has not taken is no more. -/
def dropGrant (l : Nat) (s : State) : State :=
  match (lockOf s l).holder with
  | some ⟨.engine id, _, _, _, _, _⟩ => setCtx (id / 4) (id % 4) (fun x => { x with
      granted := if x.granted.any fun g => g.1 == l then none else x.granted }) s
  | _ => s

/-- The lock passes to its first waiter, or becomes FREE. -/
def handoff (l : Nat) (orphan : Bool) (s : State) : State :=
  let s := dropGrant l s
  let k := lockOf s l
  match firstWaiter k.waiters with
  | none => setLock l (fun k => { k with holder := none }) s
  | some w =>
    let s := setLock l (fun k => { k with
      holder := some { party := w.party, own := w.own, eff := w.own, eqn := w.eqn, orphan := orphan,
                       mt := now s }
      waiters := eraseFirst (fun v => v.party == w.party) k.waiters }) s
    let inh := inherited s w.party
    let s := setLock l (fun k => { k with
      holder := k.holder.map fun h => { h with eff := max h.own inh } }) s
    let s := recomputeHeld w.party l s
    let s := when_ orphan (bump 0x8635 0) (bump 0x8632 0 s)
    deliverGrant l w orphan s

/-- A party gives up a lock: what it inherits changes with it, on its other locks and where it waits. -/
def giveUp (l : Nat) (p : Party) (orphan : Bool) (s : State) : State :=
  propagate (rc s 0x8611 0) p 4096 (handoff l orphan s)

/-- Take a free lock. -/
def takeLock (l : Nat) (p : Party) (own eqn : Nat) (s : State) : State :=
  setLock l (fun k => { k with
    holder := some { party := p, own := own, eff := max own (inherited s p), eqn := eqn, mt := now s } }) s

/-- Queue a waiter. -/
def enqueueWaiter (l : Nat) (p : Party) (own eqn : Nat) (s : State) : State :=
  let w : Waiter := { party := p, own := own, eff := max own (inherited s p), eqn := eqn }
  reprioritise l (setLock l (fun k => { k with waiters := k.waiters ++ [w] }) s)

/-- Remove a party's waiter. -/
def removeWaiter (l : Nat) (p : Party) (s : State) : State :=
  reprioritise l (setLock l (fun k => { k with waiters := eraseFirst (fun v => v.party == p) k.waiters }) s)

/-- Parties are gone (R423): first the waiters of all of them leave without a grant, and then their locks are
handed off with ORPHAN. -/
def orphanParties (ps : List Party) (s : State) : State :=
  let mine (w : Waiter) : Bool := ps.contains w.party
  let s := foldSt (fun l s => reprioritise l (setLock l (fun k => { k with
      waiters := k.waiters.filter fun w => !mine w }) s))
    ((s.lk.filter fun e => e.2.waiters.any mine).map (·.1)) s
  foldSt (fun p s => foldSt (fun l s => handoff l true s) (heldBy s p) s) ps s

/-- All host clients of a function (R423). -/
def hostParties (s : State) (fn : Nat) : List Party :=
  let ps := s.lk.flatMap fun e =>
    (match e.2.holder with | some h => [h.party] | none => []) ++ e.2.waiters.map (·.party)
  (ps.filter fun p => match p with | .host f _ => f == fn | _ => false).dedup

def orphanFn (fn : Nat) (s : State) : State := orphanParties (hostParties s fn) s

/-! ### Lock status (Table 14-9) -/

def lockEntry (s : State) (l : Nat) : Nat :=
  let k := lockOf s l
  match k.holder with
  | none => 0
  | some h =>
    let (kind, fn, id) := match h.party with
      | .engine id => (0, 0, id)
      | .host fn token => (1, fn, token)
    2 ^ 126 + b2n h.orphan * 2 ^ 125 + h.eff * 2 ^ 121 + h.own * 2 ^ 117 + kind * 2 ^ 116
      + fn * 2 ^ 106 + id * 2 ^ 90 + k.waiters.length * 2 ^ 76 + h.mt * 2 ^ 12

end Sys2Proof.Machine
end

