-- ==== Sys2Proof/Machine/Shots.lean ====
section
/-!
DEFINITION. One-shot events against MT (R34 to R36).
-/
namespace Sys2Proof.Machine

/-- What comes of a request to arm a one-shot event. -/
inductive ArmResult where
  /-- it fires at once; `late` where its instant has passed (R35) -/
  | atOnce (late : Bool)
  | armed (s : State)
  /-- reasons SCHEDULE_FULL and TIME_INVALID (R34) -/
  | full | timeInvalid

/-- A request to arm (R34, R35). -/
def armShot (owner : ShotOwner) (instant : Nat) (s : State) : ArmResult :=
  if instant = 0 then .atOnce false
  else if timeFree s then .timeInvalid
  else if instant < now s then .atOnce true
  else if 16384 ≤ s.tb.armed.length then .full
  else .armed { s with tb := { s.tb with
    armed := s.tb.armed ++ [{ owner := owner, instant := instant, late := false }] } }

/-- Release a slot (R36). -/
def releaseShot (owner : ShotOwner) (s : State) : State :=
  { s with tb := { s.tb with armed := s.tb.armed.filter fun a => a.owner != owner } }

/-- The armed event of an owner. -/
def shotOf (s : State) (owner : ShotOwner) : Option OneShot :=
  s.tb.armed.find? fun a => a.owner == owner

/-- Is the event of an owner due: its instant reached, or skipped by a step? -/
def shotDue (s : State) (owner : ShotOwner) : Bool :=
  match shotOf s owner with
  | some a => a.late || a.instant ≤ now s
  | none => false

/-- The owner's event fires: the slot is free, a late one is counted (R40).  Answers the late mark. -/
def fireShot (owner : ShotOwner) (s : State) : Bool × State :=
  match shotOf s owner with
  | none => (false, s)
  | some a => (a.late, when_ a.late (bump 0x4006 0) (releaseShot owner s))

end Sys2Proof.Machine
end

