-- ==== Sys2Proof/Machine/Dispatcher.lean ====
section
/-!
DEFINITION. Dispatch of work items, package calls, activation and quiesce (R385 to R395).
-/
namespace Sys2Proof.Machine

/-! ### Quiesce (R394) -/

/-- The cluster mask of an activation's scope: all clusters for firmware; for a package those it runs on, and
those that its slot is bound to for the new image. -/
def scopeMask (s : State) (target : Nat) (remove : Bool) : Nat :=
  if target = 0 then 0xFFF
  else Nat.lor (pkgSlot s (target - 1)).mask (if remove then 0 else fld (rc s 0x8430 (target - 1)) 11 0)

/-- Is a cluster in a scope that quiesces now? -/
def quiescing (s : State) (k : Nat) : Bool :=
  s.me.acts.any fun a => a.state != .armed && bit a.mask k

/-- Contexts of a cluster that hold an item. -/
def clusterLoad (s : State) (k : Nat) : Nat :=
  sumBy (fun e => sumBy (fun c => b2n (ectx s e c).item.isSome) [0, 1, 2, 3]) (rangeFrom (8 * k) 8)

/-- Is a scope quiescent?  For firmware no group may be JOINING either. -/
def scopeQuiet (s : State) (a : Activation) : Bool :=
  ((rangeFrom 0 12).all fun k => !bit a.mask k || clusterLoad s k == 0) &&
    (a.target != 0 || s.ce.groups.all fun g => g.2.state != .joining)

/-! ### The dispatcher (R385) -/

/-- The powered clusters of a set. -/
def poweredSet (s : State) (mask : Nat) : List Nat :=
  (rangeFrom 0 12).filter fun k => bit mask k && clusterOn s k

/-- The free contexts of a cluster, lowest engine number first. -/
def freeCtxs (s : State) (k : Nat) : List (Nat × Nat) :=
  (rangeFrom (8 * k) 8).flatMap fun e =>
    if engineRuns s e then
      ([0, 1, 2, 3].filter fun c => (ectx s e c).item.isNone).map fun c => (e, c)
    else []

/-- The context that takes a new item: in the least-loaded cluster of the set (the lowest number
among equals), the free context with the lowest engine number. -/
def pickCtx (s : State) (mask : Nat) : Option (Nat × Nat) :=
  let ks := (poweredSet s mask).filter fun k => !quiescing s k && !(freeCtxs s k).isEmpty
  let best := ks.foldl (fun (b : Option Nat) k => match b with
    | none => some k
    | some j => if clusterLoad s k < clusterLoad s j then some k else some j) none
  match best with
  | none => none
  | some k => (freeCtxs s k).head?

/-- A context takes a built-in item in firmware mode; its entry address is the firmware's, a free
value in IMEM 0x0000..0x9FFF (R392).  It sees every store that has reached it. -/
def startItem (e c : Nat) (kind : ItemKind) (s : State) : State :=
  let (p, s) := draw 0x2800 (seeReached (ctxObserver e c) s)
  setCtx e c (fun x => { x with
    item := some { kind := kind }
    wait := .ready
    resv := none
    granted := none
    stamps := []
    pc := BitVec.ofNat 64 (p * 4)
    status := withBit x.status 8 false
    budget := BitVec.ofNat 64 (rc s 0x8411 0) }) s

/-- The items without a descriptor find contexts, oldest first; without a powered cluster they end at once
(NO_ENGINE), without a free context they wait (R385). -/
def dispatchItems : Nat → State → State
  | 0, s => s
  | n + 1, s =>
    match s.me.items with
    | [] => s
    | k :: r =>
      let taken : State := { s with me := { s.me with items := r } }
      if (poweredSet s (rc s 0x8410 0)).isEmpty then dispatchItems n taken
      else match pickCtx s (rc s 0x8410 0) with
        | none => s
        | some (e, c) => dispatchItems n (startItem e c k taken)

/-- A service descriptor whose item finds a context starts there (R385, R386): `f` has what starts it.  Without a
powered cluster it ends NO_ENGINE; without a free context, or during quiesce, it waits. -/
def serviceItem (qn : Nat) (o : SendOp) (f : (State → State) → State → State) (s : State) : State :=
  if (poweredSet s (rc s 0x8410 0)).isEmpty then
    complete qn o.n (cancelled esNOENGINE 0) (markStarted qn o.n s)
  else match pickCtx s (rc s 0x8410 0) with
    | none => s
    | some (e, c) => f (fun s => startItem e c (.service qn o.n) (markStarted qn o.n s)) s

/-! ### Package calls (R390) -/

/-- Entry of a package call: handler address, descriptor at 0x1_FF00 + 64 × context, g1 to g3. -/
def enterPackage (e c slot qn : Nat) (q : Queue) (op : SendOp) (entry : Nat) (s : State) : State :=
  let at_ := 0x1FF00 + 64 * c
  let s := ldmWrite e at_ (leBytes 64 op.desc) (seeReached (ctxObserver e c) s)
  let g := pkgSlot s slot
  setCtx e c (fun x => { x with
    item := some { kind := .package slot qn op.n }
    wait := .ready
    resv := none
    granted := none
    stamps := []
    pc := BitVec.ofNat 64 entry
    regs := sset 0 (sset 0 (sset 0 [] 1 (BitVec.ofNat 64 at_)) 2 (BitVec.ofNat 64 qn)) 3
      (BitVec.ofNat 64 (ownIdentity s q.endpoint))
    asid := BitVec.ofNat 64 q.asid
    tenant := BitVec.ofNat 64 q.tenant
    rwin := []
    status := bitW 8
    pbase := BitVec.ofNat 64 (0x1000000 + clusterOf e * 0x200000 + g.part)
    budget := BitVec.ofNat 64 (rc s 0x8411 0) }) s

/-- A package-call descriptor reaches the dispatcher. -/
def packageCall (qn : Nat) (s : State) : State :=
  match startable s qn (fun o => 0x38 ≤ o && o ≤ 0x3F) with
  | none => s
  | some op =>
    let q := queue s qn
    let slot := dOPCODE op.desc - 0x38
    let g := pkgSlot s slot
    let h := fld (dOP0 op.desc) 7 0
    let no (reason : Nat) : State :=
      bump 0x8451 0 (complete qn op.n (cancelled reason 0) (markStarted qn op.n s))
    if g.state == .quiescing || s.me.acts.any (fun a => (a.target == 0 || a.target == slot + 1) && a.state != .armed) then s
    else if g.state != .active then no esNOPACKAGE
    else if q.tenant != g.tenant then no esNOTPERMITTED
    else match g.handlers[h]? with
      | none => no esBADHANDLER
      | some entry =>
        if (poweredSet s g.mask).isEmpty then no esNOENGINE
        else match pickCtx s g.mask with
          | none => s
          | some (e, c) => enterPackage e c slot qn q op entry (markStarted qn op.n s)

/-- DONE of a package call (R390): g1 STATUS, g2 LENGTH, g3 IMM; or the end that the firmware gives a
call that trapped. -/
def packageEnd (e c : Nat) (s : State) : State :=
  let x := ectx s e c
  match x.item with
  | none => s
  | some it =>
    match it.kind, it.trapped with
    | .package slot qn _, some (cause, pc, fa) =>
      let comp := if cause = cBUDGET then cancelled esBUDGET 0 else cancelled esTRAP cause
      let s := endItem e c comp s
      if it.abandoned then s
      else postEvent (queue s qn).eqn 0x0700 qn (cause * 256 + slot)
        (fld pc 15 0 * 2 ^ 32 + fld fa 31 0) s
    | .package _ _ _, none =>
      let st := (reg s e c 1).toNat
      let comp : Comp :=
        if [stOK, stLOCALFAULT, stDENIED, stREMOTEFAULT, stLOSS, stCANCELLED].contains st then
          { status := st, length := fld (reg s e c 2).toNat 31 0, imm := fld (reg s e c 3).toNat 31 0 }
        else cancelled esBADSTATUS 0
      endItem e c comp s
    | _, _ => endItem e c { status := stOK } s

/-! ### Activation (R393 to R395) -/

def setActStatus (f : ActStatus → ActStatus) (s : State) : State :=
  { s with me := { s.me with actStatus := f s.me.actStatus } }

/-- Show REFUSED with a reason. -/
def actRefuse (target reason instant : Nat) (s : State) : State :=
  setActStatus (fun _ => { state := 6, target := target, reason := reason, instant := instant }) s

def findAct (s : State) (target : Nat) : Option Activation :=
  s.me.acts.find? fun a => a.target == target

def dropAct (target : Nat) (s : State) : State :=
  { s with me := { s.me with acts := s.me.acts.filter fun a => a.target != target } }

/-- The lowest place of `size` bytes in `lo..hi` that no used part overlaps. -/
def firstFit (lo hi size : Nat) (used : List (Nat × Nat)) : Option Nat :=
  let starts := lo :: used.map fun u => u.1 + u.2
  let ok (b : Nat) : Bool := lo ≤ b && b + size ≤ hi && used.all fun u => b + size ≤ u.1 || u.1 + u.2 ≤ b
  (starts.filter ok).foldl (fun (m : Option Nat) b => match m with
    | none => some b
    | some a => some (min a b)) none

/-- The packages that share a cluster with a mask, apart from one slot. -/
def sharing (s : State) (mask slot : Nat) : List PkgSlot :=
  ((rangeFrom 0 8).filter fun k => k != slot).filterMap fun k =>
    let g := pkgSlot s k
    if g.state != .empty && Nat.land g.mask mask != 0 then some g else none

/-- The place of a package in the memories of its clusters (R392): code, data, partition. -/
def packageFit (s : State) (slot mask : Nat) (h : PackageHdr) : Option (Nat × Nat × Nat) :=
  let gs := sharing s mask slot
  match firstFit 0xA000 0x10000 h.codeSize (gs.map fun g => (g.codeBase, g.codeSize)),
      firstFit 0x10000 0x1FF00 h.dataSize (gs.map fun g => (g.dataBase, g.dataSize)),
      firstFit 0x100000 0x200000 (h.cmemKib * 1024) (gs.map fun g => (g.part, g.cmemKib * 1024)) with
  | some a, some b, some c => some (a, b, c)
  | _, _, _ => none

/-- The area that a SOURCE names. -/
def sourceArea (target source : Nat) : Nat := if target = 0 then source else 16 + source

/-- The checks of ACTIVATE, as a reason of 0x8421:00; 0: passed.  A source that is not valid fails its
signature check (R533, R540). -/
def activateCheck (s : State) (target source : Nat) : Nat :=
  let a := area s (sourceArea target source)
  if target = 0 then
    let f := bundleOf a.bytes
    if 2 ≤ source || !a.valid || !signatureGood s false a.bytes then 1
    else if 2 ≤ startDecision s s.ms.mgmtFw f then 2
    else if f.stateEpoch != s.ms.engineFw.stateEpoch then 3
    else if (findAct s target).isSome then 8
    else 0
  else
    let h := packageOf a.bytes
    if 16 ≤ source || !a.valid || !signatureGood s true a.bytes then 1
    else if !packageOk a.bytes || h.ifEpoch != s.ms.engineFw.engineIfEpoch then 4
    else if (packageFit s (target - 1) (fld (rc s 0x8430 (target - 1)) 11 0) h).isNone then 9
    else if (findAct s target).isSome then 8
    else 0

/-- Quiesce begins (R394). -/
def beginQuiesce (target source instant : Nat) (remove : Bool) (s : State) : State :=
  let s := dropAct target s
  let a : Activation := { target := target, state := .quiescing, remove := remove, source := source,
                          instant := instant, since := ticks s, limit := rc s 0x8412 0
                          mask := scopeMask s target remove }
  let s := { s with me := { s.me with acts := s.me.acts ++ [a] } }
  let s := if target = 0 then s
    else { s with me := { s.me with slots := smod {} s.me.slots (target - 1) fun g =>
      if g.state == .active then { g with state := .quiescing } else g } }
  setActStatus (fun _ => { state := 2, target := target, instant := instant }) s

/-- ACTIVATE (R393). -/
def activate (target source instant : Nat) (s : State) : State :=
  if 9 ≤ target then s
  else
    let r := activateCheck s target source
    if r ≠ 0 then
      let s := if r = 2 then
        let f := bundleOf (area s source).bytes
        logEvent 5 0 0x10 3 (beBytes 4 s.ms.mgmtFw.mgmtVersion ++ beBytes 4 f.engineVersion) s
        else s
      actRefuse target r instant s
    else match armShot (.activation target) instant s with
      | .full => actRefuse target 6 instant s
      | .timeInvalid => actRefuse target 7 instant s
      | .atOnce late => beginQuiesce target source instant false (when_ late (bump 0x4006 0) s)
      | .armed s =>
        let a : Activation := { target := target, state := .armed, source := source, instant := instant }
        let s := { s with me := { s.me with acts := s.me.acts ++ [a] } }
        setActStatus (fun _ => { state := 1, target := target, instant := instant }) s

/-- CANCEL releases an armed activation (R393). -/
def activationCancel (target : Nat) (s : State) : State :=
  match findAct s target with
  | some a =>
    if a.state == .armed then
      setActStatus (fun _ => { state := 0, target := target }) (dropAct target (releaseShot (.activation target) s))
    else s
  | none => s

/-- REMOVE quiesces a slot, to empty it then (R393). -/
def packageRemove (target : Nat) (s : State) : State :=
  if target = 0 || 9 ≤ target || (pkgSlot s (target - 1)).state == .empty then s
  else if (findAct s target).isSome then actRefuse target 8 0 s
  else beginQuiesce target 0 0 true s

/-- The loader writes the engine firmware in force to engines: its code to the firmware region of IMEM, its data
to the firmware half of LDM (R392, R394, R511). -/
def loadFirmware (es : List Nat) (s : State) : State :=
  if s.me.fwImage.isEmpty then s
  else foldSt (fun e s => setEngine e (fun g => { g with
    imem := memWrite g.imem 0 ((Config.engineCode s.me.fwImage).take 0xA000)
    ldm := memWrite g.ldm 0 ((Config.engineData s.me.fwImage).take 0x10000) }) s) es s

/-- The engines whose domain is ON. -/
def poweredEngines (s : State) : List Nat := (rangeFrom 0 96).filter fun e => domOn s (domainOf e)

/-- The loader writes the new image (R394). -/
def loadImage (a : Activation) (s : State) : State :=
  let img := (area s (sourceArea a.target a.source)).bytes
  if a.target = 0 then
    loadFirmware (poweredEngines s) { s with
      ms := { s.ms with engineFw := bundleOf img }
      me := { s.me with fwSlot := a.source, fwImage := engineImage img } }
  else
    let k := a.target - 1
    if a.remove then { s with me := { s.me with slots := sset {} s.me.slots k {} } }
    else
      let bind := rc s 0x8430 k
      let mask := fld bind 11 0
      let h := packageOf img
      match packageFit s k mask h with
      | none => s
      | some (cb, db, part) =>
        let g : PkgSlot :=
          { state := .active, packageId := h.id, version := h.version, tenant := fld bind 63 48
            mask := mask, handlers := packageHandlers img, codeBase := cb, codeSize := h.codeSize
            dataBase := db, dataSize := h.dataSize, cmemKib := h.cmemKib, part := part }
        let s := { s with me := { s.me with slots := sset {} s.me.slots k g } }
        forRange 0 96 (fun e s => if bit mask (clusterOf e) then
          setEngine e (fun x => { x with
            imem := memWrite x.imem cb (packageCode img)
            ldm := memWrite x.ldm db (packageData img) }) s
          else s) s

/-- Can the image of an activation still be loaded: a package fits next to those bound now (R392)? -/
def loadFits (a : Activation) (s : State) : Bool :=
  a.target == 0 || a.remove ||
    (packageFit s (a.target - 1) (fld (rc s 0x8430 (a.target - 1)) 11 0)
      (packageOf (area s (sourceArea a.target a.source)).bytes)).isSome

/-- Dispatch resumes under the old image. -/
def resumeOld (target : Nat) (s : State) : State :=
  let s := later .dispatch (dropAct target s)
  if target = 0 then s
  else { s with me := { s.me with slots := smod {} s.me.slots (target - 1) fun g =>
    if g.state == .quiescing then { g with state := .active } else g } }

/-- The scope is quiescent within the limit: load, and show DONE with the quiesce time.  A package that
does not fit any more is refused (assumption 179). -/
def quiesceComplete (target : Nat) (s : State) : State :=
  match findAct s target with
  | some a =>
    if a.state == .quiescing && scopeQuiet s a && ticks s ≤ a.since + a.limit then
      let t := ticks s - a.since
      if loadFits a s then
        setActStatus (fun _ => { state := 4, target := target, instant := a.instant, quiesce := t })
          (later .dispatch (dropAct target (loadImage a s)))
      else actRefuse target 9 a.instant (resumeOld target s)
    else s
  | none => s

/-- The scope was not quiescent within 0x8412:00: abandoned (R395). -/
def quiesceTimeout (target : Nat) (s : State) : State :=
  match findAct s target with
  | some a =>
    let over_ := a.since + a.limit
    if a.state == .quiescing && over_ ≤ ticks s && (!scopeQuiet s a || over_ < ticks s) then
      let t := ticks s - a.since
      let s := resumeOld target s
      let st : ActStatus :=
        { state := 5, target := target, reason := 5, instant := a.instant, quiesce := t }
      let s := setActStatus (fun _ => st) s
      logEvent 4 0 0x10 3 (beBytes 1 target ++ beBytes 1 5 ++ beBytes 8 t) s
    else s
  | none => s

/-- The activation instant is reached (R394). -/
def activationInstant (target : Nat) (s : State) : State :=
  match findAct s target with
  | some a =>
    if a.state == .armed && shotDue s (.activation target) then
      let (_, s) := fireShot (.activation target) s
      beginQuiesce target a.source a.instant a.remove s
    else s
  | none => s

/-- The activation command word (Table 13-11). -/
def activationCommand (v : Nat) (s : State) : State :=
  let target := fld v 127 120
  let action := fld v 119 112
  if fld v 39 0 ≠ 0 then s
  else if action = 1 then activate target (fld v 111 104) (fld v 103 40) s
  else if action = 2 then activationCancel target s
  else if action = 3 then packageRemove target s
  else s

/-! ### States shown by the dictionary -/

/-- 0x8401: 0 OFF, 1 IDLE, 2 RUNNING, 3 QUIESCED, 4 HALTED. -/
def engineState (s : State) (e : Nat) : Nat :=
  if !domOn s (domainOf e) then 0
  else if (engine s e).halted then 4
  else if [0, 1, 2, 3].any fun c => (ectx s e c).item.isSome then 2
  else if quiescing s (clusterOf e) then 3
  else 1

end Sys2Proof.Machine
end

