-- ==== Sys2Proof/Machine/Shape.lean ====
section
/-!
DEFINITION. The machine shape, node IDs and coordinates (R3 to R5, R257 to R259).
-/
namespace Sys2Proof.Machine

/-- The dimension sizes in use: every size before the first 0 (R257). -/
def usedSizes (sizes : List Nat) : List Nat := sizes.takeWhile fun n => n != 0

/-- First field and size of each dimension (R258): a dimension above 31 nodes takes two fields. -/
def dimFields : List Nat → Nat → List (Nat × Nat)
  | [], _ => []
  | n :: r, f => (f, n) :: dimFields r (if 31 < n then f + 2 else f + 1)

def dims (sizes : List Nat) : List (Nat × Nat) := dimFields (usedSizes sizes) 0

/-- Coordinate field `f` of a node ID (R3). -/
def nodeField (node f : Nat) : Nat := fld node (5 * f + 4) (5 * f)

/-- The coordinate of a node in dimension `d` (R4, R259). -/
def coord (sizes : List Nat) (d node : Nat) : Nat :=
  match (dims sizes)[d]? with
  | none => 0
  | some (f, n) =>
    if 31 < n then nodeField node (f + 1) * 19 + nodeField node f else nodeField node f

/-- A node ID with its coordinate in dimension `d` replaced. -/
def withCoord (sizes : List Nat) (d node c : Nat) : Nat :=
  match (dims sizes)[d]? with
  | none => node
  | some (f, n) =>
    if 31 < n then
      setFld (setFld node (5 * f + 4) (5 * f) (c % 19)) (5 * f + 9) (5 * f + 5) (c / 19)
    else setFld node (5 * f + 4) (5 * f) c

/-- The number of fields that the used dimensions take. -/
def fieldsTaken (sizes : List Nat) : Nat := sumBy (fun n => if 31 < n then 2 else 1) (usedSizes sizes)

/-- The first field of a dimension whose value is reserved (R5).  `any`: 31 is legal. -/
def badDim (node : Nat) (any : Bool) (f n : Nat) : Option Nat :=
  let lo := nodeField node f
  if n ≤ 31 then (if lo < n || (any && lo == 31) then none else some f)
  else
    let up := nodeField node (f + 1)
    let anyLo := any && lo == 31
    let anyUp := any && up == 31
    if !(lo < 19 || anyLo) then some f
    else if !(up < 2 || anyUp) then some (f + 1)
    else if anyLo || anyUp then none
    else if n ≤ up * 19 + lo then some f
    else none

/-- The first coordinate field of a node ID that makes it malformed (R5); unused fields hold 0. -/
def badField (sizes : List Nat) (any : Bool) (node : Nat) : Option Nat :=
  match (dims sizes).findSome? fun d => badDim node any d.1 d.2 with
  | some f => some f
  | none =>
    (rangeFrom (fieldsTaken sizes) (4 - fieldsTaken sizes)).find? fun f =>
      nodeField node f != 0 && !(any && nodeField node f == 31)

/-- The live shape (0x6001:00..03). -/
def shape (s : State) : List Nat := (rangeFrom 0 4).map (rc s 0x6001)

/-- Is a node ID malformed where 31 is not legal (R5)? -/
def nodeBad (s : State) (node : Nat) : Bool := (badField (shape s) false node).isSome

/-- The node of an identity, and its endpoint (R3). -/
def idNode (id : Nat) : Nat := id / 4096
def idEp (id : Nat) : Nat := id % 4096

/-- Own coordinate in dimension `d`. -/
def ownCoord (s : State) (d : Nat) : Nat := coord (shape s) d (ownNode s)

/-! ### The port map (R261, R262) -/

/-- An entry of the port map after pass 2. -/
structure MapEntry where
  mode : Nat
  dim : Nat
  coord : Nat
deriving DecidableEq, Repr

def mapEntry (n : Nat) : MapEntry := { mode := fld n 31 29, dim := fld n 28 27, coord := fld n 26 21 }

/-- Step 1: the default assignment of port `p`. -/
def autoEntry (sizes : List Nat) (node p : Nat) : List Nat → Nat → Nat → MapEntry
  | [], _, _ => { mode := 3, dim := 0, coord := 0 }
  | n :: r, d, base =>
    if p < base + n - 1 then
      let j := p - base
      { mode := 1, dim := d, coord := if j < coord sizes d node then j else j + 1 }
    else autoEntry sizes node p r (d + 1) (base + n - 1)

/-- Steps 1 and 2 for the entry of port `p`. -/
def resolve12 (sizes : List Nat) (node p : Nat) (e : MapEntry) : MapEntry :=
  let e := if e.mode = 0 then autoEntry sizes node p (usedSizes sizes) 0 0 else e
  if e.mode = 1 || e.mode = 2 then
    match (dims sizes)[e.dim]? with
    | none => { e with mode := 3 }
    | some (_, n) =>
      if n ≤ e.coord || e.coord = coord sizes e.dim node then { e with mode := 3 } else e
  else e

/-- Step 3: of the DIRECT entries with one pair the first keeps DIRECT. -/
def resolve3 : List MapEntry → List MapEntry → List MapEntry
  | _, [] => []
  | seen, e :: r =>
    if e.mode = 1 && seen.any (fun x => x.dim == e.dim && x.coord == e.coord) then
      { e with mode := 2 } :: resolve3 seen r
    else e :: resolve3 (if e.mode = 1 then e :: seen else seen) r

/-- Step 4: a bond without a DIRECT port is DISABLED. -/
def resolve4 (l : List MapEntry) : List MapEntry :=
  l.map fun e =>
    if e.mode = 2 && !l.any (fun x => x.mode == 1 && x.dim == e.dim && x.coord == e.coord) then
      { e with mode := 3 } else e

/-- The resolved port map of 72 entries. -/
def resolveMap (sizes : List Nat) (node : Nat) (entries : List Nat) : List MapEntry :=
  resolve4 (resolve3 [] ((rangeFrom 0 72).map fun p =>
    resolve12 sizes node p (mapEntry (entries.getD p 0))))

/-- The map as the routing unit holds it. -/
def portEntries (l : List MapEntry) : List PortEntry :=
  l.map fun e =>
    { mode := if e.mode = 1 then .direct else if e.mode = 2 then .bonded else .disabled
      dim := e.dim, coord := e.coord }

end Sys2Proof.Machine
end

