-- ==== Sys2Proof/Machine/FlowBase.lean ====
section
/-!
DEFINITION. Egress queues, credit books and squall marks (R294 to R300, R305).
-/
namespace Sys2Proof.Machine

def portFlow (s : State) (p : Nat) : PortFlow := sget {} s.fs.ports p

def setFlow (p : Nat) (f : PortFlow → PortFlow) (s : State) : State :=
  { s with fs := { s.fs with ports := smod {} s.fs.ports p f } }

def vcBook (s : State) (p v : Nat) : VcCredit := sget {} (portFlow s p).vc v

def setVc (p v : Nat) (f : VcCredit → VcCredit) (s : State) : State :=
  setFlow p (fun x => { x with vc := smod {} x.vc v f }) s

/-- Credits that a packet costs (R295). -/
def pktCost (p : Packet) : Nat := (64 + p.payload.length + 255) / 256

/-- The pool of a VC. -/
def pool (s : State) (v : Nat) : Nat := rc s 0x6800 v

/-- Depth of the egress queues of a VC, in cells. -/
def vcDepth (s : State) (p v : Nat) : Nat :=
  sumBy (fun q => if q.packet.vc = v then q.cost else 0) (portFlow s p).queue

/-- The credit of a VC has changed: packets on VC16 and VC18 begin to wait for one, or end their wait (R268). -/
def noteWait (p v : Nat) (s : State) : State :=
  let upd (q : QPkt) : QPkt :=
    if q.packet.vc != v then q
    else { q with waitTo :=
      if (q.cost : Int) ≤ (vcBook s p v).credit then none else some (q.waitTo.getD (ticks s + rc s 0x6037 0)) }
  when_ (v == 16 || v == 18) (setFlow p fun x => { x with queue := x.queue.map upd }) s

/-- Place a packet in the egress queue of a port: SQUALL at or above the threshold (R305). -/
def enqueue (port flow : Nat) (from_ : Option Nat) (pk : Packet) (s : State) : State :=
  let cost := pktCost pk
  let depth := vcDepth s port pk.vc + cost
  let limit := rc s (if pk.colour = 1 then 0x6841 else 0x6840) pk.vc
  let mark := pk.vc < 18 && limit ≤ depth
  let pk := if mark then { pk with squall := true } else pk
  let s := when_ mark (bump 0x6842 port) s
  noteWait port pk.vc (setFlow port (fun x => { x with
    queue := x.queue ++ [{ packet := pk, flow := flow, cost := cost, since := now s, from_ := from_ }] }) s)

/-- The full grant after training: every VC's pool waits to be returned (R296). -/
def grantPools (p : Nat) (s : State) : State :=
  setFlow p (fun x => { x with
    vc := (rangeFrom 0 20).foldl (fun m v => sset {} m v { waiting := pool s v }) []
    matched := 0
    evaluated := false
    badMarkers := 0
    markerAt := ticks s + ticksOf 1 1000 }) s

/-- Both ends forget the credit state of a flushed port (R300). -/
def zeroCredits (p : Nat) (s : State) : State :=
  setFlow p (fun x => { x with vc := [], matched := 0, evaluated := false, badMarkers := 0 }) s

/-- Buffer cells become free: one return each, less what a shrink still withholds (R296, R297). -/
def freeCells (p v n : Nat) (s : State) : State :=
  setVc p v (fun b =>
    let w := min n b.toWithhold
    let left := b.toWithhold - w
    { b with
      occ := b.occ - n
      toWithhold := left
      withheld := if left = 0 then 0 else b.withheld + w
      waiting := b.waiting + (n - w) }) s

/-- The pool of a VC changes at one port (R297). -/
def poolChange (p v old new : Nat) (s : State) : State :=
  let s := setFlow p (fun x => { x with evaluated := false }) s
  if old ≤ new then
    setVc p v (fun b =>
      let c := min (new - old) b.toWithhold
      { b with toWithhold := b.toWithhold - c, waiting := b.waiting + (new - old - c) }) s
  else
    setVc p v (fun b =>
      let w := min (old - new) b.waiting
      let left := b.toWithhold + (old - new - w)
      { b with
        waiting := b.waiting - w
        toWithhold := left
        withheld := if left = 0 then 0 else b.withheld + w }) s

/-- Is a port withholding returns (bit 21 of 0x6802)? -/
def withholding (s : State) (p : Nat) : Bool := (portFlow s p).vc.any fun b => b.2.toWithhold != 0

/-- The packet that leaves an ingress buffer frees its cells. -/
def leaveIngress (from_ : Option Nat) (pk : Packet) (s : State) : State :=
  match from_ with
  | some p => freeCells p pk.vc (pktCost pk) s
  | none => s

/-- A queued packet frees the cells it still occupies at its ingress port: those of the virtual channel
on which it arrived (R241, R296). -/
def leaveQueued (q : QPkt) (s : State) : State :=
  leaveIngress q.from_ { q.packet with vc := vcFor q.packet.type (q.packet.hops - 1) } s

/-- Put a packet of this module at the end of those waiting for a lookup (R239). -/
def injectPacket (pk : Packet) (s : State) : State :=
  bumpG15 5 pk.payload.length (bumpG15 4 1 { s with rt := { s.rt with inject := s.rt.inject ++ [pk] } })

/-- Deliver a packet to the unit of this module that takes its type. -/
def deliver (pk : Packet) (s : State) : State :=
  when_ (pk.type == tMGMT) (later (.mgmt pk)) <| bumpG15 7 pk.payload.length (bumpG15 6 1 { s with rt := { s.rt with delivered := s.rt.delivered ++ [pk] } })

/-- STAMP of a packet that enters the fabric: 0 while FREE (R239). -/
def stampNow (s : State) : Nat := if timeFree s then 0 else now s

end Sys2Proof.Machine
end

