-- ==== Sys2Proof/Machine/Power.lean ====
section
/-!
DEFINITION. Power domains, their start and their leaving, and the fault collector (R487 to R494,
R543 to R557).
-/
namespace Sys2Proof.Machine

/-! ### Domains -/

def setDomain (d : Nat) (v : DomPower) (s : State) : State :=
  { s with pr := { s.pr with domains := sset .off s.pr.domains d v } }

/-- The parent of a domain (Table 18-2); PD_AO has none. -/
def parentOf (d : Nat) : Option Nat :=
  if d = 0 then none
  else if d = 1 then some 0
  else if 13 ≤ d && d ≤ 21 then some (d - 9)
  else some 1

def parentOn (s : State) (d : Nat) : Bool :=
  match parentOf d with
  | none => true
  | some p => domOn s p

/-- The domains below one, lowest level first. -/
def childrenOf (d : Nat) : List Nat :=
  if d = 0 then rangeFrom 13 9 ++ rangeFrom 2 11 ++ rangeFrom 22 8 ++ [1]
  else if d = 1 then rangeFrom 13 9 ++ rangeFrom 2 11 ++ rangeFrom 22 8
  else if 4 ≤ d && d ≤ 12 then [d + 9]
  else []

/-- One domain leaves ON or RAMPING; its effects (Table 18-4) are left for the units. -/
def leaveOne (d : Nat) (isolated : Bool) (s : State) : State :=
  match domState s d with
  | .on | .ramping =>
    let was := domOn s d
    let s := setDomain d (if isolated then .isolated else .off) s
    let s := when_ isolated (bump 0x3003 d) s
    if was then later (.domainLeaves d isolated) s else s
  | _ => s

/-- A domain leaves ON, children first (Table 18-3). -/
def leaveOn (d : Nat) (isolated : Bool) (s : State) : State :=
  leaveOne d isolated (foldSt (fun c s => leaveOne c false s) (childrenOf d) s)

/-- The start order of R493. -/
def startOrder : List Nat :=
  [1, 28, 29, 22, 23, 24, 25, 26, 27, 2, 3] ++ (rangeFrom 0 9).flatMap fun k => [4 + k, 13 + k]

/-- May a domain start in this phase of the boot (R493, R513, R515)? -/
def mayStart (s : State) (d : Nat) : Bool :=
  !s.pr.shed && !s.pr.held.contains d &&
    match s.rs.phase with
    | .running =>
      !(s.rs.restricted && ((4 ≤ d && d ≤ 27))) && rcOn s 0x3000 d
    | .waiting => s.sb.bootSel == 3 && (d == 1 || d == 2 || d == 3)
    | _ => false

/-- Is the parent of a domain on its way to ON, so that the domain's place waits for it? -/
def parentRamps (s : State) (d : Nat) : Bool :=
  match parentOf d with
  | none => false
  | some p => domState s p == .ramping

/-- The domain whose turn it is: the order of R493, then the domains enabled later.  A domain whose parent
ramps holds those behind it. -/
def nextStart (s : State) : Option Nat :=
  let ready (d : Nat) : Bool := domState s d == .off && mayStart s d && (parentOn s d || parentRamps s d)
  let first : Option Nat := match startOrder.find? fun d => ready d && !s.pr.lateStart.contains d with
    | some d => some d
    | none => s.pr.lateStart.find? ready
  match first with
  | some d => if parentOn s d then some d else none
  | none => none

/-- Have 1 ms passed since the last start (R493)? -/
def startSpaced (s : State) : Bool :=
  match s.pr.startAt with
  | some t => decide (t + ticksOf 1 1000 ≤ ticks s)
  | none => true

/-- A domain joins the end of the start order. -/
def startLast (d : Nat) (s : State) : State :=
  { s with pr := { s.pr with lateStart := s.pr.lateStart.filter (fun x => x != d) ++ [d] } }

/-! ### The fault collector -/

/-- Sources that Table 21-1 lists, and those that are conditions. -/
def isSource (n : Nat) : Bool := (1 ≤ n && n ≤ 21) || n == 255
def isCondition (n : Nat) : Bool :=
  n == 1 || n == 3 || n == 4 || n == 7 || n == 10 || n == 12 || n == 13 || n == 14 || n == 17 || n == 18

/-- The domain that a raise isolates (Table 21-1). -/
def isolates (src inst : Nat) : Option Nat :=
  if src = 2 then (if inst = 0 then none else some inst)
  else if src = 11 then some (dSC (inst / 8))
  else if src = 16 then some (dOE (inst / 4 / 8))
  else if src = 18 then some (dOE inst)
  else if src = 19 then some (dEC (inst / 16))
  else if src = 20 then some (dHB inst)
  else none

/-- FAULT_N follows safe state and the sticky sources at or above 0x3805:00 (R548). -/
def evalFaultN (s : State) : State :=
  let any := s.fc.sticky.any fun e => e.2 && rc s 0x3805 0 ≤ rc s 0x3800 e.1
  { s with fc := { s.fc with faultN := s.fc.safe || any } }

/-- The bits of a history entry (Table 21-3). -/
def histBits (h : HistEntry) : Nat :=
  h.stamp * 2 ^ 64 + h.source * 2 ^ 56 + h.severity * 2 ^ 53 + b2n h.tfree * 2 ^ 52
    + h.inst % 2 ^ 16 * 2 ^ 32 + h.data % 2 ^ 32

/-- Entry to safe state (R553). -/
def enterSafe (src : Nat) (s : State) : State :=
  if s.fc.safe then s
  else
    let s := { s with
      fc := { s.fc with safe := true, faultN := true, frozen := true, safeSource := src, lastSafe := now s }
      pr := { s.pr with dmaOff := true } }
    later .lasersOff (bump 0x3843 0 s)

/-- One notice queue (R550): at most one notice per source in each 1 ms of MT. -/
def notice (k src inst sev data : Nat) (s : State) : State :=
  let v := rc s 0x3830 k
  if !bit v 31 then s
  else
    let key := k * 256 + src
    let recent := match mget? s.fc.noticeAt key with
      | some t => ticks s < t + ticksOf 1 1000
      | none => false
    if recent || s.pr.dmaOff then bump 0x3842 0 s
    else
      let s := { s with fc := { s.fc with noticeAt := mput s.fc.noticeAt key (ticks s) } }
      postEvent (fld v 19 0) 0x0600 (inst % 65536 * 65536 + src * 256) sev
        (data % 2 ^ 32 * 2 ^ 32 + now s % 2 ^ 32) s

/-- The collector takes a raise (R546, R547): the accumulated reactions of its live severity. -/
def takeRaise (src inst data : Nat) (s : State) : State :=
  if !isSource src then s
  else
    let sev := rc s 0x3800 src
    if sev = 0 then s
    else
      let s := bump 0x3801 src s
      let s := { s with fc := { s.fc with sticky := sset false s.fc.sticky src true } }
      let h : HistEntry :=
        { stamp := now s, source := src, severity := sev, tfree := timeFree s, inst := inst, data := data }
      -- log: history, event log, push
      let s := if sev < 2 then s
        else
          let s := if s.fc.frozen then bump 0x3841 0 s
            else
              let l := s.fc.history ++ [h]
              { s with fc := { s.fc with history := l.drop (l.length - 64) } }
          let s := logEvent 0 src inst sev (beBytes 4 data) s
          later (.push 2 0 (beBytes 16 (histBits h))) s
      -- safe state precedes the notices: no request leaves after its decision
      let s := if 6 ≤ sev then enterSafe src s else s
      let s := if 3 ≤ sev then notice 1 src inst sev data (notice 0 src inst sev data s) else s
      -- isolate
      let s := if 4 ≤ sev then
          match isolates src inst with
          | some d => leaveOn d true s
          | none => s
        else s
      let s := when_ (sev == 5) (later .withdraw) s
      -- the reset of a raise during a warm reset is absorbed into it (R558)
      let s := if sev = 7 && !s.fc.holdRunning && s.rs.phase != .resetWarm then
          { s with fc := { s.fc with holdRunning := true, holdAt := ticks s + rc s 0x3806 0 } }
        else s
      evalFaultN s

/-- A raise that a unit makes: a condition source stays active (R544). -/
def unitRaise (src inst data : Nat) (s : State) : State :=
  let s := if isCondition src then
      { s with fc := { s.fc with active := mput s.fc.active (src * 65536 + inst) data } }
    else s
  takeRaise src inst data s

/-- A raise: a regulator fault isolates its domain at any severity (Table 18-3); an uncorrectable error of a
host link counts in 0xA033 (DEDUCED, assumption 182). -/
def faultRaise (src inst data : Nat) (s : State) : State :=
  let s := when_ (src == 21 && decide (inst < 2)) (bump 0xA033 inst) s
  let s := if src = 2 && inst ≠ 0 && inst < 30 then leaveOn inst true s else s
  unitRaise src inst data s

/-- A condition ends. -/
def endCondition (src inst : Nat) (s : State) : State :=
  { s with fc := { s.fc with active := mdel s.fc.active (src * 65536 + inst) } }

/-- Conditions of a source that are still active are raised again at once (R544, R556). -/
def reraise (src : Nat) (s : State) : State :=
  foldSt (fun e s => if e.1 / 65536 = src then takeRaise src (e.1 % 65536) e.2 s else s) s.fc.active s

/-- CLEAR_SOURCE and CLEAR_ALL (R556). -/
def clearSource (src : Nat) (s : State) : State :=
  let s := { s with fc := { s.fc with sticky := sset false s.fc.sticky src false } }
  evalFaultN (reraise src s)

def clearAll (s : State) : State :=
  let s := { s with fc := { s.fc with sticky := [] } }
  evalFaultN (foldSt (fun e s => takeRaise (e.1 / 65536) (e.1 % 65536) e.2 s) s.fc.active s)

def unfreeze (s : State) : State := { s with fc := { s.fc with frozen := false } }

def emptyHistory (s : State) : State := { s with fc := { s.fc with history := [], frozen := false } }

/-- The clear command word (Table 21-5). -/
def clearCommand (v : Nat) (s : State) : State :=
  let action := fld v 15 8
  let src := fld v 7 0
  if action = 1 then clearSource src s
  else if src ≠ 0 then s
  else if action = 2 then clearAll s
  else if action = 3 then unfreeze s
  else if action = 4 then emptyHistory s
  else s

/-- The bits of 0x3804:00. -/
def collectorState (s : State) : Nat :=
  b2n s.fc.safe + b2n s.fc.faultN * 2 + b2n s.fc.frozen * 4 + b2n s.fc.withdrawn * 8
    + b2n s.fc.holdRunning * 16 + s.fc.safeSource * 256

/-! ### Input (R487, R488) -/

/-- Shed: lasers off, DMA mastering off, every domain except PD_AO off, and the log entry. -/
def shed (code vin : Nat) (s : State) : State :=
  let pin := s.pr.pinScan
  let s := { s with pr := { s.pr with
    shed := true, inputGood := false, dmaOff := true, vinScan := vin
    inputEvents := Nat.lor s.pr.inputEvents (if code = 1 then 1 else 2) } }
  let s := later .lasersOff s
  let s := leaveOn 1 false s
  logEvent 6 0 code 3 (beBytes 4 vin ++ beBytes 4 pin) s

/-! ### Services (R518) -/

/-- 0x3460:00. -/
def services (s : State) : Nat :=
  let data := domOn s 1 && (domOn s 2 || domOn s 3) && ((rangeFrom 22 6).any (domOn s)) &&
    (domOn s 28 || domOn s 29)
  let fabric := data && (rangeFrom 0 9).any fun k => domOn s (dSC k) && domOn s (dOE k)
  let dold := s.rs.phase == .doldrums
  b2n (domOn s 0 && (s.rs.phase == .running || dold)) + b2n data * 2 + b2n fabric * 4
    + b2n s.rs.restricted * 8 + b2n dold * 16

end Sys2Proof.Machine
end

