-- ==== Sys2Proof/Machine/Routing.lean ====
section
/-!
DEFINITION. Routing: epoch tables, port states, reach masks, vanes, route computation, reachability
(R263 to R282).
-/
namespace Sys2Proof.Machine

def portRoute (s : State) (p : Nat) : PortRoute := sget {} s.rt.ports p

def setPort (p : Nat) (f : PortRoute → PortRoute) (s : State) : State :=
  { s with rt := { s.rt with ports := smod {} s.rt.ports p f } }

/-! ### Epoch tables (R279 to R282) -/

/-- The tables that live values describe. -/
def tablesOf (look : Nat → Nat → List Byte) (epoch : Nat) : EpochTables where
  epoch := epoch
  map := portEntries (resolveMap ((rangeFrom 0 4).map fun d => beNat (look 0x6001 d))
    (beNat (look 0x6000 0)) (entriesOf 4 72 (look 0x6010 0)))
  enables := sumBy (fun p => if beNat (look 0x6011 p) = 0 then 0 else 2 ^ p) (rangeFrom 0 72)
  exceptions := entriesOf 16 65536 (look 0x6020 0)
  absent := entriesOf 4 8192 (look 0x6021 0)
  crosswind := beNat (look 0x6030 0) != 0

/-- The tables that a TEPOCH names: live, previous or pending (R281). -/
def tablesFor (s : State) (e : Nat) : Option EpochTables :=
  if s.rt.live.epoch = e then some s.rt.live
  else match s.rt.prev with
    | some t => if t.epoch = e then some t else
        (match s.rt.pending with | some n => if n.epoch = e then some n else none | none => none)
    | none => match s.rt.pending with | some n => if n.epoch = e then some n else none | none => none

/-- 0x6003:00. -/
def epochsHeld (s : State) : Nat :=
  let ep (t : Option EpochTables) : Nat := match t with | some t => t.epoch | none => 0
  s.rt.live.epoch + ep s.rt.prev * 4 + ep s.rt.pending * 16 + b2n s.rt.prev.isSome * 64
    + b2n s.rt.pending.isSome * 128

/-- The live entry of a port. -/
def liveEntry (s : State) (p : Nat) : PortEntry :=
  match s.rt.live.map[p]? with
  | some e => e
  | none => { mode := .disabled, dim := 0, coord := 0 }

/-- Is a port a fabric port: DIRECT or BONDED (R263)? -/
def isFabricPort (s : State) (p : Nat) : Bool := (liveEntry s p).mode != .disabled

/-- The peer that a port expects (R263). -/
def expectedPeer (s : State) (p : Nat) : Nat :=
  let e := liveEntry s p
  withCoord (shape s) e.dim (ownNode s) e.coord

/-! ### Reach masks (R266) -/

/-- Is a port usable for a lookup under tables `t` (R265)? -/
def usable (s : State) (t : EpochTables) (p : Nat) : Bool :=
  (portRoute s p).state == .up && bit t.enables p && s.pr.departure != .departed

/-- Does a port carry what is already bound to it: established lanes, and queued packets (R264, R265, R291)?
A route enable of 0 and a departing peer do not end that while the link is up, nor does a link that is down
within its grace. -/
def carries (s : State) (p : Nat) : Bool :=
  match (portRoute s p).state with
  | .up | .down | .departing => true
  | .training => (sget {} s.ll.ports p).state == .active
  | .disabled | .miswired => false

/-- The ports of tables `t` that lead to coordinate `c` of dimension `d`; those of dimension `d`. -/
def portsTo (t : EpochTables) (d c : Nat) : List Nat :=
  (rangeFrom 0 72).filter fun p => match t.map[p]? with
    | some e => e.mode != .disabled && e.dim == d && e.coord == c
    | none => false

def portsIn (t : EpochTables) (d : Nat) : List Nat :=
  (rangeFrom 0 72).filter fun p => match t.map[p]? with
    | some e => e.mode != .disabled && e.dim == d
    | none => false

/-- The peer's mask for a dimension: every coordinate until its first HEALTH arrives. -/
def maskBit (s : State) (p d c : Nat) : Bool :=
  match mget? (portRoute s p).masks d with
  | some arg => bit arg c
  | none => true

/-- The argument of the HEALTH message for dimension `d` (Table 09-3). -/
def healthArg (s : State) (d seq : Nat) : Nat :=
  let t := s.rt.live
  let m := sumBy (fun y =>
    if y = ownCoord s d || (portsTo t d y).any (usable s t) then 2 ^ y else 0) (rangeFrom 0 37)
  d * 2 ^ 62 + seq % 256 * 2 ^ 40 + m

/-- A LINK_CTL packet for the peer of a port (R241, R254). -/
def linkCtlPacket (s : State) (p kind arg : Nat) : Packet where
  type := tLINKCTL
  vc := 19
  hops := 1
  dest := (match (portRoute s p).peer with | some n => n | none => expectedPeer s p) * 4096
  source := ownIdentity s 0
  tepoch := s.rt.live.epoch
  stamp := if timeFree s then 0 else now s
  th := linkCtlTH kind arg

/-- Send a LINK_CTL message on a port. -/
def sendLinkCtl (p kind arg : Nat) (s : State) : State :=
  enqueue p 0 none (linkCtlPacket s p kind arg) s

/-- HEALTH for every used dimension on one port. -/
def sendHealth (p : Nat) (s : State) : State :=
  forRange 0 (usedSizes (shape s)).length (fun d s =>
    sendLinkCtl p 3 (healthArg s d s.rt.healthSeq)
      { s with rt := { s.rt with healthSeq := (s.rt.healthSeq + 1) % 256 } }) s

/-- HEALTH on each UP or DEPARTING port. -/
def healthAll (s : State) : State :=
  forRange 0 72 (fun p s =>
    match (portRoute s p).state with
    | .up | .departing => sendHealth p s
    | _ => s) s

/-- A port changes state: HEALTH to the others, and reachability is evaluated (R264, R266, R277). -/
def setPortState (p : Nat) (st : PortState) (s : State) : State :=
  if (portRoute s p).state = st then s
  else
    let up := st == .up
    let s := setPort p (fun x => { x with state := st, vanes := if up then [] else x.vanes }) s
    later .reach (healthAll s)

/-- Reach masks and the peer are forgotten. -/
def clearMasks (p : Nat) (s : State) : State := setPort p (fun x => { x with masks := [] }) s

/-! ### Vanes (R271) -/

def vane (s : State) (p v : Nat) : Nat := (portRoute s p).vanes.getD v 0

def vaneStep (s : State) (p v : Nat) : Nat :=
  let total := pool s v
  let used := ((total : Int) - (vcBook s p v).credit).toNat
  let dscale := rc s 0x6034 0
  let k := rc s 0x6033 0
  let x := 128 * used / total + 127 * min (vcDepth s p v) dscale / dscale
  (vane s p v * (2 ^ k - 1) + x) / 2 ^ k

def vaneUpdate (s : State) : State :=
  forRange 0 72 (fun p s =>
    if isFabricPort s p then
      setPort p (fun x => { x with vanes := (rangeFrom 0 20).map (vaneStep s p) }) s
    else s) s

/-! ### Route computation (R269 to R276) -/

/-- A candidate: the port, its dimension, and whether it is a crosswind. -/
structure Cand where
  port : Nat
  dim : Nat
  cross : Bool
deriving DecidableEq, Repr

/-- Does a pattern match a node (R274)? -/
def patternMatches (pat node : Nat) : Bool :=
  (rangeFrom 0 4).all fun f => nodeField pat f == 31 || nodeField pat f == nodeField node f

/-- Does SCOPE cover a type? -/
def scopeCovers (e t : Nat) : Bool :=
  (bit e 88 && isRequest t) || (bit e 89 && isResponse t) || (bit e 90 && t == tCOLL) ||
    (bit e 91 && t == tMGMT)

/-- The entries of the exception table that match a packet, in table order. -/
def matching (t : EpochTables) (pk : Packet) : List Nat :=
  t.exceptions.filter fun e =>
    fld e 127 124 != 0 && patternMatches (fld e 119 100) (idNode pk.dest) && scopeCovers e pk.type

/-- The dimensions in which a node differs from this one. -/
def unresolved (s : State) (node : Nat) : List Nat :=
  (rangeFrom 0 (usedSizes (shape s)).length).filter fun d => coord (shape s) d node != ownCoord s d

/-- The candidates of R269, before exceptions. -/
def candidates (s : State) (t : EpochTables) (pk : Packet) : List Cand :=
  let node := idNode pk.dest
  let sh := shape s
  let u := unresolved s node
  let adaptive := isRequest pk.type || isResponse pk.type
  u.flatMap fun d =>
    let c := coord sh d node
    let rest := u.filter fun e => e != d
    let onward (q : Nat) : Bool :=
      !adaptive || rest.isEmpty || rest.any fun e => maskBit s q e (coord sh e node)
    let direct := ((portsTo t d c).filter fun q => usable s t q && onward q).map fun q =>
      { port := q, dim := d, cross := false : Cand }
    let cross :=
      if t.crosswind && !pk.order && !bit pk.detour d && adaptive then
        ((portsIn t d).filter fun q =>
          (match t.map[q]? with | some e => e.coord != c | none => false) && usable s t q &&
            maskBit s q d c).map fun q => { port := q, dim := d, cross := true : Cand }
      else []
    direct ++ cross

/-- AVOID, MINIMAL and VIA on the candidates: what is left, entries applied, VIA entries ignored. -/
def applyExceptions (es : List Nat) (c : List Cand) : List Cand × Nat × Nat :=
  let avoid := es.filter fun e => fld e 127 124 == 1
  let c := c.filter fun x => !avoid.any fun e => fld e 99 92 == x.port
  let minimal := es.filter fun e => fld e 127 124 == 3
  let c := if minimal.isEmpty then c else c.filter fun x => !x.cross
  let n := avoid.length + minimal.length
  match es.find? fun e => fld e 127 124 == 2 with
  | none => (c, n, 0)
  | some e =>
    let only := c.filter fun x => x.port == fld e 99 92
    if only.isEmpty then (c, n, 1) else (only, n + 1, 0)

/-- The VC that a packet takes on its next link. -/
def nextVC (pk : Packet) : Nat := vcFor pk.type (pk.hops + 1)

/-- The cost of a candidate (R272). -/
def candCost (s : State) (pk : Packet) (c : Cand) : Nat :=
  vane s c.port (nextVC pk) + (if c.cross then rc s 0x6031 0 else 0)

/-- The input of the tie break (R272): SOURCE, DEST, RSN and OFFSET as 4, 4, 3 and 4 bytes, most
significant first (assumption 11). -/
def tieKey (pk : Packet) : Nat :=
  let rsn := if isRequest pk.type || (0x20 ≤ pk.type && pk.type ≤ 0x23) then pRSN pk else 0
  let off := if isRequest pk.type || (0x20 ≤ pk.type && pk.type ≤ 0x23) then pOFFSET pk else 0
  crc32c (beBytes 4 pk.source ++ beBytes 4 pk.dest ++ beBytes 3 rsn ++ beBytes 4 off)

/-- The candidate taken. -/
def choose (s : State) (pk : Packet) (c : List Cand) : Option Cand :=
  if isRequest pk.type || isResponse pk.type then
    match c with
    | [] => none
    | h :: r =>
      let low := r.foldl (fun m x => min m (candCost s pk x)) (candCost s pk h)
      let tied := (c.filter fun x => candCost s pk x == low).foldr (fun x l => insertBy Cand.port x l) []
      tied[tieKey pk % tied.length]?
  else
    -- dimension order, lowest-numbered port (R267, R273)
    match c.head? with
    | none => none
    | some h =>
      (c.filter fun x => x.dim == h.dim).foldl (fun (b : Option Cand) x => match b with
        | none => some x
        | some y => if x.port < y.port then some x else some y) none

/-- The outcome of a lookup. -/
inductive Route where
  /-- this module is the destination -/
  | here
  | port (c : Cand)
  /-- TEPOCH is not held (R281) -/
  | stale
  /-- no candidate, absent, or UNREACHABLE (R277) -/
  | none
deriving DecidableEq, Repr

/-- The lookup, with the counts of exceptions (R269, R274). -/
def routeOf (s : State) (pk : Packet) : Route × Nat × Nat :=
  match tablesFor s pk.tepoch with
    | none => (.stale, 0, 0)
    | some t =>
      if idNode pk.dest = ownNode s then (.here, 0, 0) else
      let es := matching t pk
      let un := es.filter fun e => fld e 127 124 == 4
      if t.absent.contains (idNode pk.dest) then (.none, 0, 0)
      else if !un.isEmpty then (.none, un.length, 0)
      else
        let (c, n, ign) := applyExceptions es (candidates s t pk)
        if 8 ≤ pk.hops then (.none, n, ign)
        else match choose s pk c with
          | some x => (.port x, n, ign)
          | none => (.none, n, ign)

/-- Does a packet open a fabric operation: the first packet of a request, a JOIN, or a LANE_SETUP? -/
def opensOperation (pk : Packet) : Bool :=
  pk.attempt == 0 &&
    ((isRequest pk.type && pk.type != tSKIP && pk.type != tRGET && pOFFSET pk == 0) ||
     (pk.type == tCOLL && cKIND pk == 0) || pk.type == tLANESETUP)

/-- A packet finds no way (R277): at this module's injection its operation ends; a notice of this module's own
flush is discarded and counted apart; in transit it is discarded. -/
def unroutable (inject : Bool) (pk : Packet) (s : State) : State :=
  if !inject then bump 0x6061 0 s
  else if pk.type = tLOSS then bump 0x6069 0 s
  else later (.noRoute pk) (bump 0x606A 0 s)

/-- Route one packet: at injection (`from_` none) or in transit. -/
def routePacket (from_ : Option Nat) (pk : Packet) (s : State) : State :=
  let inject := from_.isNone && pk.hops = 0
  let pk := if inject then { pk with tepoch := s.rt.live.epoch } else pk
  let (r, applied, ignored) := routeOf s pk
  let s := bumpBy 0x6064 0 applied (bumpBy 0x6065 0 ignored s)
  match r with
  | .here =>
    let s := deliver pk (leaveIngress from_ pk s)
    if inject then later (.left pk) s else s
  | .stale => bump 0x6062 0 (leaveIngress from_ pk s)
  | .none =>
    let s := leaveIngress from_ pk s
    unroutable inject pk s
  | .port c =>
    -- a module that departs starts no operation (R497)
    if inject && s.pr.departure != .joined && opensOperation pk then
      later (.noRoute pk) (bump 0x606A 0 s)
    else
    let s := when_ c.cross (fun s => bumpPort c.port 13 1 (bump 0x6060 0 s)) s
    let out := { pk with
      hops := pk.hops + 1
      vc := nextVC pk
      detour := if c.cross then Nat.lor pk.detour (2 ^ c.dim) else pk.detour }
    let s := when_ (!inject) (bumpG15 8 1) s
    -- the ingress buffer is held until the packet starts (R296)
    enqueue c.port out.tclass from_ out s

/-! ### Reachability of peers (R277) -/

/-- Is a peer node, at coordinate `c` of dimension `d`, unreachable? -/
def peerUnreachable (s : State) (d c : Nat) : Bool :=
  let t := s.rt.live
  let node := withCoord (shape s) d (ownNode s) c
  t.absent.contains node ||
    (!(portsTo t d c).any (usable s t) &&
      !(portsIn t d).any fun q => usable s t q && maskBit s q d c &&
        (match t.map[q]? with | some e => e.coord != c | none => false))

/-- The peer nodes that are unreachable. -/
def unreachablePeers (s : State) : List Nat :=
  (rangeFrom 0 (usedSizes (shape s)).length).flatMap fun d =>
    let n := (shape s).getD d 0
    ((rangeFrom 0 n).filter fun c => c != ownCoord s d && peerUnreachable s d c).map fun c =>
      withCoord (shape s) d (ownNode s) c

/-! ### Port state events (Table 09-2) -/

/-- Training is complete and the session fresh: the peer reports its node ID. -/
def portTrained (p node : Nat) (s : State) : State :=
  if node = expectedPeer s p then
    let s := setPort p (fun x => { x with peer := some node, masks := [] }) s
    setPortState p .up s
  else
    raiseFault 14 p node (setPortState p .miswired (setPort p (fun x => { x with peer := some node }) s))

/-- The link is down within its grace period, or back. -/
def portDown (p : Nat) (s : State) : State :=
  match (portRoute s p).state with
  | .up => setPortState p .down s
  | .departing => setPortState p .training (clearMasks p s)
  | _ => s

def portBack (p : Nat) (s : State) : State :=
  match (portRoute s p).state with
  | .down => setPortState p .up s
  | _ => s

/-- The grace period ends, or the session is flushed: back to TRAINING. -/
def portFlushed (p : Nat) (s : State) : State :=
  match (portRoute s p).state with
  | .disabled => s
  | st =>
    let s := when_ (st == .miswired) (endCondition 14 p) s
    setPortState p .training (clearMasks p (setPort p (fun x => { x with peer := none }) s))

/-- DEPART and DEPART_DONE from the peer. -/
def portDepart (p : Nat) (s : State) : State :=
  match (portRoute s p).state with
  | .up => setPortState p .departing s
  | _ => s

/-- DEPART_DONE: the port is TRAINING again, and what its peer has told TB ends. -/
def portDepartDone (p : Nat) (s : State) : State :=
  match (portRoute s p).state with
  | .departing => later (.peerGone p) (setPortState p .training (clearMasks p s))
  | _ => s

/-- HEALTH from the peer of a port. -/
def healthArrive (p arg : Nat) (s : State) : State :=
  let d := fld arg 63 62
  -- a non-zero reserved field makes it malformed (R9)
  if fld arg 61 48 ≠ 0 || fld arg 39 37 ≠ 0 then s
  else if (usedSizes (shape s)).length ≤ d then s
  else later .reach (setPort p (fun x => { x with masks := mput x.masks d arg }) s)

/-- One replica entry that differs from the copy is used (R283)? -/
def replicaUsed (s : State) (idx k : Nat) : Bool :=
  if idx = 0x6010 || idx = 0x6011 then isFabricPort s k
  else if idx = 0x6020 then
    match s.rt.live.exceptions[k]? with
    | none => false
    | some e =>
      let a := fld e 127 124
      a != 0 && !((a == 1 || a == 2) && !isFabricPort s (fld e 99 92))
  else if idx = 0x6021 then k < s.rt.live.absent.length
  else idx == 0x6030

end Sys2Proof.Machine
end

