-- ==== Sys2Proof/Machine/FlowSched.lean ====
section
/-!
DEFINITION. Egress selection, gates, shapers, policers, sampling and credit audits (R298, R299,
R301 to R317).
-/
namespace Sys2Proof.Machine

/-! ### Token buckets -/

/-- Bytes per tick of a rate in Mb/s, in units of 2^-32 byte: 125 000 B/s per Mb/s. -/
def rateStep (mbps : Nat) : Nat := mbps * 125000

/-- Tokens accrue up to the depth (R311); the books follow (R312). -/
def accrue (step depth nowMt : Nat) (b : Bucket) : Bucket :=
  let add := step * (nowMt - b.at_)
  let full := depth * 2 ^ 32
  let t := b.tokens + add
  let extra := t - full
  { b with tokens := t - extra, at_ := nowMt, accrued := b.accrued + add, clipped := b.clipped + extra }

/-- Charge bytes. -/
def charge (bytes : Nat) (b : Bucket) : Bucket :=
  { b with tokens := b.tokens - bytes * 2 ^ 32, charged := b.charged + bytes * 2 ^ 32 }

/-- Does a bucket hold `bytes` tokens? -/
def holds (bytes : Nat) (b : Bucket) : Bool := bytes * 2 ^ 32 ≤ b.tokens

/-- Bytes of a packet on the wire. -/
def wireBytes (pk : Packet) : Nat := 64 + pk.payload.length

/-- Entry `c` of the shapers of a port (Table 10-4). -/
def shaperEntry (s : State) (p c : Nat) : Nat := rcEntry s 0x6830 p 8 c

/-- The buckets of a port's classes up to now. -/
def shapersNow (s : State) (p : Nat) : SMap Bucket :=
  (rangeFrom 0 8).foldl (fun m c =>
    let e := shaperEntry s p c
    if fld e 63 32 = 0 then m else smod {} m c (accrue (rateStep (fld e 63 32)) (fld e 24 0) (ticks s)))
    (portFlow s p).shapers

/-! ### Lane flows -/

/-- The reserved share of a label on an egress port (R303). -/
def labelShare (s : State) (p label : Nat) : Nat :=
  match s.rt.lanes.find? fun l => l.out == some (p, label) with
  | some l => l.share
  | none =>
    match s.rt.olanes.find? fun l => l.2.state != .free && l.2.port == p && l.2.label == label with
    | some l => l.2.share
    | none => match s.rt.laneRels.find? fun r => r.port == p && r.label == label with
      | some r => r.share
      | none => 0

/-- The share reserved on an egress port (0x6047). -/
def shareReserved (s : State) (p : Nat) : Nat :=
  sumBy (fun (e : LaneEntry) => match e.out with | some (q, _) => if q = p then e.share else 0 | none => 0)
      s.rt.lanes
    + sumBy (fun (e : Nat × OLane) => if e.2.state != .free && e.2.port == p then e.2.share else 0) s.rt.olanes
    + sumBy (fun (r : LaneRel) => if r.port = p then r.share else 0) s.rt.laneRels

/-- Is a label's flow under squall hold at this origin (R304)? -/
def labelHeld (s : State) (p label : Nat) : Bool :=
  s.rt.olanes.any fun l => l.2.state != .free && l.2.port == p && l.2.label == label && l.2.squallHold

/-- Lanes in a transmit set. -/
def lanesIn (set : Nat) : Nat := sumBy (fun i => b2n (bit set i)) [0, 1, 2, 3]

/-- The mean cell time, rounded up (R308, R361). -/
def cellTime (s : State) (p : Nat) : Nat :=
  match lanesIn (sget {} s.px.ports p).txSet with
  | 1 => 47
  | 2 => 24
  | _ => 12

/-- The payload rate of a port per tick, in units of 2^-32 byte: 2 048 of every 2 176 bits of the cell stream
(R351). -/
def payloadStep (s : State) (p : Nat) : Nat := 803125 * 16 * 125000 * (48 / cellTime s p) / (17 * 4)

/-- Tokens per tick of a held lane: SHARE ÷ 65 536 of the port's payload rate (R304). -/
def holdStep (s : State) (p share : Nat) : Nat := payloadStep s p * share / 65536

/-- The bucket of a held lane, up to MT: its burst is 16 cells. -/
def holdBucket (s : State) (p label : Nat) : Bucket :=
  accrue (holdStep s p (labelShare s p label)) 4096 (ticks s) (sget {} (portFlow s p).held label)

/-- Bring the buckets of a port up to MT. -/
def accruePort (p : Nat) (s : State) : State :=
  setFlow p (fun x => { x with
    vc18 := accrue (rateStep (rc s 0x6812 0)) (rc s 0x6813 0) (ticks s) x.vc18
    shapers := shapersNow s p
    held := x.held.map fun e => (e.1, holdBucket s p e.1) }) s

/-! ### Gates (R306 to R310) -/

def cycleLen (l : GateList) : Nat := sumBy GateEntry.duration l.entries

/-- The entry in force at offset `t` of a cycle: its number, and the offset at which it ends. -/
def entryAt : List GateEntry → Nat → Nat → Nat → Nat × Nat
  | [], k, base, _ => (k, base)
  | e :: r, k, base, t =>
    if t < base + e.duration then (k, base + e.duration) else entryAt r (k + 1) (base + e.duration) t

/-- Does a list run at instant `t`? -/
def gateRuns (s : State) (x : PortFlow) (t : Nat) : Bool :=
  !x.gates.entries.isEmpty && x.gates.base ≤ t && x.gateAt ≤ t && !timeFree s

/-- The first cycle start of a list at or after an instant. -/
def firstCycle (l : GateList) (t : Nat) : Nat :=
  let c := cycleLen l
  if t ≤ l.base || c = 0 then l.base else l.base + (t - l.base + c - 1) / c * c

/-- Bring a port's gates to MT: a pending schedule that begins, and the entry in force. -/
def refreshGates (p : Nat) (s : State) : State :=
  let t := now s
  setFlow p (fun x =>
    let x := match x.nextGates with
      | some (l, at_) => if at_ ≤ t then { x with gates := l, nextGates := none, gateAt := at_ } else x
      | none => x
    if gateRuns s x t then
      let (k, _) := entryAt x.gates.entries 0 0 ((t - x.gates.base) % cycleLen x.gates)
      let m := match x.gates.entries[k]? with | some e => e.mask | none => 255
      { x with open_ := m, entry := k, running := true }
    else { x with open_ := 255, entry := 0, running := false }) s

/-- Where a new schedule begins: at its first cycle start at or after `t`; where none lies within 2^32 s, at
`t` itself, at its entry 0 (R309). -/
def beginsAt (l : GateList) (t : Nat) : GateList × Nat :=
  let start := firstCycle l t
  if start < t || t + 2 ^ 64 ≤ start then ({ l with base := t }, t) else (l, start)

/-- The new schedule of an apply (R309). -/
def newGates (p : Nat) (entries : List Nat) (base : Nat) (s : State) : State :=
  let l : GateList := { entries := entries.map fun e => { mask := fld e 63 56, duration := fld e 31 0 }
                        base := base }
  refreshGates p (setFlow p (fun x => { x with nextGates := some (beginsAt l (now s)) }) s)

/-- The time state has left FREE: every list, one that is pending too, restarts at its first cycle start at
or after MT (R310). -/
def gatesRestart (s : State) : State :=
  forRange 0 72 (fun p s =>
    refreshGates p (setFlow p (fun x => { x with
      gateAt := if x.gates.entries.isEmpty then x.gateAt else firstCycle x.gates (now s)
      nextGates := x.nextGates.map fun n => beginsAt n.1 (now s) }) s)) s

/-- The first entry boundary of a running schedule at or after an instant of one of its cycles. -/
def boundaryFrom (l : GateList) (t : Nat) : Nat :=
  let o := (t - l.base) % cycleLen l
  let starts := (l.entries.foldl (fun (acc : Nat × Bool) g => (acc.1 + g.duration, acc.2 || acc.1 == o)) (0, false)).2
  if starts then t else t - o + (entryAt l.entries 0 0 o).2

/-- Has a schedule that runs from `start` until `stop` an instant strictly between `a` and `b`, where `next`
gives its first one at or after an instant? -/
def instantIn (l : GateList) (next : GateList → Nat → Nat) (start stop a b : Nat) : Bool :=
  let lo := max (a + 1) (max l.base start)
  !l.entries.isEmpty && lo < min stop b && next l lo < min stop b

/-- Has a port's gate schedule, the pending one that takes over included, such an instant? -/
def gatesCross (x : PortFlow) (next : GateList → Nat → Nat) (a b : Nat) : Bool :=
  match x.nextGates with
  | none => instantIn x.gates next x.gateAt b a b
  | some (l, at_) =>
    instantIn x.gates next x.gateAt at_ a b || (a < at_ && at_ < b) || instantIn l next at_ b a b

/-- A forward step from `a` to `b` (R310): the step is counted in 0x6824 where a boundary of a port's list lay
strictly between, and each list with a cycle start there fires once, late (R40; assumption 155). -/
def gatesStep (a b : Nat) (s : State) : State :=
  let ports := if timeFree s then [] else rangeFrom 0 72
  let crossed := ports.any fun p => gatesCross (portFlow s p) boundaryFrom a b
  let late := (ports.filter fun p => gatesCross (portFlow s p) firstCycle a b).length
  forRange 0 72 refreshGates (bumpBy 0x4006 0 late (when_ crossed (bump 0x6824 0) s))

/-- The next instant at which class `c` closes, over `fuel` boundaries: the next entry begins at
`t`, is number `k` of list `l`, and a pending schedule may take over. -/
def closeAt (c : Nat) : Nat → List GateEntry → Nat → Nat → Option (GateList × Nat) → Option Nat
  | 0, _, _, _, _ => none
  | fuel + 1, l, k, t, pend =>
    match pend with
    | some (l', at_) =>
      if at_ ≤ t || l.isEmpty then
        match l'.entries with
        | [] => none
        | e :: _ =>
          if bit e.mask c then closeAt c fuel l'.entries (1 % l'.entries.length) (at_ + e.duration) none
          else some at_
      else
        match l[k]? with
        | none => none
        | some e => if bit e.mask c then closeAt c fuel l ((k + 1) % l.length) (t + e.duration) pend else some t
    | none =>
      match l[k]? with
      | none => none
      | some e => if bit e.mask c then closeAt c fuel l ((k + 1) % l.length) (t + e.duration) none else some t

/-- The closing instant of a class on a port (R308); none: open throughout. -/
def nextClose (s : State) (p c : Nat) : Option Nat :=
  let x := portFlow s p
  if timeFree s then none
  else
    let fuel := 2 * x.gates.entries.length + 520
    if gateRuns s x (now s) then
      let cyc := cycleLen x.gates
      let off := (now s - x.gates.base) % cyc
      let (k, e) := entryAt x.gates.entries 0 0 off
      closeAt c fuel x.gates.entries ((k + 1) % x.gates.entries.length) (now s - off + e) x.nextGates
    else closeAt c fuel x.gates.entries 0 (max x.gates.base x.gateAt) x.nextGates

/-! ### Eligibility and choice (R301 to R303) -/

/-- The four conditions of R302 on the head `q` of a fair queue. -/
def creditOk (s : State) (p : Nat) (q : QPkt) : Bool := (q.cost : Int) ≤ (vcBook s p q.packet.vc).credit

def gateOk (s : State) (p : Nat) (q : QPkt) : Bool :=
  let c := q.packet.tclass
  bit (portFlow s p).open_ c &&
    (!bit (rc s 0x6822 p) c || match nextClose s p c with
      | some t => now s + q.cost * cellTime s p ≤ t
      | none => true)

def shaperOk (s : State) (p : Nat) (q : QPkt) : Bool :=
  let c := q.packet.tclass
  fld (shaperEntry s p c) 63 32 == 0 || holds (wireBytes q.packet) (sget {} (portFlow s p).shapers c)

def holdOk (s : State) (p : Nat) (q : QPkt) : Bool :=
  decide (q.flow < 8) || !labelHeld s p (q.flow - 8) || holds (wireBytes q.packet) (holdBucket s p (q.flow - 8))

/-- Is the head `q` of a fair queue eligible (R302)? -/
def eligible (s : State) (p : Nat) (q : QPkt) : Bool :=
  creditOk s p q && gateOk s p q && shaperOk s p q && holdOk s p q

/-- The heads of the fair queues: the first packet of each (flow, VC). -/
def fairHeads : List QPkt → List (Nat × Nat) → List QPkt
  | [], _ => []
  | q :: r, seen =>
    -- LANE_REPLY has a queue of its own (R287)
    let k := if q.packet.type = tLANEREPLY then 32 else q.packet.vc
    if 18 ≤ q.packet.vc || seen.contains (q.flow, k) then fairHeads r seen
    else q :: fairHeads r ((q.flow, k) :: seen)

/-- A cell time in which the head of a VC is held only by credit, or only by its gate (Table 22-3). -/
def countHeld (p : Nat) (s : State) : State :=
  foldSt (fun q s =>
    if !(shaperOk s p q && holdOk s p q) then s
    else match creditOk s p q, gateOk s p q with
      | false, true => bumpPortVc p q.packet.vc 2 1 s
      | true, false => bumpPortVc p q.packet.vc 3 1 s
      | _, _ => s) (fairHeads (portFlow s p).queue []) s

/-- phi of a flow (R303). -/
def phi (s : State) (p flow : Nat) : Nat :=
  if 8 ≤ flow then labelShare s p (flow - 8)
  else
    let w := sumBy (rc s 0x6811) (rangeFrom 0 8)
    rc s 0x6811 flow * (65536 - shareReserved s p) / w

/-- Tags: an eligible head without one gets it, a head that is not eligible has none. -/
def assignTags (p : Nat) (s : State) : State :=
  let x := portFlow s p
  let heads := fairHeads x.queue []
  let tagOf (q : QPkt) : QPkt :=
    if !heads.contains q then q
    else if eligible s p q then
      match q.tag with
      | some _ => q
      | none =>
        let f := phi s p q.flow
        { q with tag := some (max x.vtime (sget 0 x.last q.flow) + wireBytes q.packet * 65536 / max f 1) }
    else { q with tag := none }
  setFlow p (fun x => { x with queue := x.queue.map tagOf }) s

/-- Bring a port up to now: buckets, gates, and the tags of the heads that have become eligible.  Done before
anything that changes phi or the virtual time, so that every tag is the one of R303 at the instant at which
its head became eligible. -/
def settleTags (p : Nat) (s : State) : State := assignTags p (refreshGates p (accruePort p s))

/-- The packet that starts next: VC19, then VC18 within its cap, then the least tag; the earliest head
of each flow is its candidate. -/
def pickStart (s : State) (p : Nat) : Option QPkt :=
  let x := portFlow s p
  let covered (q : QPkt) : Bool := creditOk s p q
  let strict (v : Nat) : Option QPkt := x.queue.find? fun q => q.packet.vc == v
  let v19 := match strict 19 with | some q => if covered q then some q else none | none => none
  let v18 := match strict 18 with
    | some q => if covered q && holds (wireBytes q.packet) x.vc18 then some q else none
    | none => none
  match v19 with
  | some q => some q
  | none => match v18 with
    | some q => some q
    | none =>
      let tagged := (fairHeads x.queue []).filter fun q => q.tag.isSome
      -- one candidate per flow: the earliest in the queue
      let cands := tagged.foldl (fun (l : List QPkt) q => if l.any (fun y => y.flow == q.flow) then l else l ++ [q]) []
      cands.foldl (fun (b : Option QPkt) q => match b with
        | none => some q
        | some y =>
          let kq := (q.tag.getD 0, q.flow)
          let ky := (y.tag.getD 0, y.flow)
          if decide (kq.1 < ky.1) || (kq.1 == ky.1 && decide (kq.2 < ky.2)) then some q else some y) none

/-- The packet starts: credit, tokens, tags (R295, R303, R311). -/
def chargeStart (p : Nat) (q : QPkt) (s : State) : State :=
  let v := q.packet.vc
  let s := noteWait p v (setVc p v (fun b => { b with credit := b.credit - q.cost }) s)
  let s := setFlow p (fun x => { x with queue := x.queue.erase q }) s
  let n := wireBytes q.packet
  let s := setFlow p (fun x =>
    if v = 18 then { x with vc18 := charge n x.vc18 }
    else if v = 19 then x
    else
      let c := q.packet.tclass
      let x := if fld (shaperEntry s p c) 63 32 = 0 then x else { x with shapers := smod {} x.shapers c (charge n) }
      let x := if 8 ≤ q.flow && labelHeld s p (q.flow - 8) then
          { x with held := sset {} x.held (q.flow - 8) (charge n (holdBucket s p (q.flow - 8))) }
        else x
      { x with vtime := q.tag.getD x.vtime, last := sset 0 x.last q.flow (q.tag.getD x.vtime) }) s
  leaveQueued q s

/-! ### Shaper changes (R312) -/

/-- An apply has changed the shapers of a port from `old` to the live entries. -/
def shapersChanged (p : Nat) (old : List Byte) (s : State) : State :=
  forRange 0 8 (fun c s =>
    let a := beAt old (c * 8) 8
    let b := shaperEntry s p c
    if fld a 63 32 = fld b 63 32 && fld a 24 0 = fld b 24 0 then s
    else
      let t := if bit b 31 && fld b 63 32 != 0 then fld b 24 0 * 2 ^ 32 else 0
      bump 0x6832 p (setFlow p (fun x => { x with shapers := smod {} x.shapers c fun k =>
        { k with tokens := t, at_ := ticks s, adjust := k.adjust + ((k.tokens : Int) - (t : Int)) } }) s)) s

/-! ### Policers (R313 to R315) -/

/-- Entry of a tenant. -/
def policerEntry (s : State) (t : Nat) : Nat := rcEntry s 0x6850 0 16 t

/-- The buckets of a tenant up to MT. -/
def policerNow (s : State) (t : Nat) : Policer :=
  let e := policerEntry s t
  let p := sget {} s.fs.policers t
  let dt := ticks s - p.at_
  { tc := min (p.tc + rateStep (fld e 127 96) * dt) (fld e 63 40 * 2 ^ 32)
    tp := min (p.tp + rateStep (fld e 95 64) * dt) (fld e 39 16 * 2 ^ 32)
    at_ := ticks s }

/-- Evaluate one packet of `len` bytes on the wire (R314): its colour 0, 1 or 2, and the state.
`again`: a held packet's later evaluation, whose red pre-colour counts as yellow (R315). -/
def police (tenant len pre : Nat) (again : Bool) (s : State) : Nat × State :=
  let e := policerEntry s tenant
  if !bit e 0 then (0, bump 0x6851 0 s)
  else
    let p := policerNow s tenant
    let pre := if bit e 1 then min pre 2 else 0
    let pre := if again && pre = 2 then 1 else pre
    let n := len * 2 ^ 32
    let put (p : Policer) : State := { s with fs := { s.fs with policers := sset {} s.fs.policers tenant p } }
    if pre = 2 || p.tp < n then (2, bump 0x6851 2 (put p))
    else if pre = 1 || p.tc < n then (1, bump 0x6851 1 (put { p with tp := p.tp - n }))
    else (0, bump 0x6851 0 (put { p with tp := p.tp - n, tc := p.tc - n }))

/-- May a held packet leave now: Tp holds L (R315)? -/
def policerReady (s : State) (tenant len : Nat) : Bool :=
  let e := policerEntry s tenant
  !bit e 0 || len * 2 ^ 32 ≤ (policerNow s tenant).tp

/-- An apply has changed the policers: buckets are clipped; an entry that becomes enabled starts with
full buckets, as RFC 2698 does. -/
def policersChanged (old : List Byte) (s : State) : State :=
  let n := (max old.length (liveBytes s 0x6850 0).length) / 16
  forRange 0 n (fun t s =>
    let a := beAt old (t * 16) 16
    let e := policerEntry s t
    if a = e then s
    else
      let p := sget {} s.fs.policers t
      let cbs := fld e 63 40 * 2 ^ 32
      let pbs := fld e 39 16 * 2 ^ 32
      let p := if bit e 0 && !bit a 0 then { tc := cbs, tp := pbs, at_ := ticks s : Policer }
        else { p with tc := min p.tc cbs, tp := min p.tp pbs }
      { s with fs := { s.fs with policers := sset {} s.fs.policers t (if bit e 0 then p else {}) } }) s

/-! ### Sampling (R316, R317) -/

/-- The ports and VCs selected. -/
def samplePorts (s : State) : List Nat :=
  (rangeFrom 0 72).filter fun p => if p < 64 then bit (rc s 0x6861 0) p else bit (rc s 0x6861 1) (p - 64)
def sampleVcs (s : State) : List Nat := (rangeFrom 0 20).filter (bit (rc s 0x6862 0))

/-- One record of the ring. -/
def sampleOne (stamp : Nat) (late : Bool) (p v : Nat) (s : State) : State :=
  let depth := vcDepth s p v
  let since := ((portFlow s p).queue.find? fun q => q.packet.vc == v).map QPkt.since
  let age := match since with | some t => (now s - t) / 16 | none => 0
  let n := count s 0x6865 0
  let r : SampleRecord := { stamp := stamp, port := p, vc := v, late := late, depth := sat 16 depth, sojourn := sat 24 age }
  bump 0x6865 0 { s with fs := { s.fs with ring := mput s.fs.ring (n % rc s 0x6863 0) r } }

/-- Take a sample; without a pool for the ring sampling has stopped (R445). -/
def sample (stamp : Nat) (late : Bool) (s : State) : State :=
  if poolCells s 4 = 0 then s
  else foldSt (fun p s => foldSt (fun v s => sampleOne stamp late p v s) (sampleVcs s) s) (samplePorts s) s

/-- A sample instant is reached; `skip`: its records would exceed the ring's write bandwidth. -/
def sampleDue (skip : Bool) (s : State) : State :=
  let n := rc s 0x6860 0
  if n = 0 || timeFree s then s
  else
    let k := now s / n
    if s.fs.nextSample ≤ k then
      let s := { s with fs := { s.fs with nextSample := k + 1 } }
      if skip then bump 0x6866 0 s else sample (k * n) false s
    else s

/-- The sample schedule goes on from its first instant at or after MT (R40). -/
def sampleFrom (s : State) : State :=
  { s with fs := { s.fs with nextSample := firstMultiple (rc s 0x6860 0) (now s) } }

/-- A forward step across sample instants takes one sample, marked LATE (R40); it counts as one late event
(assumption 155). -/
def sampleStep (a b : Nat) (s : State) : State :=
  let n := rc s 0x6860 0
  if n = 0 || timeFree s then s
  else if (a / n + 1) * n < b then
    sample b true { bump 0x4006 0 s with fs := { s.fs with nextSample := firstMultiple n b } }
  else s

/-- The bits of a record (Table 10-6). -/
def sampleBits (r : SampleRecord) : Nat :=
  r.stamp * 2 ^ 64 + r.port * 2 ^ 57 + r.vc * 2 ^ 52 + b2n r.late * 2 ^ 51 + r.depth * 2 ^ 24 + r.sojourn

/-! ### Credit audit (R298, R299, R336, R337) -/

/-- The payload of a credit-sync marker (Table 10-2) as it enters the sequence. -/
def markerPayload (s : State) (p : Nat) : List Byte :=
  let n := (portFlow s p).markerSeq % 256 * 2 ^ 1016 + sumBy (fun v =>
    let b := vcBook s p v
    (ofSigned 24 b.credit * 2 ^ 24 + b.seen % 2 ^ 24) * 2 ^ (960 - 48 * v)) (rangeFrom 0 20)
  beBytes 128 n ++ List.replicate 128 0

/-- D of a VC (R299, R336): a return that waits for a cell is in none of its terms (assumption 12). -/
def bookD (s : State) (p v entry : Nat) : Int :=
  let b := vcBook s p v
  let pool := (pool s v + b.withheld + b.toWithhold : Int)
  toSigned 24 (ofSigned 24 ((fld entry 47 24 : Int) - (fld entry 23 0 : Int) + (b.occ : Int)
    + (b.sent : Int) + (b.withheld : Int) - pool))

/-- Are the reserved parts of a marker or of a sync reply 0 (Tables 10-2, 11-2, 11-4)?  One that is malformed is
consumed without effect (R9; DESIGN CHOICE, assumption 169). -/
def markerOk (payload : List Byte) : Bool :=
  let m := beNat payload
  fld m 2039 2032 == 0 && fld m 1071 0 == 0

def replyOk (payload : List Byte) : Bool :=
  markerOk payload && (rangeFrom 0 20).all fun v => fld (beNat payload) (2031 - 48 * v) (2008 - 48 * v) == 0

/-- Evaluate a marker: the D of every VC, the reply's payload (Table 11-4), and the state. -/
def evalMarker (p : Nat) (payload : List Byte) (s : State) : List Byte × State :=
  let m := beNat (payload.take 128)
  let ds := (rangeFrom 0 20).map fun v => (v, bookD s p v (fld m (1007 - 48 * v) (960 - 48 * v)))
  let bad := ds.filter fun d => d.2 != 0
  let good := sumBy (fun d => if d.2 = 0 then 2 ^ d.1 else 0) ds
  let reply := fld m 1023 1016 * 2 ^ 1016 + sumBy (fun d => ofSigned 24 d.2 * 2 ^ (960 - 48 * d.1)) ds
  let s := setFlow p (fun x => { x with
    matched := good
    evaluated := true
    badMarkers := if bad.isEmpty then 0 else x.badMarkers + 1 }) s
  let s := bumpBy 0x6804 p bad.length s
  let s := match bad with
    | [] => s
    | d :: _ => raiseFault 11 p (d.1 * 2 ^ 24 + ofSigned 24 d.2) s
  (beBytes 128 reply ++ List.replicate 128 0, s)

/-- Apply a sync reply: D is subtracted from the sender's count. -/
def applyReply (p : Nat) (payload : List Byte) (s : State) : State :=
  let m := beNat (payload.take 128)
  forRange 0 20 (fun v s =>
    let d := toSigned 24 (fld m (983 - 48 * v) (960 - 48 * v))
    noteWait p v (setVc p v (fun b => { b with credit := b.credit - d }) s)) s

/-- The bits of 0x6802 and 0x6823. -/
def creditAudit (s : State) (p : Nat) : Nat :=
  let x := portFlow s p
  x.matched + b2n x.evaluated * 2 ^ 20 + b2n (withholding s p) * 2 ^ 21

def gateStatus (s : State) (p : Nat) : Nat :=
  let x := portFlow s p
  x.open_ + x.entry * 256 + b2n x.running * 2 ^ 16 + b2n x.nextGates.isSome * 2 ^ 17

end Sys2Proof.Machine
end

