-- ==== Sys2Proof/Machine/DescCheck.lean ====
section
/-!
DEFINITION. The checks that QM makes on a descriptor at fetch, in the order of R87: BAD_OPCODE,
RESERVED_NONZERO, BAD_DEST, BAD_LENGTH, BAD_ALIGN, BAD_FRAGMENT (R86, R87, R101, R123, R158, R186, R386).
A failed check is a halt reason and its HALT_DETAIL (Table 03-15).
-/
namespace Sys2Proof.Machine

/-- Ones in bits `[hi:lo]`. -/
def mask (hi lo : Nat) : Nat := 2 ^ (hi + 1) - 2 ^ lo

/-- The lowest set bit of a number, looking at `n` bits from `i` on. -/
def lowBit (x : Nat) : Nat → Nat → Option Nat
  | _, 0 => none
  | i, n + 1 => if bit x i then some i else lowBit x (i + 1) n

/-- The lowest bit of a descriptor outside the fields it may use. -/
def strayBit (d allowed : Nat) : Option Nat := lowBit (d - Nat.land d allowed) 0 512

/-- Both checks of a list in turn. -/
def firstOf : List (Option (Nat × Nat)) → Option (Nat × Nat)
  | [] => none
  | some r :: _ => some r
  | none :: l => firstOf l

def failIf (c : Bool) (reason detail : Nat) : Option (Nat × Nat) := if c then some (reason, detail) else none

def reservedCheck (d allowed : Nat) : Option (Nat × Nat) :=
  match strayBit d allowed with
  | some b => some (hRESERVED, b)
  | none => none

/-- A node ID field at bit `lo` of a descriptor: the offending coordinate field (R5). -/
def nodeCheck (s : State) (any : Bool) (node lo : Nat) : Option (Nat × Nat) :=
  match badField (shape s) any node with
  | some f => some (hBADDEST, lo + 5 * f)
  | none => none

/-- The greatest LENGTH. -/
def maxLength : Nat := 2147483648

/-- Which kinds of destination an opcode names. -/
inductive DestKind where
  | none | node | conn
deriving DecidableEq, Repr

/-- What Table 03-5 and Table 13-8 say of an opcode: the bits it uses beside the generic ones, the
range of LENGTH, INDIRECT, the alignments of TARGET and LOCAL_ADDR, and its destination. -/
structure OpSpec where
  uses : Nat
  lo : Nat := 0
  hi : Nat := 0
  indirect : Bool := false
  alignT : Nat := 1
  alignL : Nat := 1
  dest : DestKind := .none

/-! Fields of Table 03-4. -/
def mOP0 : Nat := mask 447 384
def mOP1 : Nat := mask 511 448
def mIMM : Nat := mask 415 384
def mLOCAL : Nat := mask 319 256
def mTARGET : Nat := mask 255 192
def mKEY : Nat := mask 127 96
def mDEST : Nat := mask 95 64
def mDOMAIN : Nat := mask 63 48
def mSOLICIT : Nat := mask 12 12

/-- The generic fields: OPCODE, SIGNAL, FENCE, ORDER, INDIRECT, TCLASS, COLOUR, USER_DATA, LENGTH. -/
def mGENERIC : Nat := mask 11 0 + mask 20 16 + mask 191 128 + mask 351 320

/-- FRAG_COUNT is used when INDIRECT is set. -/
def mFRAGS (d : Nat) : Nat := if dINDIRECT d then mask 367 352 else 0

/-- The opcodes of Table 03-5 and the lane services of Table 13-8. -/
def opSpec (op : Nat) : Option OpSpec :=
  match op with
  | 0x00 => some { uses := 0 }
  | 0x01 => some { uses := mDOMAIN + mDEST + mTARGET + mLOCAL + mIMM + mSOLICIT, hi := maxLength
                   indirect := true, dest := .node }
  | 0x02 | 0x04 => some { uses := mKEY + mDEST + mTARGET + mLOCAL, hi := maxLength
                          indirect := true, dest := .node }
  | 0x03 => some { uses := mKEY + mDEST + mTARGET + mLOCAL + mIMM + mSOLICIT, hi := maxLength
                   indirect := true, dest := .node }
  | 0x08 | 0x09 => some { uses := mKEY + mDEST + mTARGET + mLOCAL + mOP0, lo := 8, hi := 8
                          alignT := 8, alignL := 8, dest := .node }
  | 0x0A => some { uses := mKEY + mDEST + mTARGET + mLOCAL + mOP0 + mOP1, lo := 8, hi := 8
                   alignT := 8, alignL := 8, dest := .node }
  | 0x0B => some { uses := mKEY + mDEST + mTARGET + mLOCAL + mOP0 + mOP1, lo := 16, hi := 16
                   alignT := 16, alignL := 32, dest := .node }
  | 0x0C => some { uses := mDEST, dest := .node }
  | 0x10 => some { uses := mDEST + mLOCAL + mIMM + mSOLICIT, hi := maxLength
                   indirect := true, dest := .conn }
  | 0x11 | 0x12 => some { uses := mKEY + mDEST + mTARGET + mLOCAL, hi := maxLength
                          indirect := true, dest := .conn }
  | 0x30 => some { uses := mDEST + mask 399 384, dest := .node }
  | 0x31 => some { uses := mKEY + mTARGET + mLOCAL + mask 393 384 + mask 401 400, lo := 1
                   hi := maxLength, indirect := true }
  | 0x32 => some { uses := mask 393 384 }
  | _ => none

/-- Count and alignment of a fragment table, and INDIRECT where it is not allowed (R91). -/
def indirectCheck (d : Nat) (allowed : Bool) : Option (Nat × Nat) :=
  if !dINDIRECT d then none
  else if !allowed then some (hBADFRAGMENT, 0xFFFE)
  else failIf (dFRAGS d = 0 || 4096 < dFRAGS d || dLOCAL d % 16 ≠ 0) hBADFRAGMENT 0xFFFF

/-! Fields of the collective descriptor (Table 06-1). -/
def gGROUP (d : Nat) : Nat := fld d 75 64
def gGEN (d : Nat) : Nat := fld d 83 76
def gROOT (d : Nat) : Nat := fld d 115 96
def gOP (d : Nat) : Nat := fld d 415 412
def gTYPE (d : Nat) : Nat := fld d 411 408
def gMODE (d : Nat) : Nat := fld d 407 406
def gSAT (d : Nat) : Bool := bit d 405
def gLAUNCH (d : Nat) : Nat := fld d 511 448

/-- The legal reductions (Table 06-2). -/
def reductionOk (op ty mode : Nat) (sat : Bool) : Bool :=
  let int := ty ≤ 3
  let combo :=
    if 6 < ty || 7 < op || mode = 3 then false
    else if op = 0 then mode ≤ 1 || (mode = 2 && (ty = 4 || ty = 5))
    else if 3 ≤ op && op ≤ 5 then int && mode ≤ 1
    else mode ≤ 1
  combo && (!sat || (op = 0 && int))

/-- Element sizes (R185). -/
def elemSize (op ty : Nat) : Nat :=
  if op = 6 || op = 7 then 16
  else match ty with | 1 | 3 | 5 => 8 | 6 => 2 | _ => 4

/-- A collective descriptor (R186). -/
def collCheck (s : State) (d : Nat) : Option (Nat × Nat) :=
  let op := dOPCODE d
  let n := dLENGTH d
  let es := elemSize (gOP d) (gTYPE d)
  let generic := mask 9 0 + mask 11 11 + mask 18 16 + mask 191 128 + mask 83 64
  let length := mask 351 320
  let uses :=
    match op with
    | 0x40 => mask 511 480 + mask 447 402 + mFRAGS d + length + mLOCAL
    | 0x42 => mask 511 448 + mask 415 405 + length + mLOCAL + mTARGET
    | 0x43 =>
      mask 511 448 + length + mTARGET + mask 115 96 + (if gROOT d = ownNode s then mLOCAL else 0)
    | 0x44 => mask 511 448 + length
    | _ => 0
  let lengthOk :=
    match op with
    | 0x40 => n % 4 == 0 && 4 ≤ n && n ≤ 521284
    | 0x42 => 0 < n && n ≤ 65536 && n % es == 0 && (gMODE d != 2 || n / es ≤ 32)
    | 0x43 => 1 ≤ n && n ≤ 65536
    | _ => n == 0
  let align := match op with | 0x40 => 4 | 0x42 => min es 8 | _ => 1
  firstOf
    [failIf (0x44 < op || (op = 0x42 && !reductionOk (gOP d) (gTYPE d) (gMODE d) (gSAT d))) hBADOPCODE op,
     reservedCheck d (generic + uses),
     if op = 0x43 then
       (if (badField (shape s) false (gROOT d)).isSome then some (hBADDEST, 96) else none) else none,
     failIf (!lengthOk) hBADLENGTH 0,
     failIf (op = 0x42 && dTARGET d % align ≠ 0) hBADALIGN 192,
     failIf (dLOCAL d % align ≠ 0) hBADALIGN 256,
     indirectCheck d (op = 0x40)]

/-- A package call: OPERAND0 names the handler, and the other fields pass unchecked (Table 13-8). -/
def packageCheck (d : Nat) : Option (Nat × Nat) :=
  firstOf [failIf (maxLength < dLENGTH d) hBADLENGTH 0, indirectCheck d true]

/-- A descriptor of a SEND queue that is no admin queue. -/
def sendCheck (s : State) (d : Nat) : Option (Nat × Nat) :=
  let op := dOPCODE d
  if 0x40 ≤ op && op ≤ 0x4F then collCheck s d
  else if 0x38 ≤ op && op ≤ 0x3F then packageCheck d
  else match opSpec op with
    | none => some (hBADOPCODE, op)
    | some o =>
      firstOf
        [reservedCheck d (mGENERIC + mFRAGS d + o.uses),
         match o.dest with
         | .none => none
         | .node => nodeCheck s false (idNode (dDEST d)) 76
         | .conn => failIf (16777215 < dDEST d) hBADDEST 64,
         failIf (dLENGTH d < o.lo || o.hi < dLENGTH d) hBADLENGTH 0,
         failIf (dTARGET d % o.alignT ≠ 0) hBADALIGN 192,
         failIf (dLOCAL d % o.alignL ≠ 0) hBADALIGN 256,
         indirectCheck d o.indirect]

/-! Fields of an admin descriptor (Table 03-11, Table 03-12, Table 05-3). -/
def aTARGET (d : Nat) : Nat := fld d 83 64
def aADDR (d : Nat) : Nat := fld d 255 192
def aOPTION (d : Nat) : Bool := bit d 9
def aENDPOINT (d : Nat) : Nat := fld d 459 448
def aMODTIME (d : Nat) : Nat := fld d 431 400
def aMODCOUNT (d : Nat) : Nat := fld d 399 384
def aGEN (d : Nat) : Nat := fld d 371 364
def aVECTOR (d : Nat) : Nat := fld d 362 352
def aTENANT (d : Nat) : Nat := fld d 351 336
def aASID (d : Nat) : Nat := fld d 335 320
def aNOEQ (d : Nat) : Bool := bit d 319
def aGUST (d : Nat) : Nat := fld d 318 313 + 1
def aWEIGHT (d : Nat) : Nat := fld d 312 305
def aLOG2 (d : Nat) : Nat := fld d 304 300
def aTYPE (d : Nat) : Nat := fld d 299 296
def aEQN (d : Nat) : Nat := fld d 295 276
def aCQN (d : Nat) : Nat := fld d 275 256
def aACTION (d : Nat) : Nat := fld d 511 508

/-- The reserved bits of Table 03-12. -/
def createReserved : Nat := mask 511 460 + mask 447 432 + mask 383 372 + mask 363 363

/-- An admin descriptor (R87, R101, R102, R151). -/
def adminCheck (d : Nat) : Option (Nat × Nat) :=
  let op := dOPCODE d
  let params := mask 511 256
  let common := mask 8 0 + mask 191 128
  let target := mask 83 64
  let addr := mask 255 192
  let option := mask 9 9
  if op < 0x80 || 0x88 < op then some (hBADOPCODE, op)
  else reservedCheck d (common +
    match op with
    | 0x80 => target + addr + (params - createReserved)
    | 0x81 => target + addr + mask 304 300
    | 0x84 | 0x85 => target + option
    | 0x86 => target + addr
    | 0x87 => target + (params - createReserved)
    | 0x88 => if aACTION d = 3 || aACTION d = 4 then
        mask 511 372 + (if aACTION d = 4 then option else 0)
      else params - mask 399 384
    | _ => target)

/-- A receive descriptor (Table 04-5, R158). -/
def recvCheck (s : State) (q : Queue) (d : Nat) : Option (Nat × Nat) :=
  let op := dOPCODE d
  let dom := sget {} s.mu.domains (dDOMAIN d)
  let uses :=
    match op with
    | 1 => mask 511 384 + mFRAGS d + mask 351 192 + mask 95 48 + mask 11 10
    | 2 => mask 415 384 + mask 8 8
    | _ => mFRAGS d + mask 351 256 + mask 11 11
  let anyEp := op = 1 && bit d 10
  firstOf
    [failIf (op = 0 || 3 < op || (op = 3 && q.type ≠ qSRQ)) hBADOPCODE op,
     reservedCheck d (mask 7 0 + mask 191 128 + uses - (if anyEp then mask 75 64 else 0)),
     if op = 1 then nodeCheck s true (idNode (fld d 95 64)) 76 else none,
     failIf (op = 1 && (dom.state != .opened || dom.tenant ≠ q.tenant)) hBADDEST 48,
     failIf (op ≠ 2 && maxLength < dLENGTH d) hBADLENGTH 0,
     failIf (op = 1 && fld d 447 384 % 16 ≠ 0) hBADALIGN 384,
     if op = 2 then none else indirectCheck d true]

/-- The check of a queue's descriptor. -/
def descCheck (s : State) (q : Queue) (d : Nat) : Option (Nat × Nat) :=
  if q.type = qSEND then (if q.admin then adminCheck d else sendCheck s d) else recvCheck s q d

/-- Does a descriptor that passed its checks have a fragment table? -/
def hasFrags (q : Queue) (d : Nat) : Bool := dINDIRECT d && !q.admin

end Sys2Proof.Machine
end

