-- ==== Sys2Proof/Machine/QueueOps.lean ====
section
/-!
DEFINITION. Queue mechanics: entries written to COMPLETION and EVENT rings, arming, halts, fetch,
retirement and doorbells (R82 to R99, R105).
-/
namespace Sys2Proof.Machine

/-! ### Entries written (R92 to R98) -/

/-- The bits of a completion entry, without PHASE (Table 03-7). -/
def compBits (user opcode index qn sqHead : Nat) (c : Comp) : Nat :=
  user % 2 ^ 64 * 2 ^ 192 + c.peer % 2 ^ 32 * 2 ^ 160 + c.length % 2 ^ 32 * 2 ^ 128
    + c.imm % 2 ^ 32 * 2 ^ 96 + sqHead % 2 ^ 16 * 2 ^ 80 + qn % 2 ^ 20 * 2 ^ 60
    + index % 2 ^ 16 * 2 ^ 40 + opcode % 2 ^ 8 * 2 ^ 32 + c.status % 2 ^ 8 * 2 ^ 24
    + c.flags % 2 ^ 8 * 2 ^ 16

/-- The bits of an event entry, without PHASE (Table 03-9). -/
def eventBits (code subject detail data stamp : Nat) : Nat :=
  data % 2 ^ 64 * 2 ^ 192 + stamp % 2 ^ 64 * 2 ^ 128 + subject % 2 ^ 32 * 2 ^ 96
    + detail % 2 ^ 16 * 2 ^ 80 + code % 2 ^ 16 * 2 ^ 48

/-- PHASE of the next entry (Table 03-7). -/
def phaseBit (q : Queue) : Nat := 1 - q.written / 2 ^ q.log2 % 2

/-- SOLICITED among the FLAGS of Table 03-7. -/
def fLATE : Nat := 1
def fUNEXPECTED : Nat := 2
def fOVERFLOW : Nat := 4
def fSOLICITED : Nat := 8

/-- Entries of a ring that are not consumed, those not yet written included. -/
def ringUsed (q : Queue) : Nat := diff32 q.written q.head

/-- The bits of an entry as it is written, without PHASE: a receive shows its queue's FETCHED at that moment
(Table 03-7). -/
def entryBits (s : State) (e : PendingEntry) : Nat :=
  match e.recvOf with
  | some qn => e.bits + (queue s qn).fetched % 2 ^ 16 * 2 ^ 80
  | none => e.bits

/-- Write the oldest pending entry: bytes 1 to 31 first (R94). -/
def pump (qn : Nat) (s : State) : State :=
  let q := queue s qn
  match q.entries with
  | [] => s
  | e :: _ =>
    if q.writing || !(q.state == .ready || q.state == .draining) then s
    else
      later (.access { asid := q.asid, addr := q.base + 32 * (q.written % qSize q) + 1, len := 31
                       data := some (leBytes 31 (entryBits s e / 256)), cls := .ring, qn := some qn
                       cont := .entryWrite qn false q.era })
        (setQueue qn (fun q => { q with writing := true }) s)

/-- Append an entry. -/
def appendPending (qn : Nat) (e : PendingEntry) (s : State) : State :=
  pump qn (setQueue qn (fun q => { q with entries := q.entries ++ [e] }) s)

def appendEntry (qn bits : Nat) (kick : Bool) (s : State) : State :=
  appendPending qn { bits := bits, kick := kick } s

/-- A queue raises its vector, and disarms (R96). -/
def raiseQueue (qn : Nat) (s : State) : State :=
  let q := queue s qn
  raiseVector q.fn q.vector (setQueue qn (fun q => { q with armed := false, sinceArm := 0 }) s)

/-- Moderation after an entry has been written (R96). -/
def afterEntry (qn : Nat) (kick : Bool) (s : State) : State :=
  let q := queue s qn
  if kick then raiseQueue qn s
  else if !q.armed then s
  else
    let n := q.sinceArm + 1
    if max 1 q.modCount ≤ n then raiseQueue qn s
    else setQueue qn (fun q => { q with
      sinceArm := n
      modAt := if n = 1 then ticks s else q.modAt
      modNow := q.modTime }) s

/-- MOD_TIME has elapsed on an armed queue (R96); a new one is in force from the next entry (R101). -/
def moderationTimeout (qn : Nat) (s : State) : State :=
  let q := queue s qn
  if qExists q && q.armed && q.sinceArm != 0 && q.modNow != 0 && q.modAt + q.modNow ≤ ticks s then raiseQueue qn s
  else s

/-- Post an event for a queue (R97, R98). -/
def queueEvent (qn code subject detail data : Nat) (s : State) : State :=
  let q := queue s qn
  if q.noEq then bump 0x7035 0 s else postEvent q.eqn code subject detail data s

/-- An event reaches its event queue: dropped and counted while the ring is full (R98).  A HALTED event queue
holds it until RESUME, as R81 says of a COMPLETION queue (DESIGN CHOICE, assumption 214). -/
def eventArrive (eqn code subject detail data : Nat) (kick : Bool) (s : State) : State :=
  let q := queue s eqn
  if q.type ≠ qEQ || !qExists q then bump 0x7035 0 s
  else if qSize q ≤ ringUsed q + q.entries.length then
    bumpFn q.fn 5 (setQueue eqn (fun q => { q with droppedEvents := q.droppedEvents + 1 }) s)
  else appendEntry eqn (eventBits code subject detail data (now s)) kick s

/-- A slot reserved in a completion queue is released unused (R95). -/
def releaseSlots (cqn n : Nat) (s : State) : State :=
  setQueue cqn (fun q => { q with reserved := q.reserved - n }) s

/-- A completion takes its reserved slot (R95). -/
def writeCompletion (cqn user opcode index qn sqHead : Nat) (c : Comp) (recvOf : Option Nat)
    (ack : Option (Nat × Nat × Nat × Nat)) (s : State) : State :=
  let q := queue s cqn
  if q.type ≠ qCQ || !qExists q then s
  else appendPending cqn
    { bits := compBits user opcode index qn sqHead c, kick := bit c.flags 3, recvOf := recvOf, ack := ack } s

/-- A receive, a cancel or a BUFFER entry ends (R142, Table 05-5): its completion is written, and then
the sender is acknowledged where `ack` says so (R159). -/
def recvDone (qn entry user opcode : Nat) (c : Comp) (ack : Option (Nat × Nat × Nat × Nat)) (s : State) :
    State :=
  let q := queue s qn
  if q.forced then
    let s := releaseSlots q.cqn 1 s
    match ack with
    | some (f, r, n, code) => later (.sendAck f r n code) s
    | none => s
  else writeCompletion q.cqn user opcode entry qn 0 c (some qn) ack s

/-! ### Halts (R105) -/

/-- An admin command has done its action (R100): it retires when it is taken to. -/
def adminDone (aqn entry : Nat) (c : Comp) (s : State) : State := complete aqn entry c s

/-- A halt of the admin SQ is latched, and raises the function's vector (R460). -/
def adminHalt (fn reason index : Nat) (s : State) : State :=
  let s := setFn fn (fun f => { f with adm := { f.adm with haltReason := reason, haltIndex := index } }) s
  let f := hostFn s fn
  when_ (bit f.funcInt 18) (raiseVector fn (f.funcInt % 2048)) s

/-- Halt a queue with a record; only the first reason is latched, and a DRAIN or DESTROY that waits for
the queue ends INTERRUPTED (R80). -/
def haltQueue (qn reason detail index : Nat) (s : State) : State :=
  let q := queue s qn
  if q.state != .ready && q.state != .draining then s
  else
    let s := releaseSlots q.cqn q.gustLeft s
    let s := setQueue qn (fun q => { q with
      state := .halted
      haltReason := reason
      haltDetail := detail
      haltIndex := index
      gustLeft := 0
      fragWait := none
      writing := false
      era := q.era + 1
      destroying := none
      drainFor := none }) s
    let s := when_ (reason ≤ 6 || reason == 8) (bump 0x7032 0) s
    let s := when_ (q.admin && q.type == qSEND) (adminHalt q.fn reason index) s
    let s := if reason = hHOSTHALT || reason = hDRAINED then s
      else queueEvent qn 0x0001 qn reason index s
    match q.drainFor with
    | some (aqn, n, _) => adminDone aqn n { status := 0x28 } s
    | none => s

/-- A malformed entry: USER_DATA and OPCODE are kept for RESUME with SKIP (R106). -/
def haltEntry (qn reason detail desc : Nat) (s : State) : State :=
  haltQueue qn reason detail (queue s qn).fetched
    (setQueue qn (fun q => { q with skip := (dUSER desc, dOPCODE desc) }) s)

/-- HALT_DETAIL of a ring fault (Table 03-15). -/
def ringDetail (r : AccResult) : Nat :=
  match r with
  | .fault k | .retry k => k
  | .poison _ => 0x11
  | _ => 0x10

/-! ### Fetch (R87, R91, R95, R99) -/

/-- Entries that may be fetched: up to TAIL, or to the drain mark. -/
def fetchLimit (q : Queue) : Nat := if q.state == .draining then q.drainMark else q.tail
def unfetched (q : Queue) : Nat := diff32 (fetchLimit q) q.fetched

/-- Free slots of a queue's completion queue; none while it is halted (R81, R95). -/
def cqFree (s : State) (q : Queue) : Nat :=
  let c := queue s q.cqn
  if c.type = qCQ && (c.state == .ready || c.state == .draining) then
    qSize c - ringUsed c - c.reserved
  else 0

/-- Is a queue eligible for a fetch visit (R99)?  Not while a visit of it is in progress. -/
def eligibleQ (s : State) (q : Queue) : Bool :=
  q.type ≤ qSRQ && (q.state == .ready || q.state == .draining) && q.gustLeft == 0 &&
    q.destroying.isNone && unfetched q != 0 && cqFree s q != 0 && (!q.admin || q.ops.length < 64)

/-- Read the next entry of the visit in progress (R99). -/
def fetchNext (qn : Nat) (s : State) : State :=
  let q := queue s qn
  if q.gustLeft = 0 then s
  else later (.access { asid := q.asid, addr := q.base + 64 * (q.fetched % qSize q), len := 64
                        cls := .ring, qn := some qn, cont := .ring qn q.fetched q.era }) s

/-- A visit: a gust of entries, their completion slots reserved. -/
def visit (qn : Nat) (s : State) : State :=
  let q := queue s qn
  let n := min (min q.gust (unfetched q)) (cqFree s q)
  let n := if q.admin then min n (64 - q.ops.length) else n
  let s := setQueue q.cqn (fun c => { c with reserved := c.reserved + n }) s
  fetchNext qn (setQueue qn (fun q => { q with gustLeft := n }) s)

/-- Fetch weight of a function (0x7018 to 0x701A). -/
def fetchWeight (s : State) (fn : Nat) : Nat := fnObj s fn 0x7018 0x7019 0x701A

/-- Insert a number into a rising list without repeats. -/
def insertNat (n : Nat) : List Nat → List Nat
  | [] => [n]
  | a :: r => if n < a then n :: a :: r else if n = a then a :: r else a :: insertNat n r

/-- The inner loop of R99: the next eligible queue of a function, from position (pass, qn) on. -/
def nextQueue (weightOf : Nat → Nat) (qs : List Nat) : Nat → FetchPos → Option (Nat × FetchPos)
  | 0, _ => none
  | fuel + 1, p =>
    match qs.find? fun q => p.qn ≤ q && p.pass < weightOf q with
    | some q => some (q, { p with qn := q + 1 })
    | none => nextQueue weightOf qs fuel { pass := (p.pass + 1) % 255, qn := 0 }

/-- The data passes of R99: the next function of `fns`, from pass `pass` and FN `f0` on, in the passes that
are left. -/
def nextFn (weightOf : Nat → Nat) (fns : List Nat) : Nat → Nat → Nat → Option (Nat × Nat)
  | 0, _, _ => none
  | left + 1, pass, f0 =>
    match fns.find? fun f => f0 ≤ f && pass < weightOf f with
    | some f => some (pass, f)
    | none => nextFn weightOf fns left (pass + 1) 0

/-- The admin queue of the lowest FN from `f0` on, among eligible queues: FN and QN. -/
def nextAdminFn (el : SMap Queue) (f0 : Nat) : Option (Nat × Nat) :=
  el.foldl (fun (b : Option (Nat × Nat)) (e : Nat × Queue) =>
    if e.2.admin && f0 ≤ e.2.fn && (match b with | some (f, _) => e.2.fn < f | none => true) then
      some (e.2.fn, e.1) else b) none

/-- The next data queue in the passes from (pass, f0) on, with the position taken. -/
def nextData (s : State) (el : SMap Queue) (pass f0 : Nat) : Option (Nat × State) :=
  let el := el.filter fun (e : Nat × Queue) => !e.2.admin
  let fns := el.foldl (fun l (e : Nat × Queue) => insertNat e.2.fn l) []
  match nextFn (fetchWeight s) fns (255 - pass) pass f0 with
  | none => none
  | some (pass, f) =>
    let qs := (el.filter fun (e : Nat × Queue) => e.2.fn == f).map fun e => e.1
    match nextQueue (fun q => (queue s q).weight) qs 256 (sget {} s.qm.pos f) with
    | none => none
    | some (qn, p) => some (qn, { s with qm := { s.qm with
        aturn := none
        fpass := pass
        fnext := f + 1
        pos := sset {} s.qm.pos f p } })

/-- One fetch visit: the next one of the loop of R99.  Each turn of the loop serves every eligible admin
queue once, in ascending FN, and then makes the 255 data passes by the weights. -/
def fetchVisit (s : State) : State :=
  let el := s.qm.queues.filter fun (e : Nat × Queue) => eligibleQ s e.2
  let admin (f0 : Nat) : Option (Nat × State) := (nextAdminFn el f0).map fun x =>
    (x.2, { s with qm := { s.qm with aturn := some (x.1 + 1) } })
  let turn : Option (Nat × State) := match s.qm.aturn with
    | some f0 => (admin f0).or (nextData s el 0 0)
    | none => nextData s el s.qm.fpass s.qm.fnext
  match turn.or ((admin 0).or (nextData s el 0 0)) with
  | some (qn, s) => visit qn s
  | none => s

/-- A descriptor has passed its checks: FETCHED advances (R79). -/
def accept (qn desc : Nat) (frags : List (Nat × Nat)) (s : State) : State :=
  let q := queue s qn
  let n := q.fetched
  let s := bumpG15 0 1 (bumpFn q.fn 2 s)
  let s := setQueue qn (fun q => { q with
    fetched := inc 32 n
    gustLeft := q.gustLeft - 1
    fragWait := none }) s
  let s := if q.type ≠ qSEND && dOPCODE desc = 3 then
      let b : Buffer := { qn := qn, entry := n, userData := dUSER desc, length := dLENGTH desc, addr := dLOCAL desc
                          frags := frags, rights := q.rights }
      { s with ra := { s.ra with buffers := smod [] s.ra.buffers qn fun l => l ++ [b] } }
    else setQueue qn (fun q => { q with
      ops := q.ops ++ [{ n := n, desc := desc, frags := frags, rights := q.rights }] }) s
  fetchNext qn s

/-- Read entry `k` of the fragment table. -/
def readFrag (qn desc k : Nat) (s : State) : State :=
  later (.access { asid := (queue s qn).asid, addr := dLOCAL desc + 16 * k, len := 16, cls := .ring
                   qn := some qn, cont := .frag qn k (queue s qn).era }) s

/-- Is a fetch of a queue still going on? -/
def fetching (q : Queue) : Bool := (q.state == .ready || q.state == .draining) && q.gustLeft != 0

/-- An entry of a ring has been read.  What was read before a halt is not taken after it: the entry is read
again as it then stands (R106). -/
def ringRead (qn n era : Nat) (r : AccResult) (s : State) : State :=
  let q := queue s qn
  if !fetching q || era ≠ q.era || n ≠ q.fetched || q.fragWait.isSome then s
  else match r with
    | .ok bs =>
      let d := leNat bs
      match descCheck s q d with
      | some (reason, detail) => haltEntry qn reason detail d s
      | none =>
        if hasFrags q d then
          readFrag qn d 0 (setQueue qn (fun q => { q with fragWait := some (d, []) }) s)
        else accept qn d [] s
    | r => haltEntry qn hRINGFAULT (ringDetail r) 0 s

/-- An entry of a fragment table has been read (R91). -/
def fragRead (qn k era : Nat) (r : AccResult) (s : State) : State :=
  let q := queue s qn
  match q.fragWait with
  | none => s
  | some (d, fs) =>
    if !fetching q || era ≠ q.era || k ≠ fs.length then s
    else match r with
      | .ok bs =>
        let e := leNat bs
        let len := fld e 63 32
        let sum := sumBy (fun f => f.2) fs + len
        if len = 0 || maxLength < len || fld e 31 0 ≠ 0 || dLENGTH d < sum then
          haltEntry qn hBADFRAGMENT k d s
        else
          let fs := fs ++ [(fld e 127 64, len)]
          if k + 1 < dFRAGS d then
            readFrag qn d (k + 1) (setQueue qn (fun q => { q with fragWait := some (d, fs) }) s)
          else if sum < dLENGTH d then haltEntry qn hBADFRAGMENT k d s
          else accept qn d fs s
      | r => haltEntry qn hRINGFAULT (ringDetail r) d s

/-- A write to a ring is done: byte 0 follows the rest; then WRITTEN advances (R94, R95).  A write begun before
a halt counts no more: RESUME writes the entry anew. -/
def entryWritten (qn : Nat) (last : Bool) (era : Nat) (r : AccResult) (s : State) : State :=
  let q := queue s qn
  match q.entries with
  | [] => s
  | e :: rest =>
    if !q.writing || era ≠ q.era then s
    else match r with
      | .ok _ =>
        if !last then
          later (.access { asid := q.asid, addr := q.base + 32 * (q.written % qSize q), len := 1
                           data := some [BitVec.ofNat 8 (e.bits + phaseBit q)], cls := .ring
                           qn := some qn, cont := .entryWrite qn true q.era }) s
        else
          let cq := q.type == qCQ
          let s := setQueue qn (fun q => { q with
            writing := false
            entries := rest
            written := inc 32 q.written
            reserved := if cq then q.reserved - 1 else q.reserved }) s
          let s := bumpG15 (if cq then 1 else 2) 1 (bumpFn q.fn (if cq then 3 else 4) s)
          let s := match e.ack with
            | some (f, r, n, code) => later (.sendAck f r n code) s
            | none => s
          pump qn (afterEntry qn e.kick s)
      | r =>
        haltQueue qn hRINGFAULT (ringDetail r) q.written s

/-! ### Retirement (R88) -/

/-- An operation has reached its completion condition. -/
def markDone (qn entry : Nat) (c : Comp) (s : State) : State :=
  setQueue qn (fun q => { q with
    ops := updFirst (fun o => o.n == entry && o.done.isNone) (fun o => { o with started := true, done := some c })
      q.ops }) s

/-- PEER of an operation's completion (Table 03-7): DEST of a send; an admin command and a collective say
it themselves. -/
def peerOf (q : Queue) (d : Nat) (c : Comp) : Nat :=
  if q.admin || 0x40 ≤ dOPCODE d then c.peer else dDEST d

/-- The rendezvous handles of a queue's TSENDs end (R131): those of the entries that `p` says. -/
def dropHandles (qn : Nat) (p : Nat → Bool) (s : State) : State :=
  { s with mu := { s.mu with handles := s.mu.handles.filter fun (e : Nat × Handle) =>
      !(e.2.qn == qn && p e.2.entry) } }

/-- The head of a SEND queue retires (R88), and the handle of a TSEND with it (R131); an admin command retires
when its action is done, in any order (R100). -/
def retireOne (qn : Nat) (s : State) : State :=
  let q := queue s qn
  if q.type ≠ qSEND || !qExists q then s
  else match (if q.admin then q.ops.find? (fun o => o.done.isSome) else q.ops.head?) with
    | none => s
    | some o => match o.done with
      | none => s
      | some c =>
        let ops := q.ops.filter fun x => x.n != o.n
        let r := if q.admin then (match ops.head? with | some h => h.n | none => q.fetched) else inc 32 o.n
        let s := dropHandles qn (fun n => n == o.n) (setQueue qn (fun q => { q with ops := ops, retired := r }) s)
        if c.quiet then releaseSlots q.cqn 1 s
        else if q.admin || dSIGNAL o.desc || c.status ≠ stOK then
          writeCompletion q.cqn (dUSER o.desc) (dOPCODE o.desc) o.n qn r
            { c with peer := peerOf q o.desc c } none none s
        else releaseSlots q.cqn 1 s

/-! ### Doorbells (R82 to R84, R96, R232) -/

/-- The queue of a doorbell slot of a function's BAR0; none beyond its range. -/
def slotQueue (s : State) (fn slot : Nat) : Option Nat :=
  let (lo, n) := queueRange s fn
  if slot < n then some (lo + slot) else none

/-- A BAR0 write that does not take effect (R82). -/
def doorbellDiscard (fn : Nat) (s : State) : State := bumpFn fn 1 (bump 0x7030 0 s)
def doorbellIgnore (fn : Nat) (s : State) : State := bumpFn fn 1 (bump 0x7031 0 s)

/-- A doorbell to a slot of a function: an existing queue goes on to its checks. -/
def atSlot (fn slot : Nat) (f : Nat → State → State) (s : State) : State :=
  if !barsLive s fn then s
  else
    let s := bumpHost (fnLink fn) 1 1 s
    match slotQueue s fn slot with
    | none => doorbellDiscard fn s
    | some qn => if qExists (queue s qn) then f qn s else doorbellDiscard fn s

/-- KIND 0 (R84). -/
def doorbellTail (fn gen resv index qn : Nat) (s : State) : State :=
  let q := queue s qn
  if qSRQ < q.type || gen ≠ q.gen || resv ≠ 0 then doorbellIgnore fn s
  else if 2 ^ 31 ≤ diff32 index q.tail then doorbellIgnore fn s
  else
    let held := if q.type = qSEND then q.retired else q.fetched
    if qSize q < diff32 index held then
      (if q.state == .halted then doorbellIgnore fn s
       else haltQueue qn hBADDOORBELL 0 q.tail (bumpFn fn 1 s))
    else if q.state == .draining then bumpFn fn 1 (bump 0x7033 0 s)
    else setQueue qn (fun q => { q with tail := index }) (bumpFn fn 0 s)

/-- HEAD advances; EQ_OVERFLOW is the first entry after it (R84, R98). -/
def headTo (qn index : Nat) (s : State) : State :=
  let q := queue s qn
  let s := setQueue qn (fun q => { q with head := index }) s
  if q.type = qEQ && q.droppedEvents ≠ 0 && index ≠ q.head then
    appendEntry qn (eventBits 0x0002 qn 0 q.droppedEvents (now s)) false
      (setQueue qn (fun q => { q with droppedEvents := 0 }) s)
  else s

/-- KIND 1 and 2 (R84, R96).  A DRAINING queue applies checks 1 to 3 only, so that its HEAD stands (DEDUCED,
assumption 215). -/
def doorbellHead (fn gen resv index : Nat) (arm : Bool) (qn : Nat) (s : State) : State :=
  let q := queue s qn
  if q.type < qCQ || gen ≠ q.gen || resv ≠ 0 then doorbellIgnore fn s
  else if q.state == .draining then bumpFn fn 1 s
  else if diff32 q.written q.head < diff32 index q.head then doorbellIgnore fn s
  else
    let s := headTo qn index (bumpFn fn 0 s)
    if !arm then s
    else
      let s := setQueue qn (fun q => { q with armed := true, sinceArm := 0 }) s
      if (queue s qn).written ≠ index then raiseQueue qn s else s

/-- A write to the key-rights word (R232). -/
def keyRightsWrite (fn gen resv rights qn : Nat) (s : State) : State :=
  let q := queue s qn
  if qSRQ < q.type || gen ≠ q.gen || resv ≠ 0 then bumpFn fn 1 (bump 0x8057 0 s)
  else setQueue qn (fun q => { q with rights := rights }) s

/-! ### Local data by position: one address, or a fragment table (R90) -/

/-- Address and run length of byte `pos` of a list of fragments. -/
def fragAt : List (Nat × Nat) → Nat → Nat × Nat
  | [], pos => (pos, 0)
  | (a, n) :: r, pos => if pos < n then (a + pos, n - pos) else fragAt r (pos - n)

/-- The piece of a buffer from byte `pos` on, at most `n` bytes: within one fragment and one page. -/
def pieceAt (addr : Nat) (frags : List (Nat × Nat)) (pos n : Nat) : Nat × Nat :=
  let (a, run) := if frags.isEmpty then (addr + pos, n) else fragAt frags pos
  let a := a % 2 ^ 64
  (a, min (min n run) (4096 - a % 4096))

end Sys2Proof.Machine
end

