-- ==== Sys2Proof/Machine/QueueAdmin.lean ====
section
/-!
DEFINITION. Admin commands other than DESTROY and REMOTE (R100 to R106).
-/
namespace Sys2Proof.Machine

/-! Admin status (Table 03-13). -/
def asBADQN : Nat := 0x20
def asBADSTATE : Nat := 0x21
def asBADPARAM : Nat := 0x22
def asNOMEMORY : Nat := 0x23
def asINUSE : Nat := 0x24
def asNOTEMPTY : Nat := 0x25
def asNOTPERMITTED : Nat := 0x26
def asTOOSMALL : Nat := 0x27
def asINTERRUPTED : Nat := 0x28

/-- Queues that exist (0x7000:00). -/
def queuesExisting (s : State) : Nat := (s.qm.queues.filter fun e => qExists e.2).length

/-- The limit in force (0x7001:00, R75), 524 288 while exactly one stack works.  DESIGN CHOICE (log entry
166): it follows the working stacks only, as the range of Table 03-17 has it, and reads its default where
none works; the pool's size (R434) limits a CREATE by itself. -/
def queueLimit (s : State) : Nat := if stacksWorking s = 0 then 1048576 else capQueues s

/-- The admin queue of a function: the first QN of its range (R74). -/
def adminQn (s : State) (fn : Nat) : Nat := (queueRange s fn).1

/-- The next admin command of a function to start, in ring order (R100). -/
def nextAdmin (s : State) (fn : Nat) : Option SendOp :=
  let q := queue s (adminQn s fn)
  if q.admin && qExists q && q.fn == fn then q.ops.find? fun o => !o.started && o.done.isNone else none

/-- An admin command with an opcode that satisfies `p` starts. -/
def adminStart (fn : Nat) (p : Nat → Bool) (f : Nat → SendOp → State → State) (s : State) : State :=
  match nextAdmin s fn with
  | none => s
  | some o =>
    let aqn := adminQn s fn
    if p o.desc then f aqn o (markStarted aqn o.n s) else s

/-- The checks of R100: the target lies in the range and is none of the admin pair; it exists.  After
CONTEXT_LOST only DESTROY and QUERY are accepted (R112): `onLost`.  While a DESTROY finishes (R107, R109) the
queue exists still, and RESUME alone has no state to return it to: `onEnd`. -/
def onTarget (fn aqn : Nat) (o : SendOp) (onLost onEnd : Bool) (f : Nat → Queue → State → State) (s : State) :
    State :=
  let qn := aTARGET o.desc
  let q := queue s qn
  if !ownsQn s fn qn || qn = aqn || qn = aqn + 1 then adminDone aqn o.n { status := asBADQN } s
  else if !qExists q || (q.destroying.isSome && !onEnd) || (q.haltReason == hCONTEXTLOST && !onLost) then
    adminDone aqn o.n { status := asBADSTATE } s
  else f qn q s

/-! ### CREATE (R75, R102) -/

/-- EQN of a queue: an EVENT queue of the function, READY or HALTED, or the EVENT queue itself. -/
def eqnOk (s : State) (fn self ty eqn : Nat) (noEq : Bool) : Bool :=
  if noEq then eqn == 0
  else
    let e := queue s eqn
    (ty == qEQ && eqn == self) ||
      (e.type == qEQ && e.fn == fn && (e.state == .ready || e.state == .halted))

/-- CQN of a queue: a COMPLETION queue of the function, READY or HALTED. -/
def cqnOk (s : State) (fn cqn : Nat) : Bool :=
  let c := queue s cqn
  c.type == qCQ && c.fn == fn && (c.state == .ready || c.state == .halted)

/-- The parameters of a CREATE are in range and refer rightly (R102). -/
def createParams (s : State) (fn qn d : Nat) : Bool :=
  let ty := aTYPE d
  let cq := ty == qCQ || ty == qEQ
  ty ≤ qEQ && aWEIGHT d != 0 && 4 ≤ aLOG2 d && aLOG2 d ≤ 16 && aADDR d % 4096 == 0 &&
    (if cq then aVECTOR d < msixSize fn && aCQN d == 0 && aENDPOINT d == 0
     else aVECTOR d == 0 && aMODCOUNT d == 0 && aMODTIME d == 0 && cqnOk s fn (aCQN d)) &&
    eqnOk s fn qn ty (aEQN d) (aNOEQ d)

/-- May a function use an endpoint (R452)? -/
def endpointOk (s : State) (fn ep : Nat) : Bool :=
  let (lo, n) := endpointRange s fn
  lo ≤ ep && ep < lo + n

/-- The stack that receives a new context (R112): a working one, either where both work. -/
def placeStack (s : State) : Nat × State :=
  if stackWorks s 0 && stackWorks s 1 then draw 2 s else (if stackWorks s 0 then 0 else 1, s)

def queueCreate (fn : Nat) (s : State) : State :=
  adminStart fn (fun d => dOPCODE d = 0x80) (fun aqn o s =>
    let d := o.desc
    let qn := aTARGET d
    let done (st : Nat) (s : State) : State := adminDone aqn o.n { status := st } s
    if !ownsQn s fn qn || qn = aqn || qn = aqn + 1 then done asBADQN s
    else if qExists (queue s qn) then done asBADSTATE s
    else if !createParams s fn qn d then done asBADPARAM s
    else if !tenantOk s fn (aTENANT d) || !asidOk s fn (aASID d) (aTENANT d) ||
        (aTYPE d ≤ qSRQ && !endpointOk s fn (aENDPOINT d)) then done asNOTPERMITTED s
    else if stacksWorking s = 0 || queueLimit s ≤ queuesExisting s then
      done asNOMEMORY s
    else
      let (k, s) := placeStack s
      done stOK (setQueue qn (fun _ => {
        state := .ready
        type := aTYPE d
        fn := fn
        base := aADDR d
        log2 := aLOG2 d
        gen := aGEN d
        weight := aWEIGHT d
        gust := aGUST d
        vector := aVECTOR d
        tenant := aTENANT d
        asid := aASID d
        endpoint := aENDPOINT d
        cqn := aCQN d
        eqn := aEQN d
        noEq := aNOEQ d
        modCount := aMODCOUNT d
        modTime := aMODTIME d
        stack := k }) s)) s

/-! ### RESIZE, HALT, DRAIN (R80, R103) -/

def queueResize (fn : Nat) (s : State) : State :=
  adminStart fn (fun d => dOPCODE d = 0x81 && !(queue s (aTARGET d)).writing) (fun aqn o s =>
    onTarget fn aqn o false true (fun qn q s =>
      let d := o.desc
      let size := 2 ^ aLOG2 d
      let done (c : Comp) (s : State) : State := adminDone aqn o.n c s
      let move (s : State) : State := setQueue qn (fun q => { q with base := aADDR d, log2 := aLOG2 d }) s
      if q.type ≤ qSRQ then
        if q.state != .halted then done { status := asBADSTATE } s
        else if aLOG2 d < 4 || 16 < aLOG2 d || aADDR d % 4096 ≠ 0 then done { status := asBADPARAM } s
        else if q.tail ≠ q.fetched then done { status := asNOTEMPTY } s
        else if q.type = qSEND && size < diff32 q.tail q.retired then done { status := asTOOSMALL } s
        else done { status := stOK } (move s)
      else if aLOG2 d < 4 || 16 < aLOG2 d || aADDR d % 4096 ≠ 0 then done { status := asBADPARAM } s
      else if size < max q.reserved q.entries.length then done { status := asTOOSMALL } s
      else
        done { status := stOK, imm := q.written }
          (pump qn (setQueue qn (fun q => { q with written := 0, head := 0 }) (move s)))) s) s

def queueHalt (fn : Nat) (s : State) : State :=
  adminStart fn (fun d => dOPCODE d = 0x82) (fun aqn o s =>
    onTarget fn aqn o false true (fun qn q s =>
      if q.state != .ready then adminDone aqn o.n { status := asBADSTATE } s
      else adminDone aqn o.n { status := stOK, imm := q.fetched }
        (haltQueue qn hHOSTHALT 0 q.fetched s)) s) s

def queueDrain (fn : Nat) (s : State) : State :=
  adminStart fn (fun d => dOPCODE d = 0x83) (fun aqn o s =>
    onTarget fn aqn o false true (fun qn q s =>
      if q.state != .ready then adminDone aqn o.n { status := asBADSTATE } s
      else setQueue qn (fun q => { q with
        state := .draining
        drainMark := q.tail
        drainFor := some (aqn, o.n, false) }) s) s) s

/-- Work up to the drain mark has finished (R80): RETIRED reaches it for SEND, FETCHED for RECV and
SRQ with their receives posted; a COMPLETION or EVENT queue has none but its pending entries. -/
def drained (q : Queue) : Bool :=
  if q.type = qSEND then q.retired == q.drainMark
  else if q.type ≤ qSRQ then q.fetched == q.drainMark && q.ops.isEmpty
  else q.entries.isEmpty

/-- The result count of DRAIN. -/
def drainCount (q : Queue) : Nat := if q.type = qSEND then q.retired else q.fetched

/-- DRAIN ends in HALTED with DRAINED. -/
def drainEnd (qn : Nat) (s : State) : State :=
  let q := queue s qn
  match q.drainFor with
  | some (aqn, n, false) =>
    adminDone aqn n { status := stOK, imm := drainCount q }
      (haltQueue qn hDRAINED 0 q.fetched (setQueue qn (fun q => { q with drainFor := none }) s))
  | _ => s

/-! ### RESUME (R106) -/

/-- Did the halt concern the entry at HALT_INDEX? -/
def haltOfEntry (q : Queue) : Bool :=
  q.type ≤ qSRQ && ((1 ≤ q.haltReason && q.haltReason ≤ 6) ||
    (q.haltReason == hRINGFAULT && q.haltIndex != q.tail))

/-- READY again, without a halt record. -/
def toReady (q : Queue) : Queue :=
  { q with state := .ready, haltReason := 0, haltDetail := 0, haltIndex := 0, skip := (0, 0) }

/-- RESUME returns the queue to READY; `skip`: past the entry at HALT_INDEX with DESC_ERROR. -/
def resume (qn : Nat) (skip : Bool) (s : State) : State :=
  let q := queue s qn
  if skip && haltOfEntry q then
    let (user, op) := q.skip
    let n := q.fetched
    let comp : Comp := { status := stDESCERROR }
    let s := setQueue q.cqn (fun c => { c with reserved := c.reserved + 1 }) s
    let s := setQueue qn (fun q => { toReady q with fetched := inc 32 n }) s
    if q.type = qSEND then
      setQueue qn (fun q => { q with
        ops := q.ops ++ [{ n := n, desc := user * 2 ^ 128 + op, started := true, done := some comp }] }) s
    else recvDone qn n user op comp none s
  else pump qn (setQueue qn toReady s)

/-- RESUME with SKIP needs a completion slot where it skips an entry. -/
def resumeReady (s : State) (d : Nat) : Bool :=
  let q := queue s (aTARGET d)
  !(aOPTION d && q.state == .halted && haltOfEntry q) || cqFree s q != 0

def queueResume (fn : Nat) (skip : Bool) (s : State) : State :=
  adminStart fn (fun d => dOPCODE d = 0x84 && aOPTION d = skip && resumeReady s d) (fun aqn o s =>
    onTarget fn aqn o false false (fun qn q s =>
      if q.state != .halted then adminDone aqn o.n { status := asBADSTATE } s
      else
        let s := resume qn skip s
        adminDone aqn o.n { status := stOK, imm := (queue s qn).fetched } s) s) s

/-! ### QUERY, MODIFY (R101, R104) -/

def stateCode : QState → Nat
  | .unborn => 0 | .ready => 1 | .halted => 2 | .draining => 3 | .destroyed => 4

/-- The QUERY record (Table 03-14); what a lost context held reads 0 (R112). -/
def queryBits (s : State) (qn : Nat) : Nat :=
  let q := queue s qn
  let ret := if q.type = qSEND then q.retired else q.fetched
  now s % 2 ^ 64 * 2 ^ 288 + stateCode q.state * 2 ^ 152 + q.haltReason * 2 ^ 144 + q.haltDetail * 2 ^ 128
    + (if q.lost then 0
       else q.head * 2 ^ 256 + q.written * 2 ^ 224 + q.reserved * 2 ^ 192 + q.stack * 2 ^ 180
        + q.gen * 2 ^ 172 + q.log2 * 2 ^ 160 + q.type * 2 ^ 156 + q.haltIndex * 2 ^ 96
        + ret * 2 ^ 64 + q.fetched * 2 ^ 32 + q.tail)

/-- QUERY (R104).  DESIGN CHOICE (log entry 165): a RESULT_ADDR that is not 64 B aligned (Table 03-11)
completes with BAD_PARAM; the spec names no status. -/
def queueQuery (fn : Nat) (s : State) : State :=
  adminStart fn (fun d => dOPCODE d = 0x86) (fun aqn o s =>
    onTarget fn aqn o true true (fun qn _ s =>
      if aADDR o.desc % 64 ≠ 0 then adminDone aqn o.n { status := asBADPARAM } s
      else later (.access { asid := (queue s aqn).asid, addr := aADDR o.desc, len := 64
                            data := some (leBytes 64 (queryBits s qn)), cls := .adminResult
                            qn := some aqn, cont := .query aqn o.n }) s) s) s

/-- The QUERY record has been written, or not (R104). -/
def queryWritten (aqn n : Nat) (r : AccResult) (s : State) : State :=
  adminDone aqn n { status := match r with | .ok _ => stOK | _ => stLOCALFAULT } s

def queueModify (fn : Nat) (s : State) : State :=
  adminStart fn (fun d => dOPCODE d = 0x87) (fun aqn o s =>
    onTarget fn aqn o false true (fun qn q s =>
      let d := o.desc
      let cq := q.type == qCQ || q.type == qEQ
      if aWEIGHT d = 0 || !(cq || (aMODCOUNT d == 0 && aMODTIME d == 0)) ||
          !eqnOk s fn qn q.type (aEQN d) (aNOEQ d) then
        adminDone aqn o.n { status := asBADPARAM } s
      else adminDone aqn o.n { status := stOK } (setQueue qn (fun q => { q with
        weight := aWEIGHT d
        gust := aGUST d
        eqn := aEQN d
        noEq := aNOEQ d
        modCount := aMODCOUNT d
        modTime := aMODTIME d }) s)) s) s

end Sys2Proof.Machine
end

