-- ==== Sys2Proof/Machine/RemoteBase.lean ====
section
/-!
DEFINITION. Flows at the source (R146, R162 to R173): contexts, starting, building and injecting the
packets of a message, window and policer, failure, retransmission; connections entering ERROR (R178).
-/
namespace Sys2Proof.Machine

/-! ### Contexts (R162, R163, R167) -/

def srcFlow (s : State) (f : Nat) : Option FlowSrc := mget? s.ra.src f

def setSrc (f : Nat) (g : FlowSrc → FlowSrc) (s : State) : State :=
  { s with ra := { s.ra with src := mmod s.ra.src f g } }

/-- The flow of a key at the source. -/
def findSrc (s : State) (k : FlowKey) : Option Nat :=
  match s.ra.src.find? fun (e : Nat × FlowSrc) => e.2.key == k with
  | some e => some e.1
  | none => none

def srcMsg (s : State) (f rsn : Nat) : Option Msg :=
  match srcFlow s f with
  | some x => x.msgs.find? fun m => m.rsn == rsn
  | none => none

def setMsg (f rsn : Nat) (g : Msg → Msg) (s : State) : State :=
  setSrc f (fun x => { x with msgs := updFirst (fun m => m.rsn == rsn) g x.msgs }) s

/-- Does a message take a sequence number of a match domain (R132)? -/
def sendsSeq (m : Msg) : Bool := m.type == tTSEND || m.type == tRTS

/-- The source identity of a message: a connection's flow carries messages of several endpoints (R177). -/
def msgSource (k : FlowKey) (m : Msg) : Nat := if k.conn.isSome then k.source + m.endpoint else k.source

/-- Unacknowledged messages of the module. -/
def unacked (s : State) : Nat := sumBy (fun (e : Nat × FlowSrc) => e.2.msgs.length) s.ra.src

/-- Is a connection's context held open, so that its flows are kept? -/
def connHeld (s : State) (k : FlowKey) : Bool :=
  match k.conn with
  | some c => (sget {} s.ra.conns c).state != .closed
  | none => false

/-- The least recently used idle context of the source: it has no message (R167). -/
def idleSrc (s : State) : Option Nat :=
  match (s.ra.src.filter fun (e : Nat × FlowSrc) =>
      e.2.msgs.isEmpty && !connHeld s e.2.key).foldl
      (fun (b : Option (Nat × FlowSrc)) e => match b with
        | none => some e
        | some y => if e.2.lastUse < y.2.lastUse then some e else some y) none with
  | some e => some e.1
  | none => none

/-- Flow contexts in use, of both sides: one pool (R167). -/
def flowsUsed (s : State) : Nat := s.ra.src.length + s.ra.tgt.length

/-- Does the next RSN of a flow lie within 64 of its oldest unacknowledged one?  R165 takes no RSN 64 or more
below another to be outstanding with it (DEDUCED, assumption 217). -/
def rsnRoom (x : FlowSrc) : Bool := x.msgs.all fun m => (x.nextRsn + 2 ^ 24 - m.rsn) % 2 ^ 24 < 64

/-- May a message start in a flow now (R163, R167, R278)? -/
def msgMayStart (s : State) (k : FlowKey) (m : Msg) : Bool :=
  unacked s < 1048576 &&
    (match findSrc s k with
     | some f => (match srcFlow s f with | some x => x.msgs.length < 64 && rsnRoom x | none => false)
     | none => flowsUsed s < capFlows s || (idleSrc s).isSome) &&
    (!m.order || !s.ra.src.any fun (e : Nat × FlowSrc) =>
      e.2.key.dest == k.dest && e.2.msgs.any fun x =>
        msgSource e.2.key x == msgSource k m && x.tclass == m.tclass)

/-- The context of a flow, created where there is none.  The first RSN of a new flow is a free value:
the spec gives one only for a connection, 0 (Table 05-8; assumption 20). -/
def openSrc (k : FlowKey) (s : State) : Nat × State :=
  match findSrc s k with
  | some f => (f, s)
  | none =>
    let s := if flowsUsed s < capFlows s then s
      else match idleSrc s with
        | some f => { s with ra := { s.ra with src := mdel s.ra.src f } }
        | none => s
    let f := s.ra.nextFlow
    let (r, s) := if k.conn.isSome then (0, s) else draw (2 ^ 24) s
    let (h, s) := placeStack s
    (f, { s with ra := { s.ra with
      nextFlow := f + 1
      src := mput s.ra.src f { key := k, nextRsn := r, w := rc s 0x7840 0, stack := h } } })

/-! ### Failures (R165, R166, R178) -/

/-- PUT_FAILED to the EQN of the sending queue (R179). -/
def putFailed (qn entry dest status reason : Nat) (s : State) : State :=
  queueEvent qn 0x0300 qn (reason * 256 + status) (dest * 2 ^ 32 + entry) s

/-- A connection enters ERROR (R178). -/
def connError (c status : Nat) (s : State) : State :=
  let x := sget {} s.ra.conns c
  if x.state != .opened then s
  else postEvent x.eqn 0x0303 c status x.peer { s with ra := { s.ra with
    conns := smod {} s.ra.conns c fun x => { x with state := .error } } }

/-- The rendezvous handle of a TSEND (R131). -/
def handleOf (k : FlowKey) (m : Msg) (qn entry : Nat) : Handle where
  qn := qn
  entry := entry
  source := k.source
  dest := k.dest
  asid := m.asid
  rights := m.rights
  mlen := m.mlen
  laddr := m.laddr
  frags := m.frags

/-- A message leaves its flow. -/
def dropMsg (f rsn : Nat) (s : State) : State :=
  setSrc f (fun x => { x with msgs := x.msgs.filter fun m => m.rsn != rsn }) s

/-! ### Packets (R242 to R245) -/

/-- Does the payload come from local memory? -/
def readsLocal (m : Msg) : Bool :=
  m.inline.isEmpty && (m.type == tTSEND || m.type == tPUT || m.type == tPUTIMM || m.type == tCSEND || m.type == tCPUT) ||
    m.type == tCAS128

/-- Bytes that the message reads from local memory. -/
def localLen (m : Msg) : Nat := if m.type = tCAS128 then 16 else if readsLocal m then m.mlen else 0

/-- Payload bytes that the message sends (Table 08-3). -/
def sendLen (m : Msg) : Nat :=
  if m.type = tCAS128 then 32 else if readsLocal m then m.mlen else m.inline.length

/-- Payload of the next packet. -/
def nextLen (m : Msg) : Nat := min 4032 (sendLen m - m.cursor)

/-- Bytes to gather for the next packet. -/
def needLocal (m : Msg) : Nat := if m.type = tCAS128 then 16 else if readsLocal m then nextLen m else 0

/-- Every packet has been injected: the last one carries the end of the data, or nothing. -/
def allSent (m : Msg) : Bool := m.phase == .waiting

/-- The type header of a message's packet (Table 08-5). -/
def msgTH (conn : Nat) (m : Msg) : Nat :=
  let t := m.type
  let off := if t = tRGET then m.from_ else m.cursor
  let match_ := m.domain * 2 ^ 24 + m.mseq
  if t = tTSEND || t = tRTS then reqTH m.rsn off m.mlen m.imm m.handle m.matchBits match_
  else if t = tSKIP then reqTH m.rsn 0 0 0 0 0 match_
  else if t = tRGET then reqTH m.rsn off m.mlen 0 m.handle 0 match_
  else if t = tFLUSH then reqTH m.rsn 0 0 0 0 m.mask 0
  else if t = tCSEND then reqTH m.rsn off m.mlen m.imm (conn * 256) 0 (m.dconn * 65536)
  else if t = tCPUT || t = tCGET then reqTH m.rsn off m.mlen (conn * 256) m.key m.raddr (m.dconn * 65536)
  else reqTH m.rsn off m.mlen (if t = tPUTIMM then m.imm else 0) m.key m.raddr 0

/-- The packet that is ready to go. -/
def msgPacket (s : State) (k : FlowKey) (m : Msg) (colour : Nat) : Packet where
  type := m.type
  order := m.order
  poison := m.bufPoison || m.tainted
  solicit := m.solicit
  tclass := m.tclass
  colour := colour
  tenant := k.tenant
  dest := k.dest
  source := msgSource k m
  attempt := m.attempt
  stamp := stampNow s
  th := msgTH (k.conn.getD 0) m
  payload := if m.type = tCAS128 then m.inline ++ m.buf
    else if readsLocal m then m.buf else slice m.inline m.cursor (nextLen m)

/-! ### Injection (R171, R173) -/

/-- Payload bytes of a flow in flight: a message that its refusal has answered has none. -/
def inFlight (x : FlowSrc) : Nat := sumBy (fun m => if m.refusal.isSome then 0 else m.flying) x.msgs

/-- Read the next piece of local data, where there is one to gather. -/
def gather (f : Nat) (m : Msg) (s : State) : State :=
  let (a, n) := pieceAt m.laddr m.frags (m.cursor + m.buf.length) (needLocal m - m.buf.length)
  let qn := match m.owner with | .desc q _ => some q | _ => none
  if needLocal m ≤ m.buf.length then s
  else later (.access { asid := m.asid, addr := a, len := n, cls := .localBuf, rights := m.rights,
                        qn := qn, cont := .msgRead f m.rsn }) (setMsg f m.rsn (fun m => { m with reading := true }) s)

/-- A packet enters the fabric: the message goes on to the next one. -/
def inject (f : Nat) (k : FlowKey) (m : Msg) (colour : Nat) (s : State) : State :=
  let n := nextLen m
  let s := injectPacket (msgPacket s k m colour) (when_ (m.type = tSKIP) (bump 0x743B 0) s)
  let done := sendLen m ≤ m.cursor + n
  setMsg f m.rsn (fun m => { m with
    red := false
    phase := if done then .waiting else .sending
    cursor := m.cursor + n
    buf := []
    bufPoison := false
    flying := m.flying + n
    sentAt := ticks s }) s

/-- The packet that is ready meets the window and the policer; then the next one is gathered. -/
def tryInject (f rsn : Nat) (s : State) : State :=
  match srcFlow s f, srcMsg s f rsn with
  | some x, some m =>
    let n := nextLen m
    let next (s : State) : State :=
      match srcMsg s f rsn with
      | some m => if m.phase == .sending then gather f m s else s
      | none => s
    let k := m.cursor / 4032
    if n != 0 && x.w < inFlight x + n then setMsg f rsn (fun m => { m with phase := .heldWindow }) s
    else if m.type = tFLUSH then next (inject f x.key m 0 s)
    else match m.colours[k]? with
      | some c => next (inject f x.key m c s)
      | none =>
        let (c, s) := police x.key.tenant (64 + n) m.colour m.red s
        if c = 2 then setMsg f rsn (fun m => { m with phase := .heldRed, red := true }) s
        else next (inject f x.key m c (setMsg f rsn (fun m => { m with colours := m.colours ++ [c] }) s))
  | _, _ => s

/-- A message is ready to gather or inject its next packet. -/
def goOn (f rsn : Nat) (s : State) : State :=
  match srcFlow s f, srcMsg s f rsn with
  | some _, some m =>
    if m.reading then s
    else if m.buf.length < needLocal m then gather f m s
    else tryInject f rsn s
  | _, _ => s

/-- The window has room again: held messages go on, oldest first. -/
def kickFlow (f : Nat) (s : State) : State :=
  match srcFlow s f with
  | none => s
  | some x =>
    foldSt (fun (m : Msg) s => match srcMsg s f m.rsn with
      | some m => if m.phase == .heldWindow then
          tryInject f m.rsn (setMsg f m.rsn (fun m => { m with phase := .sending }) s) else s
      | none => s) x.msgs s

/-- A message starts (R162): it takes the next RSN of its flow. -/
def startIn (k : FlowKey) (m : Msg) (s : State) : State :=
  let (f, s) := openSrc k s
  match srcFlow s f with
  | none => s
  | some x =>
    let rsn := x.nextRsn
    let outstanding := sumBy (fun i =>
      if x.msgs.any fun y => y.rsn == (rsn + 2 ^ 24 - 1 - i) % 2 ^ 24 then 2 ^ i else 0) (rangeFrom 0 63)
    let m := { m with
      rsn := rsn
      start := s.ra.useClock
      mask := if m.type = tFLUSH then outstanding else 0 }
    let mine (d : Dropped) : Bool :=
      d.source == msgSource k m && d.dest == k.dest && d.tenant == k.tenant && d.rsn == rsn
    let s := { s with ra := { s.ra with
      useClock := s.ra.useClock + 1
      dropped := s.ra.dropped.filter fun d => !mine d } }
    let s := match m.owner with
      | .desc qn entry =>
        if sendsSeq m then
          { s with mu := { s.mu with handles := mput s.mu.handles m.handle (handleOf k m qn entry) } }
        else s
      | _ => s
    let s := setSrc f (fun x => { x with
      nextRsn := inc 24 rsn
      msgs := x.msgs ++ [m]
      lastUse := s.ra.useClock }) s
    goOn f rsn s

/-- A message that belongs to no descriptor starts, or waits until it can. -/
def startMsg (k : FlowKey) (m : Msg) (s : State) : State :=
  if msgMayStart s k m then startIn k m s
  else { s with ra := { s.ra with waiting := s.ra.waiting ++ [{ key := k, msg := m }] } }

/-- The waiting messages that can start now do so, in their order. -/
def kickWaiting (s : State) : State :=
  foldSt (fun (w : WaitMsg) s => startMsg w.key w.msg s) s.ra.waiting { s with ra := { s.ra with waiting := [] } }

/-- A skip notice for a TSEND that ended with LOSS or UNREACHABLE, unless its domain has closed (R134). -/
def sendSkip (k : FlowKey) (m : Msg) (s : State) : State :=
  if sendsSeq m && !m.orphan then
    startMsg k { type := tSKIP, owner := .skip, domain := m.domain, mseq := m.mseq, tclass := m.tclass } s
  else s

/-- The failure of a PUT that has retired: PUT_FAILED, and the next FLUSH, unless one has reported it, which
knows LOSS where routing said UNREACHABLE (R165, R179). -/
def lateFailure (k : FlowKey) (m : Msg) (qn entry status reason : Nat) (s : State) : State :=
  let st := if status = stUNREACHABLE then stLOSS else status
  let dest := match k.conn with | some c => c | none => k.dest
  let e : Failure := { source := msgSource k m, dest := k.dest, tenant := k.tenant, qn := qn
                       start := m.start, status := st, reason := reason }
  let failures := if m.reported then s.ra.failures else s.ra.failures ++ [e]
  putFailed qn entry dest status reason { s with ra := { s.ra with failures := failures } }

/-- Is a PUT or CPUT refused while packets of it have still to leave?  Table 05-1 retires it when its last
packet has left, with no status of a refusal. -/
def refusedEarly (m : Msg) (status : Nat) : Bool :=
  (m.type == tPUT || m.type == tCPUT) && !m.left && (status == stDENIED || status == stREMOTEFAULT) &&
    (match m.owner with | .desc _ _ => true | _ => false)

/-- An operation that has started ends without success: reported by its owner (R146, R165, R166). -/
def failMsg (f rsn status reason : Nat) (s : State) : State :=
  match srcFlow s f, srcMsg s f rsn with
  | some x, some m =>
    if refusedEarly m status then
      kickFlow f (setMsg f rsn (fun m => { m with refusal := some (m.refusal.getD (status, reason)) }) s)
    else
    let s := dropMsg f rsn s
    let s := when_ (status = stLOSS) (bump 0x7862 0) s
    let gone := status = stLOSS || status = stUNREACHABLE
    let imm := if status = stDENIED || status = stREMOTEFAULT then reason else 0
    let s := match m.owner with
      | .desc qn entry =>
        if m.left then lateFailure x.key m qn entry status reason s
        else
          let length := if m.type = tGET || m.type = tCGET then m.sunk else 0
          complete qn entry { status := status, imm := imm, length := length } s
      | .engine e c store addr => later (.engineRemoteDone e c store addr .pcieError) s
      | .fence e c no addr => later (.fenceFlushed e c no addr x.key.dest x.key.tenant false) s
      | .move e c tag flush => later (.moveSent e c tag flush status) s
      | .rget pid => later (.fetchFailed pid) s
      | .skip => s
    let s := match x.key.conn with
      | some c => if gone then connError c status s else s
      | none => s
    let s := when_ gone (sendSkip x.key m) s
    kickWaiting (kickFlow f s)
  | _, _ => s

/-- A message is sent again whole, as a new attempt (R164, R166). -/
def resendMsg (f rsn : Nat) (s : State) : State :=
  match srcMsg s f rsn with
  | none => s
  | some m =>
    if m.reading then setMsg f rsn (fun m => { m with again := true }) s
    else
      goOn f rsn (setMsg f rsn (fun m => { m with
        phase := .sending
        attempt := (m.attempt + 1) % 16
        cursor := 0
        buf := []
        bufPoison := false
        flying := 0
        again := false }) s)

/-- Has the whole answer of a message arrived, so that it waits only for its local buffer? -/
def answered (m : Msg) : Bool := m.sinking || !m.sinkQueue.isEmpty

/-- A message counts as lost: it is retransmitted, or fails with LOSS (R166); a skip notice is repeated
without limit (R134). -/
def retransmit (f rsn : Nat) (s : State) : State :=
  match srcMsg s f rsn with
  | none => s
  | some m =>
    if m.owner == .skip then resendMsg f rsn s
    else if rc s 0x7831 0 ≤ m.lossTries then failMsg f rsn stLOSS 0 s
    else resendMsg f rsn (bump 0x7861 0 (setMsg f rsn (fun m => { m with lossTries := m.lossTries + 1 }) s))

/-- A piece of local data has been read (R166, R242). -/
def msgReadDone (f rsn : Nat) (r : AccResult) (s : State) : State :=
  match srcMsg s f rsn with
  | none => s
  | some m =>
    let s := setMsg f rsn (fun m => { m with reading := false }) s
    if m.again then resendMsg f rsn s
    else if m.phase != .sending then s
    else match r with
      | .ok bs => goOn f rsn (setMsg f rsn (fun m => { m with buf := m.buf ++ bs }) s)
      | .poison bs => goOn f rsn (setMsg f rsn (fun m => { m with buf := m.buf ++ bs, bufPoison := true }) s)
      | _ => failMsg f rsn stLOCALFAULT 0 s

/-! ### Answers at the source (R146, R171) -/

/-- The window and the base delay after an acknowledgement (R171). -/
def windowUpdate (f : Nat) (delay count : Nat) (squall : Bool) (sentAt : Nat) (s : State) : State :=
  match srcFlow s f with
  | none => s
  | some x =>
    let node := idNode x.key.dest
    let valid := delay ≠ 0xFFFFFFFF
    let base : BaseDelay := match mget? s.ra.base node with
      | some b => { b with value := min b.value delay }
      | none => { value := delay, since := ticks s }
    let s := if valid then { s with ra := { s.ra with base := mput s.ra.base node base } } else s
    let excess := if valid then delay - base.value else 0
    let t := ticks s
    let w := x.w
    let cut := squall || rc s 0x7844 0 < excess
    let takes := cut && x.srtt ≤ t - x.lastCut
    let s := when_ takes (bump 0x7865 0) s
    let w := if takes then max 4096 (w - w * rc s 0x7842 0 / 256)
      else if !cut && excess < rc s 0x7843 0 then min (rc s 0x7841 0) (w + rc s 0x7847 0 * count / max w 1)
      else w
    setSrc f (fun x => { x with
      w := w
      lastCut := if takes then t else x.lastCut
      srtt := (7 * x.srtt + (t - sentAt)) / 8 }) s

/-- Is a failure covered by a FLUSH of a queue (R165)? -/
def covers (k : FlowKey) (qn start : Nat) (e : Failure) : Bool :=
  e.source == k.source && e.dest == k.dest && e.tenant == k.tenant && e.qn == qn && e.start < start

/-- The PUTs of a queue that were refused before their last packet left, which a FLUSH of it covers and none has
reported (R146, R165). -/
def refusedBefore (qn start : Nat) (m : Msg) : Bool :=
  m.refusal.isSome && !m.reported && m.start < start &&
    (match m.owner with | .desc q _ => q == qn | _ => false)

/-- Status and reason that a FLUSH of a queue reports: the first that applies (R165). -/
def flushStatus (s : State) (x : FlowSrc) (qn start : Nat) : Nat × Nat :=
  let covered := (s.ra.failures.filter (covers x.key qn start)).map fun e => (e.status, e.reason)
  let early := (x.msgs.filter (refusedBefore qn start)).filterMap fun m => m.refusal
  match [stLOSS, stLOCALFAULT, stREMOTEFAULT, stDENIED].findSome? fun st =>
      (covered ++ early).find? fun e => e.1 == st with
  | some (st, reason) => (st, if st = stREMOTEFAULT || st = stDENIED then reason else 0)
  | none => (stOK, 0)

/-- A FLUSH has reported the failures that it covers: none is reported twice (R165). -/
def flushReported (f : Nat) (x : FlowSrc) (qn start : Nat) (s : State) : State :=
  let mark (m : Msg) : Msg := if refusedBefore qn start m then { m with reported := true } else m
  setSrc f (fun x => { x with msgs := x.msgs.map mark })
    { s with ra := { s.ra with failures := s.ra.failures.filter fun e => !covers x.key qn start e } }

/-- A message ends with success: its operation retires, where it has not. -/
def endMsg (f rsn status length : Nat) (s : State) : State :=
  match srcFlow s f, srcMsg s f rsn with
  | some x, some m =>
    let s := dropMsg f rsn s
    let s := match m.owner with
      | .desc qn entry =>
        if m.left then s
        else if m.type = tFLUSH then
          let (st, reason) := flushStatus s x qn m.start
          complete qn entry { status := st, imm := reason } (flushReported f x qn m.start s)
        else complete qn entry { status := status, length := length } s
      | .engine e c store addr => when_ store.isSome (later (.engineRemoteDone e c store addr (.ok []))) s
      | .fence e c no addr => later (.fenceFlushed e c no addr x.key.dest x.key.tenant true) s
      | .move e c tag flush => later (.moveSent e c tag flush status) s
      | .rget _ => s
      | .skip => s
    kickWaiting (kickFlow f s)
  | _, _ => s

/-- The last packet of a PUT or CPUT has left the module: the operation retires (R146), and a refusal that
came before is reported (R165). -/
def msgLeft (f : Nat) (pk : Packet) (s : State) : State :=
  match srcMsg s f (pRSN pk) with
  | none => s
  | some m =>
    if (m.type = tPUT || m.type = tCPUT) && !m.left && m.mlen ≤ pOFFSET pk + pk.payload.length then
      let s := setMsg f m.rsn (fun m => { m with left := true }) s
      let s := match m.owner with
        | .desc qn entry => complete qn entry { status := stOK, length := m.mlen } s
        | .engine e c (some id) _ => later (.engineLeft e c id) s
        | _ => s
      match m.refusal with
      | some (st, reason) => failMsg f m.rsn st reason s
      | none => s
    else s

/-- The flow of a request packet of this module. -/
def flowOfRequest (s : State) (pk : Packet) : Option Nat :=
  let c := pk.type = tCSEND || pk.type = tCPUT || pk.type = tCGET
  findSrc s { source := if c then ownIdentity s 0 else pk.source, dest := pk.dest, tenant := pk.tenant
              conn := if c then some (pSCONN pk) else none }

/-- A packet of this module has left it. -/
def packetLeft (pk : Packet) (s : State) : State :=
  if !isRequest pk.type then s
  else match flowOfRequest s pk with
    | some f => msgLeft f pk s
    | none => s

/-- RT finds no route for a packet of this module: its operation ends UNREACHABLE (R146, R277); a skip
notice is repeated (R134). -/
def packetUnroutable (pk : Packet) (s : State) : State :=
  if !isRequest pk.type then s
  else match flowOfRequest s pk with
    | some f => (match srcMsg s f (pRSN pk) with
      | some m => if m.owner == .skip || m.attempt ≠ pk.attempt then s else failMsg f m.rsn stUNREACHABLE 0 s
      | none => s)
    | none => s

/-- A loss notice names a packet of this module (R166). -/
def packetLost (pk : Packet) (s : State) : State :=
  if !isRequest pk.type then s
  else match flowOfRequest s pk with
    | some f => (match srcMsg s f (pRSN pk) with
      | some m =>
        let waits : Bool := match m.phase with | .retry _ => true | _ => false
        if m.attempt ≠ pk.attempt || waits || m.again || answered m then s else retransmit f m.rsn s
      | none => s)
    | none => s

/-- Does a message wait for its answer with something sent: all of it, or the packets before one that the
window or the policer holds?  One whose local data is still being read has not got so far (DEDUCED, log
entry 104). -/
def awaits (m : Msg) : Bool :=
  m.phase == .waiting || ((m.phase == .heldWindow || m.phase == .heldRed) && m.cursor != 0)

/-- A message has waited 0x7830:00 for its answer (R166, R134). -/
def lossInterval (f rsn : Nat) (skips : Bool) (s : State) : State :=
  match srcMsg s f rsn with
  | none => s
  | some m =>
    if awaits m && (m.owner == .skip) == skips && !answered m && m.refusal.isNone &&
        m.sentAt + rc s 0x7830 0 ≤ ticks s then
      retransmit f rsn s
    else s

/-- A retry interval is over for a refusal of the codes given (R140, R160, R167, R169). -/
def retryInterval (codes : List Nat) (f rsn : Nat) (s : State) : State :=
  match srcMsg s f rsn with
  | none => s
  | some m => match m.phase with
    | .retry c => if codes.contains c && m.due ≤ ticks s then resendMsg f rsn s else s
    | _ => s

/-- A red message is evaluated again once the peak bucket allows it (R315). -/
def reevaluate (f rsn : Nat) (s : State) : State :=
  match srcFlow s f, srcMsg s f rsn with
  | some x, some m =>
    if m.phase == .heldRed && policerReady s x.key.tenant (64 + nextLen m) then
      tryInject f rsn (setMsg f rsn (fun m => { m with phase := .sending }) s)
    else s
  | _, _ => s

/-- A refusal with retry (R160, R167, R169, R140). -/
def refusedRetry (f rsn code interval : Nat) (s : State) : State :=
  match srcMsg s f rsn with
  | none => s
  | some m =>
    let limit := rc s 0x7832 0
    if m.refusal.isSome then s
    else if code = rRNR && limit ≠ 15 && limit ≤ m.rnrTries then failMsg f rsn stDENIED rRNR s
    else if code = rPAGERETRY && rc s 0x7852 0 ≤ m.pageTries + 1 then failMsg f rsn stREMOTEFAULT rRESEND s
    else
      kickFlow f (setMsg f rsn (fun m => { m with
        phase := .retry code
        due := ticks s + interval
        flying := 0
        rnrTries := if code = rRNR then m.rnrTries + 1 else m.rnrTries
        pageTries := if code = rPAGERETRY then m.pageTries + 1 else m.pageTries }) s)

/-- Status of a refusal without retry (Table 05-2). -/
def refusalStatus (code : Nat) : Nat := if 32 ≤ code then stREMOTEFAULT else stDENIED

/-- The base delay of a node has had its interval: the next sample resets it (R171). -/
def baseReset (node : Nat) (s : State) : State :=
  match mget? s.ra.base node with
  | some b =>
    if b.since + rc s 0x7845 0 ≤ ticks s then { s with ra := { s.ra with base := mdel s.ra.base node } } else s
  | none => s

/-! ### Response data written to the local buffer (R146) -/

/-- Where response data goes: CAS128 has its old value 16 bytes on (R86). -/
def sinkBase (m : Msg) : Nat := if m.type = tCAS128 then m.laddr + 16 else m.laddr

/-- Bytes of response data that complete the message. -/
def sinkNeed (m : Msg) : Nat :=
  if m.type = tCAS128 then 16 else if m.type = tFADD64 || m.type = tSWAP64 || m.type = tCAS64 then 8 else m.mlen

/-- Write the next piece, or end the message once everything is written. -/
def sinkNext (f rsn : Nat) (s : State) : State :=
  match srcMsg s f rsn with
  | none => s
  | some m =>
    if m.sinking then s
    else match m.sinkQueue with
      | [] =>
        if sinkNeed m ≤ m.sunk then endMsg f rsn (if m.poisoned then stPOISON else stOK) m.mlen s else s
      | c :: _ =>
        let (a, n) := pieceAt (sinkBase m) m.frags (c.off + m.sinkPos) (c.data.length - m.sinkPos)
        let qn := match m.owner with | .desc q _ => some q | _ => none
        later (.access { asid := m.asid, addr := a, len := n, data := some (slice c.data m.sinkPos n)
                         poison := c.poison, cls := .localBuf, rights := m.rights, qn := qn
                         cont := .msgSink f rsn })
          (setMsg f rsn (fun m => { m with sinking := true }) s)

/-- A piece of response data is written. -/
def sinkDone (f rsn : Nat) (r : AccResult) (s : State) : State :=
  match srcMsg s f rsn with
  | none => s
  | some m => match m.sinkQueue with
    | [] => s
    | c :: rest => match r with
      | .ok _ =>
        let (_, n) := pieceAt (sinkBase m) m.frags (c.off + m.sinkPos) (c.data.length - m.sinkPos)
        let ended := c.data.length ≤ m.sinkPos + n
        sinkNext f rsn (setMsg f rsn (fun m => { m with
          sinking := false
          sunk := m.sunk + n
          sinkQueue := if ended then rest else m.sinkQueue
          sinkPos := if ended then 0 else m.sinkPos + n }) s)
      | _ => failMsg f rsn stLOCALFAULT 0 s

/-- Response data arrives: bytes `off` on. -/
def respData (f rsn off : Nat) (data : List Byte) (poison : Bool) (s : State) : State :=
  match srcMsg s f rsn with
  | none => s
  | some m =>
    if m.gotOffs.contains off || sinkNeed m < off + data.length then s
    else
      let s := setMsg f rsn (fun m => { m with
        gotOffs := off :: m.gotOffs
        got := m.got + data.length
        poisoned := m.poisoned || poison }) s
      match m.owner with
      | .desc _ _ =>
        sinkNext f rsn (setMsg f rsn (fun m => { m with
          sinkQueue := m.sinkQueue ++ [{ off := off, data := data, poison := poison }] }) s)
      | .engine e c store addr =>
        if m.mlen ≤ data.length then
          later (.engineRemoteDone e c store addr (if poison then .poison data else .ok data))
            (endMsg f rsn stOK m.mlen s)
        else s
      | .rget pid =>
        let s := later (.fetched pid off data poison) s
        if m.mlen ≤ m.got + data.length then endMsg f rsn stOK m.mlen s else s
      | .fence _ _ _ _ | .move _ _ _ _ | .skip => s

end Sys2Proof.Machine
end

