-- ==== Sys2Proof/Machine/RemoteTgt.lean ====
section
/-!
DEFINITION. Flows at the target (R162, R164, R165, R167): contexts, duplicates, acknowledgements,
refusals, completion records, and FLUSH.
-/
namespace Sys2Proof.Machine

def tgtFlow (s : State) (f : Nat) : Option FlowTgt := mget? s.ra.tgt f

def setTgt (f : Nat) (g : FlowTgt → FlowTgt) (s : State) : State :=
  { s with ra := { s.ra with tgt := mmod s.ra.tgt f g } }

def tgtMsg (s : State) (f rsn : Nat) : Option RMsg :=
  match tgtFlow s f with
  | some x => x.msgs.find? fun m => m.rsn == rsn
  | none => none

def setRMsg (f rsn : Nat) (g : RMsg → RMsg) (s : State) : State :=
  setTgt f (fun x => { x with msgs := updFirst (fun m => m.rsn == rsn) g x.msgs }) s

/-- Is a request connected: does its flow belong to a connection (R177)? -/
def isConnected (t : Nat) : Bool := t == tCSEND || t == tCPUT || t == tCGET

/-- The key of a request's flow at its target.  A connection is one flow, whichever endpoint of its peer sends
(R177). -/
def tgtKey (p : Packet) : FlowKey where
  source := if isConnected p.type then idNode p.source * 4096 else p.source
  dest := p.dest
  tenant := p.tenant
  conn := if isConnected p.type then some (pDCONN p) else none

def findTgt (s : State) (k : FlowKey) : Option Nat :=
  match s.ra.tgt.find? fun (e : Nat × FlowTgt) => e.2.key == k with
  | some e => some e.1
  | none => none

/-- An attempt has been seen, the last of `l`: 8 are kept.  Attempts are numbered modulo 16, so that one which is
not among the last 8 seen is a later one (R164). -/
def noteTry (t : Nat) (l : List Nat) : List Nat := (t :: l.filter fun u => u != t).take 8

/-- Does a packet of an attempt take part in a message: none before or at a refusal with retry does (R164)? -/
def takesPart (m : RMsg) (attempt : Nat) : Bool := !m.spent.contains attempt

/-- The message of a packet that still takes part: it is not gone, and no later refusal with retry ended the
packet's attempt (R164). -/
def liveMsg (s : State) (p : Packet) : Option (Nat × RMsg) :=
  match findTgt s (tgtKey p) with
  | none => none
  | some f => match tgtMsg s f (pRSN p) with
    | some m => if !m.halted && takesPart m p.attempt then some (f, m) else none
    | none => none

/-! ### Answers (Table 08-6) -/

/-- A response to a request. -/
def answer (s : State) (req : Packet) (type th : Nat) (payload : List Byte) (poison : Bool) : Packet where
  type := type
  poison := poison
  tclass := req.tclass
  tenant := req.tenant
  dest := req.source
  source := req.dest
  stamp := stampNow s
  th := th
  payload := payload

/-- The one-way delay sample of a packet (R171): none where it is invalid. -/
def delaySample (s : State) (p : Packet) : Option Nat :=
  if p.stamp = 0 || timeFree s || now s < p.stamp || rc s 0x7846 0 < now s - p.stamp then none
  else some (now s - p.stamp)

/-- DELAY of an ACK. -/
def delayField (d : Option Nat) : Nat :=
  match d with
  | some n => if n ≤ 0xFFFFFFFE then n else 0xFFFFFFFF
  | none => 0xFFFFFFFF

/-- A refusal, counted by its reason (R147). -/
def sendRefusal (p : Packet) (code interval : Nat) (s : State) : Packet × State :=
  let a := answer s p tREFUSAL (rspTH (pRSN p) 0 interval 0 code false false) [] false
  (a, injectPacket a (bump 0x7860 code s))

/-! ### FLUSH (R165) -/

def setFlush (f rsn : Nat) (g : HeldFlush → HeldFlush) (s : State) : State :=
  setTgt f (fun x => { x with flushes := updFirst (fun h => h.rsn == rsn) g x.flushes }) s

/-- A FLUSH whose RSNs have all completed issues its zero-length reads. -/
def flushReads (f : Nat) (h : HeldFlush) (s : State) : State :=
  foldSt (fun l s => later (.zeroRead l (.zeroRead f h.rsn)) s) h.links
    (setFlush f h.rsn (fun y => { y with reads := some y.links.length }) s)

/-! ### Completion (R164) -/

/-- Serial comparison of RSNs: is `a` before `b`? -/
def rsnBefore (a b : Nat) : Bool :=
  let d := (b + 2 ^ 24 - a) % 2 ^ 24
  d != 0 && d < 2 ^ 23

/-- Advance the lowest RSN that may not have completed. -/
def advanceUpTo (record : List DoneRec) : Nat → Nat → Nat
  | 0, u => u
  | n + 1, u => if record.any fun d => d.rsn == u then advanceUpTo record n (inc 24 u) else u

/-- An RSN has completed or been refused: it enters the completion record of the last 64 RSNs, and the
FLUSHes that wait for it go on. -/
def finishRsn (f : Nat) (d : DoneRec) (s : State) : State :=
  let s := setTgt f (fun x =>
    let record := (d :: x.record.filter fun e => e.rsn != d.rsn).take 64
    { x with
      msgs := x.msgs.filter fun m => m.rsn != d.rsn
      record := record
      upTo := advanceUpTo record 64 x.upTo
      flushes := x.flushes.map fun h =>
        if h.waits.contains d.rsn then { h with
          waits := h.waits.filter fun r => r != d.rsn
          links := match d.link with | some l => insertNat l h.links | none => h.links }
        else h }) s
  match tgtFlow s f with
  | none => s
  | some x =>
    let s := foldSt (fun (h : HeldFlush) s =>
      if h.waits.isEmpty && h.reads.isNone && !h.links.isEmpty then flushReads f h s
      else if h.waits.isEmpty && h.reads.isNone then
        later (.sendAck f h.rsn 0 stOK) (setFlush f h.rsn (fun y => { y with reads := some 0 }) s)
      else s) x.flushes s
    if x.key.conn.isSome then later (.flowGo f) s else s

/-- The completion record of a message (R162, R164). -/
def recordOf (m : RMsg) (answer : Option Packet) : DoneRec where
  rsn := m.rsn
  packet := m.packet
  tries := (m.seen ++ m.spent).take 8
  refused := m.refused
  answer := answer
  link := m.link

/-- A message is acknowledged (R164). -/
def ackMsg (f rsn count code : Nat) (s : State) : State :=
  match tgtMsg s f rsn with
  | none => s
  | some m =>
    let a := answer s m.packet tACK (rspTH rsn 0 count (delayField m.delay) code m.squall false) [] false
    let s := setTgt f (fun x => { x with flushes := x.flushes.filter fun h => h.rsn != rsn }) s
    finishRsn f (recordOf m (some a)) (injectPacket a s)

/-- A message is refused; with an interval, it is refused with retry (R164, R246). -/
def refuseMsg (f rsn code interval : Nat) (s : State) : State :=
  match tgtMsg s f rsn with
  | none => s
  | some m =>
    if m.halted then s
    else
      let (a, s) := sendRefusal m.packet code interval s
      let s := when_ (!s.ra.ordered.isEmpty) (later .orderGo) s
      if interval ≠ 0 then
        setRMsg f rsn (fun m => { m with
          refused := some m.attempt
          spent := (m.seen ++ m.spent).take 8
          seen := []
          halted := true
          offsets := []
          taken := 0
          placed := 0
          waitQ := []
          pos := 0 }) s
      else
        let s := setTgt f (fun x => { x with flushes := x.flushes.filter fun h => h.rsn != rsn }) s
        finishRsn f (recordOf m (some a)) s

/-! ### Arrival at a flow (R162, R164, R167) -/

/-- May a connected packet be taken (R176)? -/
def connOk (s : State) (p : Packet) : Bool :=
  let c := sget {} s.ra.conns (pDCONN p)
  c.state == .opened && c.peer == p.source && c.peerConn == pSCONN p && c.tenant == p.tenant

/-- Does a connected packet belong to the flow of its connection?  Its message has its place there, though it is
refused where another endpoint sent it (R176, R177). -/
def connFlow (s : State) (p : Packet) : Bool :=
  let c := sget {} s.ra.conns (pDCONN p)
  c.state == .opened && idNode c.peer == idNode p.source && c.peerConn == pSCONN p && c.tenant == p.tenant

/-- A new attempt, or the first packet, of a message. -/
def newRMsg (s : State) (p : Packet) : RMsg where
  rsn := pRSN p
  packet := p
  attempt := p.attempt
  seen := [p.attempt]
  since := s.ra.useClock
  offsets := [pOFFSET p]
  taken := p.payload.length
  poison := p.poison
  squall := p.squall
  delay := delaySample s p

/-- The larger of two samples of which either may be invalid. -/
def maxSample : Option Nat → Option Nat → Option Nat
  | some a, some b => some (max a b)
  | some a, none => some a
  | none, b => b

/-- The packet of a new RSN: RSNs more than 63 below it have been answered (R163).  `dup`: the RSN was
completed before, and its GET reads the region again. -/
def addRMsg (f : Nat) (dup : Bool) (p : Packet) (s : State) : State :=
  let low := (pRSN p + 2 ^ 24 - 63) % 2 ^ 24
  setTgt f (fun x => { x with
    upTo := if rsnBefore x.upTo low then low else x.upTo
    msgs := x.msgs ++ [{ newRMsg s p with dup := dup }] })
    { s with ra := { s.ra with useClock := s.ra.useClock + 1 } }

/-- What the reliability layer makes of a packet. -/
inductive Front where
  /-- it is done with: a duplicate, refused, or discarded -/
  | over_
  /-- it belongs to a message of the flow and is new; `first`: the first of its attempt -/
  | take (f : Nat) (first : Bool)
deriving DecidableEq, Repr

/-- A packet of a known flow (R164).  A completed message is answered again, once for each later attempt,
from its record; a GET reads its region again; a packet of the attempt last refused is counted.  Of a message refused with retry only packets of a later attempt
are taken; those of the refused attempt are counted.  Packets of several attempts without a refusal between them
are duplicates where they carry an offset that was taken. -/
def frontIn (f : Nat) (x : FlowTgt) (p : Packet) (s : State) : Front × State :=
  let rsn := pRSN p
  match x.record.find? fun d => d.rsn == rsn with
  | some d =>
    if d.tries.contains p.attempt then (.over_, when_ (d.refused == some p.attempt) (bump 0x7869 0) s)
    else
      let s := bump 0x7869 0 s
      match d.answer with
      | some a =>
        let again (e : DoneRec) : DoneRec := { e with tries := noteTry p.attempt e.tries }
        let s := setTgt f (fun x => { x with record := updFirst (fun e => e.rsn == rsn) again x.record }) s
        (.over_, injectPacket { a with
          stamp := stampNow s
          th := setFld a.th 126 126 1 } s)
      | none =>
        (.take f true, setRMsg f rsn (fun m => { m with seen := noteTry p.attempt d.tries, refused := d.refused })
          (addRMsg f true p (setTgt f (fun x => { x with record := x.record.filter fun e => e.rsn != rsn }) s)))
  | none => match x.msgs.find? fun m => m.rsn == rsn with
    | some m =>
      if !takesPart m p.attempt then (.over_, when_ (m.refused == some p.attempt) (bump 0x7869 0) s)
      else if m.halted then
        (.take f true, setRMsg f rsn (fun m => { newRMsg s p with
          since := m.since
          spent := m.spent
          refused := m.refused }) s)
      else
        if m.offsets.contains (pOFFSET p) then (.over_, s)
        else (.take f false, setRMsg f rsn (fun m => { m with
          attempt := if m.seen.contains p.attempt then m.attempt else p.attempt
          seen := if m.seen.contains p.attempt then m.seen else noteTry p.attempt m.seen
          offsets := pOFFSET p :: m.offsets
          taken := m.taken + p.payload.length
          poison := m.poison || p.poison
          squall := m.squall || p.squall
          delay := maxSample m.delay (delaySample s p) }) s)
    | none => if rsnBefore rsn x.upTo then (.over_, s) else (.take f true, addRMsg f false p s)

/-- A request arrives at its flow: tenant 0 is refused (R149), a flow is created where there is none
(R162, R167). -/
def front (p : Packet) (s : State) : Front × State :=
  if p.tenant = 0 then (.over_, (sendRefusal p rTENANT 0 (bump 0x7867 0 s)).2)
  else match findTgt s (tgtKey p) with
    | some f =>
      let s := setTgt f (fun x => { x with lastAt := ticks s }) s
      (match tgtFlow s f with
       | some x => frontIn f x p s
       | none => (.over_, s))
    | none =>
      if isConnected p.type && !connFlow s p then (.over_, (sendRefusal p rCONNECTION 0 s).2)
      else if capFlows s ≤ flowsUsed s then
        (.over_, (sendRefusal p rFLOWCTX (rc s 0x7833 0) (bump 0x7868 0 s)).2)
      else
        let f := s.ra.nextFlow
        let low := if isConnected p.type then 0 else (pRSN p + 2 ^ 24 - 63) % 2 ^ 24
        let (h, s) := placeStack s
        let s := { s with ra := { s.ra with
          nextFlow := f + 1
          tgt := mput s.ra.tgt f { key := tgtKey p, upTo := low, lastAt := ticks s, stack := h } } }
        (.take f true, addRMsg f false p s)

/-- Is a message under way at its target: it has arrived whole and is not answered, or bytes of it are being
placed?  One that waits for packets or for a later attempt is not. -/
def underWay (m : RMsg) : Bool :=
  let t := m.packet.type
  let data := t == tTSEND || t == tPUT || t == tPUTIMM || t == tCPUT || t == tCSEND
  !m.halted && (!data || pMLEN m.packet ≤ m.taken || m.placed < m.taken)

/-- A target context is idle: no message of it is under way, no FLUSH held (R167). -/
def idleTgt (x : FlowTgt) : Bool := x.flushes.isEmpty && !x.msgs.any underWay

/-- An idle target context has passed its keep time (R167). -/
def flowExpiry (f : Nat) (s : State) : State :=
  match tgtFlow s f with
  | none => s
  | some x =>
    if idleTgt x && !connHeld s x.key && x.lastAt + (rc s 0x7831 0 + 2) * rc s 0x7830 0 ≤ ticks s then
      kickWaiting { s with ra := { s.ra with tgt := mdel s.ra.tgt f } }
    else s

/-- A FLUSH arrives (R165): the RSNs its mask names, against the completion record. -/
def flushArrive (f : Nat) (p : Packet) (s : State) : State :=
  match tgtFlow s f with
  | none => s
  | some x =>
    let rsn := pRSN p
    let named := ((rangeFrom 0 63).filter fun i => bit (pW3 p) i).map fun i => (rsn + 2 ^ 24 - 1 - i) % 2 ^ 24
    let doneOf (r : Nat) : Option DoneRec := x.record.find? fun d => d.rsn == r
    -- an RSN below the record was answered before: nothing to wait for
    let waits := named.filter fun r => (doneOf r).isNone && !rsnBefore r x.upTo
    let links := named.foldl (fun l r => match doneOf r with
      | some d => (match d.link with | some k => insertNat k l | none => l)
      | none => l) []
    let h : HeldFlush := { rsn := rsn, named := named, waits := waits, links := links }
    let s := setTgt f (fun x => { x with flushes := x.flushes ++ [h] }) s
    if !waits.isEmpty then s
    else if links.isEmpty then ackMsg f rsn 0 stOK s
    else flushReads f h s

/-- A zero-length read of a FLUSH is over; one that fails refuses it with HOST_ERROR. -/
def flushRead (f rsn : Nat) (r : AccResult) (s : State) : State :=
  match tgtFlow s f with
  | none => s
  | some x => match x.flushes.find? fun h => h.rsn == rsn with
    | none => s
    | some h => match r, h.reads with
      | .ok _, some n =>
        if n ≤ 1 then ackMsg f rsn 0 stOK s
        else setFlush f rsn (fun y => { y with reads := some (n - 1) }) s
      | _, _ => refuseMsg f rsn rHOSTERROR 0 s

end Sys2Proof.Machine
end

