-- ==== Sys2Proof/Machine/MatchOps.lean ====
section
/-!
DEFINITION. The matching unit: domains, the match rule, ordering, the arbiter, placing, sending
(04_message_matching.md, R114 to R144).
-/
namespace Sys2Proof.Machine

def domain (s : State) (d : Nat) : Domain := sget {} s.mu.domains d

def setDom (d : Nat) (f : Domain → Domain) (s : State) : State :=
  { s with mu := { s.mu with domains := smod {} s.mu.domains d f } }

/-! ### Books (R139, R144) -/

/-- Headers that a domain holds: unexpected list and reorder area. -/
def domHeaders (x : Domain) : Nat := x.unexpected.length + x.reorder.length

def domBytes (x : Domain) : Nat := sumBy storeBytes x.unexpected + sumBy storeBytes x.reorder

def postedAll (s : State) : Nat := sumBy (fun (e : Nat × Domain) => e.2.posted.length) s.mu.domains
def headersAll (s : State) : Nat := sumBy (fun (e : Nat × Domain) => domHeaders e.2) s.mu.domains
def reorderAll (s : State) : Nat := sumBy (fun (e : Nat × Domain) => e.2.reorder.length) s.mu.domains
def bytesAll (s : State) : Nat := sumBy (fun (e : Nat × Domain) => domBytes e.2) s.mu.domains

/-- The unexpected byte capacity (Table 04-9): pool 2. -/
def capBytes (s : State) : Nat := poolBytes s 2

/-- Room for one more header, and for the data of a message (R128). -/
def headerRoom (s : State) (d : Nat) : Bool :=
  domHeaders (domain s d) < (domain s d).uqHeaders * 1024 && headersAll s < capUnexpected s

def byteRoom (s : State) (d n : Nat) : Bool :=
  domBytes (domain s d) + n ≤ (domain s d).uqMib * 2 ^ 20 &&
    storeCells s + storeTransient s + cells256 n ≤ poolCells s 2

/-- MU writes an entry of a domain's lists: 64 B of pool 1. -/
def listWrote (d : Nat) (s : State) : State := poolWrote (domain s d).stack 1 64 s

/-- MU writes data into the unexpected store. -/
def dataWrote (d n : Nat) (s : State) : State := poolWrote (domain s d).stack 2 n s

/-- KiB, rounded up. -/
def kib (n : Nat) : Nat := (n + 1023) / 1024

/-- The status entry of a domain (Table 04-3). -/
def domEntry (s : State) (d : Nat) : Nat :=
  let x := domain s d
  let st := match x.state with | .closed => 0 | .opened => 1 | .closing => 2
  st * 2 ^ 120 + x.tenant * 2 ^ 104 + x.eqn * 2 ^ 84 + x.posted.length * 2 ^ 57
    + domHeaders x * 2 ^ 32 + kib (domBytes x) * 2 ^ 8

/-- Is an arbiter operation queued (a POST or CANCEL fetched and not yet executed), or a copy out of the
unexpected store in progress (R144)?  An operation, and a header on its way from the reorder area, take no
time of their own here. -/
def arbitersBusy (s : State) : Bool :=
  (s.qm.queues.any fun (e : Nat × Queue) => (e.2.type == qRECV || e.2.type == qSRQ) && !e.2.ops.isEmpty) ||
    s.mu.placing.any fun (e : Nat × Placing) => e.2.stored != 0

/-- A resource event of a domain: at most one of each code per millisecond (R143). -/
def domEvent (d code detail data : Nat) (s : State) : State :=
  let x := domain s d
  let recent : Bool := match mget? x.lastEvent code with
    | some t => ticks s < t + ticksOf 1 1000
    | none => false
  if recent then s
  else postEvent x.eqn code d detail data
    (setDom d (fun x => { x with lastEvent := mput x.lastEvent code (ticks s) }) s)

/-! ### The domain command (R115, R116) -/

/-- Is a domain command valid? -/
def domValid (s : State) (v : Nat) : Bool :=
  let action := fld v 127 120
  let x := domain s (fld v 119 104)
  let eqn := fld v 87 68
  let eager := fld v 67 59
  if action = 1 then
    x.state == .closed && fld v 103 88 != 0 && (eager ≤ 256 || eager == 511) && fld v 58 44 ≤ 16384 &&
      fld v 43 30 ≤ 8192 && fld v 29 0 == 0 && (queue s eqn).type == qEQ && (queue s eqn).state == .ready
  else if action = 2 then x.state == .opened && fld v 103 0 == 0
  else false

/-- OPEN sets the attributes (Table 04-2). -/
def domOpen (v : Nat) (s : State) : State :=
  let (h, s) := placeStack s
  setDom (fld v 119 104) (fun x => {
    stack := h
    state := .opened
    tenant := fld v 103 88
    eqn := fld v 87 68
    eager := fld v 67 59
    uqHeaders := fld v 58 44
    uqMib := fld v 43 30
    lastEvent := x.lastEvent }) s

/-! ### The match rule (R119 to R121) -/

/-- `accepts` of R120. -/
def accepts (r : Recv) (p : Packet) : Bool :=
  r.endpoint == idEp p.dest &&
    ((rangeFrom 0 4).all fun i => nodeField (idNode r.src) i == 31 || nodeField (idNode r.src) i == nodeField (idNode p.source) i) &&
    (r.anyEp || idEp r.src == idEp p.source) &&
    Nat.land (Nat.xor r.mbits (pW3 p)) (2 ^ 64 - 1 - r.ignore) == 0

/-! ### Placing (R128, R130, R131, R135) -/

def placingOf (s : State) (pid : Nat) : Option Placing := mget? s.mu.placing pid

def setPlacing (pid : Nat) (f : Placing → Placing) (s : State) : State :=
  { s with mu := { s.mu with placing := mmod s.mu.placing pid f } }

/-- The messages of gets that fetch data for a placing. -/
def getOf (s : State) (pid : Nat) : Option (Nat × Nat) :=
  match s.ra.src.find? fun (e : Nat × FlowSrc) => e.2.msgs.any fun m => m.owner == .rget pid with
  | some e => (match e.2.msgs.find? fun m => m.owner == .rget pid with
    | some m => some (e.1, m.rsn)
    | none => none)
  | none => none

/-- The get of a placing is given up. -/
def dropGet (pid : Nat) (s : State) : State :=
  let s := { s with ra := { s.ra with waiting := s.ra.waiting.filter fun w => w.msg.owner != .rget pid } }
  match getOf s pid with
  | some (f, rsn) => dropMsg f rsn s
  | none => s

/-- The receive ends: its completion, and the answer to the sender (R129, R131, R142). -/
def placingEnd (pid : Nat) (s : State) : State :=
  match placingOf s pid with
  | none => s
  | some x =>
    let p := x.msg.packet
    let s := dropGet pid { s with mu := { s.mu with placing := mdel s.mu.placing pid } }
    let status := if x.fail ≠ 0 then x.fail
      else if x.poison then stPOISON
      else if x.recv.length < pMLEN p then stTRUNCATED
      else stOK
    let flags := (if x.unexpected then fUNEXPECTED else 0) + (if p.solicit then fSOLICITED else 0)
    let s := recvDone x.recv.qn x.recv.entry x.recv.userData 1
      { status := status, length := x.placed, imm := pW1 p, peer := p.source, flags := flags } none s
    if x.msg.acked then s
    else if x.fail = stLOCALFAULT then refuseMsg x.msg.flow (pRSN p) rFAULTFAILED 0 s
    else if x.fail = stREMOTEFAULT then ackMsg x.msg.flow (pRSN p) 0 stLOCALFAULT s
    else ackMsg x.msg.flow (pRSN p) x.placed stOK s

/-- The bytes of a chunk that are wanted. -/
def wanted (x : Placing) (c : Chunk) : Nat := min c.data.length (x.want - c.off)

/-- Nothing more is placed: the info record is written, where there is one, and then the receive ends
(R124). -/
def placingInfo (pid : Nat) (x : Placing) (s : State) : State :=
  if x.recv.info ≠ 0 && !x.info then
    let bytes := leBytes 8 (pW3 x.msg.packet) ++ leBytes 4 (pMLEN x.msg.packet) ++ leBytes 4 0
    later (.access { asid := x.recv.asid, addr := x.recv.info, len := 16, data := some bytes
                     cls := .localBuf, rights := x.recv.rights, qn := some x.recv.qn
                     cont := .recvInfo pid })
      (setPlacing pid (fun x => { x with busy := true }) s)
  else placingEnd pid s

/-- The host link that a message's data goes to (R165). -/
def noteLink (f rsn link : Nat) (s : State) : State :=
  setTgt f (fun x => { x with
    msgs := updFirst (fun m => m.rsn == rsn) (fun m => { m with link := some link }) x.msgs
    record := updFirst (fun d => d.rsn == rsn) (fun d => { d with link := some link }) x.record
    flushes := x.flushes.map fun h =>
      if h.named.contains rsn && !h.waits.contains rsn && h.reads.isNone then
        { h with links := insertNat link h.links }
      else h }) s

/-- The next access of a placing: a piece of data, then the info record, then the end (R124). -/
def placingNext (pid : Nat) : Nat → State → State
  | 0, s => s
  | n + 1, s =>
    match placingOf s pid with
    | none => s
    | some x =>
      if x.busy then s
      else if x.fail ≠ 0 then placingInfo pid x s
      else match x.queue with
        | c :: rest =>
          if wanted x c ≤ x.pos then
            placingNext pid n (setPlacing pid (fun x => { x with
              queue := rest
              stored := x.stored - 1
              come := x.come + c.data.length
              poison := x.poison || c.poison
              pos := 0 }) s)
          else
            let (a, k) := pieceAt x.recv.addr x.recv.frags (c.off + x.pos) (wanted x c - x.pos)
            let s := noteLink x.msg.flow (pRSN x.msg.packet) (fnLink (queue s x.recv.qn).fn) s
            later (.access { asid := x.recv.asid, addr := a, len := k, data := some (slice c.data x.pos k)
                             poison := c.poison, cls := .localBuf, rights := x.recv.rights
                             qn := some x.recv.qn, cont := .recvPlace pid })
              (setPlacing pid (fun x => { x with busy := true }) s)
        | [] => if x.come < x.due then s else placingInfo pid x s

def placingGo (pid : Nat) (s : State) : State :=
  match placingOf s pid with
  | some x => placingNext pid (x.queue.length + 2) s
  | none => s

/-- An access of a placing is over. -/
def placingDone (pid : Nat) (info : Bool) (r : AccResult) (s : State) : State :=
  match placingOf s pid with
  | none => s
  | some x =>
    match r with
    | .ok _ =>
      if info then placingGo pid (setPlacing pid (fun x => { x with busy := false, info := true }) s)
      else match x.queue with
        | [] => placingGo pid (setPlacing pid (fun x => { x with busy := false }) s)
        | c :: _ =>
          let (_, k) := pieceAt x.recv.addr x.recv.frags (c.off + x.pos) (wanted x c - x.pos)
          placingGo pid (setPlacing pid (fun x => { x with
            busy := false
            pos := x.pos + k
            placed := x.placed + k
            poison := x.poison || c.poison }) s)
    | _ => placingGo pid (setPlacing pid (fun x => { x with
        busy := false
        info := x.info || info
        fail := if x.fail = 0 then stLOCALFAULT else x.fail }) s)

/-- More data for a placing; while its buffer waits, the fault buffer must hold it (R131, R227). -/
def placingData (pid : Nat) (c : Chunk) (s : State) : State :=
  if placingWaits s pid && 4194304 < faultBufferUse s + 64 + c.data.length then
    let s := dropWaiters (fun a => a.cont == .recvPlace pid) s
    placingGo pid (setPlacing pid (fun x => { x with busy := false, fail := stLOCALFAULT }) s)
  else placingGo pid (setPlacing pid (fun x => { x with queue := x.queue ++ [c] }) s)

/-- The get of a placing has failed (R131). -/
def fetchFailed (pid : Nat) (s : State) : State :=
  let waits := waitsOn s fun c => c == .recvPlace pid || c == .recvInfo pid
  let s := dropWaiters (fun a => a.cont == .recvPlace pid || a.cont == .recvInfo pid) s
  placingGo pid (setPlacing pid (fun x => { x with
    busy := x.busy && !waits
    fail := if x.fail = 0 then stREMOTEFAULT else x.fail }) s)

/-! ### Binding and storing (R121, R128, R136) -/

/-- A receive and a message bind (R138); `stored`: its data is copied out of the unexpected store. -/
def bind (d : Nat) (r : Recv) (u : UMsg) (unexpected stored : Bool) (s : State) : State :=
  let pid := s.mu.nextPlacing
  let p := u.packet
  let want := min (pMLEN p) r.length
  let x : Placing := { recv := r, msg := u, domain := d, unexpected := unexpected, want := want, queue := u.store
                       due := if u.kind == .rts || u.deferred then want else pMLEN p
                       stored := if stored then u.store.length else 0 }
  let s := { s with mu := { s.mu with nextPlacing := pid + 1, placing := mput s.mu.placing pid x } }
  let s := if (u.kind == .rts || u.deferred) && want ≠ 0 then
      startMsg { source := p.dest, dest := p.source, tenant := r.tenant }
        { type := tRGET, owner := .rget pid, mlen := want, handle := pW2 p, domain := pDOMAIN p
          mseq := pMSEQ p, tclass := p.tclass } s
    else s
  placingGo pid s

/-- A message stored whole is acknowledged once its data is in the store (Table 04-6). -/
def ackStored (d : Nat) (u : UMsg) (s : State) : State :=
  if u.kind == .eager && !u.deferred && !u.acked && pMLEN u.packet ≤ u.got then
    let mark (v : UMsg) : UMsg := if v.flow = u.flow && pRSN v.packet = pRSN u.packet then { v with acked := true } else v
    ackMsg u.flow (pRSN u.packet) (pMLEN u.packet) stOK (setDom d (fun x => { x with
      unexpected := x.unexpected.map mark
      reorder := x.reorder.map mark }) s)
  else s

/-- A message is refused without retry. -/
def refuseU (u : UMsg) (code : Nat) (s : State) : State := refuseMsg u.flow (pRSN u.packet) code 0 s

/-- Bytes of a message that are in the store. -/
def storeHeld (u : UMsg) : Nat := sumBy (fun (c : Chunk) => c.data.length) u.store

/-- ARRIVE (Table 04-7).  `held`: it comes from the reorder area, where its header and its data were
counted before. -/
def arrive (d : Nat) (u : UMsg) (held : Bool) (s : State) : State :=
  match (domain s d).posted.find? fun r => accepts r u.packet with
  | some r =>
    let s := setDom d (fun x => { x with posted := eraseFirst (fun y => y == r) x.posted }) s
    bind d r u false held (bump 0x7430 0 s)
  | none =>
    if !held && !headerRoom s d then
      let s := domEvent d 0x0501 0 u.packet.source (bump 0x7435 0 s)
      if u.acked then s else refuseU u rSTOREFULL s
    else
      let data := u.kind == .eager && pMLEN u.packet != 0
      let fits := held && !u.deferred || byteRoom s d (pMLEN u.packet)
      -- one deferred while it was held was counted then
      let now_ := data && !fits && !u.deferred
      let u := if data && !fits then { u with deferred := true, store := [] } else u
      let s := if now_ then bump 0x7433 0 (domEvent d 0x0501 1 u.packet.source s)
        else when_ (u.kind == .eager && !u.deferred) (bump 0x7432 0) s
      let s := dataWrote d (if held then 0 else storeHeld u) (listWrote d s)
      ackStored d u (setDom d (fun x => { x with unexpected := x.unexpected ++ [u] }) s)

/-- One message or skip notice at its turn (R133, R134). -/
def atTurn (d : Nat) (u : UMsg) (held : Bool) (s : State) : State :=
  if u.kind == .skip then ackMsg u.flow (pRSN u.packet) 0 stOK s else arrive d u held s

/-! ### Ordering (R132, R133) -/

/-- The receiving context of a triple. -/
def isRecvSeq (d : Nat) (p : Packet) (q : SeqCtx) : Bool :=
  !q.sending && q.source == p.source && q.dest == idEp p.dest && q.domain == d

def recvNext (s : State) (d : Nat) (p : Packet) : Option Nat :=
  match s.mu.seqs.find? (isRecvSeq d p) with
  | some q => some q.next
  | none => none

def setRecvNext (d : Nat) (p : Packet) (n : Nat) (s : State) : State :=
  { s with mu := { s.mu with seqs := updFirst (isRecvSeq d p) (fun q => { q with next := n }) s.mu.seqs } }

/-- Do two packets belong to one triple? -/
def sameTriple (a b : Packet) : Bool := a.source == b.source && idEp a.dest == idEp b.dest

/-- The held messages of a triple whose turn has come follow, at most `n`; what fell behind is refused. -/
def releaseSeq (d : Nat) (p : Packet) : Nat → State → State
  | 0, s => s
  | n + 1, s =>
    match recvNext s d p with
    | none => s
    | some next =>
      let mine (u : UMsg) : Bool := sameTriple u.packet p
      match (domain s d).reorder.find? fun u => mine u && pMSEQ u.packet == next with
      | some u =>
        let s := setDom d (fun x => { x with reorder := eraseFirst (fun v => v == u) x.reorder }) s
        releaseSeq d p n (atTurn d u true (setRecvNext d p (inc 24 next) s))
      | none =>
        match (domain s d).reorder.find? fun u => mine u && 2 ^ 23 ≤ (pMSEQ u.packet + 2 ^ 24 - next) % 2 ^ 24 with
        | some u =>
          let s := setDom d (fun x => { x with reorder := eraseFirst (fun v => v == u) x.reorder }) s
          let s := bump 0x7436 0 s
          releaseSeq d p n (if u.acked then s else refuseU u rSEQBEHIND s)
        | none => s

/-- A message is refused with retry by MU (R140). -/
def muRetry (u : UMsg) (s : State) : State :=
  refuseMsg u.flow (pRSN u.packet) rMURETRY (rc s 0x7411 0) (bump 0x7437 0 s)

/-- The first packet of a message, or a skip notice, enters the ordering stage (R127, R133). -/
def ordered (kind : UKind) (f : Nat) (p : Packet) (s : State) : State :=
  let d := pDOMAIN p
  let u : UMsg := { kind := kind, packet := p, flow := f, got := p.payload.length
                    store := if kind == .eager && !p.payload.isEmpty then
                        [{ off := pOFFSET p, data := p.payload, poison := p.poison }] else [] }
  let x := domain s d
  if x.state != .opened || x.tenant ≠ p.tenant then refuseU u rDOMAIN (bump 0x7434 0 s)
  else
    let known := (recvNext s d p).isSome
    if !known && capSeqs s ≤ s.mu.seqs.length then muRetry u (domEvent d 0x0503 1 p.source s)
    else
      let s := if known then s else { s with mu := { s.mu with
        seqs := s.mu.seqs ++ [{ sending := false, source := p.source, dest := idEp p.dest, domain := d, next := 0 }] } }
      let next := (recvNext s d p).getD 0
      let diff := (pMSEQ p + 2 ^ 24 - next) % 2 ^ 24
      if diff = 0 then
        let s := atTurn d u false (setRecvNext d p (inc 24 next) s)
        releaseSeq d p ((domain s d).reorder.length + 1) s
      else if diff < 2 ^ 23 then
        if capReorder s ≤ reorderAll s || !headerRoom s d then muRetry u s
        else
          let data := kind == .eager && pMLEN p != 0
          let u := if data && !byteRoom s d (pMLEN p) then { u with deferred := true, store := [] } else u
          let s := if u.deferred then bump 0x7433 0 (domEvent d 0x0501 1 p.source s) else s
          let s := setDom d (fun x => { x with reorder := x.reorder ++ [u] })
            (dataWrote d (storeHeld u) (listWrote d s))
          let s := { s with cnt := sset 0 s.cnt (okey 0x743A 0) (max (count s 0x743A 0) (reorderAll s)) }
          ackStored d u s
      else refuseU u rSEQBEHIND (bump 0x7436 0 s)

/-- A later packet of an eager message: into the store, or into the bound buffer (R135). -/
def laterPacket (f : Nat) (p : Packet) (s : State) : State :=
  let d := pDOMAIN p
  let c : Chunk := { off := pOFFSET p, data := p.payload, poison := p.poison }
  let mine (u : UMsg) : Bool := u.flow == f && pRSN u.packet == pRSN p
  let add (u : UMsg) : UMsg :=
    if u.deferred then u else { u with got := u.got + p.payload.length, store := u.store ++ [c] }
  let x := domain s d
  match (x.unexpected ++ x.reorder).find? mine with
  | some u =>
    ackStored d (add u) (setDom d (fun x => { x with
      unexpected := updFirst mine add x.unexpected
      reorder := updFirst mine add x.reorder }) (dataWrote d (if u.deferred then 0 else p.payload.length) s))
  | none =>
    match s.mu.placing.find? fun (e : Nat × Placing) => mine e.2.msg && !e.2.msg.deferred with
    | some e => placingData e.1 c s
    | none => s

/-! ### POST, CANCEL, CLOSE (R136, R141) -/

/-- The receive that a POST descriptor spells. -/
def recvOf (qn : Nat) (q : Queue) (o : SendOp) : Recv where
  qn := qn
  entry := o.n
  userData := dUSER o.desc
  src := fld o.desc 95 64
  anyEp := bit o.desc 10
  endpoint := q.endpoint
  mbits := fld o.desc 255 192
  ignore := fld o.desc 511 448
  length := dLENGTH o.desc
  addr := dLOCAL o.desc
  frags := o.frags
  info := fld o.desc 447 384
  rights := o.rights
  asid := q.asid
  tenant := q.tenant

/-- A receive ends without a message. -/
def recvGone (r : Recv) (status : Nat) (s : State) : State :=
  recvDone r.qn r.entry r.userData 1 { status := status } none s

/-- POST (Table 04-7). -/
def post (d : Nat) (r : Recv) (s : State) : State :=
  let x := domain s d
  if x.state != .opened || x.tenant ≠ r.tenant then recvGone r stCANCELLED s
  else match x.unexpected.find? fun u => accepts r u.packet with
    | some u =>
      let s := setDom d (fun x => { x with unexpected := eraseFirst (fun v => v == u) x.unexpected }) s
      bind d r u true true (bump 0x7431 0 s)
    | none =>
      if capPosted s ≤ postedAll s then
        recvGone r stCANCELLED (domEvent d 0x0502 0 r.qn (bump 0x7439 0 s))
      else setDom d (fun x => { x with posted := x.posted ++ [r] }) (listWrote d s)

/-- The domain in whose posted list a receive of a queue is. -/
def postedIn (s : State) (qn entry : Nat) : Option (Nat × Recv) :=
  s.mu.domains.findSome? fun (e : Nat × Domain) =>
    match e.2.posted.find? fun r => r.qn == qn && r.entry == entry with
    | some r => some (e.1, r)
    | none => none

/-- CANCEL (Table 04-7). -/
def cancel (qn : Nat) (o : SendOp) (s : State) : State :=
  let q := queue s qn
  match postedIn s qn (fld o.desc 415 384) with
  | some (d, r) =>
    let s := setDom d (fun x => { x with posted := eraseFirst (fun y => y == r) x.posted }) s
    let s := recvGone r stCANCELLED s
    if dSIGNAL o.desc then recvDone qn o.n (dUSER o.desc) 2 { status := stOK } none s
    else releaseSlots q.cqn 1 s
  | none => recvDone qn o.n (dUSER o.desc) 2 { status := stALREADY } none (bump 0x7438 0 s)

/-- The front entry of a receive queue leaves the list of those that wait for the arbiter. -/
def takeRecvOp (qn : Nat) (p : Nat → Bool) (f : SendOp → State → State) (s : State) : State :=
  let q := queue s qn
  match q.ops.head? with
  | some o =>
    if (q.type = qRECV || q.type = qSRQ) && p (dOPCODE o.desc) then
      f o (setQueue qn (fun q => { q with ops := q.ops.drop 1 }) s)
    else s
  | none => s

def recvPost (qn : Nat) (s : State) : State :=
  takeRecvOp qn (fun op => op = 1) (fun o s => post (dDOMAIN o.desc) (recvOf qn (queue s qn) o) s) s

def recvCancel (qn : Nat) (s : State) : State := takeRecvOp qn (fun op => op = 2) (cancel qn) s

/-- The close actions (R141); receives whose entries were lost complete with POISON. -/
def domClose (d : Nat) (lost : Recv → Bool) (s : State) : State :=
  let x := domain s d
  let held := x.unexpected ++ x.reorder
  let s := setDom d (fun x => { x with
    state := .closing
    posted := []
    unexpected := []
    reorder := []
    cancelled := x.posted.length
    discarded := (held.filter fun u => u.kind != .skip).length }) s
  let s := { s with mu := { s.mu with seqs := s.mu.seqs.filter fun q => q.domain != d } }
  let s := foldSt (fun r s => recvGone r (if lost r then stPOISON else stCANCELLED) s) x.posted s
  let s := foldSt (fun (u : UMsg) s => if u.acked then s else refuseU u rDOMAIN s) held s
  -- skip notices of the domain end with it, and none follows for its TSENDs (R134)
  let end_ (m : Msg) : Msg := if sendsSeq m && m.domain == d then { m with orphan := true } else m
  let s := { s with ra := { s.ra with src := s.ra.src.map fun (e : Nat × FlowSrc) =>
    (e.1, { e.2 with msgs := e.2.msgs.map end_ }) } }
  let skips := s.ra.src.flatMap fun (e : Nat × FlowSrc) =>
    (e.2.msgs.filter fun m => m.owner == .skip && m.domain == d).map fun m => (e.1, m.rsn)
  let s := { s with ra := { s.ra with
    waiting := s.ra.waiting.filter fun w => !(w.msg.owner == .skip && w.msg.domain == d) } }
  foldSt (fun (k : Nat × Nat) s => kickWaiting (dropMsg k.1 k.2 s)) skips s

/-- A domain command (Table 04-1). -/
def domCommand (v : Nat) (s : State) : State :=
  if !domValid s v then bump 0x7422 0 s
  else if fld v 127 120 = 1 then domOpen v s
  else domClose (fld v 119 104) (fun _ => false) s

/-- CLOSING ends: every placement is finished. -/
def domCloseComplete (d : Nat) (s : State) : State :=
  let x := domain s d
  if x.state == .closing && !s.mu.placing.any (fun (e : Nat × Placing) => e.2.domain == d) then
    postEvent x.eqn 0x0500 d 0 (x.discarded * 2 ^ 32 + x.cancelled)
      (setDom d (fun x => { lastEvent := x.lastEvent }) s)
  else s

/-! ### Sending (R125, R126, R132) -/

/-- The eager threshold of a domain, in bytes. -/
def eagerLimit (s : State) (d : Nat) : Nat :=
  let e := (domain s d).eager
  if e = 511 then rc s 0x7410 0 else e * 64

/-- The sending context of a triple. -/
def isSendSeq (source dest d : Nat) (q : SeqCtx) : Bool :=
  q.sending && q.source == source && q.dest == dest && q.domain == d

/-- Words of a descriptor that every message carries. -/
def baseMsg (type qn : Nat) (q : Queue) (o : SendOp) : Msg where
  type := type
  owner := .desc qn o.n
  asid := q.asid
  rights := o.rights
  key := dKEY o.desc
  raddr := dTARGET o.desc
  mlen := dLENGTH o.desc
  laddr := dLOCAL o.desc
  frags := o.frags
  tclass := dTCLASS o.desc
  colour := dCOLOUR o.desc
  order := dORDER o.desc

/-- A TSEND starts. -/
def tsend (qn : Nat) (s : State) : State :=
  match startable s qn (fun op => op = 1) with
  | none => s
  | some o =>
    let q := queue s qn
    let d := dDOMAIN o.desc
    let x := domain s d
    let source := ownIdentity s q.endpoint
    let dest := dDEST o.desc
    let cancelled (s : State) : State := complete qn o.n { status := stCANCELLED } (markStarted qn o.n s)
    if x.state != .opened || x.tenant ≠ q.tenant then cancelled s
    else
      let ctx := s.mu.seqs.find? (isSendSeq source dest d)
      if ctx.isNone && capSeqs s ≤ s.mu.seqs.length then cancelled (domEvent d 0x0503 0 dest s)
      else
        let seq := match ctx with | some c => c.next | none => 0
        let eager := dLENGTH o.desc ≤ eagerLimit s d || dLENGTH o.desc = 0
        let m := { baseMsg (if eager then tTSEND else tRTS) qn q o with
          key := 0
          raddr := 0
          imm := dIMM o.desc
          solicit := dSOLICIT o.desc
          domain := d
          mseq := seq
          matchBits := dTARGET o.desc
          handle := s.mu.nextHandle }
        let k : FlowKey := { source := source, dest := dest, tenant := q.tenant }
        if !msgMayStart s k m then s
        else
          let seqs := match ctx with
            | some _ => updFirst (isSendSeq source dest d) (fun c => { c with next := inc 24 seq }) s.mu.seqs
            | none => s.mu.seqs ++ [{ sending := true, source := source, dest := dest, domain := d, next := 1 }]
          let s := { s with mu := { s.mu with seqs := seqs, nextHandle := inc 32 s.mu.nextHandle } }
          startIn k m (markStarted qn o.n s)

/-! ### RGET at the sender (R131) -/

/-- Read the next piece of the data that an RGET asks for, or end. -/
def rgetNext (p : Packet) (off : Nat) (buf : List Byte) (poison : Bool) (s : State) : State :=
  match liveMsg s p with
  | none => s
  | some (f, _) =>
    match mget? s.mu.handles (pW2 p) with
    | none => refuseMsg f (pRSN p) rFAULTFAILED 0 s
    | some h =>
      let size := min 4032 (pMLEN p - off)
      if buf.length < size then
        let (a, n) := pieceAt h.laddr h.frags (pOFFSET p + off + buf.length) (size - buf.length)
        later (.access { asid := h.asid, addr := a, len := n, cls := .localBuf, rights := h.rights
                         qn := some h.qn, cont := .rgetRead p off buf poison }) s
      else s

/-- A packet of data is complete: it goes, and the next one is read. -/
def rgetRead (p : Packet) (off : Nat) (buf : List Byte) (poison : Bool) (r : AccResult) (s : State) : State :=
  match liveMsg s p with
  | none => s
  | some (f, m) =>
    let more (bs : List Byte) (bad : Bool) (s : State) : State :=
      let buf := buf ++ bs
      let poison := poison || bad
      let size := min 4032 (pMLEN p - off)
      if buf.length < size then rgetNext p off buf poison s
      else
        let s := injectPacket (answer s p tGETDATA (rspTH (pRSN p) off 0 0 0 false m.dup) buf poison) s
        if off + size < pMLEN p then rgetNext p (off + size) [] false s
        else finishRsn f (recordOf m none) s
    match r with
    | .ok bs => more bs false s
    | .poison bs => more bs true s
    | .pcieError => refuseMsg f (pRSN p) rHOSTERROR 0 s
    | _ => refuseMsg f (pRSN p) rFAULTFAILED 0 s

/-- An RGET arrives at the sender. -/
def rgetArrive (f : Nat) (p : Packet) (s : State) : State :=
  let ok : Bool := match mget? s.mu.handles (pW2 p) with
    | none => false
    | some h => h.dest == p.source && h.source == p.dest && pOFFSET p + pMLEN p ≤ h.mlen
  if !ok then refuseMsg f (pRSN p) rFAULTFAILED 0 s
  else if pMLEN p = 0 then ackMsg f (pRSN p) 0 stOK s
  else rgetNext p 0 [] false s

end Sys2Proof.Machine
end

