-- ==== Sys2Proof/Machine/RemoteOps.lean ====
section
/-!
DEFINITION. Remote access: descriptors that start, requests at the target, answers at the source,
regions and connections (05_remote_access.md, R146 to R179).
-/
namespace Sys2Proof.Machine

/-! ### Starting a descriptor (R146, R155, R165, R176) -/

/-- A plain operation starts: PUT, PUT_IMM, GET, the atomics, FLUSH. -/
def startPlain (qn : Nat) (p : Nat → Bool) (mk : Queue → SendOp → Msg) (s : State) : State :=
  match startable s qn p with
  | none => s
  | some o =>
    let q := queue s qn
    let k : FlowKey := { source := ownIdentity s q.endpoint, dest := dDEST o.desc, tenant := q.tenant }
    let m := mk q o
    if msgMayStart s k m then startIn k m (markStarted qn o.n s) else s

def startPut (qn : Nat) : State → State :=
  startPlain qn (fun op => op = 2) fun q o => baseMsg tPUT qn q o

def startPutImm (qn : Nat) : State → State :=
  startPlain qn (fun op => op = 3) fun q o =>
    { baseMsg tPUTIMM qn q o with imm := dIMM o.desc, solicit := dSOLICIT o.desc }

def startGet (qn : Nat) : State → State :=
  startPlain qn (fun op => op = 4) fun q o => baseMsg tGET qn q o

/-- The atomics carry their operands little-endian (R245). -/
def startFadd (qn : Nat) : State → State :=
  startPlain qn (fun op => op = 8) fun q o => { baseMsg tFADD64 qn q o with inline := leBytes 8 (dOP0 o.desc) }

def startSwap (qn : Nat) : State → State :=
  startPlain qn (fun op => op = 9) fun q o => { baseMsg tSWAP64 qn q o with inline := leBytes 8 (dOP0 o.desc) }

def startCas64 (qn : Nat) : State → State :=
  startPlain qn (fun op => op = 10) fun q o =>
    { baseMsg tCAS64 qn q o with inline := leBytes 8 (dOP0 o.desc) ++ leBytes 8 (dOP1 o.desc) }

def startCas128 (qn : Nat) : State → State :=
  startPlain qn (fun op => op = 11) fun q o =>
    { baseMsg tCAS128 qn q o with inline := leBytes 8 (dOP0 o.desc) ++ leBytes 8 (dOP1 o.desc) }

def startFlush (qn : Nat) : State → State :=
  startPlain qn (fun op => op = 12) fun q o => { baseMsg tFLUSH qn q o with mlen := 0, key := 0, raddr := 0 }

/-- A connected operation starts on an OPEN connection; on one in ERROR it ends LOSS, otherwise it is
CANCELLED (R175, R176). -/
def startConn (qn : Nat) (p : Nat → Bool) (mk : Queue → SendOp → Msg) (s : State) : State :=
  match startable s qn p with
  | none => s
  | some o =>
    let q := queue s qn
    let c := dDEST o.desc
    let x := sget {} s.ra.conns c
    let stop (st : Nat) : State := complete qn o.n { status := st } (markStarted qn o.n s)
    if x.fn ≠ q.fn || x.tenant ≠ q.tenant then stop stCANCELLED
    else match x.state with
      | .error => stop stLOSS
      | .opened =>
        let k : FlowKey := { source := ownIdentity s 0, dest := x.peer, tenant := q.tenant, conn := some c }
        let m := { mk q o with dconn := x.peerConn, endpoint := q.endpoint }
        if msgMayStart s k m then startIn k m (markStarted qn o.n s) else s
      | _ => stop stCANCELLED

def startCsend (qn : Nat) : State → State :=
  startConn qn (fun op => op = 0x10) fun q o =>
    { baseMsg tCSEND qn q o with imm := dIMM o.desc, solicit := dSOLICIT o.desc, key := 0, raddr := 0 }

def startCput (qn : Nat) : State → State :=
  startConn qn (fun op => op = 0x11) fun q o => baseMsg tCPUT qn q o

def startCget (qn : Nat) : State → State :=
  startConn qn (fun op => op = 0x12) fun q o => baseMsg tCGET qn q o

/-- A remote access of an engine's context (R376): a load is a GET, a store a PUT, from endpoint 0 in
the context's tenant. -/
def engineRemote (e c : Nat) (tenant : Nat) (store : Option Nat) (ea dest key addr : Nat) (data : List Byte)
    (size : Nat) (s : State) : State :=
  startMsg { source := ownIdentity s 0, dest := dest, tenant := tenant }
    { type := if store.isSome then tPUT else tGET, owner := .engine e c store ea, key := key, raddr := addr
      mlen := size, inline := data } s

/-- A FLUSH on behalf of a context (R406, R408), from endpoint 0. -/
def engineFlush (owner : MsgOwner) (dest tenant : Nat) (s : State) : State :=
  startMsg { source := ownIdentity s 0, dest := dest, tenant := tenant } { type := tFLUSH, owner := owner } s

/-! ### Regions at the target (R150, R154) -/

def region (s : State) (k : Nat) : Region := sget {} s.ra.regions k

def setRegion (k : Nat) (f : Region → Region) (s : State) : State :=
  { s with ra := { s.ra with regions := smod {} s.ra.regions k f } }

/-- The region that a key names. -/
def keyRegion (key : Nat) : Nat := key % 2 ^ 20

/-- The right that a type of request needs. -/
def grants (r : Region) (t : Nat) : Bool :=
  if t = tGET || t = tCGET then r.rd
  else if t = tPUT || t = tPUTIMM || t = tCPUT then r.wr
  else r.at_

/-- Bytes of the region that a packet accesses, from its first address on. -/
def spanOf (p : Packet) : Nat × Nat :=
  let a := pW3 p
  if p.type = tGET || p.type = tCGET then (a, pMLEN p)
  else if p.type = tCAS128 then (a, 16)
  else if p.type = tFADD64 || p.type = tSWAP64 || p.type = tCAS64 then (a, 8)
  else (a + pOFFSET p, p.payload.length)

/-- Checks 1 to 7 of R154: the reason of the first that fails. -/
def regionCheck (s : State) (p : Packet) : Option Nat :=
  let r := region s (keyRegion (pW2 p))
  let (a, n) := spanOf p
  if p.tenant = 0 then some rTENANT
  else if capRegions s ≤ keyRegion (pW2 p) || r.state != .live then some rNOREGION
  else if r.tag ≠ pW2 p / 2 ^ 20 then some rKEY
  else if r.tenant ≠ p.tenant then some rTENANT
  else if !grants r p.type then some rRIGHTS
  else if n ≠ 0 && (a < r.base || r.base + r.length < a + n) then some rBOUNDS
  else if p.type = tPUTIMM && r.notify = 0 then some rNONOTIFY
  else none

/-- An access of a request to its region (R154, check 8). -/
def regionAcc (s : State) (p : Packet) (addr len : Nat) (c : Cont) : Acc :=
  let k := keyRegion (pW2 p)
  let r := region s k
  { asid := r.asid, addr := addr, len := len, cls := .region, waits := !r.resend, region := some k
    held := 64 + p.payload.length, cont := c }

/-- Why an access of a request failed (R154, R157, R168, R169): reason and retry interval. -/
def accReason (s : State) (r : AccResult) : Nat × Nat :=
  match r with
  | .fault _ => (rFAULTFAILED, 0)
  | .retry _ => (rPAGERETRY, rc s 0x7851 0)
  | _ => (rHOSTERROR, 0)

/-! ### Notifications (R159 to R161) -/

/-- The next BUFFER entry of an SRQ is consumed. -/
def takeBuffer (qn : Nat) (s : State) : Option Buffer × State :=
  match sget [] s.ra.buffers qn with
  | [] => (none, s)
  | b :: r => (some b, { s with ra := { s.ra with buffers := sset [] s.ra.buffers qn r } })

/-- Is a queue an SRQ that still has its FIFO (R161)? -/
def srqThere (s : State) (qn : Nat) : Bool :=
  let q := queue s qn
  q.type == qSRQ && qExists q && q.destroying.isNone

/-- A BUFFER entry's completion (Table 05-5); the sender is acknowledged once it is written. -/
def bufferDone (b : Buffer) (op : Nat) (c : Comp) (ack : Option (Nat × Nat × Nat × Nat)) (s : State) : State :=
  recvDone b.qn b.entry b.userData op c ack s

/-- Every byte of a PUT, PUT_IMM or CPUT is placed. -/
def placedAll (f : Nat) (m : RMsg) (s : State) : State :=
  let p := m.packet
  if p.type ≠ tPUTIMM then ackMsg f m.rsn (pMLEN p) stOK s
  else
    let qn := (region s (keyRegion (pW2 p))).notify
    if !srqThere s qn then refuseMsg f m.rsn rNONOTIFY 0 s
    else match takeBuffer qn s with
      | (none, s) => refuseMsg f m.rsn rRNR (rc s 0x7833 0) s
      | (some b, s) =>
        let st := if m.poison then stPOISON else stOK
        bufferDone b 3 { status := st, length := pMLEN p, imm := pW1 p, peer := p.source
                         flags := if p.solicit then fSOLICITED else 0 }
          (some (f, m.rsn, pMLEN p, st)) s

/-- Bytes of a packet have been placed: the message may be whole. -/
def placedMore (f : Nat) (m : RMsg) (n : Nat) (s : State) : State :=
  let s := setRMsg f m.rsn (fun x => { x with placed := x.placed + n }) s
  match tgtMsg s f m.rsn with
  | some m => if pMLEN m.packet ≤ m.placed then placedAll f m s else s
  | none => s

/-- Place a packet from byte `pos` of its payload on. -/
def placeNext (f : Nat) (p : Packet) (pos : Nat) (s : State) : State :=
  let (a, n) := pieceAt (pW3 p + pOFFSET p) [] pos (p.payload.length - pos)
  later (.access { regionAcc s p a n (.place p (pos + n)) with
    data := some (slice p.payload pos n), poison := p.poison })
    (setRMsg f (pRSN p) (fun m => { m with link := some (fnLink (region s (keyRegion (pW2 p))).fn) }) s)

/-- A piece of a packet is placed, or failed. -/
def placeDone (p : Packet) (pos : Nat) (r : AccResult) (s : State) : State :=
  match liveMsg s p with
  | none => s
  | some (f, m) => match r with
    | .ok _ =>
      if pos < p.payload.length then placeNext f p pos s else placedMore f m p.payload.length s
    | r =>
      let (reason, interval) := accReason s r
      refuseMsg f (pRSN p) reason interval s

/-! ### GET (R154) -/

/-- Read the next piece of the data that a GET asks for. -/
def getNext (p : Packet) (off : Nat) (buf : List Byte) (poison : Bool) (s : State) : State :=
  let size := min 4032 (pMLEN p - off)
  let (a, n) := pieceAt (pW3 p + off) [] buf.length (size - buf.length)
  later (.access (regionAcc s p a n (.getRead p off buf poison))) s

def getRead (p : Packet) (off : Nat) (buf : List Byte) (poison : Bool) (r : AccResult) (s : State) : State :=
  match liveMsg s p with
  | none => s
  | some (f, m) =>
    let more (bs : List Byte) (bad : Bool) : State :=
      let buf := buf ++ bs
      let poison := poison || bad
      let size := min 4032 (pMLEN p - off)
      if buf.length < size then getNext p off buf poison s
      else
        let s := injectPacket (answer s p tGETDATA (rspTH (pRSN p) off 0 0 0 false m.dup) buf poison) s
        if off + size < pMLEN p then getNext p (off + size) [] false s
        else finishRsn f (recordOf m none) s
    match r with
    | .ok bs => more bs false
    | .poison bs => more bs true
    | r =>
      let (reason, interval) := accReason s r
      refuseMsg f (pRSN p) reason interval s

/-! ### Atomics (R155 to R157, R245) -/

/-- The AtomicOp of a request. -/
def atomicOf (p : Packet) : HostAtomic :=
  let w (i : Nat) : Nat := leAt p.payload (8 * i) 8
  if p.type = tFADD64 then .fetchAdd (w 0)
  else if p.type = tSWAP64 then .swap (w 0)
  else if p.type = tCAS64 then .cas64 (w 0) (w 1)
  else .cas128 (leAt p.payload 0 16) (leAt p.payload 16 16)

def atomicDone (p : Packet) (r : AccResult) (s : State) : State :=
  match liveMsg s p with
  | none => s
  | some (f, m) =>
    let reply (bs : List Byte) (bad : Bool) : State :=
      let a := answer s p tATOMRESP (rspTH (pRSN p) 0 0 0 0 false false) bs bad
      finishRsn f { recordOf m (some a) with link := some (fnLink (region s (keyRegion (pW2 p))).fn) } (injectPacket a s)
    match r with
    | .ok bs => reply bs false
    | .poison bs => reply bs true
    | r =>
      let (reason, interval) := accReason s r
      refuseMsg f (pRSN p) reason interval s

/-- An atomic passes R154 and is issued. -/
def atomicGo (f : Nat) (p : Packet) (s : State) : State :=
  let k := keyRegion (pW2 p)
  let n := (spanOf p).2
  if !(hostLink s (fnLink (region s k).fn)).atomicReq || !domOn s dCX then
    refuseMsg f (pRSN p) rHOSTERROR 0 s
  else later (.access { regionAcc s p (pW3 p) n (.atomic p) with atomic := some (atomicOf p) }) s

/-! ### CSEND (R159, R176, R177) -/

/-- Has an RSN of a connection's flow been completed? -/
def rsnDone (x : FlowTgt) (r : Nat) : Bool := rsnBefore r x.upTo || x.record.any fun d => d.rsn == r

/-- RSNs of the flow below `rsn` that may not have completed. -/
def rsnsBelow (x : FlowTgt) (rsn : Nat) : List Nat :=
  let n := (rsn + 2 ^ 24 - x.upTo) % 2 ^ 24
  if 2 ^ 23 ≤ n then [] else (rangeFrom 0 (min n 64)).map fun i => (x.upTo + i) % 2 ^ 24

/-- May a CSEND consume its BUFFER: every lower RSN has completed, or is a message that has arrived
and consumes none, or has consumed its own? -/
def bufferTurn (x : FlowTgt) (rsn : Nat) : Bool :=
  (rsnsBelow x rsn).all fun r => rsnDone x r || x.msgs.any fun m =>
    m.rsn == r && !m.halted && (m.packet.type != tCSEND || m.buffer.isSome)

/-- Is every CPUT of a lower RSN placed? -/
def cputsPlaced (x : FlowTgt) (rsn : Nat) : Bool :=
  (rsnsBelow x rsn).all fun r => rsnDone x r || x.msgs.any fun m =>
    m.rsn == r && !m.halted && m.packet.type != tCPUT

/-- Place the next piece of a CSEND in its BUFFER's buffer, or end it. -/
def sendNext (f rsn : Nat) : Nat → State → State
  | 0, s => s
  | n + 1, s =>
    match tgtMsg s f rsn with
    | none => s
    | some m => match m.buffer with
      | none => s
      | some b =>
        if m.busy || m.halted || m.ready.isSome then s
        else match m.waitQ with
          | c :: rest =>
            let want := min c.data.length (b.length - c.off)
            if want ≤ m.pos then
              sendNext f rsn n (setRMsg f rsn (fun m => { m with
                waitQ := rest
                pos := 0
                placed := m.placed + c.data.length }) s)
            else
              let (a, k) := pieceAt b.addr b.frags (c.off + m.pos) (want - m.pos)
              later (.access { asid := (queue s b.qn).asid, addr := a, len := k
                               data := some (slice c.data m.pos k), poison := c.poison, cls := .localBuf
                               rights := b.rights, qn := some b.qn, cont := .sendPlace f rsn })
                (setRMsg f rsn (fun m => { m with busy := true }) s)
          | [] =>
            let p := m.packet
            if m.placed < pMLEN p then s
            else
              let st := if m.poison then stPOISON else if b.length < pMLEN p then stTRUNCATED else stOK
              later (.flowGo f) (setRMsg f rsn (fun m => { m with
                ready := some { status := st, length := min (pMLEN p) b.length, imm := pW1 p, peer := p.source
                                flags := if p.solicit then fSOLICITED else 0 } }) s)

def sendGo (f rsn : Nat) (s : State) : State :=
  match tgtMsg s f rsn with
  | some m => sendNext f rsn (m.waitQ.length + 2) s
  | none => s

/-- A piece of a CSEND is placed, or its BUFFER's buffer fails: LOCAL_FAULT there, and at the sender
FAULT_FAILED, or HOST_ERROR where the host link cannot take it (R154). -/
def sendPlaced (f rsn : Nat) (r : AccResult) (s : State) : State :=
  match tgtMsg s f rsn with
  | none => s
  | some m => match m.buffer, m.waitQ with
    | some b, c :: _ => match r with
      | .ok _ =>
        let want := min c.data.length (b.length - c.off)
        let (_, k) := pieceAt b.addr b.frags (c.off + m.pos) (want - m.pos)
        sendGo f rsn (setRMsg f rsn (fun m => { m with busy := false, pos := m.pos + k }) s)
      | _ =>
        let s := bufferDone b 0x10 { status := stLOCALFAULT, length := m.placed, imm := pW1 m.packet
                                     peer := m.packet.source
                                     flags := if m.packet.solicit then fSOLICITED else 0 } none s
        refuseMsg f rsn (match r with | .pcieError => rHOSTERROR | _ => rFAULTFAILED) 0 s
    | _, _ => s

/-- The CSENDs of a connection go on (R177): BUFFERs in RSN order, completions after the lower CPUTs. -/
def flowGo (f : Nat) (s : State) : State :=
  match tgtFlow s f with
  | none => s
  | some x =>
    let srqn := match x.key.conn with | some c => (sget {} s.ra.conns c).srqn | none => 0
    let sends := (x.msgs.filter fun m => m.packet.type == tCSEND && !m.halted).foldr
      (fun m l => insertBy (fun m => (m.rsn + 2 ^ 24 - x.upTo) % 2 ^ 24) m l) []
    foldSt (fun (m0 : RMsg) s =>
      match tgtFlow s f, tgtMsg s f m0.rsn with
      | some x, some m =>
        match m.buffer, m.ready with
        | none, _ =>
          if !bufferTurn x m.rsn then s
          else if !srqThere s srqn then refuseMsg f m.rsn rNONOTIFY 0 s
          else (match takeBuffer srqn s with
            | (none, s) => refuseMsg f m.rsn rRNR (rc s 0x7833 0) s
            | (some b, s) => sendGo f m.rsn (setRMsg f m.rsn (fun m => { m with
                buffer := some b
                link := some (fnLink (queue s b.qn).fn) }) s))
        | some b, some c =>
          if cputsPlaced x m.rsn then
            let st := if c.status = stPOISON then stPOISON else stOK
            bufferDone b 0x10 c (some (f, m.rsn, c.length, st))
              (setRMsg f m.rsn (fun m => { m with ready := none, busy := true }) s)
          else s
        | some _, none => s
      | _, _ => s) sends s

/-! ### Requests that arrive (R154, R164) -/

/-- The fault buffer cannot hold the data of a CSEND whose BUFFER waits: the message fails as under R131
(R227). -/
def sendOverflow (f : Nat) (p : Packet) (s : State) : Bool :=
  (waitsOn s fun c => c == .sendPlace f (pRSN p)) && 4194304 < faultBufferUse s + 64 + p.payload.length

/-- A request of MU or RA has passed the reliability layer. -/
def takeRequest (f : Nat) (first : Bool) (p : Packet) (s : State) : State :=
  let t := p.type
  let rsn := pRSN p
  if t = tTSEND then (if first then ordered .eager f p s else laterPacket f p s)
  else if t = tRTS then ordered .rts f p s
  else if t = tSKIP then ordered .skip f p s
  else if t = tRGET then rgetArrive f p s
  else if t = tFLUSH then flushArrive f p s
  else if isConnected t && !connOk s p then refuseMsg f rsn rCONNECTION 0 s
  else if t = tCSEND && sendOverflow f p s then
    sendPlaced f rsn (.fault 0) (dropWaiters (fun a => a.cont == .sendPlace f rsn) s)
  else if t = tCSEND then
    later (.flowGo f) (sendGo f rsn (setRMsg f rsn (fun m => { m with
      waitQ := m.waitQ ++ [{ off := pOFFSET p, data := p.payload, poison := p.poison }] }) s))
  else match regionCheck s p with
    | some reason => refuseMsg f rsn reason 0 s
    | none =>
      if t = tGET || t = tCGET then
        (if pMLEN p = 0 then ackMsg f rsn 0 stOK s else getNext p 0 [] false s)
      else if t = tPUT || t = tPUTIMM || t = tCPUT then
        (if p.payload.isEmpty then
          (match tgtMsg s f rsn with | some m => placedMore f m 0 s | none => s)
         else placeNext f p 0 s)
      else atomicGo f p s

/-- Is an access made for a packet that an ORDER packet covers: of the same triple and class, in the same flow
of a lower RSN, and of a message that came before it (R168, R278)? -/
def coveredAcc (s : State) (f : Nat) (p : Packet) (since : Nat) (a : Acc) : Bool :=
  let earlier (g : Nat) (m : RMsg) : Bool :=
    m.packet.source == p.source && m.packet.dest == p.dest && m.packet.tclass == p.tclass &&
      (if g = f then rsnBefore m.rsn (pRSN p) else m.since < since)
  match a.cont with
  | .place r _ | .getRead r _ _ _ | .atomic r => (match liveMsg s r with
    | some (g, m) => earlier g m
    | none => false)
  | .sendPlace g rsn => (match tgtMsg s g rsn with
    | some m => earlier g m
    | none => false)
  | _ => false

/-- Must a packet with ORDER wait: a packet that it covers is neither placed nor refused yet, being stalled or
under way, or waits in its turn (R168)? -/
def orderWaits (s : State) (held : List HeldOrder) (f : Nat) (p : Packet) : Bool :=
  let since := match tgtMsg s f (pRSN p) with | some m => m.since | none => 0
  p.order && (p.type != tTSEND && p.type != tRTS && p.type != tSKIP && p.type != tRGET && p.type != tFLUSH) &&
    ((accessesUnderWay s).any (coveredAcc s f p since) ||
      held.any fun h => h.packet.source == p.source && h.packet.dest == p.dest && h.packet.tclass == p.tclass &&
        h.flow == f && rsnBefore (pRSN h.packet) (pRSN p))

/-- The packets with ORDER that wait no longer go on, in their order. -/
def orderGo (s : State) : State :=
  foldSt (fun (h : HeldOrder) s =>
    if orderWaits s s.ra.ordered h.flow h.packet then
      { s with ra := { s.ra with ordered := s.ra.ordered ++ [h] } }
    else match liveMsg s h.packet with
      | some _ => takeRequest h.flow h.first h.packet s
      | none => s) s.ra.ordered { s with ra := { s.ra with ordered := [] } }

/-- A request arrives at this module; one with ORDER waits for the packets it covers. -/
def requestArrive (p : Packet) (s : State) : State :=
  match front p s with
  | (.over_, s) => s
  | (.take f first, s) =>
    if orderWaits s s.ra.ordered f p then
      { s with ra := { s.ra with ordered := s.ra.ordered ++ [{ flow := f, first := first, packet := p }] } }
    else takeRequest f first p s

/-! ### Answers that arrive (R146, R170, R171, R246) -/

/-- The flows whose message an answer may name: the plain flow, and the connections between the same
two endpoints; a response carries no connection number. -/
def answerFlows (s : State) (p : Packet) (ok : Msg → Bool) : List Nat :=
  (s.ra.src.filter fun (e : Nat × FlowSrc) =>
    e.2.key.dest == p.source && e.2.key.tenant == p.tenant &&
      e.2.msgs.any fun m => msgSource e.2.key m == p.dest && m.rsn == pRSN p && ok m).map fun e => e.1

/-- An answer for a message of this module; one whose message was dropped with its queue is counted
(R170). -/
def answerArrive (p : Packet) (ok : Msg → Bool) (f : Nat → State → State) (s : State) : State :=
  match answerFlows s p ok with
  | [] =>
    let dropped := s.ra.dropped.any fun d =>
      d.source == p.dest && d.dest == p.source && d.tenant == p.tenant && d.rsn == pRSN p
    when_ dropped (bump 0x7866 0) s
  | [g] => f g s
  | l =>
    let (i, s) := draw l.length s
    f (l.getD i 0) s

/-- Does an operation end with ACK? -/
def endsWithAck (m : Msg) : Bool :=
  !(m.type == tFADD64 || m.type == tSWAP64 || m.type == tCAS64 || m.type == tCAS128 ||
    ((m.type == tGET || m.type == tCGET || m.type == tRGET) && m.mlen != 0))

def ackArrive (p : Packet) (s : State) : State :=
  answerArrive p endsWithAck (fun f s =>
    match srcMsg s f (pRSN p) with
    | none => s
    | some m =>
      let s := windowUpdate f (pDELAY p) (pCOUNT p) (pSQSEEN p) m.sentAt s
      endMsg f (pRSN p) (pCODE p) (pCOUNT p) s) s

def refusalArrive (p : Packet) (s : State) : State :=
  answerArrive p (fun _ => true) (fun f s =>
    if pCOUNT p ≠ 0 then refusedRetry f (pRSN p) (pCODE p) (pCOUNT p) s
    else failMsg f (pRSN p) (refusalStatus (pCODE p)) (pCODE p) s) s

def getDataArrive (p : Packet) (s : State) : State :=
  answerArrive p (fun m => m.type == tGET || m.type == tCGET || m.type == tRGET)
    (fun f s => respData f (pRSN p) (pOFFSET p) p.payload p.poison s) s

def atomicRespArrive (p : Packet) (s : State) : State :=
  answerArrive p (fun m => m.type == tFADD64 || m.type == tSWAP64 || m.type == tCAS64 || m.type == tCAS128)
    (fun f s => respData f (pRSN p) 0 p.payload p.poison s) s

/-! ### Faults at the target (R168) -/

/-- A stalled packet reaches the stall limit. -/
def stallExpiry (k : Nat) (s : State) : State :=
  let due (a : Acc) : Bool := a.cls == .region && a.deadline ≤ ticks s
  match firstDue s k due with
  | none => s
  | some a =>
    let s := takeWaiter k due s
    match a.cont with
    | .place p _ | .getRead p _ _ _ | .atomic p => (match liveMsg s p with
      | some (f, _) => refuseMsg f (pRSN p) rSTALL 0 s
      | none => s)
    | _ => s

/-- The packets stalled for a region are refused with NO_REGION (Table 05-4): how many, and the state. -/
def refuseStalled (k : Nat) (s : State) : Nat × State :=
  let stalled := s.tu.recs.flatMap (fun (e : Nat × FaultRec) => e.2.waiters.filter fun a => a.region == some k) ++
    s.tu.chains.flatMap fun (e : Nat × List Acc) => e.2.filter fun a => a.region == some k
  let s := dropWaiters (fun a => a.region == some k) s
  (stalled.length, foldSt (fun (a : Acc) s => match a.cont with
    | .place p _ | .getRead p _ _ _ | .atomic p => (match liveMsg s p with
      | some (f, _) => refuseMsg f (pRSN p) rNOREGION 0 s
      | none => s)
    | _ => s) stalled s)

/-! ### Regions (R151 to R153) -/

/-- Parameters of a REMOTE command. -/
def rACTION (d : Nat) : Nat := fld d 511 508
def rREGION (d : Nat) : Nat := fld d 507 488
def rTAG (d : Nat) : Nat := fld d 487 476
def rTENANTOF (d : Nat) : Nat := fld d 475 460
def rASID (d : Nat) : Nat := fld d 459 444
def rNOTIFY (d : Nat) : Nat := fld d 443 424
def rEQN (d : Nat) : Nat := fld d 423 404
def rLENGTH (d : Nat) : Nat := fld d 383 320
def rBASE (d : Nat) : Nat := fld d 319 256
def rCONN (d : Nat) : Nat := fld d 507 484
def rPEERCONN (d : Nat) : Nat := fld d 483 460
def rPEER (d : Nat) : Nat := fld d 459 428
def rCTENANT (d : Nat) : Nat := fld d 427 412
def rSRQN (d : Nat) : Nat := fld d 411 392
def rCEQN (d : Nat) : Nat := fld d 391 372

/-- Is a QN an existing SRQ of a function? -/
def isSrq (s : State) (fn qn : Nat) : Bool :=
  let q := queue s qn
  q.type == qSRQ && qExists q && q.fn == fn

/-- The regions that are LIVE (0x7800:00). -/
def regionsLive (s : State) : Nat := (s.ra.regions.filter fun (e : Nat × Region) => e.2.state == .live).length

/-- The regions that are not FREE. -/
def regionsUsed (s : State) : Nat := (s.ra.regions.filter fun (e : Nat × Region) => e.2.state != .free).length

/-- REGISTER; an undefined ACTION is BAD_PARAM as well. -/
def registerRegion (fn : Nat) (s : State) : State :=
  adminStart fn (fun d => dOPCODE d = 0x88 && (rACTION d = 0 || rACTION d = 1 || 4 < rACTION d)) (fun aqn o s =>
    let d := o.desc
    let done (st : Nat) (s : State) : State := adminDone aqn o.n { status := st } s
    let t := rTENANTOF d
    if rACTION d ≠ 1 || t = 0 || rLENGTH d = 0 || 2 ^ 48 < rLENGTH d || 2 ^ 48 < rBASE d + rLENGTH d ||
        (rNOTIFY d ≠ 0 && !isSrq s fn (rNOTIFY d)) || !isEventQueue s fn (rEQN d) then done asBADPARAM s
    else if !tenantOk s fn t || !asidOk s fn (rASID d) t ||
        (bit d 401 && !(hostLink s (fnLink fn)).atomicReq) then done asNOTPERMITTED s
    else if (region s (rREGION d)).state != .free then done asINUSE s
    else if capRegions s ≤ regionsUsed s then done asNOMEMORY s
    else
      let (k, s) := placeStack s
      done stOK (setRegion (rREGION d) (fun _ => {
        state := .live
        fn := fn
        tag := rTAG d
        tenant := t
        asid := rASID d
        notify := rNOTIFY d
        eqn := rEQN d
        rd := bit d 403
        wr := bit d 402
        at_ := bit d 401
        resend := bit d 400
        length := rLENGTH d
        base := rBASE d
        stack := k }) s)) s

/-- A region leaves LIVE (Table 05-4). -/
def drainRegion (k : Nat) (by_ : Option (Nat × Nat)) (s : State) : State :=
  let s := setRegion k (fun r => { r with state := .draining }) s
  let (n, s) := refuseStalled k s
  setRegion k (fun r => { r with dereg := match by_ with | some (a, e) => some (a, e, n) | none => none }) s

def deregister (fn : Nat) (s : State) : State :=
  adminStart fn (fun d => dOPCODE d = 0x88 && rACTION d = 2) (fun aqn o s =>
    let d := o.desc
    let r := region s (rREGION d)
    let done (st : Nat) : State := adminDone aqn o.n { status := st } s
    if fld d 475 256 ≠ 0 then done asBADPARAM
    else if r.state != .free && r.fn ≠ fn then done asNOTPERMITTED
    else if r.state != .live || r.tag ≠ rTAG d then done asBADSTATE
    else drainRegion (rREGION d) (some (aqn, o.n)) s) s

/-- DRAINING ends: no access of the region goes on. -/
def regionDrained (k : Nat) (s : State) : State :=
  let r := region s k
  if r.state == .draining && !regionBusy s k then
    let s := closeDying (setRegion k (fun _ => {}) s)
    match r.dereg with
    | some (aqn, n, c) => adminDone aqn n { status := stOK, length := c } s
    | none => s
  else s

/-! ### Connections (R174, R175) -/

def conn (s : State) (c : Nat) : Conn := sget {} s.ra.conns c

def setConn (c : Nat) (f : Conn → Conn) (s : State) : State :=
  { s with ra := { s.ra with conns := smod {} s.ra.conns c f } }

def connsOpen (s : State) : Nat := (s.ra.conns.filter fun (e : Nat × Conn) => e.2.state != .closed).length

def openConn (fn : Nat) (s : State) : State :=
  adminStart fn (fun d => dOPCODE d = 0x88 && rACTION d = 3) (fun aqn o s =>
    let d := o.desc
    let done (st : Nat) (s : State) : State := adminDone aqn o.n { status := st } s
    let t := rCTENANT d
    if t = 0 || nodeBad s (idNode (rPEER d)) || !isSrq s fn (rSRQN d) || !isEventQueue s fn (rCEQN d) then
      done asBADPARAM s
    else if !tenantOk s fn t then done asNOTPERMITTED s
    else if (conn s (rCONN d)).state != .closed then done asINUSE s
    else if min 16777216 (65536 + rc s 0x7821 0) ≤ connsOpen s then done asNOMEMORY s
    else done stOK (setConn (rCONN d) (fun _ => {
      state := .opened
      fn := fn
      peerConn := rPEERCONN d
      peer := rPEER d
      tenant := t
      srqn := rSRQN d
      eqn := rCEQN d }) s)) s

/-- A connection's contexts go with it (R175). -/
def freeConn (c : Nat) (s : State) : State :=
  kickWaiting (setConn c (fun _ => {}) { s with ra := { s.ra with
    src := s.ra.src.filter fun (e : Nat × FlowSrc) => e.2.key.conn != some c
    tgt := s.ra.tgt.filter fun (e : Nat × FlowTgt) => e.2.key.conn != some c } })

/-- Started operations of a connection that have not retired: queue and entry. -/
def connOps (s : State) (c : Nat) : List (Nat × Nat) :=
  s.qm.queues.flatMap fun (e : Nat × Queue) =>
    (e.2.ops.filter fun o => e.2.type == qSEND && o.started && dDEST o.desc == c &&
      0x10 ≤ dOPCODE o.desc && dOPCODE o.desc ≤ 0x12).map fun o => (e.1, o.n)

def closeConn (fn : Nat) (s : State) : State :=
  adminStart fn (fun d => dOPCODE d = 0x88 && rACTION d = 4 && !aOPTION d) (fun aqn o s =>
    let c := rCONN o.desc
    let x := conn s c
    if x.state != .closed && x.fn ≠ fn then adminDone aqn o.n { status := asNOTPERMITTED } s
    else if x.state != .opened && x.state != .error then adminDone aqn o.n { status := asBADSTATE } s
    else setConn c (fun x => { x with state := .closing, closeBy := some (aqn, o.n) }) s) s

/-- CLOSING ends: every started operation has retired. -/
def connClosed (c : Nat) (s : State) : State :=
  let x := conn s c
  if x.state == .closing && (connOps s c).isEmpty then
    let s := freeConn c s
    match x.closeBy with
    | some (aqn, n) => adminDone aqn n { status := stOK } s
    | none => s
  else s

/-- The message of a descriptor. -/
def msgOf (s : State) (qn entry : Nat) : Option (Nat × Nat) :=
  s.ra.src.findSome? fun (e : Nat × FlowSrc) =>
    match e.2.msgs.find? fun m => m.owner == .desc qn entry with
    | some m => some (e.1, m.rsn)
    | none => none

/-- A message is abandoned: injection stops, later answers are dropped and counted (R108). -/
def abandonAt (f rsn : Nat) (s : State) : State :=
  match srcFlow s f, srcMsg s f rsn with
  | some x, some m =>
    let d : Dropped := { source := msgSource x.key m, dest := x.key.dest, tenant := x.key.tenant, rsn := rsn }
    let s := { s with ra := { s.ra with dropped := s.ra.dropped ++ [d] } }
    kickWaiting (kickFlow f (dropMsg f rsn s))
  | _, _ => s

/-- A started operation is abandoned. -/
def abandonMsg (qn entry : Nat) (s : State) : State :=
  match msgOf s qn entry with
  | none => s
  | some (f, rsn) => abandonAt f rsn s

/-- The messages of a connection's flows: flow and RSN. -/
def connMsgs (s : State) (c : Nat) : List (Nat × Nat) :=
  s.ra.src.flatMap fun (e : Nat × FlowSrc) =>
    if e.2.key.conn == some c then e.2.msgs.map fun m => (e.1, m.rsn) else []

/-- Close with FORCE: the started operations retire without a completion. -/
def closeConnForce (fn : Nat) (s : State) : State :=
  adminStart fn (fun d => dOPCODE d = 0x88 && rACTION d = 4 && aOPTION d) (fun aqn o s =>
    let c := rCONN o.desc
    let x := conn s c
    if x.state != .closed && x.fn ≠ fn then adminDone aqn o.n { status := asNOTPERMITTED } s
    else if x.state == .closed then adminDone aqn o.n { status := asBADSTATE } s
    else
      let ops := connOps s c
      -- messages that have retired and are not acknowledged are abandoned too: their answers are counted
      let s := foldSt (fun (k : Nat × Nat) s => abandonAt k.1 k.2 s) (connMsgs s c) s
      let s := foldSt (fun (k : Nat × Nat) s =>
        complete k.1 k.2 { status := stOK, quiet := true } (abandonMsg k.1 k.2 s)) ops s
      let s := match x.closeBy with
        | some (a, n) => adminDone a n { status := asINTERRUPTED } s
        | none => s
      adminDone aqn o.n { status := stOK, length := ops.length } (freeConn c s)) s

/-! ### Reachability (R178, R277) -/

/-- RT reports peer nodes unreachable: their connections enter ERROR and their messages end. -/
def peersUnreachable (nodes : List Nat) (s : State) : State :=
  let s := foldSt (fun (e : Nat × Conn) s =>
    if e.2.state == .opened && nodes.contains (idNode e.2.peer) then connError e.1 stUNREACHABLE s else s)
    s.ra.conns s
  let msgs := s.ra.src.flatMap fun (e : Nat × FlowSrc) =>
    if nodes.contains (idNode e.2.key.dest) then
      (e.2.msgs.filter fun m => m.owner != .skip).map fun m => (e.1, m.rsn)
    else []
  foldSt (fun (k : Nat × Nat) s => failMsg k.1 k.2 stUNREACHABLE 0 s) msgs s

end Sys2Proof.Machine
end

