-- ==== Sys2Proof/Machine/Moves.lean ====
section
/-!
DEFINITION. Moves started by DMA, from the data they read to their end (R373, R408, R441).
-/
namespace Sys2Proof.Machine

/-- A move is over: its status is there for DMAWAIT, and the DMA event is set (R384, R408). -/
def moveOver (e c tag st : Nat) (s : State) : State :=
  let s := setCtx e c (fun x => { x with
    moves := updFirst (fun k => k.tag == tag) (fun k => { k with done := some st, data := [] }) x.moves }) s
  let s := setEvent e c 0 s
  match (ectx s e c).wait with
  | .dma t rd =>
    if t = tag then
      finish e c rd (BitVec.ofNat 64 st) (setCtx e c (fun x => { x with
        wait := .ready, moves := x.moves.filter fun k => k.tag != tag }) s)
    else s
  | _ => s

/-- The status of a move that has written everything: POISON where the data was poisoned (Table 15-2). -/
def movedStatus (bad : Bool) : Nat := if bad then stPOISON else 0

/-- What a code reports of the words of a local memory that a move reads: counted, or not readable (R373). -/
def sramReports (cluster : Nat) (l : List Ecc) (s : State) : Bool × State :=
  (l.contains .uncorrectable, bumpBy 0x8403 cluster (l.filter (· == .correctable)).length s)

/-- What a move reads, as an observer of its own (R408): bytes, poison, and whether they cannot be read. -/
def moveRead (e n : Nat) (p : EPlace) (given : MoveInput) (s : State) : List Byte × Bool × Bool × State :=
  let o := moveObserver (clusterOf e)
  match p with
  | .ldm off =>
    let (bad, s) := sramReports (clusterOf e) given.source s
    (memRead (engine s e).ldm off n, false, bad, s)
  | .cmem k off =>
    let (bs, s) := observe o (some k) off n 0 s
    let (bad, s) := sramReports k given.source s
    (bs, false, bad || !clusterOn s k, s)
  | .context off =>
    let (_, bad, s) := cmRead off n given.source s
    let (bs, s) := observe o none off n 0 s
    (bs, bad, false, s)
  | .unit _ =>
    let (v, s) := draw (2 ^ (8 * n)) s
    (leBytes n v, false, false, s)
  | _ => (given.data, given.poison, false, s)

/-- The next piece of a move's data goes to host memory, from byte `pos` on; after the last one a zero-length
read acknowledges them (R165, R408). -/
def moveHost (e c pos : Nat) (m : Move) (s : State) : State :=
  if m.data.length ≤ pos then
    later (.zeroRead (fnLink (asidFn s m.asid)) (.moveAck e c m.tag)) s
  else match placeOf (Config.moveDest m.desc) 0 with
    | .host a =>
      let (a, n) := pieceAt a [] pos (m.data.length - pos)
      later (.access { asid := m.asid, addr := a, len := n, data := some (slice m.data pos n), poison := m.bad
                       cls := .engine, rights := allRights, cont := .move e c m.tag (pos + n) }) s
    | _ => s

/-- The move of a context with a tag, while its data is being written. -/
def movingOf (s : State) (e c tag : Nat) : Option Move :=
  (ectx s e c).moves.find? fun m => m.tag == tag && m.done.isNone && m.writing

/-- A piece has been written to host memory, or cannot be. -/
def moveHostDone (e c tag pos : Nat) (r : AccResult) (s : State) : State :=
  match movingOf s e c tag with
  | none => s
  | some m => match r with
    | .ok _ | .poison _ => moveHost e c pos m s
    | _ => moveOver e c tag stLOCALFAULT s

/-- The host link has answered: the writes are complete. -/
def moveAcked (e c tag : Nat) (r : AccResult) (s : State) : State :=
  match movingOf s e c tag with
  | none => s
  | some m => moveOver e c tag (match r with | .ok _ => movedStatus m.bad | _ => stLOCALFAULT) s

/-- The PUT of a move has ended, and then its FLUSH (R408). -/
def moveSent (e c tag : Nat) (flush : Bool) (st : Nat) (s : State) : State :=
  match movingOf s e c tag with
  | none => s
  | some m =>
    if st ≠ stOK then moveOver e c tag st s
    else if flush then moveOver e c tag (movedStatus m.bad) s
    else match placeOf (Config.moveDest m.desc) 0 with
      | .remote w _ => engineFlush (.move e c tag true) (window m.rwin w).1 m.tenant s
      | _ => s

/-- What a move writes: at once in the module, and from there on at its end point.  Poisoned data changes no
local memory; granules of context memory are written poisoned (R441). -/
def moveWrite (e c : Nat) (m : Move) (p : EPlace) (bs : List Byte) (bad : Bool) (ecc : List Ecc) (s : State) : State :=
  let over_ (s : State) : State := moveOver e c m.tag (movedStatus bad) s
  let going : Move := { m with writing := true, data := bs, bad := bad }
  let go (s : State) : State := setCtx e c (fun x => { x with
    moves := updFirst (fun k => k.tag == m.tag) (fun _ => going) x.moves }) s
  match p with
  | .ldm off => over_ (if bad then s else ldmWrite e off bs s)
  | .cmem k off =>
    if !clusterOn s k then moveOver e c m.tag stLOCALFAULT s
    else over_ (if bad then s else cmemWrite k off bs (performRange (some k) off bs.length s))
  | .context off =>
    let s := performRange none off bs.length s
    over_ (if bad then cmWritePoison off bs.length s else cmWrite off bs ecc s)
  | .unit off => over_ (if bad then s else emit (.unitStore off bs) s)
  | .host _ => moveHost e c 0 going (go s)
  | .remote w a =>
    if bs.isEmpty then over_ s
    else
      let (dest, key) := window m.rwin w
      startMsg { source := ownIdentity s 0, dest := dest, tenant := m.tenant }
        { type := tPUT, owner := .move e c m.tag false, key := key, raddr := a, mlen := bs.length
          inline := bs, tainted := bad } (go s)
  | .none => moveOver e c m.tag stLOCALFAULT s

/-- A move has its data: it writes it.  One that may not reach its ends, or cannot read its source, ends without a
write (DEDUCED, assumption 229). -/
def moveGo (e c : Nat) (m : Move) (given : MoveInput) (status : Nat) (s : State) : State :=
  let n := Config.moveLength m.desc
  if !m.permitted then moveOver e c m.tag stLOCALFAULT s
  else if status ≠ 0 then moveOver e c m.tag status s
  else
    let (bs, bad, unread, s) := moveRead e n (placeOf (Config.moveSource m.desc) n) given s
    if unread then moveOver e c m.tag stLOCALFAULT s
    else moveWrite e c m (placeOf (Config.moveDest m.desc) n) bs bad given.dest s

end Sys2Proof.Machine
end

