-- ==== Sys2Proof/Machine/Mgmt.lean ====
section
/-!
DEFINITION. The management subsystem: sensors, telemetry, log flush, the update machine (R524 to R537).
-/
namespace Sys2Proof.Machine

/-! ### Sensors (R524) -/

/-- One temperature point: warning and critical crossings, with a re-arm 16 units below (R524). -/
def scanTemp (k : Nat) (v : Int) (s : State) : State :=
  let s := { s with ms := { s.ms with tempScan := sset 0 s.ms.tempScan k v } }
  let data := ofSigned 32 v
  let warn := rcInt s 0x2001 k
  let crit := rcInt s 0x2002 k
  let w := sget false s.ms.warned k
  let s := if warn ≤ v then
      (if w then s else raiseFault 3 k data { s with ms := { s.ms with warned := sset false s.ms.warned k true } })
    else if v ≤ warn - 16 && w then
      endCondition 3 k { s with ms := { s.ms with warned := sset false s.ms.warned k false } }
    else s
  let c := sget false s.ms.critical k
  if crit ≤ v then
    (if c then s else raiseFault 4 k data { s with ms := { s.ms with critical := sset false s.ms.critical k true } })
  else if v ≤ crit - 16 && c then
    endCondition 4 k { s with ms := { s.ms with critical := sset false s.ms.critical k false } }
  else s

/-- Has the 1 ms to the next scan passed (R524)? -/
def scanDue (s : State) : Bool :=
  match s.ms.scanAt with
  | some t => decide (t + ticksOf 1 1000 ≤ ticks s)
  | none => true

/-- The readings of a scan other than those of the port complex. -/
def scanSensors (x : Scan) (s : State) : State :=
  let s := foldSt (fun t s => scanTemp t.1.val (toSigned 32 t.2.toNat) s) x.temps s
  let s := foldSt (fun t s => { s with ms := { s.ms with
    voltScan := sset 0 s.ms.voltScan t.1.val t.2.toNat } }) x.volts s
  let s := foldSt (fun t s => { s with ms := { s.ms with
    currScan := sset 0 s.ms.currScan t.1.val t.2.toNat } }) x.currents s
  let s := match x.vin with
    | some v =>
      let s := { s with pr := { s.pr with vinScan := v.toNat } }
      -- the overvoltage condition ends at 63 V
      if v.toNat ≤ 63000 then endCondition 1 0 s else s
    | none => s
  match x.pin with
  | some v => { s with pr := { s.pr with pinScan := v.toNat } }
  | none => s

/-! ### Telemetry (R525, R526) -/

/-- The hottest point and its reading: the lowest number among equals. -/
def hottest (s : State) : Nat × Int :=
  (rangeFrom 0 64).foldl (fun (b : Nat × Int) k =>
    let v := sget 0 s.ms.temp k
    if b.2 < v then (k, v) else b) (0, sget 0 s.ms.temp 0)

/-- Lasers on, of 288. -/
def lasersOn (s : State) : Nat :=
  sumBy (fun p => (p.2.lanes.filter fun l => l.2.laser).length) s.px.ports

/-- Is a port UP? -/
def portUp (s : State) (p : Nat) : Bool := (sget {} s.rt.ports p).state == .up

/-- Publish every sensor object at once. -/
def publish (stamp : Nat) (s : State) : State :=
  { s with
    ms := { s.ms with temp := s.ms.tempScan, volt := s.ms.voltScan, curr := s.ms.currScan, lastSample := stamp }
    pr := { s.pr with vin := s.pr.vinScan, pin := s.pr.pinScan }
    px := { s.px with ports := s.px.ports.map fun p =>
      (p.1, { p.2 with
        rxPower := p.2.rxPowerScan
        lanes := p.2.lanes.map fun l =>
          (l.1, { l.2 with bias := l.2.biasScan, output := l.2.outputScan }) }) } }

/-- The lowest receive power among UP ports, as 16 bits; 0x8000 when no port is UP. -/
def rxMin (s : State) : Nat :=
  let l := (rangeFrom 0 72).filter (portUp s)
  if l.isEmpty then 0x8000
  else
    let v (p : Nat) : Int := (sget {} s.px.ports p).rxPower
    ofSigned 16 (l.foldl (fun m p => if v p < m then v p else m) (v (l.headD 0)))

/-- Take a telemetry sample. -/
def telemetry (stamp : Nat) (late : Bool) (s : State) : State :=
  let s := publish stamp s
  let (k, t) := hottest s
  let r : TelemetryRecord :=
    { stamp := stamp, late := late, free := timeFree s, hottest := k, tempMax := t, vin := s.pr.vin / 10
      pin := s.pr.pin, lasersOn := lasersOn s, rxMin := toSigned 16 (rxMin s)
      domainsOn := ((rangeFrom 0 30).filter (domOn s)).length }
  let n := count s 0x2013 0
  let s := { s with ms := { s.ms with ring := mput s.ms.ring (n % 4096) r } }
  bump 0x2013 0 s

/-- The bits of a telemetry record (Table 20-2). -/
def telemetryBits (r : TelemetryRecord) : Nat :=
  r.stamp * 2 ^ 192 + b2n r.late * 2 ^ 191 + b2n r.free * 2 ^ 190 + r.hottest * 2 ^ 184
    + ofSigned 16 r.tempMax * 2 ^ 168 + r.vin % 2 ^ 16 * 2 ^ 152 + r.pin % 2 ^ 16 * 2 ^ 136
    + r.lasersOn * 2 ^ 120 + ofSigned 16 r.rxMin * 2 ^ 104 + r.domainsOn * 2 ^ 96

/-- A telemetry instant is reached: a whole multiple of 0x2010:00 that has not been sampled. -/
def telemetryDue (s : State) : State :=
  let n := rc s 0x2010 0
  let k := now s / n
  if s.ms.nextSample ≤ k then
    telemetry (k * n) false { s with ms := { s.ms with nextSample := k + 1 } }
  else s

/-- The telemetry schedule goes on from its first instant at or after MT (R40). -/
def telemetryFrom (s : State) : State :=
  { s with ms := { s.ms with nextSample := firstMultiple (rc s 0x2010 0) (now s) } }

/-- A forward step across telemetry instants gives one sample, late, stamped with the MT stepped to;
an instant at it is sampled on time (R40, R525).  It counts as one late event (assumption 155). -/
def telemetryStep (a b : Nat) (s : State) : State :=
  let n := rc s 0x2010 0
  let first := (a / n + 1) * n
  if first < b then telemetry b true { bump 0x4006 0 s with ms := { s.ms with nextSample := firstMultiple n b } } else s

/-- The end of a second: one entry with the entries omitted for one class, source and code (R528). -/
def logFlush (s : State) : State :=
  let sec := now s / 2 ^ 32
  match s.ms.bursts.find? fun b => b.second < sec && b.omitted != 0 with
  | none => s
  | some b => closeBurst b s

/-! ### Updates (R532 to R535) -/

def setUpdate (f : Update → Update) (s : State) : State :=
  { s with ms := { s.ms with update := f s.ms.update } }

/-- Is a target in use (R535)?  In Doldrums no slot is. -/
def inUse (s : State) (t : Nat) : Bool :=
  let act := s.me.acts.any fun a => !a.remove && (if a.target = 0 then a.source else 16 + a.source) == t
  if t < 2 then s.rs.phase != .doldrums && (s.ms.mgmtSource == t && s.ms.mgmtFw.present || act) else act

/-- Show an outcome with its reason. -/
def updOutcome (outcome reason : Nat) (s : State) : State :=
  setUpdate (fun u => { u with outcome := outcome, reason := reason }) s

/-- The outcome of a command that starts no update; the target of an update in progress stays. -/
def updShow (target outcome reason : Nat) (s : State) : State :=
  let idle : Bool := s.ms.update.state == .idle
  setUpdate (fun u => { u with target := if idle then target else u.target, outcome := outcome, reason := reason }) s

/-- The log entry of an update that ended (Table 20-13). -/
def logUpdate (outcome target reason received : Nat) (s : State) : State :=
  logEvent 4 0 outcome (if outcome = 3 then 3 else 2)
    (beBytes 1 target ++ beBytes 1 reason ++ beBytes 4 received) s

/-- In a network or host boot the boot ROM takes a bundle into SRAM instead of a slot (R513). -/
def intoRam (s : State) (t : Nat) : Bool := s.rs.phase == .waiting && t < 2

/-- BEGIN. -/
def updateBegin (session target length : Nat) (s : State) : State :=
  if s.ms.update.state != .idle then updOutcome 2 1 s
  else
    let refuse (r : Nat) : State := updShow target 2 r s
    if !isTarget target then refuse 11
    else if inUse s target && !intoRam s target then refuse 2
    else if length % 4 ≠ 0 || length = 0 || areaSize target < length then refuse 3
    else setUpdate (fun _ => { state := .receiving, target := target, owner := session, length := length })
      (setArea (if intoRam s target then 128 else target) (fun _ => {}) s)

/-- The image that an update has received. -/
def updateImage (u : Update) : List Byte := (rangeFrom 0 u.length).map fun k => sget 0 u.cells k

/-- The checks of R534 in their order: the reason of the first that fails, or 0. -/
def finishChecks (s : State) (u : Update) : Nat :=
  if u.cells.length < u.length then 4 else verifyImage s (16 ≤ u.target) (updateImage u)

/-- FINISH freezes the image and starts verification, under the anchors live now (R531, R540). -/
def updateFinish (session : Nat) (s : State) : State :=
  let u := s.ms.update
  if u.state == .receiving && u.owner == session then
    setUpdate (fun u => { u with state := .verifying, verdict := finishChecks s u }) s
  else s

/-- The update is given up: target invalid, outcome ABORTED. -/
def updateDrop (s : State) : State :=
  let u := s.ms.update
  if u.state == .receiving then
    logUpdate 4 u.target 9 u.received
      (setUpdate (fun u => { u with state := .idle, outcome := 4, reason := 9, cells := [] }) s)
  else s

/-- ABORT from the owner. -/
def updateAbort (session : Nat) (s : State) : State :=
  if s.ms.update.owner == session then updateDrop s else s

/-- A slot verified in Doldrums: the exit by update (R517). -/
def doldrumsUpdate (t : Nat) (s : State) : State :=
  if s.rs.phase == .doldrums && t < 2 then
    let s := { s with rs := { s.rs with failedStarts := 0, updateBoot := some t } }
    later (.reset 5 1 false) (logEvent 2 0 3 2 (beBytes 1 1) s)
  else s

/-- Verification ends (R534). -/
def updateVerify (s : State) : State :=
  let u := s.ms.update
  if u.state != .verifying then s
  else
    let img := updateImage u
    let reason := u.verdict
    let done (outcome : Nat) (s : State) : State :=
      logUpdate outcome u.target reason u.received
        (setUpdate (fun u => { u with state := .idle, outcome := outcome, reason := reason, cells := [] }) s)
    if reason = 0 then
      let t := if intoRam s u.target then 128 else u.target
      doldrumsUpdate u.target (done 1 (setArea t (fun _ => { valid := true, bytes := img }) s))
    else done 3 s

/-- COPY re-verifies the source slot, writes the target and verifies it. -/
def updateCopy (source target : Nat) (s : State) : State :=
  let refuse (r : Nat) : State := updShow target 2 r s
  if s.ms.update.state != .idle then updOutcome 2 1 s
  else if 2 ≤ source || 2 ≤ target then refuse 11
  else if inUse s target then refuse 2
  else
    let a := area s source
    if !a.valid || verifyImage s false a.bytes ≠ 0 then refuse 10
    else
      let s := setArea target (fun _ => a) s
      let s := setUpdate (fun u => { u with
        target := target, outcome := 1, reason := 0, received := a.bytes.length }) s
      doldrumsUpdate target (logUpdate 1 target 0 a.bytes.length s)

/-- BOOT_ONCE names a valid slot. -/
def bootOnce (target : Nat) (s : State) : State :=
  if target < 2 && (area s target).valid then
    updShow target 0 0 { s with ms := { s.ms with bootOnce := some target } }
  else updShow target 2 10 s

/-- ERASE invalidates the target. -/
def updateErase (target : Nat) (s : State) : State :=
  let refuse (r : Nat) : State := updShow target 2 r s
  if s.ms.update.state != .idle then updOutcome 2 1 s
  else if !isTarget target then refuse 11
  else if inUse s target then refuse 2
  else updShow target 0 0 (setArea target (fun _ => {}) s)

/-- The update command word (Table 20-5).  A reserved bit, and a SOURCE outside COPY, is refused BAD_ACTION
(DEDUCED, assumption 181). -/
def updateCommand (session v : Nat) (s : State) : State :=
  let action := fld v 127 120
  let target := fld v 119 112
  let source := fld v 111 104
  if fld v 71 0 ≠ 0 || action = 0 || 6 < action || (action ≠ 4 && source ≠ 0) then updShow target 2 11 s
  else if action = 1 then updateBegin session target (fld v 103 72) s
  else if action = 2 then updateFinish session s
  else if action = 3 then updateAbort session s
  else if action = 4 then updateCopy source target s
  else if action = 5 then bootOnce target s
  else updateErase target s

/-- The bits of 0x2301:00. -/
def updateStatus (s : State) : Nat :=
  let u := s.ms.update
  let st := match u.state with | .idle => 0 | .receiving => 1 | .verifying => 2
  st * 2 ^ 120 + u.target * 2 ^ 112 + u.outcome * 2 ^ 104 + u.reason * 2 ^ 96
    + u.received % 2 ^ 32 * 2 ^ 64 + u.owner % 2 ^ 32 * 2 ^ 32

/-- A segment of image bytes (R532): the caller has checked state and owner. -/
def updateSegment (off : Nat) (data : List Byte) (s : State) : State :=
  setUpdate (fun u =>
    let cells := (List.range data.length).foldl (fun m k => mput m (off + k) (data.getD k 0)) u.cells
    { u with cells := cells, received := cells.length }) s

end Sys2Proof.Machine
end

