-- ==== Sys2Proof/Machine/Clamp.lean ====
section
/-!
DEFINITION. The commit check: pass 1 (type and length), pass 2 (ranges) and pass 3 (dependencies)
(R62, R63, and the "Clamp to" columns of the object tables).

WRITTEN and APPLIED of a clamp note (Table 02-10) hold the low 64 bits of an OCTETS value or of a
table entry (assumption 10).
-/
namespace Sys2Proof.Machine

/-- One clamp: reason (Table 02-9), table entry, value before and after. -/
structure ClampNote where
  reason : Nat
  element : Nat
  written : Nat
  applied : Nat
deriving DecidableEq, Repr

/-! ### Pass 1 -/

/-- Entry size and largest number of entries of a table object; size 0: no table that is written. -/
def tableShape (idx : Nat) : Nat × Nat :=
  if idx = 0x6010 then (4, 72)
  else if idx = 0x6020 then (16, 65536)
  else if idx = 0x6021 then (4, 8192)
  else if idx = 0x6820 then (8, 256)
  else if idx = 0x6830 then (8, 8)
  else if idx = 0x6850 then (16, 65536)
  else if idx = 0x8610 then (4, 4096)
  else (0, 0)

/-- Printable ASCII (Table 02-1). -/
def printable (bs : List Byte) : Bool := bs.all fun b => 0x20 ≤ b.toNat && b.toNat ≤ 0x7E

/-- Pass 1 for a scalar value: 0, or the reason TYPE or LENGTH. -/
def typeCheck (ty : OType) (bs : List Byte) : Nat :=
  match ty with
  | .text n => if n < bs.length then 8 else if printable bs then 0 else 7
  | .table => 7
  | t => if bs.length = t.len then 0 else 8

/-- Pass 1 for a table (R63): every byte written, whole entries, not too many. -/
def tableCheck (idx total : Nat) (cells : List Host.Cell) : Nat :=
  let (size, most) := tableShape idx
  if size = 0 || total % size ≠ 0 || size * most < total then 8
  else if cells.length = total && cells.all (fun c => c.1 < total) then 0 else 8

/-! ### Pass 2 -/

/-- A value as it is reported: 64 bits, I32 sign-extended (Table 02-10). -/
def reported (ty : OType) (n : Nat) : Nat :=
  match ty with
  | .i32 => ofSigned 64 (toSigned 32 n)
  | _ => n % 2 ^ 64

/-- A scalar replaced by another one, with its note. -/
def replaced (ty : OType) (bs : List Byte) (reason v : Nat) : List Byte × List ClampNote :=
  let n := beNat bs
  if v = n then (bs, [])
  else (beBytes bs.length v, [{ reason := reason, element := 0, written := reported ty n, applied := reported ty v }])

/-- Clamp to bounds. -/
def boundNat (ty : OType) (lo hi : Nat) (bs : List Byte) : List Byte × List ClampNote :=
  let n := beNat bs
  if n < lo then replaced ty bs 1 lo else if hi < n then replaced ty bs 2 hi else (bs, [])

def boundInt (ty : OType) (lo hi : Int) (bs : List Byte) : List Byte × List ClampNote :=
  let w := 8 * bs.length
  let n := toSigned w (beNat bs)
  if n < lo then replaced ty bs 1 (ofSigned w lo) else if hi < n then replaced ty bs 2 (ofSigned w hi)
  else (bs, [])

/-- The low `n` bits set. -/
def ones (n : Nat) : Nat := 2 ^ n - 1

/-- One step of the check of an entry: with a reason, the value it becomes. -/
def entryStep (reason : Nat) (f : Nat → Nat) (k : Nat) (x : Nat × List ClampNote) : Nat × List ClampNote :=
  let v := f x.1
  if v = x.1 then x
  else (v, x.2 ++ [{ reason := reason, element := k, written := x.1 % 2 ^ 64, applied := v % 2 ^ 64 }])

/-- A field of an entry raised to, or lowered to, a bound. -/
def fieldMin (hi lo b : Nat) (n : Nat) : Nat := if fld n hi lo < b then setFld n hi lo b else n
def fieldMax (hi lo b : Nat) (n : Nat) : Nat := if b < fld n hi lo then setFld n hi lo b else n

/-- Port-map entry (Table 09-1). -/
def clampMap (k n : Nat) : Nat × List ClampNote :=
  let used (n : Nat) : Bool := fld n 31 29 = 1 || fld n 31 29 = 2
  let x := entryStep 4 (fun n => setFld n 20 0 0) k (n, [])
  let x := entryStep 2 (fun n => if 3 < fld n 31 29 then setFld n 31 29 3 else n) k x
  entryStep 2 (fun n => if used n then fieldMax 26 21 36 n else n) k x

/-- Exception entry (Table 09-4). -/
def clampException (sizes : List Nat) (k n : Nat) : Nat × List ClampNote :=
  let x := entryStep 4 (fun n => setFld (setFld n 123 120 0) 87 0 0) k (n, [])
  let x := entryStep 3 (fun n => if 4 < fld n 127 124 then setFld n 127 124 0 else n) k x
  let x := entryStep 4 (fun n =>
    if fld n 127 124 = 1 || fld n 127 124 = 2 then n else setFld n 99 92 0) k x
  let x := entryStep 2 (fun n => if 71 < fld n 99 92 then setFld n 127 124 0 else n) k x
  entryStep 5 (fun n => if (badField sizes true (fld n 119 100)).isSome then setFld n 127 124 0 else n) k x

/-- Absent-node entry (R275). -/
def clampAbsent (sizes : List Nat) (k n : Nat) : Nat × List ClampNote :=
  if n = 0xFFFFFFFF then (n, [])
  else if (badField sizes false (fld n 19 0)).isSome then entryStep 5 (fun _ => 0xFFFFFFFF) k (n, [])
  else entryStep 4 (fun n => setFld n 31 20 0) k (n, [])

/-- Gate list entry (Table 10-3). -/
def clampGate (k n : Nat) : Nat × List ClampNote :=
  entryStep 1 (fieldMin 31 0 43) k (entryStep 4 (fun n => setFld n 55 32 0) k (n, []))

/-- Shaper entry (Table 10-4). -/
def clampShaper (k n : Nat) : Nat × List ClampNote :=
  let x := entryStep 4 (fun n => setFld n 30 25 0) k (n, [])
  let x := entryStep 2 (fieldMax 63 32 800000) k x
  entryStep 2 (fieldMax 24 0 16777216) k (entryStep 1 (fieldMin 24 0 4096) k x)

/-- Policer entry (Table 10-5, R313). -/
def clampPolicer (k n : Nat) : Nat × List ClampNote :=
  let x := entryStep 4 (fun n => setFld n 15 2 0) k (n, [])
  let x := entryStep 2 (fieldMax 127 96 2000000) k x
  let x := entryStep 2 (fieldMax 95 64 2000000) k x
  let x := entryStep 1 (fieldMin 63 40 4096) k x
  let x := entryStep 1 (fieldMin 39 16 4096) k x
  entryStep 5 (fun n => fieldMin 95 64 (fld n 127 96) n) k x

/-- Lock tenant entry (Table 14-11). -/
def clampTenant (k n : Nat) : Nat × List ClampNote := entryStep 4 (fun n => setFld n 15 0 0) k (n, [])

/-- The entries of a table, checked one by one. -/
def clampEntries (size : Nat) (f : Nat → Nat → Nat × List ClampNote) :
    List Nat → Nat → List Byte × List ClampNote
  | [], _ => ([], [])
  | n :: r, k =>
    let (v, notes) := f k n
    let (bs, more) := clampEntries size f r (k + 1)
    (beBytes size v ++ bs, notes ++ more)

/-- Pass 2 for a table, under the shape that holds at the apply. -/
def clampTable (sizes : List Nat) (idx : Nat) (bs : List Byte) : List Byte × List ClampNote :=
  let (size, _) := tableShape idx
  let l := entriesOf size bs.length bs
  if idx = 0x6010 then clampEntries size clampMap l 0
  else if idx = 0x6020 then clampEntries size (clampException sizes) l 0
  else if idx = 0x6021 then clampEntries size (clampAbsent sizes) l 0
  else if idx = 0x6820 then clampEntries size clampGate l 0
  else if idx = 0x6830 then clampEntries size clampShaper l 0
  else if idx = 0x6850 then clampEntries size clampPolicer l 0
  else if idx = 0x8610 then clampEntries size clampTenant l 0
  else (bs, [])

/-- Byte `k` of a value, as a note of its own. -/
def clampByte (lo hi : Int) (b : Byte) : Byte × List ClampNote :=
  let v := toSigned 8 b.toNat
  let out (reason : Nat) (w : Int) : Byte × List ClampNote :=
    (BitVec.ofNat 8 (ofSigned 8 w),
      [{ reason := reason, element := 0, written := ofSigned 64 v, applied := ofSigned 64 w }])
  if v < lo then out 1 lo else if hi < v then out 2 hi else (b, [])

/-- Transmit FFE (0x5020): PRE2, PRE1, MAIN, POST1 of each lane. -/
def clampFfe : List Byte → Nat → List Byte × List ClampNote
  | [], _ => ([], [])
  | b :: r, k =>
    let (v, n) := if k % 4 = 0 then clampByte (-16) 0 b else if k % 4 = 2 then clampByte 64 127 b
      else clampByte (-32) 0 b
    let (vs, ns) := clampFfe r (k + 1)
    (v :: vs, n ++ ns)

/-- The bounds of 0x8810, by pool. -/
def poolBound (p : Nat) : Nat × Nat :=
  match [(16, 224), (0, 2720), (0, 4096), (0, 8192), (0, 512), (16, 16)][p]? with
  | some b => b
  | none => (0, 0)

/-- Pass 2: a value against its own range. -/
def clampRange (sizes : List Nat) (o : ObjDef) (idx sub : Nat) (bs : List Byte) : List Byte × List ClampNote :=
  let n := beNat bs
  let keep (mask : Nat) : List Byte × List ClampNote := replaced o.ty bs 4 (Nat.land n mask)
  if idx = 0x8810 then boundNat o.ty (poolBound sub).1 (poolBound sub).2 bs
  else match o.range with
  | .any => (bs, [])
  | .nat lo hi => boundNat o.ty lo hi bs
  | .int lo hi => boundInt o.ty lo hi bs
  | .orZero lo hi => if n = 0 then (bs, []) else boundNat o.ty lo hi bs
  | .enum vs => if vs.contains n then (bs, []) else replaced o.ty bs 3 (o.dfltAt sub)
  | .bits mask => keep mask
  | .custom =>
    if o.ty = .table then clampTable sizes idx bs
    else if idx = 0x2330 then keep (ones 832 - 2 ^ 824 - ones 16 * 2 ^ 808)
    else if idx = 0x5020 then clampFfe bs 0
    else if idx = 0x5021 then keep 0x8F8F8F8F
    else if idx = 0x6001 then
      (if n = 1 then replaced o.ty bs 1 0 else if 37 < n then replaced o.ty bs 2 37 else (bs, []))
    else if idx = 0x6861 then (if sub = 1 then keep 0xFF else (bs, []))
    else if idx = 0x8442 then (if sub = 1 then keep 0xFFFFFFFF else (bs, []))
    else (bs, [])

/-! ### Pass 3 -/

/-- What pass 3 reads of other objects: their values at the apply. -/
abbrev Look := Nat → Nat → List Byte

/-- A number through `Look`. -/
def lookN (look : Look) (idx sub : Nat) : Nat := beNat (look idx sub)

/-- The shape at the apply. -/
def lookShape (look : Look) : List Nat := (rangeFrom 0 4).map (lookN look 0x6001)

/-- The size of dimension `d` after pass 3 (Table 09-9). -/
def depSize (look : Look) (d n : Nat) : Nat :=
  let lower := (rangeFrom 0 d).map (lookN look 0x6001)
  if n = 0 || lower.any (fun x => x == 0) then 0
  else if 4 < fieldsTaken lower + (if 31 < n then 2 else 1) then 0
  else
    let links := sumBy (fun x => x - 1) lower
    let v := min n (72 - links + 1)
    if v < 2 then 0 else v

/-- A range count (0x7014 to 0x7016, 0xA014 to 0xA016): within the space, and 0 where the range
overlaps that of a lower FN.  `base` and `cnt` give a function's base and count at the apply. -/
def depCount (most fn : Nat) (base cnt : Nat → Nat) (n : Nat) : Nat :=
  let b := base fn
  let n := if most < b + n then most - b else n
  let hits (g : Nat) : Bool := cnt g != 0 && b < base g + cnt g && base g < b + n
  if n ≠ 0 && (rangeFrom 0 fn).any hits then 0 else n

/-- The function number of an element of a per-function array. -/
def fnOf (arr sub : Nat) : Nat := if arr = 0 then sub else if arr = 1 then 2 + sub else 258 + sub

/-- The element of a function in the arrays `pf`, `pf + 1`, `pf + 2`. -/
def lookFn (look : Look) (pf fn : Nat) : Nat :=
  if fn < 2 then lookN look pf fn
  else if fn < 258 then lookN look (pf + 1) (fn - 2) else lookN look (pf + 2) (fn - 258)

/-- MAIN reduced until the magnitudes of a lane add up to 127 at most. -/
def depFfe (bs : List Byte) : List Byte × List ClampNote :=
  clampEntries 4 (fun k n =>
    let mag (b : Nat) : Nat := (toSigned 8 b).natAbs
    let rest := mag (fld n 31 24) + mag (fld n 23 16) + mag (fld n 7 0)
    entryStep 5 (fun n => if 127 < rest + fld n 15 8 then setFld n 15 8 (127 - rest) else n) k (n, []))
    (entriesOf 4 4 bs) 0

/-- The resolved port map at the apply. -/
def lookMap (look : Look) : List MapEntry :=
  resolveMap (lookShape look) (lookN look 0x6000 0) (entriesOf 4 72 (look 0x6010 0))

/-- Is port `p` disabled at the apply? -/
def lookDisabled (look : Look) (p : Nat) : Bool :=
  match (lookMap look)[p]? with
  | some e => e.mode == 3
  | none => true

/-- Steps 2 to 4 of R262 written back: entries that they changed take the resolved form. -/
def depMap (look : Look) (bs : List Byte) : List Byte × List ClampNote :=
  let sizes := lookShape look
  let node := lookN look 0x6000 0
  let raw := entriesOf 4 72 bs
  let res := resolveMap sizes node raw
  clampEntries 4 (fun k n =>
    let before := (mapEntry n).mode
    let e := match res[k]? with | some e => e | none => { mode := 3, dim := 0, coord := 0 }
    let auto := autoEntry sizes node k (usedSizes sizes) 0 0
    entryStep 5 (fun n =>
      if before = 0 then
        (if e = auto then n else e.mode * 2 ^ 29 + e.dim * 2 ^ 27 + e.coord * 2 ^ 21)
      else setFld n 31 29 e.mode) k (n, [])) raw 0

/-- The first of (e + 1) mod 4 and (e + 2) mod 4 that no table holds (R279). -/
def nextEpoch (s : State) : Nat :=
  let e := s.rt.live.epoch
  let held := match s.rt.prev with | some t => t.epoch | none => e
  if (e + 1) % 4 = held then (e + 2) % 4 else (e + 1) % 4

def depEpoch (s : State) (n : Nat) : Nat :=
  let held := match s.rt.prev with | some t => t.epoch == n | none => false
  if n = s.rt.live.epoch || held then nextEpoch s else n

/-- The epoch tables (R279). -/
def isEpochTable (idx : Nat) : Bool :=
  idx == 0x6010 || idx == 0x6011 || idx == 0x6020 || idx == 0x6021 || idx == 0x6030

/-- Pool sizes: Σ over the pools at most 23 552 MiB; the highest-numbered changed pool gives way
(R435).  `inSet` says which pools the set changes. -/
def depPool (look : Look) (inSet : Nat → Bool) (p n : Nat) : Nat :=
  let total := sumBy (fun q => if q = p then n else lookN look 0x8810 q) (rangeFrom 0 6)
  let highest := !(rangeFrom (p + 1) (5 - p)).any inSet
  if 23552 < total && highest then n - (total - 23552) else n

/-- Pass 3 for one value.  `look` gives the values at the apply, `inSet` whether the set holds an
element. -/
def clampDep (s : State) (look : Look) (inSet : Nat → Nat → Bool) (o : ObjDef) (idx sub : Nat)
    (bs : List Byte) : List Byte × List ClampNote :=
  let n := beNat bs
  let to_ (v : Nat) : List Byte × List ClampNote := replaced o.ty bs 5 v
  let atLeast (b : Nat) : List Byte × List ClampNote := if n < b then to_ b else (bs, [])
  let atMost (b : Nat) : List Byte × List ClampNote := if b < n then to_ b else (bs, [])
  if isEpochTable idx && !inSet 0x6002 0 then
    (let v := liveBytes s idx sub
     if v = bs then (bs, [])
     else (v, [{ reason := 5, element := 0, written := n % 2 ^ 64, applied := beNat v % 2 ^ 64 }]))
  else if idx = 0x2002 then
    (let b := toSigned 32 (lookN look 0x2001 sub) + 8
     if toSigned 32 n < b then to_ (ofSigned 32 b) else (bs, []))
  else if idx = 0x3000 then
    (if sub = 0 then to_ 1
     else match parentOf sub with
      | some p => if p ≠ 0 && lookN look 0x3000 p = 0 then to_ 0 else (bs, [])
      | none => (bs, []))
  else if idx = 0x3800 then
    (if !isSource sub then to_ 0
     else if n = 4 && !(sub == 2 || sub == 11 || sub == 16 || 18 ≤ sub && sub ≤ 20) then to_ 3
     else (bs, []))
  else if idx = 0x5017 then atLeast (2 * lookN look 0x5016 0)
  else if idx = 0x5020 then depFfe bs
  else if idx = 0x5030 || idx = 0x5031 then (if lookDisabled look sub then (bs, []) else to_ 0)
  else if idx = 0x6000 then
    (if 2 ^ 20 ≤ n || (badField (lookShape look) false n).isSome then to_ 0 else (bs, []))
  else if idx = 0x6001 then to_ (depSize look sub n)
  else if idx = 0x6002 then to_ (depEpoch s n)
  else if idx = 0x6010 then depMap look bs
  else if idx = 0x6800 then
    atMost (3072 - sumBy (lookN look 0x6800) (rangeFrom 0 sub) - 16 * (19 - sub))
  else if idx = 0x6840 then atMost (lookN look 0x6800 sub)
  else if idx = 0x6841 then atMost (lookN look 0x6840 sub)
  else if idx = 0x6863 then atMost (lookN look 0x8810 4 * 2 ^ 20 / 16)
  else if idx = 0x7014 || idx = 0x7015 || idx = 0x7016 then
    to_ (depCount 65536 (fnOf (idx - 0x7014) sub) (lookFn look 0x7010) (lookFn look 0x7014) n)
  else if idx = 0x7841 then atLeast (lookN look 0x7840 0)
  else if idx = 0x7844 then atLeast (lookN look 0x7843 0)
  else if idx = 0x7C12 then atLeast (3 * lookN look 0x7C11 0)
  else if idx = 0x8410 then (if n = 0 then to_ 0xFFF else (bs, []))
  else if idx = 0x8443 then
    atMost ((lookN look 0x8810 4 * 2 ^ 20 - 16 * lookN look 0x6863 0) / 32)
  else if idx = 0x8810 then to_ (depPool look (inSet 0x8810) sub n)
  else if idx = 0xA014 || idx = 0xA015 || idx = 0xA016 then
    to_ (depCount 4096 (fnOf (idx - 0xA014) sub) (lookFn look 0xA010) (lookFn look 0xA014) n)
  else (bs, [])

/-! ### At the apply -/

/-- Is any port UP? -/
def anyPortUp (s : State) : Bool := s.rt.ports.any fun p => p.2.state == .up

/-- Cells in use in a pool (R434, R436): those of a stack that does not work have left service (R445). -/
def poolUsed (s : State) (p : Nat) : Nat :=
  if p = 0 then
    2 * (s.qm.queues.filter fun q => qExists q.2 && stackWorks s q.2.stack).length
      + (s.ra.regions.filter fun r => r.2.state != .free && stackWorks s r.2.stack).length
      + s.ra.src.length + s.ra.tgt.length
  else if p = 1 then
    sumBy (fun d => d.2.posted.length + d.2.unexpected.length + d.2.reorder.length) s.mu.domains
      + (s.mu.seqs.length + 3) / 4
  else if p = 2 then storeCells s
  else if p = 3 then sumBy (fun g => g.2.reserved) s.ce.groups / 1024
  else if p = 4 then (s.fs.ring.length * 16 + 63) / 64 + (s.me.ring.length * 32 + 63) / 64
  else mirrorEntries s

/-- The pools whose size or base a change of sizes moves: a pool's base is the sum of those below. -/
def poolMoves (s : State) (look : Look) (p : Nat) : Bool :=
  rc s 0x8810 p != lookN look 0x8810 p ||
    (p < 4 && (rangeFrom 0 p).any fun q => rc s 0x8810 q != lookN look 0x8810 q) ||
    (p == 4 && rc s 0x8810 5 != lookN look 0x8810 5)

/-- The rules that are judged at the apply instant only, reason DEPENDENCY_AT_APPLY.  `whole`: the values that
the commit would make live, by which its pool sizes are judged together (R435). -/
def clampAtApply (s : State) (whole look : Look) (o : ObjDef) (idx sub : Nat) (bs : List Byte) :
    List Byte × List ClampNote :=
  let n := beNat bs
  let to_ (v : Nat) : List Byte × List ClampNote := replaced o.ty bs 6 v
  if idx = 0x6000 || idx = 0x6001 then (if anyPortUp s then to_ (rc s idx sub) else (bs, []))
  else if idx = 0x7820 || idx = 0x7821 || idx = 0x7822 then
    (if s.ra.conns.any fun (e : Nat × Conn) => e.2.state != .closed then to_ (rc s idx sub) else (bs, []))
  else if idx = 0x8438 then
    (if bit n 0 && !isEventQueue s (fld n 27 18) (fld n 47 28) then to_ (n - 1) else (bs, []))
  else if idx = 0x3830 then
    (if bit n 31 && !isEventQueue s sub (fld n 19 0) then to_ (n - 2 ^ 31) else (bs, []))
  else if idx = 0x8810 then
    (if (rangeFrom 0 6).any fun p => poolMoves s whole p && poolUsed s p != 0 then to_ (rc s idx sub)
     else (bs, []))
  else (bs, [])

end Sys2Proof.Machine
end

