-- ==== Sys2Proof/Machine/Reduce.lean ====
section
/-!
DEFINITION. The arithmetic of collectives (R194 to R198): integer sums, IEEE 754-2019 sums, minima and
maxima, bitwise operations, minloc and maxloc, EXACT sums.

A finite floating-point number is an integer multiple of the least subnormal of its format, so a sum is
one integer addition and one rounding.
-/
namespace Sys2Proof.Machine

/-! ### Formats -/

/-- A floating-point format: exponent and mantissa bits. -/
structure Fmt where
  ebits : Nat
  mbits : Nat
deriving DecidableEq, Repr

def f32 : Fmt := { ebits := 8, mbits := 23 }
def f64 : Fmt := { ebits := 11, mbits := 52 }
def bf16 : Fmt := { ebits := 8, mbits := 7 }

/-- Is TYPE an integer type (i32, i64, u32, u64)? -/
def isInt (ty : Nat) : Bool := ty ≤ 3

/-- Bytes of a value of TYPE (R185). -/
def typeSize (ty : Nat) : Nat := match ty with | 1 | 3 | 5 => 8 | 6 => 2 | _ => 4

/-- The format of a floating-point TYPE. -/
def fmtOf (ty : Nat) : Fmt := match ty with | 5 => f64 | 6 => bf16 | _ => f32

def Fmt.expMax (f : Fmt) : Nat := 2 ^ f.ebits - 1
def Fmt.neg (f : Fmt) (w : Nat) : Bool := bit w (f.ebits + f.mbits)
def Fmt.mag (f : Fmt) (w : Nat) : Nat := w % 2 ^ (f.ebits + f.mbits)
def Fmt.expo (f : Fmt) (w : Nat) : Nat := f.mag w / 2 ^ f.mbits
def Fmt.mant (f : Fmt) (w : Nat) : Nat := w % 2 ^ f.mbits

def Fmt.isNan (f : Fmt) (w : Nat) : Bool := f.expo w == f.expMax && f.mant w != 0
def Fmt.isInf (f : Fmt) (w : Nat) : Bool := f.expo w == f.expMax && f.mant w == 0

/-- The infinity of a sign, and the canonical NaN (R197). -/
def Fmt.inf (f : Fmt) (neg : Bool) : Nat := b2n neg * 2 ^ (f.ebits + f.mbits) + f.expMax * 2 ^ f.mbits
def Fmt.nan (f : Fmt) : Nat := f.expMax * 2 ^ f.mbits + 2 ^ (f.mbits - 1)
def Fmt.negZero (f : Fmt) : Nat := 2 ^ (f.ebits + f.mbits)

/-- A finite number in units of the least subnormal. -/
def Fmt.units (f : Fmt) (w : Nat) : Int :=
  let m : Nat := if f.expo w = 0 then f.mant w else (f.mant w + 2 ^ f.mbits) * 2 ^ (f.expo w - 1)
  if f.neg w then -(m : Int) else m

/-- Round to nearest, ties to even, to `shift` bits less. -/
def roundShift (n shift : Nat) : Nat :=
  let q := n / 2 ^ shift
  let r := n % 2 ^ shift
  if shift = 0 then n
  else if 2 ^ shift < 2 * r || (2 * r = 2 ^ shift && q % 2 = 1) then q + 1 else q

/-- The magnitude bits of a positive integer number of units, rounded once. -/
def Fmt.ofMag (f : Fmt) (n : Nat) : Nat :=
  if n < 2 ^ (f.mbits + 1) then n
  else
    let shift := Nat.log2 n - f.mbits
    -- a carry out of the mantissa advances the exponent by itself
    min (roundShift n shift + shift * 2 ^ f.mbits) (f.expMax * 2 ^ f.mbits)

/-- The number nearest to a whole number of units that is not 0. -/
def Fmt.ofUnits (f : Fmt) (i : Int) : Nat :=
  if i < 0 then f.negZero + f.ofMag i.natAbs else f.ofMag i.natAbs

/-- One IEEE 754 addition, rounded to nearest even (R195). -/
def Fmt.add (f : Fmt) (a b : Nat) : Nat :=
  if f.isNan a || f.isNan b then f.nan
  else if f.isInf a then (if f.isInf b && f.neg a != f.neg b then f.nan else f.inf (f.neg a))
  else if f.isInf b then f.inf (f.neg b)
  else
    let i := f.units a + f.units b
    if i = 0 then (if f.neg a && f.neg b then f.negZero else 0) else f.ofUnits i

/-- A total order on the numbers, −0 below +0 (R196). -/
def Fmt.key (f : Fmt) (w : Nat) : Int := if f.neg w then -(f.mag w : Int) - 1 else f.mag w

/-! ### Values of a TYPE -/

/-- Is a value NaN? -/
def isNanV (ty w : Nat) : Bool := !isInt ty && (fmtOf ty).isNan w

/-- The order of R196 on values that are not NaN. -/
def orderKey (ty w : Nat) : Int :=
  if isInt ty then (if ty ≤ 1 then toSigned (8 * typeSize ty) w else w) else (fmtOf ty).key w

/-- Minimum and maximum (R196): NaN propagates. -/
def extreme (isMin : Bool) (ty a b : Nat) : Nat :=
  if isNanV ty a || isNanV ty b then (fmtOf ty).nan
  else
    let less := orderKey ty a ≤ orderKey ty b
    if less == isMin then a else b

/-- minloc and maxloc: a value with its location. -/
def extremeLoc (isMin : Bool) (ty : Nat) (a b : Nat × Nat) : Nat × Nat :=
  match isNanV ty a.1, isNanV ty b.1 with
  | true, true => ((fmtOf ty).nan, min a.2 b.2)
  | true, false => ((fmtOf ty).nan, a.2)
  | false, true => ((fmtOf ty).nan, b.2)
  | false, false =>
    let ka := orderKey ty a.1
    let kb := orderKey ty b.1
    if ka = kb then (a.1, min a.2 b.2)
    else if (decide (ka < kb)) == isMin then a else b

/-! ### Partial results, element by element (R250) -/

/-- A partial result of one element. -/
inductive Part where
  /-- an exact integer sum (R194) -/
  | sum (i : Int)
  /-- the element itself: floating-point sums, minima, maxima, bitwise operations; `over_`: it is an
  infinite sum of which no contribution was infinite (R195) -/
  | elem (w : Nat) (over_ : Bool)
  /-- a value with its location -/
  | loc (v l : Nat)
  /-- an EXACT sum (R198) -/
  | exact (i : Int) (nan pinf ninf negZero : Bool)
deriving DecidableEq, Repr

/-- What a reduction needs of its signature: OP, TYPE, MODE, SAT (Table 06-1). -/
structure Red where
  op : Nat
  ty : Nat
  mode : Nat
  sat : Bool
deriving DecidableEq, Repr

/-- Size of an element in the data of a step. -/
def Red.size (r : Red) : Nat := if r.op = 6 || r.op = 7 then 16 else typeSize r.ty

/-- How an element of a contribution enters the sum. -/
def Red.ofElem (r : Red) (bs : List Byte) : Part :=
  let w := leNat bs
  if r.op = 6 || r.op = 7 then .loc (leNat (bs.take (typeSize r.ty))) (leAt bs 8 4)
  else if r.op = 0 && isInt r.ty then .sum (orderKey r.ty w)
  else if r.op = 0 && r.mode = 2 then
    let f := fmtOf r.ty
    if f.isNan w then .exact 0 true false false false
    else if f.isInf w then .exact 0 false (!f.neg w) (f.neg w) false
    else .exact (f.units w) false false false (w == f.negZero)
  else .elem w false

/-- Combine two partial results: `a` is the left operand (R195).  An infinite sum carries the overflow
mark where every infinite operand of it does. -/
def Red.combine (r : Red) (a b : Part) : Part :=
  match a, b with
  | .sum i, .sum j => .sum (i + j)
  | .loc v l, .loc w k =>
    let x := extremeLoc (r.op == 6) r.ty (v, l) (w, k)
    .loc x.1 x.2
  | .exact i n p m z, .exact j n' p' m' z' => .exact (i + j) (n || n') (p || p') (m || m') (z && z')
  | .elem x o, .elem y o' =>
    let f := fmtOf r.ty
    if r.op = 0 then
      let w := f.add x y
      .elem w (f.isInf w && (o || !f.isInf x) && (o' || !f.isInf y))
    else if r.op = 1 then .elem (extreme true r.ty x y) false
    else if r.op = 2 then .elem (extreme false r.ty x y) false
    else if r.op = 3 then .elem (Nat.land x y) false
    else if r.op = 4 then .elem (Nat.lor x y) false
    else .elem (Nat.xor x y) false
  | a, _ => a

/-- The least and greatest value of an integer TYPE. -/
def intRange (ty : Nat) : Int × Int :=
  let w := 8 * typeSize ty
  if ty ≤ 1 then (-(2 ^ (w - 1) : Nat), (2 ^ (w - 1) - 1 : Nat)) else (0, (2 ^ w - 1 : Nat))

/-- The final value of an element, and its OVERFLOW (R194, R195, R198). -/
def Red.final (r : Red) (p : Part) : List Byte × Bool :=
  let f := fmtOf r.ty
  match p with
  | .sum i =>
    let (lo, hi) := intRange r.ty
    let out := i < lo || hi < i
    let v := if r.sat then max lo (min hi i) else i
    (leBytes (typeSize r.ty) (ofSigned (8 * typeSize r.ty) v), out)
  | .loc v l =>
    let v := if isNanV r.ty v then f.nan else v
    (leBytes 8 v ++ leBytes 4 l ++ leBytes 4 0, false)
  | .exact i nan pinf ninf z =>
    if nan || (pinf && ninf) then (leBytes (typeSize r.ty) f.nan, false)
    else if pinf then (leBytes (typeSize r.ty) (f.inf false), false)
    else if ninf then (leBytes (typeSize r.ty) (f.inf true), false)
    else if i = 0 then (leBytes (typeSize r.ty) (if z then f.negZero else 0), false)
    else
      let w := f.ofUnits i
      (leBytes (typeSize r.ty) w, f.isInf w)
  | .elem w o =>
    let w := if isNanV r.ty w then f.nan else w
    (leBytes (typeSize r.ty) w, o)

/-! ### Partial results on the wire (R250, Table 06-8) -/

/-- Limbs of a two's-complement integer, lowest first, at most `n`: up to where the rest is the sign
extension. -/
def limbsOf : Nat → Int → List Nat
  | 0, _ => []
  | n + 1, i =>
    let low := ofSigned 64 i
    let rest := i / (2 ^ 64 : Nat)
    let signed := toSigned 64 low
    if signed = i then [low] else low :: limbsOf n rest

/-- Drop limbs of 0 from below: how many, and the rest. -/
def dropZeros : List Nat → Nat × List Nat
  | [] => (0, [])
  | l :: r => if l = 0 then (let (k, x) := dropZeros r; (k + 1, x)) else (0, l :: r)

/-- An EXACT element: header and limbs. -/
def exactBytes (i : Int) (nan pinf ninf negZero : Bool) : List Byte :=
  let flags := b2n nan * 2 ^ 51 + b2n pinf * 2 ^ 50 + b2n ninf * 2 ^ 49 + b2n negZero * 2 ^ 48
  if i = 0 then leBytes 8 flags
  else
    let (low, ls) := dropZeros (limbsOf 40 i)
    leBytes 8 (low * 2 ^ 58 + ls.length * 2 ^ 52 + flags) ++ ls.flatMap (leBytes 8)

/-- The integer that limbs spell, the highest one sign-extended. -/
def limbsInt : List Nat → Int
  | [] => 0
  | [l] => toSigned 64 l
  | l :: r => (l : Int) + (2 ^ 64 : Nat) * limbsInt r

/-- Partial results as bytes, one list for each element. -/
def Red.wire (r : Red) (p : Part) : List Byte :=
  match p with
  | .sum i => leBytes 16 (ofSigned 128 i)
  | .loc v l => leBytes 8 v ++ leBytes 4 l ++ leBytes 4 0
  | .exact i n p m z => exactBytes i n p m z
  | .elem w _ => leBytes (typeSize r.ty) w

/-- What the overflow mark of its packet says of an element: of an infinite sum, whether it overflowed. -/
def Red.mark (r : Red) (p : Part) : Option Bool :=
  match p with
  | .elem w o => if r.op = 0 && (fmtOf r.ty).isInf w then some o else none
  | _ => none

/-- Words of 8 bytes, `n` of them. -/
def words8 : Nat → List Byte → List Nat
  | 0, _ => []
  | n + 1, bs => leNat (bs.take 8) :: words8 n (bs.drop 8)

/-- Read the elements of a payload; `over_`: the overflow mark of its packet. -/
def Red.parse (r : Red) (over_ : Bool) : Nat → List Byte → List Part
  | 0, _ => []
  | n + 1, bs =>
    if bs.isEmpty then []
    else if r.op = 6 || r.op = 7 then
      .loc (leNat (bs.take (typeSize r.ty))) (leAt bs 8 4) :: r.parse over_ n (bs.drop 16)
    else if r.op = 0 && isInt r.ty then .sum (toSigned 128 (leNat (bs.take 16))) :: r.parse over_ n (bs.drop 16)
    else if r.op = 0 && r.mode = 2 then
      let h := leNat (bs.take 8)
      let c := fld h 57 52
      let i := limbsInt (words8 c (bs.drop 8)) * (2 ^ (64 * fld h 63 58) : Nat)
      .exact i (bit h 51) (bit h 50) (bit h 49) (bit h 48) :: r.parse over_ n (bs.drop (8 + 8 * c))
    else
      let w := leNat (bs.take (typeSize r.ty))
      .elem w (over_ && r.op == 0 && (fmtOf r.ty).isInf w) :: r.parse over_ n (bs.drop (typeSize r.ty))

/-- Do the element headers of an EXACT payload hold 0 in Reserved, bits [47:0] (Table 06-8, R9)? -/
def Red.reservedOk (r : Red) : Nat → List Byte → Bool
  | 0, _ => true
  | n + 1, bs =>
    if bs.isEmpty || r.op != 0 || isInt r.ty || r.mode != 2 then true
    else
      let h := leNat (bs.take 8)
      fld h 47 0 == 0 && r.reservedOk n (bs.drop (8 + 8 * fld h 57 52))

/-- Elements of contribution data. -/
def Red.elems (r : Red) : Nat → List Byte → List Part
  | 0, _ => []
  | n + 1, bs => if bs.isEmpty then [] else r.ofElem (bs.take r.size) :: r.elems n (bs.drop r.size)

/-- Combine two lists of partial results. -/
def Red.zip (r : Red) : List Part → List Part → List Part
  | a :: x, b :: y => r.combine a b :: r.zip x y
  | x, _ => x

/-- A packet of a contribution: its offset, its bytes and its overflow mark. -/
structure Piece where
  off : Nat
  bytes : List Byte
  over_ : Bool := false
deriving DecidableEq, Repr

/-- May an element go into a packet that holds others: at most 4032 B, and one overflow mark for every
infinite sum in it (assumption 176)? -/
def fits (bytes : List Byte) (mark : Option Bool) (e : List Byte) (m : Option Bool) : Bool :=
  bytes.length + e.length ≤ 4032 && (mark.isNone || m.isNone || mark == m)

/-- Group elements with their marks into packets of at most 4032 B of whole elements: `first` is the
number of the first element of the packet that is being filled. -/
def packElems : List (List Byte × Option Bool) → Nat → Nat → List Byte → Option Bool → List Piece
  | [], _, first, acc, mark =>
    if acc.isEmpty then [] else [{ off := first, bytes := acc, over_ := mark.getD false }]
  | (e, m) :: r, k, first, acc, mark =>
    if acc.isEmpty then packElems r (k + 1) k e m
    else if fits acc mark e m then packElems r (k + 1) first (acc ++ e) (mark.orElse fun _ => m)
    else { off := first, bytes := acc, over_ := mark.getD false } :: packElems r (k + 1) k e m

end Sys2Proof.Machine
end

