-- ==== Sys2Proof/Machine/CollBase.lean ====
section
/-!
DEFINITION. Groups: the tree, the packets, staging, and the partial results of a step
(R181 to R183, R191 to R199, R207, R208, R249, R250).
-/
namespace Sys2Proof.Machine

/-! ### The tree (R182) -/

/-- This module's place in a group's tree. -/
structure Tree where
  /-- children, level by level, each level ascending -/
  kids : List (List Nat) := []
  parent : Option Nat := none
  levels : Nat := 0
  top : Nat := 0

/-- Do two nodes agree in every field except `k`? -/
def peersIn (k a b : Nat) : Bool :=
  setFld a (5 * k + 4) (5 * k) 0 == setFld b (5 * k + 4) (5 * k) 0

/-- The set of a node at field `k`, among the active members. -/
def treeSet (k : Nat) (act : List Nat) (m : Nat) : List Nat := act.filter (peersIn k m)

/-- Children and parent of a node within its set: one level, or two levels of runs of 19. -/
def inSet (set : List Nat) (m : Nat) : List (List Nat) × Option Nat :=
  let head := set.headD m
  if set.length ≤ 19 then
    if m = head then ([set.drop 1], none) else ([], some head)
  else
    let low := set.take 19
    let high := set.drop 19
    let head2 := high.headD m
    if m = head then ([low.drop 1, [head2]], none)
    else if m = head2 then ([high.drop 1], some head)
    else if low.contains m then ([], some head)
    else ([], some head2)

/-- One field after another: the roots of a field stay active for the next one. -/
def climb (me : Nat) : List Nat → List Nat → Tree → Tree
  | [], act, t => { t with top := act.headD me }
  | k :: r, act, t =>
    let two := act.any fun a => 19 < (treeSet k act a).length
    let roots := act.filter fun a => (treeSet k act a).head? == some a
    let here := if act.contains me then inSet (treeSet k act me) me else ([], none)
    climb me r roots { t with
      kids := t.kids ++ here.1
      parent := t.parent.orElse fun _ => here.2
      levels := t.levels + (if two then 2 else 1) }

/-- The tree of a member table, seen from node `me`: fields that hold 0 for every member are skipped. -/
def treeOf (members : List Nat) (me : Nat) : Tree :=
  climb me ((rangeFrom 0 4).filter fun k => !(members.all fun a => nodeField a k == 0)) members {}

/-! ### Groups and steps -/

def group (s : State) (g : Nat) : Group := sget {} s.ce.groups g

def setGroup (g : Nat) (f : Group → Group) (s : State) : State :=
  { s with ce := { s.ce with groups := smod {} s.ce.groups g f } }

/-- The children of this module, over all levels. -/
def kidsOf (x : Group) : List Nat := x.kids.flatten

/-- The tree neighbours. -/
def neighbours (x : Group) : List Nat := x.parent.toList ++ kidsOf x

def isTop (s : State) (x : Group) : Bool := x.top == ownNode s

def stepOf (s : State) (g n : Nat) : Option Step := (group s g).steps.find? fun p => p.num == n

def setStep (g n : Nat) (f : Step → Step) (s : State) : State :=
  setGroup g (fun x => { x with steps := updFirst (fun p => p.num == n) f x.steps }) s

def dropStep (g n : Nat) (s : State) : State :=
  setGroup g (fun x => { x with steps := x.steps.filter fun p => p.num != n }) s

/-- Is a step open at this module: its descriptor has started (R190)? -/
def stepOpen (p : Step) : Bool := p.entry.isSome

def openSteps (x : Group) : List Step := x.steps.filter stepOpen

/-- Has a step number not been taken by this member yet? -/
def stepAhead (x : Group) (n : Nat) : Bool := diff32 n x.nextStep < 2 ^ 31

/-! ### Signature (R191): the layout of Table 08-7, from bit 18 on -/

def sigOf (op d : Nat) : Nat :=
  op * 2 ^ 112 + gOP d * 2 ^ 108 + gTYPE d * 2 ^ 104 + gMODE d * 2 ^ 102 + b2n (gSAT d) * 2 ^ 101
    + dLENGTH d % 2 ^ 17 * 2 ^ 84 + gROOT d * 2 ^ 64 + gLAUNCH d

def sgOPCODE (g : Nat) : Nat := fld g 119 112
def sgLEN (g : Nat) : Nat := fld g 100 84
def sgROOT (g : Nat) : Nat := fld g 83 64
def sgLAUNCH (g : Nat) : Nat := fld g 63 0
def sgMODE (g : Nat) : Nat := fld g 103 102

/-- The reduction of a signature. -/
def sgRed (g : Nat) : Red where
  op := fld g 111 108
  ty := fld g 107 104
  mode := sgMODE g
  sat := bit g 101

/-- Elements of an ALLREDUCE. -/
def sgElems (g : Nat) : Nat := sgLEN g / (sgRed g).size

/-- Does a member have a contribution to read: every member of an ALLREDUCE, ROOT of a BROADCAST? -/
def hasOwn (s : State) (sig : Nat) : Bool :=
  sgOPCODE sig == 0x42 || (sgOPCODE sig == 0x43 && sgROOT sig == ownNode s)

/-! ### Packets (R183, R249) -/

def kJOIN : Nat := 0
def kREADY : Nat := 1
def kABANDON : Nat := 2
def kCONTRIB : Nat := 3
def kRESULT : Nat := 4
def kABORT : Nat := 5
def kHEARTBEAT : Nat := 6
def kDEPART : Nat := 7
def kLOST : Nat := 8
def kBROKEN : Nat := 9
def kFETCH : Nat := 10

/-- What a collective packet carries besides its group. -/
structure CollMsg where
  kind : Nat
  step : Nat := 0
  late : Bool := false
  over_ : Bool := false
  poison : Bool := false
  off : Nat := 0
  reason : Nat := 0
  arg : Nat := 0
  sig : Nat := 0
  payload : List Byte := []

/-- A collective type header (Table 08-7). -/
def collTH (g gen : Nat) (m : CollMsg) : Nat :=
  m.kind % 2 ^ 4 * 2 ^ 252 + g % 2 ^ 12 * 2 ^ 240 + gen % 2 ^ 8 * 2 ^ 232 + m.step % 2 ^ 32 * 2 ^ 200
    + b2n m.late * 2 ^ 199 + b2n m.over_ * 2 ^ 198 + m.off % 2 ^ 20 * 2 ^ 178
    + m.reason % 2 ^ 8 * 2 ^ 170 + m.arg % 2 ^ 32 * 2 ^ 138 + m.sig % 2 ^ 120 * 2 ^ 18

/-- A collective packet: VC16, green, to endpoint 0 of the node, from endpoint 0 of this one
(assumption 22). -/
def collPacket (s : State) (g : Nat) (x : Group) (tclass dest : Nat) (m : CollMsg) : Packet where
  type := tCOLL
  vc := 16
  poison := m.poison
  tclass := tclass
  tenant := x.tenant
  dest := dest * 4096
  source := ownIdentity s 0
  stamp := stampNow s
  th := collTH g x.gen m
  payload := m.payload

/-- Send a packet of a group to a node. -/
def sendColl (g tclass dest : Nat) (m : CollMsg) (s : State) : State :=
  injectPacket (collPacket s g (group s g) tclass dest m) s

/-- Send a packet to each node of a list. -/
def sendCollAll (g tclass : Nat) (m : CollMsg) (dests : List Nat) (s : State) : State :=
  foldSt (fun d s => sendColl g tclass d m s) dests s

/-! ### Staging (R207, R208) -/

/-- Bytes that a group reserves, in whole cells of 1 KiB. -/
def stagingNeed (window children maxLen : Nat) (exact : Bool) : Nat :=
  let sz := if exact then max maxLen 10496 else maxLen
  (window * (1 + children) * sz + 1023) / 1024 * 1024

/-- The packets of this module and of a group that are still on their way out. -/
def collInside (s : State) (g gen : Nat) : List Packet :=
  let out := s.rt.inject ++
    (s.fs.ports.flatMap fun (e : Nat × PortFlow) => e.2.queue.map fun q => q.packet) ++
    (s.ll.ports.filterMap fun (e : Nat × PortLink) => e.2.current.map fun c => c.packet)
  out.filter fun p =>
    p.type == tCOLL && idNode p.source == ownNode s && cGROUP p == g && cGEN p == gen

/-- The staging cells that packets still refer to: copies of one packet for several children refer to the
same ones, and a packet without payload to none (R208). -/
def bytesInside (s : State) (g gen : Nat) : Nat :=
  let cells := (collInside s g gen).map fun p => (cKIND p, cSTEP p, cOFFSET p, p.payload.length)
  sumBy (fun (c : Nat × Nat × Nat × Nat) => (c.2.2.2 + 1023) / 1024 * 1024) (cells.foldr List.insert [])

/-- The bytes of a released group that packets still refer to, in whole cells. -/
def transientBytes (s : State) (t : Transient) : Nat :=
  min t.bytes ((bytesInside s t.group t.gen + 1023) / 1024 * 1024)

/-- Transient cells (R208): those whose last copy has left, or is discarded, are free. -/
def stagingTransient (s : State) : Nat := sumBy (transientBytes s) s.ce.transient

/-- Staging that is neither reserved nor transient (R208). -/
def stagingFree (s : State) : Nat :=
  poolBytes s 3 - sumBy (fun (e : Nat × Group) => e.2.reserved) s.ce.groups - stagingTransient s

/-- The same in one stack: a group lies in one (Table 06-4). -/
def stackFree (s : State) (k : Nat) : Nat :=
  poolBytes s 3 / ((List.range 2).filter (stackWorks s)).length
    - sumBy (fun (e : Nat × Group) => if e.2.stack = k then e.2.reserved else 0) s.ce.groups
    - sumBy (fun (t : Transient) => if t.stack = k then transientBytes s t else 0) s.ce.transient

/-- The stack that takes a new group (assumption 224). -/
def stagingStack (s : State) (need : Nat) : Option Nat × State :=
  match (List.range 2).filter fun k => stackWorks s k && need ≤ stackFree s k with
  | [] => (none, s)
  | [k] => (some k, s)
  | _ => let (k, s) := draw 2 s; (some k, s)

/-- Cells whose last copy has left return to free. -/
def sweepTransient (s : State) : State :=
  let held (t : Transient) : Transient := { t with bytes := transientBytes s t }
  { s with ce := { s.ce with transient := (s.ce.transient.map held).filter fun t => t.bytes != 0 } }

/-- The staging cells of a lost stack are gone: the books go on with those of the other one (R445). -/
def stagingGone (k : Nat) (s : State) : State :=
  { s with ce := { s.ce with
    groups := s.ce.groups.map fun e => if e.2.stack = k then (e.1, { e.2 with reserved := 0 }) else e
    transient := s.ce.transient.filter fun t => t.stack != k } }

/-- A group becomes FREE: its launches are released, its staging returns but for the cells that packets
still refer to (R208). -/
def releaseGroup (g : Nat) (s : State) : State :=
  let x := group s g
  let s := foldSt (fun (p : Step) s => releaseShot (.launch g p.num) s) x.steps s
  let t : Transient := { group := g, gen := x.gen, stack := x.stack, bytes := x.reserved }
  sweepTransient (setGroup g (fun _ => {})
    { s with ce := { s.ce with transient := s.ce.transient ++ [t] } })

/-! ### Partial results of a step -/

/-- The parts of a contribution in the order of their offsets. -/
def joinParts (l : List (Nat × List Byte)) : List Byte :=
  ((l.foldr (fun a r => insertBy (fun (p : Nat × List Byte) => p.1) a r) []).map fun p => p.2).flatten

/-- The partial result that a packet spells; `over_`: its overflow mark. -/
def partsOf (sig : Nat) (over_ : Bool) (bs : List Byte) : List Part :=
  (sgRed sig).parse over_ (sgElems sig) bs

/-- The partial result of a child: its packets in the order of their offsets. -/
def childParts (sig : Nat) (c : ChildPart) : List Part :=
  let inOrder := c.parts.foldr (fun a r => insertBy (fun (p : Nat × List Byte) => p.1) a r) []
  inOrder.flatMap fun p => partsOf sig (c.overflowed.contains p.1) p.2

/-- Is a child's contribution whole: a token, or every element or byte of it (R250)? -/
def partWhole (sig : Nat) (l : List (Nat × List Byte)) : Bool :=
  if sgOPCODE sig = 0x42 then
    sgElems sig ≤ sumBy (fun (p : Nat × List Byte) => (partsOf sig false p.2).length) l
  else (l.any fun p => p.2.isEmpty) || sgLEN sig ≤ sumBy (fun (p : Nat × List Byte) => p.2.length) l

/-- The children whose parts are combined, in order: in ORDERED mode level by level, within a level by node
ID; else as they arrived, whatever their level (R195, Table 06-11). -/
def foldOrder (x : Group) (p : Step) : List ChildPart :=
  if sgMODE p.sig = 1 || sgOPCODE p.sig ≠ 0x42 then
    (kidsOf x).filterMap fun k => p.parts.find? fun c => c.child == k
  else p.parts.filter fun c => (kidsOf x).contains c.child

/-- The member's own partial result and those of its children, combined. -/
def foldReduce (x : Group) (p : Step) : List Part :=
  let r := sgRed p.sig
  (foldOrder x p).foldl (fun l c => r.zip l (childParts p.sig c)) (r.elems (sgElems p.sig) p.own)

/-- BROADCAST keeps the data, BARRIER has none (R199). -/
def foldData (p : Step) : List Byte :=
  if !p.own.isEmpty then p.own
  else match p.parts.find? fun c => c.parts.any fun b => !b.2.isEmpty with
    | some c => joinParts c.parts
    | none => []

/-- Cut bytes into packets, at least one: offset and bytes. -/
def cutBytes (n : Nat) : Nat → Nat → List Byte → List (Nat × List Byte)
  | 0, off, bs => [(off, bs)]
  | fuel + 1, off, bs =>
    if bs.length ≤ n then [(off, bs)] else (off, bs.take n) :: cutBytes n fuel (off + n) (bs.drop n)

/-- The CONTRIB packets of a step (R250, Table 08-7). -/
def contribParts (x : Group) (p : Step) : List Piece :=
  if sgOPCODE p.sig = 0x42 then
    let r := sgRed p.sig
    let scale := if sgMODE p.sig = 2 then 1 else r.size
    (packElems ((foldReduce x p).map fun e => (r.wire e, r.mark e)) 0 0 [] none).map fun c =>
      { c with off := c.off * scale }
  else
    let d := foldData p
    (cutBytes 4032 d.length 0 d).map fun c => { off := c.1, bytes := c.2 }

/-- The final result at the top root (R194 to R198). -/
def finalOf (x : Group) (p : Step) : List Byte × Bool :=
  if sgOPCODE p.sig = 0x42 then
    let outs := (foldReduce x p).map (sgRed p.sig).final
    ((outs.map fun e => e.1).flatten, outs.any fun e => e.2)
  else (foldData p, false)

/-- The packets of a result, whole elements each. -/
def resultParts (bs : List Byte) : List (Nat × List Byte) := cutBytes 4032 bs.length 0 bs

end Sys2Proof.Machine
end

