-- ==== Sys2Proof/Machine/Optics.lean ====
section
/-!
DEFINITION. Lanes, lasers, bring-up and lull (R351 to R369).
-/
namespace Sys2Proof.Machine

def portLanes (s : State) (p : Nat) : PortLanes := sget {} s.px.ports p

def setLanes (p : Nat) (f : PortLanes → PortLanes) (s : State) : State :=
  { s with px := { s.px with ports := smod {} s.px.ports p f } }

def laneOf (x : PortLanes) (l : Nat) : Lane := sget {} x.lanes l

def setLane (p l : Nat) (f : Lane → Lane) (s : State) : State :=
  setLanes p (fun x => { x with lanes := smod {} x.lanes l f }) s

/-- The four lanes. -/
def allLanes : List Nat := [0, 1, 2, 3]

/-- A set of lanes from a condition. -/
def laneBits (f : Nat → Bool) : Nat := sumBy (fun l => if f l then 2 ^ l else 0) allLanes

/-! ### Loopbacks and test patterns (R366) -/

/-- Does a loopback or a test pattern run on a port, which then is DISABLED? -/
def testing (s : State) (p : Nat) : Bool :=
  !isFabricPort s p && (rc s 0x5030 p != 0 || rc s 0x5031 p != 0)

/-- Does a near-end loopback return what the port sends to its own receiver? -/
def nearLoop (s : State) (p : Nat) : Bool := testing s p && (rc s 0x5030 p == 1 || rc s 0x5030 p == 2)

/-- Does the port return what it receives? -/
def farLoop (s : State) (p : Nat) : Bool := testing s p && rc s 0x5030 p == 3

/-- Does the port send the framed test stream? -/
def testFramed (s : State) (p : Nat) : Bool := testing s p && rc s 0x5031 p == 3 && rc s 0x5030 p != 3

/-- Do the lanes of a port receive: for the fabric, or in a test? -/
def receiving (s : State) (p : Nat) : Bool := (portLanes s p).bringUp != .off || testing s p

/-! ### Lasers (R369) -/

/-- Is the module in none of the states that forbid lasers (0x5070:k bit 1): safe state and Doldrums, and reset,
in which the bit reads its default? -/
def lasersAllowed (s : State) : Bool :=
  !s.fc.safe && match s.rs.phase with
    | .doldrums | .off | .resetCold | .resetWarm => false
    | .waiting | .verified | .running => true

/-- Are the lasers of a sector permitted? -/
def lasersPermitted (s : State) (k : Nat) : Bool :=
  !s.fc.safe && s.rs.phase != .doldrums && !s.pr.shed && domOn s (dOE k)

/-- Is the laser of a lane wanted on (R362, R366, R369)? -/
def laserWanted (s : State) (p l : Nat) : Bool :=
  let x := portLanes s p
  let n := laneOf x l
  let up := x.bringUp != .off && (bit x.txSet l || n.drop == .fault || n.widening || x.bringUp == .prbs)
  let loop := rc s 0x5030 p
  let test := loop == 3 || (rc s 0x5031 p != 0 && loop == 0)
  up || (test && !isFabricPort s p)

/-- Bring the lasers of a port up to date. -/
def refreshLasers (p : Nat) (s : State) : State :=
  let ok := lasersPermitted s (p / 8)
  foldSt (fun l s =>
    let on := ok && !(laneOf (portLanes s p) l).laserFault && laserWanted s p l
    setLane p l (fun n => { n with laser := on }) s) allLanes s

/-- Every laser is judged again (safe state, power). -/
def refreshAllLasers (s : State) : State := forRange 0 72 refreshLasers s

/-! ### Set timers (R362) -/

/-- A dwell of the LOAD policy starts. -/
def startDwell (p : Nat) (s : State) : State :=
  setLanes p (fun x => { x with
    dwellFrom := ticks s, dwellEnd := ticks s + rc s 0x5012 0, dwellPayload := 0 }) s

/-- A widening ends without a change of the set; the attempt is counted (R363). -/
def endWidening (p : Nat) (s : State) : State :=
  let s := foldSt (fun l s => setLane p l (fun n => { n with widening := false }) s) allLanes (bump 0x5044 p s)
  refreshLasers p (setLanes p (fun x => { x with widenTo := none, warm := false }) s)

/-- The peer reports its good lanes: one that comes good starts its hold, and one that fails again while it is
being added ends the widening (Table 12-8).  In bring-up the wait for a set that all agree on starts again. -/
def setPeerGood (p good : Nat) (s : State) : State :=
  let old := (portLanes s p).peerRxGood
  let held (l : Nat) (n : Lane) : Option Nat :=
    if !bit good l then none else if bit old l then n.restoreAt else some (ticks s + rc s 0x5018 0)
  let fails := allLanes.any fun l => (laneOf (portLanes s p) l).widening && bit old l && !bit good l
  let s := foldSt (fun l s => setLane p l (fun n => { n with restoreAt := held l n }) s) allLanes s
  let s := setLanes p (fun x => { x with
    peerRxGood := good
    stepAt := if x.bringUp == .framed && old != good then ticks s + rc s 0x5016 0 else x.stepAt }) s
  when_ fails (endWidening p) s

/-- A running eye scan on a lane of a port aborts: the lane has no CDR lock (R367). -/
def abortScan (p : Nat) (lane : Nat → Bool) (s : State) : State :=
  let c : EyeScan := sget {} s.px.scans (p / 8)
  if c.status = 1 && fld c.cmd 127 121 = p && lane (fld c.cmd 120 119) then
    { s with px := { s.px with scans := sset {} s.px.scans (p / 8) { c with status := 3 } } }
  else s

/-! ### Bring-up (R359, R360) -/

/-- Step 1: PRBS on all four lanes, transmit set 0b1111, nothing locked. -/
def startBringUp (p : Nat) (s : State) : State :=
  let k := p / 8
  if domOn s (dSC k) && domOn s (dOE k) then
    let s := setLanes p (fun x => { x with
      bringUp := .prbs
      stepAt := ticks s + rc s 0x5016 0
      limitAt := ticks s + rc s 0x5017 0
      restartAt := none
      lanes := x.lanes.map fun e => (e.1, { e.2 with
        drop := .no, widening := false, cdr := false, markerLock := false, goodMarkers := 0, bipNow := 0
        restoreAt := none })
      txSet := 15
      widenTo := none
      warm := false
      peerRxGood := 0
      peerTxSet := 0
      rxGood := 0
      fecLock := false
      goodCodewords := 0
      badCodewords := 0
      sinceComp := 0 }) s
    refreshLasers p (abortScan p (fun _ => true) s)
  else s

/-- The lanes of a port go off. -/
def lanesOff (p : Nat) (s : State) : State :=
  refreshLasers p <| abortScan p (fun _ => true) (setLanes p (fun x => { x with
    bringUp := .off
    restartAt := none
    lanes := x.lanes.map fun e => (e.1, { e.2 with
      drop := .no, widening := false, cdr := false, markerLock := false, goodMarkers := 0, restoreAt := none })
    txSet := 0
    widenTo := none
    warm := false
    peerRxGood := 0
    rxGood := 0
    fecLock := false }) s)

/-- The lanes of a port follow its test objects: on for a test, with the stream from its beginning, else off. -/
def applyTest (p : Nat) (s : State) : State :=
  if isFabricPort s p then refreshLasers p s
  else if testing s p then
    refreshLasers p (setLanes p (fun x => { x with txSet := 15, waiting := 0, waitingLen := 0, codewords := 0 }) s)
  else lanesOff p s

/-- Do the lanes of a port carry a framed stream? -/
def framed (s : State) (p : Nat) : Bool :=
  (portLanes s p).bringUp == .framed || (portLanes s p).bringUp == .locked

/-! ### Clocking (R357, R358) -/

/-- Is this module syntonized? -/
def syntonized (s : State) : Bool := s.tb.state == .refLocked

/-- Is a direction of a port in compensation mode? -/
def compensating (s : State) (p : Nat) : Bool := !syntonized s || !(portLanes s p).peerSynt

/-- The depth at which the receive crossing of a port stands (R357, R358). -/
def crossingGoal (s : State) (p : Nat) : Nat := if compensating s p then 64 else 2

/-- A cell passes the receive crossing (R358): `idle`, it is an IDLE cell; `matched`, rate matching is to delete
it (true) or to insert one beside it (false).  Whether the cell is lost or deleted, and the state.  Out of the
mode the crossing drains to its fixed depth. -/
def rateMatch (p : Nat) (drift : BitVec 9) (idle : Bool) (matched : Option Bool) (s : State) : Bool × State :=
  let comp := compensating s p
  let d : Int := (portLanes s p).crossing + (if comp then drift.toInt else 0)
  let goal : Int := crossingGoal s p
  let stand (d : Int) : Nat := min 128 d.toNat
  if idle && decide (goal < d) && (matched == some true || decide (128 < d) || !comp) then
    (true, setLanes p (fun x => { x with crossing := stand (d - 1), compDeleted := x.compDeleted + 1 }) s)
  else if idle && decide (d < goal) && comp && (matched == some false || decide (d < 0)) then
    (false, setLanes p (fun x => { x with crossing := stand (d + 1), compInserted := x.compInserted + 1 }) s)
  else (decide (d < 0) || decide (128 < d), setLanes p (fun x => { x with crossing := stand d }) s)

/-! ### Lane sets (R361 to R364) -/

/-- The widest set that R361 allows of `most` lanes at most for the lanes good at the peer. -/
def laneSet (good most : Nat) : Nat :=
  let g := allLanes.filter (bit good)
  if 4 ≤ most && g.length = 4 then 15
  else if 2 ≤ most && 2 ≤ g.length then sumBy (fun l => 2 ^ l) (g.take 2)
  else sumBy (fun l => 2 ^ l) (g.take 1)

/-- CRC-16 with polynomial 0x1021, initial value 0xFFFF (Table 12-3): one bit, most significant first. -/
def crc16Bit (c : Nat) (b : Bool) : Nat :=
  let x := Nat.xor (c / 2 ^ 15 % 2) (b2n b)
  let c := c * 2 % 2 ^ 16
  if x = 1 then Nat.xor c 0x1021 else c

/-- The CRC over the `n` most significant bits of a 128-bit marker. -/
def markerCrc (m : Nat) : Nat → Nat
  | 0 => 0xFFFF
  | n + 1 => crc16Bit (markerCrc m n) (bit m (127 - n))

/-- Is the bring-up schedule of markers in force: until the link is ACTIVE (R354)? -/
def dense (s : State) (p : Nat) : Bool := (sget {} s.ll.ports p).state != .active

/-- An alignment marker (Table 12-3) of a transmit lane, announcing the set `next`. -/
def markerBits (s : State) (p l next : Nat) (unsched : Bool) : Nat :=
  let x := portLanes s p
  let m := 0x5B2CE8719A0D * 2 ^ 80 + p * 2 ^ 73 + l * 2 ^ 71 + x.txSet * 2 ^ 67 + next * 2 ^ 63
    + x.rxGood * 2 ^ 59 + b2n (syntonized s) * 2 ^ 58 + b2n unsched * 2 ^ 57 + b2n (dense s p) * 2 ^ 56
    + x.mcount % 256 * 2 ^ 48 + (laneOf x l).txBip * 2 ^ 40
  m + markerCrc m 112

/-- A marker leaves on some lanes of a port; the parity of each starts afresh. -/
def markLanes (p next : Nat) (unsched : Bool) (lanes : List Nat) (s : State) : State :=
  foldSt (fun l s =>
    let m := markerBits s p l next unsched
    setLane p l (fun n => { n with txBip := 0 })
      (if nearLoop s p then later (.loopedMarker p l m) s else emit (.marker p l m) s)) lanes s

/-- An unscheduled marker leaves the port, on every lane of its set (R354, R355). -/
def sendMarker (p next : Nat) (s : State) : State :=
  markLanes p next true (allLanes.filter (bit (portLanes s p).txSet)) s

/-- The transmit set changes; lanes that leave it are dropped for `why` (R362, R363).  The announcing marker
stands at a codeword boundary, and the codeword after it, whose bits now gather, takes the new set. -/
def changeSet (p set : Nat) (why : LaneDrop) (s : State) : State :=
  let old := (portLanes s p).txSet
  if set = old || set = 0 then s
  else
    -- what a held lane has earned, it has earned at the old rate (R304)
    let s := startDwell p (bump 0x5044 p (sendMarker p set (accruePort p s)))
    let s := foldSt (fun l s =>
      setLane p l (fun n =>
        if bit set l then { n with drop := .no, widening := false }
        else if bit old l then { n with drop := why, widening := false }
        else { n with widening := false }) s) allLanes s
    refreshLasers p (setLanes p (fun x => { x with txSet := set, widenTo := none, warm := false }) s)

/-- The lanes that are being added send back-to-back markers; once the peer reports all of them good the set
changes (R363). -/
def widenStep (p : Nat) (s : State) : State :=
  let x := portLanes s p
  match x.widenTo with
  | some set => if x.warm && Nat.land set x.peerRxGood = set then changeSet p set .no s else s
  | none => s

/-- The back-to-back markers of a widening begin. -/
def widenMarkers (p : Nat) (s : State) : State :=
  let s := setLanes p (fun x => { x with warm := true }) s
  let x := portLanes s p
  widenStep p (markLanes p x.txSet true (allLanes.filter fun l => (laneOf x l).widening) s)

/-- A widening starts: the lasers of lanes dropped by load go on and warm up; lanes dropped by a fault are warm
(R363). -/
def startWidening (p set : Nat) (s : State) : State :=
  let x := portLanes s p
  if x.widenTo.isSome || lanesIn set ≤ lanesIn x.txSet then s
  else
    let cold := allLanes.any fun l => bit set l && !bit x.txSet l && (laneOf x l).drop == .load
    let s := foldSt (fun l s => setLane p l (fun n =>
      if bit set l && !bit x.txSet l then { n with widening := true } else n) s) allLanes s
    let s := refreshLasers p (setLanes p (fun x => { x with
      widenTo := some set, warm := false
      stepAt := ticks s + rc s 0x5014 0, limitAt := ticks s + rc s 0x5017 0 }) s)
    if cold then s else widenMarkers p s

/-- The lanes that a wider set may use: those of the next wider set that are good at the peer, or that
load has dropped (their lasers are off until the widening, so the peer cannot report them). -/
def widerGood (s : State) (p : Nat) : Nat :=
  let x := portLanes s p
  Nat.lor x.peerRxGood (laneBits fun l => (laneOf x l).drop == .load)

/-- The peer's RX_GOOD has been heard: narrow by fault, or end a widening (R362, R363).  In bring-up the set is
chosen from what the peer reports once that has not changed for the training time (R360; DESIGN CHOICE,
assumption 225); under the policy OFF it never is narrowed. -/
def lullEvaluate (p : Nat) (s : State) : State :=
  let s := widenStep p s
  let x := portLanes s p
  if rc s 0x5010 p = 0 || Nat.land x.txSet x.peerRxGood = x.txSet then s
  else match x.bringUp with
    | .locked => changeSet p (laneSet x.peerRxGood 4) .fault s
    | .framed => when_ (x.peerRxGood != 0 && x.stepAt ≤ ticks s) (changeSet p (laneSet x.peerRxGood 4) .fault) s
    | .off | .prbs => s

/-! ### The receiver (R355) -/

/-- RX_GOOD from the state of the lanes; a change sends an unscheduled marker. -/
def refreshGood (p : Nat) (s : State) : State :=
  let x := portLanes s p
  let good := laneBits fun l =>
    let n := laneOf x l
    n.cdr && n.markerLock && n.bipNow ≤ rc s 0x5015 0
  if good = x.rxGood then s
  else
    let s := setLanes p (fun x => { x with rxGood := good }) s
    let s := if framed s p || testFramed s p then sendMarker p (portLanes s p).txSet s else s
    -- with no good lane left the link is down (R364)
    when_ (good = 0) (later (.linkDown p)) s

/-! ### The transmitted stream (R351, R354) -/

/-- Multiplication by x in GF(2^10), the field of RS(544,514): x^10 + x^3 + 1 (PRESUMED, assumption 170). -/
def gfDouble (a : Nat) : Nat := if 512 ≤ a then Nat.xor (a * 2 - 1024) 9 else a * 2

/-- Multiplication, over the `n` low bits of the second factor. -/
def gfMul (a : Nat) : Nat → Nat → Nat
  | 0, _ => 0
  | n + 1, b => Nat.xor (if b % 2 = 1 then a else 0) (gfMul (gfDouble a) n (b / 2))

/-- A polynomial times (x + a), its coefficients highest first. -/
def polyRoot (a : Nat) (p : List Nat) : List Nat :=
  List.zipWith Nat.xor (p ++ [0]) (0 :: p.map fun c => gfMul c 10 a)

/-- The generator polynomial: the 30 roots 1, x, x^2, …, x^29 (assumption 170). -/
def rsGenerator : List Nat :=
  ((rangeFrom 0 30).foldl (fun (acc : Nat × List Nat) _ => (gfDouble acc.1, polyRoot acc.1 acc.2)) (1, [1])).2

/-- The 30 parity symbols of a message: the remainder of its division by the generator. -/
def rsParity (msg : List Nat) : List Nat :=
  let g := rsGenerator.tail
  msg.foldl (fun r m =>
    let f := Nat.xor m (r.headD 0)
    List.zipWith Nat.xor (r.tail ++ [0]) (g.map fun c => gfMul f 10 c)) (List.replicate 30 0)

/-- The ten-bit symbols of a number of `10 * n` bits, the first one most significant. -/
def symbolsOf (bits n : Nat) : List Nat := (rangeFrom 0 n).map fun i => bits / 2 ^ (10 * (n - 1 - i)) % 1024

/-- A codeword: 5 140 bits of the scrambled stream and their parity. -/
def rsEncode (bits : Nat) : List Nat :=
  let m := symbolsOf bits 514
  m ++ rsParity m

/-- The bits that lane number `k` of `n` carries of a codeword: every `n`-th symbol. -/
def stripe (symbols : List Nat) (n k : Nat) : Nat :=
  (symbols.foldl (fun (acc : Nat × Nat) c => (acc.1 + 1, if acc.1 % n = k then acc.2 * 1024 + c else acc.2)) (0, 0)).2

/-- Bit-interleaved parity of the `8 * n` low bits of a number. -/
def bip8 : Nat → Nat → Nat
  | 0, _ => 0
  | n + 1, b => Nat.xor (b % 256) (bip8 n (b / 256))

/-- Codewords between scheduled markers. -/
def markerSpacing (s : State) (p : Nat) : Nat := if dense s p then 256 else 16384

/-- A codeword leaves: its symbols go round-robin over the lanes of the transmit set.  A scheduled marker
follows where it is due, and one at every boundary on lanes that are being added (R363). -/
def sendCodeword (p bits : Nat) (s : State) : State :=
  let x := portLanes s p
  let set := allLanes.filter (bit x.txSet)
  let symbols := rsEncode bits
  let lanes := (rangeFrom 0 set.length).map fun k => (set.getD k 0, stripe symbols set.length k)
  let s := if nearLoop s p then later (.looped p) s else emit (.codeword p lanes) s
  let s := foldSt (fun e s => setLane p e.1 (fun n => { n with
    txBip := Nat.xor n.txBip (bip8 (680 / set.length) e.2) }) s) lanes s
  let due : Bool := markerSpacing s p ≤ x.codewords + 1
  let s := setLanes p (fun x => { x with
    codewords := if due then 0 else x.codewords + 1
    mcount := if due then (x.mcount + 1) % 256 else x.mcount }) s
  let s := when_ due (markLanes p x.txSet false set) s
  when_ (x.widenTo.isSome && x.warm)
    (markLanes p x.txSet true (allLanes.filter fun l => (laneOf x l).widening)) s

/-- The scrambler x^58 + x^39 + 1 over 32 bits: each output bit is the input with the outputs 39 and 58 before
it; `h` holds the last 58 of them. -/
def scramble32 (h b : Nat) : Nat :=
  Nat.xor (b % 2 ^ 32) (Nat.xor (h / 2 ^ 7 % 2 ^ 32) (h / 2 ^ 26 % 2 ^ 32))

/-- Scramble `32 * n` bits: the history after them, and the scrambled bits after `acc`. -/
def scramble : Nat → Nat → Nat → Nat → Nat × Nat
  | 0, h, _, acc => (h, acc)
  | n + 1, h, b, acc =>
    let o := scramble32 h (b / 2 ^ (32 * n))
    scramble n ((h * 2 ^ 32 + o) % 2 ^ 58) b (acc * 2 ^ 32 + o)

/-- A cell of 2 176 bits joins the stream; cells lie end to end in the payloads of codewords. -/
def streamCell (p bits : Nat) (s : State) : State :=
  let x := portLanes s p
  let (h, w) := scramble 68 x.scrambler bits x.waiting
  let n := x.waitingLen + 2176
  let put (w n : Nat) (s : State) : State :=
    setLanes p (fun x => { x with scrambler := h, waiting := w, waitingLen := n }) s
  if n < 5140 then put w n s
  else sendCodeword p (w / 2 ^ (n - 5140)) (put (w % 2 ^ (n - 5140)) (n - 5140) s)

/-! ### Markers received (R353 to R355) -/

/-- Is a marker valid: SYNC, MCRC, and nothing in its reserved bits (R9)? -/
def markerValid (m : Nat) : Bool :=
  fld m 127 80 == 0x5B2CE8719A0D && fld m 15 0 == markerCrc m 112 && fld m 39 16 == 0

/-- A running eye scan of a sector aborts where its lane is outside the peer's transmit set or its port is in a
loopback mode (R367). -/
def judgeScan (k : Nat) (s : State) : State :=
  let c : EyeScan := sget {} s.px.scans k
  let p := fld c.cmd 127 121
  if c.status = 1 && (!bit (portLanes s p).peerTxSet (fld c.cmd 120 119) || rc s 0x5030 p != 0) then
    { s with px := { s.px with scans := sset {} s.px.scans k { c with status := 3 } } }
  else s

/-- The set on which the receiver stripes: taken from TX_SET where it has none or has failed to decode 64
codewords, and changed by an announcement from the next codeword on (R363). -/
def peerSet (x : PortLanes) (m : Nat) : Nat :=
  let tx := fld m 70 67
  let base := if x.peerTxSet = 0 || 64 ≤ x.badCodewords then tx else x.peerTxSet
  if fld m 66 63 = tx then base else fld m 66 63

/-- An alignment marker arrives on receive lane `l` (R353 to R355, R363): `scheduled`, at the spacing of the
schedule; `bips`, the bits of its BIP8 and of the lane's parity found to differ.  A marker outside the
schedule counts neither for nor against the three of marker lock, but on a lane outside the sender's set, where
a widening sends nothing but back-to-back markers (DEDUCED, assumption 226).  A far-end return sends it back. -/
def markerArrive (p l m : Nat) (scheduled : Bool) (bips skew : Nat) (s : State) : State :=
  if !markerValid m || !receiving s p then s
  else
    let s := when_ (farLoop s p) (emit (.marker p l m)) s
    let port := fld m 79 73
    let lane := fld m 72 71
    let s := setLane p l (fun n =>
      let n := { n with bipNow := bips, bip := (n.bip + bips) % 2 ^ 32, skew := skew % 2 ^ 16 }
      let adding := bit m 57 && !bit (fld m 70 67) lane
      if bit m 57 && !adding then n
      else
        let again := (scheduled || adding) && n.goodMarkers != 0 && n.lastPort == port && n.lastLane == lane
        { n with
          goodMarkers := if again then min (n.goodMarkers + 1) 3 else 1, lastPort := port, lastLane := lane }) s
    -- PORT equal across the lanes, LANE distinct
    let x := portLanes s p
    let agree := allLanes.all fun k => k == l || (laneOf x k).goodMarkers == 0 ||
      ((laneOf x k).lastPort == port && (laneOf x k).lastLane != lane)
    let s := setLane p l (fun n => { n with markerLock := n.markerLock || (3 ≤ n.goodMarkers && agree && skew ≤ 1024) }) s
    let s := refreshGood p s
    let s := setLanes p (fun x => { x with
      peerTxSet := peerSet x m, badCodewords := if 64 ≤ x.badCodewords then 0 else x.badCodewords
      peerSynt := bit m 58 }) s
    judgeScan (p / 8) (lullEvaluate p (setPeerGood p (fld m 62 59) s))

/-- A lane loses CDR lock or marker lock; the scan on it aborts (R355, R367). -/
def laneLost (p l : Nat) (cdr : Bool) (s : State) : State :=
  let s := setLane p l (fun n =>
    if cdr then { n with cdr := false, markerLock := false, goodMarkers := 0 }
    else { n with markerLock := false, goodMarkers := 0 }) s
  let s := when_ cdr (abortScan p (fun k => k == l)) s
  refreshGood p s

/-- Does a lane have a signal: receive power above the threshold, or what a near-end loopback returns? -/
def hasSignal (s : State) (p : Nat) (power : Int) : Bool := nearLoop s p || rcInt s 0x5064 0 < power

/-- A lane's receive power is below the threshold: without signal it has no CDR lock (DEDUCED). -/
def signalLost (p l : Nat) (power : Int) (s : State) : State :=
  when_ (!nearLoop s p && power < rcInt s 0x5064 0) (laneLost p l true) s

/-- A slip of the receive symbol boundary: on a lane with CDR lock, marker lock is lost until it is found
again (R365). -/
def bitSlip (p l : Nat) (s : State) : State :=
  if (laneOf (portLanes s p) l).cdr then laneLost p l false s else s

/-! ### Eye scan (R367) -/

def setScan (k : Nat) (f : EyeScan → EyeScan) (s : State) : State :=
  { s with px := { s.px with scans := smod {} s.px.scans k f } }

/-- The eye scan command.  A command whose port does not exist has no sector. -/
def eyeScan (cmd : Nat) (s : State) : State :=
  let p := fld cmd 127 121
  if 72 ≤ p then s
  else if fld cmd 118 117 = 3 || fld cmd 102 95 = 0 || fld cmd 94 0 ≠ 0 then
    setScan (p / 8) (fun _ => { status := 4, cmd := cmd }) s
  else setScan (p / 8) (fun _ => { status := 1, cmd := cmd }) s

/-- A running scan ends. -/
def eyeScanDone (k errors : Nat) (s : State) : State :=
  setScan k (fun c =>
    if c.status ≠ 1 then c
    else
      let p := fld c.cmd 127 121
      let l := fld c.cmd 120 119
      let x := portLanes s p
      let usable := (laneOf x l).cdr && bit x.peerTxSet l && rc s 0x5030 p = 0
      let n := fld c.cmd 102 95 * 2 ^ 20
      if usable then { c with status := 2, compared := n, errors := min errors n } else { c with status := 3 }) s

/-- The bits of 0x5051:k. -/
def scanBits (c : EyeScan) : Nat := c.status * 2 ^ 184 + fld c.cmd 127 72 * 2 ^ 128 + c.compared * 2 ^ 64 + c.errors

/-! ### Codewords (R352, R359, R363) -/

/-- Is step 5 of Table 12-4 under way: RX_GOOD is not empty, and every lane of the peer's set is good here? -/
def aligned (x : PortLanes) : Bool :=
  x.rxGood != 0 && x.peerTxSet != 0 && Nat.land x.peerTxSet x.rxGood == x.peerTxSet

/-- The FEC counters of a codeword with `e` symbol errors. -/
def countFec (p e : Nat) (s : State) : State :=
  if e = 0 then s else if e ≤ 15 then bump 0x5040 p (bumpBy 0x5042 p e s) else bump 0x5041 p s

/-- A codeword with the given symbol errors by lane; `cells` cells overlap it.  In a test the checker counts, and
for FRAMED the FEC counters do (R366); a far-end return sends the symbols back.  On a port of the fabric
codewords are decoded once lanes are good, and count towards FEC lock from step 5 of Table 12-4 on. -/
def codeword (p : Nat) (errs : List Nat) (cells : Nat) (s : State) : State :=
  let e := sumBy id errs
  if testing s p then
    let s := when_ (farLoop s p) (emit (.returned p)) s
    let s := when_ (rc s 0x5031 p = 3) (countFec p e) s
    when_ (rc s 0x5031 p != 0) (foldSt (fun l s =>
      setLane p l (fun n => { n with errors := (n.errors + errs.getD l 0) % 2 ^ 64 }) s) allLanes) s
  else
    let x := portLanes s p
    if !framed s p || x.rxGood = 0 then s
    else
      let s := when_ (15 < e) (bumpBy 0x5822 p cells) (countFec p e s)
      setLanes p (fun x =>
        if e ≤ 15 then { x with
          goodCodewords := if aligned x then min (x.goodCodewords + 1) 8 else 0, badCodewords := 0 }
        else { x with goodCodewords := 0, badCodewords := min (x.badCodewords + 1) 64 }) s

/-- Is FEC lock reached: eight codewords in a row in step 5 of Table 12-4? -/
def fecReady (s : State) (p : Nat) : Bool :=
  let x := portLanes s p
  x.bringUp == .framed && x.goodCodewords == 8 && aligned x

/-! ### Status words -/

def txStatus (s : State) (p : Nat) : Nat :=
  let x := portLanes s p
  x.txSet + x.txSet * 16 + x.peerRxGood * 256 + b2n (compensating s p && x.bringUp != .off) * 4096
    + b2n (syntonized s) * 8192

def rxStatus (s : State) (p : Nat) : Nat :=
  let x := portLanes s p
  laneBits (fun l => (laneOf x l).cdr) + laneBits (fun l => (laneOf x l).markerLock) * 16 + x.rxGood * 256
    + x.peerTxSet * 4096 + b2n x.fecLock * 65536 + b2n (compensating s p && x.bringUp != .off) * 131072

def laserState (s : State) (p : Nat) : Nat :=
  let x := portLanes s p
  laneBits (fun l => (laneOf x l).laser) + laneBits (fun l => (laneOf x l).laserFault) * 16
    + laneBits (fun l => (laneOf x l).endOfLife) * 256

def opticalStatus (s : State) (k : Nat) : Nat :=
  b2n (domOn s (dOE k)) + b2n (lasersAllowed s) * 2 + b2n (domOn s (dOE k) && !s.px.hot.contains k) * 4
    + sumBy (fun i => if (portLanes s (8 * k + i)).lanes.any (fun l => l.2.laser) then 2 ^ i else 0) (rangeFrom 0 8) * 256

end Sys2Proof.Machine
end

