-- ==== Sys2Proof/Machine/LinkLayer.lean ====
section
/-!
DEFINITION. The link layer: cells, replay, training exchange, link states, flush (R320 to R348).
-/
namespace Sys2Proof.Machine

def portLink (s : State) (p : Nat) : PortLink := sget {} s.ll.ports p

def setPL (p : Nat) (f : PortLink → PortLink) (s : State) : State :=
  { s with ll := { s.ll with ports := smod {} s.ll.ports p f } }

/-- Distance of sequence numbers modulo 2^16. -/
def seqDiff (a b : Nat) : Nat := (a + 65536 - b % 65536) % 65536

/-! ### Cells (R320 to R323) -/

def kIDLE : Nat := 0
def kDATA : Nat := 1
def kCREDIT : Nat := 2
def kMARK : Nat := 3
def kREPLY : Nat := 4
def kTRAIN : Nat := 5

/-- The bytes of a packet: header and payload (R235). -/
def packetBytes (pk : Packet) : List Byte := beBytes 64 (hdrBits pk) ++ pk.payload

/-- Cut bytes into payloads of 256 bytes; the last is filled with zeros (R323). -/
def cutCells : Nat → List Byte → List (List Byte)
  | 0, _ => []
  | n + 1, bs =>
    let c := bs.take 256
    if bs.isEmpty then [] else (c ++ List.replicate (256 - c.length) 0) :: cutCells n (bs.drop 256)

def packetCells (pk : Packet) : List (List Byte) := cutCells 17 (packetBytes pk)

/-- A cell header (Table 11-1). -/
def cellHdr (kind vc : Nat) (sop eop : Bool) (seq ack nak : Nat) (cra crb : Nat × Nat) : Nat :=
  kind * 2 ^ 92 + vc * 2 ^ 87 + b2n sop * 2 ^ 86 + b2n eop * 2 ^ 85 + seq % 2 ^ 16 * 2 ^ 69
    + ack % 2 ^ 16 * 2 ^ 53 + nak % 2 ^ 16 * 2 ^ 37 + cra.1 * 2 ^ 32 + cra.2 * 2 ^ 26 + crb.1 * 2 ^ 21
    + crb.2 * 2 ^ 15

/-- The CRC of a cell: over its 268 bytes before it (R320). -/
def cellCrc (hdr : Nat) (payload : List Byte) : Nat := crc32c (beBytes 12 hdr ++ payload)

/-- NAK_MAP: cell NEXT + i is missing while some cell beyond it is held (R330). -/
def nakMap (x : PortLink) : Nat :=
  let top := x.store.foldl (fun m c => max m (seqDiff c.seq x.rxNext)) 0
  if x.store.isEmpty then 0
  else sumBy (fun i => if i < top && !x.store.any (fun c => seqDiff c.seq x.rxNext == i) then 2 ^ i else 0)
    (rangeFrom 0 16)

/-- A cell leaves the port; ACK, NAK_MAP and CRC are fresh (R326). -/
def sendCell (p kind vc : Nat) (sop eop : Bool) (seq : Nat) (cra crb : Nat × Nat) (payload : List Byte)
    (s : State) : State :=
  let x := portLink s p
  let h := cellHdr kind vc sop eop seq x.rxNext (nakMap x) cra crb
  let c := cellCrc h payload
  streamCell p (beNat (beBytes 12 h ++ payload ++ beBytes 4 c)) (emit (.cell p h payload c) (bump 0x5820 p s))

def zeros256 : List Byte := List.replicate 256 0

/-- An IDLE cell; the first sixteen slots after a sequenced cell are counted (R335). -/
def sendIdle (p : Nat) (s : State) : State :=
  let s := setPL p (fun x => { x with sinceSeq := x.sinceSeq + 1 }) s
  sendCell p kIDLE 0 false false 0 (0, 0) (0, 0) zeros256 s

/-! ### Credit returns (R334, R335) -/

/-- Of some VCs, the one with the most pending returns; the lowest number among equals. -/
def topVcOf (s : State) (p : Nat) (vs : List Nat) : Nat :=
  vs.foldl (fun b v => if (vcBook s p b).waiting < (vcBook s p v).waiting then v else b) (vs.headD 0)

def topVc (s : State) (p : Nat) : Nat := topVcOf s p (rangeFrom 0 20)

/-- One credit field: the returns of a VC, up to 63. -/
def takeReturn (p v : Nat) (s : State) : (Nat × Nat) × State :=
  let n := min 63 (vcBook s p v).waiting
  if n = 0 then ((0, 0), s)
  else ((v, n), setVc p v (fun b => { b with waiting := b.waiting - n, sent := (b.sent + n) % 2 ^ 24 }) s)

/-- Is a CREDIT cell due? -/
def creditDue (s : State) (p : Nat) : Bool :=
  let x := portLink s p
  let n := (vcBook s p (topVc s p)).waiting
  63 ≤ n || (0 < n && (16 ≤ x.sinceSeq || x.granting))

/-! ### Sending (R325 to R329) -/

/-- T_N and T_R (R331, R332). -/
def holdoff (s : State) (p : Nat) : Nat := max (rc s 0x5813 0) (portLink s p).rtt
def replayTime (s : State) (p : Nat) : Nat := max (rc s 0x5811 0) (2 * (portLink s p).rtt)

/-- A transmission starts the timers of its cell under the limits then live (R349). -/
def cellTimers (s : State) (p : Nat) (c : SCell) : SCell :=
  { c with
    due := false, quietTo := ticks s + holdoff s p, timeoutAt := ticks s + replayTime s p
    allowed := rc s 0x5815 0 }

/-- First transmission of a sequenced cell: it takes credit returns and a replay slot. -/
def sendSeq (p kind vc : Nat) (sop eop : Bool) (payload : List Byte) (s : State) : State :=
  -- the two VCs with the most pending returns
  let a := topVc s p
  let b := topVcOf s p ((rangeFrom 0 20).filter fun v => v != a)
  let (cra, s) := takeReturn p a s
  let (crb, s) := takeReturn p b s
  let x := portLink s p
  let c : SCell := cellTimers s p
    { kind := kind, vc := vc, sop := sop, eop := eop, seq := x.txNext, cra := cra, crb := crb, payload := payload }
  let more := (vcBook s p (topVc s p)).waiting != 0
  let s := setPL p (fun x => { x with
    txNext := (x.txNext + 1) % 65536
    replay := x.replay ++ [c]
    sinceSeq := 0
    granting := x.granting && more }) s
  sendCell p kind vc sop eop c.seq cra crb payload s

/-- DATA cells in replay. -/
def dataInReplay (x : PortLink) : Nat := (x.replay.filter fun c => c.kind == kDATA).length

/-- May FS start a packet of `cost` cells on the port (R295, R327, R343)? -/
def mayStartPacket (s : State) (p cost : Nat) : Bool :=
  let x := portLink s p
  x.state == .active && x.current.isNone && dataInReplay x + cost ≤ 1008

/-- T1 or T3 of a TIME packet is the MT at which it crosses the lane boundary (R29, R253). -/
def timeStamped (s : State) (pk : Packet) : Packet :=
  if pk.type != tTIME then pk
  else if tmKIND pk = 0 then { pk with th := setFld pk.th 255 192 (now s) }
  else { pk with th := setFld pk.th 127 64 (now s) }

/-- PACKET_START: FS picks a packet, and it becomes the packet in progress. -/
def packetStart (p : Nat) (s : State) : State :=
  let s := settleTags p s
  match pickStart s p with
  | none => s
  | some q =>
    if mayStartPacket s p q.cost then
      let s := bumpPortVc p q.packet.vc 0 1 (chargeStart p q s)
      let g : InProgress := { packet := q.packet, cells := packetCells q.packet }
      assignTags p (setPL p (fun x => { x with current := some g }) s)
    else s

/-- The next cell of the packet in progress. -/
def sendDataCell (p : Nat) (g : InProgress) (s : State) : State :=
  let pk := timeStamped s g.packet
  let g : InProgress := if g.first then { g with packet := pk, cells := packetCells pk } else g
  match g.cells with
  | [] => setPL p (fun x => { x with current := none }) s
  | c :: r =>
    let s := setLanes p (fun x => { x with dwellPayload := x.dwellPayload + 256 }) s
    let eop := r.isEmpty
    let seq := (portLink s p).txNext
    let s := bumpPortVc p g.packet.vc 1 1 (sendSeq p kDATA g.packet.vc g.first eop c s)
    if eop then
      let s := bumpPort p 9 1 (bumpPort p 11 g.packet.payload.length s)
      let lane := (g.packet.type == tLANEDATA && lLAST g.packet) || g.packet.type == tLANEREL
      let s := when_ lane (later (.laneOut p g.packet)) s
      later (.left g.packet) (setPL p (fun x => { x with
        current := none
        committed := x.committed ++ [(seq, g.packet)] }) s)
    else setPL p (fun x => { x with current := some { g with cells := r, first := false } }) s

/-- Retransmit the first cell that is due (R331, R332). -/
def sendReplay (p : Nat) (c : SCell) (s : State) : State :=
  let s := setPL p (fun x => { x with
    sinceSeq := 0
    replay := updFirst (fun d => d.seq == c.seq) (cellTimers s p) x.replay }) s
  sendCell p c.kind c.vc c.sop c.eop c.seq c.cra c.crb c.payload s

/-- A pending control cell, in the order SYNC_REPLY, SYNC_MARK, CREDIT; none: nothing was sent. -/
def sendControl (p : Nat) (s : State) : Option State :=
  let x := portLink s p
  match x.replies with
  | r :: rest => some (sendSeq p kREPLY 0 false false r (setPL p (fun x => { x with replies := rest }) s))
  | [] =>
    if x.markDue then
      let s := setPL p (fun x => { x with markDue := false }) s
      let pl := markerPayload s p
      some (sendSeq p kMARK 0 false false pl (setFlow p (fun x => { x with markerSeq := (x.markerSeq + 1) % 256 }) s))
    else if creditDue s p then some (sendSeq p kCREDIT 0 false false zeros256 s)
    else none

/-- One cell slot of an ACTIVE link (R329, R358). -/
def activeSlot (p : Nat) (s : State) : State :=
  let x := portLink s p
  let y := portLanes s p
  let comp := compensating s p && 240 ≤ y.sinceComp &&
    (match x.current with | some g => g.first | none => true)
  if comp then
    sendIdle p (setLanes p (fun y => { y with sinceComp := 0, compSent := y.compSent + 1 }) s)
  else
    let s := setLanes p (fun y => { y with sinceComp := y.sinceComp + 1 }) s
    let full := 1024 ≤ x.replay.length
    match x.replay.find? fun c => c.due with
    | some c => sendReplay p c s
    | none =>
      match x.current with
      | some g =>
        if !g.first && !full then sendDataCell p g s
        else if full then sendIdle p (bump 0x582F p s)
        else match sendControl p s with
          | some s => s
          | none => sendDataCell p g s
      | none =>
        if full then
          let waits := !x.replies.isEmpty || x.markDue || creditDue s p || !(portFlow s p).queue.isEmpty
          sendIdle p (when_ waits (bump 0x582F p) s)
        else match sendControl p s with
          | some s => s
          | none =>
            let stalled := match pickStart s p with
              | some q => decide (1008 < dataInReplay x + q.cost)
              | none => false
            sendIdle p (when_ stalled (bump 0x582F p) s)

/-! ### Training (R338 to R340, R344) -/

/-- Is the port in a training exchange? -/
def exchanging (s : State) (p : Nat) : Bool :=
  let x := portLink s p
  (portLanes s p).bringUp == .locked && (x.state == .exchange || x.state == .resuming || x.state == .held)

/-- Does this end ask to resume? -/
def offersResume (x : PortLink) : Bool := x.state == .resuming && x.session != 0

/-- The training record (Table 11-5) as a 2 048-bit number. -/
def trainRecord (s : State) (p : Nat) : Nat :=
  let x := portLink s p
  let r := offersResume x
  let echo := match x.peerRec with | some m => fld m 1919 1856 | none => 0
  0x0301 * 2 ^ 2032 + ownNode s % 2 ^ 20 * 2 ^ 2012 + p * 2 ^ 2005 + b2n x.peerRec.isSome * 2 ^ 2004
    + b2n r * 2 ^ 2003 + (if r then x.session else 0) * 2 ^ 1968 + x.proposal * 2 ^ 1936
    + (if r then x.rxNext else 0) * 2 ^ 1920 + now s % 2 ^ 64 * 2 ^ 1856 + echo * 2 ^ 1792
    + (if echo = 0 then 0 else sat 32 (ticks s - x.peerRecAt)) * 2 ^ 1760

/-- Begin an exchange: a fresh proposal, never 0 (R338). -/
def beginExchange (p : Nat) (s : State) : State :=
  let (v, s) := draw (2 ^ 32 - 1) s
  setPL p (fun x => { x with
    proposal := v + 1, peerRec := none, peerRecAt := 0, samples := [], peerSeen := false, sentSeen := false
    rttLimit := rc s 0x5814 0, sinceTrain := 256 }) s

/-- Mean of a list. -/
def mean (l : List Nat) : Nat := if l.isEmpty then 0 else sumBy id l / l.length

/-! ### Flush (R346) -/

/-- The header bytes that a loss notice carries, and the notice. -/
def lossNotice (s : State) (p : Nat) (pk : Packet) : Packet where
  type := tLOSS
  vc := 0
  dest := pk.source
  source := ownIdentity s 0
  tenant := pk.tenant
  tclass := pk.tclass
  stamp := if timeFree s then 0 else now s
  th := 2 ^ 248 + p * 2 ^ 240
  payload := beBytes 64 (hdrBits pk)

/-- Do two discarded packets share one notice (R247)? -/
def oneNotice (a b : Packet) : Bool :=
  if a.type == tCOLL || b.type == tCOLL then false
  else if a.type == tLANEDATA || b.type == tLANEDATA then
    a.type == b.type && lORIGIN a == lORIGIN b && lLNUM a == lLNUM b
  else a.source == b.source && a.dest == b.dest && a.tenant == b.tenant && pRSN a == pRSN b

/-- The packet of a group that the notice names: lowest OFFSET, or lowest SEQ. -/
def lowerNotice (a b : Packet) : Packet :=
  if a.type == tLANEDATA then (if lSEQ b < lSEQ a then b else a)
  else if pOFFSET b < pOFFSET a then b else a

/-- The packets to notice, combined. -/
def combineNotices : List Packet → List Packet → List Packet
  | acc, [] => acc
  | acc, pk :: r =>
    if acc.any (oneNotice pk) then
      combineNotices (acc.map fun a => if oneNotice a pk then lowerNotice a pk else a) r
    else combineNotices (acc ++ [pk]) r

/-- Send the notices of a flush; one for this module goes to its unit at once. -/
def sendNotices (p : Nat) (pks : List Packet) (s : State) : State :=
  foldSt (fun pk s =>
    let n := lossNotice s p pk
    let s := bump 0x582D p s
    if idNode n.dest = ownNode s then deliver n s else injectPacket n s) (combineNotices [] pks) s

/-- Received packets no longer occupy the buffer of a flushed port (R300). -/
def releaseBuffers (p : Nat) (s : State) : State :=
  let s := { s with rt := { s.rt with ingress := s.rt.ingress.map fun i => if i.port = p then { i with held := false } else i } }
  forRange 0 72 (fun q s =>
    if (portFlow s q).queue.any fun k => k.from_ == some p then
      setFlow q (fun x => { x with queue := x.queue.map fun k => if k.from_ == some p then { k with from_ := none } else k }) s
    else s) s

/-- Is a packet bound to a lane path? -/
def isLane (t : Nat) : Bool := 0x38 ≤ t && t ≤ 0x3B

/-- A queued packet goes back to the lookup, as it was before this egress; it keeps its TEPOCH.  A lane packet's
path knows no other port: it is discarded there (R291; DEDUCED, assumption 171). -/
def reroute (p : Nat) (q : QPkt) (s : State) : State :=
  let pk := q.packet
  let s := bump 0x582C p s
  let back := { pk with hops := pk.hops - 1 }
  if isLane pk.type then bump 0x6061 0 (leaveQueued q s)
  else
    let (r, applied, ignored) := routeOf s back
    let s := bumpBy 0x6064 0 applied (bumpBy 0x6065 0 ignored s)
    match r with
    | .port c =>
      let s := when_ c.cross (fun s => bumpPort c.port 13 1 (bump 0x6060 0 s)) s
      enqueue c.port pk.tclass q.from_ { back with
        hops := back.hops + 1
        vc := nextVC back
        detour := if c.cross then Nat.lor back.detour (2 ^ c.dim) else back.detour } s
    | .stale => bump 0x6062 0 (leaveQueued q s)
    | _ => unroutable (back.hops == 0 && q.from_.isNone) back (leaveQueued q s)

/-- Flush a port (R346); its route state no longer lets a lookup choose it. -/
def flush (p : Nat) (s : State) : State :=
  let x := portLink s p
  let queued := (portFlow s p).queue
  let s := setFlow p (fun f => { f with queue := [] }) s
  -- 1. queued packets are routed again
  let s := foldSt (reroute p) queued s
  -- 2. packets in replay and the packet in progress are discarded; the notice of a lane covers the packets
  -- that were queued too (R291)
  let gone := x.committed.map (fun c => c.2) ++ (match x.current with | some g => [g.packet] | none => [])
  let lanes := (queued.filter fun q => isLane q.packet.type).map fun q => q.packet
  let s := bumpBy 0x582B p gone.length s
  let s := sendNotices p ((gone ++ lanes).filter fun k => isNoticed k.type) s
  -- 3., 4. receive state, replay, sequences, session and credits
  let s := setPL p (fun x => { x with
    current := none, replies := [], markDue := false, granting := false, sinceSeq := 0
    txNext := 0, replay := [], committed := [], rxNext := 0, store := [], assembling := []
    timeouts := 0, session := 0 }) s
  later (.lanesFlushed p) (bump 0x582A p (zeroCredits p (releaseBuffers p s)))

/-- Flush with the port back in TRAINING; lanes restart bring-up and the link is in LANES (R341).  What its
peer has told TB ends with the link. -/
def flushRetrain (p : Nat) (s : State) : State :=
  match (portLink s p).state with
  | .off => s
  | _ =>
    let s := flush p (portFlushed p s)
    later (.peerGone p) (startBringUp p (setPL p (fun x => { x with state := .lanes }) s))

/-- A link goes down: RESUMING for the grace period (R341 to R343).  Only an ACTIVE link does (R342): Table 11-6
has no row for a loss of lanes in another state, and there the lanes lock again by themselves. -/
def linkDown (p : Nat) (s : State) : State :=
  match (portLink s p).state with
  | .active =>
    let s := setPL p (fun x => { x with
      state := .resuming
      deadline := ticks s + ticksOf (rc s 0x5810 0) 1000
      timeouts := 0 }) (bump 0x5828 p s)
    -- with a peer that departs, or a route enable of 0, the lanes of the port end here (R291, R292)
    let s := when_ ((portRoute s p).state != .up || !bit s.rt.live.enables p) (later (.lanesFlushed p)) s
    later (.peerGone p) (startBringUp p (portDown p s))
  | .off | .lanes | .exchange | .held | .resuming => s

/-- A link leaves HELD: its reason and its fault conditions end (R344). -/
def leaveHeld (p : Nat) (s : State) : State :=
  if (portLink s p).state == .held then
    endCondition 12 p (endCondition 13 p (setPL p (fun x => { x with holdReason := 0 }) s))
  else s

/-- The port becomes DISABLED: flush without grace, lanes off (R341, R264). -/
def disablePort (p : Nat) (s : State) : State :=
  match (portLink s p).state with
  | .off => setPortState p .disabled s
  | _ =>
    let s := setPortState p .disabled (clearMasks p (leaveHeld p s))
    let s := flush p (setPort p (fun x => { x with peer := none }) s)
    later (.peerGone p) (lanesOff p (setPL p (fun x => { x with state := .off }) s))

/-- The port becomes DIRECT or BONDED: training starts (R264, R341). -/
def enablePort (p : Nat) (s : State) : State :=
  match (portLink s p).state with
  | .off => startBringUp p (setPortState p .training (setPL p (fun x => { x with state := .lanes }) s))
  | _ => s

/-- Lanes are locked and aligned: the exchange starts (Table 12-4 step 6). -/
def lanesLocked (p : Nat) (s : State) : State :=
  let s := setLanes p (fun x => { x with
    bringUp := .locked, fecLock := true, restartAt := none, crossing := crossingGoal s p }) s
  match (portLink s p).state with
  | .lanes => beginExchange p (setPL p (fun x => { x with state := .exchange }) s)
  | .resuming => beginExchange p s
  | _ => s

/-! ### Acknowledgement (R325, R331, R332) -/

/-- Free the replay slots before `a`. -/
def ackTo (p a : Nat) (s : State) : State :=
  setPL p (fun x =>
    let before (q : Nat) : Bool := 0 < seqDiff a q && seqDiff a q ≤ 32768
    let keep := x.replay.filter fun c => !before c.seq
    if keep.length = x.replay.length then x
    else { x with
      replay := keep
      committed := x.committed.filter fun c => !before c.1
      timeouts := 0 }) s

/-- The cells that a NAK_MAP asks for again become due. -/
def nakTo (p a nak : Nat) (s : State) : State :=
  let t := ticks s
  let asked (c : SCell) : Bool := seqDiff c.seq a < 16 && bit nak (seqDiff c.seq a) && c.quietTo ≤ t && !c.due
  let n := ((portLink s p).replay.filter asked).length
  bumpBy 0x5823 p n (setPL p (fun x => { x with
    replay := x.replay.map fun c => if asked c then { c with due := true } else c }) s)

/-- Every cell in replay becomes due. -/
def replayAll (p : Nat) (s : State) : State :=
  setPL p (fun x => { x with replay := x.replay.map fun c => { c with due := true } }) s

/-! ### The end of an exchange (R340) -/

/-- When a silence that begins now is too long (R342). -/
def silentFrom (s : State) : Nat := ticks s + rc s 0x5812 0

def exchangeDone (p : Nat) (s : State) : State :=
  let x := portLink s p
  match x.peerRec with
  | none => s
  | some m =>
    if !(exchanging s p && x.state != .held && x.sentSeen && x.peerSeen && 16 ≤ x.samples.length) then s
    else
      let rtt := mean (x.samples.take 16)
      let epoch := fld m 2047 2032
      let s := setPL p (fun x => { x with rtt := rtt, peerEpoch := epoch, minor := min 1 (epoch % 256) }) s
      let hold (reason src data : Nat) (s : State) : State :=
        let s := if x.session ≠ 0 then flush p (portFlushed p s) else s
        raiseFault src p data (setPL p (fun x => { x with
          state := .held, holdReason := reason, deadline := ticks s + 2 ^ 32 }) s)
      if epoch / 256 ≠ 3 then hold 1 12 epoch s
      else if x.rttLimit < rtt then hold 2 13 rtt s
      else
        let next := fld m 1935 1920
        let oldest := match x.replay.head? with | some c => c.seq | none => x.txNext
        let resumed := offersResume x && bit m 2003 && fld m 1999 1968 == x.session &&
          seqDiff next oldest ≤ seqDiff x.txNext oldest
        if resumed then
          let s := replayAll p (ackTo p next s)
          let s := setPL p (fun x => { x with state := .active, silentAt := silentFrom s, timeouts := 0, holdReason := 0, sampleAt := ticks s + 2 ^ 32 }) s
          later .peers (portBack p (bump 0x5829 p s))
        else
          -- a fresh establishment within the grace period is a return to ACTIVE too (Table 11-6)
          let s := when_ (x.state == .resuming) (bump 0x5829 p) s
          let s := if x.session ≠ 0 then flush p (portFlushed p s) else s
          let ses := Nat.xor x.proposal (fld m 1967 1936)
          let s := setPL p (fun x => { x with
            state := .active, session := if ses = 0 then 1 else ses, silentAt := silentFrom s, holdReason := 0
            sampleAt := ticks s + 2 ^ 32
            txNext := 0, rxNext := 0, replay := [], committed := [], store := [], assembling := []
            granting := true, timeouts := 0 }) s
          later .peers (portTrained p (fld m 2031 2012) (grantPools p s))

/-- One cell slot during an exchange: a TRAIN cell every 256 slots, IDLE cells in between (R339). -/
def exchangeSlot (p : Nat) (s : State) : State :=
  let x := portLink s p
  if 256 ≤ x.sinceTrain + 1 then
    let r := trainRecord s p
    let s := setPL p (fun x => { x with sinceTrain := 0, sentSeen := x.sentSeen || x.peerRec.isSome }) s
    exchangeDone p (sendCell p kTRAIN 0 false false 0 (0, 0) (0, 0) (beBytes 256 r) s)
  else sendIdle p (setPL p (fun x => { x with sinceTrain := x.sinceTrain + 1 }) s)

/-- One cell slot of the framed test stream: an IDLE cell, which no link layer has sent (R366). -/
def testSlot (p : Nat) (s : State) : State :=
  let h := cellHdr kIDLE 0 false false 0 0 0 (0, 0) (0, 0)
  let c := cellCrc h zeros256
  streamCell p (beNat (beBytes 12 h ++ zeros256 ++ beBytes 4 c))
    (if nearLoop s p then s else emit (.cell p h zeros256 c) s)

/-- One cell slot (R329, R339). -/
def cellSlot (p : Nat) (s : State) : State :=
  let s := when_ (allLanes.any fun l => (laneOf (portLanes s p) l).drop == .load) (bumpPort p 14 1) s
  let s := when_ ((portLink s p).state == .resuming) (bumpPort p 15 1) s
  if testFramed s p then testSlot p s
  else if !framed s p then s
  else if (portLink s p).state == .active then activeSlot p (countHeld p s)
  else if exchanging s p then exchangeSlot p s
  else sendIdle p s

/-! ### Receiving (R324, R330, R333) -/

/-- The receiving port's header checks (R255). -/
def headerBad (s : State) (pk : Packet) (whole : Bool) : Bool :=
  !whole || !isType pk.type || pk.hops = 0 || 8 < pk.hops || pk.vc != vcFor pk.type pk.hops ||
    !payloadOk pk.type pk.payload.length || pk.rsvd != 0 || !thReservedOk pk || pk.colour = 3 ||
    nodeBad s (idNode pk.dest)

/-- The packet that the payloads of its cells spell; whether they hold LENGTH bytes. -/
def assemble (cells : List (List Byte)) : Packet × Bool :=
  let bs := cells.flatten
  let h := beNat (bs.take 64)
  let n := fld h 383 372
  (packetOfBits h (slice bs 64 n), 64 + n ≤ bs.length && (64 + n + 255) / 256 = cells.length)

/-- Apply a credit field (R334). -/
def applyCredit (p : Nat) (c : Nat × Nat) (s : State) : State :=
  if c.2 = 0 then s
  else noteWait p c.1
    (setVc p c.1 (fun b => { b with credit := b.credit + c.2, seen := (b.seen + c.2) % 2 ^ 24 }) s)

/-- Release one cell in sequence. -/
def releaseCell (p : Nat) (c : RCell) (s : State) : State :=
  let s := applyCredit p c.crb (applyCredit p c.cra s)
  if c.kind = kDATA then
    let s := setVc p c.vc (fun b => { b with occ := b.occ + 1 }) s
    let cells := if c.sop then [c.payload] else (portLink s p).assembling ++ [c.payload]
    if !c.eop then setPL p (fun x => { x with assembling := cells }) s
    else
      let s := setPL p (fun x => { x with assembling := [] }) s
      let (pk, whole) := assemble cells
      if headerBad s pk (whole && pk.vc == c.vc) then bump 0x5827 p (freeCells p c.vc cells.length s)
      else
        let s := bumpPort p 10 1 (bumpPort p 12 pk.payload.length s)
        { s with rt := { s.rt with ingress := s.rt.ingress ++ [{ port := p, packet := pk, arrived := c.arrived }] } }
  else if c.kind = kMARK then
    if !markerOk c.payload then s
    else
      let (reply, s) := evalMarker p c.payload s
      let s := setPL p (fun x => { x with replies := x.replies ++ [reply] }) s
      when_ (3 ≤ (portFlow s p).badMarkers) (later (.flushPort p)) s
  else if c.kind = kREPLY && replyOk c.payload then applyReply p c.payload s
  else s

/-- Release every contiguous cell from NEXT on. -/
def releaseFrom (p : Nat) : Nat → State → State
  | 0, s => s
  | n + 1, s =>
    let x := portLink s p
    match x.store.find? fun c => c.seq == x.rxNext with
    | none => s
    | some c =>
      let s := setPL p (fun x => { x with
        rxNext := (x.rxNext + 1) % 65536
        store := x.store.filter fun d => d.seq != c.seq }) s
      releaseFrom p n (releaseCell p c s)

/-- Is the separate area for control cells full (R330)? -/
def controlFull (x : PortLink) : Bool := 16 ≤ (x.store.filter fun e => e.kind != kDATA).length

/-- A sequenced cell that passed R324 (R330).  Data cells are held in their VC's pool, which the sender's credit
covers; a control cell beyond NEXT that finds its area full is not held, and R331 or R332 brings it again
(DEDUCED, assumption 156). -/
def receiveSeq (p : Nat) (c : RCell) (s : State) : State :=
  let x := portLink s p
  let d := seqDiff c.seq x.rxNext
  if d < 1024 then
    if x.store.any fun e => e.seq == c.seq then bump 0x5825 p s
    else if d != 0 && c.kind != kDATA && controlFull x then s
    else releaseFrom p 1025 (setPL p (fun x => { x with store := x.store ++ [c] }) s)
  else if 64512 ≤ d then bump 0x5825 p s
  else bump 0x582E p s

/-- A TRAIN cell (R339, R342). -/
def receiveTrain (p : Nat) (payload : List Byte) (s : State) : State :=
  let m := beNat payload
  if (portLink s p).state == .active then later (.linkDown p) s
  else if !exchanging s p || fld m 2002 2000 ≠ 0 || fld m 1759 0 ≠ 0 then s
  else
    let echo := fld m 1855 1792
    let t := now s
    let hold := fld m 1791 1760
    let sample := if echo = 0 || t < echo + hold then [] else [t - echo - hold]
    exchangeDone p (setPL p (fun x => { x with
      peerRec := some m
      peerRecAt := ticks s
      peerSeen := x.peerSeen || bit m 2004
      samples := x.samples ++ sample }) s)

/-- Does a cell fail the format check of R324? -/
def formatBad (h : Nat) : Bool :=
  5 < fld h 95 92 || fld h 14 0 ≠ 0 || 19 < fld h 36 32 || 19 < fld h 25 21 ||
    (fld h 95 92 = kDATA && 19 < fld h 91 87)

/-- A cell arrives through the receive crossing (R324 to R333, R358). -/
def receiveCell (p : Nat) (c : RawCell) (matched : Option Bool) (s : State) : State :=
  if !framed s p then s
  else
    let h := c.hdr.toNat
    let idle : Bool := cellCrc h c.payload = c.crc.toNat && fld h 95 92 = kIDLE
    let (lost, s) := rateMatch p c.drift idle matched s
    if lost then s
    else if cellCrc h c.payload ≠ c.crc.toNat then bump 0x5822 p s
    else if formatBad h then bump 0x5826 p s
    else
      let s := setPL p (fun x => { x with silentAt := silentFrom s }) (bump 0x5821 p s)
      let kind := fld h 95 92
      let active := (portLink s p).state == .active
      let s := if active && kind ≠ kTRAIN then
          nakTo p (fld h 68 53) (fld h 52 37) (ackTo p (fld h 68 53) s)
        else s
      if kind = kTRAIN then receiveTrain p c.payload s
      else if kind = kIDLE || !active then s
      else receiveSeq p { seq := fld h 84 69, kind := kind, vc := fld h 91 87, sop := bit h 86, eop := bit h 85
                          cra := (fld h 36 32, fld h 31 26), crb := (fld h 25 21, fld h 20 15)
                          payload := c.payload, arrived := now s } s

/-! ### Timers -/

/-- The oldest cell in replay has waited T_R (R332). -/
def replayTimeout (p : Nat) (s : State) : State :=
  let x := portLink s p
  match x.replay.head? with
  | none => s
  | some c =>
    if x.state == .active && c.timeoutAt ≤ ticks s && !c.due then
      let s := bump 0x5824 p (setPL p (fun x => { x with timeouts := x.timeouts + 1 }) (replayAll p s))
      if c.allowed ≤ (portLink s p).timeouts then linkDown p s else s
    else s

def silence (p : Nat) (s : State) : State :=
  let x := portLink s p
  if x.state == .active && x.silentAt ≤ ticks s then linkDown p s else s

/-- The grace period ends: flush; an exchange in progress goes on as fresh (Table 11-7), else the link enters
LANES and its lanes start bring-up (R359). -/
def graceExpiry (p : Nat) (s : State) : State :=
  let x := portLink s p
  if x.state == .resuming && x.deadline ≤ ticks s then
    let s := flush p (portFlushed p s)
    if (portLanes s p).bringUp == .locked then setPL p (fun x => { x with state := .exchange }) s
    else startBringUp p (setPL p (fun x => { x with state := .lanes }) s)
  else s

/-- One second after entry to HELD the exchange starts again, RESUME 0. -/
def heldRetry (p : Nat) (s : State) : State :=
  let x := portLink s p
  if x.state == .held && x.deadline ≤ ticks s then
    beginExchange p (setPL p (fun x => { x with state := .exchange }) (leaveHeld p s))
  else s

/-- The Retrain object (R341). -/
def retrain (p : Nat) (s : State) : State :=
  match (portLink s p).state with
  | .active | .resuming => flushRetrain p s
  | _ => s

/-- The running mean of sixteen samples while ACTIVE, one each second (R339). -/
def roundTrip (p sample : Nat) (s : State) : State :=
  let x := portLink s p
  if x.state == .active && x.sampleAt ≤ ticks s then
    let l := (x.samples ++ [sample]).drop (x.samples.length + 1 - 16)
    setPL p (fun x => { x with samples := l, rtt := mean l, sampleAt := ticks s + 2 ^ 32 }) s
  else s

end Sys2Proof.Machine
end

