-- ==== Sys2Proof/Machine/TimeBase.lean ====
section
/-!
DEFINITION. Machine time: the tick, time inputs, states, fabric time transfer, correction
(01_machine_time.md).
-/
namespace Sys2Proof.Machine

def setTb (f : TimeBase → TimeBase) (s : State) : State := { s with tb := f s.tb }

/-- Does the strap select the internal oscillator (R25)? -/
def internalClock (s : State) : Bool := s.sb.clkMode != 0

/-! ### Uncertainty and depth (R21, R30, R32) -/

/-- 0x4004:00. -/
def uncertainty (s : State) : Nat :=
  match s.tb.state with
  | .free => 2 ^ 64 - 1
  | .refLocked => rc s 0x4013 0
  | .fabricLocked => sat 64 (s.tb.srcUncert + rc s 0x4022 0)
  | .holdover =>
    sat 64 (s.tb.holdUncert + s.tb.holdTicks * (if s.tb.calibrated then 20 else 2000) / 1000000000)

/-- 0x4002:00. -/
def timeDepth (s : State) : Nat :=
  match s.tb.state with
  | .refLocked => 0
  | .fabricLocked => s.tb.srcDepth + 1
  | _ => 15

/-- The coding of 0x4001:00. -/
def timeStateCode (s : State) : Nat :=
  match s.tb.state with
  | .free => 0 | .refLocked => 1 | .fabricLocked => 2 | .holdover => 3

def sourcePort (s : State) : Nat :=
  match s.tb.srcPort with
  | some p => if s.tb.state == .fabricLocked then p else 255
  | none => 255

/-- The uncertainty is judged against its limit: raised once per crossing (R32). -/
def judgeUncertainty (s : State) : State :=
  let u := uncertainty s
  if s.tb.state == .free then s
  else if rc s 0x4031 0 < u then
    (if s.tb.overLimit then s
     else raiseFault 10 0 (u % 2 ^ 32) (setTb (fun t => { t with overLimit := true }) s))
  else if s.tb.overLimit then endCondition 10 0 (setTb (fun t => { t with overLimit := false }) s)
  else s

/-! ### Correcting MT (R37 to R40) -/

/-- One-shot events that a step from `a` to `b` skips are late. -/
def markLate (a b : Nat) (l : List OneShot) : List OneShot :=
  l.map fun x => if a < x.instant && x.instant < b then { x with late := true } else x

/-- The owners of the events due, by instant and then by arming order (R36). -/
def dueOwners (t : Nat) (l : List OneShot) : List ShotOwner :=
  ((l.filter fun x => x.late || x.instant ≤ t).foldl (fun acc x => insertBy OneShot.instant x acc) []).map OneShot.owner

/-- The events due before that of an owner, with its own as the last (R36): none where its own is not due. -/
def dueUpTo (o : ShotOwner) (s : State) : List ShotOwner :=
  let due := dueOwners (now s) s.tb.armed
  if due.contains o then due.takeWhile (fun p => p != o) ++ [o] else []

/-- The instant of an owner's event is reached.  Where it is the first one due, `fire` is its effect; events
due before it take effect before it, in the order of their instants and of their arming (R36). -/
def instantReached (o : ShotOwner) (fire : State → State) (s : State) : State :=
  match dueUpTo o s with
  | [] => s
  | [_] => fire s
  | l => foldSt (fun p s => later (.shot p) s) l s

/-- MT steps forward from `a` to `b` (R39, R40). -/
def stepMt (b : Nat) (s : State) : State :=
  let a := now s
  if b ≤ a then s
  else
    let crossed := a / 2 ^ 32 + 1 ≤ b / 2 ^ 32
    let s := setTb (fun t => { t with
      mt := b % 2 ^ 64
      lastStep := b - a
      stepSinceRead := true
      residual := 0
      pulseDue := t.pulseDue || crossed
      armed := markLate a b t.armed }) s
    let s := bump 0x4008 0 s
    let s := logEvent 7 0 0x0200 2 (beBytes 8 (b - a)) s
    let s := foldSt (fun o s => later (.shot o) s) (dueOwners b s.tb.armed) s
    later (.stepped a b) s

/-- A new offset measurement, in ticks (Table 01-5): it replaces the correction in progress. -/
def correct (offset : Int) (s : State) : State :=
  if 4295 < offset then stepMt ((now s : Int) + offset).toNat s
  else setTb (fun t => { t with residual := offset * 2 ^ 32 }) s

/-- The rate after a measurement: how TB trims it is not stated, so the increment is a free value
within 0.5 % of the nominal one (assumption 13). -/
def trimRate (s : State) : State :=
  let (v, s) := draw 1844674407 s
  setTb (fun t => { t with increment := 184467440737 - 922337203 + v }) s

/-- The increment while MT runs on the MEMS oscillator, in FREE and HOLDOVER: within 20 ppb of the nominal
one with the calibration flag set and within 2 ppm without (R31), a free value at each cycle
(assumption 13). -/
def memsRate (s : State) : State :=
  let bound := if s.tb.calibrated then 3689 else 368934
  let (v, s) := draw (2 * bound + 1) s
  setTb (fun t => { t with increment := 184467440737 - bound + v }) s

/-! ### The tick (R14, R37, R584) -/

/-- One REF_CLK cycle of machine time, or one of the MEMS oscillator where MT runs on it. -/
def tick (s : State) : State :=
  let s := if s.tb.state == .free || s.tb.state == .holdover then memsRate s else s
  let t := s.tb
  let slew := t.increment * rc s 0x4030 0 / 1000000
  let step := min slew t.residual.natAbs
  let inc : Nat := if 0 < t.residual then t.increment + step else t.increment - step
  let res : Int := if 0 < t.residual then t.residual - (step : Int) else t.residual + (step : Int)
  let total := t.frac + inc
  let d := total / 2 ^ 32
  let mt := (t.mt + d) % 2 ^ 64
  let second := t.mt / 2 ^ 32 != mt / 2 ^ 32
  setTb (fun t => { t with
    mt := mt
    count := t.count + d
    frac := total % 2 ^ 32
    residual := res
    pulseDue := t.pulseDue || (second && t.state != .free)
    lockTicks := if t.state == .refLocked then t.lockTicks + d else 0
    holdTicks := if t.state == .holdover then t.holdTicks + d else 0
    awayTicks := if t.state == .refLocked then 0 else t.awayTicks + d }) s

/-! ### States and sources (R22 to R28) -/

/-- Enter a time state; the event log has it (Table 20-13).  A slew in progress goes on in HOLDOVER (DESIGN
CHOICE, assumption 207). -/
def enterState (st : TimeState) (s : State) : State :=
  let was := s.tb.state
  let u := uncertainty s
  let s := setTb (fun t => { t with
    state := st
    holdUncert := if st == .holdover then u else t.holdUncert
    holdTicks := if st == .holdover then 0 else t.holdTicks
    lockTicks := 0
    awayTicks := if was == .refLocked then 0 else t.awayTicks
    overLimit := if was == .free then false else t.overLimit }) s
  let s := if was == .free then later .mtSet s else s
  let s := logEvent 7 0 (0x0100 + timeStateCode s) 2 (beBytes 8 (uncertainty s) ++ beBytes 1 (sourcePort s)) s
  judgeUncertainty s

def peerTime (s : State) (p : Nat) : PeerTime := sget {} s.tb.peers p

def setPeer (p : Nat) (f : PeerTime → PeerTime) (s : State) : State :=
  setTb (fun t => { t with peers := smod {} t.peers p f }) s

/-- A count of ticks that began at `since` has reached one second. -/
def secondSince (s : State) (since : Option Nat) : Bool :=
  match since with
  | some t => t + 2 ^ 32 ≤ ticks s
  | none => false

/-- Is a port trained? -/
def trained (s : State) (p : Nat) : Bool :=
  (portLink s p).state == .active && ((portRoute s p).state == .up || (portRoute s p).state == .departing)

/-- Is a port the one used with its peer: the lowest-numbered of a bond (R26)? -/
def firstOfBond (s : State) (p : Nat) : Bool :=
  !(rangeFrom 0 p).any fun q => trained s q && (portRoute s q).peer == (portRoute s p).peer

/-- Is the peer of a port usable as a source (R22, R27, R29)? -/
def usablePeer (s : State) (p : Nat) : Bool :=
  let x := peerTime s p
  rcOn s 0x4021 0 && trained s p && firstOfBond s p && x.depth < 14 && x.srcNode != ownNode s

/-- The best of some ports: lowest depth, then lowest mean delay, then lowest port (R26). -/
def bestPeer (s : State) (ok : Nat → Bool) : Option Nat :=
  ((rangeFrom 0 72).filter fun p => usablePeer s p && ok p).foldl (fun (b : Option Nat) p => match b with
    | none => some p
    | some q =>
      let x := peerTime s p
      let y := peerTime s q
      if x.depth < y.depth || (x.depth == y.depth && decide (x.delay < y.delay)) then some p else some q) none

/-- Has the peer of a port been advertised as usable for 1 s without interruption (R23)? -/
def steadyPeer (s : State) (p : Nat) : Bool := usablePeer s p && secondSince s (peerTime s p).since

/-- The 1 s of R23 and R28 run for a peer while it is usable, and while its depth is below the source's. -/
def judgePeer (s : State) (p : Nat) (x : PeerTime) : PeerTime :=
  let usable := usablePeer s p
  let lower := usable && s.tb.state == .fabricLocked && x.depth < s.tb.srcDepth
  let run (on : Bool) (t : Option Nat) : Option Nat := if !on then none else some (t.getD (ticks s))
  { x with since := run usable x.since, lowerSince := run lower x.lowerSince }

def judgePeers (s : State) : State :=
  setTb (fun t => { t with peers := t.peers.map fun e => (e.1, judgePeer s e.1 e.2) }) s

/-- Follow the peer of a port: its offset, where it has one, is corrected. -/
def followPeer (p : Nat) (s : State) : State :=
  let x := peerTime s p
  let s := setTb (fun t => { t with srcPort := some p, srcDepth := x.depth, srcUncert := x.uncert }) s
  let s := judgePeers (enterState .fabricLocked s)
  match x.offset with
  | some o => correct o s
  | none => s

/-- REF_CLK or EPOCH is lost while REF_LOCKED (Table 01-3). -/
def loseReference (s : State) : State :=
  if s.tb.state == .refLocked then
    match bestPeer s (fun _ => true) with
    | some p => followPeer p s
    | none => enterState .holdover s
  else s

/-- The source peer is lost: depth 15 for the hold-down of 1 s. -/
def loseSource (s : State) : State :=
  if s.tb.state == .fabricLocked then
    enterState .holdover (setTb (fun t => { t with srcPort := none, holdDown := some (t.count + 2 ^ 32) }) s)
  else s

/-- Where no hold-down runs: choose again among the peers advertised for 1 s. -/
def chooseSource (s : State) : State :=
  if s.tb.state == .holdover && s.tb.holdDown.isNone then
    match bestPeer s (steadyPeer s) with
    | some p => followPeer p s
    | none => s
  else s

/-- The hold-down has run its second (R28). -/
def holdDownOver (s : State) : State :=
  match s.tb.holdDown with
  | some t => if t ≤ ticks s then chooseSource (setTb (fun t => { t with holdDown := none }) s) else s
  | none => s

/-! ### Cable delay (R20) -/

/-- The delay in force. -/
def cableDelay (s : State) : Nat :=
  let locked := (rangeFrom 0 72).any fun p => trained s p && (peerTime s p).depth == 0
  if rc s 0x4010 0 = 1 && s.tb.measuredOk && locked then s.tb.measuredDelay else rc s 0x4011 0

/-- The delay in force differs from the one that MT holds, by an apply, a new average or the loss of the
last peer at depth 0: while REF_LOCKED the difference is an offset (R42, R37). -/
def judgeDelay (s : State) : State :=
  let new := cableDelay s
  let d : Int := (new : Int) - (s.tb.delayHeld : Int)
  let s := setTb (fun t => { t with delayHeld := new }) s
  if s.tb.state == .refLocked && d != 0 then correct (s.tb.residual / 2 ^ 32 + d) s else s

/-- The ports, their peers or the enable of time transfer have changed: what follows for the peers'
seconds (R23, R28) and for the cable delay (R20). -/
def peersChanged (s : State) : State := judgeDelay (judgePeers s)

/-- The link of a port is down: what its peer has advertised and measured ends with it
(DEDUCED, assumption 151). -/
def peerGone (p : Nat) (s : State) : State := peersChanged (setPeer p (fun x => { nextXid := x.nextXid }) s)

/-! ### EPOCH and TCODE (R15 to R19, R24) -/

/-- The source time that MT stands for, without the cable delay: a signed tick count. -/
def sourceMt (s : State) : Int := (now s : Int) + s.tb.residual / 2 ^ 32 - (cableDelay s : Int)

/-- The nearest whole second, and the distance from it. -/
def nearestSecond (t : Int) : Int × Int :=
  let n := (t + 2 ^ 31) / 2 ^ 32
  (n, t - n * 2 ^ 32)

/-- Ticks in 100 ns. -/
def window100 : Nat := ticksOf 100 1000000000

/-- An EPOCH edge is lost or ignored once too often (Table 01-1). -/
def epochLost (s : State) : State :=
  loseReference (setTb (fun t => { t with
    epochValid := false, qualified := false, haveEdge := false, framePrev := none, frameNow := none, missed := 0 }) s)

/-- MT is set as the state leaves FREE: no step; a pulse is due where it is set at a whole second. -/
def setMt (mt : Nat) (s : State) : State :=
  setTb (fun t => { t with mt := mt % 2 ^ 64, frac := 0, residual := 0, pulseDue := mt % 2 ^ 32 == 0 }) s

/-- The calibration is refreshed while REF_LOCKED (R31): what is measured is a free value (assumption 152). -/
def refreshOscillator (s : State) : State :=
  if s.tb.calibrated then
    let (v, s) := draw (2 ^ 32) s
    setTb (fun t => { t with oscOffset := v }) s
  else s

/-- An accepted edge: qualification, and what follows from it. -/
def acceptedEdge (refMs : Nat) (s : State) : State :=
  let t := s.tb
  let q := decide (2000 ≤ refMs) && match t.frameNow, t.framePrev with
    | some n, some m => n == (m + 1) % 2 ^ 32
    | _, _ => false
  let s := setTb (fun t => { t with
    missed := 0, epochValid := true, haveEdge := true, qualified := q, framePrev := t.frameNow, frameNow := none
    adopt := none }) s
  match t.state with
  | .refLocked =>
    let (n, _) := nearestSecond (sourceMt s)
    let n : Int := match t.adopt with | some v => (v : Int) | none => n
    refreshOscillator (trimRate (correct (n * 2 ^ 32 + (cableDelay s : Int) - (now s : Int)) s))
  | .free =>
    if q then
      let n := t.frameNow.getD 0
      enterState .refLocked (setMt (n * 2 ^ 32 + cableDelay s) (setTb (fun t => { t with
        delayHeld := cableDelay s }) s))
    else s
  | _ =>
    if q then
      let n := t.frameNow.getD 0
      let s := enterState .refLocked (setTb (fun t => { t with
        srcPort := none, holdDown := none, delayHeld := cableDelay s }) s)
      correct ((n : Int) * 2 ^ 32 + (cableDelay s : Int) - (now s : Int)) s
    else s

/-- An EPOCH edge: `spacing` REF_CLK cycles after the previous one, REF_CLK valid for `refMs` ms. -/
def epochEdge (spacing refMs : Nat) (s : State) : State :=
  if internalClock s then s
  else
    let s := setTb (fun t => { t with refClkValid := refMs != 0 }) s
    if s.tb.state == .refLocked then
      if (nearestSecond (sourceMt s)).2.natAbs ≤ window100 then acceptedEdge refMs s
      else
        let s := bump 0x4061 0 (setTb (fun t => { t with missed := t.missed + 1 }) s)
        if 3 ≤ s.tb.missed then epochLost s else s
    else if !s.tb.haveEdge || (99999995 ≤ spacing && spacing ≤ 100000005) then acceptedEdge refMs s
    else setTb (fun t => { t with haveEdge := true, framePrev := none, frameNow := none, qualified := false }) s

/-- A TCODE frame that started `startUs` after an EPOCH edge and ended `endUs` before the next. -/
def tcodeFrame (frame startUs endUs : Nat) (s : State) : State :=
  if internalClock s then s
  else if fld frame 95 80 ≠ 0xB38F || crc32c (beBytes 6 (fld frame 79 32)) ≠ fld frame 31 0 || startUs < 100 || endUs < 100 then
    bump 0x4062 0 s
  else
    let n := fld frame 79 48
    let s := setTb (fun t => { t with tcodeValid := true, quality := fld frame 47 40, frameNow := some n }) s
    if s.tb.state == .refLocked then
      let own := (ofSigned 32 (sourceMt s / 2 ^ 32) + 1) % 2 ^ 32
      if n = own then setTb (fun t => { t with disagree := none, secondsUnconfirmed := false }) s
      else match s.tb.disagree with
        | some d =>
          if n = (d + 1) % 2 ^ 32 then setTb (fun t => { t with adopt := some n, disagree := some n }) s
          else setTb (fun t => { t with disagree := some n }) s
        | none => setTb (fun t => { t with disagree := some n }) s
    else s

def tcodeLost (s : State) : State :=
  if internalClock s then s
  else setTb (fun t => { t with
    tcodeValid := false
    frameNow := none
    framePrev := none
    secondsUnconfirmed := t.secondsUnconfirmed || (t.refClkValid && t.epochValid) }) s

/-- REF_CLK is lost: it is no longer qualified, and with nothing to count on no edge follows the last one
(R14, R24). -/
def refClkLost (s : State) : State :=
  if internalClock s then s
  else loseReference (setTb (fun t => { t with
    refClkValid := false, qualified := false, haveEdge := false, framePrev := none, frameNow := none }) s)

/-! ### Fabric time transfer (R29, R253) -/

/-- A TIME packet to the peer of a port. -/
def timePacket (s : State) (p t1 t2 kind xid : Nat) : Packet where
  type := tTIME
  vc := 19
  hops := 1
  dest := (match (portRoute s p).peer with | some n => n | none => expectedPeer s p) * 4096
  source := ownIdentity s 0
  tepoch := s.rt.live.epoch
  stamp := if timeFree s then 0 else now s
  th := timeTH t1 t2 0 (sat 32 (uncertainty s))
    (match s.tb.srcPort with
      | some q => if s.tb.state == .fabricLocked then (match (portRoute s q).peer with | some n => n | none => 0xFFFFF) else 0xFFFFF
      | none => 0xFFFFF)
    (timeDepth s) kind xid

/-- May this module start an exchange on a port?  Once per interval 0x4020; in FREE only towards the peer
that it would follow. -/
def mayExchange (s : State) (p : Nat) : Bool :=
  rcOn s 0x4021 0 && trained s p && firstOfBond s p && (peerTime s p).nextStart ≤ ticks s &&
    (s.tb.state != .free || bestPeer s (steadyPeer s) == some p)

def timeExchange (p : Nat) (s : State) : State :=
  if mayExchange s p then
    let x := peerTime s p
    let s := setPeer p (fun x => { x with
      openXid := some x.nextXid, nextXid := (x.nextXid + 1) % 64, nextStart := ticks s + rc s 0x4020 0 }) s
    enqueue p 0 none (timePacket s p 0 0 0 x.nextXid) s
  else s

/-- What a TIME packet tells of its sender. -/
def notePeer (p : Nat) (pk : Packet) (s : State) : State :=
  let s := setPeer p (fun x => { x with depth := tmDEPTH pk, uncert := tmUNCERT pk, srcNode := tmSRC pk }) s
  if s.tb.state == .fabricLocked && s.tb.srcPort == some p then
    let s := setTb (fun t => { t with srcDepth := tmDEPTH pk, srcUncert := tmUNCERT pk }) s
    peersChanged (if usablePeer s p then judgeUncertainty s else loseSource s)
  else peersChanged s

/-- A TIME request that arrived at the lane boundary at MT `at_`: answered in every state except FREE. -/
def timeRequest (p : Nat) (at_ : Nat) (pk : Packet) (s : State) : State :=
  let s := notePeer p pk s
  if timeFree s then s
  else enqueue p 0 none (timePacket s p (tmT1 pk) at_ 1 (tmXID pk)) s

/-- The offset as 0x4040 shows it: I32, saturating short of the "no measurement" value. -/
def offset32 (o : Int) : Int := max (-2147483647) (min 2147483647 o)

/-- The median of a list of offsets; of an even number, the upper of the middle two, which the spec leaves
open (DESIGN CHOICE, assumption 153). -/
def median (l : List Int) : Int :=
  let a := l.foldr (fun x acc =>
    let rec ins : List Int → List Int
      | [] => [x]
      | y :: r => if x ≤ y then x :: y :: r else y :: ins r
    ins acc) []
  a.getD (a.length / 2) 0

/-- A TIME response that arrived at the lane boundary at MT `at_`: an exchange is complete (R29).  The
running mean delay is over the exchanges accepted since the link of the port came up, which the spec does
not say (DESIGN CHOICE, assumption 154). -/
def timeResponse (p : Nat) (at_ : Nat) (pk : Packet) (s : State) : State :=
  let x := peerTime s p
  if x.openXid ≠ some (tmXID pk) then s
  else
    let t1 : Int := tmT1 pk
    let t2 : Int := tmT2 pk
    let t3 : Int := tmT3 pk
    let t4 : Int := at_
    let offset := ((t2 - t1) - (t4 - t3)) / 2
    let delay := (((t2 - t1) + (t4 - t3)) / 2).toNat
    let s := setPeer p (fun x => { x with openXid := none }) s
    let s := notePeer p pk s
    if x.nDelay ≠ 0 && 2 * x.sumDelay < delay * x.nDelay then s
    else
      let s := setPeer p (fun x => { x with
        offset := some offset
        delay := sat 32 delay
        sumDelay := x.sumDelay + delay
        nDelay := x.nDelay + 1 }) s
      -- R20: the median of the offsets to peers at depth 0
      let zero := (rangeFrom 0 72).filterMap fun q =>
        if trained s q && (peerTime s q).depth == 0 then (peerTime s q).offset else none
      let s := if zero.isEmpty then s else
        setTb (fun t => { t with
          medianSum := t.medianSum + median zero, medianCount := t.medianCount + 1
          medianSince := if t.medianCount = 0 then t.count else t.medianSince }) s
      match s.tb.state with
      | .free =>
        if bestPeer s (steadyPeer s) == some p then
          let y := peerTime s p
          let s := setMt ((now s : Int) + offset).toNat (setTb (fun t => { t with
            srcPort := some p, srcDepth := y.depth, srcUncert := y.uncert }) s)
          judgePeers (enterState .fabricLocked s)
        else s
      | .fabricLocked =>
        -- an offset that this measurement and the one before both show is corrected; any other
        -- measurement ends the correction in progress (R29, R38)
        if s.tb.srcPort == some p then
          if offset != 0 && (x.offset.any fun o => o != 0) then correct offset s
          else trimRate (setTb (fun t => { t with residual := 0 }) s)
        else s
      | _ => s

/-- Has the peer of a port advertised a depth below the source's for 1 s without interruption (R28)? -/
def lowerPeer (s : State) (p : Nat) : Bool := usablePeer s p && secondSince s (peerTime s p).lowerSince

/-- A usable peer has been advertised for 1 s (R23), at a depth below the source's for 1 s (R28): TB follows
the best of those (R26). -/
def usableAdvertised (p : Nat) (s : State) : State :=
  match s.tb.state with
  | .holdover => if steadyPeer s p then chooseSource s else s
  | .fabricLocked =>
    if lowerPeer s p then
      match bestPeer s (lowerPeer s) with
      | some q => followPeer q s
      | none => s
    else s
  | _ => s

/-- The 64 s average is complete (R20); a negative one is held as 0 (DESIGN CHOICE, assumption 208). -/
def measuredUpdate (s : State) : State :=
  if s.tb.medianCount = 0 || ticks s < s.tb.medianSince + 64 * 2 ^ 32 then s
  else
    let m := (s.tb.medianSum / (s.tb.medianCount : Int)).toNat
    judgeDelay (setTb (fun t => { t with
      measuredDelay := sat 32 m, measuredOk := true, medianSum := 0, medianCount := 0 }) s)

/-! ### TIME_PULSE (R33) -/

def timePulse (s : State) : State :=
  if s.tb.pulseDue then
    setTb (fun t => { t with
      pulseDue := false, timePulse := t.state != .free && rcOn s 0x4050 0
      pulseEnd := t.count + ticksOf 10 1000000 }) s
  else s

/-- TIME_PULSE has been high for 10 µs. -/
def timePulseEnd (s : State) : State :=
  if s.tb.timePulse && s.tb.pulseEnd ≤ ticks s then setTb (fun t => { t with timePulse := false }) s else s

/-! ### Status words -/

/-- 0x4003:00. -/
def timeFlags (s : State) : Nat :=
  b2n s.tb.secondsUnconfirmed + b2n s.tb.calibrated * 2 + b2n (s.tb.residual != 0) * 4 + b2n s.tb.stepSinceRead * 8

/-- 0x4032:00. -/
def calibrationAge (s : State) : Nat :=
  if !s.tb.calibrated then 0xFFFFFFFF
  else if s.tb.state == .refLocked then 0 else sat 32 (s.tb.awayTicks / 2 ^ 32)

/-- 0x4060:00. -/
def referenceStatus (s : State) : Nat :=
  b2n s.tb.refClkValid + b2n s.tb.epochValid * 2 + b2n s.tb.tcodeValid * 4 + b2n s.tb.qualified * 8 + s.tb.quality * 256

end Sys2Proof.Machine
end

