-- ==== Sys2Proof/Machine/CollOps.lean ====
section
/-!
DEFINITION. Collectives: creating and destroying groups, steps, aborts, losses
(R187 to R193, R199 to R209).
-/
namespace Sys2Proof.Machine

/-! ### Completions and events (R193, R209) -/

/-- Status of a reason (Table 06-7). -/
def reasonStatus (r : Nat) : Nat := if r = 16 || 32 ≤ r then stMEMBERLOST else stCANCELLED

/-- The completion of a collective that fails: the step, the reason and the node that PEER names. -/
def collFail (status step reason peer : Nat) : Comp :=
  { status := status, imm := step % 2 ^ 24 * 256 + reason, peer := peer * 4096 }

/-- A command of a queue fails at its start. -/
def failStart (qn entry step reason peer : Nat) (s : State) : State :=
  complete qn entry (collFail (reasonStatus reason) step reason peer) s

/-- An event of a group: DATA [63:32] is a node ID in [31:12] (Table 06-12). -/
def groupEvent (x : Group) (code g reason node low : Nat) (s : State) : State :=
  queueEvent x.qn code g reason (node * 4096 * 2 ^ 32 + low) s

/-! ### Creating a group (R187, R188) -/

/-- The lowest bits of a GROUP_CREATE. -/
def cgWINDOW (d : Nat) : Nat := fld d 415 413 + 1
def cgUNITS (d : Nat) : Nat := fld d 412 403
def cgEXACT (d : Nat) : Bool := bit d 402
def cgDEADLINE (d : Nat) : Nat := fld d 447 416
def cgTIMEOUT (d : Nat) : Nat := fld d 511 480

/-- Read the next piece of the member table. -/
def createRead (c : Create) (s : State) : State :=
  let (a, n) := pieceAt (dLOCAL c.desc) c.frags c.bytes.length (dLENGTH c.desc - c.bytes.length)
  later (.access { asid := (queue s c.qn).asid, addr := a, len := n, cls := .localBuf, rights := c.rights
                   qn := some c.qn, cont := .memberTable c.qn c.entry }) s

def dropCreate (qn entry : Nat) (s : State) : State :=
  { s with ce := { s.ce with creates := s.ce.creates.filter fun c => !(c.qn == qn && c.entry == entry) } }

/-- Is the activation of engine firmware under way, so that a GROUP_CREATE waits (Table 06-9)? -/
def createsWait (s : State) : Bool := s.me.acts.any fun a => a.target == 0 && a.state != .armed

/-- GROUP_CREATE starts: it reads its table. -/
def startCreate (qn : Nat) (s : State) : State :=
  match startable s qn fun op => op == 0x40 with
  | none => s
  | some o =>
    if createsWait s then s
    else serviceItem qn o (fun start s =>
      let c : Create := { qn := qn, entry := o.n, desc := o.desc, frags := o.frags, rights := o.rights
                          joinBy := ticks s +
                            (if cgTIMEOUT o.desc = 0 then rc s 0x7C14 0 else cgTIMEOUT o.desc) }
      createRead c (start { s with ce := { s.ce with creates := s.ce.creates ++ [c] } })) s

/-- The group becomes ACTIVE: READY goes down, the create retires (R188). -/
def activateGroup (g : Nat) (s : State) : State :=
  let x := group s g
  let s := setGroup g (fun x => { x with state := .active, creating := false }) s
  let s := sendCollAll g x.tclass { kind := kREADY } (kidsOf x) s
  complete x.qn x.entry
    { status := stOK, length := x.members.length, imm := x.levels + (kidsOf x).length * 256
      peer := x.top * 4096 } s

/-- Send JOIN to the parent; it is sent again when the retry interval is over. -/
def sendJoin (g : Nat) (s : State) : State :=
  let x := group s g
  match x.parent with
  | none => s
  | some p =>
    sendColl g x.tclass p { kind := kJOIN, arg := x.digest }
      (setGroup g (fun x => { x with joinSent := true, joinAt := ticks s + rc s 0x7C10 0 }) s)

/-- Every child has joined: the top root is ACTIVE, another member joins its parent. -/
def joinUp (g : Nat) (s : State) : State :=
  let x := group s g
  if x.state != .joining || x.joinSent || !(kidsOf x).all (x.joined.contains ·) then s
  else if x.parent.isNone then activateGroup g s
  else sendJoin g s

/-- Entries of a member table: 4 bytes each, little-endian as all memory of the host. -/
def tableEntries (bs : List Byte) : List Nat :=
  (rangeFrom 0 (bs.length / 4)).map fun k => leAt bs (4 * k) 4

/-- Do numbers rise strictly? -/
def rising : List Nat → Bool
  | a :: b :: r => decide (a < b) && rising (b :: r)
  | _ => true

/-- The whole table is there: the checks of R187 in order, then the group starts its join. -/
def createGo (c : Create) (s : State) : State :=
  let d := c.desc
  let g := gGROUP d
  let q := queue s c.qn
  let me := ownNode s
  let ms := tableEntries c.bytes
  let t := treeOf ms me
  let maxLen := (cgUNITS d + 1) * 64
  let need := stagingNeed (cgWINDOW d) t.kids.flatten.length maxLen (cgEXACT d)
  let s := dropCreate c.qn c.entry s
  if (group s g).state != .free then failStart c.qn c.entry 0 21 me s
  else if !rising ms || ms.any fun m => 2 ^ 20 ≤ m || nodeBad s m then failStart c.qn c.entry 0 18 me s
  else if !ms.contains me then failStart c.qn c.entry 0 17 me s
  else match stagingStack (sweepTransient s) need with
  | (none, s) => failStart c.qn c.entry 0 20 me s
  | (some k, s) =>
    joinUp g (setGroup g (fun _ => {
      state := .joining
      gen := gGEN d
      tenant := q.tenant
      qn := c.qn
      entry := c.entry
      creating := true
      tclass := dTCLASS d
      window := cgWINDOW d
      maxLen := maxLen
      exact := cgEXACT d
      deadline := cgDEADLINE d
      joinBy := c.joinBy
      members := ms
      kids := t.kids
      parent := t.parent
      levels := t.levels
      top := t.top
      digest := crc32c (c.bytes ++
        Config.digestFields q.tenant (gGEN d) (cgWINDOW d) (cgUNITS d) (cgEXACT d) (cgDEADLINE d))
      reserved := need
      stack := k }) s)

/-- A piece of the member table has been read (R187). -/
def memberTable (qn entry : Nat) (r : AccResult) (s : State) : State :=
  match s.ce.creates.find? fun c => c.qn == qn && c.entry == entry with
  | none => s
  | some c =>
    let fail (st : Nat) (s : State) : State :=
      complete qn entry (collFail st 0 0 (ownNode s)) (dropCreate qn entry s)
    match r with
    | .ok bs =>
      let c := { c with bytes := c.bytes ++ bs }
      if c.bytes.length < dLENGTH c.desc then
        createRead c { s with ce := { s.ce with
          creates := updFirst (fun y => y.qn == qn && y.entry == entry) (fun _ => c) s.ce.creates } }
      else createGo c s
    | .poison _ => fail stPOISON s
    | _ => fail stLOCALFAULT s

/-- The member abandons a group that is joining (R188). -/
def abandonGroup (g reason origin : Nat) (came : Option Nat) (s : State) : State :=
  let x := group s g
  let s := sendCollAll g x.tclass { kind := kABANDON, reason := reason, arg := origin }
    ((neighbours x).filter fun n => some n != came) s
  complete x.qn x.entry (collFail (reasonStatus reason) 0 reason origin) (releaseGroup g s)

/-- The retry interval of a JOIN is over: it counts as refused, and is sent again (R188). -/
def joinRetry (g : Nat) (s : State) : State :=
  let x := group s g
  if x.state == .joining && x.joinSent && x.joinAt ≤ ticks s then sendJoin g (bump 0x7C36 0 s) else s

/-- The join timeout expires (R188). -/
def joinTimeout (g : Nat) (s : State) : State :=
  let x := group s g
  if x.state == .joining && x.joinBy ≤ ticks s then abandonGroup g 16 (ownNode s) none s else s

/-! ### Losses (R204, R205) -/

/-- A step ends at this member: it retires (R192). -/
def endStep (g n : Nat) (c : Comp) (s : State) : State :=
  let x := group s g
  match stepOf s g n with
  | none => s
  | some p =>
    let s := releaseShot (.launch g n) (dropStep g n s)
    match p.entry with
    | none => s
    | some e => complete x.qn e c s

/-- The lost member and the reason as this member knows them. -/
def lostOf (x : Group) : Nat × Nat := x.lost.getD (0, 0)

/-- The bytes of TARGET that a step has written (R193). -/
def stepWritten (g n : Nat) (s : State) : Nat := ((stepOf s g n).map fun p => p.written).getD 0

/-- A step ends without success; LENGTH is what it has written (R193). -/
def failStep (g n : Nat) (c : Comp) (s : State) : State := endStep g n { c with length := stepWritten g n s } s

/-- A step ends with MEMBER_LOST. -/
def loseStep (g n : Nat) (s : State) : State :=
  let l := lostOf (group s g)
  failStep g n (collFail stMEMBERLOST n l.2 l.1) s

/-- GROUP_BROKEN, once (R209).  Its DATA carries E: a member that waits for the decision posts it then
(assumption 122). -/
def tellBroken (g : Nat) (s : State) : State :=
  let x := group s g
  let l := lostOf x
  if x.told then s
  else if x.undecided then setGroup g (fun x => { x with owes := true }) s
  else groupEvent x 0x0400 g l.2 l.1 x.lastOk (setGroup g (fun x => { x with told := true }) s)

/-- The group breaks at this member, decided.  `e`: the last step decided OK, or `0xFFFF_FFFF`; `keep`:
steps up to `e` go on: the result is here, or is fetched.  The top root has every result that was formed:
a step below `e` whose result was not is lost there (assumption 177). -/
def breakGroup (g e : Nat) (keep : Bool) (s : State) : State :=
  let x := group s g
  let top := isTop s x
  let s := setGroup g (fun x => { x with state := .broken, undecided := false, lastOk := e }) s
  let s := when_ (x.owes || !(openSteps x).isEmpty) (tellBroken g) s
  foldSt (fun (p : Step) s =>
    if !stepOpen p then dropStep g p.num s
    else if keep && diff32 e p.num < 2 ^ 31 && (p.state == .result || !top) then
      if p.state == .result then s
      else
        sendColl g p.tclass x.top { kind := kFETCH, step := p.num, sig := p.sig }
          (setStep g p.num (fun p => { p with fetching := true, state := .waiting, resParts := [] })
            (releaseShot (.launch g p.num) s))
    else loseStep g p.num s) x.steps s

/-- The top root decides (R205 point 2).  With no step decided OK, E is `0xFFFF_FFFF` (assumption 23). -/
def decideLoss (g node reason : Nat) (s : State) : State :=
  let x := group s g
  let e := if x.decided = 0 then 0xFFFFFFFF else x.decided - 1
  let s := setGroup g (fun x => { x with lost := some (node, reason) }) s
  let s := sendCollAll g x.tclass { kind := kBROKEN, arg := e }
    (x.members.filter fun m => m != node && m != ownNode s) s
  -- the results formed here are here: their steps go on
  breakGroup g e (x.decided != 0) s

/-- The top root cannot be reached any more by a member that fetches results (R205 point 5).  PEER and the
reason name the member that was lost first (DESIGN CHOICE, assumption 220). -/
def fetchFails (g : Nat) (s : State) : State :=
  foldSt (fun (p : Step) s => if p.fetching then loseStep g p.num s else s) (group s g).steps s

/-- Is the fate of a group's steps not decided yet (R205)? -/
def awaitsDecision (x : Group) : Bool := x.state == .active || x.undecided

/-- A member that is not the top root declares the top root lost (R205 points 1, 4 and 5). -/
def topLost (g reason : Nat) (s : State) : State :=
  let x := group s g
  let s := sendCollAll g x.tclass { kind := kBROKEN, arg := 0xFFFFFFFF }
    (x.members.filter fun m => m != x.top && m != ownNode s) s
  if awaitsDecision x then
    breakGroup g 0xFFFFFFFF false (setGroup g (fun x => { x with lost := some (x.top, reason) }) s)
  else fetchFails g s

/-- A member declares a tree neighbour lost (R204, R205 point 1).  The group is BROKEN from then on
(Table 06-4); a later loss is counted and told, and changes no decision. -/
def declareLost (g node reason : Nat) (s : State) : State :=
  let x := group s g
  if !(x.state == .active || x.state == .broken) || x.declared.contains node then s
  else
    let s := bump 0x7C33 0 (setGroup g (fun x => { x with
      declared := x.declared ++ [node]
      lost := some (x.lost.getD (node, reason)) }) s)
    if isTop s x then (if x.state == .active then decideLoss g node reason s else s)
    else if node = x.top then topLost g reason s
    else
      let s := sendColl g x.tclass x.top { kind := kLOST, reason := reason, arg := node } s
      when_ (x.state == .active) (setGroup g fun x => { x with
        state := .broken
        undecided := true
        owes := !(openSteps x).isEmpty }) s

/-- A LOST reaches the top root: it processes the first (R205 point 2). -/
def lostArrive (g : Nat) (p : Packet) (s : State) : State :=
  let x := group s g
  if x.state == .active && isTop s x then decideLoss g (cARG p) (cREASON p) s else s

/-- A BROKEN arrives (R205 points 3 to 5): the decision of the top root, or another member's word that
the top root is lost.  Which member was lost, and why, is in no field of it: where this member does not
know, they are free values (assumption 24). -/
def brokenArrive (g : Nat) (p : Packet) (s : State) : State :=
  let x := group s g
  let fromTop := idNode p.source == x.top
  if !awaitsDecision x then (if x.state == .broken && !fromTop then fetchFails g s else s)
  else
    let (node, s) := if fromTop then draw (2 ^ 20) s else (x.top, s)
    let (k, s) := draw 4 s
    let known : Nat × Nat := match x.lost with
      | some l => if fromTop || l.1 == x.top then l else (node, 32 + k)
      | none => (node, 32 + k)
    breakGroup g (cARG p) (cARG p != 0xFFFFFFFF)
      (setGroup g (fun x => { x with lost := some known }) s)

/-! ### Aborts (R191, R200 to R202) -/

/-- A step ends at this member with the abort's status (R201). -/
def abortHere (g n reason origin : Nat) (s : State) : State :=
  let mine := reason = 8 && origin = ownNode s
  let c : Comp := if mine then collFail stLOCALFAULT n 0 origin else collFail stCANCELLED n reason origin
  let s := bump 0x7C32 0 s
  groupEvent (group s g) 0x0401 g reason origin n (endStep g n c s)

/-- The ABORT of a step is decided or comes down the tree: it ends the step here, or waits for its
descriptor. -/
def takeAbort (g n reason origin : Nat) (s : State) : State :=
  let x := group s g
  match stepOf s g n with
  | some p =>
    if p.state == .result then s
    else if stepOpen p then abortHere g n reason origin s
    else if p.aborted.isSome then s
    else setStep g n (fun p => { p with aborted := some (reason, origin) }) s
  | none =>
    if stepAhead x n then
      setGroup g (fun x => { x with steps := x.steps ++ [{ num := n, aborted := some (reason, origin) }] }) s
    else s

/-- Is an ABORT of a step news to this member: the step is neither aborted nor has its result?  The first
abort wins, and a copy of it is discarded (R203). -/
def abortNew (s : State) (g n : Nat) : Bool :=
  match stepOf s g n with
  | some p => p.state != .result && p.aborted.isNone
  | none => stepAhead (group s g) n

/-- The top root aborts a step, unless it is decided or aborted. -/
def topAbort (g n reason origin sig : Nat) (s : State) : State :=
  let x := group s g
  if !abortNew s g n then s
  else
    let tc : Nat := match stepOf s g n with | some p => if stepOpen p then p.tclass else x.tclass | none => x.tclass
    takeAbort g n reason origin
      (sendCollAll g tc { kind := kABORT, step := n, reason := reason, arg := origin, sig := sig } (kidsOf x) s)

/-- This member cannot contribute to a step (R201). -/
def raiseAbort (g n reason : Nat) (s : State) : State :=
  let x := group s g
  match stepOf s g n with
  | none => s
  | some p =>
    if p.stopped || p.aborted.isSome then s
    else
      let s := when_ (reason = 5) (bump 0x7C34 0) (setStep g n (fun p => { p with stopped := true }) s)
      if isTop s x then topAbort g n reason (ownNode s) p.sig s
      else sendColl g p.tclass x.top { kind := kABORT, step := n, reason := reason, arg := ownNode s
                                       sig := p.sig } s

/-- An ABORT arrives (R201): at the top root from anywhere, elsewhere from the parent. -/
def abortArrive (g : Nat) (p : Packet) (s : State) : State :=
  let x := group s g
  let n := cSTEP p
  if isTop s x then topAbort g n (cREASON p) (cARG p) (cSIG p) s
  else if x.parent = some (idNode p.source) && abortNew s g n then
    takeAbort g n (cREASON p) (cARG p)
      (sendCollAll g p.tclass { kind := kABORT, step := n, reason := cREASON p, arg := cARG p
                                sig := cSIG p } (kidsOf x) s)
  else s

/-- A step has been open too long at the top root (R202). -/
def stepTimeout (g n : Nat) (s : State) : State :=
  let x := group s g
  match stepOf s g n with
  | none => s
  | some p =>
    if x.state == .active && isTop s x && p.due != 0 && p.due ≤ ticks s then
      topAbort g n 10 (ownNode s) p.sig s
    else s

/-! ### Steps (R190, R192, R199, R200) -/

/-- When a step that becomes known now times out: at the top root only, 0 for never. -/
def stepDue (g : Nat) (s : State) : Nat :=
  if isTop s (group s g) && rc s 0x7C13 0 != 0 then ticks s + rc s 0x7C13 0 else 0

/-- A tree neighbour has been heard. -/
def heardFrom (g node : Nat) (s : State) : State :=
  setGroup g (fun x => { x with heard := mput x.heard node (ticks s + rc s 0x7C12 0) }) s

/-- The first step opens: the timers of R204 start. -/
def startTimers (g : Nat) (s : State) : State :=
  let x := group s g
  if !(openSteps x).isEmpty then s
  else
    foldSt (heardFrom g) (neighbours x)
      (setGroup g (fun x => { x with beatAt := ticks s + rc s 0x7C11 0 }) s)

/-- Write the next piece of the result to TARGET. -/
def resultWrite (g n : Nat) (s : State) : State :=
  let x := group s g
  match stepOf s g n with
  | none => s
  | some p =>
    let bs := p.res.getD []
    let (a, k) := pieceAt p.target [] p.written (bs.length - p.written)
    later (.access { asid := (queue s x.qn).asid, addr := a, len := k, data := some (slice bs p.written k)
                     poison := p.poison, cls := .localBuf, rights := p.rights, qn := some x.qn
                     cont := .resultWrite g n }) s

/-- The step completes with its result (R193, R201).  PEER of POISON is the top root where no abort raised
it, and of a LOCAL_FAULT on writing TARGET this member (DESIGN CHOICE, assumption 219). -/
def finishStep (g n : Nat) (fault : Bool) (s : State) : State :=
  let x := group s g
  match stepOf s g n with
  | none => s
  | some p =>
    let flags := b2n p.late * fLATE + b2n p.overflow * fOVERFLOW
    let bad := fault || p.poison
    let s := when_ p.late (bump 0x7C31 0) s
    let s := when_ (!bad) (bump 0x7C30 0) s
    let s := when_ p.fetching (bump 0x7C37 0) s
    endStep g n
      { status := if fault then stLOCALFAULT else if p.poison then stPOISON else stOK
        length := p.written
        imm := if bad then n % 2 ^ 24 * 256 else n
        peer := (if fault then ownNode s else x.top) * 4096
        flags := flags } s

/-- The kept results that are less than `window` steps older than the newest (R207). -/
def youngest (window : Nat) (l : List KeptResult) : List KeptResult :=
  l.filter fun k => l.all fun j => diff32 j.num k.num < window || 2 ^ 31 ≤ diff32 j.num k.num

/-- The result of a step is here: keep it, send it on to `dests`, write it. -/
def haveResult (g n : Nat) (bs : List Byte) (dests : List Nat) (s : State) : State :=
  match stepOf s g n with
  | none => s
  | some p =>
    let keep : KeptResult :=
      { num := n, sig := p.sig, bytes := bs, late := p.late, overflow := p.overflow, poison := p.poison
        tclass := p.tclass }
    let s := setGroup g (fun x => { x with kept := youngest x.window (x.kept ++ [keep]) })
      (poolWrote (group s g).stack 3 bs.length s)
    let s := setStep g n (fun p => { p with state := .result, res := some bs }) s
    let s := foldSt (fun d s =>
      foldSt (fun (c : Nat × List Byte) s =>
        sendColl g p.tclass d { kind := kRESULT, step := n, late := p.late, over_ := p.overflow
                                poison := p.poison, off := c.1, sig := p.sig, payload := c.2 } s)
        (resultParts bs) s) dests s
    if bs.isEmpty then finishStep g n false s else resultWrite g n s

/-- A piece of the result is written (R201). -/
def resultWritten (g n : Nat) (r : AccResult) (s : State) : State :=
  match stepOf s g n with
  | none => s
  | some p =>
    match r with
    | .ok _ =>
      let bs := p.res.getD []
      let (_, k) := pieceAt p.target [] p.written (bs.length - p.written)
      let s := setStep g n (fun p => { p with written := p.written + k }) s
      if bs.length ≤ p.written + k then finishStep g n false s else resultWrite g n s
    | _ => finishStep g n true s

/-- One more than the latest step decided OK, when step `n` is: steps may form their results out of
order. -/
def laterDecided (decided n : Nat) : Nat :=
  if decided = 0 || diff32 n (decided - 1) < 2 ^ 31 then n + 1 else decided

/-- Combine, once the step is launched and every part is here (R192). -/
def tryCombine (g n : Nat) (s : State) : State :=
  let x := group s g
  match stepOf s g n with
  | none => s
  | some p =>
    let ready := stepOpen p && p.state == .launched && p.ownDone && !p.stopped &&
      (kidsOf x).all fun k => p.parts.any fun c => c.child == k && c.complete
    if !ready then s
    else
      let late := p.late || p.parts.any fun c => c.late
      let poison := p.poison || p.parts.any fun c => c.poison
      let s := setStep g n (fun p => { p with late := late, poison := poison }) s
      match x.parent with
      | some par =>
        let pk (c : Piece) : Packet :=
          collPacket s g x p.tclass par
            { kind := kCONTRIB, step := n, late := late, over_ := c.over_, poison := poison, off := c.off
              sig := p.sig, payload := c.bytes }
        let ps := (contribParts x p).map pk
        foldSt injectPacket ps (setStep g n (fun p => { p with state := .waiting, up := ps }) s)
      | none =>
        let (bs, o) := finalOf x p
        haveResult g n bs (kidsOf x)
          (setGroup g (fun x => { x with decided := laterDecided x.decided n })
            (setStep g n (fun p => { p with overflow := o }) s))

/-- Read the next piece of the member's own contribution. -/
def contribRead (g n : Nat) (s : State) : State :=
  let x := group s g
  match stepOf s g n with
  | none => s
  | some p =>
    let (a, k) := pieceAt p.laddr [] p.own.length (sgLEN p.sig - p.own.length)
    later (.access { asid := (queue s x.qn).asid, addr := a, len := k, cls := .localBuf, rights := p.rights
                     qn := some x.qn, cont := .contribRead g n }) s

/-- A piece of the contribution has been read (R201). -/
def contribDone (g n : Nat) (r : AccResult) (s : State) : State :=
  match stepOf s g n with
  | none => s
  | some p =>
    if p.ownDone || p.stopped then s
    else
      let more (bs : List Byte) (bad : Bool) (s : State) : State :=
        let s := setStep g n (fun p => { p with own := p.own ++ bs, poison := p.poison || bad }) s
        if p.own.length + bs.length < sgLEN p.sig then contribRead g n s
        else tryCombine g n (setStep g n (fun p => { p with ownDone := true }) s)
      match r with
      | .ok bs => more bs false s
      | .poison bs => more bs true s
      | _ => raiseAbort g n 8 s

/-- The launch of a step: late or not (R200). -/
def launchStep (g n : Nat) (late : Bool) (s : State) : State :=
  match stepOf s g n with
  | none => s
  | some p =>
    if p.state != .held then s
    else tryCombine g n (setStep g n (fun p => { p with state := .launched, late := p.late || late }) s)

/-- The launch instant of a step is reached (R200). -/
def collLaunch (g n : Nat) (s : State) : State :=
  if shotDue s (.launch g n) then
    let (late, s) := fireShot (.launch g n) s
    launchStep g n late s
  else s

/-- The first cause for which a step that opens is aborted at once (R191). -/
def openCause (x : Group) (p : Step) : Option Nat :=
  if x.maxLen < sgLEN p.sig then some 3
  else if sgOPCODE p.sig = 0x42 && sgMODE p.sig = 2 && !x.exact then some 4
  else if sgOPCODE p.sig = 0x43 && !x.members.contains (sgROOT p.sig) then some 11
  else if p.parts.any fun c => c.sig != p.sig then some 5
  else none

/-- The open step goes on: it aborts for a reason already known or found now, or its launch is armed. -/
def openGoes (g n : Nat) (x : Group) (p : Step) (s : State) : State :=
  match p.aborted with
  | some (reason, origin) => abortHere g n reason origin s
  | none => match openCause x p with
    | some reason => raiseAbort g n reason s
    | none =>
      let s := when_ (!p.ownDone) (contribRead g n) s
      match armShot (.launch g n) (sgLAUNCH p.sig) s with
      | .atOnce late => launchStep g n late (when_ late (bump 0x4006 0) s)
      | .armed s => s
      | .full => raiseAbort g n 6 s
      | .timeInvalid => raiseAbort g n 7 s

/-- A step opens (R190, R192): it reads its contribution and arms its launch. -/
def openStep (g qn op : Nat) (o : SendOp) (s : State) : State :=
  let s := startTimers g s
  let x := group s g
  let n := x.nextStep
  let due := stepDue g s
  let old : Step := (stepOf s g n).getD { num := n, due := due }
  let p : Step := { old with
    entry := some o.n
    sig := sigOf op o.desc
    tclass := dTCLASS o.desc
    rights := o.rights
    laddr := dLOCAL o.desc
    target := dTARGET o.desc
    ownDone := !hasOwn s (sigOf op o.desc) }
  let s := setGroup g (fun x => { x with
    nextStep := inc 32 n
    steps := (x.steps.filter fun y => y.num != n) ++ [p] }) (markStarted qn o.n s)
  openGoes g n x p s

/-- An ALLREDUCE, BROADCAST or BARRIER starts, or waits (R189, R190). -/
def startStep (qn op : Nat) (s : State) : State :=
  match startable s qn fun k => k == op with
  | none => s
  | some o =>
    let g := gGROUP o.desc
    let x := group s g
    let me := ownNode s
    if x.state == .free || x.gen ≠ gGEN o.desc then failStart qn o.n 0 1 me (markStarted qn o.n s)
    else if x.qn ≠ qn then failStart qn o.n 0 2 me (markStarted qn o.n s)
    else if x.state == .broken then
      let l := lostOf x
      complete qn o.n (collFail stMEMBERLOST x.nextStep l.2 l.1) (tellBroken g (markStarted qn o.n s))
    else if x.state == .joining || x.window ≤ (openSteps x).length then s
    else openStep g qn op o s

/-! ### Destroying a group (R189) -/

/-- The group ends at this member.  `quiet`: with its queue, without completions. -/
def endGroup (g : Nat) (quiet : Bool) (s : State) : State :=
  let x := group s g
  let me := ownNode s
  let s := if quiet then s
    else
      let s := foldSt (fun (p : Step) s => failStep g p.num (collFail stCANCELLED p.num 9 me) s) x.steps s
      when_ x.creating (complete x.qn x.entry (collFail stCANCELLED 0 9 me)) s
  let s := when_ (x.state != .broken)
    (sendCollAll g x.tclass { kind := kDEPART, reason := 34 } (neighbours x)) s
  releaseGroup g s

/-- GROUP_DESTROY (R189). -/
def startGroupDestroy (qn : Nat) (s : State) : State :=
  match startable s qn fun op => op == 0x41 with
  | none => s
  | some o =>
    let g := gGROUP o.desc
    let x := group s g
    let me := ownNode s
    let s := markStarted qn o.n s
    if x.state == .free || x.gen ≠ gGEN o.desc then failStart qn o.n 0 1 me s
    else if x.qn ≠ qn then failStart qn o.n 0 2 me s
    else complete qn o.n { status := stOK, peer := x.top * 4096 } (endGroup g false s)

/-- The groups of a queue end with it, without completions (R189, R108). -/
def groupsOfQueue (qn : Nat) (s : State) : State :=
  let s := { s with ce := { s.ce with creates := s.ce.creates.filter fun c => c.qn != qn } }
  foldSt (fun (e : Nat × Group) s => if e.2.qn = qn then endGroup e.1 true s else s) s.ce.groups s

/-- Every group ends, as when the module departs (R497). -/
def endAllGroups (s : State) : State :=
  foldSt (fun (e : Nat × Group) s => endGroup e.1 false s) s.ce.groups s

/-- The staging of a group is lost (Table 06-4). -/
def stagingLost (g : Nat) (s : State) : State :=
  let x := group s g
  if !awaitsDecision x then s
  else
    let s := sendCollAll g x.tclass { kind := kDEPART, reason := 35 } (neighbours x) s
    breakGroup g 0xFFFFFFFF false (setGroup g (fun x => { x with lost := some (ownNode s, 35) }) s)

/-! ### Arrivals (R183, R188, R192, R204, R205) -/

/-- A packet for a group that is not there, or not this one (R183). -/
def stale (s : State) (p : Packet) : Bool :=
  let x := group s (cGROUP p)
  x.state == .free || x.gen != cGEN p || x.tenant != p.tenant

/-- A JOIN arrives (R188). -/
def joinArrive (g : Nat) (p : Packet) (s : State) : State :=
  let x := group s g
  let child := idNode p.source
  if !(kidsOf x).contains child then s
  else if x.state == .active then sendColl g x.tclass child { kind := kREADY } s
  else if x.state != .joining then s
  else if cARG p ≠ x.digest then abandonGroup g 19 (ownNode s) none s
  else if x.joined.contains child then s
  else joinUp g (setGroup g (fun x => { x with joined := x.joined ++ [child] }) s)

/-- A READY arrives (R188). -/
def readyArrive (g : Nat) (p : Packet) (s : State) : State :=
  let x := group s g
  if x.state == .joining && x.parent == some (idNode p.source) then activateGroup g s else s

/-- An ABANDON arrives (R188, R204). -/
def abandonArrive (g : Nat) (p : Packet) (s : State) : State :=
  let x := group s g
  let from_ := idNode p.source
  if x.state == .joining then abandonGroup g (cREASON p) (cARG p) (some from_) s
  else if x.state == .active && (neighbours x).contains from_ then declareLost g from_ 34 s
  else s

/-- What a CONTRIB adds to what its child has sent; a copy that arrives twice changes nothing. -/
def addPart (c : ChildPart) (p : Packet) (late : Bool) : ChildPart :=
  if c.parts.any fun b => b.1 == cOFFSET p then c
  else
    let parts := c.parts ++ [(cOFFSET p, p.payload)]
    { c with
      sig := cSIG p
      parts := parts
      late := c.late || cLATE p || late
      overflowed := if cOVERFLOW p then cOFFSET p :: c.overflowed else c.overflowed
      poison := c.poison || p.poison
      complete := partWhole (cSIG p) parts }

/-- Is a CONTRIB well formed: do the element headers in it keep their reserved bits 0 (R9)? -/
def contribOk (p : Packet) : Bool :=
  sgOPCODE (cSIG p) != 0x42 || (sgRed (cSIG p)).reservedOk (sgElems (cSIG p)) p.payload

/-- A CONTRIB arrives (R192, R200).  A malformed one has no effect (R9).  A step that is known from its
CONTRIB only takes the signature from there (R249). -/
def contribArrive (g : Nat) (p : Packet) (s : State) : State :=
  let x := group s g
  let child := idNode p.source
  let n := cSTEP p
  let known := (stepOf s g n).isSome
  if !awaitsDecision x || !(kidsOf x).contains child || !(known || stepAhead x n) || !contribOk p then s
  else
    let due := stepDue g s
    let s := if known then s
      else setGroup g (fun x => { x with steps := x.steps ++ [{ num := n, due := due, sig := cSIG p }] }) s
    match stepOf s g n with
    | none => s
    | some st =>
      if st.state == .waiting || st.state == .result || st.aborted.isSome then s
      else
        let launch := sgLAUNCH (cSIG p)
        let late := x.deadline != 0 && launch != 0 && launch + x.deadline < now s
        let old : ChildPart := (st.parts.find? fun c => c.child == child).getD { child := child }
        let new := addPart old p late
        let rest := st.parts.filter fun c => c.child != child
        -- a part takes its place in the order of arrival when it is whole
        let parts := if old.complete then st.parts else rest ++ [new]
        let s := setStep g n (fun st => { st with parts := parts }) (poolWrote x.stack 3 p.payload.length s)
        if stepOpen st && cSIG p ≠ st.sig then raiseAbort g n 5 s else tryCombine g n s

/-- A RESULT arrives: from the parent, or from the top root that was asked for it (R192, R205). -/
def resultArrive (g : Nat) (p : Packet) (s : State) : State :=
  let x := group s g
  let n := cSTEP p
  let from_ := idNode p.source
  match stepOf s g n with
  | none => s
  | some st =>
    if st.state != .waiting || !(x.parent == some from_ || (st.fetching && from_ == x.top)) ||
        st.resParts.any fun c => c.1 == cOFFSET p then s
    else
      let parts := st.resParts ++ [(cOFFSET p, p.payload)]
      let s := setStep g n (fun st => { st with
        resParts := parts
        late := st.late || cLATE p
        overflow := st.overflow || cOVERFLOW p
        poison := st.poison || p.poison }) s
      let need := if sgOPCODE st.sig = 0x44 then 0 else sgLEN st.sig
      if need ≤ sumBy (fun (c : Nat × List Byte) => c.2.length) parts then
        haveResult g n (joinParts parts) (if st.fetching then [] else kidsOf x) s
      else s

/-- A DEPART arrives (R204).  A member that is JOINING ignores it (DESIGN CHOICE, assumption 223). -/
def departArrive (g : Nat) (p : Packet) (s : State) : State :=
  let from_ := idNode p.source
  if (neighbours (group s g)).contains from_ then declareLost g from_ (cREASON p) s else s

/-- A FETCH reaches the top root: it returns the result (R205 point 3). -/
def fetchArrive (g : Nat) (p : Packet) (s : State) : State :=
  let x := group s g
  match x.kept.find? fun k => k.num == cSTEP p with
  | none => s
  | some k =>
    if !isTop s x then s
    else foldSt (fun (c : Nat × List Byte) s =>
      sendColl g k.tclass (idNode p.source)
        { kind := kRESULT, step := k.num, late := k.late, over_ := k.overflow, poison := k.poison
          off := c.1, sig := k.sig, payload := c.2 } s) (resultParts k.bytes) s

/-- A collective packet of a kind arrives (R183): a JOIN that finds its group FREE and every other packet
of another group or generation is counted. -/
def collArrive (kind : Nat) (f : Nat → Packet → State → State) (p : Packet) (s : State) : State :=
  let g := cGROUP p
  let s := when_ p.squall (fun s => { s with ce := { s.ce with squallMarks := s.ce.squallMarks + 1 } }) s
  if cKIND p ≠ kind then s
  else if stale s p then
    if kind = kJOIN && (group s g).state == .free then bump 0x7C36 0 s else bump 0x7C35 0 s
  else
    let from_ := idNode p.source
    f g p (when_ ((neighbours (group s g)).contains from_) (heardFrom g from_) s)

/-! ### Timers (R204) -/

/-- The heartbeat interval is over. -/
def heartbeat (g : Nat) (s : State) : State :=
  let x := group s g
  if (openSteps x).isEmpty || ticks s < x.beatAt then s
  else
    sendCollAll g x.tclass { kind := kHEARTBEAT } (neighbours x)
      (setGroup g (fun x => { x with beatAt := ticks s + rc s 0x7C11 0 }) s)

/-- A tree neighbour has been silent for the liveness timeout. -/
def livenessTimeout (g node : Nat) (s : State) : State :=
  let x := group s g
  let silent : Bool := match mget? x.heard node with | some t => t ≤ ticks s | none => false
  if (openSteps x).isEmpty || !(neighbours x).contains node || !silent then s
  else declareLost g node 33 s

/-! ### What routing and link layer report (R203, R204, R277) -/

/-- Nodes have become unreachable: a tree neighbour is lost, and so is the top root for a member that
waits for its decision. -/
def collUnreachable (nodes : List Nat) (s : State) : State :=
  foldSt (fun (e : Nat × Group) s =>
    let asked := neighbours e.2 ++ (if e.2.undecided then [e.2.top] else [])
    let s := foldSt (fun n s => declareLost e.1 n 32 s) (asked.filter fun n => nodes.contains n) s
    when_ (nodes.contains e.2.top) (fetchFails e.1) s) s.ce.groups s

/-- A packet of this module found no route (R277): the operation completes UNREACHABLE, or the member it
was for is lost.  A top root that is no tree neighbour is declared lost too (DESIGN CHOICE, assumption 221);
after a JOIN the group is FREE, and no ABANDON goes to the children (DESIGN CHOICE, assumption 222). -/
def collUnroutable (p : Packet) (s : State) : State :=
  let g := cGROUP p
  let x := group s g
  let node := idNode p.dest
  if stale s p then s
  else if cKIND p = kJOIN && x.state == .joining then
    complete x.qn x.entry (collFail stUNREACHABLE 0 0 (ownNode s)) (releaseGroup g s)
  else if cKIND p = kFETCH then fetchFails g s
  else if (neighbours x).contains node || node = x.top then declareLost g node 32 s
  else s

/-- A loss notice names a packet of this module (R203): CONTRIB, RESULT and ABORT are sent again. -/
def collLost (p : Packet) (s : State) : State :=
  let g := cGROUP p
  let x := group s g
  let again (q : Packet) (s : State) : State := bump 0x7C38 0 (injectPacket { q with stamp := stampNow s } s)
  if stale s p then s
  else if cKIND p = kCONTRIB then
    match (stepOf s g (cSTEP p)).bind fun st => st.up.find? fun q => cOFFSET q == cOFFSET p with
    | some q => again q s
    | none => s
  else if cKIND p = kRESULT then
    match x.kept.find? fun k => k.num == cSTEP p with
    | some k =>
      match (resultParts k.bytes).find? fun c => c.1 == cOFFSET p with
      | some c =>
        again (collPacket s g x k.tclass (idNode p.dest)
          { kind := kRESULT, step := k.num, late := k.late, over_ := k.overflow, poison := k.poison
            off := c.1, sig := k.sig, payload := c.2 }) s
      | none => s
    | none => s
  else if cKIND p = kABORT then
    again (collPacket s g x p.tclass (idNode p.dest)
      { kind := kABORT, step := cSTEP p, reason := cREASON p, arg := cARG p, sig := cSIG p }) s
  else s

/-! ### What the objects show (Table 06-13, Table 06-14) -/

def groupsInUse (s : State) : Nat := s.ce.groups.length

def groupCode : GroupState → Nat
  | .free => 0 | .joining => 1 | .active => 2 | .broken => 3

/-- Entry of 0x7C20. -/
def groupEntry (s : State) (g : Nat) : Nat :=
  let x := group s g
  groupCode x.state * 2 ^ 124 + x.gen * 2 ^ 116 + x.tenant * 2 ^ 100 + x.qn * 2 ^ 80
    + x.members.length * 2 ^ 62 + x.levels * 2 ^ 59 + (kidsOf x).length * 2 ^ 52
    + (openSteps x).length * 2 ^ 48 + x.nextStep * 2 ^ 16 + (x.reserved + 1023) / 1024

end Sys2Proof.Machine
end

