-- ==== Sys2Proof/Machine/LaneOps.lean ====
section
/-!
DEFINITION. Trade lanes: origin, hops and far end (R284 to R291, R248, R386 to R389).
-/
namespace Sys2Proof.Machine

/-! ### The lane table (R285) -/

def olane (s : State) (l : Nat) : OLane := sget {} s.rt.olanes l

def setOlane (l : Nat) (f : OLane → OLane) (s : State) : State :=
  { s with rt := { s.rt with olanes := smod {} s.rt.olanes l f } }

def setLaneEntries (f : List LaneEntry → List LaneEntry) (s : State) : State :=
  { s with rt := { s.rt with lanes := f s.rt.lanes } }

/-- Lanes originated (0x6042). -/
def lanesOriginated (s : State) : Nat :=
  (s.rt.olanes.filter fun (e : Nat × OLane) => e.2.state != .free).length

/-- Is a label of an egress port in use? -/
def labelUsed (s : State) (p label : Nat) : Bool :=
  (s.rt.lanes.any fun e => e.out == some (p, label)) ||
    (s.rt.olanes.any fun (e : Nat × OLane) => e.2.state != .free && e.2.port == p && e.2.label == label) ||
    s.rt.laneRels.any fun r => r.port == p && r.label == label

/-- The first number that is free, from `start` on and round `base .. base + n - 1`. -/
def probe (used : Nat → Bool) (base n : Nat) : Nat → Nat → Option Nat
  | 0, _ => none
  | fuel + 1, k =>
    let x := base + k % n
    if used x then probe used base n fuel (k + 1) else some x

/-- Some free label of a port: which one is a free value (assumption 26). -/
def freeLabel (p : Nat) (s : State) : Option Nat × State :=
  let (k, s) := draw 65535 s
  (probe (labelUsed s p) 1 65535 65535 k, s)

def freeLnum (s : State) : Option Nat × State :=
  let (k, s) := draw 1024 s
  (probe (fun l => (olane s l).state != .free) 0 1024 1024 k, s)

/-- The lowest-numbered usable port to a peer (R284). -/
def lanePort (s : State) (node : Nat) : Option Nat :=
  (rangeFrom 0 (usedSizes (shape s)).length).findSome? fun d =>
    let c := coord (shape s) d node
    if withCoord (shape s) d (ownNode s) c = node && node ≠ ownNode s then
      ((portsTo s.rt.live d c).filter (usable s s.rt.live)).foldl
        (fun (b : Option Nat) p => match b with | none => some p | some q => some (min p q)) none
    else none

/-- The dimension in which a node is a peer of this one. -/
def peerDim (s : State) (node : Nat) : Option Nat :=
  (rangeFrom 0 (usedSizes (shape s)).length).find? fun d =>
    node ≠ ownNode s && withCoord (shape s) d (ownNode s) (coord (shape s) d node) = node

/-- The nodes of the minimal path, one per differing dimension in ascending order (R284). -/
def lanePath (s : State) (far : Nat) : List Nat :=
  ((rangeFrom 0 (usedSizes (shape s)).length).foldl (fun (a : List Nat × Nat) d =>
    let c := coord (shape s) d far
    if coord (shape s) d a.2 = c then a
    else
      let n := withCoord (shape s) d a.2 c
      (a.1 ++ [n], n)) ([], ownNode s)).1

/-! ### Packets (R251, R287) -/

/-- The flow of a lane's packets on an egress port (R301). -/
def laneFlow (share label tclass : Nat) : Nat := if share = 0 then tclass else 8 + label

/-- Send a packet of a lane on a port: HOPS and LANE are those of the next link. -/
def laneSend (port label flow : Nat) (from_ : Option Nat) (pk : Packet) (s : State) : State :=
  enqueue port flow from_ { pk with hops := pk.hops + 1, vc := 17, lane := label } s

/-- A lane packet of this module. -/
def lanePacket (s : State) (type dest tenant tclass th : Nat) (payload : List Byte) : Packet where
  type := type
  vc := 17
  tepoch := s.rt.live.epoch
  tclass := tclass
  tenant := tenant
  dest := dest * 4096
  source := ownIdentity s 0
  stamp := stampNow s
  th := th
  payload := payload

/-- Count a packet that this module originates. -/
def countInjected (n : Nat) (s : State) : State := bumpG15 5 n (bumpG15 4 1 s)

/-- LANE_RELEASE on a port, from this module on. -/
def sendRelease (port label share tclass tenant origin lnum dest : Nat) (s : State) : State :=
  laneSend port label (laneFlow share label tclass) none
    (lanePacket s tLANEREL dest tenant tclass (laneTH origin lnum false 0 0 0 0 0 0 0) [])
    (countInjected 0 s)

/-- LANE_REPLY on a port: backward, under the label of that link. -/
def sendReply (port label tclass tenant origin lnum code hop : Nat) (s : State) : State :=
  laneSend port label tclass none
    (lanePacket s tLANEREPLY origin tenant tclass (laneTH origin lnum false 0 code hop 0 0 0 0) [])
    (countInjected 0 s)

/-! ### The origin (R290) -/

/-- A release of the origin goes out where `may` holds, and keeps its label and share until it has left (R289);
else it waits. -/
def releaseOut (may : Bool) (r : LaneRel) (s : State) : State :=
  let others := s.rt.laneRels.filter fun q => !(q.port == r.port && q.label == r.label)
  let s := { s with rt := { s.rt with laneRels := others ++ [{ r with sent := may }] } }
  if may then sendRelease r.port r.label r.share r.tclass r.tenant (ownNode s) r.lnum r.far s else s

/-- Has the LAST of a lane gone to its egress port, so that nothing may follow (R289)? -/
def lastOut (x : OLane) : Bool := x.lastSent || x.sends.any fun d => d.last && d.lastSeq.isSome

/-- The LANE_RELEASE of a lane of this module (R290): where it broke, once its port is usable; else as soon as
the port carries it.  Behind its LAST none is sent, and the label is kept until the LAST has left. -/
def originRelease (l : Nat) (x : OLane) (broken : Bool) (s : State) : State :=
  let r : LaneRel :=
    { port := x.port, label := x.label, far := x.far, lnum := l, tenant := x.tenant, tclass := x.tclass
      share := x.share }
  if x.lastSent then s
  else if lastOut x then { s with rt := { s.rt with laneRels := s.rt.laneRels ++ [{ r with sent := true }] } }
  else releaseOut (if broken then usable s s.rt.live x.port else carries s x.port) r s

/-- Ports have become usable: releases that waited for them go out. -/
def kickReleases (s : State) : State :=
  foldSt (fun (r : LaneRel) s =>
    if !r.sent && usable s s.rt.live r.port then releaseOut true r s else s) s.rt.laneRels s

/-- The lane is FREE again; its last CODE and HOP are kept (0x6048). -/
def freeLane (l : Nat) (s : State) : State :=
  setOlane l (fun x => { code := x.code, hop := x.hop }) (settleTags (olane s l).port s)

/-- A service descriptor is accepted by the dispatcher (R385, R386); `f` has what starts it. -/
def laneService (qn op : Nat) (f : SendOp → (State → State) → State → State) (s : State) : State :=
  match startable s qn fun k => k == op with
  | none => s
  | some o => serviceItem qn o (f o) s

/-- A LANE_OPEN ends with a refusal (R387). -/
def openRefused (qn entry code : Nat) (s : State) : State := complete qn entry (cancelled (32 + code) 0) s

/-- LANE_OPEN (R284, R286, R290).  The origin's own egress is checked for a label and for the share as a
hop's is (DEDUCED, assumption 26). -/
def laneOpen (qn : Nat) (s : State) : State :=
  laneService qn 0x30 (fun o start s =>
    let q := queue s qn
    let far := idNode (dDEST o.desc)
    let share := fld (dOP0 o.desc) 15 0
    let path := lanePath s far
    let s := start s
    let no (code : Nat) (s : State) : State := openRefused qn o.n code (bump 0x6068 code s)
    match path.head?.bind (lanePort s) with
    | none => no 10 s
    | some p =>
      let (l, s) := freeLnum s
      match l with
      | none => no 9 s
      | some l =>
        let (b, s) := freeLabel p s
        match b with
        | none => no 4 s
        | some b =>
          if share ≠ 0 && rc s 0x6044 0 < shareReserved s p + share then no 5 s
          else
            let x : OLane := { olane s l with
              state := .setup
              far := far
              share := share
              path := path
              sent := 0
              port := p
              label := b
              qn := qn
              entry := o.n
              fn := q.fn
              tenant := q.tenant
              tclass := dTCLASS o.desc
              deadline := ticks s + rc s 0x6045 0 }
            -- numeric values in a payload are little-endian (R235; DEDUCED, assumption 172)
            let entries := (path ++ List.replicate (8 - path.length) 0).flatMap (leBytes 4)
            let s := settleTags p s
            laneSend p b (laneFlow share b x.tclass) none
              (lanePacket s tLANESETUP far q.tenant x.tclass
                (laneTH (ownNode s) l false path.length 0 0 share 0 0 0) entries)
              (countInjected 32 (setOlane l (fun _ => x) s))) s

/-- May a queue use a lane: the reason that ends the service otherwise (R387). -/
def laneDenied (s : State) (qn l : Nat) : Option Nat :=
  let x := olane s l
  let q := queue s qn
  if x.state == .free then some esNOTOPEN
  else if x.fn ≠ q.fn || x.tenant ≠ q.tenant then some esNOTOWNER
  else if x.state != .opened || x.sends.any fun d => d.last then some esNOTOPEN
  else none

def setSend (l : Nat) (qn entry : Nat) (f : LaneSend → LaneSend) (s : State) : State :=
  setOlane l (fun x => { x with
    sends := updFirst (fun d => d.qn == qn && d.entry == entry) f x.sends }) s

/-- The LANE_SEND that is emitting. -/
def emitting (x : OLane) : Option LaneSend := x.sends.find? fun d => d.lastSeq.isNone

/-- Read the next piece of local data of the LANE_SEND that is emitting. -/
def laneGather (l : Nat) (s : State) : State :=
  match emitting (olane s l) with
  | none => s
  | some d =>
    let need := min 4032 (d.length - d.cursor)
    let (a, n) := pieceAt d.laddr d.frags (d.cursor + d.buf.length) (need - d.buf.length)
    later (.access { asid := d.asid, addr := a, len := n, cls := .localBuf, rights := d.rights
                     qn := some d.qn, cont := .laneRead l }) s

/-- A packet of the lane is whole: it is sent; the next one is gathered (R387, R242). -/
def laneEmit (l : Nat) (s : State) : State :=
  let x := olane s l
  match emitting x with
  | none => s
  | some d =>
    let done := d.length ≤ d.cursor + d.buf.length
    let th := laneTH (ownNode s) l (d.last && done) 0 0 0 0 x.sent d.key (d.addr + d.cursor)
    let pk := { lanePacket s tLANEDATA x.far x.tenant x.tclass th d.buf with poison := d.poison }
    let s := laneSend x.port x.label (laneFlow x.share x.label x.tclass) none pk (countInjected d.buf.length s)
    let s := setOlane l (fun x => { x with sent := x.sent + 1 }) s
    let s := setSend l d.qn d.entry (fun d => { d with
      cursor := d.cursor + d.buf.length
      buf := []
      poison := false
      lastSeq := if done then some x.sent else none }) s
    laneGather l s

/-- LANE_SEND (R387). -/
def laneSendStart (qn : Nat) (s : State) : State :=
  laneService qn 0x31 (fun o start s =>
    let l := fld (dOP0 o.desc) 9 0
    let q := queue s qn
    let s := start s
    match laneDenied s qn l with
    | some reason => complete qn o.n (cancelled reason 0) s
    | none =>
      let idle := (emitting (olane s l)).isNone
      let d : LaneSend :=
        { qn := qn, entry := o.n, key := dKEY o.desc, addr := dTARGET o.desc, laddr := dLOCAL o.desc
          frags := o.frags, length := dLENGTH o.desc, rights := o.rights, asid := q.asid
          last := bit (dOP0 o.desc) 16, notify := bit (dOP0 o.desc) 17 }
      let s := setOlane l (fun x => { x with sends := x.sends ++ [d] }) s
      if idle then laneGather l s else s) s

/-- A piece of a LANE_SEND's data has been read.  A fault ends it with LOCAL_FAULT. -/
def laneRead (l : Nat) (r : AccResult) (s : State) : State :=
  match emitting (olane s l) with
  | none => s
  | some d =>
    let more (bs : List Byte) (bad : Bool) (s : State) : State :=
      let s := setSend l d.qn d.entry (fun d => { d with buf := d.buf ++ bs, poison := d.poison || bad }) s
      if d.buf.length + bs.length < min 4032 (d.length - d.cursor) then laneGather l s else laneEmit l s
    match r with
    | .ok bs => more bs false s
    | .poison bs => more bs true s
    | _ =>
      laneGather l (complete d.qn d.entry { status := stLOCALFAULT }
        (setOlane l (fun x => { x with
          sends := x.sends.filter fun e => !(e.qn == d.qn && e.entry == d.entry) }) s))

/-- LANE_CLOSE (R387): it waits for the LANE_SENDs that started before it (DEDUCED, assumption 26). -/
def laneClose (qn : Nat) (s : State) : State :=
  laneService qn 0x32 (fun o start s =>
    let l := fld (dOP0 o.desc) 9 0
    match laneDenied s qn l with
    | some reason => complete qn o.n (cancelled reason 0) (start s)
    | none =>
      if !(olane s l).sends.isEmpty then s
      else
        complete qn o.n { status := stOK }
          (originRelease l (olane s l) false (freeLane l (start s)))) s

/-- A lane ends at its origin with its descriptors: closed with its function or with the module's
departure (R454, R497). -/
def closeLane (l : Nat) (s : State) : State :=
  let x := olane s l
  let s := foldSt (fun (d : LaneSend) s =>
    if d.lastSeq.isSome then s else complete d.qn d.entry (cancelled esNOTOPEN 0) s) x.sends s
  let s := if x.state == .setup then openRefused x.qn x.entry 8 s else s
  originRelease l x false (freeLane l s)

/-- Every lane that a condition selects is closed. -/
def closeLanes (p : OLane → Bool) (s : State) : State :=
  foldSt (fun (e : Nat × OLane) s =>
    if e.2.state != .free && p e.2 then closeLane e.1 s else s) s.rt.olanes s

/-- A lane breaks (R290, R387). -/
def breakLane (l seq : Nat) (s : State) : State :=
  let x := olane s l
  if x.state != .opened then s
  else
    -- in progress: what is being emitted, and what is emitted and has not left the module
    let now_ (d : LaneSend) : Bool := d.lastSeq.isSome || emitting x == some d
    let s := foldSt (fun (d : LaneSend) s =>
      if now_ d then complete d.qn d.entry { status := stLOSS } s
      else complete d.qn d.entry (cancelled esNOTOPEN 0) s) x.sends s
    originRelease l x true (freeLane l (queueEvent x.qn 0x0703 l 0 seq s))

/-- A loss notice names a LANE_DATA of this module. -/
def laneDataLost (p : Packet) (s : State) : State :=
  if lORIGIN p = ownNode s then breakLane (lLNUM p) (lSEQ p) s else s

/-- The lowest SEQ of a lane that the notices of a flush name; without one, nothing was lost before the
next packet. -/
def lowestLost (s : State) (l : Nat) : Nat :=
  s.rt.delivered.foldl (fun n pk =>
    let q := packetOfBits (beNat pk.payload) []
    if pk.type = tLOSS && q.type = tLANEDATA && lORIGIN q = ownNode s && lLNUM q = l then min n (lSEQ q)
    else n) ((olane s l).sent % 2 ^ 32)

/-- Lanes that have ended and have nothing left to place are reported and forgotten. -/
def farReport (s : State) : State :=
  let over_ (f : FarLane) : Bool := f.ended && f.busy == 0
  let done := s.me.farLanes.filter over_
  foldSt (fun (f : FarLane) s =>
    if f.notify && !f.refused then postEvent f.eqn 0x0701 (f.origin * 4096 + f.lnum) 0 f.placed s else s) done
    { s with me := { s.me with farLanes := s.me.farLanes.filter fun f => !over_ f } }

/-- A port has been flushed: lanes that start here break; the rest of the path of the others is released
(R290, R291). -/
def lanesFlushed (p : Nat) (s : State) : State :=
  -- the shares that end here end with the tags of before (R303, R318)
  let ends (e : LaneEntry) : Bool := e.inPort == p || e.out.any fun o => o.1 == p
  let s := foldSt settleTags (p :: (s.rt.lanes.filter ends).filterMap fun e => e.out.map fun o => o.1) s
  let s := foldSt (fun (e : Nat × OLane) s =>
    if e.2.state == .opened && e.2.port == p then breakLane e.1 (lowestLost s e.1) s else s) s.rt.olanes s
  -- a LANE_RELEASE that the flush of its egress port has discarded holds nothing any more
  let s := { s with rt := { s.rt with laneRels := s.rt.laneRels.filter fun r => !(r.sent && r.port == p) } }
  let s := setLaneEntries (fun l => l.filter fun e => !(e.gone && e.out.any fun o => o.1 == p)) s
  let gone := s.rt.lanes.filter fun e => e.inPort == p && !e.gone
  -- an entry keeps its label and share until its LANE_RELEASE has left (R289)
  let goes (e : LaneEntry) : Bool := e.out.any fun o => carries s o.1
  let s := setLaneEntries (fun l => (l.filter fun e => e.inPort != p || e.gone || goes e).map fun e =>
    if e.inPort = p then { e with gone := true } else e) s
  let hit (f : FarLane) : Bool := gone.any fun e => e.out.isNone && e.origin == f.origin && e.lnum == f.lnum
  let s := { s with me := { s.me with farLanes := s.me.farLanes.map fun f =>
    { f with ended := f.ended || hit f } } }
  farReport <| foldSt (fun (e : LaneEntry) s => match e.out with
    | some (q, b) =>
      if carries s q then sendRelease q b e.share e.tclass e.tenant e.origin e.lnum (ownNode s) s else s
    | none => s) gone s

/-- A LANE_REPLY reaches the origin (R290). -/
def replyAtOrigin (pk : Packet) (s : State) : State :=
  let l := lLNUM pk
  let x := olane s l
  if x.state != .setup || x.label ≠ pk.lane then s
  else
    let s := setOlane l (fun x => { x with code := lCODE pk, hop := lHOP pk }) s
    if lCODE pk = 0 then
      complete x.qn x.entry { status := stOK, imm := l } (setOlane l (fun x => { x with state := .opened }) s)
    else openRefused x.qn x.entry (lCODE pk) (freeLane l s)

/-- The reply to a setup is overdue (R290). -/
def setupTimeout (l : Nat) (s : State) : State :=
  let x := olane s l
  if x.state == .setup && x.deadline ≤ ticks s then
    let s := setOlane l (fun x => { x with code := 8 }) (bump 0x6068 8 s)
    openRefused x.qn x.entry 8 (originRelease l x false (freeLane l s))
  else s

/-- SQUALL_NOTICE at the origin (R288), and the end of its hold. -/
def squallArrive (pk : Packet) (s : State) : State :=
  let l := fld pk.th 235 226
  if fld pk.th 255 236 = ownNode s && (olane s l).state == .opened then
    setOlane l (fun x => { x with squallHold := true, holdUntil := ticks s + rc s 0x6046 0 }) s
  else s

def squallExpiry (l : Nat) (s : State) : State :=
  if (olane s l).squallHold && (olane s l).holdUntil ≤ ticks s then
    setOlane l (fun x => { x with squallHold := false }) s
  else s

/-! ### Hops (R286, R287, R289) -/

/-- The acceptance entry of a tenant (0x8438). -/
def acceptance (s : State) (tenant : Nat) : Option Nat :=
  (rangeFrom 0 256).find? fun k =>
    let e := rc s 0x8438 k
    bit e 0 && fld e 63 48 == tenant

/-- The checks of a hop, in order: the refusal, or the egress port and label; none of both at the far
end. -/
def setupCheck (port : Nat) (pk : Packet) (s : State) : Nat × Option (Nat × Nat) × State :=
  let len := lPATHLEN pk
  let k := pk.hops - 1
  let entry (i : Nat) : Nat := leAt pk.payload (4 * i) 4
  let far := pk.hops == len
  let inDim := (liveEntry s port).dim
  let next := entry (k + 1)
  let nextOk : Bool := far || (match peerDim s next with | some d => decide (inDim < d) | none => false)
  let busy := 64 ≤ (s.rt.lanes.filter fun e => e.tentative && !e.gone && e.inPort == port).length
  let full := 8192 ≤ s.rt.lanes.length
  if len = 0 || 4 < len || len < pk.hops || entry k ≠ ownNode s || !nextOk then (1, none, s)
  else if far then
    if full then (3, none, s)
    else if busy then (6, none, s)
    else if (acceptance s pk.tenant).isNone then (7, none, s)
    else (0, none, s)
  else match lanePort s next with
    | none => (2, none, s)
    | some q =>
      if full then (3, none, s)
      else
        let (b, s) := freeLabel q s
        match b with
        | none => (4, none, s)
        | some b =>
          if lSHARE pk ≠ 0 && rc s 0x6044 0 < shareReserved s q + lSHARE pk then (5, none, s)
          else if busy then (6, none, s)
          else (0, some (q, b), s)

/-- A LANE_SETUP arrives on a port (R286). -/
def setupArrive (port : Nat) (pk : Packet) (s : State) : State :=
  let hop := pk.hops - 1
  let (code, out, s) := setupCheck port pk s
  let reply (s : State) : State :=
    sendReply port pk.lane pk.tclass pk.tenant (lORIGIN pk) (lLNUM pk) code hop s
  if code ≠ 0 then reply (bump 0x6068 code s)
  else
    let e : LaneEntry :=
      { inPort := port, inLabel := pk.lane, origin := lORIGIN pk, lnum := lLNUM pk, tenant := pk.tenant
        share := lSHARE pk, tclass := pk.tclass, out := out, tentative := out.isSome
        deadline := ticks s + 2 * rc s 0x6045 0 }
    let s := match out with | some (q, _) => settleTags q s | none => s
    let s := setLaneEntries (fun l => l ++ [e]) s
    match out with
    | some (q, b) => laneSend q b (laneFlow e.share b e.tclass) none pk s
    | none =>
      let eqn := fld (rc s 0x8438 ((acceptance s pk.tenant).getD 0)) 47 28
      reply { s with me := { s.me with
        farLanes := s.me.farLanes ++ [{ id := s.me.nextFar, origin := e.origin, lnum := e.lnum, eqn := eqn }]
        nextFar := s.me.nextFar + 1 } }

/-- A LANE_REPLY arrives on a port (R286, R290). -/
def replyArrive (port : Nat) (pk : Packet) (s : State) : State :=
  if lORIGIN pk = ownNode s then replyAtOrigin pk s
  else
    let mine (e : LaneEntry) : Bool :=
      e.out == some (port, pk.lane) && e.tentative && !e.gone && e.origin == lORIGIN pk && e.lnum == lLNUM pk
    match s.rt.lanes.find? mine with
    | none => s
    | some e =>
      let s := if lCODE pk = 0 then
          setLaneEntries (updFirst mine fun e => { e with tentative := false }) s
        else setLaneEntries (eraseFirst mine) (settleTags port s)
      laneSend e.inPort e.inLabel e.tclass none pk s

/-- The entry of an ingress port and label. -/
def laneEntry (s : State) (port label : Nat) : Option LaneEntry :=
  s.rt.lanes.find? fun e => e.inPort == port && e.inLabel == label && !e.gone

def dropLaneEntry (port label : Nat) (s : State) : State :=
  let s := match (laneEntry s port label).bind LaneEntry.out with | some (q, _) => settleTags q s | none => s
  setLaneEntries (eraseFirst fun e => e.inPort == port && e.inLabel == label && !e.gone) s

/-- A lane ends at its far end; what is being placed is reported when it is (R388). -/
def farEnd (origin lnum : Nat) (notify : Bool) (s : State) : State :=
  { s with me := { s.me with
    farLanes := updFirst (fun f => f.origin == origin && f.lnum == lnum && !f.ended)
      (fun f => { f with ended := true, notify := notify }) s.me.farLanes } }

/-- What ends a lane has come to a hop: nothing else finds the entry any more (R292), which keeps its label and
share until that packet has left (R289). -/
def endLaneEntry (port label : Nat) (s : State) : State :=
  setLaneEntries (updFirst (fun e => e.inPort == port && e.inLabel == label && !e.gone) fun e =>
    { e with gone := true }) s

/-- A LANE_RELEASE arrives on a port (R289, R291). -/
def releaseArrive (port : Nat) (pk : Packet) (s : State) : State :=
  match laneEntry s port pk.lane with
  | none => s
  | some e => match e.out with
    | some (q, b) =>
      if carries s q then laneSend q b (laneFlow e.share b e.tclass) none pk (endLaneEntry port pk.lane s)
      else dropLaneEntry port pk.lane s
    | none => farReport (farEnd e.origin e.lnum false (dropLaneEntry port pk.lane s))

/-- A tentative entry has waited too long for its reply (R286). -/
def tentativeTimeout (port label : Nat) (s : State) : State :=
  match laneEntry s port label with
  | some e => if e.tentative && e.deadline ≤ ticks s then dropLaneEntry port label s else s
  | none => s

/-- A packet that ends a lane has left a port: a LANE_RELEASE releases at once, a LAST by
LANE_LAST_DEPART (R289).  Either way a label that waited for it is free. -/
def laneOut (port : Nat) (pk : Packet) (s : State) : State :=
  let s := settleTags port s
  let left := s.rt.laneRels.filter fun r => !(r.sent && r.port == port && r.label == pk.lane)
  let s := { s with rt := { s.rt with laneRels := left } }
  if pk.type = tLANEREL then
    setLaneEntries (fun l => l.filter fun e => !(e.gone && e.out == some (port, pk.lane))) s
  else
    let s := setLaneEntries (updFirst (fun e => e.out == some (port, pk.lane)) fun e => { e with lastSent := true }) s
    { s with rt := { s.rt with olanes := s.rt.olanes.map fun (e : Nat × OLane) =>
      if e.2.state == .opened && e.2.port == port && e.2.label == pk.lane then (e.1, { e.2 with lastSent := true })
      else e } }

/-- A LAST packet has left the port under this label: the hop, or the origin, releases its entry. -/
def lastDepart (port label : Nat) (s : State) : State :=
  let s := setLaneEntries (fun l => l.filter fun e => !(e.out == some (port, label) && e.lastSent)) (settleTags port s)
  foldSt (fun (e : Nat × OLane) s =>
    if e.2.lastSent && e.2.port == port && e.2.label == label then freeLane e.1 s else s) s.rt.olanes s

/-! ### The far end (R248, R388) -/

/-- SQUALL_NOTICE, at most one per lane in 10 µs (R248), a duration that no step shortens (R584). -/
def squallMark (port : Nat) (pk : Packet) (e : LaneEntry) (s : State) : State :=
  if !pk.squall then s
  else
    let marked := e.marked + 1
    let upd (f : LaneEntry → LaneEntry) : State → State :=
      setLaneEntries (updFirst (fun e => e.inPort == port && e.inLabel == pk.lane && !e.gone) f)
    if ticks s < e.quietTo then upd (fun e => { e with marked := marked }) s
    else
      let t := ticks s + ticksOf 10 1000000
      injectPacket
        { type := tSQUALL, dest := pk.source, source := pk.dest, tenant := pk.tenant, tclass := pk.tclass
          stamp := stampNow s
          th := e.origin % 2 ^ 20 * 2 ^ 236 + e.lnum % 2 ^ 10 * 2 ^ 226 + marked % 2 ^ 32 * 2 ^ 194 }
        (upd (fun e => { e with marked := 0, quietTo := t }) s)

/-- The PUT as which a LANE_DATA packet is checked (R388). -/
def asPut (pk : Packet) : Packet :=
  { pk with type := tPUT, th := reqTH 0 0 pk.payload.length 0 (lKEY pk) (lADDR pk) 0 }

/-- The lane that data belongs to: the one that has not ended. -/
def farLane (s : State) (pk : Packet) : Option FarLane :=
  s.me.farLanes.find? fun f => f.origin == lORIGIN pk && f.lnum == lLNUM pk && !f.ended

def setFar (far : Nat) (g : FarLane → FarLane) (s : State) : State :=
  { s with me := { s.me with farLanes := updFirst (fun f => f.id == far) g s.me.farLanes } }

/-- Data of a lane is refused: the rest of the lane is discarded, LANE_ERROR is posted once. -/
def farRefuse (pk : Packet) (far reason : Nat) (s : State) : State :=
  match s.me.farLanes.find? fun f => f.id == far with
  | none => s
  | some f =>
    let s := bump 0x8452 0 s
    if f.refused then s
    else postEvent f.eqn 0x0702 (f.origin * 4096 + f.lnum) reason (lADDR pk)
      (setFar far (fun f => { f with refused := true }) s)

/-- Place a packet from byte `pos` of its payload on. -/
def lanePlaceNext (pk : Packet) (pos far : Nat) (s : State) : State :=
  let (a, n) := pieceAt (lADDR pk) [] pos (pk.payload.length - pos)
  later (.access { regionAcc s (asPut pk) a n (.lanePlace pk (pos + n) far) with
    waits := false, data := some (slice pk.payload pos n), poison := pk.poison }) s

/-- A piece of a LANE_DATA payload is placed, or failed. -/
def lanePlaced (pk : Packet) (pos far : Nat) (r : AccResult) (s : State) : State :=
  match r with
  | .ok _ =>
    if pos < pk.payload.length then lanePlaceNext pk pos far s
    else farReport (setFar far (fun f => { f with
      busy := f.busy - 1
      placed := f.placed + pk.payload.length }) s)
  | r => farReport (setFar far (fun f => { f with busy := f.busy - 1 }) (farRefuse pk far (accReason s r).1 s))

/-- A LANE_DATA packet reaches its far end.  No field of the packet carries NOTIFY: whether the end of
the lane is reported is a free value (assumption 25). -/
def farArrive (port : Nat) (pk : Packet) (e : LaneEntry) (s : State) : State :=
  let s := squallMark port pk e s
  let s := when_ (pk.tenant = 0) (bump 0x7867 0) (bumpG15 7 pk.payload.length (bumpG15 6 1 s))
  let s := match farLane s pk with
    | none => s
    | some f =>
      if f.refused then farRefuse pk f.id 0 s
      else match regionCheck s (asPut pk) with
        | some reason => farRefuse pk f.id reason s
        | none => lanePlaceNext pk 0 f.id (setFar f.id (fun f => { f with busy := f.busy + 1 }) s)
  if lLAST pk then
    let (n, s) := draw 2 s
    farReport (farEnd e.origin e.lnum (n == 1) (dropLaneEntry port pk.lane s))
  else s

/-- A LANE_DATA packet arrives on a port (R285, R288).  In transit its buffer stays occupied until it
starts on its egress port. -/
def dataArrive (port : Nat) (held : Bool) (pk : Packet) (s : State) : State :=
  match laneEntry s port pk.lane with
  | none => bump 0x6067 0 (when_ held (leaveIngress (some port) pk) s)
  | some e => match e.out with
    | some (q, b) =>
      laneSend q b (laneFlow e.share b e.tclass) (if held then some port else none) pk
        (when_ (lLAST pk) (endLaneEntry port pk.lane) (bumpG15 8 1 s))
    | none => farArrive port pk e (when_ held (leaveIngress (some port) pk) s)

/-- A LANE_DATA packet of this module has left it: its LANE_SEND may be over (R146). -/
def laneLeft (pk : Packet) (s : State) : State :=
  if pk.type = tLANEDATA && idNode pk.source = ownNode s then
    let l := lLNUM pk
    match (olane s l).sends.find? fun d => match d.lastSeq with | some n => n % 2 ^ 32 == lSEQ pk | none => false with
    | some d =>
      complete d.qn d.entry { status := stOK, length := d.length }
        (setOlane l (fun x => { x with
          sends := x.sends.filter fun e => !(e.qn == d.qn && e.entry == d.entry) }) s)
    | none => s
  else s

/-- Entry of 0x6048. -/
def laneStatus (s : State) (l : Nat) : Nat :=
  let x := olane s l
  (match x.state with | .free => 0 | .setup => 1 | .opened => 2) * 2 ^ 126 + x.far * 2 ^ 106
    + x.share * 2 ^ 90 + x.path.length * 2 ^ 86 + x.code * 2 ^ 78 + x.hop * 2 ^ 70
    + x.sent % 2 ^ 64 * 2 ^ 6

end Sys2Proof.Machine
end

