-- ==== Sys2Proof/Machine/QueueEnd.lean ====
section
/-!
DEFINITION. The ends of queues, functions and stacks: DRAIN and DESTROY (R80, R107 to R109), ranges that
change (R76), function-level reset (R454), and the loss of a stack (R112, R442, R445).
-/
namespace Sys2Proof.Machine

/-! ### Work of a queue taken away (R107, R108) -/

/-- Receives and BUFFER entries of a queue that wait for a message. -/
def postedOf (s : State) (qn : Nat) : Nat :=
  sumBy (fun (e : Nat × Domain) => (e.2.posted.filter fun r => r.qn == qn).length) s.mu.domains
    + (sget [] s.ra.buffers qn).length

/-- They are removed: with QUEUE_DESTROYED, or without completions. -/
def removePosted (qn : Nat) (quiet : Bool) (s : State) : State :=
  let q := queue s qn
  let rs := s.mu.domains.flatMap fun (e : Nat × Domain) => e.2.posted.filter fun r => r.qn == qn
  let bs := sget [] s.ra.buffers qn
  let s := { s with
    mu := { s.mu with
      domains := smapv {} (fun _ x => { x with posted := x.posted.filter fun r => r.qn != qn }) s.mu.domains }
    ra := { s.ra with buffers := sset [] s.ra.buffers qn [] } }
  if quiet then releaseSlots q.cqn (rs.length + bs.length) s
  else
    let s := foldSt (fun (r : Recv) s => recvGone r stDESTROYED s) rs s
    foldSt (fun (b : Buffer) s => recvDone qn b.entry b.userData 3 { status := stDESTROYED } none s) bs s

/-- The messages that a queue's operations have sent. -/
def messagesOf (s : State) (qn : Nat) : List (Nat × Nat) :=
  s.ra.src.flatMap fun (e : Nat × FlowSrc) =>
    (e.2.msgs.filter fun m => match m.owner with | .desc q _ => q == qn | _ => false).map fun m => (e.1, m.rsn)

/-- The item of a context is abandoned where it serves the queue. -/
def abandonItem (qn : Nat) (x : ECtx) : ECtx :=
  match x.item with
  | some it =>
    if (itemDesc it.kind).any fun d => d.1 == qn then { x with item := some { it with abandoned := true } } else x
  | none => x

/-- Engine items that serve a queue are abandoned (R396); its LANE_SENDs stop. -/
def abandonServices (qn : Nat) (s : State) : State :=
  let s := { s with me := { s.me with
    engines := smapv {} (fun _ g => { g with ctxs := smapv {} (fun _ x => abandonItem qn x) g.ctxs }) s.me.engines } }
  { s with rt := { s.rt with
    olanes := smapv {} (fun _ x => { x with sends := x.sends.filter fun d => d.qn != qn }) s.rt.olanes } }

/-- A built-in service ends without the DONE of its handler (R383, R385): what it has not reached yet it does not
reach, and its descriptor ends so. -/
def serviceEnds (qn entry : Nat) (comp : Comp) (s : State) : State :=
  let mine (d : LaneSend) : Bool := d.qn == qn && d.entry == entry && d.lastSeq.isNone
  match s.rt.olanes.find? fun (e : Nat × OLane) => e.2.state == .setup && e.2.qn == qn && e.2.entry == entry with
  | some (l, x) => complete qn entry comp (originRelease l x false (freeLane l s))
  | none => match s.rt.olanes.find? fun (e : Nat × OLane) => e.2.sends.any mine with
    | some (l, _) =>
      laneGather l (complete qn entry comp
        (setOlane l (fun x => { x with sends := x.sends.filter fun d => !mine d }) s))
    | none =>
      if s.ce.creates.any fun c => c.qn == qn && c.entry == entry then
        complete qn entry comp (dropCreate qn entry s)
      else match s.ce.groups.find? fun (e : Nat × Group) =>
          e.2.state == .joining && e.2.creating && e.2.qn == qn && e.2.entry == entry with
        | some (g, x) => complete qn entry comp (releaseGroup g
            (sendCollAll g x.tclass { kind := kABANDON, reason := 16, arg := ownNode s } (neighbours x) s))
        | none => s

/-- Waiting accesses of a queue leave their records and end with their operations (R233): placings, CSENDs and
the data of an RGET fail, and those of abandoned work have nothing to go on to. -/
def endWaiters (qn : Nat) (s : State) : State :=
  let mine (a : Acc) : Bool := a.qn == some qn
  let fails (a : Acc) : Bool := match a.cont with
    | .recvPlace _ | .recvInfo _ | .sendPlace _ _ | .rgetRead _ _ _ _ => true
    | _ => false
  let l := s.tu.recs.flatMap fun (e : Nat × FaultRec) => e.2.waiters.filter fun a => mine a && fails a
  foldSt (fun (a : Acc) s => later (.result a.cont (.fault 1)) s) l (dropWaiters mine s)

/-- The work of a queue is abandoned: how many fetched entries or receives, and unfetched entries. -/
def abandonWork (qn : Nat) (s : State) : (Nat × Nat) × State :=
  let q := queue s qn
  let posted := postedOf s qn
  let counts := (q.ops.length + posted, diff32 q.tail q.fetched)
  let s := foldSt (fun (k : Nat × Nat) s => abandonAt k.1 k.2 s) (messagesOf s qn) s
  let s := { s with ra := { s.ra with failures := s.ra.failures.filter fun e => e.qn != qn } }
  let s := dropHandles qn (fun _ => true) s
  let s := abandonServices qn (groupsOfQueue qn s)
  let s := endWaiters qn (removePosted qn true s)
  let s := when_ (q.type ≤ qSRQ) (releaseSlots q.cqn (q.gustLeft + q.ops.length)) s
  (counts, setQueue qn (fun q => { q with
    ops := []
    entries := []
    writing := false
    gustLeft := 0
    fragWait := none }) s)

/-- The DRAIN or DESTROY that waits on a queue ends INTERRUPTED (R80). -/
def interruptPending (qn : Nat) (s : State) : State :=
  match (queue s qn).drainFor with
  | some (aqn, n, _) => adminDone aqn n { status := asINTERRUPTED } (setQueue qn (fun q => { q with drainFor := none }) s)
  | none => s

/-- The count that DESTROY reports in IMM (Table 03-11): RETIRED, which equals FETCHED for RECV and SRQ
(Table 03-14); 0 where the context that held it is lost (R112). -/
def destroyCount (q : Queue) : Nat := if q.lost then 0 else drainCount q

/-- DESTROY with FORCE takes the work away (R108); the command of `by_` waits for R109, and the queue shows
HALTED until it is DESTROYED (DESIGN CHOICE, assumption 216).  A DRAIN or DESTROY
that was waiting ends INTERRUPTED (Table 03-13). -/
def destroyForce (qn : Nat) (by_ : Option (Nat × Nat)) (s : State) : State :=
  let n := destroyCount (queue s qn)
  let s := interruptPending qn (setQueue qn (fun q => { q with forced := true }) s)
  let (c, s) := abandonWork qn s
  setQueue qn (fun q => { q with
    state := .halted
    destroying := some (c.1, n, if q.lost then 0 else c.2)
    drainFor := match by_ with | some (a, n) => some (a, n, true) | none => none }) s

/-- Is a COMPLETION or EVENT queue named by another existing queue (R107)? -/
def namedByOther (s : State) (qn : Nat) : Bool :=
  let ty := (queue s qn).type
  s.qm.queues.any fun (e : Nat × Queue) =>
    e.1 != qn && qExists e.2 &&
      ((ty == qCQ && e.2.type ≤ qSRQ && e.2.cqn == qn) || (ty == qEQ && !e.2.noEq && e.2.eqn == qn))

/-- QUEUE_DESTROY and QUEUE_DESTROY_FORCE (R107, R108).  DEDUCED (log entry 173): a HALTED COMPLETION or
EVENT queue writes none of the entries it holds (R81), so DESTROY discards them. -/
def queueDestroy (fn : Nat) (force : Bool) (s : State) : State :=
  adminStart fn (fun d => dOPCODE d = 0x85 && aOPTION d == force) (fun aqn o s =>
    onTarget fn aqn o true true (fun qn q s =>
      let done (st : Nat) : State := adminDone aqn o.n { status := st } s
      if qCQ ≤ q.type && namedByOther s qn then done asINUSE
      else if force || q.haltReason = hCONTEXTLOST then destroyForce qn (some (aqn, o.n)) s
      else if q.state == .draining || q.destroying.isSome then done asBADSTATE
      else if q.state == .halted then
        setQueue qn (fun q => { q with
          entries := if qCQ ≤ q.type then [] else q.entries
          destroying := some (0, destroyCount q, diff32 q.tail q.fetched)
          drainFor := some (aqn, o.n, true) }) s
      else
        setQueue qn (fun q => { q with
          state := .draining
          drainMark := q.tail
          drainFor := some (aqn, o.n, true) }) s) s) s

/-- Work up to the drain mark has finished (R80): DRAINED, or DESTROY proceeds. -/
def drainComplete (qn : Nat) (s : State) : State :=
  let q := queue s qn
  if q.state != .draining || !drained q || q.destroying.isSome then s
  else match q.drainFor with
    | some (_, _, true) =>
      setQueue qn (fun q => { q with destroying := some (0, destroyCount q, diff32 q.tail q.drainMark) }) s
    | _ => drainEnd qn s

/-- Is an access of host memory on a queue's behalf still in progress, or can one still be issued
(R109)? -/
def destroyWaits (s : State) (qn : Nat) : Bool :=
  let q := queue s qn
  queueBusy s qn || !q.ops.isEmpty || !q.entries.isEmpty || q.writing || !(messagesOf s qn).isEmpty ||
    (s.mu.placing.any fun (e : Nat × Placing) => e.2.recv.qn == qn) ||
    (s.ra.tgt.any fun (e : Nat × FlowTgt) => e.2.msgs.any fun m => match m.buffer with
      | some b => b.qn == qn
      | none => false) ||
    (s.me.engines.any fun (e : Nat × Engine) => e.2.ctxs.any fun (c : Nat × ECtx) => match c.2.item with
      | some it => (match itemDesc it.kind with | some (k, _) => k == qn | none => false)
      | none => false)

/-- The last step of a DESTROY (R109): the groups of the queue are released, receives that still wait are
removed, and the queue is DESTROYED once nothing goes on. -/
def destroyComplete (qn : Nat) (s : State) : State :=
  match (queue s qn).destroying with
  | none => s
  | some (n, retired, unf) =>
    if !(queue s qn).ops.isEmpty then s
    else
      let k := postedOf s qn
      let s := removePosted qn false (groupsOfQueue qn s)
      let s := setQueue qn (fun q => { q with destroying := some (n + k, retired, unf) }) s
      if destroyWaits s qn then s
      else
        let q := queue s qn
        let imm := if q.forced then retired else destroyCount q
        let s := closeDying (setQueue qn (fun _ => { state := .destroyed }) s)
        match q.drainFor with
        | some (aqn, e, _) =>
          adminDone aqn e { status := stOK, length := n + k, imm := imm, peer := unf } s
        | none => s

/-- The queues of a range are destroyed with their function's change of range, or its reset (R76). -/
def destroyQueues (lo n : Nat) (s : State) : State :=
  foldSt (fun (e : Nat × Queue) s =>
    if lo ≤ e.1 && e.1 < lo + n && qExists e.2 && !dying e.2 then destroyForce e.1 none s else s)
    s.qm.queues s

/-- A queue halts with CONTEXT_LOST (R112), `own`: because its own context was in stack `k`.  Its work is
abandoned as by FORCE, without completions; a plain DRAIN or DESTROY of it ends INTERRUPTED, a DESTROY with
FORCE goes on. -/
def contextLost (qn k : Nat) (own : Bool) (s : State) : State :=
  let q := queue s qn
  if !qExists q then s
  else if q.haltReason = hCONTEXTLOST then setQueue qn (fun x => { x with lost := x.lost || own }) s
  else
    let on := dying q
    let s := if on then s else interruptPending qn (setQueue qn (fun x => { x with forced := true }) s)
    let (_, s) := abandonWork qn s
    let n := q.fetched
    let s := setQueue qn (fun x => { x with
      state := .halted
      haltReason := hCONTEXTLOST
      haltDetail := k
      haltIndex := n
      destroying := if on then x.destroying else none
      lost := own }) s
    let s := when_ (q.admin && q.type == qSEND) (adminHalt q.fn hCONTEXTLOST n) (bump 0x7034 0 s)
    queueEvent qn 0x0001 qn hCONTEXTLOST n s

/-! ### Functions (R454) -/

/-- The started operations of a connection are abandoned and retire without a completion (R175). -/
def dropConn (c : Nat) (s : State) : State :=
  let s := foldSt (fun (k : Nat × Nat) s =>
    complete k.1 k.2 { status := stOK, quiet := true } (abandonMsg k.1 k.2 s)) (connOps s c) s
  freeConn c s

/-- The queues of a function's old range go, its regions drain, and its address spaces close once nothing
uses them (R76, Table 05-4, Table 07-2): with its reset, or a change of its range. -/
def fnMoved (fn lo n : Nat) (s : State) : State :=
  let s := destroyQueues lo n s
  let s := foldSt (fun (e : Nat × Region) s =>
    if e.2.state == .live && e.2.fn == fn then drainRegion e.1 none s else s) s.ra.regions s
  closeDying (foldSt (fun (e : Nat × AddrSpace) s =>
    if e.2.state == .live && e.2.fn == fn then setSpace e.1 (fun a => { a with dying := true }) s else s)
    s.tu.spaces s)

/-- What a function owned ends with its reset: queues, regions, connections, lanes, address spaces,
locks, and the mailbox session. -/
def fnTeardown (fn : Nat) (s : State) : State :=
  let (lo, n) := queueRange s fn
  let s := fnMoved fn lo n s
  let s := foldSt (fun (e : Nat × Conn) s =>
    if e.2.state != .closed && e.2.fn == fn then dropConn e.1 s else s) s.ra.conns s
  let s := closeLanes (fun x => x.fn == fn) s
  let s := orphanFn fn s
  let key := (hostFn s fn).mb.session
  when_ (key != 0) (later (.sessionEnds key)) s

/-- Every register of the function takes its reset value; counters count on. -/
def fnRegsReset (fn : Nat) (flr : Bool) (s : State) : State :=
  setFn fn (fun f => { flr := flr, counters := f.counters }) s

/-- The function-level reset of one function. -/
def resetOne (fn : Nat) (flr : Bool) (s : State) : State := fnRegsReset fn flr (fnTeardown fn s)

/-- VFs of a PF that exist. -/
def vfsOf (s : State) (k : Nat) : List Nat :=
  let l := hostLink s k
  if l.vfEnable then rangeFrom (if k = 0 then 2 else 258) (min l.numVfs totalVfs) else []

/-- The settings of a PF that hold for its link take their reset values (R454; PRESUMED, assumption 230: those
of PCI Express). -/
def linkSettingsReset (l : HostLink) : HostLink :=
  { l with vfEnable := false, numVfs := 0, atomicReq := false, relaxed := true, maxPayload := 0, maxRead := 2 }

/-- A function-level reset (R454): a PF takes its VFs with it and clears VF Enable. -/
def fnReset (fn : Nat) (flr : Bool) (s : State) : State :=
  let s := if fn < 2 then
      setLink fn linkSettingsReset (foldSt (fun v s => resetOne v false s) (vfsOf s fn) s)
    else s
  resetOne fn flr s

/-- Is everything of a function gone, so that its reset can end? -/
def fnQuiet (s : State) (fn : Nat) : Bool :=
  let (lo, n) := queueRange s fn
  !(s.qm.queues.any fun (e : Nat × Queue) => lo ≤ e.1 && e.1 < lo + n && qExists e.2) &&
    !(s.tu.spaces.any fun (e : Nat × AddrSpace) => e.2.state != .free && e.2.fn == fn)

/-! ### Stacks (R445, Table 15-3) -/

/-- A region entry is lost (Table 05-4). -/
def regionLost (r k : Nat) (s : State) : State :=
  let x := region s r
  if x.state == .live then drainRegion r none (postEvent x.eqn 0x0302 r k 0 s) else s

/-- A message as it was before it started. -/
def unstarted (m : Msg) : Msg :=
  { m with
    phase := .sending
    attempt := 0
    cursor := 0
    buf := []
    bufPoison := false
    reading := false
    again := false
    flying := 0
    lossTries := 0 }

/-- A flow context is lost: its unacknowledged messages fail with LOSS.  Skip notices, the new ones among them,
are repeated until they are acknowledged (R134), and what has started meanwhile starts again: in a new
context. -/
def flowLost (f : Nat) (s : State) : State :=
  match srcFlow s f with
  | none => s
  | some x =>
    let s := foldSt (fun (m : Msg) s =>
      if m.owner == .skip then s else failMsg f m.rsn stLOSS 0 s) x.msgs s
    let rest := match srcFlow s f with | some y => y.msgs | none => []
    let s := { s with ra := { s.ra with src := mdel s.ra.src f } }
    foldSt (fun (m : Msg) s => startMsg x.key (unstarted m) s) rest s

/-- The target side of a flow is lost with what it remembers. -/
def tgtLost (f : Nat) (s : State) : State := { s with ra := { s.ra with tgt := mdel s.ra.tgt f } }

/-- Data still in the unexpected store of a lost stack is poison (R142, R445). -/
def poisonStored (k : Nat) (s : State) : State :=
  { s with mu := { s.mu with placing := s.mu.placing.map fun (e : Nat × Placing) =>
    if (domain s e.2.domain).stack = k then
      (e.1, { e.2 with queue := (e.2.queue.take e.2.stored).map (fun c => { c with poison := true })
                         ++ e.2.queue.drop e.2.stored })
    else e } }

/-- The queues whose context, or whose completion queue's context, is one of the lost ones halt (R112). -/
def contextsLost (k : Nat) (lost : Nat → Queue → Bool) (s : State) : State :=
  foldSt (fun (e : Nat × Queue) s =>
    let cq := queue s e.2.cqn
    let own := lost e.1 e.2
    if qExists e.2 && (own || (e.2.type ≤ qSRQ && lost e.2.cqn cq && qExists cq)) then contextLost e.1 k own s
    else s) s.qm.queues s

/-- The stack that held the sample rings and the log mirror is lost, HB0 or, after it, HB1: they are empty at
their new place, or there is none (R445). -/
def ringsMoved (k : Nat) (s : State) : State :=
  if k = 0 || !stackWorks s 0 then
    mirrorPlaced { s with fs := { s.fs with ring := [] }, me := { s.me with ring := [] } }
  else s

/-- A stack is lost: every unit treats its objects in it as Table 15-3 says. -/
def stackGone (k : Nat) (s : State) : State :=
  let s := contextsLost k (fun _ q => q.stack == k) s
  let s := foldSt (fun (e : Nat × Region) s => if e.2.stack == k then regionLost e.1 k s else s) s.ra.regions s
  let s := foldSt (fun (e : Nat × FlowSrc) s => if e.2.stack == k then flowLost e.1 s else s) s.ra.src s
  let s := foldSt (fun (e : Nat × FlowTgt) s => if e.2.stack == k then tgtLost e.1 s else s) s.ra.tgt s
  let s := foldSt (fun (e : Nat × Domain) s =>
    if e.2.state == .opened && e.2.stack == k then domClose e.1 (fun _ => true) s else s) s.mu.domains
      (poisonStored k s)
  ringsMoved k (stagingGone k
    (foldSt (fun (e : Nat × Group) s => if e.2.stack = k then stagingLost e.1 s else s) s.ce.groups s))

/-! ### Poisoned granules (R441, R442, Table 15-3)

Where in its pool an object lies the spec does not say: which one a granule holds, or none, is a free value
(assumption 150). -/

/-- One of the entries of a map that a condition selects, or none. -/
def pickOne {α : Type} (p : α → Bool) (m : SMap α) (s : State) : Option Nat × State :=
  let l := m.filter fun e => p e.2
  let (k, s) := draw (l.length + 1) s
  ((l[k]?).map fun e => e.1, s)

/-- Do it to the one that was picked. -/
def withPick (r : Option Nat × State) (f : Nat → State → State) : State :=
  match r.1 with
  | some k => f k r.2
  | none => r.2

/-- Poison one piece of data in the unexpected store. -/
def poisonPiece (l : List Chunk) (i : Nat) : List Chunk :=
  l.mapIdx fun j c => if j = i then { c with poison := true } else c

/-- The data of a message in the unexpected store is poisoned: one that waits in a domain or in its reorder
area, or one that is being copied out. -/
def storePoisoned (k : Nat) (s : State) : State :=
  let (copying, s) := draw 2 s
  let (i, s) := draw 16 s
  if copying = 1 then
    withPick (pickOne (fun (x : Placing) => x.stored != 0 && (domain s x.domain).stack == k) s.mu.placing s)
      fun pid s => { s with mu := { s.mu with placing := mmod s.mu.placing pid fun x =>
        { x with queue := poisonPiece (x.queue.take x.stored) i ++ x.queue.drop x.stored } } }
  else
    withPick (pickOne (fun (x : Domain) => x.stack == k && !(x.unexpected ++ x.reorder).isEmpty) s.mu.domains s)
      fun d s =>
        let n := (domain s d).unexpected.length
        let (j, s) := draw (n + (domain s d).reorder.length) s
        let hit (at_ : Nat) (l : List UMsg) : List UMsg :=
          l.mapIdx fun k m => if at_ + k = j then { m with store := poisonPiece m.store i } else m
        setDom d (fun x => { x with unexpected := hit 0 x.unexpected, reorder := hit n x.reorder }) s

/-- A record of the sample rings reads as zero. -/
def recordPoisoned (s : State) : State :=
  let (engine, s) := draw 2 s
  let (k, s) := draw (rc s (if engine = 1 then 0x8443 else 0x6863) 0) s
  if engine = 1 then { s with me := { s.me with ring := mdel s.me.ring k } }
  else { s with fs := { s.fs with ring := mdel s.fs.ring k } }

/-- A granule of pool 3: a group's own state is lost, or a partial or kept result is poisoned (R441). -/
def stagingPoisoned (k : Nat) (s : State) : State :=
  withPick (pickOne (fun (x : Group) => x.state != .free && x.stack == k) s.ce.groups s) fun g s =>
    let x := group s g
    let (i, s) := draw (1 + x.steps.length + x.kept.length) s
    if i = 0 then stagingLost g s
    else setGroup g (fun x => { x with
      steps := x.steps.mapIdx fun j p => if j + 1 = i && p.state != .waiting then { p with poison := true } else p
      kept := x.kept.mapIdx fun j r => if x.steps.length + j + 1 = i then { r with poison := true } else r }) s

/-- An entry of a domain's posted list is lost: the domain closes, and that receive completes POISON. -/
def postedPoisoned (k : Nat) (s : State) : State :=
  withPick (pickOne (fun (x : Domain) => x.state == .opened && x.stack == k && !x.posted.isEmpty) s.mu.domains s)
    fun d s =>
      let (j, s) := draw (domain s d).posted.length s
      let hit := (domain s d).posted[j]?
      domClose d (fun r => hit == some r) s

/-- Another entry of a domain's lists is lost: the domain closes. -/
def listPoisoned (k : Nat) (has : Nat → Domain → Bool) (s : State) : State :=
  let l := s.mu.domains.filter fun e => e.2.state == .opened && e.2.stack == k && has e.1 e.2
  withPick (pickOne (fun (_ : Domain) => true) l s) fun d s => domClose d (fun _ => false) s

/-- A granule of pool 1: a posted receive, a header of the unexpected list or of the reorder area, or a
sequence context (Table 15-1). -/
def matchPoisoned (k off size : Nat) (s : State) : State :=
  if off < size * 2048 / 2720 then postedPoisoned k s
  else if off < size * 2560 / 2720 then listPoisoned k (fun _ x => !x.unexpected.isEmpty) s
  else if off < size * 2592 / 2720 then listPoisoned k (fun _ x => !x.reorder.isEmpty) s
  else listPoisoned k (fun d _ => s.mu.seqs.any fun q => q.domain == d) s

/-- A granule is poisoned: the object in it is lost.  The pools and their proportions are those of
Table 15-1; the mirror's own place is known, and its record reads as zero where it is shown. -/
def granulePoisoned (g : Nat) (s : State) : State :=
  let k := granStack g
  match poolAt s k (granLocal g * 32) with
  | none => s
  | some (p, off, size) =>
    if p = 0 then
      if off < size * 2 / 7 then
        withPick (pickOne (fun (q : Queue) => qExists q && q.stack == k) s.qm.queues s)
          fun qn s => contextsLost k (fun n _ => n == qn) s
      else if off < size * 3 / 7 then
        withPick (pickOne (fun (r : Region) => r.state == .live && r.stack == k) s.ra.regions s)
          fun r s => regionLost r k s
      else
        let (target, s) := draw 2 s
        if target = 1 then withPick (pickOne (fun (f : FlowTgt) => f.stack == k) s.ra.tgt s) tgtLost
        else withPick (pickOne (fun (f : FlowSrc) => f.stack == k) s.ra.src s) flowLost
    else if p = 1 then matchPoisoned k off size s
    else if p = 2 then storePoisoned k s
    else if p = 3 then stagingPoisoned k s
    else if p = 4 then recordPoisoned s
    else s

end Sys2Proof.Machine
end

