-- ==== Sys2Proof/Machine/Views.lean ====
section
/-!
DEFINITION. What the objects of the dictionary read as: the values that a unit's state shows (RO), the
constants, and the tables (R45 to R47 and the object tables of the chapters).
-/
namespace Sys2Proof.Machine

/-! ### Keys and codes -/

/-- The numbers of a list laid side by side, `w` bits each, the first one at the top. -/
def packBits (w : Nat) (l : List Nat) : Nat := l.foldl (fun a n => a * 2 ^ w + n % 2 ^ w) 0

/-- Bits of a 256-bit map. -/
def bitMap (l : List Nat) : Nat := sumBy (fun n => 2 ^ n) ((rangeFrom 0 256).filter l.contains)

def setCode : SetState → Nat
  | .closed => 0 | .opened => 1 | .checking => 2 | .armed => 3 | .applied => 4

def portCode : PortState → Nat
  | .disabled => 0 | .training => 1 | .up => 2 | .down => 3 | .departing => 4 | .miswired => 5

def linkCode : LinkState → Nat
  | .off => 0 | .lanes => 1 | .exchange => 2 | .active => 3 | .resuming => 4 | .held => 5

def domCode : DomPower → Nat
  | .off => 0 | .ramping => 1 | .on => 2 | .isolated => 3

def depCode : DepState → Nat
  | .joined => 0 | .draining => 1 | .departing => 2 | .departed => 3

def stackCode : StackState → Nat
  | .absent => 0 | .training => 1 | .working => 2 | .lost => 3

def slotCode : SlotState → Nat
  | .empty => 0 | .active => 1 | .quiescing => 2

/-! ### Commit sets -/

def commitSet (s : State) (n : Nat) : CommitSet := sget {} s.od.sets n

/-- The bits of a report entry (Table 02-10). -/
def reportBits (e : ReportEntry) : Nat :=
  e.index * 2 ^ 176 + e.sub * 2 ^ 168 + e.reason * 2 ^ 160 + e.set * 2 ^ 152
    + e.element % 2 ^ 24 * 2 ^ 128 + e.written % 2 ^ 64 * 2 ^ 64 + e.applied % 2 ^ 64

/-- The number of a report entry that is stored; 0 where none is. -/
def reportAt (r : Report) (k : Nat) : Nat :=
  match r.entries[k]? with
  | some e => reportBits e
  | none => 0

/-- The path of a carrier, as the bit number of the rights masks (R48). -/
def carrierPath : Carrier → Nat
  | .mgmt _ => 0
  | .mailbox (.pf _) => 1
  | .mailbox (.vf _ _) => 2
  | .mailbox .mgmt => 0
  | .mailbox .fabric => 3
  | .fabric _ _ => 3

/-- The report that 0x1F10 shows (R65). -/
def lastReport (s : State) : Report :=
  match s.od.lastChecked with
  | some n => (commitSet s n).report
  | none => {}

/-- 0x1F12:00. -/
def resultWord (s : State) : Nat :=
  let r := s.od.lastResult
  r.set + r.status * 256 + b2n (decide (256 < (lastReport s).count)) * 65536 + b2n r.late * 131072

/-- 0x1F22:00. -/
def checkStatus (s : State) : Nat :=
  b2n s.od.refStale + b2n s.od.drift * 2 + b2n s.od.scanComplete * 4 + b2n s.od.persisted * 8

/-! ### Scalars that show a unit's state -/

/-- TB, and the commit machinery. -/
def viewTime (s : State) (idx sub : Nat) : Option Nat :=
  if idx = 0x4000 then some (now s)
  else if idx = 0x4001 then some (timeStateCode s)
  else if idx = 0x4002 then some (timeDepth s)
  else if idx = 0x4003 then some (timeFlags s)
  else if idx = 0x4004 then some (uncertainty s)
  else if idx = 0x4005 then some (sourcePort s)
  else if idx = 0x4007 then some s.tb.lastStep
  else if idx = 0x4012 then some s.tb.measuredDelay
  else if idx = 0x4032 then some (calibrationAge s)
  else if idx = 0x4033 then some s.tb.oscOffset
  else if idx = 0x4040 then
    some (match (peerTime s sub).offset with | some o => ofSigned 32 (offset32 o) | none => 0x80000000)
  else if idx = 0x4041 then some (peerTime s sub).delay
  else if idx = 0x4042 then some (peerTime s sub).depth
  else if idx = 0x4060 then some (referenceStatus s)
  else none

def viewCommit (s : State) (idx sub : Nat) : Option Nat :=
  if idx = 0x1F02 then some (setCode (commitSet s sub).state)
  else if idx = 0x1F03 then some ((commitSet s sub).owner.getD 0)
  else if idx = 0x1F10 then some (reportAt (lastReport s) sub)
  else if idx = 0x1F11 then some (lastReport s).count
  else if idx = 0x1F12 then some (resultWord s)
  else if idx = 0x1F21 then some s.od.liveWord
  else if idx = 0x1F22 then some (checkStatus s)
  else if idx = 0x1F30 then some s.od.gen
  else if idx = 0x1F31 then some s.od.bootCopy
  else if idx = 0x1F32 then some s.od.persistGen
  else none

/-- QM and MU. -/
def viewQueues (s : State) (idx sub : Nat) : Option Nat :=
  if idx = 0x7000 then some (queuesExisting s)
  else if idx = 0x7001 then some (queueLimit s)
  else if idx = 0x7400 then some (capPosted s)
  else if idx = 0x7401 then some (capUnexpected s)
  else if idx = 0x7402 then some (capBytes s)
  else if idx = 0x7403 then some (capReorder s)
  else if idx = 0x7404 then some (capSeqs s)
  else if idx = 0x7420 then some (s.mu.domains.filter fun d => d.2.state == .opened).length
  else if idx = 0x7440 then
    some (if sub = 0 then capPosted s - postedAll s
      else if sub = 1 then capUnexpected s - headersAll s
      else kib (capBytes s) - sumBy (fun d => kib (domBytes d.2)) s.mu.domains)
  else if idx = 0x7441 then
    some (b2n !arbitersBusy s)
  else none

/-- RA, CE and TU. -/
def viewRemote (s : State) (idx : Nat) : Option Nat :=
  if idx = 0x7800 then some (regionsLive s)
  else if idx = 0x7801 then some (capRegions s)
  else if idx = 0x7802 then some (capFlows s)
  else if idx = 0x7804 then some (connsOpen s)
  else if idx = 0x7854 then some (faultBufferUse s)
  else if idx = 0x7C00 then some (groupsInUse s)
  else if idx = 0x7C02 then some (poolBytes s 3)
  else if idx = 0x7C03 then some (stagingFree s)
  else if idx = 0x7C04 then some (b2n (stagingTransient s == 0))
  else if idx = 0x7C05 then some (stagingTransient s)
  else if idx = 0x8003 then some (4096 - (s.tu.recs.filter fun r => r.2.kind != 0).length)
  else if idx = 0x8004 then some (s.tu.spaces.filter fun a => a.2.state == .live).length
  else none

/-- RT and FS. -/
def viewFabric (s : State) (idx sub : Nat) : Option Nat :=
  if idx = 0x6003 then some (epochsHeld s)
  else if idx = 0x6012 then some (portCode (portRoute s sub).state)
  else if idx = 0x6013 then
    some (match (portRoute s sub).peer with | some n => n | none => 0xFFFFFFFF)
  else if idx = 0x6035 then some (packBits 8 ((rangeFrom 0 20).map (vane s sub)))
  else if idx = 0x6042 then some (lanesOriginated s)
  else if idx = 0x6043 then some s.rt.lanes.length
  else if idx = 0x6047 then some (shareReserved s sub)
  else if idx = 0x6802 then some (creditAudit s sub)
  else if idx = 0x6810 then some (cellTime s sub)
  else if idx = 0x6823 then some (gateStatus s sub)
  else if idx = 0x6831 then
    (let bs := shapersNow s sub
     let whole (f : Bucket → Nat) : Nat := sumBy (fun b => f b.2) bs / 2 ^ 32
     let adj : Int := bs.foldl (fun a b => a + b.2.adjust) 0
     some (packBits 64 [whole (·.accrued), whole (·.charged), whole (·.clipped),
       ofSigned 64 (adj / 2 ^ 32)]))
  else none

/-- LL and PX. -/
def viewLanes (s : State) (idx sub : Nat) : Option Nat :=
  let x := portLink s sub
  let l := portLanes s sub
  let each (w : Nat) (f : Lane → Nat) : Option Nat := some (packBits w (allLanes.map fun k => f (laneOf l k)))
  if idx = 0x5801 then some (linkCode x.state)
  else if idx = 0x5802 then some (x.peerEpoch * 65536 + x.minor)
  else if idx = 0x5803 then some x.holdReason
  else if idx = 0x5804 then some x.rtt
  else if idx = 0x5805 then some x.session
  else if idx = 0x5001 then some (txStatus s sub)
  else if idx = 0x5002 then some (rxStatus s sub)
  else if idx = 0x5003 then each 16 (·.skew)
  else if idx = 0x5022 then each 8 (·.peaking)
  else if idx = 0x5032 then each 64 (·.errors)
  else if idx = 0x5043 then each 32 (·.bip)
  else if idx = 0x5045 then some (packBits 64 [l.compSent, l.compDeleted, l.compInserted])
  else if idx = 0x5051 then some (scanBits (sget {} s.px.scans sub))
  else if idx = 0x5060 then each 16 (·.bias)
  else if idx = 0x5061 then each 16 (fun a => ofSigned 16 a.output)
  else if idx = 0x5062 then some (ofSigned 32 l.rxPower)
  else if idx = 0x5063 then some (laserState s sub)
  else if idx = 0x5070 then some (opticalStatus s sub)
  else none

/-- Cells released that are still referenced (R436). -/
def poolTransient (s : State) (p : Nat) : Nat :=
  if p = 2 then storeTransient s
  else if p = 3 then stagingTransient s / poolCellBytes 3
  else 0

/-- ME, the lock unit and CM. -/
def viewEngines (s : State) (idx sub : Nat) : Option Nat :=
  if idx = 0x8401 then some (engineState s sub)
  else if idx = 0x8402 then
    (let (c, r, a) := (engine s sub).lastTrap
     some (packBits 64 [c, r, a]))
  else if idx = 0x8413 then
    (let f := s.ms.engineFw
     some (if f.present then f.engineVersion * 2 ^ 96 + f.stateEpoch * 2 ^ 80 + f.engineIfEpoch * 2 ^ 64
       + s.me.fwSlot * 2 ^ 56 else 0))
  else if idx = 0x8421 then
    (let a := s.me.actStatus
     some (a.state * 2 ^ 120 + a.target * 2 ^ 112 + a.reason * 2 ^ 104 + a.instant % 2 ^ 64 * 2 ^ 40
       + a.quiesce % 2 ^ 40))
  else if idx = 0x8431 then
    (let p := pkgSlot s sub
     some (if p.state == .empty then 0 else
       (Config.slotStatus (slotCode p.state) p.packageId p.version p.tenant p.mask p.handlers.length).toNat))
  else if idx = 0x8602 then some (8192 - waitersUsed s)
  else if idx = 0x8801 then some (stackCode (stack s sub).state)
  else if idx = 0x8811 then some (poolCells s sub)
  else if idx = 0x8812 then some (poolUsed s sub)
  else if idx = 0x8813 then some (poolTransient s sub)
  else if idx = 0x8814 then
    some (sumBy (fun p => if poolTransient s p = 0 then 2 ^ p else 0) (rangeFrom 0 6))
  else if idx = 0x8831 then some (stack s sub).scrub
  else if idx = 0x8842 then some (stack s sub).poisoned.length
  else none

/-- HL, PR and RS. -/
def viewPower (s : State) (idx sub : Nat) : Option Nat :=
  if idx = 0xA000 then
    (let l := hostLink s sub
     some (if l.up then l.width + l.rate * 256 + 4096 + b2n l.flit * 8192 else 0))
  else if idx = 0xA001 then
    some (hostLink s sub).numVfs
  else if idx = 0xA002 then some (b2n (hostLink s sub).atomicReq)
  else if idx = 0x3001 then some (domCode (domState s sub))
  -- DEDUCED (assumption 28): the product of the published voltage and current
  else if idx = 0x3002 then some (sget 0 s.ms.volt sub * sget 0 s.ms.curr sub / 100000)
  else if idx = 0x3010 then some s.pr.vin
  else if idx = 0x3011 then some s.pr.pin
  else if idx = 0x3012 then some s.pr.inputEvents
  else if idx = 0x3102 then some (depCode s.pr.departure)
  else if idx = 0x3103 then some s.pr.outcome
  else if idx = 0x3400 then some s.rs.cause
  else if idx = 0x3401 then some s.rs.instant
  else if idx = 0x3411 then some (s.sb.bootSel * 128 + s.sb.clkMode * 64 + s.sb.slotId)
  else if idx = 0x3412 then some s.rs.source
  else if idx = 0x3413 then some s.rs.fallbacks
  else if idx = 0x3422 then some s.rs.failedStarts
  else if idx = 0x3423 then some s.rs.milestone
  else if idx = 0x3424 then some s.rs.duration
  else if idx = 0x3431 then some (b2n (s.rs.phase == .doldrums))
  else if idx = 0x3460 then some (services s)
  else none

/-- The status of an image slot (0x2303) and of a package entry (0x2304). -/
def slotStatus (s : State) (k : Nat) : Nat :=
  let a := area s k
  if !a.valid then 0
  else
    let f := bundleOf a.bytes
    2 ^ 120 + f.mgmtVersion * 2 ^ 88 + f.engineVersion * 2 ^ 56 + f.stepMin * 2 ^ 48 + f.stepMax * 2 ^ 40
      + f.engineIfEpoch * 2 ^ 24 + f.stateEpoch * 2 ^ 8

def packageStatus (s : State) (k : Nat) : Nat :=
  let a := area s (16 + k)
  if !a.valid then 0
  else
    let h := packageOf a.bytes
    2 ^ 120 + h.id * 2 ^ 88 + h.version * 2 ^ 56 + h.ifEpoch * 2 ^ 40

/-- MS and FC. -/
def viewMgmt (s : State) (idx sub : Nat) : Option Nat :=
  if idx = 0x1002 then some Config.stepping.toNat
  else if idx = 0x1003 then some Config.serial.toNat
  else if idx = 0x1004 then some Config.macAddress.toNat
  else if idx = 0x1010 then some s.ms.mgmtFw.hostIfEpoch
  else if idx = 0x1011 then some s.ms.engineFw.engineIfEpoch
  else if idx = 0x1012 then some s.ms.engineFw.stateEpoch
  else if idx = 0x1020 then some s.ms.mgmtFw.mgmtVersion
  else if idx = 0x1021 then some s.ms.mgmtSource
  else if idx = 0x1022 then some (if s.ms.engineFw.present then s.ms.engineFw.engineVersion else 0)
  else if idx = 0x2000 then some (ofSigned 32 (sget 0 s.ms.temp sub))
  else if idx = 0x2003 then some (sget 0 s.ms.volt sub)
  else if idx = 0x2004 then some (sget 0 s.ms.curr sub)
  else if idx = 0x2011 then some s.ms.lastSample
  else if idx = 0x2021 then some s.ms.nextSeq
  else if idx = 0x2301 then some (updateStatus s)
  else if idx = 0x2303 then some (slotStatus s sub)
  else if idx = 0x2304 then some (packageStatus s sub)
  else if idx = 0x2305 then some (match s.ms.bootOnce with | some t => t + 1 | none => 0)
  else if idx = 0x2311 then some s.ms.startDecision
  else if idx = 0x2330 && sub = 0 then some Config.anchor0.toNat
  else if idx = 0x3802 then
    some (bitMap ((s.fc.sticky.filter fun (e : Nat × Bool) => e.2).map (·.1)))
  else if idx = 0x3803 then some (bitMap (s.fc.active.map fun e => e.1 / 65536))
  else if idx = 0x3804 then some (collectorState s)
  else if idx = 0x3844 then some s.fc.lastSafe
  else none

/-- The object that a module counter is an alias of (Tables 22-2 to 22-7). -/
def counterAlias (n : Nat) : Option (Nat × Nat) :=
  if n < 4608 then
    let p := n / 64
    match [0x5820, 0x5821, 0x5822, 0x5823, 0x5824, 0x582F, 0x5040, 0x5041, 0x6842][n % 64]? with
    | some i => some (i, p)
    | none => if n % 64 = 16 then some (0x582B, p) else none
  else if 11136 ≤ n && n < 11264 then
    let k := (n - 11136) / 64
    let e := (n - 11136) % 64
    if e = 4 then some (0xA032, k) else if e = 5 then some (0xA033, k) else none
  else if 11264 ≤ n && n < 12288 then
    let g := (n - 11264) / 64
    let k := (n - 11264) % 64
    if g = 0 && k ≤ 5 then some (0x7030 + k, 0)
    else if g = 1 && (k ≤ 9 || k = 11) then some (0x7430 + k, 0)
    else if g = 2 && 1 ≤ k && k ≤ 9 then some (0x7860 + k, 0)
    else if g = 3 && k ≤ 8 then some (0x7C30 + k, 0)
    else if g = 4 && 1 ≤ k && k ≤ 7 then some (0x8050 + k, 0)
    else if g = 5 && (k ≤ 7 || k = 9 || k = 10) then some (0x6060 + k, 0)
    else if g = 6 && k ≤ 8 then some (0x8630 + k, 0)
    else if g = 7 && k ≤ 2 then some (0x6851, k)
    else none
  else if 12288 ≤ n && n < 12352 then
    let k := (n - 12288) / 32
    let e := (n - 12288) % 32
    if e = 3 then some (0x8840, k) else if e = 4 then some (0x8841, k) else if e = 5 then some (0x8844, k)
    else none
  else none

/-- Module counter `n` (R560, R561). -/
def counter (s : State) (n : Nat) : Nat :=
  match counterAlias n with
  | some (i, k) => count s i k
  | none => count s (0x9000 + n / 256) (n % 256)

def isCounter (idx : Nat) : Bool := 0x9000 ≤ idx && idx ≤ 0x9030

/-- The value of a RO object as a number: what the unit shows; what no unit shows is a count. -/
def roNat (s : State) (idx sub : Nat) : Nat :=
  let pick : List (Option Nat) :=
    [viewTime s idx sub, viewCommit s idx sub, viewQueues s idx sub, viewRemote s idx, viewFabric s idx sub,
     viewLanes s idx sub, viewEngines s idx sub, viewPower s idx sub, viewMgmt s idx sub]
  match pick.findSome? id with
  | some v => v
  | none => if isCounter idx then counter s ((idx - 0x9000) * 256 + sub) else count s idx sub

/-! ### Tables -/

/-- A table as it reads: entry size in bytes, entries live, and the entries as numbers (R47). -/
structure TableView where
  size : Nat
  count : Nat
  entry : Nat → Nat

/-- The number of an entry of the error records (Table 15-6), oldest first. -/
def recordAt (s : State) (k : Nat) : Nat := s.cm.records.getD k 0

/-- A record of a ring that was never written reads 0. -/
def ringAt {α : Type} (m : SMap α) (f : α → Nat) (k : Nat) : Nat :=
  match mget? m k with
  | some r => f r
  | none => 0

/-- The tables that show a unit's state.  A ring answers all its entries, those that nothing has written as 0
(DESIGN CHOICE, assumption 210). -/
def roTable (s : State) (idx : Nat) : Option TableView :=
  if idx = 0x1040 then
    some { size := 1, count := Config.certificate.length, entry := fun k => (Config.certificate.getD k 0).toNat }
  else if idx = 0x2012 then some { size := 32, count := 4096, entry := ringAt s.ms.ring telemetryBits }
  else if idx = 0x2020 then
    -- a record whose mirror is poisoned reads as zero (Table 15-3)
    some { size := 64, count := 262144, entry := fun k => if mirrorPoisoned s k then 0 else ringAt s.ms.log logBits k }
  else if idx = 0x2302 then
    (let u := s.ms.update
     let n := if u.state == .idle then 0 else u.length / 4
     some { size := 4, count := n, entry := fun k => beNat ((rangeFrom (4 * k) 4).map fun a => sget 0 u.cells a) })
  else if idx = 0x3840 then
    some { size := 16, count := s.fc.history.length,
           entry := fun k => match s.fc.history[k]? with | some h => histBits h | none => 0 }
  else if idx = 0x6014 then
    some { size := 8, count := 288, entry := fun k =>
      let d := k % 4
      match mget? (portRoute s (k / 4)).masks d with
      | some arg => arg
      | none => d * 2 ^ 62 + (2 ^ (min 37 ((usedSizes (shape s)).getD d 0)) - 1) }
  else if idx = 0x6048 then some { size := 16, count := 1024, entry := laneStatus s }
  else if idx = 0x6864 then some { size := 16, count := rc s 0x6863 0, entry := ringAt s.fs.ring sampleBits }
  else if idx = 0x7423 then some { size := 16, count := 65536, entry := domEntry s }
  else if idx = 0x7C20 then some { size := 16, count := 4096, entry := groupEntry s }
  else if idx = 0x8012 then some { size := 32, count := 65536, entry := asEntry s }
  else if idx = 0x8030 then some { size := 16, count := 4096, entry := recEntry s }
  else if idx = 0x8444 then some { size := 32, count := rc s 0x8443 0, entry := ringAt s.me.ring id }
  else if idx = 0x8620 then some { size := 16, count := 4096, entry := lockEntry s }
  else if idx = 0x8850 then
    some { size := 16, count := s.cm.records.length, entry := recordAt s }
  else none

/-- A table, live: configuration tables as applied, the others as their unit shows them. -/
def tableView (s : State) (idx sub : Nat) : TableView :=
  match roTable s idx with
  | some t => t
  | none =>
    let size := max 1 (tableShape idx).1
    let bs := liveBytes s idx sub
    { size := size, count := bs.length / size, entry := fun k => beAt bs (k * size) size }

/-- Bytes `[off, off + len)` of a table, as far as it reaches. -/
def tableBytes (t : TableView) (off len : Nat) : List Byte :=
  let stop := min (t.count * t.size) (off + len)
  if stop ≤ off then []
  else
    let first := off / t.size
    let n := (stop - 1) / t.size + 1 - first
    let bs := (rangeFrom first n).flatMap fun k => beBytes t.size (t.entry k)
    slice bs (off - first * t.size) (stop - off)

/-! ### The value of an object -/

/-- A number as the bytes of a text: no leading zero byte. -/
def textBytes (n : Nat) : Nat → List Byte
  | 0 => []
  | k + 1 => if n = 0 then [] else textBytes (n / 256) k ++ [BitVec.ofNat 8 n]

/-- The live value of an object that is no table, in Yusto byte order (R44, R45). -/
def objBytes (s : State) (o : ObjDef) (idx sub : Nat) : List Byte :=
  match o.acc with
  | .wo => List.replicate o.ty.len 0
  | .rc | .rw => liveBytes s idx sub
  | .const =>
    (match o.ty with
     | .text n => textBytes (o.dfltAt sub) n
     | t => beBytes t.len (if idx = 0x2330 then Config.anchor0.toNat else o.dfltAt sub))
  | .ro => beBytes o.ty.len (roNat s idx sub % 2 ^ (8 * o.ty.len))

/-- The number of elements of an object (R47, R65). -/
def shapeOf (s : State) (idx : Nat) : Nat :=
  if idx = 0x1F10 then (lastReport s).entries.length else objShape idx

/-- The object at an index and subindex, if there is one (R47, R50). -/
def lookup (s : State) (idx sub : Nat) : Option ObjDef :=
  if shapeOf s idx ≤ sub then none else objDef idx sub

end Sys2Proof.Machine
end

