-- ==== Sys2Proof/Machine/Sideband.lean ====
section
/-!
DEFINITION. The sideband SPI target (R481 to R486).
-/
namespace Sys2Proof.Machine

/-- BOOT_SEL, CLK_MODE and SLOT_ID as STRAP_ECHO shows them. -/
def strapEcho (s : State) : Nat := s.sb.bootSel * 128 + s.sb.clkMode * 64 + s.sb.slotId

/-- Does the management processor run: out of reset, under the boot ROM or under firmware (R508)? -/
def processorRuns (s : State) : Bool :=
  match s.rs.phase with
  | .off | .resetCold | .resetWarm => false
  | _ => true

/-- MOD_STATUS. -/
def modStatus (s : State) : Nat :=
  b2n (processorRuns s) + b2n (s.rs.phase == .doldrums) * 2 + b2n s.fc.safe * 4 + b2n s.fc.faultN * 8
    + b2n s.rs.restricted * 16 + b2n ((rangeFrom 0 72).any (portUp s)) * 32 + b2n (hostLink s 0).up * 64
    + b2n (hostLink s 1).up * 128 + b2n (!timeFree s) * 256

/-- A sideband register (Table 17-9); none at other addresses. -/
def sbRegister (s : State) (a : Nat) : Option Nat :=
  if a = 0x000 then some 0x5744
  else if a = 0x001 then some 0x7296
  else if a = 0x002 then some Config.stepping.toNat
  else if 0x003 ≤ a && a ≤ 0x006 then some (Config.serial.toNat / 2 ^ (16 * (6 - a)) % 65536)
  else if a = 0x008 then some (strapEcho s)
  else if a = 0x009 then some (modStatus s)
  else if a = 0x00A then some (s.rs.milestone * 256 + s.rs.failedStarts)
  else if a = 0x00B then some s.rs.cause
  else if a = 0x00C then some (s.pr.vin / 10 % 65536)
  else if a = 0x00D then some (s.pr.pin % 65536)
  else if a = 0x00E then some (ofSigned 16 (hottest s).2)
  else if 0x010 ≤ a && a ≤ 0x012 then some (Config.macAddress.toNat / 2 ^ (16 * (0x12 - a)) % 65536)
  else if a = 0x020 then some (count s 0x2201 0 % 65536)
  else if a = 0x021 then some (count s 0x2202 0 % 65536)
  else if a = 0x030 then some s.sb.scratch
  else none

/-- Does the sideband serve: is PD_AO released? -/
def sbServes (s : State) : Bool := domOn s 0 && s.rs.phase != .resetCold && s.rs.phase != .off

/-- A frame is committed: the response of the one before is shifted out, its own is captured. -/
def sbCommit (status addr data : Nat) (s : State) : State :=
  let refused : Bool := status != 0xA
  let s := bump 0x2200 0 (emit (.sideband s.sb.response) s)
  let s := when_ refused (bump 0x2202 0) s
  { s with sb := { s.sb with response := status * 2 ^ 28 + addr * 65536 + data } }

/-- A committed READ. -/
def sbRead (addr data : Nat) (s : State) : State :=
  if !sbServes s then s
  else if data ≠ 0 then sbCommit 5 addr 0 s
  else match sbRegister s addr with
    | some v => sbCommit 0xA addr v s
    | none => sbCommit 6 addr 0 s

/-- A committed WRITE: only SCRATCH takes one. -/
def sbWrite (addr data : Nat) (s : State) : State :=
  if !sbServes s then s
  else if addr = 0x030 then sbCommit 0xA addr data { s with sb := { s.sb with scratch := data } }
  else if (sbRegister s addr).isSome then sbCommit 3 addr 0 s
  else sbCommit 6 addr 0 s

/-- A committed frame with another OP: a NOP answers OK, every other BAD_OP (R482). -/
def sbNop (op addr data : Nat) (s : State) : State :=
  if !sbServes s then s
  else if op = 0 && addr = 0 && data = 0 then sbCommit 0xA 0 0 s
  else sbCommit 5 addr 0 s

/-- SB_CS_N rises before the 32nd edge (R483). -/
def sbAbort (s : State) : State := if sbServes s then bump 0x2201 0 s else s

end Sys2Proof.Machine
end

