-- ==== Sys2Proof/Machine/Commit.lean ====
section
/-!
DEFINITION. Commit sets: the shadow, the check in three passes, arming, the apply and what each unit
does at it (R59 to R66, and the apply rules of the chapters).
-/
namespace Sys2Proof.Machine

/-! ### Status codes (Table 02-7) -/

def yOK : Nat := 0
def yNOOBJECT : Nat := 1
def yNORIGHT : Nat := 2
def yREADONLY : Nat := 3
def ySETBUSY : Nat := 4
def ySETINVALID : Nat := 5
def ySHADOWFULL : Nat := 6
def ySCHEDULEFULL : Nat := 7
def yTIMEINVALID : Nat := 8
def yREJECTED : Nat := 9
def yALREADY : Nat := 10
def yMALFORMED : Nat := 11
def ySTALE : Nat := 12
def ySTALESEQ : Nat := 13
def yOUTOFRANGE : Nat := 14
def yUNSUPPORTED : Nat := 15

/-! ### Rights (R48, R453) -/

/-- The function of a carrier's path: 1023 for the paths that have none. -/
def carrierFn : Carrier → Nat
  | .mailbox (.pf l) => l.val
  | .mailbox (.vf l v) => 2 + 256 * l.val + v.val
  | _ => 1023

/-- The elements that a VF may read: those of its own FN (R453). -/
def vfOwns (fn idx sub : Nat) : Bool :=
  fn < 514 && fnIsVf fn && sub == fnVf fn &&
    (if fnLink fn = 0 then [0x7011, 0x7015, 0x7812, 0xA011, 0xA015].contains idx || idx == 0x7019
     else [0x7012, 0x7016, 0x7813, 0xA012, 0xA016].contains idx || idx == 0x701A)

/-- May a path read an element? -/
def mayRead (path fn idx sub : Nat) : Bool :=
  if idx < 0x1100 || idx = 0x4000 then true
  else if 0xF000 ≤ idx then path == 0
  else path != 2 || vfOwns fn idx sub

/-- May a path write an element (Table 02-3 and the masks that the chapters state)? -/
def mayWrite (path idx sub : Nat) : Bool :=
  if idx = 0x2310 || idx = 0x3812 || (idx = 0x2330 && sub != 0) then path == 0
  else if idx = 0x7421 then path ≤ 1
  else if idx = 0x8010 || idx = 0x8020 then path ≤ 2
  else path != 2

/-! ### Sets and their shadows (R59 to R61) -/

def setSet (n : Nat) (f : CommitSet → CommitSet) (s : State) : State :=
  { s with od := { s.od with sets := smod {} s.od.sets n f } }

/-- A set changes its state; subscribers of mask bit 1 hear of it (R58). -/
def setState (n : Nat) (st : SetState) (s : State) : State :=
  later (.push 1 0 [BitVec.ofNat 8 n, BitVec.ofNat 8 (setCode st)]) (setSet n (fun x => { x with state := st }) s)

def isPending : SetState → Bool
  | .opened | .checking | .armed => true
  | _ => false

/-- The pending set that holds an object (R60). -/
def setHolding (s : State) (key : Nat) : Option Nat :=
  (s.od.sets.find? fun e => isPending e.2.state && (mget? e.2.shadow key).isSome).map (·.1)

/-- Bytes that a shadow value holds of TABLE data: its declared total. -/
def shadowTotal : ShadowVal → Nat
  | .scalar _ => 0
  | .table t _ => t

/-- Entries, and bytes of TABLE data, in the shadows of all sets. -/
def shadowUse (s : State) : Nat × Nat :=
  let l := s.od.sets.filter fun e => isPending e.2.state
  (sumBy (fun e => e.2.shadow.length) l, sumBy (fun e => sumBy (fun v => shadowTotal v.2) e.2.shadow) l)

/-- May `owner` write object `key` in set `n` (R59, R60)? -/
def shadowCheck (owner n key : Nat) (s : State) : Nat :=
  if n = 0 || 15 < n then ySETINVALID
  else
    let x := commitSet s n
    let elsewhere : Bool := match setHolding s key with | some m => m != n | none => false
    if elsewhere then ySETBUSY
    else match x.state with
      | .checking | .armed => ySETBUSY
      | .opened => if x.owner = some owner then yOK else ySETBUSY
      | .closed | .applied => yOK

/-- The set of an accepted write: a CLOSED or APPLIED one opens for its owner. -/
def openSet (owner n : Nat) (s : State) : State :=
  match (commitSet s n).state with
  | .closed | .applied =>
    setState n .opened (setSet n (fun x => { x with owner := some owner, shadow := [], checked := [] }) s)
  | _ => s

/-- A value goes into the shadow. -/
def shadowPut (owner n key : Nat) (v : ShadowVal) (s : State) : Nat × State :=
  let x := commitSet s n
  let fresh := x.state != .opened || (mget? x.shadow key).isNone
  let (n0, b0) := shadowUse s
  if fresh && (65536 < n0 + 1 || 2 ^ 26 < b0 + shadowTotal v) then (ySHADOWFULL, s)
  else (yOK, setSet n (fun x => { x with shadow := mput x.shadow key v }) (openSet owner n s))

/-- WRITE of an RC object. -/
def rcWrite (owner n key : Nat) (bs : List Byte) (s : State) : Nat × State :=
  let st := shadowCheck owner n key s
  if st ≠ yOK then (st, s) else shadowPut owner n key (.scalar bs) s

/-- Lay bytes over the cells of a table: a later segment overwrites (R57). -/
def layCells (off : Nat) : List Byte → List Host.Cell → List Host.Cell
  | [], m => m
  | b :: r, m => layCells (off + 1) r (mput m off b)

/-- SEG-WRITE of an RC table (R57). -/
def segStore (owner n key total off : Nat) (bs : List Byte) (s : State) : Nat × State :=
  let st := shadowCheck owner n key s
  if st ≠ yOK then (st, s)
  else if total < off + bs.length then (yMALFORMED, s)
  else
    let x := commitSet s n
    match (if x.state == .opened then mget? x.shadow key else none) with
    | some (.table t cells) =>
      if t ≠ total then (yMALFORMED, s) else shadowPut owner n key (.table t (layCells off bs cells)) s
    | _ => shadowPut owner n key (.table total (layCells off bs [])) s

/-- The bytes written to a shadow. -/
def writtenBytes : ShadowVal → List Byte
  | .scalar bs => bs
  | .table _ cells => cells.map fun c => c.2

/-- The shadow value of an object, or its live value (R61). -/
def shadowBytes (s : State) (idx sub : Nat) : List Byte :=
  match setHolding s (okey idx sub) with
  | some n =>
    (match mget? (commitSet s n).shadow (okey idx sub) with
     | some v => writtenBytes v
     | none => liveBytes s idx sub)
  | none => liveBytes s idx sub

/-! ### The check (R62, R63) -/

/-- The values of a set laid over the live ones. -/
def overlay (s : State) (vals : SMap (List Byte)) : Look := fun idx sub =>
  match mget? vals (okey idx sub) with
  | some bs => bs
  | none => liveBytes s idx sub

/-- Is an object in a set? -/
def inKeys (ks : List Nat) (idx sub : Nat) : Bool := ks.contains (okey idx sub)

/-- The shape that the values give. -/
def overlayShape (s : State) (vals : SMap (List Byte)) : List Nat :=
  lookShape (overlay s ((rangeFrom 0 4).foldl (fun m d =>
    mput m (okey 0x6001 d) (beBytes 1 (depSize (overlay s m) d (lookN (overlay s m) 0x6001 d)))) vals))

/-- Pass 1 for one value: 0, or the reason. -/
def passOne (key : Nat) (v : ShadowVal) : Nat :=
  match objDef (key / 256) (key % 256) with
  | none => 7
  | some o =>
    match v with
    | .scalar bs => typeCheck o.ty bs
    | .table total cells => if o.ty = .table then tableCheck (key / 256) total cells else 7

/-- The report entry of a clamp: WRITTEN is what the request wrote, for a value and for an entry of a
table (Table 02-10). -/
def noteEntry (n key : Nat) (o : ObjDef) (orig : List Byte) (c : ClampNote) : ReportEntry :=
  let idx := key / 256
  let size := (tableShape idx).1
  { index := idx, sub := key % 256, reason := c.reason, set := n, element := c.element
    written := if o.ty = .table && size != 0 then beAt orig (c.element * size) size % 2 ^ 64
      else if idx = 0x5020 then c.written else reported o.ty (beNat orig)
    applied := c.applied }

/-- Values as a pass leaves them, with the report entries that it adds. -/
abbrev Checked := SMap (List Byte) × List ReportEntry

/-- One value of a pass: the rule `f`, the value as written, the values and entries so far. -/
def passOver (n : Nat) (shadow : SMap ShadowVal)
    (f : SMap (List Byte) → ObjDef → Nat → Nat → List Byte → List Byte × List ClampNote)
    (x : Checked) (key : Nat) : Checked :=
  match objDef (key / 256) (key % 256), mget? x.1 key with
  | some o, some bs =>
    let orig := match mget? shadow key with | some v => writtenBytes v | none => bs
    let (bs, notes) := f x.1 o (key / 256) (key % 256) bs
    (mput x.1 key bs, x.2 ++ notes.map (noteEntry n key o orig))
  | _, _ => x

/-- Pass 2: ranges. -/
def passTwo (s : State) (n : Nat) (shadow : SMap ShadowVal) : Checked :=
  let start : SMap (List Byte) := shadow.map fun e => (e.1, writtenBytes e.2)
  (shadow.map (·.1)).foldl (passOver n shadow fun vals o idx sub bs =>
    clampRange (overlayShape s vals) o idx sub bs) (start, [])

/-- The values that sets armed earlier will have made live at an instant: the later of two wins (R62). -/
def dueEarlier (s : State) (n mt : Nat) : SMap (List Byte) :=
  let sets := (dueOwners mt s.tb.armed).filterMap fun o => match o with
    | .commitSet k => if k = n then none else some k
    | _ => none
  sets.foldl (fun m k => (commitSet s k).checked.foldl (fun m e => mput m e.1 e.2) m) []

/-- Pass 3: dependencies; `base` holds what will be live at the apply besides the live values. -/
def passThree (s : State) (n : Nat) (base : SMap (List Byte)) (shadow : SMap ShadowVal) (x : Checked) : Checked :=
  let ks := shadow.map (·.1)
  ks.foldl (passOver n shadow fun vals o idx sub bs =>
    clampDep s (overlay s (vals.foldl (fun m e => mput m e.1 e.2) base)) (inKeys ks) o idx sub bs) x

/-- The rules judged at the apply. -/
def passApply (s : State) (n : Nat) (shadow : SMap ShadowVal) (x : Checked) : Checked :=
  (shadow.map (·.1)).foldl (passOver n shadow fun vals o idx sub bs =>
    clampAtApply s (overlay s x.1) (overlay s vals) o idx sub bs) x

/-- Entries of pass 1 that fail. -/
def failures (n : Nat) (shadow : SMap ShadowVal) : List ReportEntry :=
  (shadow.filter fun e => passOne e.1 e.2 != 0).map fun e =>
    { index := e.1 / 256, sub := e.1 % 256, reason := passOne e.1 e.2, set := n, element := 0, written := 0
      applied := 0 }

/-- Add entries to a report: 256 are stored, all are counted (R65). -/
def addReport (l : List ReportEntry) (r : Report) : Report :=
  { entries := (r.entries ++ l).take 256, count := r.count + l.length }

/-! ### What the units do at an apply -/

/-- The keys whose live value an apply changed. -/
def changedKeys (old s : State) (ks : List Nat) : List Nat :=
  ks.filter fun k => liveBytes old (k / 256) (k % 256) != liveBytes s (k / 256) (k % 256)

/-- Did an apply change an object? -/
def changedIdx (ks : List Nat) (idx : Nat) : Bool := ks.any fun k => k / 256 == idx

/-- Before the values change: what accrues under the old ones. -/
def beforeApply (ks : List Nat) (s : State) : State :=
  let s := when_ ([0x6811, 0x6812, 0x6813, 0x6820, 0x6821, 0x6822, 0x6830].any (changedIdx ks))
    (forRange 0 72 settleTags) s
  if changedIdx ks 0x6850 then
    { s with fs := { s.fs with policers := smapv {} (fun t _ => policerNow s t) s.fs.policers } }
  else s

/-- TB (R42): a new cable delay is an offset; limits are judged again. -/
def applyTime (ks : List Nat) (s : State) : State :=
  let s := when_ (changedIdx ks 0x4010 || changedIdx ks 0x4011) judgeDelay s
  let s := when_ (changedIdx ks 0x4021) peersChanged s
  when_ (changedIdx ks 0x4013 || changedIdx ks 0x4031 || changedIdx ks 0x4022) judgeUncertainty s

/-- PR (R492): a domain turned off leaves; one enabled may start again after a departure (R500). -/
def applyPower (ks : List Nat) (s : State) : State :=
  foldSt (fun k s =>
    if k / 256 = 0x3000 then
      let d := k % 256
      if rc s 0x3000 d = 0 then
        let s := leaveOn d false s
        if domState s d = .isolated then setDomain d .off s else s
      else startLast d { s with pr := { s.pr with held := s.pr.held.filter fun h => h != d } }
    else s) ks s

/-- The resolved tables of the values now live, under an epoch. -/
def tablesLive (s : State) (epoch : Nat) : EpochTables := tablesOf (liveBytes s) epoch

/-- The test objects of a port that carries the fabric are 0 (R366). -/
def clearTests (p : Nat) (s : State) : State :=
  { s with od := { s.od with live := mdel (mdel s.od.live (okey 0x5030 p)) (okey 0x5031 p) } }

/-- The ports follow the map (Table 09-2). -/
def followMap (old : State) (s : State) : State :=
  forRange 0 72 (fun p s =>
    let a := liveEntry old p
    let b := liveEntry s p
    match a.mode, b.mode with
    | .disabled, .disabled => s
    | .disabled, _ => enablePort p (clearTests p s)
    | _, .disabled => disablePort p s
    | _, _ => if a != b && (portRoute s p).state == .miswired then retrain p s else s) s

/-- RT (R280): the epochs move; a new shape or node resolves the map anew. -/
def applyRouting (old : State) (all ks : List Nat) (s : State) : State :=
  if all.contains (okey 0x6002 0) then
    let e := rc s 0x6002 0
    let s := { s with rt := { s.rt with prev := some s.rt.live, live := tablesLive s e, pending := none } }
    later .reach (followMap old s)
  else if changedIdx ks 0x6000 || changedIdx ks 0x6001 then
    let s := { s with rt := { s.rt with live := tablesLive s s.rt.live.epoch } }
    later .reach (followMap old s)
  else s

/-- FS: pools, gates, shapers, policers (R297, R309, R312, R315). -/
def applyFlow (old : State) (ks : List Nat) (s : State) : State :=
  let s := foldSt (fun k s =>
    let v := k % 256
    if k / 256 = 0x6800 then
      forRange 0 72 (fun p s =>
        match (portLink s p).state with
        | .active | .resuming => poolChange p v (rc old 0x6800 v) (rc s 0x6800 v) s
        | _ => s) s
    else if k / 256 = 0x6830 then shapersChanged v (liveBytes old 0x6830 v) s
    else s) ks s
  let s := forRange 0 72 (fun p s =>
    if ks.contains (okey 0x6820 p) || ks.contains (okey 0x6821 p) then
      newGates p (rcTable s 0x6820 p 8) (rc s 0x6821 p) s
    else s) s
  let s := when_ (changedIdx ks 0x6850) (policersChanged (liveBytes old 0x6850 0)) s
  when_ (changedIdx ks 0x6860) sampleFrom s

/-- PX: the lull policy, tests, and a fixed equaliser step. -/
def applyLanes (ks : List Nat) (s : State) : State :=
  foldSt (fun k s =>
    let p := k % 256
    if k / 256 = 0x5010 then lullEvaluate p s
    else if k / 256 = 0x5030 || k / 256 = 0x5031 then judgeScan (p / 8) (applyTest p s)
    else if k / 256 = 0x5015 then forRange 0 72 refreshGood s
    else if k / 256 = 0x5021 then
      foldSt (fun l s =>
        let b := beAt (liveBytes s 0x5021 p) l 1
        if bit b 7 then setLane p l (fun n => { n with peaking := b % 16 }) s else s) allLanes s
    else s) ks s

/-- QM and the lock unit (R76, R423): a function whose queue range changes. -/
def applyRanges (old : State) (ks : List Nat) (s : State) : State :=
  if [0x7010, 0x7011, 0x7012, 0x7014, 0x7015, 0x7016].any (changedIdx ks) then
    forRange 0 514 (fun fn s =>
      if queueRange old fn = queueRange s fn then s
      else
        let (lo, n) := queueRange old fn
        orphanFn fn (fnMoved fn lo n s)) s
  else s

/-! ### Sessions end (R59, R533) -/

/-- A session ends: its OPEN sets are discarded, its ARMED sets have no owner, its update is given up.  An
APPLIED set keeps the owner that it shows (DESIGN CHOICE, assumption 163). -/
def closeSession (k : Nat) (s : State) : State :=
  match mget? s.od.sessions k with
  | none => s
  | some x =>
    let w := carrierPath x.carrier * 2 ^ 30 + k % 2 ^ 30
    let s := foldSt (fun (e : Nat × CommitSet) s =>
      if e.2.owner = some w then
        match e.2.state with
        | .opened => setState e.1 .closed (setSet e.1 (fun x => { x with owner := none, shadow := [], checked := [] }) s)
        | .armed => setSet e.1 (fun x => { x with owner := none }) s
        | _ => s
      else s) s.od.sets s
    let s := if s.ms.update.owner = k then updateDrop s else s
    { s with od := { s.od with sessions := mdel s.od.sessions k } }

/-- The sessions of some carriers end. -/
def closeSessions (p : Carrier → Bool) (s : State) : State :=
  foldSt (fun (e : Nat × Session) s => if p e.2.carrier then closeSession e.1 s else s) s.od.sessions s

def isFabricCarrier : Carrier → Bool
  | .fabric _ _ => true
  | _ => false

def isMailboxCarrier : Carrier → Bool
  | .mailbox _ => true
  | _ => false

/-- The carrier of a function's mailbox. -/
def mailboxOf (fn : Nat) : Carrier :=
  .mailbox (if fn < 2 then .pf (Fin.ofNat 2 fn) else .vf (Fin.ofNat 2 (fnLink fn)) (Fin.ofNat 256 (fnVf fn)))

/-- The next session number of the module. -/
def takeSession (c : Carrier) (number : Option Nat) (s : State) : Nat × State :=
  let k := s.od.nextSession
  let x : Session := { carrier := c, number := number.getD k }
  (k, { s with od := { s.od with
    nextSession := if 2 ^ 30 ≤ k + 1 then 1 else k + 1
    sessions := mput s.od.sessions k x } })

/-- The mailbox of a function has a session (R51, R454). -/
def openMailbox (fn : Nat) (s : State) : State :=
  let k := (hostFn s fn).mb.session
  if (mget? s.od.sessions k).isSome || !rcOn s 0x2104 0 then s
  else
    let (k, s) := takeSession (mailboxOf fn) none s
    setFn fn (fun f => { f with mb := { f.mb with session := k } }) s

/-- The functions that are enabled (R451). -/
def enabledFns (s : State) : List Nat :=
  let vfs (k : Nat) : List Nat := rangeFrom (2 + 256 * k) (min 256 (hostLink s k).numVfs)
  ([0, 1] ++ vfs 0 ++ vfs 1).filter fun fn => fnEnabled s fn && !(hostFn s fn).flr

/-- Every enabled function has a mailbox session. -/
def openMailboxes (s : State) : State := foldSt openMailbox (enabledFns s) s

/-- Yusto (R72): a transport that is disabled loses its sessions. -/
def applyYusto (ks : List Nat) (s : State) : State :=
  let s := when_ (ks.contains (okey 0x2103 0) && !rcOn s 0x2103 0) (closeSessions isFabricCarrier) s
  let s := when_ (ks.contains (okey 0x2104 0) && !rcOn s 0x2104 0) (closeSessions isMailboxCarrier) s
  when_ (ks.contains (okey 0x2104 0)) openMailboxes s

/-- Every unit switches; `all` are the keys of the set, `ks` those whose value changed. -/
def applyUnits (old : State) (all ks : List Nat) (s : State) : State :=
  let s := applyTime ks s
  let s := when_ (changedIdx ks 0x2010) telemetryFrom s
  let s := applyPower ks s
  let s := when_ (changedIdx ks 0x3800 || changedIdx ks 0x3805) evalFaultN s
  let s := applyRouting old all ks s
  let s := applyFlow old ks s
  let s := applyLanes ks s
  applyYusto ks (applyRanges old ks s)

/-! ### The apply (R64) -/

/-- A value becomes live; the default is not listed. -/
def setLive (key : Nat) (bs : List Byte) (s : State) : State :=
  let live := if defaultBytes (key / 256) (key % 256) = bs then mdel s.od.live key else mput s.od.live key bs
  { s with od := { s.od with live := live } }

def setLives (vals : SMap (List Byte)) (s : State) : State :=
  foldSt (fun (e : Nat × List Byte) s => setLive e.1 e.2 s) vals s

/-- The tables that an apply changed go stale (R56). -/
def markTables (ks : List Nat) (s : State) : State :=
  let m := ks.foldl (fun m k => if (tableShape (k / 256)).1 = 0 then m else mput m k s.od.gen) s.od.changedAt
  { s with od := { s.od with changedAt := m } }

/-- A set is applied.  Two scans with an apply between them are not consecutive for the drift fault (DESIGN
CHOICE, assumption 161). -/
def applySet (n : Nat) (late : Bool) (s : State) : State :=
  let x := commitSet s n
  let again := s.od.applies != x.checkGen
  let c : Checked := (x.checked, [])
  let c := if again then
      (let c := passThree s n [] x.shadow c
       (c.1, c.2.map fun e => { e with reason := 6 }))
    else c
  let c := passApply s n x.shadow c
  let all := c.1.map (·.1)
  let old := s
  let s := beforeApply all s
  let s := setLives c.1 s
  let ks := changedKeys old s all
  let t := now s
  let s := { s with od := { s.od with
    gen := (s.od.gen + 1) % 2 ^ 64
    applies := s.od.applies + 1
    refStale := !all.contains (okey 0x1F20 0)
    lastDiffered := false
    scanComplete := false
    persisted := false
    persistDue := true
    lastResult := if s.od.lastResult.set = n then { s.od.lastResult with late := late } else s.od.lastResult } }
  let s := markTables ks s
  let s := setSet n (fun x => { x with report := addReport c.2 x.report, doneMT := t, shadow := [], checked := [] }) s
  let s := setState n .applied s
  let s := applyUnits old all ks s
  foldSt (fun k s => later (.push 0 (k / 256) (beBytes 3 k)) s) all s

/-- An armed set whose instant is reached is applied. -/
def applyFires (n : Nat) (s : State) : State :=
  let (late, s) := fireShot (.commitSet n) s
  applySet n late s

/-- The apply instant of an armed set is reached (R36, R64). -/
def applyDue (n : Nat) (s : State) : State := instantReached (.commitSet n) (applyFires n) s

/-! ### COMMIT (R53, R59, R62) -/

/-- The outcome of a commit action, as 0x1F12 shows it. -/
def commitResult (n st : Nat) (s : State) : Nat × State :=
  (st, { s with od := { s.od with lastResult := { set := n, status := st, late := false } } })

/-- RT takes the tables of an armed set as the pending epoch (R280). -/
def armTables (n : Nat) (s : State) : State :=
  let vals := (commitSet s n).checked
  match mget? vals (okey 0x6002 0) with
  | some e => { s with rt := { s.rt with pending := some (tablesOf (overlay s vals) (beNat e)) } }
  | none => s

/-- The pending epoch goes with its set. -/
def dropTables (n : Nat) (s : State) : State :=
  if (mget? (commitSet s n).shadow (okey 0x6002 0)).isSome then { s with rt := { s.rt with pending := none } } else s

/-- Action 0: freeze, check, arm or apply. -/
def commitGo (n mt : Nat) (s : State) : Nat × State :=
  let shadow := (commitSet s n).shadow
  let s := setState n .checking s
  let bad := failures n shadow
  let shown (l : List ReportEntry) (s : State) : State :=
    let s := setSet n (fun x => { x with report := addReport l {} }) s
    { s with od := { s.od with lastChecked := some n } }
  if !bad.isEmpty then commitResult n yREJECTED (setState n .opened (shown bad s))
  else
    let c := passThree s n (dueEarlier s n mt) shadow (passTwo s n shadow)
    let s := shown c.2 s
    let s := setSet n (fun x => { x with checked := c.1, applyMT := mt, checkGen := s.od.applies }) s
    match armShot (.commitSet n) mt s with
    | .full => commitResult n ySCHEDULEFULL (setState n .opened s)
    | .timeInvalid => commitResult n yTIMEINVALID (setState n .opened s)
    | .atOnce late =>
      let (st, s) := commitResult n yOK s
      (st, applySet n late (when_ late (bump 0x4006 0) s))
    | .armed s =>
      commitResult n yOK (setState n .armed (setSet n (fun x => { x with doneMT := mt }) (armTables n s)))

/-- Does a path hold the write right for every object of a set? -/
def mayWriteAll (s : State) (path n : Nat) : Bool :=
  (commitSet s n).shadow.all fun e => mayWrite path (e.1 / 256) (e.1 % 256)

/-- A COMMIT action of the session `owner` (in the layout of 0x1F03).  An action above 2, which only a write
of 0x1F00:00 can bring here, is MALFORMED (DESIGN CHOICE, assumption 160). -/
def commitAct (owner n action mt : Nat) (s : State) : Nat × State :=
  if n = 0 || 15 < n then commitResult n ySETINVALID s
  else if 2 < action then commitResult n yMALFORMED s
  else
    let x := commitSet s n
    let adopts := x.state == .armed && x.owner.isNone && action = 1 && mayWriteAll s (owner / 2 ^ 30) n
    let barred := x.state != .closed && x.owner != some owner && !adopts
    if barred then commitResult n ySETBUSY s
    else match x.state, action with
      | .opened, 0 => commitGo n mt s
      | .opened, 2 =>
        commitResult n yOK (setState n .closed (setSet n (fun x => { x with owner := none, shadow := [], checked := [] }) s))
      | .armed, 1 =>
        let s := setSet n (fun x => { x with owner := some owner }) (dropTables n (releaseShot (.commitSet n) s))
        commitResult n yOK (setState n .opened s)
      | .applied, 1 => commitResult n yALREADY s
      | _, _ => commitResult n ySETINVALID s

/-- State and apply MT of a COMMIT or REPORT response (R53). -/
def commitShown (s : State) (n : Nat) : Nat × Nat :=
  let x := commitSet s n
  match x.state with
  | .armed => (3, x.doneMT)
  | .applied => (4, x.doneMT)
  | st => (setCode st, 0)

/-- The commit command object 0x1F00:00 (R61). -/
def commitCommand (owner v : Nat) (s : State) : State :=
  let n := fld v 7 0
  (commitAct owner n (fld v 15 8) (rc s 0x1F01 n) s).2

/-! ### Check words and persistence (R67 to R69) -/

/-- The keys of every RC object, ascending. -/
def rcKeys : List Nat :=
  objects.flatMap fun o =>
    if o.acc = .rc then (rangeFrom o.lo (o.hi + 1 - o.lo)).map (okey o.idx) else []

/-- The live check word. -/
def checkWord (s : State) : Nat :=
  crc32c (rcKeys.flatMap fun k =>
    if k = okey 0x1F20 0 then [] else beBytes 3 k ++ liveBytes s (k / 256) (k % 256))

/-- A full scan. -/
def checkScan (s : State) : State :=
  let w := checkWord s
  let s := { s with od := { s.od with liveWord := w, scanComplete := true } }
  if s.od.refStale then s
  else if w = rc s 0x1F20 0 then
    endCondition 7 0 { s with od := { s.od with drift := false, lastDiffered := false } }
  else if s.od.lastDiffered && !s.od.drift then
    raiseFault 7 0 w (bump 0x1F23 0 { s with od := { s.od with drift := true } })
  else { s with od := { s.od with lastDiffered := true } }

/-- The complete set of live RC values: what a persistent copy holds. -/
def rcValues (s : State) : SMap (List Byte) := rcKeys.map fun k => (k, liveBytes s (k / 256) (k % 256))

/-- The content of a copy: key, length and bytes of each value (DESIGN CHOICE, assumption 157). -/
def copyContent (c : ConfigCopy) : List Byte :=
  c.values.flatMap fun e =>
    beBytes 3 e.1 ++ beBytes 4 e.2.length ++ e.2 ++ (match mget? c.tails e.1 with | some t => t | none => [])

/-- The CRC over a copy's header and content. -/
def copyCrc (c : ConfigCopy) : Nat :=
  crc32c (beBytes 4 c.magic ++ beBytes 8 c.gen ++ beBytes 4 c.length ++ copyContent c)

def copyMagic : Nat := 0x59434647

/-- A copy is valid when its magic, length and CRC check (R70). -/
def copyValid (c : ConfigCopy) : Bool :=
  c.magic == copyMagic && c.length == (copyContent c).length && c.crc == copyCrc c

/-- A copy of some values under a persist generation. -/
def newCopy (gen : Nat) (values : SMap (List Byte)) : ConfigCopy :=
  let c : ConfigCopy := { magic := copyMagic, gen := gen, values := values }
  let c := { c with length := (copyContent c).length }
  { c with crc := copyCrc c }

/-- The persist generation that the next persist writes. -/
def nextPersist (s : State) : Nat := max s.od.copyA.gen s.od.copyB.gen + 1

/-- Both copies have been written and checked. -/
def persistComplete (s : State) : State :=
  if !s.od.persistDue then s
  else
    let c := newCopy (nextPersist s) (rcValues s)
    { s with od := { s.od with
      copyA := c, copyB := c, persistGen := c.gen, persisted := true, persistDue := false } }

end Sys2Proof.Machine
end

