-- ==== Sys2Proof/Machine/HostOps.lean ====
section
/-!
DEFINITION. The host links, the register window, the admin group and the function-level reset
(16_register_window.md).
-/
namespace Sys2Proof.Machine

/-! ### Links (R448 to R451, R511) -/

/-- A request that the host still owes an answer ends as an Unsupported Request (R450). -/
def endReads (fns : Nat → Bool) (s : State) : State :=
  foldSt (fun (e : Nat × HostRead) s => if fns e.2.fn then readCompletion e.1 .error s else s) s.tu.reads s

/-- A link is lost: it is down, accesses end, every function of it is reset (R450, R454). -/
def linkLost (k : Nat) (s : State) : State :=
  let s := fnReset k false s
  let s := setLink k (fun l => { l with up := false, width := 0, rate := 0, flit := false }) s
  endReads (fun fn => fnLink fn == k) s

/-- Link-down or hot reset: the link trains again. -/
def hostLinkDown (k : Nat) (s : State) : State :=
  if (hostLink s k).up then
    setLink k (fun l => { l with training := l.perstN && l.refclk && domOn s (dHL k) }) (linkLost k s)
  else s

/-- HLk_PERST_N goes low: the link is held down (R511). -/
def perstLow (k : Nat) (s : State) : State :=
  setLink k (fun l => { l with perstN := false, training := false }) (linkLost k s)

/-- HLk_PERST_N goes high; with HLk_REFCLK valid the link trains. -/
def perstHigh (k : Nat) (refclk : Bool) (s : State) : State :=
  setLink k (fun l => { l with perstN := true, refclk := refclk, training := refclk && domOn s (dHL k) }) s

/-- Widths and rates a link can train to: x1 to x16, 2.5 to 64.0 GT/s, the last in flit mode (R448). -/
def linkTrains (width rate : Nat) (flit : Bool) : Bool :=
  [1, 2, 4, 8, 16].contains width && decide (1 ≤ rate) && decide (rate ≤ 6) && (flit || rate ≠ 6)

/-- Training ends: the link is up. -/
def hostLinkUp (k width rate : Nat) (flit : Bool) (s : State) : State :=
  let l := hostLink s k
  if l.perstN && l.training && !l.up && domOn s (dHL k) && linkTrains width rate flit then
    openMailboxes
      (setLink k (fun l => { l with up := true, training := false, width := width, rate := rate, flit := flit }) s)
  else s

/-- A function-level reset starts (R454). -/
def functionReset (fn : Nat) (s : State) : State :=
  if fnEnabled s fn && !(hostFn s fn).flr then fnReset fn true (bump 0xA031 (fnLink fn) s) else s

/-- It completes: the function's registers hold reset values. -/
def functionResetDone (fn : Nat) (s : State) : State :=
  if (hostFn s fn).flr && fnQuiet s fn then openMailboxes (setFn fn (fun f => { f with flr := false }) s) else s

/-- A write of a setting in configuration space.  During a function-level reset the function takes none: every
register holds its reset value when it completes (R454; DEDUCED, assumption 230). -/
def configWrite (fn : Nat) (r : CfgReg) (s : State) : State :=
  let pf (f : HostLink → HostLink) : State := if fn < 2 then setLink fn f s else s
  if !(hostLink s (fnLink fn)).up || (hostFn s fn).flr then s
  else match r with
    | .busMaster v => setFn fn (fun f => { f with bme := v }) s
    | .powerState v => setFn fn (fun f => { f with d3hot := v }) s
    | .msix e m => flushVectors fn (setFn fn (fun f => { f with msixEnable := e, msixMask := m }) s)
    | .srIov e n => if fn < 2 then openMailboxes (setLink fn (fun l => { l with vfEnable := e, numVfs := n.val }) s) else s
    | .atomicRequester v => pf fun l => { l with atomicReq := v }
    | .relaxedOrdering v => pf fun l => { l with relaxed := v }
    | .maxPayload c => pf fun l => { l with maxPayload := c }
    | .maxRead c => pf fun l => { l with maxRead := c }

/-! ### The admin group (R459 to R461) -/

def setAdm (fn : Nat) (f : AdminGroup → AdminGroup) (s : State) : State :=
  setFn fn (fun x => { x with adm := f x.adm }) s

def setTr (fn : Nat) (f : TransGroup → TransGroup) (s : State) : State :=
  setFn fn (fun x => { x with tr := f x.tr }) s

/-- AQ_STATUS RESULT: 0 OK, 1 BAD_PARAM, 2 BAD_STATE, 3 NOT_PERMITTED, 4 NO_MEMORY, 5 TOO_SMALL. -/
def aqResult (fn code : Nat) (s : State) : State := setAdm fn (fun a => { a with result := code }) s

/-- Does either admin queue of a function exist? -/
def adminExists (s : State) (fn : Nat) : Bool :=
  qExists (queue s (adminQn s fn)) || qExists (queue s (adminQn s fn + 1))

/-- ENABLE creates the admin pair (R460, R461). -/
def aqEnable (fn : Nat) (s : State) : State :=
  let a := (hostFn s fn).adm
  let qn := adminQn s fn
  let asid := fld a.config 63 48
  let sqLog := fld a.config 20 16
  let cqLog := fld a.config 28 24
  let x := space s asid
  if (queueRange s fn).2 = 0 then aqResult fn 3 s
  else if adminExists s fn then aqResult fn 2 s
  else if sqLog < 4 || 16 < sqLog || cqLog < 4 || 16 < cqLog || msixSize fn ≤ fld a.config 39 29 then
    aqResult fn 1 s
  else if x.state != .live || x.fn ≠ fn then aqResult fn 3 s
  else if stacksWorking s = 0 || queueLimit s < queuesExisting s + 2 then aqResult fn 4 s
  else
    let (k, s) := placeStack s
    let (k2, s) := placeStack s
    let gen := fld a.config 47 40
    let sq : Queue := {
      state := .ready, type := qSEND, fn := fn, base := a.sqBase, log2 := sqLog, gen := gen, weight := 1
      gust := 16, tenant := x.tenant, asid := asid, cqn := qn + 1, noEq := true, admin := true, stack := k }
    let cq : Queue := {
      state := .ready, type := qCQ, fn := fn, base := a.cqBase, log2 := cqLog, gen := gen, weight := 1
      vector := fld a.config 39 29, tenant := x.tenant, asid := asid, noEq := true
      modCount := fld a.mod_ 63 48, modTime := fld a.mod_ 31 0, admin := true, stack := k2 }
    let s := setQueue (qn + 1) (fun _ => cq) (setQueue qn (fun _ => sq) s)
    setAdm fn (fun a => { a with result := 0, disabling := false, haltReason := 0, haltIndex := 0 }) s

/-- DISABLE destroys the pair as by FORCE; BUSY stays until R109 holds for both. -/
def aqDisable (fn : Nat) (s : State) : State :=
  let qn := adminQn s fn
  if !adminExists s fn then aqResult fn 2 s
  else
    let end_ (k : Nat) (s : State) : State :=
      if qExists (queue s k) && !dying (queue s k) then destroyForce k none s else s
    setAdm fn (fun a => { a with result := 0, disabling := true }) (end_ (qn + 1) (end_ qn s))

/-- RESUME and RESUME_SKIP, which clear the halt record; not after CONTEXT_LOST (R106).  A skip that needs a completion slot keeps the group BUSY until there is one. -/
def aqResume (fn : Nat) (skip : Bool) (s : State) : State :=
  let qn := adminQn s fn
  let q := queue s qn
  if q.state != .halted || q.destroying.isSome || q.haltReason == hCONTEXTLOST then aqResult fn 2 s
  else if skip && haltOfEntry q && cqFree s q = 0 then setAdm fn (fun a => { a with busy := some (0x1028, 4) }) s
  else setAdm fn (fun a => { a with result := 0, haltReason := 0, haltIndex := 0 }) (resume qn skip s)

/-- RESIZE_CQ; it waits for an entry being written.  Not after CONTEXT_LOST (R112). -/
def aqResizeCq (fn : Nat) (s : State) : State :=
  let a := (hostFn s fn).adm
  let qn := adminQn s fn + 1
  let q := queue s qn
  let log2 := fld a.config 28 24
  if !qExists q || q.haltReason == hCONTEXTLOST then aqResult fn 2 s
  else if q.writing then setAdm fn (fun a => { a with busy := some (0x1028, 5) }) s
  else if log2 < 4 || 16 < log2 then aqResult fn 1 s
  else if 2 ^ log2 < max q.reserved q.entries.length then aqResult fn 5 s
  else
    let s := setAdm fn (fun a => { a with result := 0, oldWritten := q.written }) s
    pump qn (setQueue qn (fun q => { q with base := a.cqBase, log2 := log2, written := 0, head := 0 }) s)

/-- An AQ_CONTROL action (R461). -/
def aqAction (fn action : Nat) (s : State) : State :=
  if action = 1 then aqEnable fn s
  else if action = 2 then aqDisable fn s
  else if action = 3 then aqResume fn false s
  else if action = 4 then aqResume fn true s
  else if action = 5 then aqResizeCq fn s
  else aqResult fn 1 s

/-- BUSY of the two slow groups (R459, R461, R462). -/
def admBusy (s : State) (fn : Nat) : Bool :=
  let a := (hostFn s fn).adm
  a.busy.isSome || (a.disabling && adminExists s fn)
/-- BUSY of the translation group: a write, a held command, or 16 INVALIDATEs in progress (R462). -/
def trBusy (s : State) (fn : Nat) : Bool :=
  (hostFn s fn).tr.busy.isSome || s.tu.held.any (fun c => c.issuer == fn) || 16 ≤ (invalsOf s fn).length

def admDrop (fn : Nat) (s : State) : State := setAdm fn (fun a => { a with dropped := (a.dropped + 1) % 256 }) s
def trDrop (fn : Nat) (s : State) : State := setTr fn (fun a => { a with dropped := (a.dropped + 1) % 256 }) s

/-- A write to AQ_CONTROL with its effect; while BUSY it is discarded. -/
def aqControl (fn action : Nat) (s : State) : State :=
  if !barsLive s fn then s
  else if admBusy s fn then admDrop fn s
  else aqAction fn action s

/-- The effect of a posted write in the admin group. -/
def admWrite (fn off v : Nat) (s : State) : State :=
  if off = 0x1008 then setAdm fn (fun a => { a with sqBase := v / 4096 * 4096 }) s
  else if off = 0x1010 then setAdm fn (fun a => { a with cqBase := v / 4096 * 4096 }) s
  else if off = 0x1018 then
    setAdm fn (fun a => { a with config := fld v 63 24 * 2 ^ 24 + fld v 20 16 * 2 ^ 16 }) s
  else if off = 0x1020 then setAdm fn (fun a => { a with mod_ := fld v 63 48 * 2 ^ 48 + fld v 31 0 }) s
  else if off = 0x1028 then aqAction fn (fld v 7 0) s
  else s

/-- The effect of a posted write in the translation group (R462). -/
def trWrite (fn off v : Nat) (s : State) : State :=
  if off = 0x1108 then setTr fn (fun a => { a with cmdHi := v }) s
  else if off = 0x1110 then transCommand fn ((hostFn s fn).tr.cmdHi * 2 ^ 64 + v) s
  else s

/-- A posted write reaches the domain of its group and BUSY clears (R459); `translation` names the group. -/
def groupTakesEffect (fn : Nat) (translation : Bool) (s : State) : State :=
  if translation then
    match (hostFn s fn).tr.busy with
    | some (off, v) => trWrite fn off v (setTr fn (fun a => { a with busy := none }) s)
    | none => s
  else match (hostFn s fn).adm.busy with
    | some (off, v) => admWrite fn off v (setAdm fn (fun a => { a with busy := none }) s)
    | none => s

/-! ### Writes of the host (R82, R456, R457) -/

/-- A discarded BAR2 access (R457). -/
def bar2Discard (fn : Nat) (s : State) : State := bumpFn fn 8 (bump 0xA030 (fnLink fn) s)

/-- The quadwords of a BAR0 write in the order of R456: in one slot the key rights precede the doorbell. -/
def quadOrder : List Nat → List Nat
  | a :: b :: r =>
    if a % 8 = 0 && b = a + 1 then b :: a :: quadOrder r else a :: quadOrder (b :: r)
  | l => l

/-- One whole quadword to BAR0. -/
def quadWrite (fn q w : Nat) (s : State) : State :=
  let slot := q / 8
  let gen := fld w 47 40
  let resv := fld w 59 48 * 256 + fld w 39 32
  if q % 8 = 0 then
    let kind := fld w 63 60
    if kind = 0 then atSlot fn slot (doorbellTail fn gen resv (fld w 31 0)) s
    else if kind = 1 then atSlot fn slot (doorbellHead fn gen resv (fld w 31 0) false) s
    else if kind = 2 then atSlot fn slot (doorbellHead fn gen resv (fld w 31 0) true) s
    else atSlot fn slot (fun _ s => doorbellIgnore fn s) s
  else if q % 8 = 1 then
    atSlot fn slot (keyRightsWrite fn gen (fld w 63 48 * 256 + fld w 39 32) (fld w 31 0)) s
  else doorbellDiscard fn s

/-- A write TLP to BAR0: a quadword that is not written whole is discarded. -/
def bar0Write (fn off : Nat) (data : List Byte) (s : State) : State :=
  let first := off / 8
  let last := (off + data.length - 1) / 8
  foldSt (fun q s =>
    if off ≤ q * 8 && q * 8 + 8 ≤ off + data.length then
      quadWrite fn q (leNat (slice data (q * 8 - off) 8)) s
    else doorbellDiscard fn s)
    (quadOrder (rangeFrom first (last + 1 - first))) s

/-- A write to the MSI-X table: whole doublewords (PRESUMED: PCI Express). -/
def msixWrite (fn off : Nat) (data : List Byte) (s : State) : State :=
  if off % 4 ≠ 0 || (data.length ≠ 4 && data.length ≠ 8) || (data.length = 8 && off % 8 ≠ 0) then s
  else
    let s := foldSt (fun k s =>
      let at_ := off + 4 * k
      let v := at_ / 16
      let w := leNat (slice data (4 * k) 4)
      if msixSize fn ≤ v then s
      else setFn fn (fun f => { f with msix := smod {} f.msix v fun e =>
        if at_ % 16 = 0 then { e with addr := e.addr / 2 ^ 32 * 2 ^ 32 + w }
        else if at_ % 16 = 4 then { e with addr := w * 2 ^ 32 + e.addr % 2 ^ 32 }
        else if at_ % 16 = 8 then { e with data := w }
        else { e with masked := w % 2 = 1 } }) s) (rangeFrom 0 (data.length / 4)) s
    flushVectors fn s

/-- A write to the request area of the mailbox. -/
def mbReqWrite (fn off : Nat) (data : List Byte) (s : State) : State :=
  setFn fn (fun f => { f with mb := { f.mb with
    req := memWrite f.mb.req (off - 0x10000) (data.take (0x10800 - off)) } }) s

/-- A write to BAR2, apart from MB_SUBMIT and LOCK_CMD. -/
def bar2Write (fn off : Nat) (data : List Byte) (s : State) : State :=
  if 0x10000 ≤ off && off < 0x10800 then mbReqWrite fn off data s
  else if 0x10800 ≤ off && off < 0x11800 then s
  else if 0x80000 ≤ off && off < 0x80000 + 16 * msixSize fn then msixWrite fn (off - 0x80000) data s
  else if off % 8 ≠ 0 || data.length ≠ 8 then bar2Discard fn s
  else
    let v := leNat data
    if off = 0x20 then setFn fn (fun f => { f with funcInt := fld v 18 16 * 65536 + fld v 10 0 }) s
    else if 0x1000 ≤ off && off ≤ 0x1038 then
      if admBusy s fn then admDrop fn s else setAdm fn (fun a => { a with busy := some (off, v) }) s
    else if 0x1100 ≤ off && off ≤ 0x1110 then
      if trBusy s fn then trDrop fn s else setTr fn (fun a => { a with busy := some (off, v) }) s
    else s

/-- A poisoned write to any BAR is an AER advisory error (R456). -/
def poisonedWrite (fn : Nat) (s : State) : State := bump 0xA032 (fnLink fn) s

/-! ### What the host reads in BAR2 (Table 16-3) -/

/-- MB_STATUS (Table 16-7). -/
def mbStatus (m : Mailbox) : Nat :=
  b2n m.pending * 2 ^ 63 + m.discarded * 2 ^ 48 + m.pushCount * 2 ^ 40 + m.rspCount * 2 ^ 32 + m.session

/-- AQ_STATUS (Table 16-6). -/
def aqStatus (s : State) (fn : Nat) : Nat :=
  let a := (hostFn s fn).adm
  let qn := adminQn s fn
  let there := (queueRange s fn).2 ≠ 0
  let st (k : Nat) : Nat := if there then stateCode (queue s k).state else 0
  a.result * 2 ^ 56 + st qn * 2 ^ 52 + st (qn + 1) * 2 ^ 48 + a.haltReason * 2 ^ 40 + a.haltIndex

/-- A read of BAR0: the doorbell slots read as 0 (R82). -/
def doorbellRead (_s : State) (_fn _off : Nat) : Nat := 0

/-- Eight bytes of one of the mailbox's areas; behind its message an area reads 0. -/
def areaRead (bs : List Byte) (off : Nat) : Nat := leNat ((bs.drop off).take 8)

/-- Eight bytes of the MSI-X table: an entry is its address, its data and its vector control. -/
def msixRead (f : HostFn) (off : Nat) : Nat :=
  let e := sget {} f.msix (off / 16)
  if off % 16 = 0 then e.addr else e.data + b2n e.masked * 2 ^ 32

/-- Eight bytes of the pending-bit array. -/
def pbaRead (fn : Nat) (f : HostFn) (off : Nat) : Nat :=
  sumBy (fun b => if decide (8 * off + b < msixSize fn) && (sget {} f.msix (8 * off + b)).pending then 2 ^ b else 0)
    (rangeFrom 0 64)

/-- A register of the window, or eight bytes of an area, as they now read; reserved locations read 0. -/
def windowRead (s : State) (fn off : Nat) : Nat :=
  let f := hostFn s fn
  if !barsLive s fn then 0
  else if off = 0x0 then
    fn * 2 ^ 32 + b2n (fnIsVf fn) * 2 ^ 17 + fnLink fn * 2 ^ 16 + (if fnIsVf fn then fnVf fn else 0)
  else if off = 0x8 then (queueRange s fn).2 * 2 ^ 32 + (queueRange s fn).1
  else if off = 0x10 then (endpointRange s fn).2 * 2 ^ 32 + ownNode s * 2 ^ 12 + (endpointRange s fn).1
  else if off = 0x18 then now s
  else if off = 0x20 then f.funcInt
  else if off = 0x30 then mbStatus f.mb
  else if off = 0x1000 then f.adm.dropped * 256 + b2n (admBusy s fn)
  else if off = 0x1008 then f.adm.sqBase
  else if off = 0x1010 then f.adm.cqBase
  else if off = 0x1018 then f.adm.config
  else if off = 0x1020 then f.adm.mod_
  else if off = 0x1030 then aqStatus s fn
  else if off = 0x1038 then f.adm.oldWritten
  else if off = 0x1100 then f.tr.dropped * 256 + b2n (trBusy s fn)
  else if off = 0x1108 then f.tr.cmdHi
  else if 0x10000 ≤ off && off < 0x10800 then leNat (memRead f.mb.req (off - 0x10000) 8)
  else if 0x10800 ≤ off && off < 0x11000 then areaRead f.mb.rsp (off - 0x10800)
  else if 0x11000 ≤ off && off < 0x11800 then areaRead f.mb.push (off - 0x11000)
  else if 0x80000 ≤ off && off < 0x80000 + 16 * msixSize fn && off % 8 = 0 then msixRead f (off - 0x80000)
  else if 0x88000 ≤ off && off < 0x88000 + msixSize fn / 8 && off % 8 = 0 then pbaRead fn f (off - 0x88000)
  else 0

/-- A read of BAR2 by the host (R457): in the mailbox areas any size and alignment; elsewhere 8 bytes, or the
half of a register that 4 bytes name.  Any other read returns 0 and is counted. -/
def bar2Read (fn off n : Nat) (s : State) : Nat × State :=
  let half (at_ : Nat) : Nat := windowRead s fn (at_ / 8 * 8) / 2 ^ (8 * (at_ % 8))
  if !barsLive s fn then (0, s)
  else if 0x10000 ≤ off && off < 0x11800 then
    (sumBy (fun i => windowRead s fn (off + i) % 256 * 256 ^ i) (rangeFrom 0 n), s)
  else if n = 8 && off % 8 = 0 then (windowRead s fn off, s)
  else if n = 4 && off % 4 = 0 then (half off % 2 ^ 32, s)
  else if 0x80000 ≤ off && off < 0x80000 + 16 * msixSize fn || 0x88000 ≤ off && off < 0x88000 + msixSize fn / 8 then
    (half off % 256 ^ n, s)
  else (0, bar2Discard fn s)

/-- A counter of BAR4 (R467). -/
def counterRead (s : State) (fn off : Nat) : Nat :=
  if !barsLive s fn || off % 8 ≠ 0 then 0
  else if off < 0x1000 then sget 0 (hostFn s fn).counters (off / 8)
  else if fnIsVf fn then 0
  else counter s ((off - 0x1000) / 8)

end Sys2Proof.Machine
end

