-- ==== Sys2Proof/Machine/Departure.lean ====
section
/-!
DEFINITION. What a domain that leaves ON takes with it, domains that come ON, planned departure and
withdrawal (R489 to R498, R510, R552; chapters 18, 19 and 21).
-/
namespace Sys2Proof.Machine

/-! ### A domain leaves ON (Table 18-4, Table 19-5) -/

/-- Engines and clusters of an engine domain. -/
def enginesOf (j : Nat) : List Nat := rangeFrom (16 * j) 16
def portsOf (k : Nat) : List Nat := rangeFrom (8 * k) 8

/-- Is an access of a context under way that its domain's wrapper ends? -/
def ctxWaits (x : ECtx) : Nat :=
  (match x.wait with
    | .access _ _ => 1
    | .fence _ n => n
    | _ => 0) + (x.moves.filter fun m => m.done.isNone).length + x.stores.length

/-- Transfers outstanding at the wrapper of a domain (R510). -/
def wrapperTransfers (s : State) (d : Nat) : Nat :=
  if d = 1 then s.tu.reads.length
  else if d = 2 || d = 3 then (s.tu.reads.filter fun e => fnLink e.2.fn == d - 2).length
  else if 22 ≤ d && d ≤ 27 then
    sumBy (fun e => sumBy (fun c => ctxWaits (ectx s e c)) [0, 1, 2, 3]) (enginesOf (d - 22))
  else 0

/-- PD_CX: queues, regions, domains and groups are lost, with everything else of its units. -/
def cxLeft (s : State) : State :=
  forgetPeers { s with
    qm := {}, mu := {}, ra := {}, ce := {}, tu := { nextRead := s.tu.nextRead }, rt := {}, fs := {}, ll := {}
    lk := [], me := { s.me with farLanes := [] }
    tb := { s.tb with armed := s.tb.armed.filter fun a => match a.owner with | .launch _ _ => false | _ => true } }

/-- PD_HLk: the link is down; each function restarts as after a function-level reset. -/
def hlLeft (k : Nat) (s : State) : State := setLink k (fun l => { l with training := false }) (linkLost k s)

/-- PD_SCk: its ports are flushed at once without grace. -/
def scLeft (k : Nat) (s : State) : State := foldSt (fun p s => lanesOff p (flushRetrain p s)) (portsOf k) s

/-- PD_OEk: lasers off; links go down with their replay state intact. -/
def oeLeft (k : Nat) (s : State) : State :=
  let s := foldSt (fun p s => lanesOff p (linkDown p s)) (portsOf k) s
  { s with px := { s.px with hot := s.px.hot.filter fun x => x != k } }

/-- PD_ECj: items end ENGINE_HALT; locks of its contexts are orphaned; its memories are lost.  A package
slot is no longer bound to a cluster whose code is lost (DESIGN CHOICE, assumption 29). -/
def ecLeft (j : Nat) (s : State) : State :=
  let s := later (.orphan ((rangeFrom (64 * j) 64).map .engine)) s
  let s := foldSt (fun e s => setEngine e (fun _ => {}) (endItems e s)) (enginesOf j) s
  let pair : Nat := 3 * 2 ^ (2 * j)
  { s with me := { s.me with
    cmem := mdel (mdel s.me.cmem (2 * j)) (2 * j + 1)
    flights := s.me.flights.filter fun f => f.cluster != some (2 * j) && f.cluster != some (2 * j + 1)
    slots := smapv {} (fun _ g => { g with mask := g.mask - Nat.land g.mask pair }) s.me.slots } }

/-- A WORKING stack becomes LOST (R433): the fault source is raised, every unit treats its objects in it
as Table 15-3 says (R445). -/
def loseStack (k : Nat) (s : State) : State :=
  if stackWorks s k then
    let n := (recentOf s (stack s k).recent).length
    stackGone k (raiseFault 20 k n (setStack k (fun t => { t with state := .lost }) s))
  else s

/-- PD_HBk: the stack is lost, with its content. -/
def hbLeft (k : Nat) (s : State) : State :=
  let s := loseStack k s
  { s with
    cm := { s.cm with bytes := s.cm.bytes.filter fun c => stackOf c.1 != k }
    me := { s.me with flights := s.me.flights.filter fun f => f.cluster.isSome || stackOf f.off != k } }

/-- The effects of a domain that has left ON. -/
def domainLeft (d : Nat) (s : State) : State :=
  let s := bumpBy 0x3450 d (wrapperTransfers s d) s
  if d = 1 then cxLeft s
  else if d = 2 || d = 3 then hlLeft (d - 2) s
  else if 4 ≤ d && d ≤ 12 then scLeft (d - 4) s
  else if 13 ≤ d && d ≤ 21 then oeLeft (d - 13) s
  else if 22 ≤ d && d ≤ 27 then ecLeft (d - 22) s
  else if d = 28 || d = 29 then hbLeft (d - 28) s
  else s

/-! ### A domain comes ON -/

/-- PD_CX: its units start from the live configuration. -/
def cxUp (s : State) : State :=
  let s := { s with rt := { live := tablesLive s (rc s 0x6002 0) }, fs := {}, ll := {} }
  let s := forRange 0 72 (fun p s =>
    let s := shapersChanged p [] s
    let s := if rcTable s 0x6820 p 8 = [] then s else newGates p (rcTable s 0x6820 p 8) (rc s 0x6821 p) s
    if (liveEntry s p).mode == .disabled then s else enablePort p s) s
  sampleFrom (policersChanged [] s)

/-- A sector or its optics: bring-up of every port that is not DISABLED (R359). -/
def sectorUp (k : Nat) (s : State) : State :=
  foldSt (fun p s => match (portLink s p).state with
    | .off => applyTest p s
    | _ => startBringUp p s) (portsOf k) s

/-- The effects of a domain's release from reset. -/
def domainUp (d : Nat) (s : State) : State :=
  if d = 1 then cxUp s
  else if d = 2 || d = 3 then setLink (d - 2) (fun l => { l with training := l.perstN && l.refclk }) s
  else if 4 ≤ d && d ≤ 12 then sectorUp (d - 4) s
  else if 13 ≤ d && d ≤ 21 then sectorUp (d - 13) s
  else if 22 ≤ d && d ≤ 27 then later .dispatch (loadFirmware (enginesOf (d - 22)) s)
  else if d = 28 || d = 29 then setStack (d - 28) (fun _ => {}) s
  else s

/-- Every domain that this start enables is ON: milestone 6 (Table 19-6). -/
def milestoneSix (s : State) : State :=
  if s.rs.phase == .running && s.rs.milestone = 5 &&
      startOrder.all fun d => !mayStart s d || domOn s d then
    { s with rs := { s.rs with milestone := 6 } }
  else s

/-- A domain's turn has come (R493). -/
def domainStart (d : Nat) (s : State) : State :=
  if nextStart s = some d && startSpaced s then
    setDomain d .ramping { s with pr := { s.pr with
      lateStart := s.pr.lateStart.filter fun x => x != d
      startAt := some (ticks s)
      rampAt := mput s.pr.rampAt d (ticks s) } }
  else s

/-- Power good: the domain's reset is released.  After a warm reset the domains that kept their power are
released in the order of R493 (R508). -/
def domainGood (d : Nat) (s : State) : State :=
  let turn : Bool := !s.pr.kept.contains d ||
    startOrder.find? (fun x => s.pr.kept.contains x && parentOn s x && mayStart s x) == some d
  if d != 0 && domState s d == .ramping && parentOn s d && mayStart s d && turn then
    milestoneSix (domainUp d
      (setDomain d .on { s with pr := { s.pr with kept := s.pr.kept.filter fun x => x != d } }))
  else s

/-- No power good within 5 ms (Table 18-3). -/
def domainRampTimeout (d : Nat) (s : State) : State :=
  if d != 0 && domState s d == .ramping && !s.pr.kept.contains d &&
      sget 0 s.pr.rampAt d + ticksOf 5 1000 ≤ ticks s then
    unitRaise 2 d 0 (leaveOn d true s)
  else s

/-- A write of 0x3020:00: an ISOLATED domain restarts as from OFF. -/
def domainRestart (d : Nat) (s : State) : State :=
  if s.rs.phase == .running && d != 0 && d < 30 && domState s d == .isolated then
    startLast d (setDomain d .off s)
  else s

/-! ### Departure (R496 to R498) -/

/-- Ports with a trained link to a peer. -/
def linkedPorts (s : State) : List Nat :=
  (rangeFrom 0 72).filter fun p =>
    (portRoute s p).state == .up || (portRoute s p).state == .departing

/-- A LINK_CTL sent at once. -/
def linkCtlNow (p kind arg : Nat) (s : State) : State := emit (.packet p (linkCtlPacket s p kind arg)) s

/-- A departure is requested. -/
def departRequest (s : State) : State :=
  if s.pr.departure != .joined then s
  else later .departStart { s with pr := { s.pr with
    departure := .draining, drainAt := ticks s + rc s 0x3101 0 } }

/-- Its start: groups are released, origin lanes closed. -/
def departStart (s : State) : State := closeLanes (fun _ => true) (endAllGroups s)

/-- No message of the module's flows is unacknowledged. -/
def fabricQuiet (s : State) : Bool := s.ra.src.all fun (e : Nat × FlowSrc) => e.2.msgs.isEmpty

/-- The quiesce phase ends: DEPART on every UP port, with the MT of the limit. -/
def departQuiet (s : State) : State :=
  if s.pr.departure == .draining && fabricQuiet s then
    let limit := (now s + (s.pr.drainAt - ticks s)) % 2 ^ 64
    foldSt (fun p s => if (portRoute s p).state == .up then sendLinkCtl p 1 limit s else s) (rangeFrom 0 72)
      { s with pr := { s.pr with departure := .departing } }
  else s

/-- Is everything of a port on its way? -/
def portDrained (s : State) (p : Nat) : Bool :=
  let x := portLink s p
  (portFlow s p).queue.isEmpty && x.replay.isEmpty && x.current.isNone

/-- The sectors and their optics go OFF; the state is DEPARTED. -/
def sectorsOff (outcome : Nat) (s : State) : State :=
  let s := foldSt (fun k s => leaveOn (dSC k) false s) (rangeFrom 0 9) s
  { s with pr := { s.pr with
    departure := .departed, outcome := Nat.lor s.pr.outcome outcome, held := rangeFrom 4 18 } }

/-- Every egress queue and replay buffer is empty: DEPART_DONE with outcome 0. -/
def departDrained (s : State) : State :=
  if s.pr.departure == .departing && (rangeFrom 0 72).all (portDrained s) then
    sectorsOff 1 (foldSt (fun p s => linkCtlNow p 2 0 s) (linkedPorts s) s)
  else s

/-- Packets held for the fabric are discarded and counted in 0x3104:00. -/
def discardHeld (s : State) : State :=
  let s := forRange 0 72 (fun p s =>
    let x := portLink s p
    let n := (portFlow s p).queue.length + x.committed.length + b2n x.current.isSome
    bumpBy 0x3104 0 n (setFlow p (fun f => { f with queue := [] })
      (setPL p (fun x => { x with replay := [], committed := [], current := none }) s))) s
  let out (pk : Packet) : Bool := idNode pk.dest != ownNode s
  let n := (s.rt.inject.filter out).length + (s.rt.ingress.filter fun i => out i.packet).length
  bumpBy 0x3104 0 n { s with rt := { s.rt with
    inject := s.rt.inject.filter fun pk => !out pk
    ingress := s.rt.ingress.filter fun i => !out i.packet } }

/-- The drain limit expires in either phase. -/
def drainLimit (s : State) : State :=
  let going : Bool := s.pr.departure == .draining || s.pr.departure == .departing
  if going && s.pr.drainAt ≤ ticks s then
    sectorsOff 2 (discardHeld (foldSt (fun p s => linkCtlNow p 2 1 s) (linkedPorts s) s))
  else s

/-- Withdrawal (R552): DEPART and DEPART_DONE back to back, and out. -/
def withdraw (s : State) : State :=
  let s := { s with
    pr := { s.pr with departure := .departing }
    fc := { s.fc with withdrawn := true } }
  let s := foldSt (fun p s =>
    if (portRoute s p).state == .up then linkCtlNow p 2 1 (linkCtlNow p 1 (now s) s) else s) (rangeFrom 0 72) s
  sectorsOff 2 (discardHeld s)

end Sys2Proof.Machine
end

