-- ==== Sys2Proof/Machine/Reset.lean ====
section
/-!
DEFINITION. Reset, boot and Doldrums, and the load of the persistent configuration (R70, R504 to R519,
R533, R536, R537).
-/
namespace Sys2Proof.Machine

/-! ### The persistent configuration (R69, R70) -/

/-- A persist that a reset finds due is abandoned wherever it stands: not begun, the first copy torn, the
first copy written, the second torn.  Which, is a free value (assumption 1). -/
def dropPersist (s : State) : State :=
  if !s.od.persistDue then s
  else
    let new := newCopy (nextPersist s) (rcValues s)
    let aFirst : Bool := s.od.copyA.gen ≤ s.od.copyB.gen
    let (k, s) := draw 4 s
    let first (c : ConfigCopy) (s : State) : State :=
      if aFirst then { s with od := { s.od with copyA := c } } else { s with od := { s.od with copyB := c } }
    let second (c : ConfigCopy) (s : State) : State :=
      if aFirst then { s with od := { s.od with copyB := c } } else { s with od := { s.od with copyA := c } }
    let s := if k = 0 then s
      else if k = 1 then first {} s
      else if k = 2 then first new s
      else second {} (first new s)
    { s with od := { s.od with persistDue := false } }

/-- The copy that a start uses (Table 02-12), and whether it is copy B. -/
def chosenCopy (s : State) : Option (ConfigCopy × Bool) :=
  let a := s.od.copyA
  let b := s.od.copyB
  match copyValid a, copyValid b with
  | true, true => if a.gen < b.gen then some (b, true) else some (a, false)
  | true, false => some (a, false)
  | false, true => some (b, true)
  | false, false => none

/-- A value of the chosen copy, as the boot ROM reads it (R512). -/
def persisted (s : State) (idx : Nat) : Nat :=
  match chosenCopy s with
  | some (c, _) => (match mget? c.values (okey idx 0) with
    | some bs => beNat bs
    | none => objDefault idx 0)
  | none => objDefault idx 0

/-- The port map that the shape configuration of a copy resolves to. -/
def copyPorts (c : ConfigCopy) : List PortEntry :=
  (tablesOf (fun idx sub => match mget? c.values (okey idx sub) with
    | some bs => bs
    | none => defaultBytes idx sub) 0).map

/-- The used bits of a value (R71): none of a per-port element whose port is disabled, and the defined bits of
a BITS32 value. -/
def usedBytes (ports : List PortEntry) (key : Nat) (bs : List Byte) : List Byte :=
  match objDef (key / 256) (key % 256) with
  | none => bs
  | some o =>
    let off : Bool := match ports[key % 256]? with | some e => e.mode == .disabled | none => true
    if o.lo = 0 && o.hi = 71 && off then []
    else match o.ty, o.range with
      | .bits32, .bits m => beBytes 4 (Nat.land (beNat bs) m)
      | _, _ => bs

/-- The first key at which a view of two copies differs. -/
def firstDiff (f : ConfigCopy → Nat → List Byte) (a b : ConfigCopy) : Option Nat :=
  ((a.values ++ b.values).filter fun e => f a e.1 != f b e.1).foldl (fun m e => match m with
    | none => some e.1
    | some k => some (min k e.1)) none

/-- The used bits of a copy's value, and all that it holds for a key. -/
def copyUsed (c : ConfigCopy) (key : Nat) : List Byte :=
  match mget? c.values key with | some bs => usedBytes (copyPorts c) key bs | none => []

def copyWhole (c : ConfigCopy) (key : Nat) : List Byte :=
  (match mget? c.values key with | some bs => bs | none => []) ++
    (match mget? c.tails key with | some t => t | none => [])

/-- The values of a copy as set 0 holds them. -/
def copyShadow (c : ConfigCopy) : SMap ShadowVal :=
  c.values.map fun e => (e.1, if (tableShape (e.1 / 256)).1 = 0 then .scalar e.2
    else .table e.2.length (layCells 0 e.2 []))

/-- The entries of a copy through passes 1 to 3: the values that load, and the report. -/
def copyCheck (s : State) (c : ConfigCopy) : SMap (List Byte) × List ReportEntry × List ReportEntry :=
  let sh := copyShadow c
  let rcKey (k : Nat) : Bool := match objDef (k / 256) (k % 256) with | some o => o.acc == .rc | none => false
  let gone : List ReportEntry := (sh.filter fun e => !rcKey e.1).map fun e =>
    { index := e.1 / 256, sub := e.1 % 256, reason := 7, set := 0, element := 0, written := 0, applied := 0 }
  let sh := sh.filter fun e => rcKey e.1
  let bad := failures 0 sh
  let sh := sh.filter fun e => passOne e.1 e.2 = 0
  let s := { s with od := { s.od with live := [] } }
  let x := passThree s 0 [] sh (passTwo s 0 sh)
  (x.1, gone ++ bad, x.2)

/-- What the boot choice finds (Table 02-12): the faults and log entries, the other copy rewritten. -/
def bootChoice (s : State) : State :=
  let a := s.od.copyA
  let b := s.od.copyB
  let bits := b2n (copyValid a) * 2 + b2n (copyValid b) * 4
  let put (c : ConfigCopy) (n : Nat) (s : State) : State :=
    { s with od := { s.od with copyA := c, copyB := c, bootCopy := n, persistGen := c.gen } }
  match copyValid a, copyValid b with
  | true, true =>
    if a.gen < b.gen then put b (bits + 1) s
    else if b.gen < a.gen then put a bits s
    else match firstDiff copyUsed a b with
      | some k => raiseFault 8 0 k { s with od := { s.od with bootCopy := bits, persistGen := a.gen } }
      | none =>
        let s := { s with od := { s.od with persistGen := a.gen } }
        match firstDiff copyWhole a b with
        | none => { s with od := { s.od with bootCopy := bits } }
        | some k => logEvent 3 0 1 2 (beBytes 3 k) { s with od := { s.od with bootCopy := bits + 8 } }
  | true, false => put a bits s
  | false, true => put b (bits + 1) s
  | false, false =>
    let d := newCopy 1 (rcValues { s with od := { s.od with live := [] } })
    raiseFault 9 0 0 (put d (bits + 16) s)

/-- The boot load (R70).  RW objects take their defaults (R71). -/
def bootLoad (s : State) : State :=
  let values : ConfigCopy := match chosenCopy s with | some (c, _) => c | none => {}
  let s := bootChoice s
  let (vals, bad, notes) := copyCheck s values
  let clean : Bool := bad.isEmpty && notes.isEmpty
  let s := setLives vals { s with od := { s.od with live := [] } }
  let report := addReport (bad ++ notes) {}
  let s := setSet 0 (fun x => { x with report := report }) s
  let s := { s with od := { s.od with
    lastChecked := some 0
    refStale := true, drift := false, scanComplete := false, lastDiffered := false
    persisted := clean, persistDue := !clean
    gen := 0, applies := s.od.applies + 1, changedAt := [] } }
  foldSt (fun (e : ReportEntry) s =>
    logEvent 3 0 2 2 (beBytes 2 e.index ++ beBytes 1 e.sub ++ beBytes 1 e.reason) s) bad s

/-- The boot ROM's own view of the configuration, while it serves Yusto (R513, R516): the copy chosen,
without report or log (DESIGN CHOICE, assumption 30). -/
def romLoad (s : State) : State :=
  match chosenCopy s with
  | some (c, _) => setLives (copyCheck s c).1 { s with od := { s.od with live := [] } }
  | none => { s with od := { s.od with live := [] } }

/-! ### A reset is taken (R504 to R506) -/

/-- The state of the units in PD_CX and below, and of the management processor, is lost. -/
def unitsReset (s : State) : State :=
  { s with
    qm := {}, mu := {}, ra := {}, ce := {}, tu := { nextRead := s.tu.nextRead }, rt := {}, fs := {}, ll := {}
    px := {}, me := {}, lk := [], cm := { mirrorFrom := s.ms.nextSeq }
    hl := {
      links := smapv {} (fun _ l => { perstN := l.perstN : HostLink }) s.hl.links
      fns := smapv {} (fun _ f => { counters := f.counters : HostFn }) s.hl.fns }
    pr := { s.pr with
      vin := 0, pin := 0, inputEvents := 0, departure := .joined, outcome := 0, held := [], lateStart := []
      startAt := none, rampAt := []
      dmaOff := s.pr.shed }
    ms := {
      log := s.ms.log, nextSeq := s.ms.nextSeq, areas := sset {} s.ms.areas 128 {}, bootOnce := s.ms.bootOnce
      warned := [], critical := [] }
    cnt := mdel s.cnt (okey 0x2013 0)
    work := [] }

/-- Sessions end, an update in progress is lost, a persist is abandoned. -/
def processorReset (s : State) : State :=
  let s := closeSessions (fun _ => true) (dropPersist s)
  let s := updateDrop s
  setUpdate (fun u => { u with state := .idle, cells := [] }) s

/-- Counts that a cold reset leaves: those in MRAM, and the entries to safe state. -/
def keptCount (k : Nat) : Bool := k / 256 == 0x3402 || k / 256 == 0x3843

/-- A warm reset is asserted: power is kept, resets of the domains are asserted. -/
def assertWarm (s : State) : State :=
  let s := processorReset s
  let s := foldSt (fun d s => if domOn s d then bumpBy 0x3450 d (wrapperTransfers s d) s else s) startOrder s
  let kept := startOrder.filter fun d => domState s d == .on || domState s d == .ramping
  let s := unitsReset s
  let s := { s with
    pr := { s.pr with
      kept := kept
      domains := startOrder.foldl (fun m d => sset .off m d (if kept.contains d then .ramping else .off))
        s.pr.domains }
    tb := { s.tb with armed := s.tb.armed.filter fun a => match a.owner with | .commitSet _ => true | _ => false }
    od := { s.od with drift := false, lastDiffered := false, scanComplete := false }
    fc := { s.fc with
      safe := false, withdrawn := false, holdRunning := false, keepalive := false
      active := s.fc.active.filter fun e => e.1 / 65536 == 1 || e.1 / 65536 == 10 } }
  evalFaultN <| forgetPeers { s with rs := {
    phase := .resetWarm, assertedAt := ticks s, cause := s.rs.cause, instant := s.rs.instant, failedStarts := s.rs.failedStarts
    milestone := s.rs.milestone, updateBoot := s.rs.updateBoot } }

/-- A cold reset is asserted: everything starts afresh but MRAM. -/
def assertCold (s : State) : State :=
  let s := unitsReset (processorReset s)
  { s with
    tb := {}
    od := { copyA := s.od.copyA, copyB := s.od.copyB, nextSession := s.od.nextSession, applies := s.od.applies }
    sb := {}
    fc := {}
    ms := { s.ms with bootOnce := none }
    cnt := s.cnt.filter fun e => keptCount e.1
    pr := { s.pr with kept := [], domains := sset .off [] 0 .ramping }
    rs := {
      phase := .resetCold, cause := s.rs.cause, failedStarts := s.rs.failedStarts
      updateBoot := s.rs.updateBoot } }

/-- The cause and the instant that 0x3400 and 0x3401 show. -/
def recordCause (code detail instant : Nat) (s : State) : State :=
  { s with rs := { s.rs with cause := detail * 256 + code, instant := instant } }

/-- A reset source becomes active (R504 to R506).  Without power only POWER_ON acts; PD_AO reaches power good
from off only before the first reset, and after a brown-out that lost it (R488). -/
def takeReset (code detail : Nat) (cold : Bool) (s : State) : State :=
  let lower : Bool := code < s.rs.cause % 256
  match s.rs.phase, cold with
  | .off, _ => if code = 1 then recordCause 1 0 0 (assertCold (bump 0x3402 1 s)) else s
  | .resetCold, false => if code = 1 then s else bump 0x3402 code s
  | .resetCold, true =>
    if code = 1 && s.rs.cause % 256 != 2 then s else
    let s := bump 0x3402 code s
    if lower then recordCause code detail 0 s else s
  | .resetWarm, false =>
    let s := bump 0x3402 code s
    if lower then recordCause code detail s.rs.instant s else s
  | _, false => recordCause code detail (now s) (assertWarm (bump 0x3402 code s))
  | _, true => if code = 1 then s else recordCause code detail 0 (assertCold (bump 0x3402 code s))

/-! ### The boot ROM (R512 to R517) -/

/-- Doldrums (R515): only PD_AO, the fault source raised, the recovery service running.  The milestone
shown stays that of the last start (DEDUCED, assumption 31). -/
def enterDoldrums (s : State) : State :=
  let s := leaveOn 1 false { s with pr := { s.pr with kept := [] } }
  let s := romLoad { s with rs := { s.rs with phase := .doldrums, source := 4, timerRunning := false } }
  let s := { s with fc := { s.fc with keepalive := true, keepaliveAt := ticks s } }
  later .lasersOff (raiseFault 6 0 s.rs.failedStarts s)

/-- The limit of R514, from the persisted configuration. -/
def startsSpent (s : State) : Bool := persisted s 0x3421 ≤ s.rs.failedStarts

/-- The jump to a verified image: the start is counted and timed. -/
def launchImage (source : Nat) (s : State) : State :=
  if startsSpent s then enterDoldrums s
  else { s with rs := { s.rs with
    phase := .verified, source := source, failedStarts := s.rs.failedStarts + 1, milestone := 2
    timerRunning := true, jumpAt := ticks s
    startLimit := ticks s + ticksOf (persisted s 0x3420) 1000 } }

/-- Does a slot verify (R513)? -/
def slotGood (s : State) (t : Nat) : Bool := (area s t).valid && verifyImage s false (area s t).bytes == 0

/-- A boot fallback, or no image at all: shown and logged. -/
def fallback (bits source : Nat) (s : State) : State :=
  let b := Nat.lor s.rs.fallbacks bits
  logEvent 2 0 1 3 (beBytes 4 b ++ beBytes 1 source) { s with rs := { s.rs with fallbacks := b } }

/-- Slot `a`, then slot `b`; `bits` is what a failure of the first shows. -/
def trySlots (a b bits : Nat) (s : State) : State :=
  if slotGood s a then launchImage a s
  else if slotGood s b then launchImage b (fallback bits b s)
  else enterDoldrums (fallback (Nat.lor bits 4) 4 s)

/-- Selection by BOOT_SEL (Table 19-7). -/
def bySelection (s : State) : State :=
  let sel := s.sb.bootSel
  if sel = 0 then trySlots 0 1 1 s
  else if sel = 1 then trySlots 1 0 1 s
  else
    let s := romLoad s
    { s with rs := { s.rs with
      phase := .waiting, source := sel, waitUntil := ticks s + persisted s 0x3414 * 2 ^ 32 } }

/-- The boot ROM runs: the count is checked, a slot named once comes first. -/
def bootRom (s : State) : State :=
  let once : Option Nat := match s.rs.updateBoot with
    | some t => some t
    | none => s.ms.bootOnce
  let s := { s with
    rs := { s.rs with updateBoot := none, fallbacks := 0 }
    ms := { s.ms with bootOnce := none } }
  if startsSpent s then enterDoldrums s
  else
    let s := { s with rs := { s.rs with milestone := 1 } }
    match once with
    | some t =>
      if slotGood s t then launchImage t { s with rs := { s.rs with fallbacks := 8 } } else bySelection s
    | none => bySelection s

/-- The reset that ends safe state (R554): mastering returns unless the input is shed. -/
def endSafe (s : State) : State :=
  evalFaultN { s with
    fc := { s.fc with safe := false }
    pr := { s.pr with dmaOff := s.pr.shed } }

/-- A reset is released; a cold one samples the straps, a warm one is 60 µs old (R507, R508). -/
def resetRelease (bootSel clkMode slotId : Nat) (s : State) : State :=
  match s.rs.phase with
  | .resetCold =>
    bootRom (setDomain 0 .on { s with sb := { s.sb with bootSel := bootSel, clkMode := clkMode, slotId := slotId } })
  | .resetWarm => if s.rs.assertedAt + ticksOf 60 1000000 ≤ ticks s then bootRom (endSafe s) else s
  | _ => s

/-- A bundle has been verified while the boot ROM waits for one. -/
def bundleBoot (s : State) : State :=
  if s.rs.phase == .waiting && (area s 128).valid then launchImage s.rs.source s else s

/-- No bundle has arrived in time: slot A, then slot B. -/
def bundleExpiry (s : State) : State :=
  if s.rs.phase == .waiting && s.rs.waitUntil ≤ ticks s then
    let s := updateDrop s
    let s := setUpdate (fun u => { u with state := .idle, cells := [] }) s
    if slotGood s 0 then launchImage 0 (fallback 2 0 s)
    else if slotGood s 1 then launchImage 1 (fallback 2 1 s)
    else enterDoldrums (fallback 6 4 s)
  else s

/-! ### The management firmware starts (R512, R536, R537, R505) -/

/-- The area that the running image came from. -/
def sourceImage (source : Nat) : Nat := if source < 2 then source else 128

/-- The area of the engine firmware of a start (R536), logged where 0x2312:00 names a slot not valid. -/
def engineSource (s : State) : Nat × State :=
  let src := sourceImage s.rs.source
  let v := rc s 0x2312 0
  if src = 128 || v = 0 then (src, s)
  else if (area s (v - 1)).valid then (v - 1, s)
  else (src, logEvent 2 0 4 3 (beBytes 1 v) s)

/-- ARMED sets are reloaded into their units; instants that have passed meanwhile are late (R505). -/
def reloadArmed (s : State) : State :=
  let t := now s
  let s := { s with tb := { s.tb with armed := s.tb.armed.map fun a =>
    if a.instant < t then { a with late := true } else a } }
  forRange 1 15 (fun n s => if (commitSet s n).state == .armed then armTables n s else s) s

def managementStart (s : State) : State :=
  if s.rs.phase != .verified then s
  else
    let old := s
    let s := bootLoad { s with rs := { s.rs with phase := .running, milestone := 3 } }
    let keys := (old.od.live ++ s.od.live).foldl (fun (m : SMap Nat) e => mput m e.1 0) []
    let s := applyUnits old [okey 0x6002 0] (changedKeys old s (keys.map (·.1))) s
    let m := bundleOf (area s (sourceImage s.rs.source)).bytes
    let (es, s) := engineSource s
    let e := bundleOf (area s es).bytes
    let d := startDecision s m e
    let s := { s with
      ms := { s.ms with
        mgmtFw := m, mgmtSource := s.rs.source, startDecision := d, engineFw := if 2 ≤ d then {} else e
        nextSample := firstMultiple (rc s 0x2010 0) (now s) }
      me := { s.me with fwSlot := es, fwImage := if 2 ≤ d then [] else engineImage (area s es).bytes }
      rs := { s.rs with milestone := 5, restricted := 2 ≤ d }
      fc := { s.fc with keepalive := true, keepaliveAt := ticks s }
      pr := { s.pr with lateStart := [] } }
    let s := if d = 0 then s else logEvent 5 0 d 3 (beBytes 4 m.mgmtVersion ++ beBytes 4 e.engineVersion) s
    let s := logEvent 1 0 s.rs.cause 2 (beBytes 8 s.rs.instant) s
    let s := reloadArmed s
    let s := foldSt (fun x s => if mayStart s x then s else leaveOn x false s) s.pr.kept s
    let s := openMailboxes s
    milestoneSix { s with pr := { s.pr with kept := s.pr.kept.filter fun x => domState s x == .ramping } }

/-- The start is operational: milestone 8 (R514). -/
def operational (s : State) : State :=
  if s.rs.phase == .running && s.rs.milestone = 6 then
    let ms := (ticks s - s.rs.jumpAt) * 1000 / 2 ^ 32
    logEvent 2 0 2 2 (beBytes 4 ms ++ beBytes 1 s.rs.source) { s with rs := { s.rs with
      milestone := 8, failedStarts := 0, timerRunning := false, duration := ms } }
  else s

/-- The start timer expires first (R512). -/
def startTimeout (s : State) : State :=
  if s.rs.timerRunning && s.rs.startLimit ≤ ticks s then
    takeReset 4 2 false s
  else s

/-- The explicit way out of Doldrums (R517). -/
def doldrumsExit (s : State) : State :=
  if s.rs.phase == .doldrums then
    let s := { s with rs := { s.rs with failedStarts := 0 } }
    later (.reset 5 1 false) (logEvent 2 0 3 2 (beBytes 1 2) s)
  else s

end Sys2Proof.Machine
end

