-- ==== Sys2Proof/Machine/Yusto.lean ====
section
/-!
DEFINITION. Yusto: sessions, the order of requests, the operations and their checks, pushes, and the
mailbox (R47 to R58, R464, R465, R516, R585, R586).
-/
namespace Sys2Proof.Machine

/-! ### Bytes of a message (Table 02-5) -/

/-- A message: header and body. -/
def yBytes (op status flags session seq : Nat) (body : List Byte) : List Byte :=
  beBytes 1 1 ++ beBytes 1 op ++ beBytes 1 status ++ beBytes 1 flags ++ beBytes 4 session ++ beBytes 4 seq
    ++ beBytes 2 body.length ++ beBytes 2 0 ++ body

/-- The operation code of a body (Table 02-6). -/
def yOp : YBody → Nat
  | .read _ _ _ => 1
  | .write _ _ _ _ => 2
  | .shape _ => 3
  | .segRead _ _ _ _ => 4
  | .segWrite _ _ _ _ _ _ => 5
  | .commit _ _ | .cancel _ | .discard _ => 6
  | .report _ _ => 7
  | .subscribe _ _ _ => 8
  | .malformed op => op.toNat

/-- The body of a request, by its operation. -/
def parseBody (op : Nat) (shadow : Bool) (b : List Byte) : YBody :=
  let w (off n k : Nat) : BitVec k := BitVec.ofNat k (beAt b off n)
  let n := b.length
  if op = 1 && n = 3 then .read (w 0 2 16) (w 2 1 8) shadow
  else if shadow then .malformed (BitVec.ofNat 8 op)
  else if op = 2 && 4 ≤ n then .write (w 0 2 16) (w 2 1 8) (w 3 1 8) (b.drop 4)
  else if op = 3 && n = 2 then .shape (w 0 2 16)
  else if op = 4 && n = 9 then .segRead (w 0 2 16) (w 2 1 8) (w 3 4 32) (w 7 2 16)
  else if op = 5 && 12 ≤ n then .segWrite (w 0 2 16) (w 2 1 8) (w 3 1 8) (w 4 4 32) (w 8 4 32) (b.drop 12)
  else if op = 6 && n = 10 then
    (match beAt b 1 1 with
     | 0 => .commit (w 0 1 8) (w 2 8 64)
     | 1 => .cancel (w 0 1 8)
     | 2 => .discard (w 0 1 8)
     | _ => .malformed 6)
  else if op = 7 && n = 3 then .report (w 0 1 8) (w 1 2 16)
  else if op = 8 && n = 8 then .subscribe (w 0 4 32) (w 4 2 16) (w 6 2 16)
  else .malformed (BitVec.ofNat 8 op)

/-- A whole request: SESSION, SEQ and body.  The header must be well-formed. -/
def parseYusto (m : List Byte) : Nat × Nat × YBody :=
  let flags := beAt m 3 1
  let ok : Bool := beAt m 0 1 == 1 && beAt m 2 1 == 0 && (flags == 0 || flags == 4) &&
    beAt m 12 2 + 16 == m.length && beAt m 14 2 == 0
  let op := beAt m 1 1
  (beAt m 4 4, beAt m 8 4, if ok then parseBody op (flags == 4) (m.drop 16) else .malformed (BitVec.ofNat 8 op))

/-! ### Which service answers (R513, R516) -/

/-- Does the running service take messages from a carrier? -/
def serves (s : State) (c : Carrier) : Bool :=
  match s.rs.phase, c with
  | .running, _ => true
  | .doldrums, .mgmt _ => true
  | .waiting, .mgmt _ => s.sb.bootSel == 2
  | .waiting, .mailbox (.pf _) => s.sb.bootSel == 3
  | _, _ => false

/-- Does management firmware run, rather than the boot ROM's recovery service? -/
def fullService (s : State) : Bool := s.rs.phase == .running

/-- Is an index offered by the service that runs? -/
def offered (s : State) (idx : Nat) : Bool :=
  fullService s || (0x1000 ≤ idx && idx ≤ 0x10FF) || (0x2020 ≤ idx && idx ≤ 0x2022) ||
    (0x2300 ≤ idx && idx ≤ 0x2312) || idx == 0x2330 || (0x3400 ≤ idx && idx ≤ 0x37FF)

/-! ### Sessions -/

def session (s : State) (k : Nat) : Option Session := mget? s.od.sessions k

def setSession (k : Nat) (f : Session → Session) (s : State) : State :=
  { s with od := { s.od with sessions := mmod s.od.sessions k f } }

/-- The owner word of a session (0x1F03). -/
def ownerWord (x : Session) (k : Nat) : Nat := carrierPath x.carrier * 2 ^ 30 + k % 2 ^ 30

/-- How many sessions of a kind are open. -/
def sessionsOpen (s : State) (p : Carrier → Bool) : Nat := (s.od.sessions.filter fun e => p e.2.carrier).length

def isMgmtCarrier : Carrier → Bool
  | .mgmt _ => true
  | _ => false

/-- A MGMT packet of this module. -/
def mgmtPacket (s : State) (dest : Nat) (bytes : List Byte) : Packet where
  type := tMGMT
  vc := 18
  dest := dest
  source := ownIdentity s 0
  stamp := stampNow s
  payload := bytes

/-- A message goes to a carrier: `push` advances PUSH_COUNT, a response RSP_COUNT (R464, R465). -/
def sendYusto (c : Carrier) (number : Nat) (push : Bool) (op status seq : Nat) (body : List Byte) (s : State) :
    State :=
  match c with
  | .mgmt _ =>
    if push then emit (.push c number seq body) s
    else emit (.yusto c number { seq := seq, op := op, status := status, body := body }) s
  | .fabric source _ =>
    injectPacket (mgmtPacket s (idNode source.toNat * 4096) (yBytes op status (if push then 2 else 1) number seq body)) s
  | .mailbox _ =>
    let fn := carrierFn c
    let bytes := yBytes op status (if push then 2 else 1) number seq body
    let f := hostFn s fn
    if push then
      let s := setFn fn (fun f => { f with mb := { f.mb with
        push := bytes, pushCount := (f.mb.pushCount + 1) % 256 } }) s
      when_ (bit f.funcInt 17) (raiseVector fn (f.funcInt % 2048)) s
    else
      let s := setFn fn (fun f => { f with mb := { f.mb with
        rsp := bytes, rspCount := (f.mb.rspCount + 1) % 256, pending := false } }) s
      when_ (bit f.funcInt 16) (raiseVector fn (f.funcInt % 2048)) s

/-! ### Pushes (R58) -/

/-- A push to one session: at most 1 000 in a second, the others coalesced.  The seconds are the whole ones of
the tick count (DESIGN CHOICE, assumption 162). -/
def pushTo (k cls index : Nat) (body : List Byte) (s : State) : State :=
  match session s k with
  | none => s
  | some x =>
    let sec := ticks s / 2 ^ 32
    let sent := if x.pushSecond = sec then x.pushNow else 0
    if 1000 ≤ sent then setSession k (fun x => { x with coalesced := x.coalesced + 1 }) s
    else
      let seq := (x.pushSeq + 1) % 2 ^ 32
      let s := setSession k (fun x => { x with
        pushSeq := seq, pushNow := sent + 1, pushSecond := sec, coalesced := 0 }) s
      sendYusto x.carrier x.number true 8 0 seq (beBytes 4 x.coalesced ++ Config.pushBody cls index body) s

/-- A push to every session that subscribes to it. -/
def pushAll (cls index : Nat) (body : List Byte) (s : State) : State :=
  foldSt (fun (e : Nat × Session) s =>
    let wants : Bool := e.2.subs.any fun u => bit u.mask cls && (cls != 0 || (u.lo ≤ index && index ≤ u.hi))
    when_ wants (pushTo e.1 cls index body) s) s.od.sessions s

/-! ### The operations (R53, R585) -/

/-- A status and the body of the response. -/
abbrev Answer := Nat × List Byte

def refuse (st : Nat) (s : State) : Answer × State := ((st, []), s)

/-- The checks of R585 that come before the operation's own rules. -/
def checkAccess (x : Session) (idx sub : Nat) (wantTable : Option Bool) (write : Bool) (s : State)
    (go : ObjDef → State → Answer × State) : Answer × State :=
  let path := carrierPath x.carrier
  match (if offered s idx then lookup s idx sub else none) with
  | none => refuse yNOOBJECT s
  | some o =>
    let wrong : Bool := match wantTable with | some t => t != (o.ty == .table) | none => false
    if wrong then refuse yMALFORMED s
    else if write && (o.acc == .const || o.acc == .ro) then refuse yREADONLY s
    else
      let ok := if write then mayWrite path idx sub else mayRead path (carrierFn x.carrier) idx sub
      if ok then go o s
      else refuse yNORIGHT (logEvent 8 0 2 3
        (beBytes 2 idx ++ beBytes 1 sub ++ beBytes 1 path ++ beBytes 4 x.number) s)

def yRead (x : Session) (idx sub : Nat) (shadow : Bool) (s : State) : Answer × State :=
  checkAccess x idx sub (some false) false s (fun o s =>
    let v := if shadow && o.acc == .rc then shadowBytes s idx sub else objBytes s o idx sub
    let s := if idx = 0x4003 then setTb (fun t => { t with stepSinceRead := false }) s else s
    ((yOK, beBytes 1 o.ty.code ++ v), s))

/-- A WRITE to an RW object (R586). -/
def rwWrite (o : ObjDef) (idx sub : Nat) (bs : List Byte) (s : State) : Nat × State :=
  if typeCheck o.ty bs ≠ 0 then (yREJECTED, s)
  else
    let (a, n) := clampRange (shape s) o idx sub bs
    let (b, m) := clampDep s (liveBytes s) (fun _ _ => false) o idx sub a
    if a ≠ bs || b ≠ bs || !n.isEmpty || !m.isEmpty then (yOUTOFRANGE, s)
    else
      let s := setLive (okey idx sub) bs s
      -- TIME_PULSE stays low while 0x4050:00 is 0 (R33)
      (yOK, when_ (idx == 0x4050 && !rcOn s 0x4050 0) (setTb (fun t => { t with timePulse := false })) s)

/-- The writer of an address-space or translation command: the function of a mailbox, if any. -/
def writerFn (c : Carrier) : Option Nat := if isMailboxCarrier c then some (carrierFn c) else none

/-- The action of a WO object. -/
def woAction (x : Session) (k idx sub v : Nat) (s : State) : State :=
  if idx = 0x1F00 then commitCommand (ownerWord x k) v s
  else if idx = 0x2300 then updateCommand k v s
  else if idx = 0x3020 then domainRestart v s
  else if idx = 0x3100 then (if v = 1 then departRequest s else s)
  else if idx = 0x3410 then
    (if v = 1 then later (.reset 5 1 false) s else if v = 2 then later (.reset 5 2 true) s else s)
  else if idx = 0x3430 then (if v = 1 then doldrumsExit s else s)
  else if idx = 0x3810 then clearCommand v s
  else if idx = 0x3812 then takeRaise v 0 0 s
  else if idx = 0x5033 then (if v < 4 then bitSlip sub v s else s)
  else if idx = 0x5050 then eyeScan v s
  else if idx = 0x5830 then (if v = 1 then retrain sub s else s)
  else if idx = 0x7421 then domCommand v s
  else if idx = 0x8010 then asCommand (writerFn x.carrier) v s
  else if idx = 0x8020 then
    transCommand (match writerFn x.carrier with | some fn => 1024 + fn | none => 1023) v s
  else if idx = 0x8420 then activationCommand v s
  else s

/-- Subscribers of mask bit 0 hear of a write. -/
def written (idx sub : Nat) (s : State) : State := later (.push 0 idx (beBytes 2 idx ++ beBytes 1 sub)) s

def yWrite (x : Session) (k idx sub set : Nat) (bs : List Byte) (s : State) : Answer × State :=
  checkAccess x idx sub (some false) true s (fun o s =>
    let (st, s) := match o.acc with
      | .rc => rcWrite (ownerWord x k) set (okey idx sub) bs s
      | .rw => rwWrite o idx sub bs s
      | _ => if typeCheck o.ty bs ≠ 0 then (yREJECTED, s) else (yOK, woAction x k idx sub (beNat bs) s)
    ((st, []), when_ (st == yOK) (written idx sub) s))

/-- SHAPE (R47): an array of tables answers its number of elements (DESIGN CHOICE, assumption 32), and
what is no TABLE the entry size 0 (DESIGN CHOICE, assumption 158). -/
def yShape (x : Session) (idx : Nat) (s : State) : Answer × State :=
  match (if offered s idx then objAny idx else none) with
  | none => refuse yNOOBJECT s
  | some o =>
    if !mayRead (carrierPath x.carrier) (carrierFn x.carrier) idx o.lo &&
        !((rangeFrom 0 256).any fun sub => mayRead (carrierPath x.carrier) (carrierFn x.carrier) idx sub) then
      refuse yNORIGHT (logEvent 8 0 2 3
        (beBytes 2 idx ++ beBytes 1 0 ++ beBytes 1 (carrierPath x.carrier) ++ beBytes 4 x.number) s)
    else
      let table : Bool := o.ty == .table
      let n := if table && o.hi = 0 then (tableView s idx 0).count else shapeOf s idx
      ((yOK, beBytes 1 o.ty.code ++ beBytes 4 n ++ beBytes 2 (if table then (tableView s idx 0).size else 0)), s)

/-- SEG-READ (R56); a length above 1024 B is MALFORMED as a rule of the operation, after the checks of R585
(DESIGN CHOICE, assumption 209): an apply that changed the table since offset 0 was read makes a segment STALE. -/
def ySegRead (x : Session) (k idx sub off len : Nat) (s : State) : Answer × State :=
  checkAccess x idx sub (some true) false s (fun _ s =>
    if 1024 < len then refuse yMALFORMED s
    else
      let t := tableView s idx sub
      let key := okey idx sub
      let s := if off = 0 then setSession k (fun x => { x with passes := mput x.passes key s.od.gen }) s else s
      let stale : Bool := off != 0 && (match mget? x.passes key, mget? s.od.changedAt key with
        | some p, some c => p < c
        | _, _ => false)
      ((if stale then ySTALE else yOK,
        beBytes 8 s.od.gen ++ beBytes 4 (t.count * t.size) ++ tableBytes t off len), s))

/-- SEG-WRITE of the update staging (R532). -/
def stageWrite (k total off : Nat) (bs : List Byte) (s : State) : Nat × State :=
  let u := s.ms.update
  if u.state != .receiving then (ySETINVALID, s)
  else if u.owner ≠ k then (ySETBUSY, s)
  else if total ≠ u.length || total < off + bs.length then (yMALFORMED, s)
  else (yOK, updateSegment off bs s)

def ySegWrite (x : Session) (k idx sub set total off : Nat) (bs : List Byte) (s : State) : Answer × State :=
  checkAccess x idx sub (some true) true s (fun _ s =>
    let (st, s) :=
      if 1024 < bs.length then (yMALFORMED, s)
      else if idx = 0x2302 then stageWrite k total off bs s
      else segStore (ownerWord x k) set (okey idx sub) total off bs s
    ((st, []), when_ (st == yOK) (written idx sub) s))

/-- State and apply MT of a set, as COMMIT and REPORT answer them. -/
def shownBytes (n : Nat) (s : State) : List Byte :=
  let (st, mt) := commitShown s n
  beBytes 1 st ++ beBytes 8 mt

def yCommit (x : Session) (k n action mt : Nat) (s : State) : Answer × State :=
  let (st, s) := commitAct (ownerWord x k) n action mt s
  ((st, shownBytes n s), s)

/-- REPORT (R53, R65): set 0 answers the report of the boot load, a set above 15 is SET_INVALID (DESIGN
CHOICE, assumption 159). -/
def yReport (n first : Nat) (s : State) : Answer × State :=
  if 15 < n then refuse ySETINVALID s
  else
    let r := (commitSet s n).report
    let es := (r.entries.drop first).take 40
    ((yOK, shownBytes n s ++ beBytes 4 r.count ++ es.flatMap fun e => beBytes 24 (reportBits e)), s)

/-- SUBSCRIBE (R58).  A mask of 0 cancels the first subscription of the same index range; a session that
holds 16 is refused REJECTED (DESIGN CHOICE, assumption 33). -/
def ySubscribe (x : Session) (k mask lo hi : Nat) (s : State) : Answer × State :=
  if !fullService s then refuse yUNSUPPORTED s
  else if 16 ≤ mask then refuse yMALFORMED s
  else if mask = 0 then
    match x.subs.find? fun u => u.lo == lo && u.hi == hi with
    | some u =>
      ((yOK, beBytes 1 u.number), setSession k (fun x => { x with
        subs := x.subs.filter fun v => v.number != u.number }) s)
    | none => ((yOK, beBytes 1 0), s)
  else
    match (rangeFrom 1 16).find? fun n => !x.subs.any fun u => u.number == n with
    | some n =>
      let u : Subscription := { number := n, mask := mask, lo := lo, hi := hi }
      ((yOK, beBytes 1 n), setSession k (fun x => { x with subs := x.subs ++ [u] }) s)
    | none => refuse yREJECTED s

/-- A request is executed. -/
def runBody (k : Nat) (x : Session) (b : YBody) (s : State) : Answer × State :=
  match b with
  | .read i u f => yRead x i.toNat u.toNat f s
  | .write i u n v => yWrite x k i.toNat u.toNat n.toNat v s
  | .shape i => yShape x i.toNat s
  | .segRead i u o n => ySegRead x k i.toNat u.toNat o.toNat n.toNat s
  | .segWrite i u n t o d => ySegWrite x k i.toNat u.toNat n.toNat t.toNat o.toNat d s
  | .commit n t => yCommit x k n.toNat 0 t.toNat s
  | .cancel n => yCommit x k n.toNat 1 0 s
  | .discard n => yCommit x k n.toNat 2 0 s
  | .report n f => yReport n.toNat f.toNat s
  | .subscribe m l h => ySubscribe x k m.toNat l.toNat h.toNat s
  | .malformed _ => refuse yMALFORMED s

/-! ### Order and repetition (R54, R55) -/

/-- A response to a session's carrier. -/
def respond (x : Session) (r : YResponse) (s : State) : State :=
  sendYusto x.carrier x.number false r.op r.status r.seq r.body s

/-- The request with SEQ = NEXT: executed, its response kept among the last 32, NEXT advanced. -/
def runNext (k seq : Nat) (b : YBody) (s : State) : State :=
  match session s k with
  | none => s
  | some x =>
    let s := when_ (isMailboxCarrier x.carrier) (bumpFn (carrierFn x.carrier) 9) s
    let (a, s) := runBody k x b s
    let r : YResponse := { seq := seq, op := yOp b, status := a.1, body := a.2 }
    let s := setSession k (fun x => { x with
      next := some ((seq + 1) % 2 ^ 32)
      held := x.held.filter fun h => h.1 != seq
      kept := (x.kept ++ [r]).drop (x.kept.length - 31) }) s
    respond x r s

/-- Held requests whose SEQ now equals NEXT follow, at most `n`. -/
def runHeld (k : Nat) : Nat → State → State
  | 0, s => s
  | n + 1, s =>
    match session s k with
    | none => s
    | some x =>
      match x.held.find? fun h => some h.1 == x.next with
      | some h => runHeld k n (runNext k h.1 h.2.1 s)
      | none => s

/-- A request of a session arrives.  A second copy of one that is held is dropped, and the wait of the first
goes on (DESIGN CHOICE, assumption 164). -/
def inOrder (k seq : Nat) (b : YBody) (s : State) : State :=
  match session s k with
  | none => s
  | some x =>
    match x.kept.find? fun r => r.seq == seq with
    | some r => respond x r s
    | none =>
      let go (s : State) : State := runHeld k 32 (runNext k seq b s)
      let no (st : Nat) (s : State) : State := respond x { seq := seq, op := yOp b, status := st, body := [] } s
      match x.next with
      | none => go s
      | some n =>
        let d := diff32 seq n
        if d = 0 then go s
        else if d ≤ 31 then
          (if x.held.any fun h => h.1 == seq then s
           else setSession k (fun x => { x with
             held := x.held ++ [(seq, b, ticks s + ticksOf (rc s 0x2105 0) 1000)] }) s)
        else if d < 2 ^ 31 then no yMALFORMED s
        else no ySTALESEQ s

/-- The held request nearest NEXT has waited 0x2105:00: the values below it are passed over. -/
def gapExpiry (k : Nat) (s : State) : State :=
  match session s k with
  | none => s
  | some x =>
    match x.next with
    | none => s
    | some n =>
      let near := x.held.foldl (fun (m : Option (Nat × YBody × Nat)) h => match m with
        | none => some h
        | some g => if diff32 h.1 n < diff32 g.1 n then some h else some g) none
      match near with
      | some h =>
        if h.2.2 ≤ ticks s then
          runHeld k 32 (runNext k h.1 h.2.1 (setSession k (fun x => { x with next := some h.1 }) s))
        else s
      | none => s

/-- A request in the session that carries it; another SESSION is MALFORMED (R51). -/
def inSession (k number seq : Nat) (b : YBody) (s : State) : State :=
  match session s k with
  | none => s
  | some x =>
    let s := setSession k (fun x => { x with idleAt := ticks s + rc s 0x2102 0 * 2 ^ 32 }) s
    if number ≠ x.number then sendYusto x.carrier number false (yOp b) yMALFORMED seq [] s
    else inOrder k seq b s

/-! ### Arrivals by carrier (R49, R51) -/

/-- The session of a fabric source and SESSION, opened by its first request while fewer than 64 are open. -/
def fabricSession (c : Carrier) (number : Nat) (s : State) : Option Nat × State :=
  match s.od.sessions.find? fun e => e.2.carrier == c && e.2.number == number with
  | some e => (some e.1, s)
  | none =>
    if 64 ≤ sessionsOpen s isFabricCarrier then (none, s)
    else
      let (k, s) := takeSession c (some number) s
      (some k, s)

/-- A request arrives, as its carrier has parsed it: one that cannot be parsed comes as `malformed` and is
answered so (R52).  While 0x2103:00 is 0 the fabric path discards what comes without counting its tenant
(DESIGN CHOICE, assumption 211). -/
def yustoArrive (h : YHdr) (b : YBody) (s : State) : State :=
  if !serves s h.carrier then s
  else match h.carrier with
    | .mgmt n =>
      (match session s n.toNat with
       | some x => if isMgmtCarrier x.carrier then inSession n.toNat h.session.toNat h.seq.toNat b s
                   else bump 0x2110 0 s
       | none => bump 0x2110 0 s)
    | .mailbox _ =>
      let fn := carrierFn h.carrier
      if !rcOn s 0x2104 0 || !barsLive s fn then s
      else
        let s := openMailbox fn s
        inSession (hostFn s fn).mb.session h.session.toNat h.seq.toNat b s
    | .fabric source tenant =>
      -- the packet that carries it is taken from those delivered
      let mine (p : Packet) : Bool := p.type == tMGMT && p.source == source.toNat && p.tenant == tenant.toNat &&
        parseYusto p.payload == (h.session.toNat, h.seq.toNat, b)
      let s := { s with rt := { s.rt with delivered := eraseFirst mine s.rt.delivered } }
      if !rcOn s 0x2103 0 then s
      else if tenant.toNat ≠ 0 then bump 0x2111 0 s
      else match fabricSession h.carrier h.session.toNat s with
        | (some k, s) => inSession k h.session.toNat h.seq.toNat b s
        | (none, s) => s

/-- A MGMT packet has reached this module: a message that is no well-formed request is answered MALFORMED at
once (R52), any other waits for its operation.  A response or a push is no request, and is discarded
(DEDUCED, assumption 168), counted where it is of another tenant (R49). -/
def mgmtArrive (p : Packet) (s : State) : State :=
  let drop (s : State) : State := { s with rt := { s.rt with delivered := eraseFirst (fun q => q == p) s.rt.delivered } }
  match parseYusto p.payload with
  | (number, seq, .malformed op) =>
    if fld (beAt p.payload 3 1) 1 0 ≠ 0 then
      when_ (serves s (.mgmt 0) && rcOn s 0x2103 0 && p.tenant != 0) (bump 0x2111 0) (drop s)
    else yustoArrive { carrier := .fabric (BitVec.ofNat 32 p.source) (BitVec.ofNat 16 p.tenant)
                       session := BitVec.ofNat 32 number, seq := BitVec.ofNat 32 seq } (.malformed op) s
  | _ => s

/-- A write of MB_SUBMIT (R464). -/
def mailboxSubmit (fn len : Nat) (s : State) : State :=
  if !barsLive s fn then s
  else
    let s := openMailbox fn s
    let m := (hostFn s fn).mb
    if m.pending || len < 16 || 1116 < len || !rcOn s 0x2104 0 || !serves s (mailboxOf fn) then
      setFn fn (fun f => { f with mb := { f.mb with discarded := (f.mb.discarded + 1) % 256 } }) s
    else
      let (number, seq, b) := parseYusto (memRead m.req 0 len)
      inSession m.session number seq b (setFn fn (fun f => { f with mb := { f.mb with pending := true } }) s)

/-! ### Sessions of the management port (R51) -/

/-- A DTLS handshake at a UDP port: refused for its certificate, or when the sessions are all open.  One at
another port than 0x2100:00 does not reach the module's Yusto (DEDUCED, assumption 167). -/
def sessionOpen (accepted : Bool) (port address : Nat) (s : State) : State :=
  if !serves s (.mgmt 0) || port != rc s 0x2100 0 then s
  else if !accepted then logEvent 8 0 0x100 3 (beBytes 16 address) s
  else if rc s 0x2101 0 ≤ sessionsOpen s isMgmtCarrier then s
  else
    let k := s.od.nextSession
    let (k, s) := takeSession (.mgmt (BitVec.ofNat 30 k)) none s
    setSession k (fun x => { x with port := port, idleAt := ticks s + rc s 0x2102 0 * 2 ^ 32 }) s

/-- A session has been idle for 0x2102:00 seconds. -/
def sessionIdle (k : Nat) (s : State) : State :=
  match session s k with
  | some x => if isMgmtCarrier x.carrier && x.idleAt ≤ ticks s then closeSession k s else s
  | none => s

end Sys2Proof.Machine
end

