-- ==== Sys2Proof/Machine/Settle.lean ====
section
/-!
DEFINITION. Settling: what one unit has left for another is done, oldest first, before a command ends.
-/
namespace Sys2Proof.Machine

/-- The result of an access goes to the unit that made it. -/
def deliverResult (c : Cont) (r : AccResult) (s : State) : State :=
  match c with
  | .none => s
  | .ring qn n era => ringRead qn n era r s
  | .frag qn k era => fragRead qn k era r s
  | .entryWrite qn last era => entryWritten qn last era r s
  | .query aqn n => queryWritten aqn n r s
  | .msgRead f rsn => msgReadDone f rsn r s
  | .msgSink f rsn => sinkDone f rsn r s
  | .place p pos => placeDone p pos r s
  | .getRead p off buf poison => getRead p off buf poison r s
  | .atomic p => atomicDone p r s
  | .zeroRead f rsn => flushRead f rsn r s
  | .sendPlace f rsn => sendPlaced f rsn r s
  | .recvPlace pid => placingDone pid false r s
  | .recvInfo pid => placingDone pid true r s
  | .rgetRead p off buf poison => rgetRead p off buf poison r s
  | .memberTable qn entry => memberTable qn entry r s
  | .contribRead g n => contribDone g n r s
  | .resultWrite g n => resultWritten g n r s
  | .engine e c => engineResult e c r s
  | .fence e c no link addr => fenceRead e c no link addr r s
  | .move e c tag pos => moveHostDone e c tag pos r s
  | .moveAck e c tag => moveAcked e c tag r s
  | .laneRead l => laneRead l r s
  | .lanePlace p pos far => lanePlaced p pos far r s

/-- An armed one-shot event is due, or late (R36, R40).  A commit set waits for the firmware that applies
it (R505). -/
def shotFires (o : ShotOwner) (s : State) : State :=
  match o with
  | .commitSet n =>
    if shotDue s o && serves s (.mgmt 0) then applyFires n s else s
  | .activation t => activationInstant t s
  | .launch g n => collLaunch g n s

/-- MT was set on leaving FREE: each periodic schedule goes on from its first instant at or after it (R40). -/
def schedulesFollow (s : State) : State :=
  telemetryFrom (sampleFrom (gatesRestart s))

/-- A packet that this module originated is lost. -/
def originLost (p : Packet) (s : State) : State := sweepTransient (laneDataLost p (collLost p (packetLost p s)))

/-- A packet of this module has left it. -/
def originLeft (p : Packet) (s : State) : State := sweepTransient (laneLeft p (packetLeft p s))

/-- Reachability may have changed (R277). -/
def reachChanged (s : State) : State :=
  let gone := unreachablePeers s
  kickReleases (collUnreachable gone (peersUnreachable gone s))

/-- MT steps from `a` to `b` across the mtcmp of contexts: MTCMP is set at once, late (R40, Table 13-12). -/
def mtcmpStep (a b : Nat) (s : State) : State :=
  forRange 0 384 (fun i s =>
    let e := i / 4
    let c := i % 4
    let x := ectx s e c
    let m := x.mtcmp.toNat
    if engineRuns s e && !x.mtcmpDone && a < m && m < b then
      setEvent e c 2 (setCtx e c (fun x => { x with mtcmpDone := true }) (bump 0x4006 0 s))
    else s) s

/-- One piece of work. -/
def handle (w : Work) (s : State) : State :=
  match w with
  | .event eqn code subject detail data kick => eventArrive eqn code subject detail data kick s
  | .fault src inst data => faultRaise src inst data s
  | .access a => startAcc a s
  | .result c r => orderGo (deliverResult c r s)
  | .readEnds key => partEnds key s
  | .complete qn entry c => markDone qn entry c s
  | .reach => reachChanged s
  | .domainLeaves d _ => domainLeft d s
  | .stackLost k => loseStack k s
  | .poisoned g => granulePoisoned g s
  | .flushPort p => flushRetrain p s
  | .linkDown p => linkDown p s
  | .lanesFlushed p => lanesFlushed p s
  | .engineRemote e c store ea dest key addr data size =>
    engineRemote e c (ectx s e c).tenant.toNat store ea dest key addr data size s
  | .engineRemoteDone e c store addr r => remoteDone e c store r addr s
  | .engineLeft e c id => storeLeft e c id s
  | .fenceFlushed e c no addr dest tenant ok => fenceFlushed e c no addr dest tenant ok s
  | .moveSent e c tag flush st => moveSent e c tag flush st s
  | .dispatch => dispatchItems s.me.items.length s
  | .serviceEnds qn entry comp => serviceEnds qn entry comp s
  | .fetched pid off data poison => placingData pid { off := off, data := data, poison := poison } s
  | .fetchFailed pid => fetchFailed pid s
  | .sendAck f rsn n code => ackMsg f rsn n code s
  | .flowGo f => flowGo f s
  | .orderGo => orderGo s
  | .walkNext c => walkNext c s
  | .zeroRead link c => zeroRead link c s
  | .looped p => codeword p [0, 0, 0, 0] 0 s
  | .loopedMarker p l m => markerArrive p l m true 0 0 s
  | .orphan ps => orphanParties ps s
  | .laneOut port p => laneOut port p s
  | .lost p => originLost p s
  | .left p => originLeft p s
  | .noRoute p => collUnroutable p (packetUnroutable p s)
  | .kickQueue _ => s
  | .reset code detail cold => takeReset code detail cold s
  | .withdraw => withdraw s
  | .push cls index body => pushAll cls index body s
  | .sessionEnds k => closeSession k s
  | .stepped a b => mtcmpStep a b (telemetryStep a b (sampleStep a b (gatesStep a b s)))
  | .peerGone p => peerGone p s
  | .peers => peersChanged s
  | .mgmt p => mgmtArrive p s
  | .mtSet => schedulesFollow s
  | .shot o => shotFires o s
  | .departStart => departStart s
  | .lasersOff => refreshAllLasers s

/-- Do the work that is left, at most `n` pieces. -/
def drain : Nat → State → State
  | 0, s => s
  | n + 1, s =>
    match s.work with
    | [] => s
    | w :: r => drain n (handle w { s with work := r })

/-- Settle. -/
def settle (s : State) : State := drain 65536 s

/-- A command ends: settle. -/
def fin (s : State) : Out3 := .next (settle s)

/-- The same for an outcome. -/
def finO : Out3 → Out3
  | .next s => .next (settle s)
  | .fault f => .fault f
  | .refused r => .refused r

end Sys2Proof.Machine
end

