-- ==== Sys2Proof/Machine/CommandBase.lean ====
section
/-!
DEFINITION. The frames of the commands: a command of a unit whose domain has no power does nothing; a
command that carries a packet carries a packet of the right type, and takes it from where RT left it.
-/
namespace Sys2Proof.Machine

/-- A command of a unit in a power domain: without power nothing happens. -/
def inDomain (d : Nat) (f : State → State) (s : State) : Out3 := if domOn s d then fin (f s) else .next s

/-- The same for PD_AO and for PD_CX. -/
def inAO (f : State → State) (s : State) : Out3 := inDomain 0 f s
def inCX (f : State → State) (s : State) : Out3 := inDomain dCX f s

/-- Is a packet of one of these types, with every field inside its width (R236)? -/
def isPacket (types : List Nat) (p : Packet) : Bool := types.contains p.type && packetWf p

/-- The unit takes the packet from those delivered to it. -/
def takeDelivered (p : Packet) (s : State) : State :=
  { s with rt := { s.rt with delivered := eraseFirst (fun x => x == p) s.rt.delivered } }

/-- A packet of a type reaches the unit of this module that takes it.  An operand that is no such packet
brings nothing: the header checks of R255 let none reach a unit (assumption 37). -/
def packetCommand (type : Nat) (p : Packet) (f : Packet → State → State) (s : State) : Out3 :=
  if isPacket [type] p then inCX (fun s => f p (takeDelivered p s)) s else .next s

/-- Is the packet held in the receive buffer of a port? -/
def heldAt (port : Nat) (p : Packet) (s : State) : Bool :=
  match s.rt.ingress.find? fun i => i.port == port && i.packet == p with
  | some i => i.held
  | none => false

/-- MT at which a packet received on a port arrived at the lane boundary (R253). -/
def arrivedAt (port : Nat) (p : Packet) (s : State) : Nat :=
  match s.rt.ingress.find? fun i => i.port == port && i.packet == p with
  | some i => i.arrived
  | none => now s

/-- The packet leaves the packets received on a port; `free`: with the cells it occupied (R296). -/
def takeIngress (port : Nat) (p : Packet) (free : Bool) (s : State) : State :=
  let held := heldAt port p s
  let s := { s with rt := { s.rt with
    ingress := eraseFirst (fun i => i.port == port && i.packet == p) s.rt.ingress } }
  if free && held then leaveIngress (some port) p s else s

/-- A packet of a type that is bound to its port, and is what the command says, arrives there; its cells
are freed. -/
def portCommand (type : Nat) (ok : Packet → Bool) (port : Nat) (p : Packet) (f : Packet → State → State)
    (s : State) : Out3 :=
  if isPacket [type] p && ok p then inCX (fun s => f p (takeIngress port p true s)) s else .next s

end Sys2Proof.Machine
end

