-- ==== Sys2Proof/Machine/CollCommands.lean ====
section
/-!
DEFINITION. The commands of the collectives (06_collectives.md).
-/
namespace Sys2Proof.Machine

/-! ### Groups and steps: the next descriptor of a SEND queue -/

/-- GROUP_CREATE (R187). -/
def execGroupCreate (qn : BitVec 20) (s : State) : Out3 := fin (startCreate qn.toNat s)

/-- GROUP_DESTROY (R189). -/
def execGroupDestroy (qn : BitVec 20) (s : State) : Out3 := fin (startGroupDestroy qn.toNat s)

/-- ALLREDUCE (R190). -/
def execAllreduce (qn : BitVec 20) (s : State) : Out3 := fin (startStep qn.toNat 0x42 s)

/-- BROADCAST (R199). -/
def execBroadcast (qn : BitVec 20) (s : State) : Out3 := fin (startStep qn.toNat 0x43 s)

/-- BARRIER (R199). -/
def execBarrier (qn : BitVec 20) (s : State) : Out3 := fin (startStep qn.toNat 0x44 s)

/-- COLLECTIVE_LAUNCH (R200). -/
def execCollectiveLaunch (group : BitVec 12) (step : BitVec 32) (s : State) : Out3 :=
  fin (instantReached (.launch group.toNat step.toNat) (collLaunch group.toNat step.toNat) s)

/-! ### Packets (R188, R192, R201 to R205) -/

/-- A COLL packet of a kind (Table 08-7). -/
def collCommand (kind : Nat) (p : Packet) (f : Nat → Packet → State → State) (s : State) : Out3 :=
  if cKIND p = kind then packetCommand tCOLL p (collArrive kind f) s else .next s

/-- COLL_JOIN (R188). -/
def execCollJoin (p : Packet) (s : State) : Out3 := collCommand kJOIN p joinArrive s

/-- COLL_READY (R188). -/
def execCollReady (p : Packet) (s : State) : Out3 := collCommand kREADY p readyArrive s

/-- COLL_ABANDON (R188). -/
def execCollAbandon (p : Packet) (s : State) : Out3 := collCommand kABANDON p abandonArrive s

/-- COLL_CONTRIB (R192). -/
def execCollContrib (p : Packet) (s : State) : Out3 := collCommand kCONTRIB p contribArrive s

/-- COLL_RESULT (R192). -/
def execCollResult (p : Packet) (s : State) : Out3 := collCommand kRESULT p resultArrive s

/-- COLL_ABORT (R201). -/
def execCollAbort (p : Packet) (s : State) : Out3 := collCommand kABORT p abortArrive s

/-- COLL_HEARTBEAT (R204): liveness is renewed by the arrival itself. -/
def execCollHeartbeat (p : Packet) (s : State) : Out3 := collCommand kHEARTBEAT p (fun _ _ s => s) s

/-- COLL_DEPART (R204). -/
def execCollDepart (p : Packet) (s : State) : Out3 := collCommand kDEPART p departArrive s

/-- COLL_LOST (R205). -/
def execCollLost (p : Packet) (s : State) : Out3 := collCommand kLOST p lostArrive s

/-- COLL_BROKEN (R205). -/
def execCollBroken (p : Packet) (s : State) : Out3 := collCommand kBROKEN p brokenArrive s

/-- COLL_FETCH (R205). -/
def execCollFetch (p : Packet) (s : State) : Out3 := collCommand kFETCH p fetchArrive s

/-! ### Intervals (R188, R202, R204) -/

/-- JOIN_RETRY (R188). -/
def execJoinRetry (group : BitVec 12) (s : State) : Out3 := fin (joinRetry group.toNat s)

/-- JOIN_TIMEOUT_EXPIRY (R188). -/
def execJoinTimeoutExpiry (group : BitVec 12) (s : State) : Out3 := fin (joinTimeout group.toNat s)

/-- HEARTBEAT_INTERVAL (R204). -/
def execHeartbeatInterval (group : BitVec 12) (s : State) : Out3 := fin (heartbeat group.toNat s)

/-- LIVENESS_TIMEOUT (R204): the neighbour that has been silent. -/
def execLivenessTimeout (group : BitVec 12) (node : BitVec 20) (s : State) : Out3 :=
  fin (livenessTimeout group.toNat node.toNat s)

/-- STEP_TIMEOUT_EXPIRY (R202). -/
def execStepTimeoutExpiry (group : BitVec 12) (step : BitVec 32) (s : State) : Out3 :=
  fin (stepTimeout group.toNat step.toNat s)

end Sys2Proof.Machine
end

