-- ==== Sys2Proof/Machine/DictCommands.lean ====
section
/-!
DEFINITION. The commands of the object dictionary: Yusto requests, sessions, commits, persistence and
the check words (02_object_dictionary.md).
-/
namespace Sys2Proof.Machine

/-- A Yusto request arrives on a carrier (R51 to R55).  One whose header or body does not parse, or whose body
is above 1100 B, which only a value or a segment can make, is malformed (R52, Table 02-7). -/
def yustoCommand (h : YHdr) (b : YBody) (s : State) : Out3 :=
  let n := match b with
    | .write _ _ _ v => 4 + v.length
    | .segWrite _ _ _ _ _ d => 12 + d.length
    | _ => 0
  fin (yustoArrive h (if h.ok && n ≤ 1100 then b else .malformed (BitVec.ofNat 8 (yOp b))) s)

/-- SESSION_OPEN (R51): whether the certificate was accepted, the UDP port, and the peer's IPv6 address. -/
def execSessionOpen (accepted : Bool) (address : UdpAddress) (s : State) : Out3 :=
  inAO (sessionOpen accepted address.port.toNat address.address.toNat) s

/-- SESSION_IDLE_TIMEOUT (R51). -/
def execSessionIdleTimeout (session : BitVec 30) (s : State) : Out3 := inAO (sessionIdle session.toNat) s

/-- DATAGRAM_OUTSIDE_SESSION (R51). -/
def execDatagramOutsideSession (s : State) : Out3 :=
  if serves s (.mgmt 0) then fin (bump 0x2110 0 s) else .next s

/-- READ (R53). -/
def execYustoRead (h : YHdr) (idx : BitVec 16) (sub : BitVec 8) (shadow : Bool) (s : State) : Out3 :=
  yustoCommand h (.read idx sub shadow) s

/-- WRITE (R53, R586). -/
def execYustoWrite (h : YHdr) (idx : BitVec 16) (sub set : BitVec 8) (value : List Byte) (s : State) : Out3 :=
  yustoCommand h (.write idx sub set value) s

/-- SHAPE (R47). -/
def execYustoShape (h : YHdr) (idx : BitVec 16) (s : State) : Out3 := yustoCommand h (.shape idx) s

/-- SEG-READ (R56). -/
def execSegRead (h : YHdr) (idx : BitVec 16) (sub : BitVec 8) (off : BitVec 32) (len : BitVec 16)
    (s : State) : Out3 := yustoCommand h (.segRead idx sub off len) s

/-- SEG-WRITE (R57). -/
def execSegWrite (h : YHdr) (idx : BitVec 16) (sub set : BitVec 8) (total off : BitVec 32)
    (data : List Byte) (s : State) : Out3 := yustoCommand h (.segWrite idx sub set total off data) s

/-- COMMIT action 0 (R62). -/
def execCommit (h : YHdr) (set : BitVec 8) (applyMT : BitVec 64) (s : State) : Out3 :=
  yustoCommand h (.commit set applyMT) s

/-- COMMIT action 1 (R59). -/
def execCommitCancel (h : YHdr) (set : BitVec 8) (s : State) : Out3 := yustoCommand h (.cancel set) s

/-- COMMIT action 2 (R59). -/
def execCommitDiscard (h : YHdr) (set : BitVec 8) (s : State) : Out3 := yustoCommand h (.discard set) s

/-- REPORT (R65). -/
def execReport (h : YHdr) (set : BitVec 8) (first : BitVec 16) (s : State) : Out3 :=
  yustoCommand h (.report set first) s

/-- SUBSCRIBE (R58). -/
def execSubscribe (h : YHdr) (mask : BitVec 32) (lo hi : BitVec 16) (s : State) : Out3 :=
  yustoCommand h (.subscribe mask lo hi) s

/-- SUBSCRIBE with mask 0 (R58). -/
def execSubscribeCancel (h : YHdr) (lo hi : BitVec 16) (s : State) : Out3 :=
  yustoCommand h (.subscribe 0 lo hi) s

/-- SEQ_GAP_WAIT_EXPIRY (R55). -/
def execSeqGapWaitExpiry (session : BitVec 30) (s : State) : Out3 := inAO (gapExpiry session.toNat) s

/-- APPLY (R64): a set's instant is reached.  The firmware applies it (R505). -/
def execApply (set : Fin 16) (s : State) : Out3 :=
  if serves s (.mgmt 0) then fin (applyDue set s) else .next s

/-- PERSIST_COMPLETE (R69). -/
def execPersistComplete (s : State) : Out3 :=
  if serves s (.mgmt 0) then fin (persistComplete s) else .next s

/-- CHECK_WORD_SCAN (R67, R68). -/
def execCheckWordScan (s : State) : Out3 := if fullService s then fin (checkScan s) else .next s

end Sys2Proof.Machine
end

