-- ==== Sys2Proof/Machine/EngineAlu.lean ====
section
/-!
DEFINITION. The arithmetic, shift, compare, bit-count and branch instructions of the engines
(Table 13-3, Table 13-5).  Each gives its result as a function of the operands; issue, flags, traps
and pc are those of `aluRR`, `aluR` and `branch`.
-/
namespace Sys2Proof.Machine

/-- ADD (Table 13-3). -/
def execAdd (w : Issue) (rd ra rb : Fin 32) (s : State) : Out3 :=
  finO (aluRR w (wordR 0x01 rd ra rb 0x000) rd ra rb (fun a b => fAdd a b) s)

/-- SUB (Table 13-3). -/
def execSub (w : Issue) (rd ra rb : Fin 32) (s : State) : Out3 :=
  finO (aluRR w (wordR 0x01 rd ra rb 0x001) rd ra rb (fun a b => fSub a b) s)

/-- AND (Table 13-3). -/
def execAnd (w : Issue) (rd ra rb : Fin 32) (s : State) : Out3 :=
  finO (aluRR w (wordR 0x01 rd ra rb 0x003) rd ra rb (fun a b => plain (a &&& b)) s)

/-- OR (Table 13-3). -/
def execOr (w : Issue) (rd ra rb : Fin 32) (s : State) : Out3 :=
  finO (aluRR w (wordR 0x01 rd ra rb 0x004) rd ra rb (fun a b => plain (a ||| b)) s)

/-- XOR (Table 13-3). -/
def execXor (w : Issue) (rd ra rb : Fin 32) (s : State) : Out3 :=
  finO (aluRR w (wordR 0x01 rd ra rb 0x005) rd ra rb (fun a b => plain (a ^^^ b)) s)

/-- ANDN (Table 13-3). -/
def execAndn (w : Issue) (rd ra rb : Fin 32) (s : State) : Out3 :=
  finO (aluRR w (wordR 0x01 rd ra rb 0x006) rd ra rb (fun a b => plain (a &&& ~~~b)) s)

/-- CMPLT (Table 13-3). -/
def execCmplt (w : Issue) (rd ra rb : Fin 32) (s : State) : Out3 :=
  finO (aluRR w (wordR 0x01 rd ra rb 0x007) rd ra rb (fun a b => plain (boolW (fLt a b))) s)

/-- CMPLTU (Table 13-3). -/
def execCmpltu (w : Issue) (rd ra rb : Fin 32) (s : State) : Out3 :=
  finO (aluRR w (wordR 0x01 rd ra rb 0x008) rd ra rb (fun a b => plain (boolW (fLtu a b))) s)

/-- MIN (Table 13-3). -/
def execMin (w : Issue) (rd ra rb : Fin 32) (s : State) : Out3 :=
  finO (aluRR w (wordR 0x01 rd ra rb 0x009) rd ra rb (fun a b => plain (if fLt b a then b else a)) s)

/-- MAX (Table 13-3). -/
def execMax (w : Issue) (rd ra rb : Fin 32) (s : State) : Out3 :=
  finO (aluRR w (wordR 0x01 rd ra rb 0x00A) rd ra rb (fun a b => plain (if fLt a b then b else a)) s)

/-- MINU (Table 13-3). -/
def execMinu (w : Issue) (rd ra rb : Fin 32) (s : State) : Out3 :=
  finO (aluRR w (wordR 0x01 rd ra rb 0x00B) rd ra rb (fun a b => plain (if fLtu b a then b else a)) s)

/-- MAXU (Table 13-3). -/
def execMaxu (w : Issue) (rd ra rb : Fin 32) (s : State) : Out3 :=
  finO (aluRR w (wordR 0x01 rd ra rb 0x00C) rd ra rb (fun a b => plain (if fLtu a b then b else a)) s)

/-- SHL (Table 13-3). -/
def execShl (w : Issue) (rd ra rb : Fin 32) (s : State) : Out3 :=
  finO (aluRR w (wordR 0x01 rd ra rb 0x010) rd ra rb (fun a b => plain (fShl a b.toNat)) s)

/-- SHR (Table 13-3). -/
def execShr (w : Issue) (rd ra rb : Fin 32) (s : State) : Out3 :=
  finO (aluRR w (wordR 0x01 rd ra rb 0x011) rd ra rb (fun a b => plain (fShr a b.toNat)) s)

/-- SAR (Table 13-3). -/
def execSar (w : Issue) (rd ra rb : Fin 32) (s : State) : Out3 :=
  finO (aluRR w (wordR 0x01 rd ra rb 0x012) rd ra rb (fun a b => plain (fSar a b.toNat)) s)

/-- ROTL (Table 13-3). -/
def execRotl (w : Issue) (rd ra rb : Fin 32) (s : State) : Out3 :=
  finO (aluRR w (wordR 0x01 rd ra rb 0x013) rd ra rb (fun a b => plain (fRotl a b.toNat)) s)

/-- ROTR (Table 13-3). -/
def execRotr (w : Issue) (rd ra rb : Fin 32) (s : State) : Out3 :=
  finO (aluRR w (wordR 0x01 rd ra rb 0x014) rd ra rb (fun a b => plain (fRotr a b.toNat)) s)

/-- ADD.32 (Table 13-3). -/
def execAdd32 (w : Issue) (rd ra rb : Fin 32) (s : State) : Out3 :=
  finO (aluRR w (wordR 0x01 rd ra rb 0x020) rd ra rb (fun a b => fAdd32 a b) s)

/-- SUB.32 (Table 13-3). -/
def execSub32 (w : Issue) (rd ra rb : Fin 32) (s : State) : Out3 :=
  finO (aluRR w (wordR 0x01 rd ra rb 0x021) rd ra rb (fun a b => fSub32 a b) s)

/-- SHL.32 (Table 13-3). -/
def execShl32 (w : Issue) (rd ra rb : Fin 32) (s : State) : Out3 :=
  finO (aluRR w (wordR 0x01 rd ra rb 0x030) rd ra rb (fun a b => plain (fShl32 a b.toNat)) s)

/-- SHR.32 (Table 13-3). -/
def execShr32 (w : Issue) (rd ra rb : Fin 32) (s : State) : Out3 :=
  finO (aluRR w (wordR 0x01 rd ra rb 0x031) rd ra rb (fun a b => plain (fShr32 a b.toNat)) s)

/-- SAR.32 (Table 13-3). -/
def execSar32 (w : Issue) (rd ra rb : Fin 32) (s : State) : Out3 :=
  finO (aluRR w (wordR 0x01 rd ra rb 0x032) rd ra rb (fun a b => plain (fSar32 a b.toNat)) s)

/-- ROTL.32 (Table 13-3). -/
def execRotl32 (w : Issue) (rd ra rb : Fin 32) (s : State) : Out3 :=
  finO (aluRR w (wordR 0x01 rd ra rb 0x033) rd ra rb (fun a b => plain (fRotl32 a b.toNat)) s)

/-- ROTR.32 (Table 13-3). -/
def execRotr32 (w : Issue) (rd ra rb : Fin 32) (s : State) : Out3 :=
  finO (aluRR w (wordR 0x01 rd ra rb 0x034) rd ra rb (fun a b => plain (fRotr32 a b.toNat)) s)

/-- MULLO (Table 13-3). -/
def execMullo (w : Issue) (rd ra rb : Fin 32) (s : State) : Out3 :=
  finO (aluRR w (wordR 0x0C rd ra rb 0x000) rd ra rb (fun a b => fMullo a b) s)

/-- MULHS (Table 13-3). -/
def execMulhs (w : Issue) (rd ra rb : Fin 32) (s : State) : Out3 :=
  finO (aluRR w (wordR 0x0C rd ra rb 0x001) rd ra rb (fun a b => plain (fMulhs a b)) s)

/-- MULHU (Table 13-3). -/
def execMulhu (w : Issue) (rd ra rb : Fin 32) (s : State) : Out3 :=
  finO (aluRR w (wordR 0x0C rd ra rb 0x002) rd ra rb (fun a b => plain (fMulhu a b)) s)

/-- MULHM (Table 13-3). -/
def execMulhm (w : Issue) (rd ra rb : Fin 32) (s : State) : Out3 :=
  finO (aluRR w (wordR 0x0C rd ra rb 0x003) rd ra rb (fun a b => plain (fMulhm a b)) s)

/-- QUOS (Table 13-3). -/
def execQuos (w : Issue) (rd ra rb : Fin 32) (s : State) : Out3 :=
  finO (aluRR w (wordR 0x0C rd ra rb 0x004) rd ra rb (fun a b => fQuos a b) s)

/-- QUOU (Table 13-3). -/
def execQuou (w : Issue) (rd ra rb : Fin 32) (s : State) : Out3 :=
  finO (aluRR w (wordR 0x0C rd ra rb 0x005) rd ra rb (fun a b => fQuou a b) s)

/-- RMDS (Table 13-3). -/
def execRmds (w : Issue) (rd ra rb : Fin 32) (s : State) : Out3 :=
  finO (aluRR w (wordR 0x0C rd ra rb 0x006) rd ra rb (fun a b => fRmds a b) s)

/-- RMDU (Table 13-3). -/
def execRmdu (w : Issue) (rd ra rb : Fin 32) (s : State) : Out3 :=
  finO (aluRR w (wordR 0x0C rd ra rb 0x007) rd ra rb (fun a b => fRmdu a b) s)

/-- MULLO.32 (Table 13-3). -/
def execMullo32 (w : Issue) (rd ra rb : Fin 32) (s : State) : Out3 :=
  finO (aluRR w (wordR 0x0C rd ra rb 0x020) rd ra rb (fun a b => fMullo32 a b) s)

/-- QUOS.32 (Table 13-3). -/
def execQuos32 (w : Issue) (rd ra rb : Fin 32) (s : State) : Out3 :=
  finO (aluRR w (wordR 0x0C rd ra rb 0x024) rd ra rb (fun a b => fQuos32 a b) s)

/-- QUOU.32 (Table 13-3). -/
def execQuou32 (w : Issue) (rd ra rb : Fin 32) (s : State) : Out3 :=
  finO (aluRR w (wordR 0x0C rd ra rb 0x025) rd ra rb (fun a b => fQuou32 a b) s)

/-- RMDS.32 (Table 13-3). -/
def execRmds32 (w : Issue) (rd ra rb : Fin 32) (s : State) : Out3 :=
  finO (aluRR w (wordR 0x0C rd ra rb 0x026) rd ra rb (fun a b => fRmds32 a b) s)

/-- RMDU.32 (Table 13-3). -/
def execRmdu32 (w : Issue) (rd ra rb : Fin 32) (s : State) : Out3 :=
  finO (aluRR w (wordR 0x0C rd ra rb 0x027) rd ra rb (fun a b => fRmdu32 a b) s)

/-- CRC (Table 13-3). -/
def execCrc (w : Issue) (rd ra rb : Fin 32) (s : State) : Out3 :=
  finO (aluRR w (wordR 0x0D rd ra rb 0x004) rd ra rb (fun a b => plain (fCrc a b)) s)

/-- NEG (Table 13-3). -/
def execNeg (w : Issue) (rd ra : Fin 32) (s : State) : Out3 :=
  finO (aluR w (wordR 0x01 rd ra 0 0x002) rd ra (fun a => fNeg a) s)

/-- NEG.32 (Table 13-3). -/
def execNeg32 (w : Issue) (rd ra : Fin 32) (s : State) : Out3 :=
  finO (aluR w (wordR 0x01 rd ra 0 0x022) rd ra (fun a => fNeg32 a) s)

/-- CLZ (Table 13-3); rb is not read. -/
def execClz (w : Issue) (rd ra rb : Fin 32) (s : State) : Out3 :=
  finO (aluR w (wordR 0x0D rd ra rb 0x000) rd ra (fun a => plain (BitVec.ofNat 64 (clzN 64 a.toNat))) s)

/-- CTZ (Table 13-3); rb is not read. -/
def execCtz (w : Issue) (rd ra rb : Fin 32) (s : State) : Out3 :=
  finO (aluR w (wordR 0x0D rd ra rb 0x001) rd ra (fun a => plain (BitVec.ofNat 64 (ctzN 64 0 a.toNat))) s)

/-- POPC (Table 13-3); rb is not read. -/
def execPopc (w : Issue) (rd ra rb : Fin 32) (s : State) : Out3 :=
  finO (aluR w (wordR 0x0D rd ra rb 0x002) rd ra (fun a => plain (BitVec.ofNat 64 (popN 64 a.toNat))) s)

/-- BSWAP (Table 13-3); rb is not read. -/
def execBswap (w : Issue) (rd ra rb : Fin 32) (s : State) : Out3 :=
  finO (aluR w (wordR 0x0D rd ra rb 0x003) rd ra (fun a => plain (fBswap a)) s)

/-- CLZ.32 (Table 13-3); rb is not read. -/
def execClz32 (w : Issue) (rd ra rb : Fin 32) (s : State) : Out3 :=
  finO (aluR w (wordR 0x0D rd ra rb 0x020) rd ra (fun a => plain (BitVec.ofNat 64 (clzN 32 (lo32 a).toNat))) s)

/-- CTZ.32 (Table 13-3); rb is not read. -/
def execCtz32 (w : Issue) (rd ra rb : Fin 32) (s : State) : Out3 :=
  finO (aluR w (wordR 0x0D rd ra rb 0x021) rd ra (fun a => plain (BitVec.ofNat 64 (ctzN 32 0 (lo32 a).toNat))) s)

/-- POPC.32 (Table 13-3); rb is not read. -/
def execPopc32 (w : Issue) (rd ra rb : Fin 32) (s : State) : Out3 :=
  finO (aluR w (wordR 0x0D rd ra rb 0x022) rd ra (fun a => plain (BitVec.ofNat 64 (popN 32 (lo32 a).toNat))) s)

/-- ADDK (Table 13-3). -/
def execAddk (w : Issue) (rd ra : Fin 32) (imm : BitVec 16) (s : State) : Out3 :=
  finO (aluR w (wordI 0x02 rd ra imm) rd ra (fun a => plain (a + sext16 imm)) s)

/-- ADDK.32 (Table 13-3). -/
def execAddk32 (w : Issue) (rd ra : Fin 32) (imm : BitVec 16) (s : State) : Out3 :=
  finO (aluR w (wordI 0x03 rd ra imm) rd ra (fun a => plain (sext32 (lo32 a + lo32 (sext16 imm)))) s)

/-- ANDK (Table 13-3). -/
def execAndk (w : Issue) (rd ra : Fin 32) (imm : BitVec 16) (s : State) : Out3 :=
  finO (aluR w (wordI 0x04 rd ra imm) rd ra (fun a => plain (a &&& zext16 imm)) s)

/-- ORK (Table 13-3). -/
def execOrk (w : Issue) (rd ra : Fin 32) (imm : BitVec 16) (s : State) : Out3 :=
  finO (aluR w (wordI 0x05 rd ra imm) rd ra (fun a => plain (a ||| zext16 imm)) s)

/-- XORK (Table 13-3). -/
def execXork (w : Issue) (rd ra : Fin 32) (imm : BitVec 16) (s : State) : Out3 :=
  finO (aluR w (wordI 0x06 rd ra imm) rd ra (fun a => plain (a ^^^ zext16 imm)) s)

/-- CMPLTK (Table 13-3). -/
def execCmpltk (w : Issue) (rd ra : Fin 32) (imm : BitVec 16) (s : State) : Out3 :=
  finO (aluR w (wordI 0x07 rd ra imm) rd ra (fun a => plain (boolW (fLt a (sext16 imm)))) s)

/-- CMPLTUK (Table 13-3). -/
def execCmpltuk (w : Issue) (rd ra : Fin 32) (imm : BitVec 16) (s : State) : Out3 :=
  finO (aluR w (wordI 0x08 rd ra imm) rd ra (fun a => plain (boolW (fLtu a (sext16 imm)))) s)

/-- KSHOR (Table 13-3). -/
def execKshor (w : Issue) (rd ra : Fin 32) (imm : BitVec 16) (s : State) : Out3 :=
  finO (aluR w (wordI 0x0B rd ra imm) rd ra (fun a => plain (a <<< (16 : Nat) ||| zext16 imm)) s)

/-- KHI: rd := sext(imm) × 2^16; ra is 0. -/
def execKhi (w : Issue) (rd : Fin 32) (imm : BitVec 16) (s : State) : Out3 :=
  finO (aluK w (wordI 0x0A rd 0 imm) rd (sext16 imm <<< (16 : Nat)) s)

/-- SHK with selector 0x00. -/
def execShkShl (w : Issue) (rd ra : Fin 32) (amount : BitVec 8) (s : State) : Out3 :=
  finO (aluR w (wordI 0x09 rd ra (BitVec.ofNat 16 (0x00 * 256 + amount.toNat))) rd ra
    (fun a => plain (fShl a amount.toNat)) s)

/-- SHK with selector 0x01. -/
def execShkShr (w : Issue) (rd ra : Fin 32) (amount : BitVec 8) (s : State) : Out3 :=
  finO (aluR w (wordI 0x09 rd ra (BitVec.ofNat 16 (0x01 * 256 + amount.toNat))) rd ra
    (fun a => plain (fShr a amount.toNat)) s)

/-- SHK with selector 0x02. -/
def execShkSar (w : Issue) (rd ra : Fin 32) (amount : BitVec 8) (s : State) : Out3 :=
  finO (aluR w (wordI 0x09 rd ra (BitVec.ofNat 16 (0x02 * 256 + amount.toNat))) rd ra
    (fun a => plain (fSar a amount.toNat)) s)

/-- SHK with selector 0x03. -/
def execShkRotl (w : Issue) (rd ra : Fin 32) (amount : BitVec 8) (s : State) : Out3 :=
  finO (aluR w (wordI 0x09 rd ra (BitVec.ofNat 16 (0x03 * 256 + amount.toNat))) rd ra
    (fun a => plain (fRotl a amount.toNat)) s)

/-- SHK with selector 0x04. -/
def execShkRotr (w : Issue) (rd ra : Fin 32) (amount : BitVec 8) (s : State) : Out3 :=
  finO (aluR w (wordI 0x09 rd ra (BitVec.ofNat 16 (0x04 * 256 + amount.toNat))) rd ra
    (fun a => plain (fRotr a amount.toNat)) s)

/-- SHK with selector 0x10. -/
def execShkShl32 (w : Issue) (rd ra : Fin 32) (amount : BitVec 8) (s : State) : Out3 :=
  finO (aluR w (wordI 0x09 rd ra (BitVec.ofNat 16 (0x10 * 256 + amount.toNat))) rd ra
    (fun a => plain (fShl32 a amount.toNat)) s)

/-- SHK with selector 0x11. -/
def execShkShr32 (w : Issue) (rd ra : Fin 32) (amount : BitVec 8) (s : State) : Out3 :=
  finO (aluR w (wordI 0x09 rd ra (BitVec.ofNat 16 (0x11 * 256 + amount.toNat))) rd ra
    (fun a => plain (fShr32 a amount.toNat)) s)

/-- SHK with selector 0x12. -/
def execShkSar32 (w : Issue) (rd ra : Fin 32) (amount : BitVec 8) (s : State) : Out3 :=
  finO (aluR w (wordI 0x09 rd ra (BitVec.ofNat 16 (0x12 * 256 + amount.toNat))) rd ra
    (fun a => plain (fSar32 a amount.toNat)) s)

/-- SHK with selector 0x13. -/
def execShkRotl32 (w : Issue) (rd ra : Fin 32) (amount : BitVec 8) (s : State) : Out3 :=
  finO (aluR w (wordI 0x09 rd ra (BitVec.ofNat 16 (0x13 * 256 + amount.toNat))) rd ra
    (fun a => plain (fRotl32 a amount.toNat)) s)

/-- SHK with selector 0x14. -/
def execShkRotr32 (w : Issue) (rd ra : Fin 32) (amount : BitVec 8) (s : State) : Out3 :=
  finO (aluR w (wordI 0x09 rd ra (BitVec.ofNat 16 (0x14 * 256 + amount.toNat))) rd ra
    (fun a => plain (fRotr32 a amount.toNat)) s)

/-- BR.EQ: pc := pc + sext(off16) × 4 when it holds. -/
def execBrEq (w : Issue) (ra rb : Fin 32) (off : BitVec 16) (s : State) : Out3 :=
  finO (branch w (wordI 0x20 ra rb off) ra rb off (fun a b => a == b) s)

/-- BR.NE: pc := pc + sext(off16) × 4 when it holds. -/
def execBrNe (w : Issue) (ra rb : Fin 32) (off : BitVec 16) (s : State) : Out3 :=
  finO (branch w (wordI 0x21 ra rb off) ra rb off (fun a b => a != b) s)

/-- BR.LT: pc := pc + sext(off16) × 4 when it holds. -/
def execBrLt (w : Issue) (ra rb : Fin 32) (off : BitVec 16) (s : State) : Out3 :=
  finO (branch w (wordI 0x22 ra rb off) ra rb off (fun a b => fLt a b) s)

/-- BR.GE: pc := pc + sext(off16) × 4 when it holds. -/
def execBrGe (w : Issue) (ra rb : Fin 32) (off : BitVec 16) (s : State) : Out3 :=
  finO (branch w (wordI 0x23 ra rb off) ra rb off (fun a b => !fLt a b) s)

/-- BR.LTU: pc := pc + sext(off16) × 4 when it holds. -/
def execBrLtu (w : Issue) (ra rb : Fin 32) (off : BitVec 16) (s : State) : Out3 :=
  finO (branch w (wordI 0x24 ra rb off) ra rb off (fun a b => fLtu a b) s)

/-- BR.GEU: pc := pc + sext(off16) × 4 when it holds. -/
def execBrGeu (w : Issue) (ra rb : Fin 32) (off : BitVec 16) (s : State) : Out3 :=
  finO (branch w (wordI 0x25 ra rb off) ra rb off (fun a b => !fLtu a b) s)

end Sys2Proof.Machine
end

