-- ==== Sys2Proof/Machine/EngineSys.lean ====
section
/-!
DEFINITION. The memory, special-register, control-transfer, trap, wait, move and lock instructions of
the engines, and the events that befall a context (Table 13-3, R380 to R384, R406 to R413, R424, R425).
-/
namespace Sys2Proof.Machine

/-! ### Loads and stores -/

/-- A load instruction: address ra + sext(imm). -/
def loadInstr (w : Issue) (major : Nat) (rd ra : Fin 32) (imm : BitVec 16) (size : Nat)
    (signed : Bool) (s : State) : Out3 :=
  finO (meRun w (wordI major rd ra imm) 1 (fun s =>
    doLoad w rd size signed false (stampOf s w.engine w.ctx ra) (reg s w.engine w.ctx ra + sext16 imm).toNat s) s)

def execLd8 (w : Issue) (rd ra : Fin 32) (imm : BitVec 16) (s : State) : Out3 :=
  loadInstr w 0x10 rd ra imm 1 true s
def execLd8u (w : Issue) (rd ra : Fin 32) (imm : BitVec 16) (s : State) : Out3 :=
  loadInstr w 0x11 rd ra imm 1 false s
def execLd16 (w : Issue) (rd ra : Fin 32) (imm : BitVec 16) (s : State) : Out3 :=
  loadInstr w 0x12 rd ra imm 2 true s
def execLd16u (w : Issue) (rd ra : Fin 32) (imm : BitVec 16) (s : State) : Out3 :=
  loadInstr w 0x13 rd ra imm 2 false s
def execLd32 (w : Issue) (rd ra : Fin 32) (imm : BitVec 16) (s : State) : Out3 :=
  loadInstr w 0x14 rd ra imm 4 true s
def execLd32u (w : Issue) (rd ra : Fin 32) (imm : BitVec 16) (s : State) : Out3 :=
  loadInstr w 0x15 rd ra imm 4 false s
def execLd64 (w : Issue) (rd ra : Fin 32) (imm : BitVec 16) (s : State) : Out3 :=
  loadInstr w 0x16 rd ra imm 8 false s

/-- LD2W: rd even, 16 bytes into rd and rd + 1 (R415); an odd rd is ILLEGAL. -/
def execLd2w (w : Issue) (rd ra : Fin 32) (imm : BitVec 16) (s : State) : Out3 :=
  finO (meRun w (wordI 0x17 rd ra imm) 3 (fun s =>
    if rd.val % 2 = 1 then .next (trapHere w.engine w.ctx cILLEGAL 0 s)
    else doLoad w rd 8 false true (stampOf s w.engine w.ctx ra) (reg s w.engine w.ctx ra + sext16 imm).toNat s) s)

/-- A store instruction: the low `size` bytes of rs at ra + sext(imm). -/
def storeInstr (w : Issue) (major : Nat) (rs ra : Fin 32) (imm : BitVec 16) (size : Nat) (s : State) :
    Out3 :=
  finO (meRun w (wordI major rs ra imm) 2 (fun s =>
    doStore w (leBytes size (reg s w.engine w.ctx rs).toNat) false
      (reg s w.engine w.ctx ra + sext16 imm).toNat s) s)

def execSt8 (w : Issue) (rs ra : Fin 32) (imm : BitVec 16) (s : State) : Out3 :=
  storeInstr w 0x18 rs ra imm 1 s
def execSt16 (w : Issue) (rs ra : Fin 32) (imm : BitVec 16) (s : State) : Out3 :=
  storeInstr w 0x19 rs ra imm 2 s
def execSt32 (w : Issue) (rs ra : Fin 32) (imm : BitVec 16) (s : State) : Out3 :=
  storeInstr w 0x1A rs ra imm 4 s
def execSt64 (w : Issue) (rs ra : Fin 32) (imm : BitVec 16) (s : State) : Out3 :=
  storeInstr w 0x1B rs ra imm 8 s

/-- ST2W: rs even, 16 bytes from rs and rs + 1 (R415). -/
def execSt2w (w : Issue) (rs ra : Fin 32) (imm : BitVec 16) (s : State) : Out3 :=
  finO (meRun w (wordI 0x1C rs ra imm) 3 (fun s =>
    let e := w.engine.val
    let c := w.ctx.val
    if rs.val % 2 = 1 then .next (trapHere e c cILLEGAL 0 s)
    else doStore w (leBytes 8 (reg s e c rs).toNat ++ leBytes 8 (reg s e c (rs + 1)).toNat) true
      (reg s e c ra + sext16 imm).toNat s) s)

/-- The granule that a reservation on a place covers (R412): cluster memory or context memory only. -/
def granuleOf : EPlace → Option Granule
  | .cmem k off => some { cluster := some k, index := off / 128 }
  | .context off => some { cluster := none, index := off / 128 }
  | _ => none

/-- LRSV: load 8 B, the newest value, and reserve the 128 B granule (R412). -/
def execLrsv (w : Issue) (rd ra : Fin 32) (imm : BitVec 16) (s : State) : Out3 :=
  finO (meRun w (wordI 0x1D rd ra imm) 3 (fun s =>
    let e := w.engine.val
    let c := w.ctx.val
    let addr := (reg s e c ra + sext16 imm).toNat
    match accessTrap s e c addr 8 false, granuleOf (placeOf addr 8) with
    | some cause, _ => .next (trapHere e c cause addr s)
    | none, none => .next (trapHere e c cACCESS addr s)
    | none, some g =>
      let p := placeOf addr 8
      let off := match p with | .cmem _ off | .context off => off | _ => 0
      .next (localLoad w w.data s.me.fences addr 8 (fun bs s =>
        setCtx e c (fun x => { x with resv := some g }) (loadDone e c rd 8 false false bs s))
        (seeRange (ctxObserver e c) g.cluster off 8 (sampleAccess e c p addr s)))) s)

/-- SCND: store rb at ra when the reservation is held and covers the address; the reservation ends in
every case (R413, R414). -/
def execScnd (w : Issue) (rd ra rb : Fin 32) (s : State) : Out3 :=
  finO (meRun w (wordR 0x1E rd ra rb 0) 3 (fun s =>
    let e := w.engine.val
    let c := w.ctx.val
    let addr := (reg s e c ra).toNat
    let p := placeOf addr 8
    match accessTrap s e c addr 8 false, granuleOf p with
    | some cause, _ => .next (trapHere e c cause addr s)
    | none, none => .next (trapHere e c cACCESS addr s)
    | none, some g =>
      let held := (ectx s e c).resv == some g
      let v := leBytes 8 (reg s e c rb).toNat
      let s := sampleAccess e c p addr (setCtx e c (fun x => { x with resv := none }) s)
      if held then
        let s := match p with
          | .cmem k off => cmemStore e c k off v s
          | .context off => contextStore e c off v w.data s
          | _ => s
        .next (finish e c rd 0 (bump 0x8638 0 s))
      else .next (finish e c rd 1 (bump 0x8637 0 s))) s)

/-- A unit operation (major 0x34): the handler of a queue that was destroyed with FORCE ends here (R396). -/
def unitOp (w : Issue) (rd ra selector : Nat) (body : State → Out3) (s : State) : Out3 :=
  finO (meRun w (wordX 0x34 rd ra 0 selector) 5 (fun s =>
    if isAbandoned s w.engine w.ctx then .next (endItem w.engine w.ctx (cancelled esHALT 0) s) else body s) s)

/-! ### Fences (R406, R407) -/

/-- FENCE.O: the context's stores to the memory of its cluster are seen there.  The accesses of a context
issue in program order in this model (assumption 178). -/
def execFenceO (w : Issue) (s : State) : Out3 :=
  finO (meRun w (wordI 0x1F 0 0 1) 0 (fun s =>
    .next (nextPc w.engine w.ctx (fenceCluster w.engine w.ctx s))) s)

/-- FENCE.P asks for its acknowledgements: a zero-length read of every host link written, and a FLUSH of every
flow stored to (R165, R406). -/
def fenceAsk (e c no : Nat) (s : State) : State :=
  let x := ectx s e c
  let s := foldSt (fun (l : Nat × Nat) s => later (.zeroRead l.1 (.fence e c no l.1 l.2)) s) x.wrote s
  foldSt (fun (f : Nat × Nat × Nat) s => engineFlush (.fence e c no f.2.2) f.1 f.2.1 s) x.flows s

/-- FENCE.P: wait for every remote store, every host write and every earlier access at its end point. -/
def execFenceP (w : Issue) (s : State) : Out3 :=
  finO (meRun w (wordI 0x1F 0 0 2) 0 (fun s =>
    let e := w.engine.val
    let c := w.ctx.val
    let x := ectx s e c
    let no := x.fenceNo + 1
    let s := block e c (.fence no (x.wrote.length + x.flows.length)) (setCtx e c (fun x => { x with fenceNo := no }) s)
    .next (fenceCheck e c (fenceAsk e c no s))) s)

/-! ### Jumps -/

def execCall (w : Issue) (off : BitVec 26) (s : State) : Out3 :=
  finO (meRun w (wordJ 0x28 off) 4 (fun s =>
    let e := w.engine.val
    let c := w.ctx.val
    let pc := pcOf s e c
    .next (retire e c (setPc e c (pc + off.signExtend 64 * 4) (setReg e c 31 (pc + 4) s)))) s)

def execJump (w : Issue) (off : BitVec 26) (s : State) : Out3 :=
  finO (meRun w (wordJ 0x29 off) 4 (fun s =>
    let e := w.engine.val
    let c := w.ctx.val
    .next (retire e c (setPc e c (pcOf s e c + off.signExtend 64 * 4) s))) s)

/-- CALLR: rd := pc + 4; pc := (ra + sext(imm)) with bits [1:0] cleared; ra is read first. -/
def execCallr (w : Issue) (rd ra : Fin 32) (imm : BitVec 16) (s : State) : Out3 :=
  finO (meRun w (wordI 0x2A rd ra imm) 4 (fun s =>
    let e := w.engine.val
    let c := w.ctx.val
    let t := (reg s e c ra + sext16 imm) &&& ~~~(3 : Word64)
    .next (retire e c (setPc e c t (setReg e c rd (pcOf s e c + 4) s)))) s)

/-! ### Special registers (R380, Table 13-6) -/

/-- Read a special register.  `cycle` is a free value, and `budget` a free value at most the budget
the item started with: cycles are not modelled (assumption 7). -/
def readSpecial (e c n : Nat) (s : State) : Word64 × State :=
  let x := ectx s e c
  match n with
  | 0 => (x.status, s)
  | 1 => (x.cause, s)
  | 2 => (x.vector, s)
  | 3 => (x.priority, s)
  | 4 => (x.resume, s)
  | 5 => (x.faultaddr, s)
  | 6 => (BitVec.ofNat 64 (c * 256 + e), s)
  | 7 => (x.asid, s)
  | 8 => (x.tenant, s)
  | 9 => let (v, s) := draw (2 ^ 64) s; (BitVec.ofNat 64 v, s)
  | 14 => let (v, s) := draw (x.budget.toNat + 1) s; (BitVec.ofNat 64 v, s)
  | 15 => (x.scratch, s)
  | 16 => (x.mtcmp, s)
  | 17 => (x.pending, s)
  | 18 => (x.pbase, s)
  | _ => if 10 ≤ n && n ≤ 13 then (sget 0 x.rwin (n - 10), s) else (0, s)

/-- May a package read or write a special register? -/
def pkgReads (n : Nat) : Bool := n != 2 && n != 4
def pkgWrites (n : Nat) : Bool := n == 0 || (10 ≤ n && n ≤ 13) || n == 15 || n == 16

/-- Registers that are read only in every mode. -/
def neverWritten (n : Nat) : Bool := n == 6 || n == 9 || n == 14 || n == 18

/-- Write a special register; `pkg`: in package mode only the flag bits of status change. -/
def writeSpecial (n : Nat) (v : Word64) (pkg : Bool) (x : ECtx) : ECtx :=
  match n with
  | 0 => if pkg then { x with status := (x.status &&& ~~~(0x33 : Word64)) ||| (v &&& 0x33) }
         else { x with status := v &&& statusMask }
  | 1 => { x with cause := v }
  | 2 => { x with vector := v }
  | 3 => { x with priority := v &&& 0xF }
  | 4 => { x with resume := v }
  | 5 => { x with faultaddr := v }
  | 7 => { x with asid := v &&& 0xFFFF }
  | 8 => { x with tenant := v &&& 0xFFFF }
  | 15 => { x with scratch := v }
  | 16 => { x with mtcmp := v, mtcmpDone := false }
  | 17 => { x with pending := x.pending &&& ~~~v }
  | _ => if 10 ≤ n && n ≤ 13 then { x with rwin := sset 0 x.rwin (n - 10) v } else x

def execRds (w : Issue) (rd ra : Fin 32) (sel : BitVec 12) (s : State) : Out3 :=
  finO (meRun w (wordX 0x30 rd ra 1 sel.toNat) 0 (fun s =>
    let e := w.engine.val
    let c := w.ctx.val
    let n := sel.toNat
    if 18 < n then .next (trapHere e c cILLEGAL 0 s)
    else if inPackage s e c && !pkgReads n then .next (trapHere e c cACCESS 0 s)
    else
      let (v, s) := readSpecial e c n s
      .next (finish e c rd v s)) s)

def execWrs (w : Issue) (rd ra : Fin 32) (sel : BitVec 12) (s : State) : Out3 :=
  finO (meRun w (wordX 0x30 rd ra 2 sel.toNat) 0 (fun s =>
    let e := w.engine.val
    let c := w.ctx.val
    let n := sel.toNat
    let pkg := inPackage s e c
    if 18 < n || neverWritten n then .next (trapHere e c cILLEGAL 0 s)
    else if pkg && !pkgWrites n then .next (trapHere e c cACCESS 0 s)
    else
      let v := reg s e c ra
      .next (nextPc e c (setCtx e c (writeSpecial n v pkg) s))) s)

def execMtread (w : Issue) (rd ra : Fin 32) (s : State) : Out3 :=
  unitOp w rd ra 1 (fun s =>
    .next (finish w.engine w.ctx rd (BitVec.ofNat 64 (now s)) s)) s

/-! ### Traps, waits, the end of an item -/

def execTrap (w : Issue) (rd ra : Fin 32) (sel : BitVec 12) (s : State) : Out3 :=
  finO (meRun w (wordX 0x30 rd ra 3 sel.toNat) 0 (fun s =>
    .next (trapHere w.engine w.ctx cTRAP sel.toNat s)) s)

def execBrk (w : Issue) (rd ra : Fin 32) (sel : BitVec 12) (s : State) : Out3 :=
  finO (meRun w (wordX 0x30 rd ra 7 sel.toNat) 0 (fun s =>
    .next (trapHere w.engine w.ctx cBREAK sel.toNat s)) s)

/-- RETURN (R382); in package mode ILLEGAL. -/
def execRet (w : Issue) (rd ra : Fin 32) (sel : BitVec 12) (s : State) : Out3 :=
  finO (meRun w (wordX 0x30 rd ra 4 sel.toNat) 0 (fun s =>
    let e := w.engine.val
    let c := w.ctx.val
    if inPackage s e c then .next (trapHere e c cILLEGAL 0 s)
    else .next (retire e c (setCtx e c trapReturn s))) s)

/-- WAIT (R384). -/
def execWait (w : Issue) (rd ra : Fin 32) (sel : BitVec 12) (s : State) : Out3 :=
  finO (meRun w (wordX 0x30 rd ra 5 sel.toNat) 0 (fun s =>
    let e := w.engine.val
    let c := w.ctx.val
    let mask := fld (reg s e c ra).toNat 4 0
    let t := Nat.land mask (pendingBits (ectx s e c))
    if t = 0 then .next (block e c (.event mask rd) s)
    else
      let s := setCtx e c (fun x => { x with pending := x.pending &&& ~~~(BitVec.ofNat 64 t) }) s
      let s := setEngine e (fun g => { g with offer := true }) s
      .next (finish e c rd (BitVec.ofNat 64 t) s)) s)

/-- YIELD offers a context switch. -/
def execYield (w : Issue) (rd ra : Fin 32) (sel : BitVec 12) (s : State) : Out3 :=
  finO (meRun w (wordX 0x30 rd ra 6 sel.toNat) 0 (fun s =>
    .next (nextPc w.engine w.ctx (setEngine w.engine (fun g => { g with offer := true }) s))) s)

/-- DONE ends the work item (R390). -/
def execDoneItem (w : Issue) (rd ra : Fin 32) (sel : BitVec 12) (s : State) : Out3 :=
  finO (meRun w (wordX 0x30 rd ra 8 sel.toNat) 0 (fun s =>
    .next (packageEnd w.engine w.ctx (nextPc w.engine w.ctx s))) s)

/-! ### Moves (R408) -/

/-- A move starts: its ends must be in the reach of its context (R375, R392), and it sees what has reached
its observer (R408). -/
def startMove (e c rd : Nat) (desc : List Byte) (s : State) : State :=
  let x := ectx s e c
  let n := Config.moveLength desc
  let ok (a : Nat) : Bool := mayReach s e c n (placeOf a n)
  let m : Move :=
    { tag := x.nextTag, desc := desc, permitted := ok (Config.moveSource desc) && ok (Config.moveDest desc)
      asid := x.asid.toNat % 2 ^ 16, tenant := x.tenant.toNat, rwin := x.rwin }
  let s := setCtx e c (fun x => { x with moves := x.moves ++ [m], nextTag := x.nextTag + 1 })
    (seeReached (moveObserver (clusterOf e)) s)
  finish e c rd (BitVec.ofNat 64 m.tag) s

/-- DMA: the descriptor lies in local data memory. -/
def execDma (w : Issue) (rd ra : Fin 32) (s : State) : Out3 :=
  unitOp w rd ra 2 (fun s =>
    let e := w.engine.val
    let c := w.ctx.val
    let a := (reg s e c ra).toNat
    match placeOf a 32 with
    | .ldm off =>
      if !mayReach s e c 32 (.ldm off) then .next (trapHere e c cACCESS a s)
      else .next (localLoad w w.data (stampOf s e c ra) a 32 (startMove e c rd) s)
    | _ => .next (trapHere e c cACCESS a s)) s

/-- DMAWAIT: the status of the move; for a tag that names none a free value (assumption 8). -/
def execDmawait (w : Issue) (rd ra : Fin 32) (s : State) : Out3 :=
  unitOp w rd ra 3 (fun s =>
    let e := w.engine.val
    let c := w.ctx.val
    let tag := (reg s e c ra).toNat
    let s := setEngine e (fun g => { g with offer := true }) s
    match (ectx s e c).moves.find? fun m => m.tag == tag with
    | none => let (v, s) := draw (2 ^ 64) s; .next (finish e c rd (BitVec.ofNat 64 v) s)
    | some m => match m.done with
      | none => .next (block e c (.dma tag rd) s)
      | some st =>
        let s := setCtx e c (fun x => { x with moves := x.moves.filter fun k => k.tag != tag }) s
        .next (finish e c rd (BitVec.ofNat 64 st) s)) s

/-- DMA_MOVE_COMPLETE: a move has read its source.  `given` is what its ends give, `status` what they report. -/
def execDmaMoveComplete (engine : Fin 96) (ctx : Fin 4) (tag : BitVec 64) (given : MoveInput)
    (status : BitVec 8) (s : State) : Out3 :=
  match (ectx s engine ctx).moves.find? fun m => m.tag == tag.toNat && m.done.isNone && !m.writing with
  | none => .next s
  | some m =>
    if !engineRuns s engine then .next s
    else fin (moveGo engine ctx m given status.toNat s)

/-- WAKE posts a WAKE event to engine ra [6:0], context ra [9:8]. -/
def execWake (w : Issue) (rd ra : Fin 32) (s : State) : Out3 :=
  unitOp w rd ra 4 (fun s =>
    let e := w.engine.val
    let c := w.ctx.val
    let v := (reg s e c ra).toNat
    let t := fld v 6 0
    let s := if t < 96 && engineRuns s t then setEvent t (fld v 9 8) 3 s else s
    .next (nextPc e c s)) s

/-! ### Locks (R424, R425) -/

/-- The party of a context. -/
def ctxParty (e c : Nat) : Party := .engine (e * 4 + c)

/-- The checks of an engine lock operation: BAD_LOCK, NOT_PERMITTED (R416, R424). -/
def lockCheck (s : State) (e c v : Nat) : Option Nat :=
  if 4096 ≤ v then some 12
  else if inPackage s e c &&
      (match slotOf (ectx s e c) with
        | some k => lockTenant s v != (pkgSlot s k).tenant
        | none => true) then some 11
  else none

/-- Who holds a lock. -/
def holderIs (s : State) (l : Nat) (p : Party) : Bool :=
  match (lockOf s l).holder with
  | some h => h.party == p
  | none => false

def execAcquire (w : Issue) (rd ra : Fin 32) (s : State) : Out3 :=
  unitOp w rd ra 0x10 (fun s =>
    let e := w.engine.val
    let c := w.ctx.val
    let l := (reg s e c ra).toNat
    let p := ctxParty e c
    let res (v : Nat) (s : State) : Out3 := .next (finish e c rd (BitVec.ofNat 64 v) s)
    let x := ectx s e c
    let prio := fld x.priority.toNat 3 0
    match lockCheck s e c l with
    | some r => res r s
    | none =>
      if holderIs s l p then
        match x.granted with
        | some (g, orphan) =>
          -- granted meanwhile: complete at once, taking the GRANT bit
          if g = l then
            res (if orphan then 256 else 0) (setCtx e c (fun x => { x with
              granted := none, pending := withBit x.pending 1 false }) s)
          else res 4 s
        | none => res 4 s
      else if (lockOf s l).holder.isNone then res 0 (takeLock l p prio 0 (bump 0x8630 0 s))
      else if waitsFor s p == some l then .next (block e c (.lock l rd) s)
      else
        -- an earlier wait of this context, interrupted, is given up (assumption 9)
        let s := match waitsFor s p with | some l2 => removeWaiter l2 p s | none => s
        .next (block e c (.lock l rd) (enqueueWaiter l p prio 0 (bump 0x8630 0 s)))) s

def execRelease (w : Issue) (rd ra : Fin 32) (s : State) : Out3 :=
  unitOp w rd ra 0x11 (fun s =>
    let e := w.engine.val
    let c := w.ctx.val
    let l := (reg s e c ra).toNat
    let p := ctxParty e c
    let res (v : Nat) (s : State) : Out3 := .next (finish e c rd (BitVec.ofNat 64 v) s)
    match lockCheck s e c l with
    | some r => res r s
    | none => if holderIs s l p then res 0 (giveUp l p false s) else res 3 s) s

def execTryLock (w : Issue) (rd ra : Fin 32) (s : State) : Out3 :=
  unitOp w rd ra 0x12 (fun s =>
    let e := w.engine.val
    let c := w.ctx.val
    let l := (reg s e c ra).toNat
    let p := ctxParty e c
    let res (v : Nat) (s : State) : Out3 := .next (finish e c rd (BitVec.ofNat 64 v) s)
    match lockCheck s e c l with
    | some r => res r s
    | none =>
      if holderIs s l p then res 4 s
      else if (lockOf s l).holder.isNone then
        res 0 (takeLock l p (fld (ectx s e c).priority.toNat 3 0) 0 s)
      else res 1 (bump 0x8633 0 s)) s

/-! ### Undefined words (R378) -/

/-- Is a word one of Table 13-3? -/
def legalWord (n : Nat) : Bool :=
  let major := fld n 31 26
  let rd := fld n 25 21
  let ra := fld n 20 16
  let rb := fld n 15 11
  let func := fld n 10 0
  let imm := fld n 15 0
  let fn := fld n 15 12
  let sel := fld n 11 0
  if major = 0x01 then
    func ≤ 0x001 || (func == 0x002 && rb == 0) || (0x003 ≤ func && func ≤ 0x00C) ||
      (0x010 ≤ func && func ≤ 0x014) || func == 0x020 || func == 0x021 || (func == 0x022 && rb == 0) ||
      (0x030 ≤ func && func ≤ 0x034)
  else if 0x02 ≤ major && major ≤ 0x08 then true
  else if major = 0x09 then imm / 256 ≤ 4 || (0x10 ≤ imm / 256 && imm / 256 ≤ 0x14)
  else if major = 0x0A then ra == 0
  else if major = 0x0B then true
  else if major = 0x0C then func ≤ 7 || func == 0x20 || (0x24 ≤ func && func ≤ 0x27)
  else if major = 0x0D then func ≤ 4 || (0x20 ≤ func && func ≤ 0x22)
  else if 0x10 ≤ major && major ≤ 0x16 then true
  else if major = 0x17 || major = 0x1C then rd % 2 == 0
  else if 0x18 ≤ major && major ≤ 0x1B then true
  else if major = 0x1D then true
  else if major = 0x1E then func == 0
  else if major = 0x1F then (imm == 1 || imm == 2) && rd == 0 && ra == 0
  else if 0x20 ≤ major && major ≤ 0x25 then true
  else if 0x28 ≤ major && major ≤ 0x2A then true
  else if major = 0x30 then
    if fn = 1 || fn = 2 then sel ≤ 18 else 3 ≤ fn && fn ≤ 8
  else if major = 0x34 then fn == 0 && ((1 ≤ sel && sel ≤ 4) || (0x10 ≤ sel && sel ≤ 0x12))
  else false

/-- A word that is none of Table 13-3 traps ILLEGAL; a legal word is not this command's. -/
def execIllegalInstruction (w : Issue) (word : BitVec 32) (s : State) : Out3 :=
  if legalWord word.toNat then .next s
  else finO (meRun w word.toNat 0 (fun s => .next (trapHere w.engine w.ctx cILLEGAL 0 s)) s)

/-! ### What befalls a context -/

/-- At an instruction boundary: ready, or blocked in an instruction that is executed again. -/
def atBoundary (wt : EWait) : Bool :=
  match wt with
  | .ready | .event _ _ | .dma _ _ | .lock _ _ => true
  | _ => false

/-- With IE set, a pending event in the interrupt mask traps INTERRUPT (R384, R425). -/
def execInterruptTaken (engine : Fin 96) (ctx : Fin 4) (s : State) : Out3 :=
  let e := engine.val
  let c := ctx.val
  let x := ectx s e c
  if engineRuns s e && x.item.isSome && atBoundary x.wait && intDue s e c then fin (takeInterrupt e c s)
  else .next s

/-- A work item's budget reaches 0 (R385). -/
def execBudgetExhausted (engine : Fin 96) (ctx : Fin 4) (s : State) : Out3 :=
  let e := engine.val
  let c := ctx.val
  let x := ectx s e c
  if engineRuns s e && x.item.isSome && atBoundary x.wait && x.budget != 0 then
    fin (trapHere e c cBUDGET 0 (setCtx e c (fun x => { x with budget := 0 }) s))
  else .next s

/-- MT has reached a context's mtcmp: once per value (R384, R396). -/
def execMtcmpReached (engine : Fin 96) (ctx : Fin 4) (s : State) : Out3 :=
  let e := engine.val
  let c := ctx.val
  let x := ectx s e c
  if engineRuns s e && !x.mtcmpDone && x.mtcmp.toNat ≤ now s then
    fin (setEvent e c 2 (setCtx e c (fun x => { x with mtcmpDone := true }) s))
  else .next s

/-! ### Dispatch, package calls and activation -/

/-- A new work item that serves no descriptor: a lane or collective control packet, or an internal
firmware task (R385). -/
def execWorkItemDispatch (controlPacket : Bool) (s : State) : Out3 :=
  let items := s.me.items ++ [if controlPacket then .control else .internal]
  fin (dispatchItems items.length { s with me := { s.me with items := items } })

def execPackageCall (qn : Fin 1048576) (s : State) : Out3 := fin (packageCall qn s)

def execActivate (target source : BitVec 8) (instant : BitVec 64) (s : State) : Out3 :=
  fin (activate target.toNat source.toNat instant.toNat s)

def execActivationCancel (target : BitVec 8) (s : State) : Out3 := fin (activationCancel target.toNat s)

def execPackageRemove (target : BitVec 8) (s : State) : Out3 := fin (packageRemove target.toNat s)

def execActivationInstant (target : BitVec 8) (s : State) : Out3 :=
  fin (instantReached (.activation target.toNat) (activationInstant target.toNat) s)

def execQuiesceComplete (target : BitVec 8) (s : State) : Out3 := fin (quiesceComplete target.toNat s)

def execQuiesceTimeout (target : BitVec 8) (s : State) : Out3 := fin (quiesceTimeout target.toNat s)

end Sys2Proof.Machine
end

