-- ==== Sys2Proof/Machine/FaultCommands.lean ====
section
/-!
DEFINITION. The commands of the fault collector and of BREEZE (21_faults.md).
-/
namespace Sys2Proof.Machine

/-- FAULT_RAISE (R546, R547): source, instance and DATA. -/
def execFaultRaise (source : BitVec 8) (inst : BitVec 16) (data : BitVec 32) (s : State) : Out3 :=
  inAO (faultRaise source.toNat inst.toNat data.toNat) s

/-- CLEAR_SOURCE (R556). -/
def execClearSource (source : BitVec 8) (s : State) : Out3 :=
  if fullService s then fin (clearSource source.toNat s) else .next s

/-- CLEAR_ALL (R556). -/
def execClearAll (s : State) : Out3 := if fullService s then fin (clearAll s) else .next s

/-- UNFREEZE (R556). -/
def execUnfreeze (s : State) : Out3 := if fullService s then fin (unfreeze s) else .next s

/-- EMPTY (R556). -/
def execEmpty (s : State) : Out3 := if fullService s then fin (emptyHistory s) else .next s

/-- FAULT_INJECTION (R557): the management port is path bit 0. -/
def execFaultInjection (source : BitVec 8) (s : State) : Out3 :=
  if fullService s then fin (takeRaise source.toNat 0 0 s) else .next s

/-- Has the keepalive been written within the last 2 ms? -/
def keepaliveFresh (s : State) : Bool := s.fc.keepalive && decide (ticks s ≤ s.fc.keepaliveAt + ticksOf 2 1000)

/-- Has a half-period of 500 µs, less 5 %, passed since the last boundary? -/
def boundaryDue (s : State) : Bool :=
  match s.fc.boundaryAt with
  | some t => decide (t + ticksOf 475 1000000 ≤ ticks s)
  | none => true

/-- A half-period boundary of BREEZE (R555); `written`: the keepalive has been written since the last one. -/
def breeze (written : Bool) (s : State) : State :=
  let runs : Bool := s.rs.phase == .running || s.rs.phase == .doldrums
  let s := if written && runs then { s with fc := { s.fc with keepalive := true, keepaliveAt := ticks s } } else s
  if boundaryDue s then
    { s with fc := { s.fc with
      boundaryAt := some (ticks s)
      breeze := if keepaliveFresh s && !s.fc.safe then !s.fc.breeze else s.fc.breeze } }
  else s

/-- BREEZE_TOGGLE (R555). -/
def execBreezeToggle (written : Bool) (s : State) : Out3 := inAO (breeze written) s

/-- BREEZE_KEEPALIVE_EXPIRY (R555). -/
def execBreezeKeepaliveExpiry (s : State) : Out3 :=
  inAO (fun s => if keepaliveFresh s then s else { s with fc := { s.fc with keepalive := false } }) s

end Sys2Proof.Machine
end

