-- ==== Sys2Proof/Machine/FlowCommands.lean ====
section
/-!
DEFINITION. The commands of credits, scheduling and gates (10_flow_and_scheduling.md).
-/
namespace Sys2Proof.Machine

/-- PACKET_START (R303). -/
def execPacketStart (p : Fin 72) (s : State) : Out3 := inCX (packetStart p) s

/-- GATE_BOUNDARY (R307). -/
def execGateBoundary (p : Fin 72) (s : State) : Out3 := inCX (fun s => assignTags p (refreshGates p s)) s

/-- QUEUE_SAMPLE (R316 to R318): `skip`, the sampler was still busy. -/
def execQueueSample (skip : Bool) (s : State) : Out3 := inCX (sampleDue skip) s

/-- The interval, or the 1 ms after training, has passed on an ACTIVE link: a marker is due. -/
def markerInterval (p : Nat) (s : State) : State :=
  if (portLink s p).state == .active && (portFlow s p).markerAt ≤ ticks s then
    setPL p (fun x => { x with markDue := true })
      (setFlow p (fun x => { x with markerAt := ticks s + rc s 0x6803 0 }) s)
  else s

/-- SYNC_MARKER_INTERVAL (R298). -/
def execSyncMarkerInterval (p : Fin 72) (s : State) : Out3 := inCX (markerInterval p) s

end Sys2Proof.Machine
end

