-- ==== Sys2Proof/Machine/LockCommands.lean ====
section
/-!
DEFINITION. The lock commands of host clients (R427 to R429, Table 14-3).
-/
namespace Sys2Proof.Machine

/-- The fields of a lock command word besides OP (Table 14-5). -/
structure LockWord where
  priority : Nat
  token : Nat
  eqn : Nat
  rsvd : Nat
  lock : Nat

/-- Are the fields those of a valid command of a function: reserved bits 0, PRIORITY only where it
belongs, EQN a READY EVENT queue of the function (R427)? -/
def lockWordOk (s : State) (fn : Nat) (w : LockWord) (prioUsed : Bool) : Bool :=
  w.rsvd == 0 && (prioUsed || w.priority == 0) && isEventQueue s fn w.eqn &&
    (queue s w.eqn).state == .ready

/-- LOCK_RESULT (Table 14-6). -/
def lockResult (w : LockWord) (code : Nat) (s : State) : State :=
  lockEvent w.eqn 0x0202 w.token w.lock code 0 s

/-- The frame of every host lock command: discarded while the BARs are not served (R454); invalid ones
counted; NOT_PERMITTED under R416. -/
def lockCommand (fn : Nat) (w : LockWord) (prioUsed : Bool) (f : State → State) (s : State) : Out3 :=
  if !barsLive s fn then .next s
  else if !lockWordOk s fn w prioUsed then fin (bump 0x8631 0 s)
  else if !tenantOk s fn (lockTenant s w.lock) then fin (lockResult w 11 s)
  else fin (f s)

/-- LOCK_GRANT with IMMEDIATE. -/
def grantNow (w : LockWord) (p : Party) (s : State) : State :=
  let s := takeLock w.lock p w.priority w.eqn s
  lockEvent w.eqn 0x0200 w.token w.lock 2 (lockOf s w.lock).waiters.length s

def partyHolds (s : State) (l : Nat) (p : Party) : Bool :=
  match (lockOf s l).holder with
  | some h => h.party == p
  | none => false

/-- Is there no waiter entry for a host client: 384 of the module's 8 192, and of the 8 191 of a lock that a host
holds, stay for the contexts (R417)? -/
def noWaiterSlot (s : State) (l : Nat) : Bool :=
  let host (w : Waiter) : Bool := match w.party with | .host _ _ => true | _ => false
  let k := lockOf s l
  8192 - 384 ≤ hostWaiters s ||
    ((match k.holder with | some ⟨.host _ _, _, _, _, _, _⟩ => true | _ => false) &&
      8191 - 384 ≤ (k.waiters.filter host).length)

def execLockAcquire (fn : Fin 514) (priority : BitVec 4) (token : BitVec 16) (eqn : BitVec 20)
    (rsvd : BitVec 8) (lock : BitVec 12) (s : State) : Out3 :=
  let w : LockWord := ⟨priority.toNat, token.toNat, eqn.toNat, rsvd.toNat, lock.toNat⟩
  lockCommand fn w true (fun s =>
    let p : Party := .host fn w.token
    if (waitsFor s p).isSome then lockResult w 9 s
    else if partyHolds s w.lock p then lockResult w 4 s
    else if (lockOf s w.lock).holder.isNone then grantNow w p (bump 0x8630 0 s)
    else if noWaiterSlot s w.lock then lockResult w 8 s
    else enqueueWaiter w.lock p w.priority w.eqn (bump 0x8630 0 s)) s

def execLockTry (fn : Fin 514) (priority : BitVec 4) (token : BitVec 16) (eqn : BitVec 20)
    (rsvd : BitVec 8) (lock : BitVec 12) (s : State) : Out3 :=
  let w : LockWord := ⟨priority.toNat, token.toNat, eqn.toNat, rsvd.toNat, lock.toNat⟩
  lockCommand fn w true (fun s =>
    let p : Party := .host fn w.token
    if partyHolds s w.lock p then lockResult w 4 s
    else if (lockOf s w.lock).holder.isNone then grantNow w p s
    else lockResult w 1 (bump 0x8633 0 s)) s

def execLockRelease (fn : Fin 514) (priority : BitVec 4) (token : BitVec 16) (eqn : BitVec 20)
    (rsvd : BitVec 8) (lock : BitVec 12) (s : State) : Out3 :=
  let w : LockWord := ⟨priority.toNat, token.toNat, eqn.toNat, rsvd.toNat, lock.toNat⟩
  lockCommand fn w false (fun s =>
    let p : Party := .host fn w.token
    if partyHolds s w.lock p then giveUp w.lock p false s else lockResult w 3 s) s

def execLockCancel (fn : Fin 514) (priority : BitVec 4) (token : BitVec 16) (eqn : BitVec 20)
    (rsvd : BitVec 8) (lock : BitVec 12) (s : State) : Out3 :=
  let w : LockWord := ⟨priority.toNat, token.toNat, eqn.toNat, rsvd.toNat, lock.toNat⟩
  lockCommand fn w false (fun s =>
    let p : Party := .host fn w.token
    if partyHolds s w.lock p then lockResult w 6 s
    else if (lockOf s w.lock).waiters.any (fun v => v.party == p) then
      lockResult w 5 (removeWaiter w.lock p s)
    else lockResult w 7 s) s

/-! ### Patrol scrub and stack bring-up (R433, R443) -/

/-- Is the next granule of a scrub pass due: the granules of a pass are spread over its time? -/
def scrubDue (s : State) (t : Stack) : Bool :=
  let n := stackBytes / 32
  t.passTicks == 0 || t.passAt + t.passTicks * (if t.scrub = 0 then n else t.scrub) / n ≤ ticks s

/-- Patrol scrub reads the next granule of a stack; `ecc` is what its code reports. -/
def execScrubRead (k : Fin 2) (ecc : Ecc) (s : State) : Out3 :=
  if !stackWorks s k || !scrubDue s (stack s k) then .next s
  else
    let g := k.val * (stackBytes / 32) + (stack s k).scrub
    let t0 := ticks s
    let pass := rc s 0x8830 0 * 2 ^ 32
    let s := setStack k (fun t => { t with
      scrub := (t.scrub + 1) % (stackBytes / 32)
      passAt := if t.scrub = 0 then t0 else t.passAt
      passTicks := if t.scrub = 0 then pass else t.passTicks }) s
    let s := bumpStack k 6 1 s
    if isPoisoned s g then fin s
    else match ecc with
      | .clean => fin s
      | .correctable => fin (cmRecord 1 k (granLocal g) 1 (bump 0x8840 k s))
      | .uncorrectable => fin (poisonGranule g 1 s)

/-- HBM bring-up ends: WORKING, or ABSENT where the stack failed to train (R433). -/
def execStackTrainingComplete (k : Fin 2) (ok : Bool) (s : State) : Out3 :=
  if (stack s k).state == .training && domOn s (dHB k) then
    let home := ok && (k = 0 || !stackWorks s 0)
    fin (when_ home mirrorPlaced (setStack k (fun t => { t with state := if ok then .working else .absent }) s))
  else .next s

/-- A stack is removed from service: its domain left ON, its controller reports loss, or the threshold
of 0x8820:00 (R433, R445). -/
def execStackLost (k : Fin 2) (s : State) : Out3 :=
  if stackWorks s k then fin (later (.stackLost k) s) else .next s

end Sys2Proof.Machine
end

