-- ==== Sys2Proof/Machine/HostCommands.lean ====
section
/-!
DEFINITION. The commands of the host links, the register window and the mailbox (16_register_window.md).
-/
namespace Sys2Proof.Machine

/-! ### Writes of the host (R454 to R465) -/

/-- A lock command word (Table 14-5): one OP that is not defined is counted. -/
def lockWrite (fn : Fin 514) (w : Nat) (s : State) : Out3 :=
  let prio : BitVec 4 := BitVec.ofNat 4 (fld w 59 56)
  let token : BitVec 16 := BitVec.ofNat 16 (fld w 55 40)
  let eqn : BitVec 20 := BitVec.ofNat 20 (fld w 39 20)
  let rsvd : BitVec 8 := BitVec.ofNat 8 (fld w 19 12)
  let lock : BitVec 12 := BitVec.ofNat 12 (fld w 11 0)
  let op := fld w 63 60
  if op = 1 then execLockAcquire fn prio token eqn rsvd lock s
  else if op = 2 then execLockRelease fn prio token eqn rsvd lock s
  else if op = 3 then execLockTry fn prio token eqn rsvd lock s
  else if op = 4 then execLockCancel fn prio token eqn rsvd lock s
  else fin (bump 0x8631 0 s)

/-- A write to BAR2: MB_SUBMIT and LOCK_CMD are commands of their own. -/
def bar2Command (fn : Fin 514) (off : Nat) (data : List Byte) (s : State) : Out3 :=
  if off = 0x38 && data.length = 8 then fin (mailboxSubmit fn (leNat data % 65536) s)
  else if off = 0x28 && data.length = 8 then lockWrite fn (leNat data) s
  else fin (bar2Write fn off data s)

/-- REGISTER_WRITE (R456, R457): a memory write to a BAR, with its EP bit, or a configuration write.  BAR4 is
read-only. -/
def execRegisterWrite (fn : Fin 514) (loc : RegLoc) (data : List Byte) (poisoned : Bool) (s : State) : Out3 :=
  match loc with
  | .config r => fin (configWrite fn r s)
  | .bar0 off =>
    if !barsLive s fn || data.isEmpty then .next s
    else if poisoned then fin (poisonedWrite fn s) else fin (bar0Write fn off.toNat data s)
  | .bar2 off =>
    if !barsLive s fn || data.isEmpty then .next s
    else if poisoned then fin (poisonedWrite fn s) else bar2Command fn off.toNat data s
  | .bar4 _ =>
    if !barsLive s fn || data.isEmpty then .next s
    else if poisoned then fin (poisonedWrite fn s) else .next s

/-- MAILBOX_SUBMIT (R464). -/
def execMailboxSubmit (fn : Fin 514) (len : BitVec 16) (s : State) : Out3 := fin (mailboxSubmit fn len.toNat s)

/-- AQ_ENABLE (R461). -/
def execAqEnable (fn : Fin 514) (s : State) : Out3 := fin (aqControl fn 1 s)

/-- AQ_DISABLE (R461). -/
def execAqDisable (fn : Fin 514) (s : State) : Out3 := fin (aqControl fn 2 s)

/-- AQ_RESUME (R461). -/
def execAqResume (fn : Fin 514) (s : State) : Out3 := fin (aqControl fn 3 s)

/-- AQ_RESUME_SKIP (R461). -/
def execAqResumeSkip (fn : Fin 514) (s : State) : Out3 := fin (aqControl fn 4 s)

/-- AQ_RESIZE_CQ (R461). -/
def execAqResizeCq (fn : Fin 514) (s : State) : Out3 := fin (aqControl fn 5 s)

/-- GROUP_WRITE_TAKES_EFFECT (R459): in the translation group, or in the admin group. -/
def execGroupWriteTakesEffect (fn : Fin 514) (translation : Bool) (s : State) : Out3 :=
  fin (groupTakesEffect fn translation s)

/-! ### Functions and links (R448 to R454, R511) -/

/-- FUNCTION_LEVEL_RESET (R454). -/
def execFunctionLevelReset (fn : Fin 514) (s : State) : Out3 := fin (functionReset fn s)

/-- FLR_COMPLETE (R454). -/
def execFlrComplete (fn : Fin 514) (s : State) : Out3 := fin (functionResetDone fn s)

/-- HOST_LINK_UP (R451): width, rate and FLIT mode as negotiated. -/
def execHostLinkUp (k : Fin 2) (width rate : BitVec 8) (flit : Bool) (s : State) : Out3 :=
  fin (hostLinkUp k width.toNat rate.toNat flit s)

/-- HOST_LINK_DOWN (R450): link-down or hot reset. -/
def execHostLinkDown (k : Fin 2) (s : State) : Out3 := fin (hostLinkDown k s)

/-- PERST_ASSERT (R511). -/
def execPerstAssert (k : Fin 2) (s : State) : Out3 := fin (perstLow k s)

/-- PERST_DEASSERT (R511): whether HLk_REFCLK is valid. -/
def execPerstDeassert (k : Fin 2) (refclk : Bool) (s : State) : Out3 := fin (perstHigh k refclk s)

end Sys2Proof.Machine
end

