-- ==== Sys2Proof/Machine/LinkCommands.lean ====
section
/-!
DEFINITION. The commands of the link layer (11_link_layer.md).
-/
namespace Sys2Proof.Machine

/-! ### Cells (R320 to R333) -/

/-- CELL_TRANSMIT (R329): one cell slot of a port. -/
def execCellTransmit (p : Fin 72) (s : State) : Out3 := inCX (cellSlot p) s

/-- A cell arrives on a port.  Its own KIND, once its CRC and format have been checked, says what it is
(R322, R324), whichever of the six commands brings it. -/
def cellCommand (p : Nat) (c : RawCell) (s : State) : Out3 := inCX (receiveCell p c none) s

/-- DATA_CELL_RECEIVE (R330). -/
def execDataCellReceive (p : Fin 72) (c : RawCell) (s : State) : Out3 := cellCommand p c s

/-- CREDIT_CELL_RECEIVE (R334). -/
def execCreditCellReceive (p : Fin 72) (c : RawCell) (s : State) : Out3 := cellCommand p c s

/-- SYNC_MARK_RECEIVE (R299). -/
def execSyncMarkReceive (p : Fin 72) (c : RawCell) (s : State) : Out3 := cellCommand p c s

/-- SYNC_REPLY_RECEIVE (R337). -/
def execSyncReplyReceive (p : Fin 72) (c : RawCell) (s : State) : Out3 := cellCommand p c s

/-- TRAIN_CELL_RECEIVE (R340). -/
def execTrainCellReceive (p : Fin 72) (c : RawCell) (s : State) : Out3 := cellCommand p c s

/-- IDLE_CELL_RECEIVE (R322, R358): `matched`, rate matching is to delete this cell (true) or to insert one
beside it (false). -/
def execIdleCellReceive (p : Fin 72) (c : RawCell) (matched : Option Bool) (s : State) : Out3 :=
  inCX (receiveCell p c matched) s

/-! ### Timers and training (R332, R339 to R343) -/

/-- REPLAY_TIMEOUT (R332). -/
def execReplayTimeout (p : Fin 72) (s : State) : Out3 := inCX (replayTimeout p) s

/-- SILENCE_LIMIT_EXPIRY (R342). -/
def execSilenceLimitExpiry (p : Fin 72) (s : State) : Out3 := inCX (silence p) s

/-- GRACE_EXPIRY (R341). -/
def execGraceExpiry (p : Fin 72) (s : State) : Out3 := inCX (graceExpiry p) s

/-- HELD_RETRY_EXPIRY (R341). -/
def execHeldRetryExpiry (p : Fin 72) (s : State) : Out3 := inCX (heldRetry p) s

/-- RETRAIN (R341): 1 is written to 0x5830:p. -/
def execRetrain (p : Fin 72) (s : State) : Out3 := inCX (retrain p) s

/-- ROUND_TRIP_SAMPLE (R339): a sample in ticks. -/
def execRoundTripSample (p : Fin 72) (sample : BitVec 32) (s : State) : Out3 :=
  inCX (roundTrip p sample.toNat) s

end Sys2Proof.Machine
end

