-- ==== Sys2Proof/Machine/MatchCommands.lean ====
section
/-!
DEFINITION. The commands of message matching (04_message_matching.md).
-/
namespace Sys2Proof.Machine

/-! ### Domains (R116, R117, R141) -/

/-- DOMAIN_OPEN: the domain command word (Table 04-1) with ACTION 1. -/
def execDomainOpen (domain tenant : BitVec 16) (eqn : BitVec 20) (eager : BitVec 9) (uqHeaders : BitVec 15)
    (uqMib : BitVec 14) (rsvd : BitVec 30) (s : State) : Out3 :=
  inCX (domCommand ((1 : BitVec 8) ++ domain ++ tenant ++ eqn ++ eager ++ uqHeaders ++ uqMib ++ rsvd).toNat) s

/-- DOMAIN_CLOSE: the same with ACTION 2. -/
def execDomainClose (domain : BitVec 16) (rsvd : BitVec 104) (s : State) : Out3 :=
  inCX (domCommand ((2 : BitVec 8) ++ domain ++ rsvd).toNat) s

/-- DOMAIN_CLOSE_COMPLETE (R141). -/
def execDomainCloseComplete (domain : BitVec 16) (s : State) : Out3 := inCX (domCloseComplete domain.toNat) s

/-! ### Receives (R136) -/

/-- RECV_POST: the next POST of a RECV queue. -/
def execRecvPost (qn : BitVec 20) (s : State) : Out3 := fin (recvPost qn.toNat s)

/-- RECV_CANCEL: the next CANCEL of a RECV queue. -/
def execRecvCancel (qn : BitVec 20) (s : State) : Out3 := fin (recvCancel qn.toNat s)

/-! ### Sending, and what arrives -/

/-- TSEND (R125, R126, R132). -/
def execTsend (qn : BitVec 20) (s : State) : Out3 := fin (tsend qn.toNat s)

/-- TSEND_ARRIVE (R133 to R140). -/
def execTsendArrive (p : Packet) (s : State) : Out3 := packetCommand tTSEND p requestArrive s

/-- RTS_ARRIVE (R133). -/
def execRtsArrive (p : Packet) (s : State) : Out3 := packetCommand tRTS p requestArrive s

/-- SKIP_ARRIVE (R134). -/
def execSkipArrive (p : Packet) (s : State) : Out3 := packetCommand tSKIP p requestArrive s

/-- SKIP_NOTICE_RESEND (R134): flow and RSN of the notice. -/
def execSkipNoticeResend (flow : Nat) (rsn : BitVec 24) (s : State) : Out3 :=
  fin (lossInterval flow rsn.toNat true s)

/-- MU_RETRY_RESEND (R140): the refusal had the code MU_RETRY. -/
def execMuRetryResend (flow : Nat) (rsn : BitVec 24) (s : State) : Out3 :=
  fin (retryInterval [rMURETRY] flow rsn.toNat s)

/-- RGET_ARRIVE (R131). -/
def execRgetArrive (p : Packet) (s : State) : Out3 := packetCommand tRGET p requestArrive s

end Sys2Proof.Machine
end

