-- ==== Sys2Proof/Machine/MgmtCommands.lean ====
section
/-!
DEFINITION. The commands of the management subsystem: sensors, telemetry, the log and updates
(20_management.md).
-/
namespace Sys2Proof.Machine

/-! ### Sensors (R524, R368) -/

/-- Bias and output of a laser: above the bias limit it is at its end of life, raised once per crossing. -/
def scanLaser (k bias output : Nat) (s : State) : State :=
  let p := k / 4
  let l := k % 4
  let limit := rc s 0x5065 0
  let was := limit < (laneOf (portLanes s p) l).biasScan
  let s := setLane p l (fun n => { n with
    biasScan := bias, outputScan := toSigned 32 output, endOfLife := n.endOfLife || decide (limit < bias) }) s
  if limit < bias then (if was then s else raiseFault 17 k bias s)
  else if was then endCondition 17 k s else s

/-- The temperature of an optical engine: the spec does not state its range (assumption 34). -/
def scanOptical (k : Nat) (v : BitVec 32) (s : State) : State :=
  let hot := s.px.hot.contains k
  if Config.opticalInRange (toSigned 32 v.toNat) then
    if hot then endCondition 18 k { s with px := { s.px with hot := s.px.hot.filter fun x => x != k } } else s
  else if hot then s
  else raiseFault 18 k v.toNat { s with px := { s.px with hot := s.px.hot ++ [k] } }

/-- The readings of the port complex. -/
def scanOptics (x : Scan) (s : State) : State :=
  let s := foldSt (fun (t : Fin 288 × BitVec 32 × BitVec 32) s =>
    scanLaser t.1.val t.2.1.toNat t.2.2.toNat s) x.lasers s
  let s := foldSt (fun (t : Fin 72 × BitVec 32) s =>
    let p := t.1.val
    let s := setLanes p (fun y => { y with rxPowerScan := t.2.toInt }) s
    -- a fibre below the threshold is a loss of signal for each of its lanes (R368)
    foldSt (fun l s => when_ (laneOf (portLanes s p) l).cdr (signalLost p l t.2.toInt) s) allLanes s) x.rx s
  foldSt (fun (t : Fin 9 × BitVec 32) s => scanOptical t.1.val t.2 s) x.optical s

/-- SENSOR_SCAN (R524): what the sensors read. -/
def execSensorScan (x : Scan) (s : State) : Out3 :=
  if fullService s && scanDue s then
    fin (scanOptics x (scanSensors x { s with ms := { s.ms with scanAt := some (ticks s) } }))
  else .next s

/-- TELEMETRY_SAMPLE (R525). -/
def execTelemetrySample (s : State) : Out3 := if fullService s then fin (telemetryDue s) else .next s

/-- LOG_COALESCE_FLUSH (R528). -/
def execLogCoalesceFlush (s : State) : Out3 := inAO logFlush s

/-! ### Updates (R532 to R535), by firmware or by the recovery service (R516) -/

/-- Is the update object served? -/
def updateServed (f : State → State) (s : State) : Out3 :=
  match s.rs.phase with
  | .running | .doldrums | .waiting => fin (f s)
  | _ => .next s

/-- UPDATE_BEGIN (R533): by the session that will own it. -/
def execUpdateBegin (session : BitVec 30) (target : BitVec 8) (length : BitVec 32) (s : State) : Out3 :=
  updateServed (updateBegin session.toNat target.toNat length.toNat) s

/-- UPDATE_FINISH (R534). -/
def execUpdateFinish (session : BitVec 30) (s : State) : Out3 := updateServed (updateFinish session.toNat) s

/-- UPDATE_VERIFY_COMPLETE (R534); a bundle that the boot ROM waits for is then booted (R513). -/
def execUpdateVerifyComplete (s : State) : Out3 := updateServed (fun s => bundleBoot (updateVerify s)) s

/-- UPDATE_ABORT (R533). -/
def execUpdateAbort (session : BitVec 30) (s : State) : Out3 := updateServed (updateAbort session.toNat) s

/-- UPDATE_COPY (R535). -/
def execUpdateCopy (source target : BitVec 8) (s : State) : Out3 :=
  updateServed (updateCopy source.toNat target.toNat) s

/-- BOOT_ONCE (R535). -/
def execBootOnce (target : BitVec 8) (s : State) : Out3 := updateServed (bootOnce target.toNat) s

/-- UPDATE_ERASE (R535). -/
def execUpdateErase (target : BitVec 8) (s : State) : Out3 := updateServed (updateErase target.toNat) s

end Sys2Proof.Machine
end

