-- ==== Sys2Proof/Machine/OpticsCommands.lean ====
section
/-!
DEFINITION. The commands of the lanes and optics (12_lanes_and_optics.md).
-/
namespace Sys2Proof.Machine

/-- A command of the lanes of a port: in its sector and optical domains. -/
def inLanes (p : Nat) (f : State → State) (s : State) : Out3 :=
  if domOn s (dSC (p / 8)) && domOn s (dOE (p / 8)) then fin (f s) else .next s

/-! ### Bring-up (R359, R360) -/

/-- The training time has passed: the framed stream starts (step 3). -/
def trainingTime (p : Nat) (s : State) : State :=
  let x := portLanes s p
  if x.bringUp == .prbs && x.stepAt ≤ ticks s then
    let s := refreshLasers p (setLanes p (fun x => { x with
      bringUp := .framed, waiting := 0, waitingLen := 0, codewords := 0 }) s)
    sendMarker p (portLanes s p).txSet s
  else s

/-- TRAINING_TIME_EXPIRY (R359). -/
def execTrainingTimeExpiry (p : Fin 72) (s : State) : Out3 := inLanes p (trainingTime p) s

/-- Is the peaking of a lane fixed (0x5021:p), and its step? -/
def fixedPeaking (s : State) (p l : Nat) : Option Nat :=
  let b := beAt (liveBytes s 0x5021 p) l 1
  if bit b 7 then some (fld b 3 0) else none

/-- A lane whose power is above the threshold gains CDR lock; the sweep picks `step`. -/
def cdrLock (p l step : Nat) (power : Int) (s : State) : State :=
  if !receiving s p || !hasSignal s p power then s
  else setLane p l (fun n => { n with cdr := true, peaking := (fixedPeaking s p l).getD step }) s

/-- CDR_LOCK_ACQUIRED (R356, R359). -/
def execCdrLockAcquired (p : Fin 72) (lane : LanePower) (step : Fin 16) (s : State) : Out3 :=
  inLanes p (fun s => refreshGood p (cdrLock p lane.lane step lane.power.toInt s)) s

/-- ALIGNMENT_MARKER_RECEIVE (R353 to R355): a marker on a receive lane, at the spacing of a scheduled one or
not, with the BIP8 mismatches and the skew found. -/
def execAlignmentMarkerReceive (p : Fin 72) (lane : Fin 4) (marker : BitVec 128) (scheduled : Bool)
    (bips skew : BitVec 16) (s : State) : Out3 :=
  inLanes p (markerArrive p lane marker.toNat scheduled bips.toNat skew.toNat) s

/-- A codeword: where the lanes come to be locked, Link Layer hears of it (step 6). -/
def codewordArrive (p : Nat) (errs : List Nat) (cells : Nat) (s : State) : State :=
  let s := codeword p errs cells s
  if fecReady s p then lanesLocked p (startDwell p s) else s

/-- CODEWORD_DECODE (R352): symbol errors found on each lane, and the cells that overlap the codeword. -/
def execCodewordDecode (p : Fin 72) (e0 e1 e2 e3 : BitVec 16) (cells : BitVec 4) (s : State) : Out3 :=
  inLanes p (codewordArrive p [e0.toNat, e1.toNat, e2.toNat, e3.toNat] cells.toNat) s

/-- LANE_LOCK_LOSS (R364): CDR lock, or marker lock only. -/
def execLaneLockLoss (p : Fin 72) (lane : Fin 4) (cdr : Bool) (s : State) : Out3 :=
  inLanes p (laneLost p lane cdr) s

/-- LOSS_OF_SIGNAL (R368): the lane and the power found on it. -/
def execLossOfSignal (p : Fin 72) (lane : LanePower) (s : State) : Out3 :=
  inLanes p (signalLost p lane.lane lane.power.toInt) s

/-- Bring-up takes too long: a restart after 0..10 ms, which is a free value. -/
def bringUpTimeout (p : Nat) (s : State) : State :=
  let x := portLanes s p
  if (x.bringUp == .prbs || x.bringUp == .framed) && x.restartAt.isNone &&
      x.limitAt ≤ ticks s then
    let (d, s) := draw (ticksOf 10 1000 + 1) s
    setLanes p (fun x => { x with restartAt := some (ticks s + d) }) (bump 0x5019 p s)
  else s

/-- BRING_UP_TIMEOUT (R360). -/
def execBringUpTimeout (p : Fin 72) (s : State) : Out3 := inLanes p (bringUpTimeout p) s

/-- The delay is over. -/
def bringUpRestart (p : Nat) (s : State) : State :=
  match (portLanes s p).restartAt with
  | some t => if t ≤ ticks s then startBringUp p s else s
  | none => s

/-- BRING_UP_RESTART (R360). -/
def execBringUpRestart (p : Fin 72) (s : State) : Out3 := inLanes p (bringUpRestart p) s

/-! ### Lull (R361 to R363) -/

/-- Was the payload sent in the dwell below 0x5011:00 % of the port's present payload rate? -/
def payloadLow (s : State) (p : Nat) : Bool :=
  let x := portLanes s p
  decide (x.dwellPayload * 2 ^ 32 * 100 < rc s 0x5011 0 * payloadStep s p * (ticks s - x.dwellFrom))

/-- A dwell is over, and the next one starts: where the payload stayed low in it, one step narrower. -/
def lullDwell (p : Nat) (s : State) : State :=
  let x := portLanes s p
  if x.bringUp != .locked || ticks s < x.dwellEnd then s
  else
    let low := payloadLow s p
    let s := startDwell p s
    if rc s 0x5010 p = 2 && low && x.widenTo.isNone && 1 < lanesIn x.txSet then
      changeSet p (laneSet x.peerRxGood (lanesIn x.txSet / 2)) .load s
    else s

/-- LULL_DWELL_EXPIRY (R362). -/
def execLullDwellExpiry (p : Fin 72) (s : State) : Out3 := inLanes p (lullDwell p) s

/-- An egress depth has reached its threshold: the widest good set. -/
def lullDepth (p : Nat) (s : State) : State :=
  let deep : Bool := (rangeFrom 0 20).any fun v => rc s 0x5013 0 ≤ vcDepth s p v
  if rc s 0x5010 p = 2 && (portLanes s p).bringUp == .locked && deep then
    startWidening p (laneSet (widerGood s p) 4) s
  else s

/-- LULL_EXIT_DEPTH (R362). -/
def execLullExitDepth (p : Fin 72) (s : State) : Out3 := inLanes p (lullDepth p) s

/-- The lanes that have been in the peer's RX_GOOD for 0x5018:00. -/
def heldGood (s : State) (p : Nat) : Nat :=
  laneBits fun l => match (laneOf (portLanes s p) l).restoreAt with | some t => decide (t ≤ ticks s) | none => false

/-- Every lane of a wider set has been good for the hold: widen. -/
def laneRestore (p : Nat) (s : State) : State :=
  if rc s 0x5010 p ≠ 0 && (portLanes s p).bringUp == .locked then startWidening p (laneSet (heldGood s p) 4) s
  else s

/-- LANE_RESTORE_HOLD_EXPIRY (R362). -/
def execLaneRestoreHoldExpiry (p : Fin 72) (s : State) : Out3 := inLanes p (laneRestore p) s

/-- The lasers of the lanes to be added are warm: markers go out on them. -/
def warmUp (p : Nat) (s : State) : State :=
  let x := portLanes s p
  if x.widenTo.isSome && !x.warm && x.stepAt ≤ ticks s then
    widenMarkers p s
  else s

/-- WARM_UP_EXPIRY (R363). -/
def execWarmUpExpiry (p : Fin 72) (s : State) : Out3 := inLanes p (warmUp p) s

/-- The lanes to be added have not come good: the set stays, the attempt is counted. -/
def wideningTimeout (p : Nat) (s : State) : State :=
  let x := portLanes s p
  if x.widenTo.isSome && x.limitAt ≤ ticks s then
    endWidening p s
  else s

/-- WIDENING_TIMEOUT (R363). -/
def execWideningTimeout (p : Fin 72) (s : State) : Out3 := inLanes p (wideningTimeout p) s

/-! ### Equaliser, bit-slip, eye scan (R356, R365, R367) -/

/-- A step of the tracking, one up or down within 0..15, at most one in 1 ms. -/
def peakingTrack (p l : Nat) (up : Option Bool) (s : State) : State :=
  let n := laneOf (portLanes s p) l
  if (fixedPeaking s p l).isSome || !n.cdr || ticks s < n.trackAt then s
  else match up with
    | none => s
    | some up =>
      let step := if up then min 15 (n.peaking + 1) else n.peaking - 1
      setLane p l (fun n => { n with peaking := step, trackAt := ticks s + ticksOf 1 1000 }) s

/-- PEAKING_TRACK (R356). -/
def execPeakingTrack (p : Fin 72) (lane : Fin 4) (up : Option Bool) (s : State) : Out3 :=
  inLanes p (peakingTrack p lane up) s

/-- BIT_SLIP (R365). -/
def execBitSlip (p : Fin 72) (lane : Fin 4) (s : State) : Out3 := inLanes p (bitSlip p lane) s

/-- EYE_SCAN (R367): the command word of Table 12-7. -/
def execEyeScan (port : BitVec 7) (lane eye : BitVec 2) (hstep : BitVec 6) (voff dwell : BitVec 8)
    (rsvd : BitVec 95) (s : State) : Out3 :=
  inCX (eyeScan (port ++ lane ++ eye ++ hstep ++ voff ++ dwell ++ rsvd).toNat) s

/-- EYE_SCAN_COMPLETE (R367): the sector, and the symbols that disagreed. -/
def execEyeScanComplete (k : Fin 9) (errors : BitVec 64) (s : State) : Out3 :=
  inDomain (dSC k) (eyeScanDone k errors.toNat) s

/-! ### Lasers (R368) -/

/-- A laser has been low for 10 µs: off, faulty, and raised with its output. -/
def laserLow (p l output : Nat) (s : State) : State :=
  if (laneOf (portLanes s p) l).laser then
    let s := setLane p l (fun n => { n with laserFault := true, outputScan := toSigned 32 output }) s
    raiseFault 16 (p * 4 + l) output (refreshLasers p s)
  else s

/-- LASER_OUTPUT_LOW_EXPIRY (R368): its output in 0.01 dBm, signed. -/
def execLaserOutputLowExpiry (p : Fin 72) (lane : Fin 4) (output : BitVec 32) (s : State) : Out3 :=
  inDomain (dOE (p.val / 8)) (laserLow p lane output.toNat) s

end Sys2Proof.Machine
end

