-- ==== Sys2Proof/Machine/PowerCommands.lean ====
section
/-!
DEFINITION. The commands of the input, the power domains and the departure (18_power_and_hotplug.md).
-/
namespace Sys2Proof.Machine

/-! ### The input (R487, R488) -/

/-- VIN has been good for 20 ms: PD_AO may start, or, still in regulation after a shed, the module restarts
through the brown-out reset. -/
def inputGoodAt (vin : Nat) (s : State) : State :=
  if vin < 39000 then s
  else
    let s1 := { s with pr := { s.pr with inputGood := true } }
    if domOn s 0 && s.pr.shed then takeReset 2 1 true { s1 with pr := { s1.pr with shed := false } } else s1

/-- INPUT_GOOD (R487): VIN in mV. -/
def execInputGood (vin : BitVec 32) (s : State) : Out3 := fin (inputGoodAt vin.toNat s)

/-- INPUT_LOSS (R488). -/
def execInputLoss (vin : BitVec 32) (s : State) : Out3 :=
  inAO (fun s => if vin.toNat < 38000 && !s.pr.shed then shed 1 vin.toNat s else s) s

/-- INPUT_OVERVOLTAGE (R487). -/
def execInputOvervoltage (vin : BitVec 32) (s : State) : Out3 :=
  inAO (fun s =>
    if 63000 < vin.toNat then
      raiseFault 1 0 vin.toNat (if s.pr.shed then s else shed 2 vin.toNat s)
    else s) s

/-! ### Domains (R490, R493) -/

/-- DOMAIN_START (R493). -/
def execDomainStart (d : Fin 30) (s : State) : Out3 := inAO (domainStart d) s

/-- DOMAIN_POWER_GOOD (R490). -/
def execDomainPowerGood (d : Fin 30) (s : State) : Out3 := inAO (domainGood d) s

/-- DOMAIN_RAMP_TIMEOUT (R490). -/
def execDomainRampTimeout (d : Fin 30) (s : State) : Out3 := inAO (domainRampTimeout d) s

/-- DOMAIN_RESTART (R490): the domain number written to 0x3020:00. -/
def execDomainRestart (d : BitVec 8) (s : State) : Out3 := inAO (domainRestart d.toNat) s

/-! ### Departure (R496 to R498, R264) -/

/-- DEPART_REQUEST (R496). -/
def execDepartRequest (s : State) : Out3 := if fullService s then fin (departRequest s) else .next s

/-- DEPART_QUIESCE_COMPLETE (R497). -/
def execDepartQuiesceComplete (s : State) : Out3 := inAO departQuiet s

/-- DEPART_DRAIN_COMPLETE (R497). -/
def execDepartDrainComplete (s : State) : Out3 := inAO departDrained s

/-- DRAIN_LIMIT_EXPIRY (R497). -/
def execDrainLimitExpiry (s : State) : Out3 := inAO drainLimit s

/-- LINK_CTL_DEPART_ARRIVE (R254, R264). -/
def execLinkCtlDepartArrive (port : Fin 72) (p : Packet) (s : State) : Out3 :=
  portCommand tLINKCTL (fun p => kKIND p == 1) port p (fun _ s => portDepart port s) s

/-- DEPART_DONE_ARRIVE (R498). -/
def execDepartDoneArrive (port : Fin 72) (p : Packet) (s : State) : Out3 :=
  portCommand tLINKCTL (fun p => kKIND p == 2) port p (fun _ s => portDepartDone port s) s

end Sys2Proof.Machine
end

