-- ==== Sys2Proof/Machine/QueueCommands.lean ====
section
/-!
DEFINITION. The commands of the queue manager: doorbells, fetching, retirement and the admin commands
(03_queues.md).  A doorbell reaches QM through BAR0 of a function; everything else concerns queues, which
exist only while PD_CX is ON.
-/
namespace Sys2Proof.Machine

/-! ### Doorbells (R82 to R84) -/

/-- DOORBELL_TAIL, KIND 0 (R84): the fields of the word, and the slot it was written to. -/
def execDoorbellTail (fn : Fin 514) (slot : BitVec 20) (rsvd1 : BitVec 12) (gen rsvd0 : BitVec 8)
    (index : BitVec 32) (s : State) : Out3 :=
  fin (atSlot fn slot.toNat (doorbellTail fn gen.toNat (rsvd1.toNat * 256 + rsvd0.toNat) index.toNat) s)

/-- DOORBELL_HEAD, KIND 1 (R84). -/
def execDoorbellHead (fn : Fin 514) (slot : BitVec 20) (rsvd1 : BitVec 12) (gen rsvd0 : BitVec 8)
    (index : BitVec 32) (s : State) : Out3 :=
  fin (atSlot fn slot.toNat
    (doorbellHead fn gen.toNat (rsvd1.toNat * 256 + rsvd0.toNat) index.toNat false) s)

/-- DOORBELL_HEAD_ARM, KIND 2 (R84, R96). -/
def execDoorbellHeadArm (fn : Fin 514) (slot : BitVec 20) (rsvd1 : BitVec 12) (gen rsvd0 : BitVec 8)
    (index : BitVec 32) (s : State) : Out3 :=
  fin (atSlot fn slot.toNat
    (doorbellHead fn gen.toNat (rsvd1.toNat * 256 + rsvd0.toNat) index.toNat true) s)

/-- KEY_RIGHTS_WRITE (R84, R232). -/
def execKeyRightsWrite (fn : Fin 514) (slot : BitVec 20) (rsvd1 : BitVec 16) (gen rsvd0 : BitVec 8)
    (rights : BitVec 32) (s : State) : Out3 :=
  fin (atSlot fn slot.toNat
    (keyRightsWrite fn gen.toNat (rsvd1.toNat * 256 + rsvd0.toNat) rights.toNat) s)

/-! ### Fetch, retirement, moderation -/

/-- FETCH_VISIT (R99). -/
def execFetchVisit (s : State) : Out3 := fin (fetchVisit s)

/-- DESCRIPTOR_RETIRE (R88). -/
def execDescriptorRetire (qn : BitVec 20) (s : State) : Out3 := fin (retireOne qn.toNat s)

/-- MODERATION_TIMEOUT (R96). -/
def execModerationTimeout (qn : BitVec 20) (s : State) : Out3 := fin (moderationTimeout qn.toNat s)

/-- A NOP that is next in its queue is done (R86). -/
def nop (qn : Nat) (s : State) : State :=
  match startable s qn (fun op => op = 0) with
  | some o => complete qn o.n { status := stOK } (markStarted qn o.n s)
  | none => s

/-- NOP (R86). -/
def execNop (qn : BitVec 20) (s : State) : Out3 := fin (nop qn.toNat s)

/-! ### Admin commands (Table 03-11), each the next one of a function's admin queue -/

/-- CREATE (R102). -/
def execQueueCreate (fn : Fin 514) (s : State) : Out3 := fin (queueCreate fn s)

/-- RESIZE (R103). -/
def execQueueResize (fn : Fin 514) (s : State) : Out3 := fin (queueResize fn s)

/-- HALT (R80). -/
def execQueueHalt (fn : Fin 514) (s : State) : Out3 := fin (queueHalt fn s)

/-- DRAIN (R80). -/
def execQueueDrain (fn : Fin 514) (s : State) : Out3 := fin (queueDrain fn s)

/-- DRAIN_COMPLETE (R80). -/
def execDrainComplete (qn : BitVec 20) (s : State) : Out3 := fin (drainComplete qn.toNat s)

/-- RESUME with SKIP 0 (R106). -/
def execQueueResume (fn : Fin 514) (s : State) : Out3 := fin (queueResume fn false s)

/-- RESUME with SKIP 1 (R106). -/
def execQueueResumeSkip (fn : Fin 514) (s : State) : Out3 := fin (queueResume fn true s)

/-- DESTROY without FORCE (R107). -/
def execQueueDestroy (fn : Fin 514) (s : State) : Out3 := fin (queueDestroy fn false s)

/-- DESTROY with FORCE (R108). -/
def execQueueDestroyForce (fn : Fin 514) (s : State) : Out3 := fin (queueDestroy fn true s)

/-- DESTROY_COMPLETE (R109). -/
def execDestroyComplete (qn : BitVec 20) (s : State) : Out3 := fin (destroyComplete qn.toNat s)

/-- QUERY (R104). -/
def execQueueQuery (fn : Fin 514) (s : State) : Out3 := fin (queueQuery fn s)

/-- MODIFY (R101). -/
def execQueueModify (fn : Fin 514) (s : State) : Out3 := fin (queueModify fn s)

end Sys2Proof.Machine
end

