-- ==== Sys2Proof/Machine/RemoteCommands.lean ====
section
/-!
DEFINITION. The commands of remote memory access (05_remote_access.md).  A message is named by its flow at
this module and its RSN; the number of a flow is the model's own.
-/
namespace Sys2Proof.Machine

/-! ### Operations start (R146, R155, R159, R165, R176): the next one of a SEND queue -/

/-- PUT (R146). -/
def execPut (qn : BitVec 20) (s : State) : Out3 := fin (startPut qn.toNat s)

/-- PUT_IMM (R159). -/
def execPutImm (qn : BitVec 20) (s : State) : Out3 := fin (startPutImm qn.toNat s)

/-- GET (R146). -/
def execGet (qn : BitVec 20) (s : State) : Out3 := fin (startGet qn.toNat s)

/-- FADD64 (R155). -/
def execFadd64 (qn : BitVec 20) (s : State) : Out3 := fin (startFadd qn.toNat s)

/-- SWAP64 (R155). -/
def execSwap64 (qn : BitVec 20) (s : State) : Out3 := fin (startSwap qn.toNat s)

/-- CAS64 (R155). -/
def execCas64 (qn : BitVec 20) (s : State) : Out3 := fin (startCas64 qn.toNat s)

/-- CAS128 (R155). -/
def execCas128 (qn : BitVec 20) (s : State) : Out3 := fin (startCas128 qn.toNat s)

/-- FLUSH (R165). -/
def execFlush (qn : BitVec 20) (s : State) : Out3 := fin (startFlush qn.toNat s)

/-- CSEND (R176). -/
def execCsend (qn : BitVec 20) (s : State) : Out3 := fin (startCsend qn.toNat s)

/-- CPUT (R176). -/
def execCput (qn : BitVec 20) (s : State) : Out3 := fin (startCput qn.toNat s)

/-- CGET (R176). -/
def execCget (qn : BitVec 20) (s : State) : Out3 := fin (startCget qn.toNat s)

/-! ### Requests arrive (R154, R155, R159, R165, R176, R177) -/

/-- PUT_ARRIVE (R154). -/
def execPutArrive (p : Packet) (s : State) : Out3 := packetCommand tPUT p requestArrive s

/-- PUT_IMM_ARRIVE (R159). -/
def execPutImmArrive (p : Packet) (s : State) : Out3 := packetCommand tPUTIMM p requestArrive s

/-- GET_ARRIVE (R154). -/
def execGetArrive (p : Packet) (s : State) : Out3 := packetCommand tGET p requestArrive s

/-- FADD64_ARRIVE (R155). -/
def execFadd64Arrive (p : Packet) (s : State) : Out3 := packetCommand tFADD64 p requestArrive s

/-- SWAP64_ARRIVE (R155). -/
def execSwap64Arrive (p : Packet) (s : State) : Out3 := packetCommand tSWAP64 p requestArrive s

/-- CAS64_ARRIVE (R155). -/
def execCas64Arrive (p : Packet) (s : State) : Out3 := packetCommand tCAS64 p requestArrive s

/-- CAS128_ARRIVE (R155). -/
def execCas128Arrive (p : Packet) (s : State) : Out3 := packetCommand tCAS128 p requestArrive s

/-- FLUSH_ARRIVE (R165). -/
def execFlushArrive (p : Packet) (s : State) : Out3 := packetCommand tFLUSH p requestArrive s

/-- CSEND_ARRIVE (R177). -/
def execCsendArrive (p : Packet) (s : State) : Out3 := packetCommand tCSEND p requestArrive s

/-- CPUT_ARRIVE (R176). -/
def execCputArrive (p : Packet) (s : State) : Out3 := packetCommand tCPUT p requestArrive s

/-- CGET_ARRIVE (R176). -/
def execCgetArrive (p : Packet) (s : State) : Out3 := packetCommand tCGET p requestArrive s

/-! ### Answers arrive (R146, R166, R170, R171, R245, R246) -/

/-- ACK_ARRIVE (R171). -/
def execAckArrive (p : Packet) (s : State) : Out3 := packetCommand tACK p ackArrive s

/-- REFUSAL_ARRIVE (R246). -/
def execRefusalArrive (p : Packet) (s : State) : Out3 := packetCommand tREFUSAL p refusalArrive s

/-- GET_DATA_ARRIVE (R146). -/
def execGetDataArrive (p : Packet) (s : State) : Out3 := packetCommand tGETDATA p getDataArrive s

/-- ATOMIC_RESP_ARRIVE (R245). -/
def execAtomicRespArrive (p : Packet) (s : State) : Out3 := packetCommand tATOMRESP p atomicRespArrive s

/-- LOSS_NOTICE_ARRIVE (R166, R247): the payload is the header of the packet that was lost. -/
def execLossNoticeArrive (p : Packet) (s : State) : Out3 :=
  packetCommand tLOSS p (fun p s => originLost (packetOfBits (beNat p.payload) []) s) s

/-! ### Intervals -/

/-- LOSS_INTERVAL_EXPIRY (R166). -/
def execLossIntervalExpiry (flow : Nat) (rsn : BitVec 24) (s : State) : Out3 :=
  fin (lossInterval flow rsn.toNat false s)

/-- RNR_RETRY (R160). -/
def execRnrRetry (flow : Nat) (rsn : BitVec 24) (s : State) : Out3 :=
  fin (retryInterval [rRNR] flow rsn.toNat s)

/-- FLOW_CONTEXT_RETRY (R167). -/
def execFlowContextRetry (flow : Nat) (rsn : BitVec 24) (s : State) : Out3 :=
  fin (retryInterval [rFLOWCTX] flow rsn.toNat s)

/-- PAGE_RETRY_RESEND (R169). -/
def execPageRetryResend (flow : Nat) (rsn : BitVec 24) (s : State) : Out3 :=
  fin (retryInterval [rPAGERETRY] flow rsn.toNat s)

/-- FLOW_CONTEXT_EXPIRY (R167). -/
def execFlowContextExpiry (flow : Nat) (s : State) : Out3 := fin (flowExpiry flow s)

/-- BASE_DELAY_RESET (R171). -/
def execBaseDelayReset (node : BitVec 20) (s : State) : Out3 := fin (baseReset node.toNat s)

/-- STALL_EXPIRY (R168): the slot of the fault record. -/
def execStallExpiry (slot : BitVec 12) (s : State) : Out3 := fin (stallExpiry slot.toNat s)

/-- POLICER_REEVALUATE (R315). -/
def execPolicerReevaluate (flow : Nat) (rsn : BitVec 24) (s : State) : Out3 :=
  fin (reevaluate flow rsn.toNat s)

/-! ### Regions and connections (R153, R175): REMOTE commands of an admin queue -/

/-- REGISTER (R153). -/
def execRegisterRegion (fn : Fin 514) (s : State) : Out3 := fin (registerRegion fn s)

/-- DEREGISTER (R153). -/
def execDeregister (fn : Fin 514) (s : State) : Out3 := fin (deregister fn s)

/-- REGION_DRAIN_COMPLETE (R153). -/
def execRegionDrainComplete (region : BitVec 20) (s : State) : Out3 := fin (regionDrained region.toNat s)

/-- OPEN_CONN (R175). -/
def execOpenConn (fn : Fin 514) (s : State) : Out3 := fin (openConn fn s)

/-- CLOSE_CONN (R175). -/
def execCloseConn (fn : Fin 514) (s : State) : Out3 := fin (closeConn fn s)

/-- CLOSE_CONN with FORCE (R175). -/
def execCloseConnForce (fn : Fin 514) (s : State) : Out3 := fin (closeConnForce fn s)

/-- CONN_CLOSE_COMPLETE (R175). -/
def execConnCloseComplete (conn : BitVec 24) (s : State) : Out3 := fin (connClosed conn.toNat s)

end Sys2Proof.Machine
end

