-- ==== Sys2Proof/Machine/ResetCommands.lean ====
section
/-!
DEFINITION. The reset sources, the release of a reset, and the milestones of a start
(19_reset_and_boot.md).
-/
namespace Sys2Proof.Machine

/-- Is the reset object 0x3410:00 served (R516)? -/
def resetServed (s : State) : Bool :=
  match s.rs.phase with
  | .waiting | .running | .doldrums => true
  | _ => false

/-! ### Sources (Table 19-1) -/

/-- POWER_ON_RESET: PD_AO reaches power good, which takes input good (R487). -/
def execPowerOnReset (s : State) : Out3 := if s.pr.inputGood then fin (takeReset 1 0 true s) else .next s

/-- BROWN_OUT_RESET: VIN is below 34 V. -/
def execBrownOutReset (s : State) : Out3 := fin (takeReset 2 0 true s)

/-- PIN_RESET. -/
def execPinReset (s : State) : Out3 := fin (takeReset 3 0 true s)

/-- WATCHDOG_EXPIRY. -/
def execWatchdogExpiry (s : State) : Out3 := if processorRuns s then fin (takeReset 4 1 false s) else .next s

/-- START_TIMEOUT (R512). -/
def execStartTimeout (s : State) : Out3 := fin (startTimeout s)

/-- RESET_REQUEST_WARM: 1 is written to 0x3410:00. -/
def execResetRequestWarm (s : State) : Out3 := if resetServed s then fin (takeReset 5 1 false s) else .next s

/-- RESET_REQUEST_COLD: 2 is written to 0x3410:00. -/
def execResetRequestCold (s : State) : Out3 := if resetServed s then fin (takeReset 5 2 true s) else .next s

/-- RESET_WARM: the TAP instruction. -/
def execResetWarm (s : State) : Out3 := fin (takeReset 6 1 false s)

/-- RESET_COLD: the TAP instruction. -/
def execResetCold (s : State) : Out3 := fin (takeReset 6 2 true s)

/-- CLOCK_FAILURE: the number of the PLL. -/
def execClockFailure (pll : Fin 16) (s : State) : Out3 := fin (takeReset 7 pll false s)

/-- LOCKUP (R521): a bus hang, or a lockstep mismatch. -/
def execLockup (busHang : Bool) (s : State) : Out3 :=
  if processorRuns s then fin (takeReset 8 (if busHang then 2 else 1) false s) else .next s

/-- RESET_HOLD_EXPIRY (R554). -/
def execResetHoldExpiry (s : State) : Out3 :=
  if s.fc.holdRunning && s.fc.holdAt ≤ ticks s then fin (takeReset 5 3 false s) else .next s

/-! ### Starts (R507 to R517) -/

/-- RESET_RELEASE (R508): the straps as the pins show them. -/
def execResetRelease (bootSel : BitVec 2) (clkMode : Bool) (slotId : BitVec 6) (s : State) : Out3 :=
  fin (resetRelease bootSel.toNat (b2n clkMode) slotId.toNat s)

/-- BUNDLE_WAIT_EXPIRY (R513). -/
def execBundleWaitExpiry (s : State) : Out3 := fin (bundleExpiry s)

/-- MANAGEMENT_FIRMWARE_START (R512). -/
def execManagementFirmwareStart (s : State) : Out3 := fin (managementStart s)

/-- OPERATIONAL_MILESTONE (R514). -/
def execOperationalMilestone (s : State) : Out3 := fin (operational s)

/-- DOLDRUMS_EXIT (R517). -/
def execDoldrumsExit (s : State) : Out3 := fin (doldrumsExit s)

end Sys2Proof.Machine
end

