-- ==== Sys2Proof/Machine/RouteCommands.lean ====
section
/-!
DEFINITION. The commands of routing and of the trade lanes (09_routing.md, R387, R388).
-/
namespace Sys2Proof.Machine

/-! ### Packets -/

/-- A packet type that RT looks up; the others are bound to their port (R267, R285). -/
def isRouted (t : Nat) : Bool := !(isLane t || t == tTIME || t == tLINKCTL)

/-- The first packet that waits for a lookup: of this module's units, or received on a port (R269). -/
def packetRoute (src : Option (Fin 72)) (s : State) : State :=
  match src with
  | none =>
    (match s.rt.inject with
     | [] => s
     | pk :: r => routePacket none pk { s with rt := { s.rt with inject := r } })
  | some p =>
    let mine (i : Ingress) : Bool := i.port == p.val && isRouted i.packet.type
    (match s.rt.ingress.find? mine with
     | none => s
     | some i =>
       routePacket (if i.held then some p.val else none) i.packet
         { s with rt := { s.rt with ingress := eraseFirst mine s.rt.ingress } })

/-- PACKET_ROUTE (R269). -/
def execPacketRoute (src : Option (Fin 72)) (s : State) : Out3 := inCX (packetRoute src) s

/-- A packet in transit on VC16 or VC18 has waited too long for credit (R268). -/
def singleVcExpiry (p v : Nat) (s : State) : State :=
  let due (q : QPkt) : Bool := q.packet.vc == v && 1 < q.packet.hops && !creditOk s p q &&
    q.waitTo.any fun t => t ≤ ticks s
  match (portFlow s p).queue.find? due with
  | none => s
  | some q =>
    assignTags p (bump 0x6063 0 (leaveQueued q
      (setFlow p (fun x => { x with queue := eraseFirst due x.queue }) s)))

/-- SINGLE_VC_WAIT_EXPIRY (R268): on VC18, or on VC16. -/
def execSingleVcWaitExpiry (p : Fin 72) (vc18 : Bool) (s : State) : Out3 :=
  inCX (singleVcExpiry p (if vc18 then 18 else 16)) s

/-- The health interval has passed. -/
def healthInterval (s : State) : State :=
  if s.rt.healthAt ≤ ticks s then
    healthAll { s with rt := { s.rt with healthAt := ticks s + rc s 0x6036 0 } }
  else s

/-- HEALTH_INTERVAL (R266). -/
def execHealthInterval (s : State) : Out3 := inCX healthInterval s

/-- HEALTH_ARRIVE (R266, Table 09-3). -/
def execHealthArrive (port : Fin 72) (p : Packet) (s : State) : Out3 :=
  portCommand tLINKCTL (fun p => kKIND p == 3) port p (fun p s => healthArrive port (kARG p) s) s

/-- The vane period, in cycles of the 1.6 GHz clock, has passed. -/
def vanePeriod (s : State) : State :=
  if s.rt.vaneAt ≤ ticks s then
    vaneUpdate { s with rt := { s.rt with vaneAt := ticks s + ticksOf (rc s 0x6032 0) 1600000000 } }
  else s

/-- VANE_UPDATE (R271). -/
def execVaneUpdate (s : State) : Out3 := inCX vanePeriod s

/-- The entries of the replicas that differ from the copy, by sector, object and entry: used ones are
rewritten, counted, and raised once per sector (R283). -/
def replicaCheck (diffs : List (Fin 9 × BitVec 16 × Nat)) (s : State) : State :=
  let used := diffs.filter fun d => replicaUsed s d.2.1.toNat d.2.2
  let s := bumpBy 0x6066 0 used.length s
  forRange 0 9 (fun k s => match used.find? fun d => d.1.val == k with
    | some d => raiseFault 15 k d.2.1.toNat s
    | none => s) s

/-- REPLICA_CHECK (R283). -/
def execReplicaCheck (diffs : List (Fin 9 × BitVec 16 × Nat)) (s : State) : Out3 :=
  inCX (fun s =>
    if s.rt.replicaAt ≤ ticks s then
      replicaCheck diffs { s with rt := { s.rt with replicaAt := ticks s + rc s 0x6050 0 } }
    else s) s

/-! ### Lanes at their origin (R286 to R291, R387): the next descriptor of a SEND queue -/

/-- LANE_OPEN (R387). -/
def execLaneOpen (qn : BitVec 20) (s : State) : Out3 := fin (laneOpen qn.toNat s)

/-- LANE_SEND (R387). -/
def execLaneSend (qn : BitVec 20) (s : State) : Out3 := fin (laneSendStart qn.toNat s)

/-- LANE_CLOSE (R387). -/
def execLaneClose (qn : BitVec 20) (s : State) : Out3 := fin (laneClose qn.toNat s)

/-! ### Lane packets, on the port where they arrive -/

/-- LANE_SETUP_ARRIVE (R286). -/
def execLaneSetupArrive (port : Fin 72) (p : Packet) (s : State) : Out3 :=
  portCommand tLANESETUP (fun _ => true) port p (setupArrive port) s

/-- LANE_REPLY_ARRIVE (R286). -/
def execLaneReplyArrive (port : Fin 72) (p : Packet) (s : State) : Out3 :=
  portCommand tLANEREPLY (fun _ => true) port p (replyArrive port) s

/-- LANE_DATA_ARRIVE (R285, R388): in transit the packet stays in the receive buffer until it starts. -/
def execLaneDataArrive (port : Fin 72) (p : Packet) (s : State) : Out3 :=
  if isPacket [tLANEDATA] p then
    inCX (fun s => dataArrive port (heldAt port p s) p (takeIngress port p false s)) s
  else .next s

/-- LANE_RELEASE_ARRIVE (R289). -/
def execLaneReleaseArrive (port : Fin 72) (p : Packet) (s : State) : Out3 :=
  portCommand tLANEREL (fun _ => true) port p (releaseArrive port) s

/-- LANE_LAST_DEPART (R289): port and label. -/
def execLaneLastDepart (port : Fin 72) (label : BitVec 16) (s : State) : Out3 :=
  fin (lastDepart port label.toNat s)

/-- LANE_SETUP_TIMEOUT (R290). -/
def execLaneSetupTimeout (lnum : BitVec 10) (s : State) : Out3 := fin (setupTimeout lnum.toNat s)

/-- TENTATIVE_LANE_TIMEOUT (R286): ingress port and label. -/
def execTentativeLaneTimeout (port : Fin 72) (label : BitVec 16) (s : State) : Out3 :=
  fin (tentativeTimeout port label.toNat s)

/-- SQUALL_NOTICE_ARRIVE (R288). -/
def execSquallNoticeArrive (p : Packet) (s : State) : Out3 := packetCommand tSQUALL p squallArrive s

/-- SQUALL_HOLD_EXPIRY (R288). -/
def execSquallHoldExpiry (lnum : BitVec 10) (s : State) : Out3 := fin (squallExpiry lnum.toNat s)

end Sys2Proof.Machine
end

