-- ==== Sys2Proof/Machine/SidebandCommands.lean ====
section
/-!
DEFINITION. The frames of the sideband (17_module_and_connectors.md).
-/
namespace Sys2Proof.Machine

/-- SB_READ (R484). -/
def execSbRead (addr : BitVec 12) (data : BitVec 16) (s : State) : Out3 := fin (sbRead addr.toNat data.toNat s)

/-- SB_WRITE (R484). -/
def execSbWrite (addr : BitVec 12) (data : BitVec 16) (s : State) : Out3 := fin (sbWrite addr.toNat data.toNat s)

/-- SB_NOP (R482, R484): a committed frame, NOP or an OP not defined; one that spells READ or WRITE is that. -/
def execSbNop (op : BitVec 4) (addr : BitVec 12) (data : BitVec 16) (s : State) : Out3 :=
  if op = 1 then fin (sbRead addr.toNat data.toNat s)
  else if op = 2 then fin (sbWrite addr.toNat data.toNat s)
  else fin (sbNop op.toNat addr.toNat data.toNat s)

/-- SB_FRAME_ABORT (R483). -/
def execSbFrameAbort (s : State) : Out3 := fin (sbAbort s)

end Sys2Proof.Machine
end

