-- ==== Sys2Proof/Machine/TimeCommands.lean ====
section
/-!
DEFINITION. The commands of the time base (01_machine_time.md).  TB is in PD_AO.
-/
namespace Sys2Proof.Machine

/-- REF_CLK_LOST (R14, Table 01-3). -/
def execRefClkLost (s : State) : Out3 := inAO refClkLost s

/-- EPOCH_EDGE (R15, R24): `spacing` REF_CLK cycles after the previous edge, REF_CLK valid for `refMs` ms. -/
def execEpochEdge (spacing : BitVec 32) (refMs : BitVec 16) (s : State) : Out3 :=
  inAO (epochEdge spacing.toNat refMs.toNat) s

/-- EPOCH_LOST (R14, R25). -/
def execEpochLost (s : State) : Out3 := inAO (fun s => if internalClock s then s else epochLost s) s

/-- TCODE_FRAME (R18): when the frame started after an EPOCH edge and ended before the next, in µs. -/
def execTcodeFrame (frame : BitVec 96) (startUs endUs : BitVec 32) (s : State) : Out3 :=
  inAO (tcodeFrame frame.toNat startUs.toNat endUs.toNat) s

/-- TCODE_LOST (R19). -/
def execTcodeLost (s : State) : Out3 := inAO tcodeLost s

/-- SLEW_END (R37): less than one tick of offset is left. -/
def execSlewEnd (s : State) : Out3 :=
  inAO (fun s => if s.tb.residual.natAbs < 2 ^ 32 then setTb (fun t => { t with residual := 0 }) s else s) s

/-- USABLE_PEER_ADVERTISED (R23, R28). -/
def execUsablePeerAdvertised (p : Fin 72) (s : State) : Out3 := inAO (usableAdvertised p) s

/-- SOURCE_PEER_LOST (R23, R28): the peer that TB follows is no longer usable. -/
def execSourcePeerLost (s : State) : Out3 :=
  inAO (fun s => match s.tb.srcPort with
    | some p => if usablePeer s p then s else loseSource s
    | none => s) s

/-- HOLD_DOWN_EXPIRY (R28). -/
def execHoldDownExpiry (s : State) : Out3 :=
  inAO holdDownOver s

/-- TIME_EXCHANGE_START (R29). -/
def execTimeExchangeStart (p : Fin 72) (s : State) : Out3 := inCX (timeExchange p) s

/-- TIME_REQUEST_ARRIVE (R29, R253). -/
def execTimeRequestArrive (port : Fin 72) (p : Packet) (s : State) : Out3 :=
  portCommand tTIME (fun p => tmKIND p == 0) port p (timeRequest port (arrivedAt port p s)) s

/-- TIME_RESPONSE_ARRIVE (R29, R253). -/
def execTimeResponseArrive (port : Fin 72) (p : Packet) (s : State) : Out3 :=
  portCommand tTIME (fun p => tmKIND p == 1) port p (timeResponse port (arrivedAt port p s)) s

/-- MEASURED_DELAY_UPDATE (R20). -/
def execMeasuredDelayUpdate (s : State) : Out3 := inAO measuredUpdate s

/-- CALIBRATION_COMPLETE (R31): 600 s of REF_LOCKED without interruption, or a later refresh of the
calibration; the oscillator is `ppb` off. -/
def execCalibrationComplete (ppb : BitVec 32) (s : State) : Out3 :=
  inAO (fun s =>
    if s.tb.state == .refLocked && (s.tb.calibrated || 600 * 2 ^ 32 ≤ s.tb.lockTicks) then
      setTb (fun t => { t with calibrated := true, oscOffset := ppb.toNat }) s
    else s) s

/-- UNCERTAINTY_LIMIT_CROSSED (R32). -/
def execUncertaintyLimitCrossed (s : State) : Out3 := inAO judgeUncertainty s

/-- TIME_PULSE (R33). -/
def execTimePulse (s : State) : Out3 := inAO timePulse s

/-- TIME_PULSE_END (R33). -/
def execTimePulseEnd (s : State) : Out3 := inAO timePulseEnd s

end Sys2Proof.Machine
end

