-- ==== Sys2Proof/Machine/TransCommands.lean ====
section
/-!
DEFINITION. The commands of translation (07_translation.md), and the completion of a host read (R450).
-/
namespace Sys2Proof.Machine

/-- The read of the outstanding request that has a tag on a link. -/
def readOfTag (s : State) (link tag : Nat) : Option (Nat × HostRead) :=
  s.tu.reads.find? fun (e : Nat × HostRead) =>
    fnLink e.2.fn == link && e.2.parts.any fun p => p.tag == some tag && p.got.isNone

/-- A completion as the request takes it: one that does not carry what the request asked for is no completion
of it, and the request ends in error (DEDUCED, assumption 231). -/
def resultOf (n : Nat) : HostResult → HostResult
  | .data bs p => if bs.length = n then .data bs p else .error
  | .error => .error

/-- HOST_READ_COMPLETION (R448, R450): the completion of a request by its tag on its link.  Its tag is free
again, and a request that waits for one is issued. -/
def hostReadCompletion (link tag : Nat) (r : HostResult) (s : State) : State :=
  match readOfTag s link tag with
  | none => s
  | some (key, h) =>
    let mine (p : HostPart) : Bool := p.tag == some tag && p.got.isNone
    pumpReads link (partEnds key { s with tu := { s.tu with
      reads := mput s.tu.reads key { h with
        parts := updFirst mine (fun p => { p with got := some (resultOf p.len r) }) h.parts } } })

/-- HOST_READ_COMPLETION (R450). -/
def execHostReadCompletion (tag : HostTag) (r : HostResult) (s : State) : Out3 :=
  fin (hostReadCompletion tag.link tag.tag.toNat r s)

/-! ### Address spaces (R212 to R215): the command word of Table 07-1; `writer` is the function whose
mailbox it came through -/

/-- The word of CREATE and MODIFY. -/
def asWord (action : BitVec 8) (asid : BitVec 16) (fn : BitVec 10) (tenant : BitVec 16) (eqn : BitVec 20)
    (failPolicy mark : Bool) (rsvd2 : BitVec 24) (rights : BitVec 32) (rsvd1 : BitVec 8) (root : BitVec 56)
    (rsvd0 : BitVec 64) : Nat :=
  (action ++ asid ++ fn ++ tenant ++ eqn ++ BitVec.ofBool failPolicy ++ BitVec.ofBool mark ++ rsvd2 ++ rights
    ++ rsvd1 ++ root ++ rsvd0).toNat

/-- AS_CREATE (R214). -/
def execAsCreate (writer : Option (Fin 514)) (asid : BitVec 16) (fn : BitVec 10) (tenant : BitVec 16)
    (eqn : BitVec 20) (failPolicy mark : Bool) (rsvd2 : BitVec 24) (rights : BitVec 32) (rsvd1 : BitVec 8)
    (root : BitVec 56) (rsvd0 : BitVec 64) (s : State) : Out3 :=
  inCX (asCommand (writer.map Fin.val)
    (asWord 1 asid fn tenant eqn failPolicy mark rsvd2 rights rsvd1 root rsvd0)) s

/-- AS_MODIFY (R214). -/
def execAsModify (writer : Option (Fin 514)) (asid : BitVec 16) (fn : BitVec 10) (tenant : BitVec 16)
    (eqn : BitVec 20) (failPolicy mark : Bool) (rsvd2 : BitVec 24) (rights : BitVec 32) (rsvd1 : BitVec 8)
    (root : BitVec 56) (rsvd0 : BitVec 64) (s : State) : Out3 :=
  inCX (asCommand (writer.map Fin.val)
    (asWord 3 asid fn tenant eqn failPolicy mark rsvd2 rights rsvd1 root rsvd0)) s

/-- AS_DESTROY (R214). -/
def execAsDestroy (writer : Option (Fin 514)) (asid : BitVec 16) (fn : BitVec 10) (rsvd : BitVec 222)
    (s : State) : Out3 :=
  inCX (asCommand (writer.map Fin.val) ((2 : BitVec 8) ++ asid ++ fn ++ rsvd).toNat) s

/-- AS_CLOSE_COMPLETE (R214). -/
def execAsCloseComplete (asid : BitVec 16) (s : State) : Out3 := fin (asCloseComplete asid.toNat s)

/-! ### Translation commands (R223 to R225, R230) -/

/-- TRANSLATION_INVALIDATE (R224): the word of Table 07-7 with OP 1. -/
def execTranslationInvalidate (issuer : TransIssuer) (asid token : BitVec 16) (tlb walk all rsvd3 : Bool)
    (pages : BitVec 20) (rsvd2 : BitVec 16) (page : BitVec 36) (rsvd0 : BitVec 12) (s : State) : Out3 :=
  inCX (transCommand issuer.code
    ((1 : BitVec 8) ++ asid ++ token ++ BitVec.ofBool tlb ++ BitVec.ofBool walk ++ BitVec.ofBool all
      ++ BitVec.ofBool rsvd3 ++ pages ++ rsvd2 ++ page ++ rsvd0).toNat) s

/-- INVALIDATE_DONE (R224): the oldest INVALIDATE of an issuer. -/
def execInvalidateDone (issuer : TransIssuer) (s : State) : Out3 := fin (invalidateDone issuer.code s)

/-- FAULT_RESUME (R230): OP 2, with the fault record's identifier. -/
def execFaultResume (issuer : TransIssuer) (asid id : BitVec 16) (rsvd : BitVec 88) (s : State) : Out3 :=
  inCX (transCommand issuer.code ((2 : BitVec 8) ++ asid ++ id ++ rsvd).toNat) s

/-- FAULT_FAIL (R230): OP 3. -/
def execFaultFail (issuer : TransIssuer) (asid id : BitVec 16) (rsvd : BitVec 88) (s : State) : Out3 :=
  inCX (transCommand issuer.code ((3 : BitVec 8) ++ asid ++ id ++ rsvd).toNat) s

/-- LOCAL_WAIT_EXPIRY (R227): the slot of the fault record. -/
def execLocalWaitExpiry (slot : BitVec 12) (s : State) : Out3 := fin (localWaitExpiry slot.toNat s)

end Sys2Proof.Machine
end

