-- ==== Sys2Proof/Machine/Dispatch.lean ====
section
/-!
DEFINITION. The dispatch: one arm per command, one direct call of its meaning.
-/
namespace Sys2Proof.Machine

def exec (i : Instr) (s : State) : Host.Outcome State Fault Refusal :=
  match i with
  | .refClkLost => Sys2Proof.Machine.execRefClkLost s
  | .epochEdge spacing refMs => Sys2Proof.Machine.execEpochEdge spacing refMs s
  | .epochLost => Sys2Proof.Machine.execEpochLost s
  | .tcodeFrame frame startUs endUs => Sys2Proof.Machine.execTcodeFrame frame startUs endUs s
  | .tcodeLost => Sys2Proof.Machine.execTcodeLost s
  | .slewEnd => Sys2Proof.Machine.execSlewEnd s
  | .usablePeerAdvertised p => Sys2Proof.Machine.execUsablePeerAdvertised p s
  | .sourcePeerLost => Sys2Proof.Machine.execSourcePeerLost s
  | .holdDownExpiry => Sys2Proof.Machine.execHoldDownExpiry s
  | .timeExchangeStart p => Sys2Proof.Machine.execTimeExchangeStart p s
  | .timeRequestArrive port p => Sys2Proof.Machine.execTimeRequestArrive port p s
  | .timeResponseArrive port p => Sys2Proof.Machine.execTimeResponseArrive port p s
  | .measuredDelayUpdate => Sys2Proof.Machine.execMeasuredDelayUpdate s
  | .calibrationComplete ppb => Sys2Proof.Machine.execCalibrationComplete ppb s
  | .uncertaintyLimitCrossed => Sys2Proof.Machine.execUncertaintyLimitCrossed s
  | .timePulse => Sys2Proof.Machine.execTimePulse s
  | .timePulseEnd => Sys2Proof.Machine.execTimePulseEnd s
  | .sessionOpen accepted address => Sys2Proof.Machine.execSessionOpen accepted address s
  | .sessionIdleTimeout session => Sys2Proof.Machine.execSessionIdleTimeout session s
  | .datagramOutsideSession => Sys2Proof.Machine.execDatagramOutsideSession s
  | .yustoRead h idx sub shadow => Sys2Proof.Machine.execYustoRead h idx sub shadow s
  | .yustoWrite h idx sub set value => Sys2Proof.Machine.execYustoWrite h idx sub set value s
  | .yustoShape h idx => Sys2Proof.Machine.execYustoShape h idx s
  | .segRead h idx sub off len => Sys2Proof.Machine.execSegRead h idx sub off len s
  | .segWrite h idx sub set total off data => Sys2Proof.Machine.execSegWrite h idx sub set total off data s
  | .commit h set applyMT => Sys2Proof.Machine.execCommit h set applyMT s
  | .commitCancel h set => Sys2Proof.Machine.execCommitCancel h set s
  | .commitDiscard h set => Sys2Proof.Machine.execCommitDiscard h set s
  | .report h set first => Sys2Proof.Machine.execReport h set first s
  | .subscribe h mask lo hi => Sys2Proof.Machine.execSubscribe h mask lo hi s
  | .subscribeCancel h lo hi => Sys2Proof.Machine.execSubscribeCancel h lo hi s
  | .seqGapWaitExpiry session => Sys2Proof.Machine.execSeqGapWaitExpiry session s
  | .apply set => Sys2Proof.Machine.execApply set s
  | .persistComplete => Sys2Proof.Machine.execPersistComplete s
  | .checkWordScan => Sys2Proof.Machine.execCheckWordScan s
  | .doorbellTail fn slot rsvd1 gen rsvd0 index => Sys2Proof.Machine.execDoorbellTail fn slot rsvd1 gen rsvd0 index s
  | .doorbellHead fn slot rsvd1 gen rsvd0 index => Sys2Proof.Machine.execDoorbellHead fn slot rsvd1 gen rsvd0 index s
  | .doorbellHeadArm fn slot rsvd1 gen rsvd0 index => Sys2Proof.Machine.execDoorbellHeadArm fn slot rsvd1 gen rsvd0 index s
  | .keyRightsWrite fn slot rsvd1 gen rsvd0 rights => Sys2Proof.Machine.execKeyRightsWrite fn slot rsvd1 gen rsvd0 rights s
  | .registerWrite fn loc data poisoned => Sys2Proof.Machine.execRegisterWrite fn loc data poisoned s
  | .fetchVisit => Sys2Proof.Machine.execFetchVisit s
  | .hostReadCompletion tag r => Sys2Proof.Machine.execHostReadCompletion tag r s
  | .descriptorRetire qn => Sys2Proof.Machine.execDescriptorRetire qn s
  | .moderationTimeout qn => Sys2Proof.Machine.execModerationTimeout qn s
  | .nop qn => Sys2Proof.Machine.execNop qn s
  | .queueCreate fn => Sys2Proof.Machine.execQueueCreate fn s
  | .queueResize fn => Sys2Proof.Machine.execQueueResize fn s
  | .queueHalt fn => Sys2Proof.Machine.execQueueHalt fn s
  | .queueDrain fn => Sys2Proof.Machine.execQueueDrain fn s
  | .drainComplete qn => Sys2Proof.Machine.execDrainComplete qn s
  | .queueResume fn => Sys2Proof.Machine.execQueueResume fn s
  | .queueResumeSkip fn => Sys2Proof.Machine.execQueueResumeSkip fn s
  | .queueDestroy fn => Sys2Proof.Machine.execQueueDestroy fn s
  | .queueDestroyForce fn => Sys2Proof.Machine.execQueueDestroyForce fn s
  | .destroyComplete qn => Sys2Proof.Machine.execDestroyComplete qn s
  | .queueQuery fn => Sys2Proof.Machine.execQueueQuery fn s
  | .queueModify fn => Sys2Proof.Machine.execQueueModify fn s
  | .domainOpen domain tenant eqn eager uqHeaders uqMib rsvd => Sys2Proof.Machine.execDomainOpen domain tenant eqn eager uqHeaders uqMib rsvd s
  | .domainClose domain rsvd => Sys2Proof.Machine.execDomainClose domain rsvd s
  | .domainCloseComplete domain => Sys2Proof.Machine.execDomainCloseComplete domain s
  | .recvPost qn => Sys2Proof.Machine.execRecvPost qn s
  | .recvCancel qn => Sys2Proof.Machine.execRecvCancel qn s
  | .tsend qn => Sys2Proof.Machine.execTsend qn s
  | .tsendArrive p => Sys2Proof.Machine.execTsendArrive p s
  | .rtsArrive p => Sys2Proof.Machine.execRtsArrive p s
  | .skipArrive p => Sys2Proof.Machine.execSkipArrive p s
  | .skipNoticeResend flow rsn => Sys2Proof.Machine.execSkipNoticeResend flow rsn s
  | .muRetryResend flow rsn => Sys2Proof.Machine.execMuRetryResend flow rsn s
  | .rgetArrive p => Sys2Proof.Machine.execRgetArrive p s
  | .put qn => Sys2Proof.Machine.execPut qn s
  | .putImm qn => Sys2Proof.Machine.execPutImm qn s
  | .get qn => Sys2Proof.Machine.execGet qn s
  | .fadd64 qn => Sys2Proof.Machine.execFadd64 qn s
  | .swap64 qn => Sys2Proof.Machine.execSwap64 qn s
  | .cas64 qn => Sys2Proof.Machine.execCas64 qn s
  | .cas128 qn => Sys2Proof.Machine.execCas128 qn s
  | .flush qn => Sys2Proof.Machine.execFlush qn s
  | .csend qn => Sys2Proof.Machine.execCsend qn s
  | .cput qn => Sys2Proof.Machine.execCput qn s
  | .cget qn => Sys2Proof.Machine.execCget qn s
  | .putArrive p => Sys2Proof.Machine.execPutArrive p s
  | .putImmArrive p => Sys2Proof.Machine.execPutImmArrive p s
  | .getArrive p => Sys2Proof.Machine.execGetArrive p s
  | .fadd64Arrive p => Sys2Proof.Machine.execFadd64Arrive p s
  | .swap64Arrive p => Sys2Proof.Machine.execSwap64Arrive p s
  | .cas64Arrive p => Sys2Proof.Machine.execCas64Arrive p s
  | .cas128Arrive p => Sys2Proof.Machine.execCas128Arrive p s
  | .flushArrive p => Sys2Proof.Machine.execFlushArrive p s
  | .csendArrive p => Sys2Proof.Machine.execCsendArrive p s
  | .cputArrive p => Sys2Proof.Machine.execCputArrive p s
  | .cgetArrive p => Sys2Proof.Machine.execCgetArrive p s
  | .ackArrive p => Sys2Proof.Machine.execAckArrive p s
  | .refusalArrive p => Sys2Proof.Machine.execRefusalArrive p s
  | .getDataArrive p => Sys2Proof.Machine.execGetDataArrive p s
  | .atomicRespArrive p => Sys2Proof.Machine.execAtomicRespArrive p s
  | .lossNoticeArrive p => Sys2Proof.Machine.execLossNoticeArrive p s
  | .lossIntervalExpiry flow rsn => Sys2Proof.Machine.execLossIntervalExpiry flow rsn s
  | .rnrRetry flow rsn => Sys2Proof.Machine.execRnrRetry flow rsn s
  | .flowContextRetry flow rsn => Sys2Proof.Machine.execFlowContextRetry flow rsn s
  | .pageRetryResend flow rsn => Sys2Proof.Machine.execPageRetryResend flow rsn s
  | .flowContextExpiry flow => Sys2Proof.Machine.execFlowContextExpiry flow s
  | .baseDelayReset node => Sys2Proof.Machine.execBaseDelayReset node s
  | .stallExpiry slot => Sys2Proof.Machine.execStallExpiry slot s
  | .policerReevaluate flow rsn => Sys2Proof.Machine.execPolicerReevaluate flow rsn s
  | .registerRegion fn => Sys2Proof.Machine.execRegisterRegion fn s
  | .deregister fn => Sys2Proof.Machine.execDeregister fn s
  | .regionDrainComplete region => Sys2Proof.Machine.execRegionDrainComplete region s
  | .openConn fn => Sys2Proof.Machine.execOpenConn fn s
  | .closeConn fn => Sys2Proof.Machine.execCloseConn fn s
  | .closeConnForce fn => Sys2Proof.Machine.execCloseConnForce fn s
  | .connCloseComplete conn => Sys2Proof.Machine.execConnCloseComplete conn s
  | .groupCreate qn => Sys2Proof.Machine.execGroupCreate qn s
  | .groupDestroy qn => Sys2Proof.Machine.execGroupDestroy qn s
  | .allreduce qn => Sys2Proof.Machine.execAllreduce qn s
  | .broadcast qn => Sys2Proof.Machine.execBroadcast qn s
  | .barrier qn => Sys2Proof.Machine.execBarrier qn s
  | .collectiveLaunch group step => Sys2Proof.Machine.execCollectiveLaunch group step s
  | .collJoin p => Sys2Proof.Machine.execCollJoin p s
  | .collReady p => Sys2Proof.Machine.execCollReady p s
  | .collAbandon p => Sys2Proof.Machine.execCollAbandon p s
  | .collContrib p => Sys2Proof.Machine.execCollContrib p s
  | .collResult p => Sys2Proof.Machine.execCollResult p s
  | .collAbort p => Sys2Proof.Machine.execCollAbort p s
  | .collHeartbeat p => Sys2Proof.Machine.execCollHeartbeat p s
  | .collDepart p => Sys2Proof.Machine.execCollDepart p s
  | .collLost p => Sys2Proof.Machine.execCollLost p s
  | .collBroken p => Sys2Proof.Machine.execCollBroken p s
  | .collFetch p => Sys2Proof.Machine.execCollFetch p s
  | .joinRetry group => Sys2Proof.Machine.execJoinRetry group s
  | .joinTimeoutExpiry group => Sys2Proof.Machine.execJoinTimeoutExpiry group s
  | .heartbeatInterval group => Sys2Proof.Machine.execHeartbeatInterval group s
  | .livenessTimeout group node => Sys2Proof.Machine.execLivenessTimeout group node s
  | .stepTimeoutExpiry group step => Sys2Proof.Machine.execStepTimeoutExpiry group step s
  | .asCreate writer asid fn tenant eqn failPolicy mark rsvd2 rights rsvd1 root rsvd0 => Sys2Proof.Machine.execAsCreate writer asid fn tenant eqn failPolicy mark rsvd2 rights rsvd1 root rsvd0 s
  | .asModify writer asid fn tenant eqn failPolicy mark rsvd2 rights rsvd1 root rsvd0 => Sys2Proof.Machine.execAsModify writer asid fn tenant eqn failPolicy mark rsvd2 rights rsvd1 root rsvd0 s
  | .asDestroy writer asid fn rsvd => Sys2Proof.Machine.execAsDestroy writer asid fn rsvd s
  | .asCloseComplete asid => Sys2Proof.Machine.execAsCloseComplete asid s
  | .translationInvalidate issuer asid token tlb walk all rsvd3 pages rsvd2 page rsvd0 => Sys2Proof.Machine.execTranslationInvalidate issuer asid token tlb walk all rsvd3 pages rsvd2 page rsvd0 s
  | .invalidateDone issuer => Sys2Proof.Machine.execInvalidateDone issuer s
  | .faultResume issuer asid id rsvd => Sys2Proof.Machine.execFaultResume issuer asid id rsvd s
  | .faultFail issuer asid id rsvd => Sys2Proof.Machine.execFaultFail issuer asid id rsvd s
  | .localWaitExpiry slot => Sys2Proof.Machine.execLocalWaitExpiry slot s
  | .packetRoute src => Sys2Proof.Machine.execPacketRoute src s
  | .packetStart p => Sys2Proof.Machine.execPacketStart p s
  | .singleVcWaitExpiry p vc18 => Sys2Proof.Machine.execSingleVcWaitExpiry p vc18 s
  | .healthInterval => Sys2Proof.Machine.execHealthInterval s
  | .healthArrive port p => Sys2Proof.Machine.execHealthArrive port p s
  | .vaneUpdate => Sys2Proof.Machine.execVaneUpdate s
  | .replicaCheck diffs => Sys2Proof.Machine.execReplicaCheck diffs s
  | .laneOpen qn => Sys2Proof.Machine.execLaneOpen qn s
  | .laneSend qn => Sys2Proof.Machine.execLaneSend qn s
  | .laneClose qn => Sys2Proof.Machine.execLaneClose qn s
  | .laneSetupArrive port p => Sys2Proof.Machine.execLaneSetupArrive port p s
  | .laneReplyArrive port p => Sys2Proof.Machine.execLaneReplyArrive port p s
  | .laneDataArrive port p => Sys2Proof.Machine.execLaneDataArrive port p s
  | .laneReleaseArrive port p => Sys2Proof.Machine.execLaneReleaseArrive port p s
  | .laneLastDepart port label => Sys2Proof.Machine.execLaneLastDepart port label s
  | .laneSetupTimeout lnum => Sys2Proof.Machine.execLaneSetupTimeout lnum s
  | .tentativeLaneTimeout port label => Sys2Proof.Machine.execTentativeLaneTimeout port label s
  | .squallNoticeArrive p => Sys2Proof.Machine.execSquallNoticeArrive p s
  | .squallHoldExpiry lnum => Sys2Proof.Machine.execSquallHoldExpiry lnum s
  | .gateBoundary p => Sys2Proof.Machine.execGateBoundary p s
  | .queueSample skip => Sys2Proof.Machine.execQueueSample skip s
  | .syncMarkerInterval p => Sys2Proof.Machine.execSyncMarkerInterval p s
  | .cellTransmit p => Sys2Proof.Machine.execCellTransmit p s
  | .dataCellReceive p c => Sys2Proof.Machine.execDataCellReceive p c s
  | .creditCellReceive p c => Sys2Proof.Machine.execCreditCellReceive p c s
  | .syncMarkReceive p c => Sys2Proof.Machine.execSyncMarkReceive p c s
  | .syncReplyReceive p c => Sys2Proof.Machine.execSyncReplyReceive p c s
  | .trainCellReceive p c => Sys2Proof.Machine.execTrainCellReceive p c s
  | .idleCellReceive p c matched => Sys2Proof.Machine.execIdleCellReceive p c matched s
  | .replayTimeout p => Sys2Proof.Machine.execReplayTimeout p s
  | .silenceLimitExpiry p => Sys2Proof.Machine.execSilenceLimitExpiry p s
  | .graceExpiry p => Sys2Proof.Machine.execGraceExpiry p s
  | .heldRetryExpiry p => Sys2Proof.Machine.execHeldRetryExpiry p s
  | .retrain p => Sys2Proof.Machine.execRetrain p s
  | .trainingTimeExpiry p => Sys2Proof.Machine.execTrainingTimeExpiry p s
  | .alignmentMarkerReceive p lane marker scheduled bips skew => Sys2Proof.Machine.execAlignmentMarkerReceive p lane marker scheduled bips skew s
  | .codewordDecode p e0 e1 e2 e3 cells => Sys2Proof.Machine.execCodewordDecode p e0 e1 e2 e3 cells s
  | .laneLockLoss p lane cdr => Sys2Proof.Machine.execLaneLockLoss p lane cdr s
  | .lossOfSignal p lane => Sys2Proof.Machine.execLossOfSignal p lane s
  | .bringUpTimeout p => Sys2Proof.Machine.execBringUpTimeout p s
  | .bringUpRestart p => Sys2Proof.Machine.execBringUpRestart p s
  | .lullDwellExpiry p => Sys2Proof.Machine.execLullDwellExpiry p s
  | .lullExitDepth p => Sys2Proof.Machine.execLullExitDepth p s
  | .laneRestoreHoldExpiry p => Sys2Proof.Machine.execLaneRestoreHoldExpiry p s
  | .warmUpExpiry p => Sys2Proof.Machine.execWarmUpExpiry p s
  | .wideningTimeout p => Sys2Proof.Machine.execWideningTimeout p s
  | .peakingTrack p lane up => Sys2Proof.Machine.execPeakingTrack p lane up s
  | .bitSlip p lane => Sys2Proof.Machine.execBitSlip p lane s
  | .eyeScan port lane eye hstep voff dwell rsvd => Sys2Proof.Machine.execEyeScan port lane eye hstep voff dwell rsvd s
  | .eyeScanComplete k errors => Sys2Proof.Machine.execEyeScanComplete k errors s
  | .laserOutputLowExpiry p lane output => Sys2Proof.Machine.execLaserOutputLowExpiry p lane output s
  | .workItemDispatch controlPacket => Sys2Proof.Machine.execWorkItemDispatch controlPacket s
  | .packageCall qn => Sys2Proof.Machine.execPackageCall qn s
  | .budgetExhausted engine ctx => Sys2Proof.Machine.execBudgetExhausted engine ctx s
  | .interruptTaken engine ctx => Sys2Proof.Machine.execInterruptTaken engine ctx s
  | .dmaMoveComplete engine ctx tag given status => Sys2Proof.Machine.execDmaMoveComplete engine ctx tag given status s
  | .mtcmpReached engine ctx => Sys2Proof.Machine.execMtcmpReached engine ctx s
  | .add w rd ra rb => Sys2Proof.Machine.execAdd w rd ra rb s
  | .sub w rd ra rb => Sys2Proof.Machine.execSub w rd ra rb s
  | .neg w rd ra => Sys2Proof.Machine.execNeg w rd ra s
  | .and w rd ra rb => Sys2Proof.Machine.execAnd w rd ra rb s
  | .or w rd ra rb => Sys2Proof.Machine.execOr w rd ra rb s
  | .xor w rd ra rb => Sys2Proof.Machine.execXor w rd ra rb s
  | .andn w rd ra rb => Sys2Proof.Machine.execAndn w rd ra rb s
  | .cmplt w rd ra rb => Sys2Proof.Machine.execCmplt w rd ra rb s
  | .cmpltu w rd ra rb => Sys2Proof.Machine.execCmpltu w rd ra rb s
  | .min w rd ra rb => Sys2Proof.Machine.execMin w rd ra rb s
  | .max w rd ra rb => Sys2Proof.Machine.execMax w rd ra rb s
  | .minu w rd ra rb => Sys2Proof.Machine.execMinu w rd ra rb s
  | .maxu w rd ra rb => Sys2Proof.Machine.execMaxu w rd ra rb s
  | .shl w rd ra rb => Sys2Proof.Machine.execShl w rd ra rb s
  | .shr w rd ra rb => Sys2Proof.Machine.execShr w rd ra rb s
  | .sar w rd ra rb => Sys2Proof.Machine.execSar w rd ra rb s
  | .rotl w rd ra rb => Sys2Proof.Machine.execRotl w rd ra rb s
  | .rotr w rd ra rb => Sys2Proof.Machine.execRotr w rd ra rb s
  | .add32 w rd ra rb => Sys2Proof.Machine.execAdd32 w rd ra rb s
  | .sub32 w rd ra rb => Sys2Proof.Machine.execSub32 w rd ra rb s
  | .neg32 w rd ra => Sys2Proof.Machine.execNeg32 w rd ra s
  | .shl32 w rd ra rb => Sys2Proof.Machine.execShl32 w rd ra rb s
  | .shr32 w rd ra rb => Sys2Proof.Machine.execShr32 w rd ra rb s
  | .sar32 w rd ra rb => Sys2Proof.Machine.execSar32 w rd ra rb s
  | .rotl32 w rd ra rb => Sys2Proof.Machine.execRotl32 w rd ra rb s
  | .rotr32 w rd ra rb => Sys2Proof.Machine.execRotr32 w rd ra rb s
  | .addk w rd ra imm => Sys2Proof.Machine.execAddk w rd ra imm s
  | .addk32 w rd ra imm => Sys2Proof.Machine.execAddk32 w rd ra imm s
  | .andk w rd ra imm => Sys2Proof.Machine.execAndk w rd ra imm s
  | .ork w rd ra imm => Sys2Proof.Machine.execOrk w rd ra imm s
  | .xork w rd ra imm => Sys2Proof.Machine.execXork w rd ra imm s
  | .cmpltk w rd ra imm => Sys2Proof.Machine.execCmpltk w rd ra imm s
  | .cmpltuk w rd ra imm => Sys2Proof.Machine.execCmpltuk w rd ra imm s
  | .shkShl w rd ra amount => Sys2Proof.Machine.execShkShl w rd ra amount s
  | .shkShr w rd ra amount => Sys2Proof.Machine.execShkShr w rd ra amount s
  | .shkSar w rd ra amount => Sys2Proof.Machine.execShkSar w rd ra amount s
  | .shkRotl w rd ra amount => Sys2Proof.Machine.execShkRotl w rd ra amount s
  | .shkRotr w rd ra amount => Sys2Proof.Machine.execShkRotr w rd ra amount s
  | .shkShl32 w rd ra amount => Sys2Proof.Machine.execShkShl32 w rd ra amount s
  | .shkShr32 w rd ra amount => Sys2Proof.Machine.execShkShr32 w rd ra amount s
  | .shkSar32 w rd ra amount => Sys2Proof.Machine.execShkSar32 w rd ra amount s
  | .shkRotl32 w rd ra amount => Sys2Proof.Machine.execShkRotl32 w rd ra amount s
  | .shkRotr32 w rd ra amount => Sys2Proof.Machine.execShkRotr32 w rd ra amount s
  | .khi w rd imm => Sys2Proof.Machine.execKhi w rd imm s
  | .kshor w rd ra imm => Sys2Proof.Machine.execKshor w rd ra imm s
  | .mullo w rd ra rb => Sys2Proof.Machine.execMullo w rd ra rb s
  | .mulhs w rd ra rb => Sys2Proof.Machine.execMulhs w rd ra rb s
  | .mulhu w rd ra rb => Sys2Proof.Machine.execMulhu w rd ra rb s
  | .mulhm w rd ra rb => Sys2Proof.Machine.execMulhm w rd ra rb s
  | .quos w rd ra rb => Sys2Proof.Machine.execQuos w rd ra rb s
  | .quou w rd ra rb => Sys2Proof.Machine.execQuou w rd ra rb s
  | .rmds w rd ra rb => Sys2Proof.Machine.execRmds w rd ra rb s
  | .rmdu w rd ra rb => Sys2Proof.Machine.execRmdu w rd ra rb s
  | .mullo32 w rd ra rb => Sys2Proof.Machine.execMullo32 w rd ra rb s
  | .quos32 w rd ra rb => Sys2Proof.Machine.execQuos32 w rd ra rb s
  | .quou32 w rd ra rb => Sys2Proof.Machine.execQuou32 w rd ra rb s
  | .rmds32 w rd ra rb => Sys2Proof.Machine.execRmds32 w rd ra rb s
  | .rmdu32 w rd ra rb => Sys2Proof.Machine.execRmdu32 w rd ra rb s
  | .clz w rd ra rb => Sys2Proof.Machine.execClz w rd ra rb s
  | .ctz w rd ra rb => Sys2Proof.Machine.execCtz w rd ra rb s
  | .popc w rd ra rb => Sys2Proof.Machine.execPopc w rd ra rb s
  | .bswap w rd ra rb => Sys2Proof.Machine.execBswap w rd ra rb s
  | .crc w rd ra rb => Sys2Proof.Machine.execCrc w rd ra rb s
  | .clz32 w rd ra rb => Sys2Proof.Machine.execClz32 w rd ra rb s
  | .ctz32 w rd ra rb => Sys2Proof.Machine.execCtz32 w rd ra rb s
  | .popc32 w rd ra rb => Sys2Proof.Machine.execPopc32 w rd ra rb s
  | .ld8 w rd ra imm => Sys2Proof.Machine.execLd8 w rd ra imm s
  | .ld8u w rd ra imm => Sys2Proof.Machine.execLd8u w rd ra imm s
  | .ld16 w rd ra imm => Sys2Proof.Machine.execLd16 w rd ra imm s
  | .ld16u w rd ra imm => Sys2Proof.Machine.execLd16u w rd ra imm s
  | .ld32 w rd ra imm => Sys2Proof.Machine.execLd32 w rd ra imm s
  | .ld32u w rd ra imm => Sys2Proof.Machine.execLd32u w rd ra imm s
  | .ld64 w rd ra imm => Sys2Proof.Machine.execLd64 w rd ra imm s
  | .ld2w w rd ra imm => Sys2Proof.Machine.execLd2w w rd ra imm s
  | .st8 w rs ra imm => Sys2Proof.Machine.execSt8 w rs ra imm s
  | .st16 w rs ra imm => Sys2Proof.Machine.execSt16 w rs ra imm s
  | .st32 w rs ra imm => Sys2Proof.Machine.execSt32 w rs ra imm s
  | .st64 w rs ra imm => Sys2Proof.Machine.execSt64 w rs ra imm s
  | .st2w w rs ra imm => Sys2Proof.Machine.execSt2w w rs ra imm s
  | .lrsv w rd ra imm => Sys2Proof.Machine.execLrsv w rd ra imm s
  | .scnd w rd ra rb => Sys2Proof.Machine.execScnd w rd ra rb s
  | .fenceO w => Sys2Proof.Machine.execFenceO w s
  | .fenceP w => Sys2Proof.Machine.execFenceP w s
  | .brEq w ra rb off => Sys2Proof.Machine.execBrEq w ra rb off s
  | .brNe w ra rb off => Sys2Proof.Machine.execBrNe w ra rb off s
  | .brLt w ra rb off => Sys2Proof.Machine.execBrLt w ra rb off s
  | .brGe w ra rb off => Sys2Proof.Machine.execBrGe w ra rb off s
  | .brLtu w ra rb off => Sys2Proof.Machine.execBrLtu w ra rb off s
  | .brGeu w ra rb off => Sys2Proof.Machine.execBrGeu w ra rb off s
  | .call w off => Sys2Proof.Machine.execCall w off s
  | .jump w off => Sys2Proof.Machine.execJump w off s
  | .callr w rd ra imm => Sys2Proof.Machine.execCallr w rd ra imm s
  | .rds w rd ra sel => Sys2Proof.Machine.execRds w rd ra sel s
  | .wrs w rd ra sel => Sys2Proof.Machine.execWrs w rd ra sel s
  | .trap w rd ra sel => Sys2Proof.Machine.execTrap w rd ra sel s
  | .brk w rd ra sel => Sys2Proof.Machine.execBrk w rd ra sel s
  | .ret w rd ra sel => Sys2Proof.Machine.execRet w rd ra sel s
  | .wait w rd ra sel => Sys2Proof.Machine.execWait w rd ra sel s
  | .yield w rd ra sel => Sys2Proof.Machine.execYield w rd ra sel s
  | .doneItem w rd ra sel => Sys2Proof.Machine.execDoneItem w rd ra sel s
  | .mtread w rd ra => Sys2Proof.Machine.execMtread w rd ra s
  | .dma w rd ra => Sys2Proof.Machine.execDma w rd ra s
  | .dmawait w rd ra => Sys2Proof.Machine.execDmawait w rd ra s
  | .wake w rd ra => Sys2Proof.Machine.execWake w rd ra s
  | .acquire w rd ra => Sys2Proof.Machine.execAcquire w rd ra s
  | .release w rd ra => Sys2Proof.Machine.execRelease w rd ra s
  | .tryLock w rd ra => Sys2Proof.Machine.execTryLock w rd ra s
  | .illegalInstruction w word => Sys2Proof.Machine.execIllegalInstruction w word s
  | .activate target source instant => Sys2Proof.Machine.execActivate target source instant s
  | .activationCancel target => Sys2Proof.Machine.execActivationCancel target s
  | .packageRemove target => Sys2Proof.Machine.execPackageRemove target s
  | .activationInstant target => Sys2Proof.Machine.execActivationInstant target s
  | .quiesceComplete target => Sys2Proof.Machine.execQuiesceComplete target s
  | .quiesceTimeout target => Sys2Proof.Machine.execQuiesceTimeout target s
  | .lockAcquire fn priority token eqn rsvd lock => Sys2Proof.Machine.execLockAcquire fn priority token eqn rsvd lock s
  | .lockRelease fn priority token eqn rsvd lock => Sys2Proof.Machine.execLockRelease fn priority token eqn rsvd lock s
  | .lockTry fn priority token eqn rsvd lock => Sys2Proof.Machine.execLockTry fn priority token eqn rsvd lock s
  | .lockCancel fn priority token eqn rsvd lock => Sys2Proof.Machine.execLockCancel fn priority token eqn rsvd lock s
  | .scrubRead k ecc => Sys2Proof.Machine.execScrubRead k ecc s
  | .stackLost k => Sys2Proof.Machine.execStackLost k s
  | .mailboxSubmit fn len => Sys2Proof.Machine.execMailboxSubmit fn len s
  | .aqEnable fn => Sys2Proof.Machine.execAqEnable fn s
  | .aqDisable fn => Sys2Proof.Machine.execAqDisable fn s
  | .aqResume fn => Sys2Proof.Machine.execAqResume fn s
  | .aqResumeSkip fn => Sys2Proof.Machine.execAqResumeSkip fn s
  | .aqResizeCq fn => Sys2Proof.Machine.execAqResizeCq fn s
  | .groupWriteTakesEffect fn translation => Sys2Proof.Machine.execGroupWriteTakesEffect fn translation s
  | .functionLevelReset fn => Sys2Proof.Machine.execFunctionLevelReset fn s
  | .flrComplete fn => Sys2Proof.Machine.execFlrComplete fn s
  | .hostLinkDown k => Sys2Proof.Machine.execHostLinkDown k s
  | .perstAssert k => Sys2Proof.Machine.execPerstAssert k s
  | .sbRead addr data => Sys2Proof.Machine.execSbRead addr data s
  | .sbWrite addr data => Sys2Proof.Machine.execSbWrite addr data s
  | .sbNop op addr data => Sys2Proof.Machine.execSbNop op addr data s
  | .sbFrameAbort => Sys2Proof.Machine.execSbFrameAbort s
  | .inputGood vin => Sys2Proof.Machine.execInputGood vin s
  | .inputLoss vin => Sys2Proof.Machine.execInputLoss vin s
  | .inputOvervoltage vin => Sys2Proof.Machine.execInputOvervoltage vin s
  | .domainStart d => Sys2Proof.Machine.execDomainStart d s
  | .domainPowerGood d => Sys2Proof.Machine.execDomainPowerGood d s
  | .domainRampTimeout d => Sys2Proof.Machine.execDomainRampTimeout d s
  | .domainRestart d => Sys2Proof.Machine.execDomainRestart d s
  | .departRequest => Sys2Proof.Machine.execDepartRequest s
  | .departQuiesceComplete => Sys2Proof.Machine.execDepartQuiesceComplete s
  | .departDrainComplete => Sys2Proof.Machine.execDepartDrainComplete s
  | .drainLimitExpiry => Sys2Proof.Machine.execDrainLimitExpiry s
  | .linkCtlDepartArrive port p => Sys2Proof.Machine.execLinkCtlDepartArrive port p s
  | .departDoneArrive port p => Sys2Proof.Machine.execDepartDoneArrive port p s
  | .powerOnReset => Sys2Proof.Machine.execPowerOnReset s
  | .brownOutReset => Sys2Proof.Machine.execBrownOutReset s
  | .pinReset => Sys2Proof.Machine.execPinReset s
  | .watchdogExpiry => Sys2Proof.Machine.execWatchdogExpiry s
  | .startTimeout => Sys2Proof.Machine.execStartTimeout s
  | .resetRequestWarm => Sys2Proof.Machine.execResetRequestWarm s
  | .resetRequestCold => Sys2Proof.Machine.execResetRequestCold s
  | .resetWarm => Sys2Proof.Machine.execResetWarm s
  | .resetCold => Sys2Proof.Machine.execResetCold s
  | .clockFailure pll => Sys2Proof.Machine.execClockFailure pll s
  | .lockup busHang => Sys2Proof.Machine.execLockup busHang s
  | .resetRelease bootSel clkMode slotId => Sys2Proof.Machine.execResetRelease bootSel clkMode slotId s
  | .bundleWaitExpiry => Sys2Proof.Machine.execBundleWaitExpiry s
  | .managementFirmwareStart => Sys2Proof.Machine.execManagementFirmwareStart s
  | .operationalMilestone => Sys2Proof.Machine.execOperationalMilestone s
  | .doldrumsExit => Sys2Proof.Machine.execDoldrumsExit s
  | .sensorScan x => Sys2Proof.Machine.execSensorScan x s
  | .telemetrySample => Sys2Proof.Machine.execTelemetrySample s
  | .logCoalesceFlush => Sys2Proof.Machine.execLogCoalesceFlush s
  | .updateBegin session target length => Sys2Proof.Machine.execUpdateBegin session target length s
  | .updateFinish session => Sys2Proof.Machine.execUpdateFinish session s
  | .updateVerifyComplete => Sys2Proof.Machine.execUpdateVerifyComplete s
  | .updateAbort session => Sys2Proof.Machine.execUpdateAbort session s
  | .updateCopy source target => Sys2Proof.Machine.execUpdateCopy source target s
  | .bootOnce target => Sys2Proof.Machine.execBootOnce target s
  | .updateErase target => Sys2Proof.Machine.execUpdateErase target s
  | .faultRaise source inst data => Sys2Proof.Machine.execFaultRaise source inst data s
  | .resetHoldExpiry => Sys2Proof.Machine.execResetHoldExpiry s
  | .clearSource source => Sys2Proof.Machine.execClearSource source s
  | .clearAll => Sys2Proof.Machine.execClearAll s
  | .unfreeze => Sys2Proof.Machine.execUnfreeze s
  | .empty => Sys2Proof.Machine.execEmpty s
  | .faultInjection source => Sys2Proof.Machine.execFaultInjection source s
  | .breezeToggle written => Sys2Proof.Machine.execBreezeToggle written s
  | .breezeKeepaliveExpiry => Sys2Proof.Machine.execBreezeKeepaliveExpiry s
  | .cdrLockAcquired p lane step => Sys2Proof.Machine.execCdrLockAcquired p lane step s
  | .stackTrainingComplete k ok => Sys2Proof.Machine.execStackTrainingComplete k ok s
  | .hostLinkUp k width rate flit => Sys2Proof.Machine.execHostLinkUp k width rate flit s
  | .perstDeassert k refclk => Sys2Proof.Machine.execPerstDeassert k refclk s
  | .roundTripSample p sample => Sys2Proof.Machine.execRoundTripSample p sample s

end Sys2Proof.Machine
end

