-- ==== Sys2Proof/Machine/Step.lean ====
section
/-!
DEFINITION. One step of the module: the command at the front of the queue, or one REF_CLK cycle.
-/
namespace Sys2Proof.Machine

/-- With nothing waiting, machine time passes while PD_AO is ON: one cycle of REF_CLK (R14).
DESIGN CHOICE (assumption 35). -/
def idle (s : State) : State := if domOn s 0 then tick s else s

/-- Take the command at the front of the queue and run it with the rest of the queue. -/
def step (s : State) : Host.Outcome State Fault Refusal :=
  match s.pending with
  | [] => .next (idle s)
  | c :: r => exec c { s with pending := r }

/-- `s` with the command that a word spells put at the front of its queue; no word spells one. -/
def State.withFetchWord (s : State) (nbits w : Nat) : State :=
  match decodeTableWord nbits w with
  | some c => { s with pending := c :: s.pending }
  | none => s

end Sys2Proof.Machine
end

