-- ==== Sys2Proof/WellFormed.lean ====
section
/-!
DEFINITION. Well-formed commands: the operands lie inside their fields, a packet is of the type and
kind of its command with every field inside its width (R236).  Everything else about an operand is in
its type.
-/
namespace Sys2Proof
open Machine

/-- Is the command well formed? -/
def Instr.wf : Instr → Bool
  | .timeRequestArrive _ p => isPacket [tTIME] p && tmKIND p == 0
  | .timeResponseArrive _ p => isPacket [tTIME] p && tmKIND p == 1
  | .tsendArrive p => isPacket [tTSEND] p
  | .rtsArrive p => isPacket [tRTS] p
  | .skipArrive p => isPacket [tSKIP] p
  | .rgetArrive p => isPacket [tRGET] p
  | .putArrive p => isPacket [tPUT] p
  | .putImmArrive p => isPacket [tPUTIMM] p
  | .getArrive p => isPacket [tGET] p
  | .fadd64Arrive p => isPacket [tFADD64] p
  | .swap64Arrive p => isPacket [tSWAP64] p
  | .cas64Arrive p => isPacket [tCAS64] p
  | .cas128Arrive p => isPacket [tCAS128] p
  | .flushArrive p => isPacket [tFLUSH] p
  | .csendArrive p => isPacket [tCSEND] p
  | .cputArrive p => isPacket [tCPUT] p
  | .cgetArrive p => isPacket [tCGET] p
  | .ackArrive p => isPacket [tACK] p
  | .refusalArrive p => isPacket [tREFUSAL] p
  | .getDataArrive p => isPacket [tGETDATA] p
  | .atomicRespArrive p => isPacket [tATOMRESP] p
  | .lossNoticeArrive p => isPacket [tLOSS] p
  | .collJoin p => isPacket [tCOLL] p && cKIND p == kJOIN
  | .collReady p => isPacket [tCOLL] p && cKIND p == kREADY
  | .collAbandon p => isPacket [tCOLL] p && cKIND p == kABANDON
  | .collContrib p => isPacket [tCOLL] p && cKIND p == kCONTRIB
  | .collResult p => isPacket [tCOLL] p && cKIND p == kRESULT
  | .collAbort p => isPacket [tCOLL] p && cKIND p == kABORT
  | .collHeartbeat p => isPacket [tCOLL] p && cKIND p == kHEARTBEAT
  | .collDepart p => isPacket [tCOLL] p && cKIND p == kDEPART
  | .collLost p => isPacket [tCOLL] p && cKIND p == kLOST
  | .collBroken p => isPacket [tCOLL] p && cKIND p == kBROKEN
  | .collFetch p => isPacket [tCOLL] p && cKIND p == kFETCH
  | .healthArrive _ p => isPacket [tLINKCTL] p && kKIND p == 3
  | .laneSetupArrive _ p => isPacket [tLANESETUP] p
  | .laneReplyArrive _ p => isPacket [tLANEREPLY] p
  | .laneDataArrive _ p => isPacket [tLANEDATA] p
  | .laneReleaseArrive _ p => isPacket [tLANEREL] p
  | .squallNoticeArrive p => isPacket [tSQUALL] p
  | .linkCtlDepartArrive _ p => isPacket [tLINKCTL] p && kKIND p == 1
  | .departDoneArrive _ p => isPacket [tLINKCTL] p && kKIND p == 2
  | .refClkLost .. | .epochEdge .. | .epochLost .. | .tcodeFrame .. | .tcodeLost .. | .slewEnd ..
  | .usablePeerAdvertised .. | .sourcePeerLost .. | .holdDownExpiry .. | .timeExchangeStart ..
  | .measuredDelayUpdate .. | .calibrationComplete .. | .uncertaintyLimitCrossed .. | .timePulse ..
  | .timePulseEnd .. | .sessionOpen .. | .sessionIdleTimeout .. | .datagramOutsideSession ..
  | .yustoRead .. | .yustoWrite .. | .yustoShape .. | .segRead .. | .segWrite .. | .commit ..
  | .commitCancel .. | .commitDiscard .. | .report .. | .subscribe .. | .subscribeCancel ..
  | .seqGapWaitExpiry .. | .apply .. | .persistComplete .. | .checkWordScan .. | .doorbellTail ..
  | .doorbellHead .. | .doorbellHeadArm .. | .keyRightsWrite .. | .registerWrite ..
  | .fetchVisit .. | .hostReadCompletion .. | .descriptorRetire .. | .moderationTimeout ..
  | .nop .. | .queueCreate .. | .queueResize .. | .queueHalt .. | .queueDrain ..
  | .drainComplete .. | .queueResume .. | .queueResumeSkip .. | .queueDestroy ..
  | .queueDestroyForce .. | .destroyComplete .. | .queueQuery .. | .queueModify .. | .domainOpen ..
  | .domainClose .. | .domainCloseComplete .. | .recvPost .. | .recvCancel .. | .tsend ..
  | .skipNoticeResend .. | .muRetryResend .. | .put .. | .putImm .. | .get .. | .fadd64 ..
  | .swap64 .. | .cas64 .. | .cas128 .. | .flush .. | .csend .. | .cput .. | .cget ..
  | .lossIntervalExpiry .. | .rnrRetry .. | .flowContextRetry .. | .pageRetryResend ..
  | .flowContextExpiry .. | .baseDelayReset .. | .stallExpiry .. | .policerReevaluate ..
  | .registerRegion .. | .deregister .. | .regionDrainComplete .. | .openConn .. | .closeConn ..
  | .closeConnForce .. | .connCloseComplete .. | .groupCreate .. | .groupDestroy .. | .allreduce ..
  | .broadcast .. | .barrier .. | .collectiveLaunch .. | .joinRetry .. | .joinTimeoutExpiry ..
  | .heartbeatInterval .. | .livenessTimeout .. | .stepTimeoutExpiry .. | .asCreate ..
  | .asModify .. | .asDestroy .. | .asCloseComplete .. | .translationInvalidate ..
  | .invalidateDone .. | .faultResume .. | .faultFail .. | .localWaitExpiry .. | .packetRoute ..
  | .packetStart .. | .singleVcWaitExpiry .. | .healthInterval .. | .vaneUpdate ..
  | .replicaCheck .. | .laneOpen .. | .laneSend .. | .laneClose .. | .laneLastDepart ..
  | .laneSetupTimeout .. | .tentativeLaneTimeout .. | .squallHoldExpiry .. | .gateBoundary ..
  | .queueSample .. | .syncMarkerInterval .. | .cellTransmit .. | .dataCellReceive ..
  | .creditCellReceive .. | .syncMarkReceive .. | .syncReplyReceive .. | .trainCellReceive ..
  | .idleCellReceive .. | .replayTimeout .. | .silenceLimitExpiry .. | .graceExpiry ..
  | .heldRetryExpiry .. | .retrain .. | .trainingTimeExpiry .. | .alignmentMarkerReceive ..
  | .codewordDecode .. | .laneLockLoss .. | .lossOfSignal .. | .bringUpTimeout ..
  | .bringUpRestart .. | .lullDwellExpiry .. | .lullExitDepth .. | .laneRestoreHoldExpiry ..
  | .warmUpExpiry .. | .wideningTimeout .. | .peakingTrack .. | .bitSlip .. | .eyeScan ..
  | .eyeScanComplete .. | .laserOutputLowExpiry .. | .workItemDispatch .. | .packageCall ..
  | .budgetExhausted .. | .interruptTaken .. | .dmaMoveComplete .. | .mtcmpReached .. | .add ..
  | .sub .. | .neg .. | .and .. | .or .. | .xor .. | .andn .. | .cmplt .. | .cmpltu .. | .min ..
  | .max .. | .minu .. | .maxu .. | .shl .. | .shr .. | .sar .. | .rotl .. | .rotr .. | .add32 ..
  | .sub32 .. | .neg32 .. | .shl32 .. | .shr32 .. | .sar32 .. | .rotl32 .. | .rotr32 .. | .addk ..
  | .addk32 .. | .andk .. | .ork .. | .xork .. | .cmpltk .. | .cmpltuk .. | .shkShl .. | .shkShr ..
  | .shkSar .. | .shkRotl .. | .shkRotr .. | .shkShl32 .. | .shkShr32 .. | .shkSar32 ..
  | .shkRotl32 .. | .shkRotr32 .. | .khi .. | .kshor .. | .mullo .. | .mulhs .. | .mulhu ..
  | .mulhm .. | .quos .. | .quou .. | .rmds .. | .rmdu .. | .mullo32 .. | .quos32 .. | .quou32 ..
  | .rmds32 .. | .rmdu32 .. | .clz .. | .ctz .. | .popc .. | .bswap .. | .crc .. | .clz32 ..
  | .ctz32 .. | .popc32 .. | .ld8 .. | .ld8u .. | .ld16 .. | .ld16u .. | .ld32 .. | .ld32u ..
  | .ld64 .. | .ld2w .. | .st8 .. | .st16 .. | .st32 .. | .st64 .. | .st2w .. | .lrsv .. | .scnd ..
  | .fenceO .. | .fenceP .. | .brEq .. | .brNe .. | .brLt .. | .brGe .. | .brLtu .. | .brGeu ..
  | .call .. | .jump .. | .callr .. | .rds .. | .wrs .. | .trap .. | .brk .. | .ret .. | .wait ..
  | .yield .. | .doneItem .. | .mtread .. | .dma .. | .dmawait .. | .wake .. | .acquire ..
  | .release .. | .tryLock .. | .illegalInstruction .. | .activate .. | .activationCancel ..
  | .packageRemove .. | .activationInstant .. | .quiesceComplete .. | .quiesceTimeout ..
  | .lockAcquire .. | .lockRelease .. | .lockTry .. | .lockCancel .. | .scrubRead ..
  | .stackLost .. | .mailboxSubmit .. | .aqEnable .. | .aqDisable .. | .aqResume ..
  | .aqResumeSkip .. | .aqResizeCq .. | .groupWriteTakesEffect .. | .functionLevelReset ..
  | .flrComplete .. | .hostLinkDown .. | .perstAssert .. | .sbRead .. | .sbWrite .. | .sbNop ..
  | .sbFrameAbort .. | .inputGood .. | .inputLoss .. | .inputOvervoltage .. | .domainStart ..
  | .domainPowerGood .. | .domainRampTimeout .. | .domainRestart .. | .departRequest ..
  | .departQuiesceComplete .. | .departDrainComplete .. | .drainLimitExpiry .. | .powerOnReset ..
  | .brownOutReset .. | .pinReset .. | .watchdogExpiry .. | .startTimeout .. | .resetRequestWarm ..
  | .resetRequestCold .. | .resetWarm .. | .resetCold .. | .clockFailure .. | .lockup ..
  | .resetRelease .. | .bundleWaitExpiry .. | .managementFirmwareStart ..
  | .operationalMilestone .. | .doldrumsExit .. | .sensorScan .. | .telemetrySample ..
  | .logCoalesceFlush .. | .updateBegin .. | .updateFinish .. | .updateVerifyComplete ..
  | .updateAbort .. | .updateCopy .. | .bootOnce .. | .updateErase .. | .faultRaise ..
  | .resetHoldExpiry .. | .clearSource .. | .clearAll .. | .unfreeze .. | .empty ..
  | .faultInjection .. | .breezeToggle .. | .breezeKeepaliveExpiry .. | .cdrLockAcquired ..
  | .stackTrainingComplete .. | .hostLinkUp .. | .perstDeassert .. | .roundTripSample .. => true

end Sys2Proof
end

