-- ==== Sys2Proof/Safety.lean ====
section
/-!
DEFINITION. The terms that the claims use: what a command does before the other units take what it
leaves them, when an engine may issue, and the canonical form of the byte memories.
-/
namespace Sys2Proof.Machine

/-- The command completes: it changes the state to one that satisfies `P`, and then the other units
take what it left them (`settle`), which changes nothing where it left nothing. -/
def Effect (o : Out3) (P : State → Prop) : Prop := ∃ t, o = .next (settle t) ∧ P t

/-- Every byte memory of an engine is in its canonical form. -/
def Engine.memWf (g : Engine) : Bool := Memory.wf g.ldm && Memory.wf g.imem

/-- The byte memories of the module are in their canonical form: addresses rising, no listed byte equal
to what an unlisted address reads as. -/
def State.memWf (s : State) : Bool :=
  Memory.wf s.cm.bytes && s.me.engines.all (fun e => e.2.memWf) && s.me.cmem.all (fun e => Memory.wf e.2) &&
    s.hl.fns.all (fun e => Memory.wf e.2.mb.req)

/-- The register files of an engine list their contexts and registers in rising order. -/
def Engine.sorted (g : Engine) : Bool := mwf g.ctxs && g.ctxs.all (fun e => mwf e.2.regs)

/-- The canonical form of what engines compute with: the byte memories, and the register files. -/
def State.canon (s : State) : Bool :=
  s.memWf && mwf s.me.engines && s.me.engines.all (fun e => e.2.sorted)

/-- The engine instruction issues where nothing comes before its own effect: its context is in charge
and may run, no interrupt is due, and the fetch at its pc raises nothing (R374, R381, R384). -/
def Issues (s : State) (w : Issue) : Bool :=
  let s1 := switchTo w.engine w.ctx s
  canIssue s w.engine w.ctx && !intDue s1 w.engine w.ctx && fetchOk s1 w.engine w.ctx &&
    (pcOf s1 w.engine w.ctx).toNat % 4 == 0 && w.fetch == .clean

/-- The state in which an issuing instruction has its effect: its context in charge, and its place in the
precise samples (R374, R397). -/
def issued (s : State) (w : Issue) (word kind : Nat) : State :=
  sampleIssue w.engine w.ctx word kind (switchTo w.engine w.ctx s)

/-- The next request of an open session of the management port arrives while firmware runs: session `k`
with record `x`, its own SESSION number, the expected SEQ and nothing held or kept under it (R51, R54). -/
def InTurn (s : State) (h : YHdr) (n : BitVec 30) (x : Session) : Prop :=
  h.carrier = .mgmt n ∧ h.ok = true ∧ s.rs.phase = .running ∧ session s n.toNat = some x ∧ isMgmtCarrier x.carrier = true ∧
    h.session.toNat = x.number ∧ x.kept.all (fun r => r.seq != h.seq.toNat) = true ∧
    x.next = some h.seq.toNat

/-- The session as the request finds it: no longer idle (R51). -/
def awake (s : State) (x : Session) : Session := { x with idleAt := ticks s + rc s 0x2102 0 * 2 ^ 32 }

/-- The state in which the request is executed. -/
def heard (s : State) (n : BitVec 30) : State :=
  setSession n.toNat (fun x => { x with idleAt := ticks s + rc s 0x2102 0 * 2 ^ 32 }) s

/-- The response: kept among the last 32 of the session, NEXT advanced, sent, and the held requests that
are next follow (R54). -/
def reply (n : BitVec 30) (x : Session) (h : YHdr) (op st : Nat) (body : List Byte) (s : State) : State :=
  let r : YResponse := { seq := h.seq.toNat, op := op, status := st, body := body }
  runHeld n.toNat 32 (respond x r (setSession n.toNat (fun y => { y with
    next := some ((h.seq.toNat + 1) % 2 ^ 32)
    held := y.held.filter fun g => g.1 != h.seq.toNat
    kept := (y.kept ++ [r]).drop (y.kept.length - 31) }) s))

/-- A doorbell of a function reaches an existing queue (R82): the state in which it is judged. -/
def rung (s : State) (fn : Nat) : State := bumpHost (fnLink fn) 1 1 s

def Rings (s : State) (fn slot qn : Nat) : Prop :=
  barsLive s fn = true ∧ slotQueue (rung s fn) fn slot = some qn ∧ qExists (queue (rung s fn) qn) = true

/-- The next admin command of a function has started (R100). -/
def adminAt (s : State) (fn : Nat) (o : SendOp) : State := markStarted (adminQn s fn) o.n s

/-- It is an admin command with this opcode, and its target is an existing queue of the function's range
(R100); unless the command is one of `last` (QUERY, DESTROY with FORCE), no DESTROY has taken the queue and its
context is not lost (R107, R109, R112). -/
def AdminOn (s : State) (fn : Nat) (o : SendOp) (last : Bool) (opcode : Nat) : Prop :=
  let s1 := adminAt s fn o
  let qn := aTARGET o.desc
  nextAdmin s fn = some o ∧ dOPCODE o.desc = opcode ∧ ownsQn s1 fn qn = true ∧ qn ≠ adminQn s fn ∧
    qn ≠ adminQn s fn + 1 ∧ qExists (queue s1 qn) = true ∧
    (last = true ∨ ((queue s1 qn).destroying = none ∧ (queue s1 qn).haltReason ≠ hCONTEXTLOST))

end Sys2Proof.Machine
end

