-- ==== Sys2Proof/Certificates/Slice0/Obligations.lean ====
section
/-!
DEFINITION. The statements for the provers.  Where a statement says what a command does, `Effect` names
the state before the other units take what the command leaves them; a state named with `=` in full is
its own frame.  Commands of the block complete on every well-formed operand; the premises of a clause
are those under which the spec gives the command the effect that the clause states.
-/
open Sys2Proof Sys2Proof.Machine

/-- Losing the time inputs and the source peer (R14, R19, R23, R28). -/
def Obligations.TimeInputsEnd : Prop :=
  ∀ s : State, domOn s 0 = true → internalClock s = false →
    (let s1 : State := { s with tb := { s.tb with
        refClkValid := false, qualified := false, haveEdge := false, framePrev := none, frameNow := none } }
     Effect (exec .refClkLost s) (fun t =>
      (s.tb.state ≠ .refLocked → t = s1) ∧
      (s.tb.state = .refLocked → bestPeer s1 (fun _ => true) = none → t = enterState .holdover s1) ∧
      (∀ p, s.tb.state = .refLocked → bestPeer s1 (fun _ => true) = some p → t = followPeer p s1))) ∧
    (let s1 : State := { s with tb := { s.tb with
        epochValid := false, qualified := false, haveEdge := false, framePrev := none, frameNow := none
        missed := 0 } }
     Effect (exec .epochLost s) (fun t =>
      (s.tb.state ≠ .refLocked → t = s1) ∧
      (s.tb.state = .refLocked → bestPeer s1 (fun _ => true) = none → t = enterState .holdover s1) ∧
      (∀ p, s.tb.state = .refLocked → bestPeer s1 (fun _ => true) = some p → t = followPeer p s1))) ∧
    Effect (exec .tcodeLost s) (fun t => t = { s with tb := { s.tb with
      tcodeValid := false, frameNow := none, framePrev := none,
      secondsUnconfirmed := s.tb.secondsUnconfirmed || (s.tb.refClkValid && s.tb.epochValid) } }) ∧
    (∀ p, s.tb.state = .fabricLocked → s.tb.srcPort = some p → usablePeer s p = false →
      Effect (exec .sourcePeerLost s) (fun t =>
        t = enterState .holdover { s with tb := { s.tb with
          srcPort := none, holdDown := some (s.tb.count + 2 ^ 32) } }))

/-- Qualifying edges, time codes and the hold-down (R15, R18, R24, R28). -/
def Obligations.EdgesFramesAndHoldDown : Prop :=
  ∀ s : State, domOn s 0 = true → internalClock s = false →
    (∀ (spacing : BitVec 32) (refMs : BitVec 16) (n m : Nat), s.tb.state = .free → s.tb.haveEdge = true →
      99999995 ≤ spacing.toNat → spacing.toNat ≤ 100000005 →
      2000 ≤ refMs.toNat → s.tb.frameNow = some n → s.tb.framePrev = some m → n = (m + 1) % 2 ^ 32 →
      Effect (exec (.epochEdge spacing refMs) s) (fun t =>
        let mt := n * 2 ^ 32 + cableDelay s
        t = enterState .refLocked { s with tb := { s.tb with
          refClkValid := true, missed := 0, epochValid := true, qualified := true
          framePrev := some n, frameNow := none, adopt := none, delayHeld := cableDelay s
          mt := mt % 2 ^ 64, frac := 0, residual := 0, pulseDue := mt % 2 ^ 32 == 0 } })) ∧
    (∀ (frame : BitVec 96) (a b : BitVec 32),
      let bad := fld frame.toNat 95 80 ≠ 0xB38F ∨
        crc32c (beBytes 6 (fld frame.toNat 79 32)) ≠ fld frame.toNat 31 0 ∨ a.toNat < 100 ∨ b.toNat < 100
      (bad → Effect (exec (.tcodeFrame frame a b) s) (fun t => t = bump 0x4062 0 s)) ∧
      (¬bad → s.tb.state ≠ .refLocked → Effect (exec (.tcodeFrame frame a b) s) (fun t =>
        t = { s with tb := { s.tb with tcodeValid := true, quality := fld frame.toNat 47 40,
                                       frameNow := some (fld frame.toNat 79 48) } }))) ∧
    (∀ at_, s.tb.holdDown = some at_ → at_ ≤ ticks s → s.tb.state = .holdover →
      bestPeer s (steadyPeer s) = none →
      Effect (exec .holdDownExpiry s) (fun t => t = { s with tb := { s.tb with holdDown := none } }))

/-- Fabric time transfer, averages and limits, and the pulse (R20, R28, R29, R31 to R33, R37). -/
def Obligations.FabricTimeAndMachineTimeEvents : Prop :=
  ∀ s : State, domOn s 0 = true →
    (∀ (p : Fin 72) (q : Nat), s.tb.state = .fabricLocked → lowerPeer s p = true → bestPeer s (lowerPeer s) = some q →
      Effect (exec (.usablePeerAdvertised p) s) (fun t => t = followPeer q s)) ∧
    (∀ p : Fin 72, domOn s dCX = true → mayExchange s p = true →
      Effect (exec (.timeExchangeStart p) s) (fun t =>
        let n := (peerTime s p).nextXid
        let s1 := setPeer p (fun x => { x with
          openXid := some x.nextXid, nextXid := (x.nextXid + 1) % 64, nextStart := ticks s + rc s 0x4020 0 }) s
        t = enqueue p 0 none (timePacket s1 p 0 0 0 n) s1)) ∧
    (∀ (port : Fin 72) (p : Packet), domOn s dCX = true → Instr.wf (.timeRequestArrive port p) = true →
      (let s1 := notePeer port p (takeIngress port p true s)
       timeFree s1 = false →
        Effect (exec (.timeRequestArrive port p) s) (fun t =>
          t = enqueue port 0 none (timePacket s1 port (tmT1 p) (arrivedAt port p s) 1 (tmXID p)) s1))) ∧
    (∀ (port : Fin 72) (p : Packet), domOn s dCX = true → Instr.wf (.timeResponseArrive port p) = true →
      (let s0 := takeIngress port p true s
       let out : Int := (tmT2 p : Int) - (tmT1 p : Int)
       let back : Int := (arrivedAt port p s : Int) - (tmT3 p : Int)
       let s1 := notePeer port p (setPeer port (fun y => { y with openXid := none }) s0)
       let s2 := setPeer port (fun y => { y with
         offset := some ((out - back) / 2), delay := sat 32 ((out + back) / 2).toNat
         sumDelay := y.sumDelay + ((out + back) / 2).toNat, nDelay := y.nDelay + 1 }) s1
       (peerTime s0 port).openXid = some (tmXID p) → (peerTime s0 port).nDelay = 0 → s2.tb.state = .refLocked →
       (∀ q < 72, (trained s2 q && (peerTime s2 q).depth == 0) = false) →
        Effect (exec (.timeResponseArrive port p) s) (fun t => t = s2))) ∧
    (s.tb.medianCount ≠ 0 → s.tb.medianSince + 64 * 2 ^ 32 ≤ ticks s →
      Effect (exec .measuredDelayUpdate s) (fun t => t = judgeDelay { s with tb := { s.tb with
        measuredDelay := sat 32 (s.tb.medianSum / (s.tb.medianCount : Int)).toNat, measuredOk := true,
        medianSum := 0, medianCount := 0 } })) ∧
    (∀ ppb : BitVec 32, s.tb.state = .refLocked → 600 * 2 ^ 32 ≤ s.tb.lockTicks →
      Effect (exec (.calibrationComplete ppb) s) (fun t =>
        t = { s with tb := { s.tb with calibrated := true, oscOffset := ppb.toNat } })) ∧
    (s.tb.state ≠ .free → rc s 0x4031 0 < uncertainty s → s.tb.overLimit = false →
      Effect (exec .uncertaintyLimitCrossed s) (fun t =>
        t = { s with tb := { s.tb with overLimit := true },
                     work := s.work ++ [.fault 10 0 (uncertainty s % 2 ^ 32)] })) ∧
    (s.tb.residual.natAbs < 2 ^ 32 →
      Effect (exec .slewEnd s) (fun t => t = { s with tb := { s.tb with residual := 0 } })) ∧
    (s.tb.pulseDue = true →
      Effect (exec .timePulse s) (fun t => t = { s with tb := { s.tb with
        pulseDue := false, timePulse := s.tb.state != .free && rcOn s 0x4050 0
        pulseEnd := s.tb.count + 42950 } })) ∧
    (s.tb.timePulse = true → s.tb.pulseEnd ≤ ticks s →
      Effect (exec .timePulseEnd s) (fun t => t = { s with tb := { s.tb with timePulse := false } }))

/-- Requests in turn: their effect and their answer (R53 to R59, R65). -/
def Obligations.YustoRequestsInTurnAreExecuted : Prop :=
  ∀ (s : State) (h : YHdr) (n : BitVec 30) (x : Session), InTurn s h n x →
    let s1 := heard s n
    let x1 := awake s x
    let w := ownerWord x n.toNat
    (∀ (idx : BitVec 16) (sub : BitVec 8) (shadow : Bool) (o : ObjDef), lookup s1 idx.toNat sub.toNat = some o →
      o.ty ≠ .table → mayRead (carrierPath x.carrier) (carrierFn x.carrier) idx.toNat sub.toNat = true →
      idx ≠ 0x4003 →
      Effect (exec (.yustoRead h idx sub shadow) s) (fun t => t = reply n x1 h 1 yOK (beBytes 1 o.ty.code ++
        (if shadow && o.acc == .rc then shadowBytes s1 idx.toNat sub.toNat
         else objBytes s1 o idx.toNat sub.toNat)) s1)) ∧
    (∀ (idx : BitVec 16) (sub set : BitVec 8) (value : List Byte) (o : ObjDef),
      lookup s1 idx.toNat sub.toNat = some o → o.acc = .rc → o.ty ≠ .table → value.length ≤ 1096 →
      mayWrite (carrierPath x.carrier) idx.toNat sub.toNat = true →
      (let r := rcWrite w set.toNat (okey idx.toNat sub.toNat) value s1
       r.1 = yOK → Effect (exec (.yustoWrite h idx sub set value) s) (fun t =>
        t = reply n x1 h 2 yOK [] (written idx.toNat sub.toNat r.2)))) ∧
    (∀ (idx : BitVec 16) (o : ObjDef), objAny idx.toNat = some o → o.ty ≠ .table →
      mayRead (carrierPath x.carrier) (carrierFn x.carrier) idx.toNat o.lo = true →
      Effect (exec (.yustoShape h idx) s) (fun t => t = reply n x1 h 3 yOK
        (beBytes 1 o.ty.code ++ beBytes 4 (shapeOf s1 idx.toNat) ++ beBytes 2 0) s1)) ∧
    (∀ (idx : BitVec 16) (sub : BitVec 8) (len : BitVec 16) (o : ObjDef),
      lookup s1 idx.toNat sub.toNat = some o → o.ty = .table → len.toNat ≤ 1024 →
      mayRead (carrierPath x.carrier) (carrierFn x.carrier) idx.toNat sub.toNat = true →
      (let v := tableView s1 idx.toNat sub.toNat
       Effect (exec (.segRead h idx sub 0 len) s) (fun t => t = reply n x1 h 4 yOK
        (beBytes 8 s.od.gen ++ beBytes 4 (v.count * v.size) ++ tableBytes v 0 len.toNat)
        (setSession n.toNat (fun y => { y with
          passes := mput y.passes (okey idx.toNat sub.toNat) s.od.gen }) s1)))) ∧
    (∀ (idx : BitVec 16) (sub set : BitVec 8) (total off : BitVec 32) (data : List Byte) (o : ObjDef),
      lookup s1 idx.toNat sub.toNat = some o → o.acc = .rc → o.ty = .table → data.length ≤ 1024 → idx ≠ 0x2302 →
      mayWrite (carrierPath x.carrier) idx.toNat sub.toNat = true →
      (let r := segStore w set.toNat (okey idx.toNat sub.toNat) total.toNat off.toNat data s1
       r.1 = yOK → Effect (exec (.segWrite h idx sub set total off data) s) (fun t =>
        t = reply n x1 h 5 yOK [] (written idx.toNat sub.toNat r.2)))) ∧
    (∀ set : BitVec 8, set ≠ 0 → set.toNat ≤ 15 → (commitSet s1 set.toNat).owner = some w →
      ((commitSet s1 set.toNat).state = .opened →
        (∀ mt : BitVec 64,
          let r := commitGo set.toNat mt.toNat s1
          Effect (exec (.commit h set mt) s) (fun t =>
            t = reply n x1 h 6 r.1 (shownBytes set.toNat r.2) r.2)) ∧
        (let s2 := (commitResult set.toNat yOK (setState set.toNat .closed (setSet set.toNat (fun y => { y with
           owner := none, shadow := [], checked := [] }) s1))).2
         Effect (exec (.commitDiscard h set) s) (fun t =>
           t = reply n x1 h 6 yOK (shownBytes set.toNat s2) s2))) ∧
      ((commitSet s1 set.toNat).state = .armed →
        (let s2 := (commitResult set.toNat yOK (setState set.toNat .opened (setSet set.toNat (fun y => { y with
           owner := some w }) (dropTables set.toNat (releaseShot (.commitSet set.toNat) s1))))).2
         Effect (exec (.commitCancel h set) s) (fun t =>
           t = reply n x1 h 6 yOK (shownBytes set.toNat s2) s2)))) ∧
    (∀ (set : BitVec 8) (first : BitVec 16), set.toNat ≤ 15 →
      (let r := (commitSet s1 set.toNat).report
       Effect (exec (.report h set first) s) (fun t => t = reply n x1 h 7 yOK
        (shownBytes set.toNat s1 ++ beBytes 4 r.count ++
          ((r.entries.drop first.toNat).take 40).flatMap fun e => beBytes 24 (reportBits e)) s1))) ∧
    (∀ (mask : BitVec 32) (lo hi : BitVec 16) (m : Nat), mask ≠ 0 → mask.toNat < 16 →
      ((rangeFrom 1 16).find? fun i => !x.subs.any fun u => u.number == i) = some m →
      Effect (exec (.subscribe h mask lo hi) s) (fun t => t = reply n x1 h 8 yOK (beBytes 1 m)
        (setSession n.toNat (fun y => { y with
          subs := y.subs ++ [{ number := m, mask := mask.toNat, lo := lo.toNat, hi := hi.toNat }] }) s1))) ∧
    (∀ (lo hi : BitVec 16) (u : Subscription), (x.subs.find? fun v => v.lo == lo.toNat && v.hi == hi.toNat) = some u →
      Effect (exec (.subscribeCancel h lo hi) s) (fun t => t = reply n x1 h 8 yOK (beBytes 1 u.number)
        (setSession n.toNat (fun y => { y with subs := y.subs.filter fun v => v.number != u.number }) s1)))

/-- Sessions, the apply, persistence and the check word (R51, R55, R64, R67 to R69). -/
def Obligations.SessionsCommitsAndCheckWords : Prop :=
  ∀ s : State, s.rs.phase = .running → domOn s 0 = true →
    (∀ (port : BitVec 16) (address : BitVec 128), port.toNat = rc s 0x2100 0 →
      sessionsOpen s isMgmtCarrier < rc s 0x2101 0 →
      (let k := s.od.nextSession
       Effect (exec (.sessionOpen true ⟨port, address⟩) s) (fun t => t = { s with od := { s.od with
        nextSession := if 2 ^ 30 ≤ k + 1 then 1 else k + 1
        sessions := mmod (mput s.od.sessions k { carrier := .mgmt (BitVec.ofNat 30 k), number := k }) k
          (fun x => { x with port := port.toNat, idleAt := ticks s + rc s 0x2102 0 * 2 ^ 32 }) } }))) ∧
    (∀ (n : BitVec 30) (x : Session), session s n.toNat = some x → isMgmtCarrier x.carrier = true →
      x.idleAt ≤ ticks s →
      Effect (exec (.sessionIdleTimeout n) s) (fun t => t = closeSession n.toNat s)) ∧
    Effect (exec .datagramOutsideSession s) (fun t => t = bump 0x2110 0 s) ∧
    (∀ (n : BitVec 30) (x : Session) (e : Nat) (q : Nat) (b : YBody) (at_ : Nat), session s n.toNat = some x →
      x.next = some e → x.held = [(q, b, at_)] → at_ ≤ ticks s →
      Effect (exec (.seqGapWaitExpiry n) s) (fun t =>
        t = runHeld n.toNat 32 (runNext n.toNat q b (setSession n.toNat (fun y => { y with next := some q }) s)))) ∧
    (∀ (set : Fin 16) (o : OneShot),
      (dueOwners (now s) s.tb.armed).head? = some (.commitSet set) → shotOf s (.commitSet set) = some o →
      Effect (exec (.apply set) s) (fun t =>
        t = applySet set o.late (when_ o.late (bump 0x4006 0) (releaseShot (.commitSet set) s)))) ∧
    (s.od.persistDue = true →
      (let g := max s.od.copyA.gen s.od.copyB.gen + 1
       let c := newCopy g (rcKeys.map fun k => (k, liveBytes s (k / 256) (k % 256)))
       Effect (exec .persistComplete s) (fun t => t = { s with od := { s.od with
        copyA := c, copyB := c, persistGen := g, persisted := true, persistDue := false } }))) ∧
    (s.od.refStale = false →
      (let s1 := { s with od := { s.od with liveWord := checkWord s, scanComplete := true } }
       checkWord s = rc s1 0x1F20 0 →
       Effect (exec .checkWordScan s) (fun t =>
        t = endCondition 7 0 { s1 with od := { s1.od with drift := false, lastDiffered := false } })))

/-- Doorbells, fetches, completions and retirements of QM (R79, R84, R86, R88, R96, R99, R232). -/
def Obligations.DoorbellsFetchesAndRetirements : Prop :=
  ∀ s : State,
    (∀ (fn : Fin 514) (slot : BitVec 20) (gen : BitVec 8) (index : BitVec 32) (qn : Nat), Rings s fn slot.toNat qn →
      let s1 := rung s fn
      let q := queue s1 qn
      gen.toNat = q.gen →
      (q.type ≤ qSRQ → diff32 index.toNat q.tail < 2 ^ 31 →
        diff32 index.toNat (if q.type = qSEND then q.retired else q.fetched) ≤ qSize q → q.state ≠ .draining →
        Effect (exec (.doorbellTail fn slot 0 gen 0 index) s) (fun t =>
          t = setQueue qn (fun q => { q with tail := index.toNat }) (bumpFn fn 0 s1))) ∧
      (qCQ ≤ q.type → q.state ≠ .draining → diff32 index.toNat q.head ≤ diff32 q.written q.head →
        Effect (exec (.doorbellHead fn slot 0 gen 0 index) s) (fun t => t = headTo qn index.toNat (bumpFn fn 0 s1)) ∧
        Effect (exec (.doorbellHeadArm fn slot 0 gen 0 index) s) (fun t =>
          let s2 := setQueue qn (fun q => { q with armed := true, sinceArm := 0 })
            (headTo qn index.toNat (bumpFn fn 0 s1))
          t = if (queue s2 qn).written ≠ index.toNat then raiseQueue qn s2 else s2)) ∧
      (∀ rights : BitVec 32, q.type ≤ qSRQ →
        Effect (exec (.keyRightsWrite fn slot 0 gen 0 rights) s) (fun t =>
          t = setQueue qn (fun q => { q with rights := rights.toNat }) s1))) ∧
    (∀ (fn : Fin 514) (v : Bool), (hostLink s (fnLink fn)).up = true → (hostFn s fn).flr = false →
      Effect (exec (.registerWrite fn (.config (.busMaster v)) [] false) s) (fun t =>
        t = setFn fn (fun f => { f with bme := v }) s)) ∧
    (∀ (fn : Fin 514) (off : BitVec 26) (b : Byte) (data : List Byte), barsLive s fn = true →
      Effect (exec (.registerWrite fn (.bar0 off) (b :: data) true) s) (fun t => t = bump 0xA032 (fnLink fn) s) ∧
      Effect (exec (.registerWrite fn (.bar0 off) (b :: data) false) s) (fun t =>
        t = bar0Write fn off.toNat (b :: data) s)) ∧
    (∀ (f0 qn : Nat) (q : Queue),
      let el := s.qm.queues.filter fun e => eligibleQ s e.2
      s.qm.aturn = some f0 → (qn, q) ∈ el → q.admin = true → f0 ≤ q.fn →
      (∀ e ∈ el, e.2.admin = true → f0 ≤ e.2.fn → e = (qn, q) ∨ q.fn < e.2.fn) →
      Effect (exec .fetchVisit s) (fun t => t = visit qn { s with qm := { s.qm with aturn := some (q.fn + 1) } })) ∧
    (∀ (f pass qn : Nat) (p : FetchPos),
      let el := s.qm.queues.filter fun e => eligibleQ s e.2 && !e.2.admin
      s.qm.aturn = none →
      nextFn (fetchWeight s) (el.foldl (fun l e => insertNat e.2.fn l) []) (255 - s.qm.fpass) s.qm.fpass s.qm.fnext =
        some (pass, f) →
      nextQueue (fun q => (queue s q).weight) ((el.filter fun e => e.2.fn == f).map fun e => e.1) 256
        (sget {} s.qm.pos f) = some (qn, p) →
      Effect (exec .fetchVisit s) (fun t =>
        t = visit qn { s with qm := { s.qm with
          aturn := none, fpass := pass, fnext := f + 1, pos := sset {} s.qm.pos f p } })) ∧
    (∀ (tag : HostTag) (r : HostResult) (key : Nat) (h : HostRead),
      readOfTag s tag.link tag.tag.toNat = some (key, h) →
      let parts := updFirst (fun p => p.tag == some tag.tag.toNat && p.got.isNone)
        (fun p => { p with got := some (resultOf p.len r) }) h.parts
      let s1 := { s with tu := { s.tu with reads := mput s.tu.reads key { h with parts := parts } } }
      (parts.all (fun p => p.got.isSome) = true → Effect (exec (.hostReadCompletion tag r) s) (fun t =>
        t = pumpReads tag.link (readCompletion key (joinResults parts) s1))) ∧
      (parts.all (fun p => p.got.isSome) = false → Effect (exec (.hostReadCompletion tag r) s) (fun t =>
        t = pumpReads tag.link s1))) ∧
    (∀ (qn : BitVec 20) (o : SendOp) (c : Comp),
      let q := queue s qn.toNat
      q.type = qSEND → qExists q = true →
      (if q.admin then q.ops.find? (fun o => o.done.isSome) else q.ops.head?) = some o → o.done = some c →
      Effect (exec (.descriptorRetire qn) s) (fun t =>
        let ops := q.ops.filter fun x => x.n != o.n
        let r := if q.admin then (match ops.head? with | some h => h.n | none => q.fetched) else inc 32 o.n
        let s1 := dropHandles qn.toNat (fun n => n == o.n)
          (setQueue qn.toNat (fun q => { q with ops := ops, retired := r }) s)
        ((c.quiet = true ∨ (q.admin = false ∧ dSIGNAL o.desc = false ∧ c.status = stOK)) →
          t = releaseSlots q.cqn 1 s1) ∧
        (c.quiet = false → (q.admin = true ∨ dSIGNAL o.desc = true ∨ c.status ≠ stOK) →
          t = writeCompletion q.cqn (dUSER o.desc) (dOPCODE o.desc) o.n qn.toNat r
            { c with peer := peerOf q o.desc c } none none s1))) ∧
    (∀ qn : BitVec 20,
      let q := queue s qn.toNat
      qExists q = true → q.armed = true → q.sinceArm ≠ 0 → q.modNow ≠ 0 → q.modAt + q.modNow ≤ ticks s →
      Effect (exec (.moderationTimeout qn) s) (fun t => t = raiseQueue qn.toNat s)) ∧
    (∀ (qn : BitVec 20) (o : SendOp), startable s qn.toNat (fun op => op = 0) = some o →
      Effect (exec (.nop qn) s) (fun t => t = complete qn.toNat o.n { status := stOK } (markStarted qn.toNat o.n s)))

/-- Admin commands (R80, R100 to R104, R106 to R109). -/
def Obligations.AdminCommandsChangeQueues : Prop :=
  ∀ s : State,
    (∀ (fn : Fin 514) (o : SendOp), nextAdmin s fn = some o → dOPCODE o.desc = 0x80 →
      let aqn := adminQn s fn
      let s1 := adminAt s fn o
      let d := o.desc
      let qn := aTARGET d
      ownsQn s1 fn qn = true → qn ≠ aqn → qn ≠ aqn + 1 → qExists (queue s1 qn) = false →
      createParams s1 fn qn d = true → tenantOk s1 fn (aTENANT d) = true →
      asidOk s1 fn (aASID d) (aTENANT d) = true → (aTYPE d ≤ qSRQ → endpointOk s1 fn (aENDPOINT d) = true) →
      stacksWorking s1 ≠ 0 → queuesExisting s1 < queueLimit s1 →
      Effect (exec (.queueCreate fn) s) (fun t =>
        let r := placeStack s1
        t = adminDone aqn o.n { status := stOK } (setQueue qn (fun _ => {
          state := .ready, type := aTYPE d, fn := fn, base := aADDR d, log2 := aLOG2 d, gen := aGEN d,
          weight := aWEIGHT d, gust := aGUST d, vector := aVECTOR d, tenant := aTENANT d, asid := aASID d,
          endpoint := aENDPOINT d, cqn := aCQN d, eqn := aEQN d, noEq := aNOEQ d, modCount := aMODCOUNT d,
          modTime := aMODTIME d, stack := r.1 }) r.2))) ∧
    (∀ (fn : Fin 514) (o : SendOp),
      let aqn := adminQn s fn
      let s1 := adminAt s fn o
      let d := o.desc
      let qn := aTARGET d
      let q := queue s1 qn
      let sized := 4 ≤ aLOG2 d ∧ aLOG2 d ≤ 16 ∧ aADDR d % 4096 = 0
      (AdminOn s fn o false 0x81 → (queue s qn).writing = false → sized →
        (q.type ≤ qSRQ → q.state = .halted → q.tail = q.fetched →
          (q.type = qSEND → diff32 q.tail q.retired ≤ 2 ^ aLOG2 d) →
          Effect (exec (.queueResize fn) s) (fun t => t = adminDone aqn o.n { status := stOK }
            (setQueue qn (fun q => { q with base := aADDR d, log2 := aLOG2 d }) s1))) ∧
        (qCQ ≤ q.type → max q.reserved q.entries.length ≤ 2 ^ aLOG2 d →
          Effect (exec (.queueResize fn) s) (fun t => t = adminDone aqn o.n { status := stOK, imm := q.written }
            (pump qn (setQueue qn (fun q => { q with written := 0, head := 0 })
              (setQueue qn (fun q => { q with base := aADDR d, log2 := aLOG2 d }) s1)))))) ∧
      (AdminOn s fn o false 0x82 → q.state = .ready →
        Effect (exec (.queueHalt fn) s) (fun t => t = adminDone aqn o.n { status := stOK, imm := q.fetched }
          (haltQueue qn hHOSTHALT 0 q.fetched s1))) ∧
      (AdminOn s fn o false 0x83 → q.state = .ready →
        Effect (exec (.queueDrain fn) s) (fun t => t = setQueue qn (fun q => { q with
          state := .draining, drainMark := q.tail, drainFor := some (aqn, o.n, false) }) s1)) ∧
      (AdminOn s fn o false 0x84 → q.state = .halted →
        (aOPTION d = false →
          Effect (exec (.queueResume fn) s) (fun t =>
            let s2 := pump qn (setQueue qn toReady s1)
            t = adminDone aqn o.n { status := stOK, imm := (queue s2 qn).fetched } s2)) ∧
        (aOPTION d = true → resumeReady s d = true → haltOfEntry q = true →
          Effect (exec (.queueResumeSkip fn) s) (fun t =>
            let s2 := setQueue qn (fun x => { toReady x with fetched := inc 32 q.fetched })
              (setQueue q.cqn (fun c => { c with reserved := c.reserved + 1 }) s1)
            let e : SendOp := {
              n := q.fetched, desc := q.skip.1 * 2 ^ 128 + q.skip.2, started := true
              done := some { status := stDESCERROR } }
            let s3 := if q.type = qSEND then setQueue qn (fun x => { x with ops := x.ops ++ [e] }) s2
              else recvDone qn q.fetched q.skip.1 q.skip.2 { status := stDESCERROR } none s2
            t = adminDone aqn o.n { status := stOK, imm := (queue s3 qn).fetched } s3))) ∧
      ((qCQ ≤ q.type → namedByOther s1 qn = false) →
        (AdminOn s fn o true 0x85 → aOPTION d = true → Effect (exec (.queueDestroyForce fn) s) (fun t =>
          t = destroyForce qn (some (aqn, o.n)) s1)) ∧
        (AdminOn s fn o false 0x85 → aOPTION d = false →
          (q.state = .ready → Effect (exec (.queueDestroy fn) s) (fun t =>
            t = setQueue qn (fun q => { q with
              state := .draining, drainMark := q.tail, drainFor := some (aqn, o.n, true) }) s1)) ∧
          (q.state = .halted → Effect (exec (.queueDestroy fn) s) (fun t =>
            t = setQueue qn (fun q => { q with
              entries := if qCQ ≤ q.type then [] else q.entries
              destroying := some (0, destroyCount q, diff32 q.tail q.fetched)
              drainFor := some (aqn, o.n, true) }) s1)))) ∧
      (AdminOn s fn o true 0x86 → aADDR d % 64 = 0 →
        Effect (exec (.queueQuery fn) s) (fun t => t = later (.access {
          asid := (queue s1 aqn).asid, addr := aADDR d, len := 64, data := some (leBytes 64 (queryBits s1 qn)),
          cls := .adminResult, qn := some aqn, cont := .query aqn o.n }) s1)) ∧
      (AdminOn s fn o false 0x87 → aWEIGHT d ≠ 0 → (q.type ≠ qCQ → q.type ≠ qEQ → aMODCOUNT d = 0 ∧ aMODTIME d = 0) →
        eqnOk s1 fn qn q.type (aEQN d) (aNOEQ d) = true →
        Effect (exec (.queueModify fn) s) (fun t => t = adminDone aqn o.n { status := stOK }
          (setQueue qn (fun q => { q with
            weight := aWEIGHT d, gust := aGUST d, eqn := aEQN d, noEq := aNOEQ d
            modCount := aMODCOUNT d, modTime := aMODTIME d }) s1)))) ∧
    (∀ (qn : BitVec 20) (aqn n : Nat) (b : Bool),
      let q := queue s qn.toNat
      q.state = .draining → drained q = true → q.destroying = none → q.drainFor = some (aqn, n, b) →
      Effect (exec (.drainComplete qn) s) (fun t =>
        (b = false → t = adminDone aqn n { status := stOK, imm := drainCount q }
          (haltQueue qn.toNat hDRAINED 0 q.fetched (setQueue qn.toNat (fun q => { q with drainFor := none }) s))) ∧
        (b = true → t = setQueue qn.toNat (fun q => { q with
          destroying := some (0, destroyCount q, diff32 q.tail q.drainMark) }) s))) ∧
    (∀ (qn : BitVec 20) (n retired unf aqn e : Nat) (b : Bool), (queue s qn.toNat).destroying = some (n, retired, unf) →
      (queue s qn.toNat).ops = [] →
      let k := postedOf s qn.toNat
      let s1 := setQueue qn.toNat (fun q => { q with destroying := some (n + k, retired, unf) })
        (removePosted qn.toNat false (groupsOfQueue qn.toNat s))
      let q := queue s1 qn.toNat
      destroyWaits s1 qn.toNat = false → q.drainFor = some (aqn, e, b) →
      Effect (exec (.destroyComplete qn) s) (fun t => t = adminDone aqn e {
          status := stOK, length := n + k, imm := if q.forced then retired else destroyCount q, peer := unf }
        (closeDying (setQueue qn.toNat (fun _ => { state := .destroyed }) s1))))

/-- Domains, receives and messages at their turn (R115, R116, R121, R125, R131 to R133, R136, R141). -/
def Obligations.MatchingDomainsReceivesAndMessages : Prop :=
  ∀ s : State,
    (domOn s dCX = true →
      (∀ (d tenant : BitVec 16) (eqn : BitVec 20) (eager : BitVec 9) (h : BitVec 15) (m : BitVec 14) (z : BitVec 30),
        let v := ((1 : BitVec 8) ++ d ++ tenant ++ eqn ++ eager ++ h ++ m ++ z).toNat
        Effect (exec (.domainOpen d tenant eqn eager h m z) s) (fun t =>
          (domValid s v = false → t = bump 0x7422 0 s) ∧ (domValid s v = true →
          let r := placeStack s
          t = setDom (fld v 119 104) (fun x => {
            stack := r.1, state := .opened, tenant := fld v 103 88, eqn := fld v 87 68, eager := fld v 67 59
            uqHeaders := fld v 58 44, uqMib := fld v 43 30, lastEvent := x.lastEvent }) r.2))) ∧
      (∀ (d : BitVec 16) (z : BitVec 104),
        let v := ((2 : BitVec 8) ++ d ++ z).toNat
        Effect (exec (.domainClose d z) s) (fun t =>
          (domValid s v = false → t = bump 0x7422 0 s) ∧
          (domValid s v = true → t = domClose (fld v 119 104) (fun _ => false) s))) ∧
      (∀ d : BitVec 16,
        let x := domain s d.toNat
        x.state = .closing → s.mu.placing.any (fun e => e.2.domain == d.toNat) = false →
        Effect (exec (.domainCloseComplete d) s) (fun t =>
          t = postEvent x.eqn 0x0500 d.toNat 0 (x.discarded * 2 ^ 32 + x.cancelled)
            (setDom d.toNat (fun x => { lastEvent := x.lastEvent }) s)))) ∧
    (∀ (qn : BitVec 20) (o : SendOp) (rest : List SendOp),
      let q := queue s qn.toNat
      let s1 := setQueue qn.toNat (fun q => { q with ops := q.ops.drop 1 }) s
      q.ops = o :: rest → (q.type = qRECV ∨ q.type = qSRQ) →
      (dOPCODE o.desc = 1 →
        let d := dDOMAIN o.desc
        let r := recvOf qn.toNat (queue s1 qn.toNat) o
        (domain s1 d).state = .opened → (domain s1 d).tenant = r.tenant →
        (∀ u, ((domain s1 d).unexpected.find? fun u => accepts r u.packet) = some u →
          Effect (exec (.recvPost qn) s) (fun t => t = bind d r u true true (bump 0x7431 0
            (setDom d (fun x => { x with unexpected := eraseFirst (fun v => v == u) x.unexpected }) s1)))) ∧
        (((domain s1 d).unexpected.find? fun u => accepts r u.packet) = none → postedAll s1 < capPosted s1 →
          Effect (exec (.recvPost qn) s) (fun t =>
            t = setDom d (fun x => { x with posted := x.posted ++ [r] }) (listWrote d s1)))) ∧
      (dOPCODE o.desc = 2 → ∀ (d : Nat) (r : Recv), postedIn s1 qn.toNat (fld o.desc 415 384) = some (d, r) →
        let s2 := recvGone r stCANCELLED
          (setDom d (fun x => { x with posted := eraseFirst (fun y => y == r) x.posted }) s1)
        Effect (exec (.recvCancel qn) s) (fun t => t = if dSIGNAL o.desc then
            recvDone qn.toNat o.n (dUSER o.desc) 2 { status := stOK } none s2
          else releaseSlots (queue s1 qn.toNat).cqn 1 s2)) ∧
      (dOPCODE o.desc = 2 → postedIn s1 qn.toNat (fld o.desc 415 384) = none →
        Effect (exec (.recvCancel qn) s) (fun t =>
          t = recvDone qn.toNat o.n (dUSER o.desc) 2 { status := stALREADY } none (bump 0x7438 0 s1)))) ∧
    (∀ (qn : BitVec 20) (o : SendOp), startable s qn.toNat (fun op => op = 1) = some o →
      let q := queue s qn.toNat
      let d := dDOMAIN o.desc
      let source := ownIdentity s q.endpoint
      let dest := dDEST o.desc
      let m (n : Nat) : Msg := {
        baseMsg (if dLENGTH o.desc ≤ eagerLimit s d || dLENGTH o.desc = 0 then tTSEND else tRTS) qn.toNat q o with
        key := 0, raddr := 0, imm := dIMM o.desc, solicit := dSOLICIT o.desc, domain := d, mseq := n
        matchBits := dTARGET o.desc, handle := s.mu.nextHandle }
      let k : FlowKey := { source := source, dest := dest, tenant := q.tenant }
      let go (n : Nat) (seqs : List SeqCtx) : State :=
        startIn k (m n) (markStarted qn.toNat o.n { s with mu := { s.mu with
          seqs := seqs, nextHandle := inc 32 s.mu.nextHandle } })
      ((domain s d).state ≠ .opened ∨ (domain s d).tenant ≠ q.tenant →
        Effect (exec (.tsend qn) s) (fun t =>
          t = complete qn.toNat o.n { status := stCANCELLED } (markStarted qn.toNat o.n s))) ∧
      ((domain s d).state = .opened → (domain s d).tenant = q.tenant →
        (∀ c : SeqCtx, s.mu.seqs.find? (isSendSeq source dest d) = some c → msgMayStart s k (m c.next) = true →
          Effect (exec (.tsend qn) s) (fun t =>
            t = go c.next (updFirst (isSendSeq source dest d) (fun y => { y with next := inc 24 c.next }) s.mu.seqs))) ∧
        (s.mu.seqs.find? (isSendSeq source dest d) = none → s.mu.seqs.length < capSeqs s →
          msgMayStart s k (m 0) = true →
          Effect (exec (.tsend qn) s) (fun t =>
            t = go 0 (s.mu.seqs ++ [{ sending := true, source := source, dest := dest, domain := d, next := 1 }]))))) ∧
    (domOn s dCX = true → ∀ (p : Packet) (f : Nat) (s1 : State),
      front p (takeDelivered p s) = (.take f true, s1) →
      let d := pDOMAIN p
      let turn (kind : UKind) : State :=
        let u : UMsg := { kind := kind, packet := p, flow := f, got := p.payload.length
                          store := if kind == .eager && !p.payload.isEmpty then
                            [{ off := pOFFSET p, data := p.payload, poison := p.poison }] else [] }
        let s2 := atTurn d u false (setRecvNext d p (inc 24 (pMSEQ p)) s1)
        releaseSeq d p ((domain s2 d).reorder.length + 1) s2
      ((domain s1 d).state = .opened → (domain s1 d).tenant = p.tenant → recvNext s1 d p = some (pMSEQ p) →
        (Instr.wf (.tsendArrive p) = true → Effect (exec (.tsendArrive p) s) (fun t => t = turn .eager)) ∧
        (Instr.wf (.rtsArrive p) = true → Effect (exec (.rtsArrive p) s) (fun t => t = turn .rts)) ∧
        (Instr.wf (.skipArrive p) = true → Effect (exec (.skipArrive p) s) (fun t => t = turn .skip))) ∧
      (Instr.wf (.rgetArrive p) = true → ∀ h : Handle, mget? s1.mu.handles (pW2 p) = some h →
        h.dest = p.source → h.source = p.dest → pOFFSET p + pMLEN p ≤ h.mlen →
        Effect (exec (.rgetArrive p) s) (fun t =>
          t = if pMLEN p = 0 then ackMsg f (pRSN p) 0 stOK s1 else rgetNext p 0 [] false s1)))

/-- Remote operations start (R146, R155, R159, R162, R165, R176). -/
def Obligations.RemoteOperationsStart : Prop :=
  ∀ (s : State) (qn : BitVec 20) (o : SendOp),
    let q := queue s qn.toNat
    let k : FlowKey := { source := ownIdentity s q.endpoint, dest := dDEST o.desc, tenant := q.tenant }
    let base (type : Nat) : Msg := baseMsg type qn.toNat q o
    let plain (i : Instr) (op : Nat) (m : Msg) : Prop :=
      startable s qn.toNat (fun x => x = op) = some o → msgMayStart s k m = true →
        Effect (exec i s) (fun t => t = startIn k m (markStarted qn.toNat o.n s))
    let connected (i : Instr) (op : Nat) (m : Msg) : Prop :=
      let c := sget {} s.ra.conns (dDEST o.desc)
      let kc : FlowKey := {
        source := ownIdentity s 0, dest := c.peer, tenant := q.tenant, conn := some (dDEST o.desc) }
      let mc : Msg := { m with dconn := c.peerConn, endpoint := q.endpoint }
      let stop (st : Nat) : State := complete qn.toNat o.n { status := st } (markStarted qn.toNat o.n s)
      startable s qn.toNat (fun x => x = op) = some o →
        (c.fn = q.fn → c.tenant = q.tenant → c.state = .opened → msgMayStart s kc mc = true →
          Effect (exec i s) (fun t => t = startIn kc mc (markStarted qn.toNat o.n s))) ∧
        (c.fn = q.fn → c.tenant = q.tenant → c.state = .error → Effect (exec i s) (fun t => t = stop stLOSS)) ∧
        ((c.fn ≠ q.fn ∨ c.tenant ≠ q.tenant ∨ c.state = .closed ∨ c.state = .closing) →
          Effect (exec i s) (fun t => t = stop stCANCELLED))
    plain (.put qn) 2 (base tPUT) ∧
    plain (.putImm qn) 3 { base tPUTIMM with imm := dIMM o.desc, solicit := dSOLICIT o.desc } ∧
    plain (.get qn) 4 (base tGET) ∧
    plain (.fadd64 qn) 8 { base tFADD64 with inline := leBytes 8 (dOP0 o.desc) } ∧
    plain (.swap64 qn) 9 { base tSWAP64 with inline := leBytes 8 (dOP0 o.desc) } ∧
    plain (.cas64 qn) 10 { base tCAS64 with inline := leBytes 8 (dOP0 o.desc) ++ leBytes 8 (dOP1 o.desc) } ∧
    plain (.cas128 qn) 11 { base tCAS128 with inline := leBytes 8 (dOP0 o.desc) ++ leBytes 8 (dOP1 o.desc) } ∧
    plain (.flush qn) 12 { base tFLUSH with mlen := 0, key := 0, raddr := 0 } ∧
    connected (.csend qn) 0x10 { base tCSEND with
      imm := dIMM o.desc, solicit := dSOLICIT o.desc, key := 0, raddr := 0 } ∧
    connected (.cput qn) 0x11 (base tCPUT) ∧
    connected (.cget qn) 0x12 (base tCGET)

/-- Requests at their target (R154, R155, R159, R164, R165, R176, R177). -/
def Obligations.RequestsReachTheirRegion : Prop :=
  ∀ (s : State) (p : Packet) (f : Nat) (first : Bool) (s1 : State), domOn s dCX = true →
    front p (takeDelivered p s) = (.take f first, s1) →
    let effect (i : Instr) (t1 : State) : Prop := i.wf = true → Effect (exec i s) (fun t => t = t1)
    (orderWaits s1 s1.ra.ordered f p = true → ∀ i ∈ [Instr.putArrive p, .putImmArrive p, .getArrive p, .fadd64Arrive p,
        .swap64Arrive p, .cas64Arrive p, .cas128Arrive p, .csendArrive p, .cputArrive p, .cgetArrive p],
      effect i { s1 with ra := { s1.ra with
        ordered := s1.ra.ordered ++ [{ flow := f, first := first, packet := p }] } }) ∧
    (orderWaits s1 s1.ra.ordered f p = false →
      (regionCheck s1 p = none →
        (p.payload ≠ [] →
          effect (.putArrive p) (placeNext f p 0 s1) ∧ effect (.putImmArrive p) (placeNext f p 0 s1) ∧
          (connOk s1 p = true → effect (.cputArrive p) (placeNext f p 0 s1))) ∧
        (let t1 := if pMLEN p = 0 then ackMsg f (pRSN p) 0 stOK s1 else getNext p 0 [] false s1
         effect (.getArrive p) t1 ∧ (connOk s1 p = true → effect (.cgetArrive p) t1)) ∧
        (let t1 := if (hostLink s1 (fnLink (region s1 (keyRegion (pW2 p))).fn)).atomicReq = true ∧ domOn s1 dCX = true
            then later (.access { regionAcc s1 p (pW3 p) (spanOf p).2 (.atomic p) with
              atomic := some (atomicOf p) }) s1
            else refuseMsg f (pRSN p) rHOSTERROR 0 s1
         effect (.fadd64Arrive p) t1 ∧ effect (.swap64Arrive p) t1 ∧ effect (.cas64Arrive p) t1 ∧
         effect (.cas128Arrive p) t1)) ∧
      (∀ reason, regionCheck s1 p = some reason →
        (∀ i ∈ [Instr.putArrive p, .putImmArrive p, .getArrive p, .fadd64Arrive p, .swap64Arrive p, .cas64Arrive p,
            .cas128Arrive p], effect i (refuseMsg f (pRSN p) reason 0 s1)) ∧
        (connOk s1 p = true → ∀ i ∈ [Instr.cputArrive p, .cgetArrive p],
          effect i (refuseMsg f (pRSN p) reason 0 s1))) ∧
      (connOk s1 p = false → ∀ i ∈ [Instr.csendArrive p, .cputArrive p, .cgetArrive p],
        effect i (refuseMsg f (pRSN p) rCONNECTION 0 s1)) ∧
      effect (.flushArrive p) (flushArrive f p s1) ∧
      (connOk s1 p = true → sendOverflow f p s1 = false →
        effect (.csendArrive p) (later (.flowGo f) (sendGo f (pRSN p)
          (setRMsg f (pRSN p) (fun m => { m with
            waitQ := m.waitQ ++ [{ off := pOFFSET p, data := p.payload, poison := p.poison }] }) s1)))))

/-- Answers and intervals at the source and the target (R134, R140, R160, R166 to R169, R171, R246, R315). -/
def Obligations.AnswersAndIntervalsOfRemoteAccess : Prop :=
  ∀ s : State,
    (domOn s dCX = true → ∀ (p : Packet) (g : Nat),
      let s1 := takeDelivered p s
      (Instr.wf (.ackArrive p) = true → answerFlows s1 p endsWithAck = [g] →
        ∀ m, srcMsg s1 g (pRSN p) = some m →
        Effect (exec (.ackArrive p) s) (fun t => t = endMsg g (pRSN p) (pCODE p) (pCOUNT p)
          (windowUpdate g (pDELAY p) (pCOUNT p) (pSQSEEN p) m.sentAt s1))) ∧
      (Instr.wf (.refusalArrive p) = true → answerFlows s1 p (fun _ => true) = [g] →
        Effect (exec (.refusalArrive p) s) (fun t => t = if pCOUNT p ≠ 0 then
            refusedRetry g (pRSN p) (pCODE p) (pCOUNT p) s1
          else failMsg g (pRSN p) (refusalStatus (pCODE p)) (pCODE p) s1)) ∧
      (Instr.wf (.getDataArrive p) = true →
        answerFlows s1 p (fun m => m.type == tGET || m.type == tCGET || m.type == tRGET) = [g] →
        Effect (exec (.getDataArrive p) s) (fun t =>
          t = respData g (pRSN p) (pOFFSET p) p.payload p.poison s1)) ∧
      (Instr.wf (.atomicRespArrive p) = true →
        answerFlows s1 p (fun m => m.type == tFADD64 || m.type == tSWAP64 || m.type == tCAS64 ||
          m.type == tCAS128) = [g] →
        Effect (exec (.atomicRespArrive p) s) (fun t => t = respData g (pRSN p) 0 p.payload p.poison s1)) ∧
      (Instr.wf (.lossNoticeArrive p) = true →
        Effect (exec (.lossNoticeArrive p) s) (fun t => t = originLost (packetOfBits (beNat p.payload) []) s1))) ∧
    (∀ (f : Nat) (rsn : BitVec 24) (m : Msg), srcMsg s f rsn.toNat = some m →
      (awaits m = true → answered m = false → m.refusal = none → m.sentAt + rc s 0x7830 0 ≤ ticks s →
        ((m.owner == .skip) = false →
          Effect (exec (.lossIntervalExpiry f rsn) s) (fun t => t = retransmit f rsn.toNat s)) ∧
        ((m.owner == .skip) = true →
          Effect (exec (.skipNoticeResend f rsn) s) (fun t =>
            t = resendMsg f rsn.toNat s))) ∧
      (∀ c, m.phase = .retry c → m.due ≤ ticks s →
        (c = rRNR → Effect (exec (.rnrRetry f rsn) s) (fun t => t = resendMsg f rsn.toNat s)) ∧
        (c = rFLOWCTX → Effect (exec (.flowContextRetry f rsn) s) (fun t => t = resendMsg f rsn.toNat s)) ∧
        (c = rPAGERETRY → Effect (exec (.pageRetryResend f rsn) s) (fun t => t = resendMsg f rsn.toNat s)) ∧
        (c = rMURETRY → Effect (exec (.muRetryResend f rsn) s) (fun t => t = resendMsg f rsn.toNat s))) ∧
      (∀ x, srcFlow s f = some x → m.phase = .heldRed →
        policerReady s x.key.tenant (64 + nextLen m) = true →
        Effect (exec (.policerReevaluate f rsn) s) (fun t =>
          t = tryInject f rsn.toNat (setMsg f rsn.toNat (fun m => { m with phase := .sending }) s)))) ∧
    (∀ (f : Nat) (x : FlowTgt), tgtFlow s f = some x → idleTgt x = true → connHeld s x.key = false →
      x.lastAt + (rc s 0x7831 0 + 2) * rc s 0x7830 0 ≤ ticks s →
      Effect (exec (.flowContextExpiry f) s) (fun t =>
        t = kickWaiting { s with ra := { s.ra with tgt := mdel s.ra.tgt f } })) ∧
    (∀ (node : BitVec 20) (b : BaseDelay), mget? s.ra.base node.toNat = some b →
      b.since + rc s 0x7845 0 ≤ ticks s →
      Effect (exec (.baseDelayReset node) s) (fun t =>
        t = { s with ra := { s.ra with base := mdel s.ra.base node.toNat } })) ∧
    (∀ (slot : BitVec 12) (a : Acc) (p : Packet) (f : Nat) (m : RMsg) (pos : Nat),
      let due (a : Acc) : Bool := a.cls == .region && a.deadline ≤ ticks s
      let s1 := takeWaiter slot.toNat due s
      firstDue s slot.toNat due = some a →
      (a.cont = .place p pos ∨ a.cont = .atomic p ∨ ∃ off buf bad, a.cont = .getRead p off buf bad) →
      liveMsg s1 p = some (f, m) →
      Effect (exec (.stallExpiry slot) s) (fun t => t = refuseMsg f (pRSN p) rSTALL 0 s1))

/-- Regions and connections (R151 to R153, R174, R175). -/
def Obligations.RegionsAndConnectionsOpenAndClose : Prop :=
  ∀ s : State,
    (∀ (fn : Fin 514) (o : SendOp), nextAdmin s fn = some o → dOPCODE o.desc = 0x88 →
      let aqn := adminQn s fn
      let s1 := adminAt s fn o
      let d := o.desc
      (rACTION d = 1 → rTENANTOF d ≠ 0 → rLENGTH d ≠ 0 → rLENGTH d ≤ 2 ^ 48 → rBASE d + rLENGTH d ≤ 2 ^ 48 →
        (rNOTIFY d ≠ 0 → isSrq s1 fn (rNOTIFY d) = true) → isEventQueue s1 fn (rEQN d) = true →
        tenantOk s1 fn (rTENANTOF d) = true → asidOk s1 fn (rASID d) (rTENANTOF d) = true →
        (bit d 401 = true → (hostLink s1 (fnLink fn)).atomicReq = true) →
        (region s1 (rREGION d)).state = .free → regionsUsed s1 < capRegions s1 →
        Effect (exec (.registerRegion fn) s) (fun t =>
          let r := placeStack s1
          t = adminDone aqn o.n { status := stOK } (setRegion (rREGION d) (fun _ => {
            state := .live, fn := fn, tag := rTAG d, tenant := rTENANTOF d, asid := rASID d, notify := rNOTIFY d
            eqn := rEQN d, rd := bit d 403, wr := bit d 402, at_ := bit d 401, resend := bit d 400
            length := rLENGTH d, base := rBASE d, stack := r.1 }) r.2))) ∧
      (rACTION d = 2 → fld d 475 256 = 0 → (region s1 (rREGION d)).state = .live →
        (region s1 (rREGION d)).fn = fn → (region s1 (rREGION d)).tag = rTAG d →
        Effect (exec (.deregister fn) s) (fun t => t = drainRegion (rREGION d) (some (aqn, o.n)) s1)) ∧
      (rACTION d = 3 → rCTENANT d ≠ 0 → nodeBad s1 (idNode (rPEER d)) = false → isSrq s1 fn (rSRQN d) = true →
        isEventQueue s1 fn (rCEQN d) = true → tenantOk s1 fn (rCTENANT d) = true →
        (conn s1 (rCONN d)).state = .closed → connsOpen s1 < 16777216 →
        connsOpen s1 < 65536 + rc s1 0x7821 0 →
        Effect (exec (.openConn fn) s) (fun t => t = adminDone aqn o.n { status := stOK }
          (setConn (rCONN d) (fun _ => {
            state := .opened, fn := fn, peerConn := rPEERCONN d, peer := rPEER d, tenant := rCTENANT d
            srqn := rSRQN d, eqn := rCEQN d }) s1))) ∧
      (rACTION d = 4 → (conn s1 (rCONN d)).fn = fn →
        (aOPTION d = false → ((conn s1 (rCONN d)).state = .opened ∨ (conn s1 (rCONN d)).state = .error) → Effect (exec (.closeConn fn) s) (fun t =>
          t = setConn (rCONN d) (fun x => { x with state := .closing, closeBy := some (aqn, o.n) }) s1)) ∧
        (aOPTION d = true → (conn s1 (rCONN d)).state ≠ .closed →
          Effect (exec (.closeConnForce fn) s) (fun t =>
            let ops := connOps s1 (rCONN d)
            let s0 := foldSt (fun (k : Nat × Nat) s => abandonAt k.1 k.2 s) (connMsgs s1 (rCONN d)) s1
            let s2 := foldSt (fun (k : Nat × Nat) s =>
              complete k.1 k.2 { status := stOK, quiet := true } (abandonMsg k.1 k.2 s)) ops s0
            let s3 := match (conn s1 (rCONN d)).closeBy with
              | some (a, n) => adminDone a n { status := asINTERRUPTED } s2
              | none => s2
            t = adminDone aqn o.n { status := stOK, length := ops.length } (freeConn (rCONN d) s3))))) ∧
    (∀ k : BitVec 20,
      let r := region s k.toNat
      ∀ aqn n c : Nat, r.state = .draining → regionBusy s k.toNat = false → r.dereg = some (aqn, n, c) →
        Effect (exec (.regionDrainComplete k) s) (fun t => t = adminDone aqn n { status := stOK, length := c }
          (closeDying (setRegion k.toNat (fun _ => {}) s)))) ∧
    (∀ (c : BitVec 24) (aqn n : Nat), (conn s c.toNat).state = .closing → connOps s c.toNat = [] →
      (conn s c.toNat).closeBy = some (aqn, n) →
      Effect (exec (.connCloseComplete c) s) (fun t => t = adminDone aqn n { status := stOK } (freeConn c.toNat s)))

/-- Groups and steps start (R187, R189, R190, R199, R200). -/
def Obligations.GroupsAndStepsStart : Prop :=
  ∀ s : State,
    (∀ (qn : BitVec 20) (o : SendOp),
      let g := gGROUP o.desc
      let x := group s g
      let s1 := markStarted qn.toNat o.n s
      let starts (op : Nat) : Prop := startable s qn.toNat (fun k => k = op) = some o
      let refused (i : Instr) : Prop :=
        (x.state = .free ∨ x.gen ≠ gGEN o.desc → Effect (exec i s) (fun t =>
          t = complete qn.toNat o.n (collFail stCANCELLED 0 1 (ownNode s)) s1)) ∧
        (x.state ≠ .free → x.gen = gGEN o.desc → x.qn ≠ qn.toNat → Effect (exec i s) (fun t =>
          t = complete qn.toNat o.n (collFail stCANCELLED 0 2 (ownNode s)) s1))
      let step (i : Instr) (op : Nat) : Prop := starts op → refused i ∧
        (x.gen = gGEN o.desc → x.qn = qn.toNat →
          (x.state = .active → (openSteps x).length < x.window →
            Effect (exec i s) (fun t => t = openStep g qn.toNat op o s)) ∧
          (x.state = .broken → Effect (exec i s) (fun t =>
            t = complete qn.toNat o.n (collFail stMEMBERLOST x.nextStep (lostOf x).2 (lostOf x).1) (tellBroken g s1))))
      (starts 0x40 → createsWait s = false → poweredSet s (rc s 0x8410 0) ≠ [] → ∀ e k : Nat,
        pickCtx s (rc s 0x8410 0) = some (e, k) → Effect (exec (.groupCreate qn) s) (fun t =>
          let c : Create := {
            qn := qn.toNat, entry := o.n, desc := o.desc, frags := o.frags, rights := o.rights
            joinBy := ticks s + (if cgTIMEOUT o.desc = 0 then rc s 0x7C14 0 else cgTIMEOUT o.desc) }
          t = createRead c (startItem e k (.service qn.toNat o.n)
            (markStarted qn.toNat o.n { s with ce := { s.ce with creates := s.ce.creates ++ [c] } })))) ∧
      (starts 0x41 → refused (.groupDestroy qn) ∧
        (x.state ≠ .free → x.gen = gGEN o.desc → x.qn = qn.toNat → Effect (exec (.groupDestroy qn) s) (fun t =>
          t = complete qn.toNat o.n { status := stOK, peer := x.top * 4096 } (endGroup g false s1)))) ∧
      step (.allreduce qn) 0x42 ∧ step (.broadcast qn) 0x43 ∧ step (.barrier qn) 0x44) ∧
    (∀ (g : BitVec 12) (n : BitVec 32) (p : Step),
      let shot : ShotOwner := .launch g.toNat n.toNat
      let f := fireShot shot s
      shotDue s shot = true → dueUpTo shot s = [shot] → stepOf f.2 g.toNat n.toNat = some p → p.state = .held →
      Effect (exec (.collectiveLaunch g n) s) (fun t => t = tryCombine g.toNat n.toNat
        (setStep g.toNat n.toNat (fun p => { p with state := .launched, late := p.late || f.1 }) f.2)))

/-- Collective packets (R183, R188, R192, R201, R204, R205). -/
def Obligations.CollectivePacketsReachTheirGroup : Prop :=
  ∀ (s : State) (p : Packet), domOn s dCX = true →
    let g := cGROUP p
    let came := idNode p.source
    let s0 := takeDelivered p s
    let s1 := if p.squall then { s0 with ce := { s0.ce with squallMarks := s0.ce.squallMarks + 1 } } else s0
    let s2 := heardFrom g came s1
    let x := group s2 g
    let n := cSTEP p
    (stale s1 p = false → (neighbours (group s1 g)).contains came = true →
      (Instr.wf (.collJoin p) = true → (kidsOf x).contains came = true → x.state = .joining → cARG p = x.digest →
        x.joined.contains came = false → Effect (exec (.collJoin p) s) (fun t =>
          t = joinUp g (setGroup g (fun x => { x with joined := x.joined ++ [came] }) s2))) ∧
      (Instr.wf (.collReady p) = true → x.state = .joining → x.parent = some came →
        Effect (exec (.collReady p) s) (fun t => t = activateGroup g s2)) ∧
      (Instr.wf (.collAbandon p) = true → x.state = .joining → Effect (exec (.collAbandon p) s) (fun t =>
        t = abandonGroup g (cREASON p) (cARG p) (some came) s2)) ∧
      (Instr.wf (.collContrib p) = true → contribOk p = false → Effect (exec (.collContrib p) s) (fun t => t = s2)) ∧
      (∀ st, Instr.wf (.collContrib p) = true → awaitsDecision x = true → (kidsOf x).contains came = true →
        contribOk p = true → stepOf s2 g n = some st → st.state ≠ .waiting → st.state ≠ .result → st.aborted = none →
        Effect (exec (.collContrib p) s) (fun t =>
          let late := x.deadline != 0 && sgLAUNCH (cSIG p) != 0 && sgLAUNCH (cSIG p) + x.deadline < now s2
          let old : ChildPart := (st.parts.find? fun c => c.child == came).getD { child := came }
          let s3 := setStep g n (fun q => { q with
            parts := if old.complete then st.parts
              else (st.parts.filter fun c => c.child != came) ++ [addPart old p late] })
            (poolWrote x.stack 3 p.payload.length s2)
          t = if stepOpen st = true ∧ cSIG p ≠ st.sig then raiseAbort g n 5 s3 else tryCombine g n s3)) ∧
      (∀ st, Instr.wf (.collResult p) = true → stepOf s2 g n = some st → st.state = .waiting →
        x.parent = some came → (∀ c ∈ st.resParts, c.1 ≠ cOFFSET p) →
        Effect (exec (.collResult p) s) (fun t =>
          let parts := st.resParts ++ [(cOFFSET p, p.payload)]
          let s3 := setStep g n (fun st => { st with
            resParts := parts
            late := st.late || cLATE p
            overflow := st.overflow || cOVERFLOW p
            poison := st.poison || p.poison }) s2
          let need := if sgOPCODE st.sig = 0x44 then 0 else sgLEN st.sig
          t = if need ≤ sumBy (fun c => c.2.length) parts then
              haveResult g n (joinParts parts) (if st.fetching then [] else kidsOf x) s3
            else s3)) ∧
      (Instr.wf (.collAbort p) = true →
        (isTop s2 x = true → Effect (exec (.collAbort p) s) (fun t =>
          t = topAbort g n (cREASON p) (cARG p) (cSIG p) s2)) ∧
        (isTop s2 x = false → x.parent = some came → abortNew s2 g n = true →
          Effect (exec (.collAbort p) s) (fun t => t = takeAbort g n (cREASON p) (cARG p)
            (sendCollAll g p.tclass {
              kind := kABORT, step := n, reason := cREASON p, arg := cARG p, sig := cSIG p } (kidsOf x) s2)))) ∧
      (Instr.wf (.collHeartbeat p) = true → Effect (exec (.collHeartbeat p) s) (fun t => t = s2)) ∧
      (Instr.wf (.collDepart p) = true → (neighbours x).contains came = true → Effect (exec (.collDepart p) s) (fun t =>
        t = declareLost g came (cREASON p) s2)) ∧
      (Instr.wf (.collLost p) = true → x.state = .active → isTop s2 x = true →
        Effect (exec (.collLost p) s) (fun t => t = decideLoss g (cARG p) (cREASON p) s2)) ∧
      (∀ k, Instr.wf (.collFetch p) = true → isTop s2 x = true →
        (x.kept.find? fun k => k.num == n) = some k →
        Effect (exec (.collFetch p) s) (fun t => t = foldSt (fun c s => sendColl g k.tclass came {
          kind := kRESULT, step := k.num, late := k.late, over_ := k.overflow, poison := k.poison
          off := c.1, sig := k.sig, payload := c.2 } s) (resultParts k.bytes) s2)) ∧
      (Instr.wf (.collBroken p) = true → awaitsDecision x = true → came ≠ x.top →
        Effect (exec (.collBroken p) s) (fun t =>
          let r := draw 4 s2
          let known := match x.lost with
            | some l => if l.1 = x.top then l else (x.top, 32 + r.1)
            | none => (x.top, 32 + r.1)
          t = breakGroup g (cARG p) (cARG p != 0xFFFFFFFF)
            (setGroup g (fun x => { x with lost := some known }) r.2)))) ∧
    (stale s1 p = true → (∀ i ∈ [Instr.collReady p, .collAbandon p, .collContrib p, .collResult p, .collAbort p,
        .collHeartbeat p, .collDepart p, .collLost p, .collFetch p, .collBroken p], i.wf = true →
          Effect (exec i s) (fun t => t = bump 0x7C35 0 s1)) ∧
      (Instr.wf (.collJoin p) = true → Effect (exec (.collJoin p) s) (fun t =>
        t = if (group s1 g).state = .free then bump 0x7C36 0 s1 else bump 0x7C35 0 s1)))

/-- Intervals of the collectives (R188, R202, R204). -/
def Obligations.CollectiveIntervalsTakeEffect : Prop :=
  ∀ (s : State) (g : BitVec 12),
    let x := group s g.toNat
    (∀ par, x.state = .joining → x.joinSent = true → x.joinAt ≤ ticks s → x.parent = some par →
      Effect (exec (.joinRetry g) s) (fun t =>
        t = sendColl g.toNat x.tclass par { kind := kJOIN, arg := x.digest } (setGroup g.toNat (fun x => { x with
          joinSent := true, joinAt := ticks s + rc s 0x7C10 0 }) (bump 0x7C36 0 s)))) ∧
    (x.state = .joining → x.joinBy ≤ ticks s → Effect (exec (.joinTimeoutExpiry g) s) (fun t =>
      t = abandonGroup g.toNat 16 (ownNode s) none s)) ∧
    (openSteps x ≠ [] →
      (x.beatAt ≤ ticks s → Effect (exec (.heartbeatInterval g) s) (fun t =>
        t = sendCollAll g.toNat x.tclass { kind := kHEARTBEAT } (neighbours x)
          (setGroup g.toNat (fun x => { x with beatAt := ticks s + rc s 0x7C11 0 }) s))) ∧
      (∀ (node : BitVec 20) (due : Nat), (neighbours x).contains node.toNat = true →
        mget? x.heard node.toNat = some due → due ≤ ticks s →
        Effect (exec (.livenessTimeout g node) s) (fun t => t = declareLost g.toNat node.toNat 33 s))) ∧
    (∀ (n : BitVec 32) (p : Step), stepOf s g.toNat n.toNat = some p → x.state = .active → isTop s x = true →
      p.due ≠ 0 → p.due ≤ ticks s → Effect (exec (.stepTimeoutExpiry g n) s) (fun t =>
        t = topAbort g.toNat n.toNat 10 (ownNode s) p.sig s))

/-- Address spaces, invalidations and fault records (R213 to R215, R223 to R225, R227, R230). -/
def Obligations.AddressSpacesAndFaultRecords : Prop :=
  ∀ s : State,
    (domOn s dCX = true →
      (∀ (writer : Option (Fin 514)) (asid : BitVec 16) (fn : BitVec 10) (tenant : BitVec 16) (eqn : BitVec 20)
          (pol mark : Bool) (v2 : BitVec 24) (rights : BitVec 32) (v1 : BitVec 8) (root : BitVec 56)
          (v0 : BitVec 64),
        let w (a : BitVec 8) : Nat := asWord a asid fn tenant eqn pol mark v2 rights v1 root v0
        let set (a : AddrSpace) : AddrSpace := { a with
          eqn := eqn.toNat, failPolicy := pol, mark := mark, rights := rights.toNat, root := root.toNat }
        let create : Instr := .asCreate writer asid fn tenant eqn pol mark v2 rights v1 root v0
        let modify : Instr := .asModify writer asid fn tenant eqn pol mark v2 rights v1 root v0
        (asValid s (writer.map Fin.val) (w 1) = true → Effect (exec create s) (fun t =>
          t = setSpace asid.toNat (fun _ => set { state := .live, fn := fn.toNat, tenant := tenant.toNat })
            (discardCaches asid.toNat s))) ∧
        (asValid s (writer.map Fin.val) (w 3) = true → Effect (exec modify s) (fun t =>
          let t1 := setSpace asid.toNat set s
          t = if (space s asid.toNat).root = root.toNat then t1
            else invalidate (match writer with | some f => 1024 + f | none => 1023) asid.toNat 0xFFFF true true true 0 0 t1)) ∧
        (asValid s (writer.map Fin.val) (w 1) = false → Effect (exec create s) (fun t => t = bump 0x8011 0 s)) ∧
        (asValid s (writer.map Fin.val) (w 3) = false → Effect (exec modify s) (fun t => t = bump 0x8011 0 s))) ∧
      (∀ (writer : Option (Fin 514)) (asid : BitVec 16) (fn : BitVec 10) (v : BitVec 222),
        let ok := asValid s (writer.map Fin.val) ((2 : BitVec 8) ++ asid ++ fn ++ v).toNat
        Effect (exec (.asDestroy writer asid fn v) s) (fun t =>
          (ok = true → t = setSpace asid.toNat (fun a => { a with state := .closing }) (discardCaches asid.toNat s)) ∧
          (ok = false → t = bump 0x8011 0 s))) ∧
      (∀ (who : TransIssuer) (asid tok : BitVec 16) (tlb walk all v3 : Bool) (pages : BitVec 20) (v2 : BitVec 16)
          (page : BitVec 36) (v0 : BitVec 12) (v : BitVec 88),
        let free : Prop := s.tu.held.any (fun h => h.issuer == who.code) = false
        let inv : TransCmd := {
          issuer := who.code
          word := ((1 : BitVec 8) ++ asid ++ tok ++ BitVec.ofBool tlb ++ BitVec.ofBool walk ++ BitVec.ofBool all
            ++ BitVec.ofBool v3 ++ pages ++ v2 ++ page ++ v0).toNat }
        let cmd (op : BitVec 8) : TransCmd := { issuer := who.code, word := (op ++ asid ++ tok ++ v).toNat }
        (transValid s inv = true → free → (invalsOf s who.code).length < 16 →
          Effect (exec (.translationInvalidate who asid tok tlb walk all v3 pages v2 page v0) s) (fun t =>
            t = invalidate who.code asid.toNat tok.toNat tlb walk all pages.toNat page.toNat s)) ∧
        (transValid s inv = false →
          Effect (exec (.translationInvalidate who asid tok tlb walk all v3 pages v2 page v0) s) (fun t =>
            t = bump 0x8021 0 s)) ∧
        (transValid s (cmd 2) = false → Effect (exec (.faultResume who asid tok v) s) (fun t => t = bump 0x8021 0 s)) ∧
        (transValid s (cmd 3) = false → Effect (exec (.faultFail who asid tok v) s) (fun t => t = bump 0x8021 0 s)) ∧
        (free → invalsOf s who.code = [] → recOf s asid.toNat tok.toNat = none →
          (transValid s (cmd 2) = true → Effect (exec (.faultResume who asid tok v) s) (fun t => t = bump 0x8054 0 s)) ∧
          (transValid s (cmd 3) = true → Effect (exec (.faultFail who asid tok v) s) (fun t => t = bump 0x8054 0 s))) ∧
        (∀ k r, recOf s asid.toNat tok.toNat = some (k, r) → free → invalsOf s who.code = [] →
          (transValid s (cmd 2) = true → Effect (exec (.faultResume who asid tok v) s) (fun t =>
            let packets := r.waiters.filter fun a => a.cls == .region
            let c := s.tu.nextChain
            let s1 := foldSt freshWalk (r.waiters.filter fun a => a.cls != .region) (releaseRec k
              { s with tu := { s.tu with tlb := smod [] s.tu.tlb (tlbSlice asid.toNat r.page) (fun l =>
                  l.filter fun e => !slotCovers asid.toNat r.page e) } })
            (packets = [] → t = s1) ∧
            (packets ≠ [] → t = walkNext c { s1 with tu := { s1.tu with
              nextChain := c + 1, chains := mput s1.tu.chains c packets } }))) ∧
          (transValid s (cmd 3) = true → Effect (exec (.faultFail who asid tok v) s) (fun t =>
            t = foldSt (fun (a : Acc) s => later (.result a.cont (.fault r.kind)) s) r.waiters
              (releaseRec k s)))))) ∧
    (∀ asid : BitVec 16, (space s asid.toNat).state = .closing → asidBusy s asid.toNat = false →
      Effect (exec (.asCloseComplete asid) s) (fun t => t = setSpace asid.toNat (fun _ => {}) s)) ∧
    (∀ (who : TransIssuer) (v : Inval), (s.tu.invals.find? fun v => v.issuer == who.code) = some v →
      v.waitTags.any (fun t => (mget? s.tu.reads t).isSome) = false →
      Effect (exec (.invalidateDone who) s) (fun t =>
        let s1 := bump 0x8056 0
          { s with tu := { s.tu with invals := eraseFirst (fun v => v.issuer == who.code) s.tu.invals } }
        let s2 := if (space s v.asid).state = .free then s1
          else postEvent (space s v.asid).eqn 0x0101 (v.asid * 65536 + v.token) 0 0 s1
        t = releaseHeld who.code s2.tu.held.length s2)) ∧
    (∀ (slot : BitVec 12) (a : Acc),
      let due (a : Acc) : Bool := a.cls != .region && a.deadline ≤ ticks s
      firstDue s slot.toNat due = some a →
      Effect (exec (.localWaitExpiry slot) s) (fun t =>
        t = later (.result a.cont (.fault (sget {} s.tu.recs slot.toNat).kind)) (takeWaiter slot.toNat due s)))

/-- Routing, health, vanes and replicas (R266, R268, R269, R271, R277, R283). -/
def Obligations.PacketsAreRoutedAndHealthIsKept : Prop :=
  ∀ s : State, domOn s dCX = true →
    (∀ (pk0 : Packet) (r : List Packet), s.rt.inject = pk0 :: r → pk0.hops = 0 →
      let pk := { pk0 with tepoch := s.rt.live.epoch }
      let s0 := { s with rt := { s.rt with inject := r } }
      let res := routeOf s0 pk
      let s1 := bumpBy 0x6064 0 res.2.1 (bumpBy 0x6065 0 res.2.2 s0)
      (res.1 = .here → Effect (exec (.packetRoute none) s) (fun t => t = later (.left pk) (deliver pk s1))) ∧
      (res.1 = .none → Effect (exec (.packetRoute none) s) (fun t =>
        t = if pk.type = tLOSS then bump 0x6069 0 s1 else later (.noRoute pk) (bump 0x606A 0 s1))) ∧
      (∀ c, res.1 = .port c → Effect (exec (.packetRoute none) s) (fun t =>
        let s2 := if c.cross then bumpPort c.port 13 1 (bump 0x6060 0 s1) else s1
        t = if s.pr.departure ≠ .joined ∧ opensOperation pk = true then later (.noRoute pk) (bump 0x606A 0 s1)
          else enqueue c.port pk.tclass none { pk with
            hops := 1, vc := nextVC pk, detour := if c.cross then Nat.lor pk.detour (2 ^ c.dim) else pk.detour } s2))) ∧
    (∀ (port : Fin 72) (i : Ingress),
      let mine (i : Ingress) : Bool := i.port == port.val && isRouted i.packet.type
      s.rt.ingress.find? mine = some i → 0 < i.packet.hops →
      let pk := i.packet
      let from_ : Option Nat := if i.held then some port.val else none
      let s0 := { s with rt := { s.rt with ingress := eraseFirst mine s.rt.ingress } }
      let res := routeOf s0 pk
      let s1 := bumpBy 0x6064 0 res.2.1 (bumpBy 0x6065 0 res.2.2 s0)
      (res.1 = .here → Effect (exec (.packetRoute (some port)) s) (fun t =>
        t = deliver pk (leaveIngress from_ pk s1))) ∧
      (res.1 = .stale → Effect (exec (.packetRoute (some port)) s) (fun t =>
        t = bump 0x6062 0 (leaveIngress from_ pk s1))) ∧
      (res.1 = .none → Effect (exec (.packetRoute (some port)) s) (fun t =>
        t = bump 0x6061 0 (leaveIngress from_ pk s1))) ∧
      (∀ c, res.1 = .port c → Effect (exec (.packetRoute (some port)) s) (fun t =>
        let s2 := if c.cross then bumpPort c.port 13 1 (bump 0x6060 0 s1) else s1
        t = enqueue c.port pk.tclass from_ { pk with
          hops := pk.hops + 1, vc := nextVC pk
          detour := if c.cross then Nat.lor pk.detour (2 ^ c.dim) else pk.detour } (bumpG15 8 1 s2)))) ∧
    (∀ (p : Fin 72) (vc18 : Bool) (q : QPkt),
      let v := if vc18 then 18 else 16
      let due (q : QPkt) : Bool := q.packet.vc == v && 1 < q.packet.hops && !creditOk s p.val q &&
        q.waitTo.any fun t => t ≤ ticks s
      (portFlow s p.val).queue.find? due = some q →
      Effect (exec (.singleVcWaitExpiry p vc18) s) (fun t => t = assignTags p.val (bump 0x6063 0 (leaveQueued q
        (setFlow p.val (fun x => { x with queue := eraseFirst due x.queue }) s))))) ∧
    (s.rt.healthAt ≤ ticks s → Effect (exec .healthInterval s) (fun t => t = forRange 0 72 (fun p s =>
      if (portRoute s p).state = .up ∨ (portRoute s p).state = .departing then sendHealth p s else s)
      { s with rt := { s.rt with healthAt := ticks s + rc s 0x6036 0 } })) ∧
    (∀ (port : Fin 72) (p : Packet), Instr.wf (.healthArrive port p) = true →
      let s1 := takeIngress port.val p true s
      let d := fld (kARG p) 63 62
      fld (kARG p) 61 48 = 0 → fld (kARG p) 39 37 = 0 → d < (usedSizes (shape s1)).length → Effect (exec (.healthArrive port p) s) (fun t =>
        t = later .reach (setPort port.val (fun x => { x with masks := mput x.masks d (kARG p) }) s1))) ∧
    (s.rt.vaneAt ≤ ticks s → Effect (exec .vaneUpdate s) (fun t => t = forRange 0 72 (fun p s =>
      if isFabricPort s p = true then
        setPort p (fun x => { x with vanes := (rangeFrom 0 20).map (vaneStep s p) }) s else s)
      { s with rt := { s.rt with vaneAt := ticks s + ticksOf (rc s 0x6032 0) 1600000000 } })) ∧
    (∀ diffs : List (Fin 9 × BitVec 16 × Nat), s.rt.replicaAt ≤ ticks s →
      Effect (exec (.replicaCheck diffs) s) (fun t =>
        let s1 : State := { s with rt := { s.rt with replicaAt := ticks s + rc s 0x6050 0 } }
        let used := diffs.filter fun d => replicaUsed s1 d.2.1.toNat d.2.2
        t = forRange 0 9 (fun k s => match used.find? fun d => d.1.val == k with
          | some d => raiseFault 15 k d.2.1.toNat s
          | none => s) (bumpBy 0x6066 0 used.length s1)))

/-- Lanes at their origin (R284, R286, R288, R290, R385, R387). -/
def Obligations.TradeLanesAtTheirOrigin : Prop :=
  ∀ s : State,
    (∀ (qn : BitVec 20) (o : SendOp),
      let q := queue s qn.toNat
      let l := fld (dOP0 o.desc) 9 0
      let next (op : Nat) : Prop := startable s qn.toNat (fun k => k = op) = some o
      (poweredSet s (rc s 0x8410 0) = [] → ∀ x ∈ [((0x30 : Nat), Instr.laneOpen qn), (0x31, .laneSend qn),
          (0x32, .laneClose qn)], next x.1 →
        Effect (exec x.2 s) (fun t => t = complete qn.toNat o.n (cancelled esNOENGINE 0) (markStarted qn.toNat o.n s))) ∧
      (∀ e c : Nat, poweredSet s (rc s 0x8410 0) ≠ [] → pickCtx s (rc s 0x8410 0) = some (e, c) →
      let s1 := startItem e c (.service qn.toNat o.n) (markStarted qn.toNat o.n s)
      (next 0x30 →
        let far := idNode (dDEST o.desc)
        let path := lanePath s far
        let share := fld (dOP0 o.desc) 15 0
        ((path.head?.bind (lanePort s1)) = none → Effect (exec (.laneOpen qn) s) (fun t =>
          t = complete qn.toNat o.n (cancelled (32 + 10) 0) (bump 0x6068 10 s1))) ∧
        (∀ p l b, (path.head?.bind (lanePort s1)) = some p → (freeLnum s1).1 = some l →
          (freeLabel p (freeLnum s1).2).1 = some b →
          let s2 := (freeLabel p (freeLnum s1).2).2
          let s3 := settleTags p s2
          (share ≠ 0 → shareReserved s2 p + share ≤ rc s2 0x6044 0) →
          Effect (exec (.laneOpen qn) s) (fun t =>
            t = laneSend p b (laneFlow share b (dTCLASS o.desc)) none
              (lanePacket s3 tLANESETUP far q.tenant (dTCLASS o.desc)
                (laneTH (ownNode s3) l false path.length 0 0 share 0 0 0)
                ((path ++ List.replicate (8 - path.length) 0).flatMap (leBytes 4)))
              (countInjected 32 (setOlane l (fun _ => { olane s2 l with
                state := .setup, far := far, share := share, path := path, sent := 0, port := p, label := b
                qn := qn.toNat, entry := o.n, fn := q.fn, tenant := q.tenant, tclass := dTCLASS o.desc
                deadline := ticks s2 + rc s2 0x6045 0 }) s3))))) ∧
      (next 0x31 →
        (laneDenied s1 qn.toNat l = none → (emitting (olane s1 l)).isNone = true →
          Effect (exec (.laneSend qn) s) (fun t => t = laneGather l (setOlane l (fun x => { x with
            sends := x.sends ++ [{
              qn := qn.toNat, entry := o.n, key := dKEY o.desc, addr := dTARGET o.desc, laddr := dLOCAL o.desc
              frags := o.frags, length := dLENGTH o.desc, rights := o.rights, asid := q.asid
              last := bit (dOP0 o.desc) 16, notify := bit (dOP0 o.desc) 17 }] }) s1))) ∧
        (∀ reason, laneDenied s1 qn.toNat l = some reason → Effect (exec (.laneSend qn) s) (fun t =>
          t = complete qn.toNat o.n (cancelled reason 0) s1))) ∧
      (next 0x32 →
        (laneDenied s qn.toNat l = none → (olane s l).sends = [] → Effect (exec (.laneClose qn) s) (fun t =>
          t = complete qn.toNat o.n { status := stOK } (originRelease l (olane s l) false (freeLane l s1)))) ∧
        (∀ reason, laneDenied s qn.toNat l = some reason → Effect (exec (.laneClose qn) s) (fun t =>
          t = complete qn.toNat o.n (cancelled reason 0) s1))))) ∧
    (∀ l : BitVec 10,
      let x := olane s l.toNat
      (x.state = .setup → x.deadline ≤ ticks s → Effect (exec (.laneSetupTimeout l) s) (fun t =>
        t = complete x.qn x.entry (cancelled (32 + 8) 0) (originRelease l.toNat x false (freeLane l.toNat
          (setOlane l.toNat (fun x => { x with code := 8 }) (bump 0x6068 8 s)))))) ∧
      (x.squallHold = true → x.holdUntil ≤ ticks s → Effect (exec (.squallHoldExpiry l) s) (fun t =>
        t = setOlane l.toNat (fun x => { x with squallHold := false }) s))) ∧
    (∀ p : Packet, domOn s dCX = true → Instr.wf (.squallNoticeArrive p) = true →
      let s1 := takeDelivered p s
      let l := fld p.th 235 226
      fld p.th 255 236 = ownNode s1 → (olane s1 l).state = .opened →
      Effect (exec (.squallNoticeArrive p) s) (fun t => t = setOlane l (fun x => { x with
        squallHold := true, holdUntil := ticks s1 + rc s1 0x6046 0 }) s1))

/-- Lanes at their hops (R285, R286, R289 to R291, R388). -/
def Obligations.TradeLanesAtTheirHops : Prop :=
  ∀ s : State,
    (domOn s dCX = true → ∀ (port : Fin 72) (p : Packet),
      let s1 := takeIngress port.val p true s
      (Instr.wf (.laneSetupArrive port p) = true →
        let r := setupCheck port.val p s1
        (r.1 ≠ 0 → Effect (exec (.laneSetupArrive port p) s) (fun t =>
          t = sendReply port.val p.lane p.tclass p.tenant (lORIGIN p) (lLNUM p) r.1 (p.hops - 1)
            (bump 0x6068 r.1 r.2.2))) ∧
        (r.1 = 0 → Effect (exec (.laneSetupArrive port p) s) (fun t =>
          let e : LaneEntry := {
            inPort := port.val, inLabel := p.lane, origin := lORIGIN p, lnum := lLNUM p, tenant := p.tenant
            share := lSHARE p, tclass := p.tclass, out := r.2.1, tentative := r.2.1.isSome
            deadline := ticks r.2.2 + 2 * rc r.2.2 0x6045 0 }
          (∀ q b, r.2.1 = some (q, b) → t = laneSend q b (laneFlow (lSHARE p) b p.tclass) none p
            (setLaneEntries (fun l => l ++ [e]) (settleTags q r.2.2))) ∧
          (r.2.1 = none →
            let s2 := setLaneEntries (fun l => l ++ [e]) r.2.2
            let eqn := fld (rc s2 0x8438 ((acceptance s2 p.tenant).getD 0)) 47 28
            t = sendReply port.val p.lane p.tclass p.tenant (lORIGIN p) (lLNUM p) 0 (p.hops - 1)
              { s2 with me := { s2.me with
                farLanes := s2.me.farLanes ++
                  [{ id := s2.me.nextFar, origin := lORIGIN p, lnum := lLNUM p, eqn := eqn }]
                nextFar := s2.me.nextFar + 1 } })))) ∧
      (Instr.wf (.laneReplyArrive port p) = true →
        (lORIGIN p = ownNode s1 → Effect (exec (.laneReplyArrive port p) s) (fun t => t = replyAtOrigin p s1)) ∧
        (∀ e, lORIGIN p ≠ ownNode s1 →
          let mine (e : LaneEntry) : Bool := e.out == some (port.val, p.lane) && e.tentative && !e.gone &&
            e.origin == lORIGIN p && e.lnum == lLNUM p
          s1.rt.lanes.find? mine = some e → Effect (exec (.laneReplyArrive port p) s) (fun t =>
            t = laneSend e.inPort e.inLabel e.tclass none p
              (if lCODE p = 0 then setLaneEntries (updFirst mine fun e => { e with tentative := false }) s1
               else setLaneEntries (eraseFirst mine) (settleTags port.val s1))))) ∧
      (Instr.wf (.laneDataArrive port p) = true →
        let s2 := takeIngress port.val p false s
        let s3 := if heldAt port.val p s then leaveIngress (some port.val) p s2 else s2
        (laneEntry s2 port.val p.lane = none →
          Effect (exec (.laneDataArrive port p) s) (fun t => t = bump 0x6067 0 s3)) ∧
        (∀ e, laneEntry s2 port.val p.lane = some e → e.out = none →
          Effect (exec (.laneDataArrive port p) s) (fun t => t = farArrive port.val p e s3)) ∧
        (∀ e q b, laneEntry s2 port.val p.lane = some e → e.out = some (q, b) →
          Effect (exec (.laneDataArrive port p) s) (fun t =>
            t = laneSend q b (laneFlow e.share b e.tclass) (if heldAt port.val p s then some port.val else none) p
              (if lLAST p then endLaneEntry port.val p.lane (bumpG15 8 1 s2) else bumpG15 8 1 s2)))) ∧
      (Instr.wf (.laneReleaseArrive port p) = true → ∀ e, laneEntry s1 port.val p.lane = some e →
        (∀ q b, e.out = some (q, b) → Effect (exec (.laneReleaseArrive port p) s) (fun t =>
          t = if carries s1 q then laneSend q b (laneFlow e.share b e.tclass) none p
              (endLaneEntry port.val p.lane s1)
            else dropLaneEntry port.val p.lane s1)) ∧
        (e.out = none → Effect (exec (.laneReleaseArrive port p) s) (fun t =>
          t = farReport (farEnd e.origin e.lnum false (dropLaneEntry port.val p.lane s1)))))) ∧
    (∀ (port : Fin 72) (label : BitVec 16),
      Effect (exec (.laneLastDepart port label) s) (fun t => t = foldSt (fun (e : Nat × OLane) s =>
        if e.2.lastSent && e.2.port == port.val && e.2.label == label.toNat then freeLane e.1 s else s)
        (settleTags port.val s).rt.olanes
        (setLaneEntries (fun l => l.filter fun e => !(e.out == some (port.val, label.toNat) && e.lastSent))
          (settleTags port.val s))) ∧
      (∀ e, laneEntry s port.val label.toNat = some e → e.tentative = true → e.deadline ≤ ticks s →
        Effect (exec (.tentativeLaneTimeout port label) s) (fun t => t = dropLaneEntry port.val label.toNat s)))

/-- Ports send packets and cells (R298, R302, R303, R307, R316, R327, R329, R332, R339, R341, R342). -/
def Obligations.PortsSendPacketsAndCells : Prop :=
  ∀ (s : State) (p : Fin 72), domOn s dCX = true →
    let x := portLink s p.val
    (∀ q,
      let s1 := settleTags p.val s
      pickStart s1 p.val = some q → mayStartPacket s1 p.val q.cost = true →
      Effect (exec (.packetStart p) s) (fun t => t = assignTags p.val (setPL p.val (fun x => { x with
        current := some { packet := q.packet, cells := packetCells q.packet } })
        (bumpPortVc p.val q.packet.vc 0 1 (chargeStart p.val q s1))))) ∧
    Effect (exec (.gateBoundary p) s) (fun t => t = assignTags p.val (refreshGates p.val s)) ∧
    (∀ n, rc s 0x6860 0 = n → n ≠ 0 → timeFree s = false → s.fs.nextSample ≤ now s / n →
      let s1 := { s with fs := { s.fs with nextSample := now s / n + 1 } }
      Effect (exec (.queueSample false) s) (fun t => t = sample (now s / n * n) false s1) ∧
      Effect (exec (.queueSample true) s) (fun t => t = bump 0x6866 0 s1)) ∧
    (x.state = .active → (portFlow s p.val).markerAt ≤ ticks s → Effect (exec (.syncMarkerInterval p) s) (fun t =>
      t = setPL p.val (fun x => { x with markDue := true })
        (setFlow p.val (fun x => { x with markerAt := ticks s + rc s 0x6803 0 }) s))) ∧
    (x.state ≠ .resuming → framed s p.val = true →
      allLanes.any (fun l => (laneOf (portLanes s p.val) l).drop == .load) = false → testFramed s p.val = false →
      (x.state = .active → Effect (exec (.cellTransmit p) s) (fun t => t = activeSlot p.val (countHeld p.val s))) ∧
      (x.state ≠ .active → exchanging s p.val = true →
        Effect (exec (.cellTransmit p) s) (fun t =>
          (x.sinceTrain + 1 < 256 →
            t = sendIdle p.val (setPL p.val (fun x => { x with sinceTrain := x.sinceTrain + 1 }) s)) ∧
          (256 ≤ x.sinceTrain + 1 → t = exchangeDone p.val (sendCell p.val kTRAIN 0 false false 0 (0, 0) (0, 0)
            (beBytes 256 (trainRecord s p.val)) (setPL p.val (fun x => { x with
              sinceTrain := 0, sentSeen := x.sentSeen || x.peerRec.isSome }) s))))) ∧
      (x.state ≠ .active → exchanging s p.val = false → Effect (exec (.cellTransmit p) s) (fun t =>
        t = sendIdle p.val s))) ∧
    (∀ c r, x.state = .active → x.replay = c :: r → c.timeoutAt ≤ ticks s → c.due = false →
      let s1 := bump 0x5824 p.val (setPL p.val (fun x => { x with timeouts := x.timeouts + 1 }) (replayAll p.val s))
      Effect (exec (.replayTimeout p) s) (fun t =>
        t = if c.allowed ≤ (portLink s1 p.val).timeouts then linkDown p.val s1 else s1)) ∧
    (x.state = .active → x.silentAt ≤ ticks s →
      Effect (exec (.silenceLimitExpiry p) s) (fun t => t = linkDown p.val s)) ∧
    (x.state = .resuming → x.deadline ≤ ticks s → Effect (exec (.graceExpiry p) s) (fun t =>
      let s1 := flush p.val (portFlushed p.val s)
      ((portLanes s1 p.val).bringUp = .locked → t = setPL p.val (fun x => { x with state := .exchange }) s1) ∧
      ((portLanes s1 p.val).bringUp ≠ .locked →
        t = startBringUp p.val (setPL p.val (fun x => { x with state := .lanes }) s1)))) ∧
    (x.state = .held → x.deadline ≤ ticks s → Effect (exec (.heldRetryExpiry p) s) (fun t =>
      t = beginExchange p.val (setPL p.val (fun x => { x with state := .exchange })
        (endCondition 12 p.val (endCondition 13 p.val (setPL p.val (fun x => { x with holdReason := 0 }) s)))))) ∧
    (x.state = .active ∨ x.state = .resuming → Effect (exec (.retrain p) s) (fun t => t = flushRetrain p.val s)) ∧
    (∀ sample : BitVec 32, x.state = .active → x.sampleAt ≤ ticks s →
      let l := (x.samples ++ [sample.toNat]).drop (x.samples.length + 1 - 16)
      Effect (exec (.roundTripSample p sample) s) (fun t =>
        t = setPL p.val (fun x => { x with samples := l, rtt := mean l, sampleAt := ticks s + 2 ^ 32 }) s))

/-- Received cells (R324, R325, R330, R331, R339, R358). -/
def Obligations.ReceivedCellsTakeEffect : Prop :=
  ∀ (s : State) (p : Fin 72) (c : RawCell), domOn s dCX = true → framed s p.val = true →
    let h := c.hdr.toNat
    let kind := fld h 95 92
    let good : Prop := cellCrc h c.payload = c.crc.toNat
    let idle : Bool := cellCrc h c.payload = c.crc.toNat && fld h 95 92 = kIDLE
    (∀ m : Option Bool, ∀ x ∈ [(Instr.dataCellReceive p c, (none : Option Bool)), (.creditCellReceive p c, none),
        (.syncMarkReceive p c, none), (.syncReplyReceive p c, none), (.trainCellReceive p c, none),
        (.idleCellReceive p c m, m)],
      let i := x.1
      let r := rateMatch p.val c.drift idle x.2 s
      let s0 := r.2
      (r.1 = true → Effect (exec i s) (fun t => t = s0)) ∧
      (r.1 = false → ¬ good → Effect (exec i s) (fun t => t = bump 0x5822 p.val s0)) ∧
      (r.1 = false → good →
        (formatBad h = true → Effect (exec i s) (fun t => t = bump 0x5826 p.val s0)) ∧
        (formatBad h = false →
          let s1 := setPL p.val (fun x => { x with silentAt := ticks s0 + rc s0 0x5812 0 }) (bump 0x5821 p.val s0)
          let s2 := nakTo p.val (fld h 68 53) (fld h 52 37) (ackTo p.val (fld h 68 53) s1)
          let cell : RCell := {
            seq := fld h 84 69, kind := kind, vc := fld h 91 87, sop := bit h 86, eop := bit h 85
            cra := (fld h 36 32, fld h 31 26), crb := (fld h 25 21, fld h 20 15), payload := c.payload
            arrived := now s2 }
          ((portLink s1 p.val).state = .active → Effect (exec i s) (fun t =>
            (kind = 1 ∨ kind = 2 ∨ kind = 3 ∨ kind = 4 → t = receiveSeq p.val cell s2) ∧
            (kind = 0 → t = s2) ∧ (kind = 5 → t = later (.linkDown p.val) s1))) ∧
          ((portLink s1 p.val).state ≠ .active → Effect (exec i s) (fun t =>
            (kind ≠ 5 → t = s1) ∧
            (let m := beNat c.payload
             let back := fld m 1855 1792 + fld m 1791 1760
             kind = 5 → exchanging s1 p.val = true → fld m 2002 2000 = 0 → fld m 1759 0 = 0 →
              t = exchangeDone p.val (setPL p.val (fun x => { x with
                peerRec := some m
                peerRecAt := ticks s1
                peerSeen := x.peerSeen || bit m 2004
                samples := if fld m 1855 1792 = 0 ∨ now s1 < back then x.samples
                  else x.samples ++ [now s1 - back] }) s1))))))) ∧
    (good → kind = 0 →
      let d : Int := (portLanes s p.val).crossing + (if compensating s p.val then c.drift.toInt else 0)
      let goal : Int := crossingGoal s p.val
      (goal < d → Effect (exec (.idleCellReceive p c (some true)) s) (fun t => t = setLanes p.val (fun x => { x with
        crossing := min 128 (d - 1).toNat, compDeleted := x.compDeleted + 1 }) s)) ∧
      (d < goal → compensating s p.val = true →
        let s0 := setLanes p.val (fun x => { x with
          crossing := min 128 (d + 1).toNat, compInserted := x.compInserted + 1 }) s
        let s1 := setPL p.val (fun x => { x with silentAt := ticks s0 + rc s0 0x5812 0 }) (bump 0x5821 p.val s0)
        formatBad h = false → (portLink s1 p.val).state ≠ .active →
        Effect (exec (.idleCellReceive p c (some false)) s) (fun t => t = s1)))

/-- Lanes come up and are lost (R352, R355, R356, R359, R360, R364, R365, R368). -/
def Obligations.LanesComeUpAndAreLost : Prop :=
  ∀ (s : State) (p : Fin 72) (l : Fin 4), domOn s (dSC (p.val / 8)) = true → domOn s (dOE (p.val / 8)) = true →
    let x := portLanes s p.val
    let n := laneOf x l.val
    (∀ (power : BitVec 32) (step : Fin 16), receiving s p.val = true →
      (nearLoop s p.val = true ∨ rcInt s 0x5064 0 < power.toInt) →
      Effect (exec (.cdrLockAcquired p { lane := l, power := power } step) s) (fun t =>
      t = refreshGood p.val (setLane p.val l.val (fun n => { n with
        cdr := true, peaking := (fixedPeaking s p.val l.val).getD step.val }) s))) ∧
    (∀ (m : BitVec 128) (sched : Bool) (bips skew : BitVec 16),
      (markerValid m.toNat = false ∨ receiving s p.val = false → Effect (exec (.alignmentMarkerReceive p l m sched bips skew) s) (fun t =>
        t = s)) ∧
      (markerValid m.toNat = true → receiving s p.val = true →
        Effect (exec (.alignmentMarkerReceive p l m sched bips skew) s) (fun t =>
          t = markerArrive p.val l.val m.toNat sched bips.toNat skew.toNat s))) ∧
    (∀ (e0 e1 e2 e3 : BitVec 16) (cells : BitVec 4),
      let s1 := codeword p.val [e0.toNat, e1.toNat, e2.toNat, e3.toNat] cells.toNat s
      Effect (exec (.codewordDecode p e0 e1 e2 e3 cells) s) (fun t =>
        t = if fecReady s1 p.val = true then lanesLocked p.val (startDwell p.val s1) else s1)) ∧
    (x.bringUp = .prbs → x.stepAt ≤ ticks s → Effect (exec (.trainingTimeExpiry p) s) (fun t =>
      let s1 := refreshLasers p.val (setLanes p.val (fun x => { x with
        bringUp := .framed, waiting := 0, waitingLen := 0, codewords := 0 }) s)
      t = sendMarker p.val (portLanes s1 p.val).txSet s1)) ∧
    (x.bringUp = .prbs ∨ x.bringUp = .framed → x.restartAt = none → x.limitAt ≤ ticks s →
      Effect (exec (.bringUpTimeout p) s) (fun t =>
        let d := draw (ticksOf 10 1000 + 1) s
        t = setLanes p.val (fun x => { x with restartAt := some (ticks d.2 + d.1) }) (bump 0x5019 p.val d.2))) ∧
    (∀ at_, x.restartAt = some at_ → at_ ≤ ticks s → Effect (exec (.bringUpRestart p) s) (fun t =>
      t = startBringUp p.val s)) ∧
    Effect (exec (.laneLockLoss p l true) s) (fun t => t = laneLost p.val l.val true s) ∧
    Effect (exec (.laneLockLoss p l false) s) (fun t => t = laneLost p.val l.val false s) ∧
    (∀ power : BitVec 32, nearLoop s p.val = false → power.toInt < rcInt s 0x5064 0 →
      Effect (exec (.lossOfSignal p { lane := l, power := power }) s) (fun t => t = laneLost p.val l.val true s)) ∧
    (n.cdr = true → Effect (exec (.bitSlip p l) s) (fun t => t = laneLost p.val l.val false s)) ∧
    (fixedPeaking s p.val l.val = none → n.cdr = true → n.trackAt ≤ ticks s →
      Effect (exec (.peakingTrack p l (some true)) s) (fun t =>
        t = setLane p.val l.val (fun n => { n with
          peaking := min 15 (n.peaking + 1), trackAt := ticks s + ticksOf 1 1000 }) s) ∧
      Effect (exec (.peakingTrack p l (some false)) s) (fun t =>
        t = setLane p.val l.val (fun n => { n with
          peaking := n.peaking - 1, trackAt := ticks s + ticksOf 1 1000 }) s)) ∧
    (∀ output : BitVec 32, n.laser = true → Effect (exec (.laserOutputLowExpiry p l output) s) (fun t =>
      t = raiseFault 16 (p.val * 4 + l.val) output.toNat (refreshLasers p.val (setLane p.val l.val (fun n => { n with
        laserFault := true, outputScan := toSigned 32 output.toNat }) s))))

/-- Lane sets and eye scans (R361 to R363, R367). -/
def Obligations.LaneSetsAndEyeScans : Prop :=
  ∀ s : State,
    (∀ p : Fin 72, domOn s (dSC (p.val / 8)) = true → domOn s (dOE (p.val / 8)) = true →
      let x := portLanes s p.val
      (x.bringUp = .locked → x.dwellEnd ≤ ticks s → Effect (exec (.lullDwellExpiry p) s) (fun t =>
        let s1 := startDwell p.val s
        t = if rc s 0x5010 p.val = 2 ∧ payloadLow s p.val = true ∧ x.widenTo = none ∧ 1 < lanesIn x.txSet then
            changeSet p.val (laneSet x.peerRxGood (lanesIn x.txSet / 2)) .load s1
          else s1)) ∧
      (∀ v : Fin 20, rc s 0x5010 p.val = 2 → x.bringUp = .locked → rc s 0x5013 0 ≤ vcDepth s p.val v.val →
        Effect (exec (.lullExitDepth p) s) (fun t =>
          t = startWidening p.val (laneSet (widerGood s p.val) 4) s)) ∧
      (rc s 0x5010 p.val ≠ 0 → x.bringUp = .locked → Effect (exec (.laneRestoreHoldExpiry p) s) (fun t =>
        t = startWidening p.val (laneSet (laneBits fun l => match (laneOf x l).restoreAt with
          | some a => decide (a ≤ ticks s)
          | none => false) 4) s)) ∧
      (x.widenTo ≠ none →
        (x.warm = false → x.stepAt ≤ ticks s → Effect (exec (.warmUpExpiry p) s) (fun t =>
          t = widenMarkers p.val s)) ∧
        (x.limitAt ≤ ticks s → Effect (exec (.wideningTimeout p) s) (fun t =>
          t = refreshLasers p.val (setLanes p.val (fun x => { x with widenTo := none, warm := false })
            (foldSt (fun l s => setLane p.val l (fun n => { n with widening := false }) s) allLanes
              (bump 0x5044 p.val s))))))) ∧
    (∀ (port : BitVec 7) (lane eye : BitVec 2) (hstep : BitVec 6) (voff dwell : BitVec 8) (v : BitVec 95),
      domOn s dCX = true → port.toNat < 72 →
      let cmd := (port ++ lane ++ eye ++ hstep ++ voff ++ dwell ++ v).toNat
      let legal : Bool := eye != 3 && dwell != 0 && v == 0
      Effect (exec (.eyeScan port lane eye hstep voff dwell v) s) (fun t =>
        t = setScan (port.toNat / 8) (fun _ => { status := if legal then 1 else 4, cmd := cmd }) s)) ∧
    (∀ (k : Fin 9) (errors : BitVec 64), domOn s (dSC k.val) = true →
      let c := sget {} s.px.scans k.val
      let p := fld c.cmd 127 121
      let l := fld c.cmd 120 119
      let good : Bool := (laneOf (portLanes s p) l).cdr && bit (portLanes s p).peerTxSet l && rc s 0x5030 p == 0
      let n := fld c.cmd 102 95 * 2 ^ 20
      c.status = 1 → Effect (exec (.eyeScanComplete k errors) s) (fun t =>
        t = setScan k.val (fun c => if good then { c with
          status := 2, compared := n, errors := min errors.toNat n } else { c with status := 3 }) s))

/-- Operations over registers (R378, R379). -/
def Obligations.EngineRegisterOperationsGiveTheirResult : Prop :=
  ∀ (s : State) (w : Issue) (rd ra rb : Fin 32), Issues s w = true →
    let out64 (i : Int) : Bool := i < -(2 ^ 63) || 2 ^ 63 ≤ i
    let out32 (i : Int) : Bool := i < -(2 ^ 31) || 2 ^ 31 ≤ i
    let of1 (s : State) : Nat := stampOf s w.engine w.ctx ra
    let of2 (s : State) : Nat := max (stampOf s w.engine w.ctx ra) (stampOf s w.engine w.ctx rb)
    let op (of : State → Nat) (i : Instr) (word : Nat) (f : Word64 → Word64 → AluOut) : Prop :=
      let s1 := issued s w word 0
      Effect (exec i s) (fun t =>
        t = aluDone w.engine w.ctx rd (of s1) (f (reg s1 w.engine w.ctx ra) (reg s1 w.engine w.ctx rb)) s1)
    let gives := op of2
    let val (i : Instr) (func : Nat) (f : Word64 → Word64 → Word64) : Prop :=
      gives i (wordR 0x01 rd ra rb func) (fun a b => { val := f a b, ov := false, dz := false })
    gives (.add w rd ra rb) (wordR 0x01 rd ra rb 0x000) (fun a b => {
      val := a + b, ov := out64 (a.toInt + b.toInt), dz := false }) ∧
    gives (.sub w rd ra rb) (wordR 0x01 rd ra rb 0x001) (fun a b => {
      val := a - b, ov := out64 (a.toInt - b.toInt), dz := false }) ∧
    op of1 (.neg w rd ra) (wordR 0x01 rd ra 0 0x002) (fun a _ => {
      val := -a, ov := a == BitVec.intMin 64, dz := false }) ∧
    val (.and w rd ra rb) 0x003 (fun a b => a &&& b) ∧
    val (.or w rd ra rb) 0x004 (fun a b => a ||| b) ∧
    val (.xor w rd ra rb) 0x005 (fun a b => a ^^^ b) ∧
    val (.andn w rd ra rb) 0x006 (fun a b => a &&& ~~~b) ∧
    val (.cmplt w rd ra rb) 0x007 (fun a b => if a.slt b then 1 else 0) ∧
    val (.cmpltu w rd ra rb) 0x008 (fun a b => if a < b then 1 else 0) ∧
    val (.min w rd ra rb) 0x009 (fun a b => if a.toInt ≤ b.toInt then a else b) ∧
    val (.max w rd ra rb) 0x00A (fun a b => if a.toInt ≤ b.toInt then b else a) ∧
    val (.minu w rd ra rb) 0x00B (fun a b => if a ≤ b then a else b) ∧
    val (.maxu w rd ra rb) 0x00C (fun a b => if a ≤ b then b else a) ∧
    val (.shl w rd ra rb) 0x010 (fun a b => a <<< b.toNat) ∧
    val (.shr w rd ra rb) 0x011 (fun a b => a >>> b.toNat) ∧
    val (.sar w rd ra rb) 0x012 (fun a b => a.sshiftRight b.toNat) ∧
    val (.rotl w rd ra rb) 0x013 (fun a b => a.rotateLeft b.toNat) ∧
    val (.rotr w rd ra rb) 0x014 (fun a b => a.rotateRight b.toNat) ∧
    gives (.add32 w rd ra rb) (wordR 0x01 rd ra rb 0x020) (fun a b => {
      val := sext32 (lo32 a + lo32 b), ov := out32 ((lo32 a).toInt + (lo32 b).toInt), dz := false }) ∧
    gives (.sub32 w rd ra rb) (wordR 0x01 rd ra rb 0x021) (fun a b => {
      val := sext32 (lo32 a - lo32 b), ov := out32 ((lo32 a).toInt - (lo32 b).toInt), dz := false }) ∧
    op of1 (.neg32 w rd ra) (wordR 0x01 rd ra 0 0x022) (fun a _ => {
      val := sext32 (-lo32 a), ov := lo32 a == BitVec.intMin 32, dz := false }) ∧
    val (.shl32 w rd ra rb) 0x030 (fun a b => sext32 (lo32 a <<< b.toNat)) ∧
    val (.shr32 w rd ra rb) 0x031 (fun a b => sext32 (lo32 a >>> b.toNat)) ∧
    val (.sar32 w rd ra rb) 0x032 (fun a b => sext32 ((lo32 a).sshiftRight b.toNat)) ∧
    val (.rotl32 w rd ra rb) 0x033 (fun a b => sext32 ((lo32 a).rotateLeft b.toNat)) ∧
    val (.rotr32 w rd ra rb) 0x034 (fun a b => sext32 ((lo32 a).rotateRight b.toNat))

/-- Operations with an immediate (R378, R379). -/
def Obligations.EngineImmediateOperationsGiveTheirResult : Prop :=
  ∀ (s : State) (w : Issue) (rd ra : Fin 32) (imm : BitVec 16) (n : BitVec 8), Issues s w = true →
    let sx : Word64 := imm.signExtend 64
    let zx : Word64 := imm.zeroExtend 64
    let val (i : Instr) (word : Nat) (f : Word64 → Word64) : Prop :=
      let s1 := issued s w word 0
      Effect (exec i s) (fun t => t = aluDone w.engine w.ctx rd (stampOf s1 w.engine w.ctx ra) {
        val := f (reg s1 w.engine w.ctx ra), ov := false, dz := false } s1)
    let shk (i : Instr) (selector : Nat) (f : Word64 → Word64) : Prop :=
      val i (0x09 * 2 ^ 26 + rd * 2 ^ 21 + ra * 2 ^ 16 + selector * 2 ^ 8 + n.toNat) f
    val (.addk w rd ra imm) (wordI 0x02 rd ra imm) (fun a => a + sx) ∧
    val (.addk32 w rd ra imm) (wordI 0x03 rd ra imm) (fun a => sext32 (lo32 (a + sx))) ∧
    val (.andk w rd ra imm) (wordI 0x04 rd ra imm) (fun a => a &&& zx) ∧
    val (.ork w rd ra imm) (wordI 0x05 rd ra imm) (fun a => a ||| zx) ∧
    val (.xork w rd ra imm) (wordI 0x06 rd ra imm) (fun a => a ^^^ zx) ∧
    val (.cmpltk w rd ra imm) (wordI 0x07 rd ra imm) (fun a => if a.slt sx then 1 else 0) ∧
    val (.cmpltuk w rd ra imm) (wordI 0x08 rd ra imm) (fun a => if a < sx then 1 else 0) ∧
    shk (.shkShl w rd ra n) 0x00 (fun a => a <<< n.toNat) ∧
    shk (.shkShr w rd ra n) 0x01 (fun a => a >>> n.toNat) ∧
    shk (.shkSar w rd ra n) 0x02 (fun a => a.sshiftRight n.toNat) ∧
    shk (.shkRotl w rd ra n) 0x03 (fun a => a.rotateLeft n.toNat) ∧
    shk (.shkRotr w rd ra n) 0x04 (fun a => a.rotateRight n.toNat) ∧
    shk (.shkShl32 w rd ra n) 0x10 (fun a => sext32 (lo32 a <<< n.toNat)) ∧
    shk (.shkShr32 w rd ra n) 0x11 (fun a => sext32 (lo32 a >>> n.toNat)) ∧
    shk (.shkSar32 w rd ra n) 0x12 (fun a => sext32 ((lo32 a).sshiftRight n.toNat)) ∧
    shk (.shkRotl32 w rd ra n) 0x13 (fun a => sext32 ((lo32 a).rotateLeft n.toNat)) ∧
    shk (.shkRotr32 w rd ra n) 0x14 (fun a => sext32 ((lo32 a).rotateRight n.toNat)) ∧
    (let s1 := issued s w (wordI 0x0A rd 0 imm) 0;
      Effect (exec (.khi w rd imm) s) (fun t => t = aluDone w.engine w.ctx rd 0 {
        val := sx <<< (16 : Nat), ov := false, dz := false } s1)) ∧
    val (.kshor w rd ra imm) (wordI 0x0B rd ra imm) (fun a => a <<< (16 : Nat) ||| zx)

/-- Products, quotients, counts (R378, R379). -/
def Obligations.EngineMultipliesDividesAndCounts : Prop :=
  ∀ (s : State) (w : Issue) (rd ra rb : Fin 32), Issues s w = true →
    let out64 (i : Int) : Bool := i < -(2 ^ 63) || 2 ^ 63 ≤ i
    let out32 (i : Int) : Bool := i < -(2 ^ 31) || 2 ^ 31 ≤ i
    let high (i : Int) : Word64 := BitVec.ofInt 64 (i / 2 ^ 64)
    let of1 (s : State) : Nat := stampOf s w.engine w.ctx ra
    let of2 (s : State) : Nat := max (stampOf s w.engine w.ctx ra) (stampOf s w.engine w.ctx rb)
    let gives (major : Nat) (of : State → Nat) (i : Instr) (func : Nat) (f : Word64 → Word64 → AluOut) : Prop :=
      let s1 := issued s w (wordR major rd ra rb func) 0
      Effect (exec i s) (fun t =>
        t = aluDone w.engine w.ctx rd (of s1) (f (reg s1 w.engine w.ctx ra) (reg s1 w.engine w.ctx rb)) s1)
    let muldiv (i : Instr) (func : Nat) (f : Word64 → Word64 → AluOut) : Prop := gives 0x0C of2 i func f
    let bits (i : Instr) (func : Nat) (f : Word64 → Word64) : Prop :=
      gives 0x0D of1 i func (fun a _ => { val := f a, ov := false, dz := false })
    muldiv (.mullo w rd ra rb) 0x000 (fun a b => { val := a * b, ov := out64 (a.toInt * b.toInt), dz := false }) ∧
    muldiv (.mulhs w rd ra rb) 0x001 (fun a b => { val := high (a.toInt * b.toInt), ov := false, dz := false }) ∧
    muldiv (.mulhu w rd ra rb) 0x002 (fun a b => { val := high (a.toNat * b.toNat), ov := false, dz := false }) ∧
    muldiv (.mulhm w rd ra rb) 0x003 (fun a b => { val := high (a.toInt * b.toNat), ov := false, dz := false }) ∧
    muldiv (.quos w rd ra rb) 0x004 (fun a b => {
      val := a.sdiv b, ov := a == BitVec.intMin 64 && b == -1, dz := b == 0 }) ∧
    muldiv (.quou w rd ra rb) 0x005 (fun a b => { val := a / b, ov := false, dz := b == 0 }) ∧
    muldiv (.rmds w rd ra rb) 0x006 (fun a b => { val := a.srem b, ov := false, dz := b == 0 }) ∧
    muldiv (.rmdu w rd ra rb) 0x007 (fun a b => { val := a % b, ov := false, dz := b == 0 }) ∧
    muldiv (.mullo32 w rd ra rb) 0x020 (fun a b => {
      val := sext32 (lo32 a * lo32 b), ov := out32 ((lo32 a).toInt * (lo32 b).toInt), dz := false }) ∧
    muldiv (.quos32 w rd ra rb) 0x024 (fun a b => {
      val := sext32 ((lo32 a).sdiv (lo32 b))
      ov := lo32 a == BitVec.intMin 32 && lo32 b == -1
      dz := lo32 b == 0 }) ∧
    muldiv (.quou32 w rd ra rb) 0x025 (fun a b => { val := sext32 (lo32 a / lo32 b), ov := false, dz := lo32 b == 0 }) ∧
    muldiv (.rmds32 w rd ra rb) 0x026 (fun a b => {
      val := sext32 ((lo32 a).srem (lo32 b)), ov := false, dz := lo32 b == 0 }) ∧
    muldiv (.rmdu32 w rd ra rb) 0x027 (fun a b => { val := sext32 (lo32 a % lo32 b), ov := false, dz := lo32 b == 0 }) ∧
    bits (.clz w rd ra rb) 0x000 (fun a => BitVec.ofNat 64 (clzN 64 a.toNat)) ∧
    bits (.ctz w rd ra rb) 0x001 (fun a => BitVec.ofNat 64 (ctzN 64 0 a.toNat)) ∧
    bits (.popc w rd ra rb) 0x002 (fun a => BitVec.ofNat 64 (popN 64 a.toNat)) ∧
    bits (.bswap w rd ra rb) 0x003 (fun a => a.extractLsb' 0 8 ++ a.extractLsb' 8 8 ++ a.extractLsb' 16 8 ++
      a.extractLsb' 24 8 ++ a.extractLsb' 32 8 ++ a.extractLsb' 40 8 ++ a.extractLsb' 48 8 ++ a.extractLsb' 56 8) ∧
    gives 0x0D of2 (.crc w rd ra rb) 0x004 (fun a b => {
      val := BitVec.ofNat 64 (crcRun 0x82F63B78 (leBytes 8 b.toNat) (a.toNat % 2 ^ 32)), ov := false, dz := false }) ∧
    bits (.clz32 w rd ra rb) 0x020 (fun a => BitVec.ofNat 64 (clzN 32 (lo32 a).toNat)) ∧
    bits (.ctz32 w rd ra rb) 0x021 (fun a => BitVec.ofNat 64 (ctzN 32 0 (lo32 a).toNat)) ∧
    bits (.popc32 w rd ra rb) 0x022 (fun a => BitVec.ofNat 64 (popN 32 (lo32 a).toNat))

/-- Branches and jumps (R378, R374). -/
def Obligations.EngineBranchesAndJumps : Prop :=
  ∀ (s : State) (w : Issue) (ra rb rd : Fin 32) (off imm : BitVec 16) (off26 : BitVec 26), Issues s w = true →
    let e := w.engine.val
    let c := w.ctx.val
    let br (i : Instr) (major : Nat) (holds : Word64 → Word64 → Prop) : Prop :=
      let s1 := issued s w (wordI major ra rb off) 4
      (holds (reg s1 e c ra) (reg s1 e c rb) → Effect (exec i s) (fun t =>
        t = retire e c (setPc e c (pcOf s1 e c + 4 * off.signExtend 64) s1))) ∧
      (¬ holds (reg s1 e c ra) (reg s1 e c rb) → Effect (exec i s) (fun t =>
        t = retire e c (setPc e c (pcOf s1 e c + 4) s1)))
    br (.brEq w ra rb off) 0x20 (fun a b => a = b) ∧
    br (.brNe w ra rb off) 0x21 (fun a b => a ≠ b) ∧
    br (.brLt w ra rb off) 0x22 (fun a b => a.toInt < b.toInt) ∧
    br (.brGe w ra rb off) 0x23 (fun a b => b.toInt ≤ a.toInt) ∧
    br (.brLtu w ra rb off) 0x24 (fun a b => a < b) ∧
    br (.brGeu w ra rb off) 0x25 (fun a b => b ≤ a) ∧
    (let s1 := issued s w (wordJ 0x28 off26) 4;
      Effect (exec (.call w off26) s) (fun t => t = retire e c
        (setPc e c (pcOf s1 e c + 4 * off26.signExtend 64) (setReg e c 31 (pcOf s1 e c + 4) s1)))) ∧
    (let s1 := issued s w (wordJ 0x29 off26) 4;
      Effect (exec (.jump w off26) s) (fun t => t = retire e c
        (setPc e c (pcOf s1 e c + 4 * off26.signExtend 64) s1))) ∧
    (let s1 := issued s w (wordI 0x2A rd ra imm) 4;
      let target := reg s1 e c ra + imm.signExtend 64;
      Effect (exec (.callr w rd ra imm) s) (fun t => t = retire e c
        (setPc e c (target - BitVec.ofNat 64 (target.toNat % 4)) (setReg e c rd (pcOf s1 e c + 4) s1))))

/-- Loads from the arrays (R373, R376, R378, R402, R405, R415). -/
def Obligations.EngineLoadsReadTheArrays : Prop :=
  ∀ (s : State) (w : Issue) (rd ra : Fin 32) (imm : BitVec 16), Issues s w = true →
    let e := w.engine.val
    let c := w.ctx.val
    let o := ctxObserver e c
    -- what a read of an array place gives, and where it gives it
    let counted (ecc : Ecc) (k : Nat) (s : State) : State := if ecc = .correctable then bump 0x8403 k s else s
    let read (ecc : Ecc) (dep a n : Nat) (s : State) : List Byte × State := match placeOf a n with
      | .ldm off => (memRead (engine s e).ldm off n, counted ecc (clusterOf e) s)
      | .cmem k off => ((observe o (some k) off n dep s).1, counted ecc k (observe o (some k) off n dep s).2)
      | .context off => observe o none off n dep (cmRead off n [ecc] s).2.2
      | _ => ([], s)
    let readable (ecc : Ecc) (a n : Nat) (s : State) : Prop := match placeOf a n with
      | .ldm _ => ecc ≠ .uncorrectable
      | .cmem k _ => clusterOn s k = true ∧ ecc ≠ .uncorrectable
      | .context off => (cmRead off n [ecc] s).2.1 = false
      | _ => False
    let put (r : Nat) (v : Word64) (s : State) : State := setStamp e c r s.me.fences (setReg e c r v s)
    let load (i : Instr) (major n : Nat) (value : List Byte → Word64) : Prop :=
      let s1 := issued s w (wordI major rd ra imm) 1
      let a := (reg s1 e c ra + imm.signExtend 64).toNat
      let dep := stampOf s1 e c ra
      let s2 := sampleAccess e c (placeOf a n) a s1
      a % n = 0 → mayReach s1 e c n (placeOf a n) = true → readable w.data a n s2 →
        Effect (exec i s) (fun t =>
          let r := read w.data dep a n s2
          t = nextPc e c (put rd (value r.1) r.2))
    load (.ld8 w rd ra imm) 0x10 1 (fun bs => (BitVec.ofNat 8 (leNat bs)).signExtend 64) ∧
    load (.ld8u w rd ra imm) 0x11 1 (fun bs => BitVec.ofNat 64 (leNat bs)) ∧
    load (.ld16 w rd ra imm) 0x12 2 (fun bs => (BitVec.ofNat 16 (leNat bs)).signExtend 64) ∧
    load (.ld16u w rd ra imm) 0x13 2 (fun bs => BitVec.ofNat 64 (leNat bs)) ∧
    load (.ld32 w rd ra imm) 0x14 4 (fun bs => (BitVec.ofNat 32 (leNat bs)).signExtend 64) ∧
    load (.ld32u w rd ra imm) 0x15 4 (fun bs => BitVec.ofNat 64 (leNat bs)) ∧
    load (.ld64 w rd ra imm) 0x16 8 (fun bs => BitVec.ofNat 64 (leNat bs)) ∧
    (let s1 := issued s w (wordI 0x17 rd ra imm) 3;
      let a := (reg s1 e c ra + imm.signExtend 64).toNat;
      let dep := stampOf s1 e c ra;
      let s2 := sampleAccess e c (placeOf a 8) a s1;
      let both (lo hi : List Byte) (s : State) : State := nextPc e c
        (put (rd.val + 1) (BitVec.ofNat 64 (leNat hi)) (put rd (BitVec.ofNat 64 (leNat lo)) s));
      rd.val % 2 = 0 → inArray (placeOf a 8) = true →
        (a % 16 = 0 → mayReach s1 e c 16 (placeOf a 16) = true → readable w.data a 16 s2 →
          Effect (exec (.ld2w w rd ra imm) s) (fun t =>
            let r := read w.data dep a 16 s2
            t = both (r.1.take 8) (r.1.drop 8) r.2)) ∧
        (a % 16 = 8 → mayReach s1 e c 8 (placeOf a 8) = true → mayReach s1 e c 8 (placeOf (a + 8) 8) = true →
          let r := read w.data dep a 8 s2
          readable w.data a 8 s2 → readable w.data2 (a + 8) 8 r.2 → Effect (exec (.ld2w w rd ra imm) s) (fun t =>
            let q := read w.data2 dep (a + 8) 8 r.2
            t = both ((r.1 ++ q.1).take 8) ((r.1 ++ q.1).drop 8) q.2)))

/-- Stores to the arrays (R376, R378, R403, R405, R415). -/
def Obligations.EngineStoresWriteTheArrays : Prop :=
  ∀ (s : State) (w : Issue) (rs ra : Fin 32) (imm : BitVec 16), Issues s w = true →
    let e := w.engine.val
    let c := w.ctx.val
    let write (ecc : Ecc) (a : Nat) (bs : List Byte) (s : State) : State := match placeOf a bs.length with
      | .ldm off => ldmWrite e off bs s
      | .cmem k off => cmemStore e c k off bs s
      | .context off => contextStore e c off bs ecc s
      | _ => s
    let writable (a n : Nat) (s : State) : Prop := match placeOf a n with
      | .ldm _ | .context _ => True
      | .cmem k _ => clusterOn s k = true
      | _ => False
    let store (i : Instr) (major n : Nat) : Prop :=
      let s1 := issued s w (wordI major rs ra imm) 2
      let a := (reg s1 e c ra + imm.signExtend 64).toNat
      let s2 := sampleAccess e c (placeOf a n) a s1
      a % n = 0 → mayReach s1 e c n (placeOf a n) = true → writable a n s2 → Effect (exec i s) (fun t =>
        t = nextPc e c (write w.data a (leBytes n (reg s1 e c rs).toNat) s2))
    store (.st8 w rs ra imm) 0x18 1 ∧ store (.st16 w rs ra imm) 0x19 2 ∧ store (.st32 w rs ra imm) 0x1A 4 ∧
    store (.st64 w rs ra imm) 0x1B 8 ∧
    (let s1 := issued s w (wordI 0x1C rs ra imm) 3;
      let a := (reg s1 e c ra + imm.signExtend 64).toNat;
      let s2 := sampleAccess e c (placeOf a 8) a s1;
      let lo := leBytes 8 (reg s1 e c rs).toNat;
      let hi := leBytes 8 (reg s1 e c (rs + 1)).toNat;
      rs.val % 2 = 0 → inArray (placeOf a 8) = true →
        (a % 16 = 0 → mayReach s1 e c 16 (placeOf a 16) = true → writable a 16 s2 →
          Effect (exec (.st2w w rs ra imm) s) (fun t => t = nextPc e c (write w.data a (lo ++ hi) s2))) ∧
        (a % 16 = 8 → mayReach s1 e c 8 (placeOf a 8) = true → mayReach s1 e c 8 (placeOf (a + 8) 8) = true →
          writable a 8 s2 → writable (a + 8) 8 s2 → Effect (exec (.st2w w rs ra imm) s) (fun t =>
            t = nextPc e c (write w.data2 (a + 8) hi (write w.data a lo s2)))))

/-- Accesses that leave the engine or trap (R146, R373, R375, R376, R378, R381, R415, R441). -/
def Obligations.EngineAccessesLeaveOrTrap : Prop :=
  ∀ (s : State) (w : Issue) (rd ra : Fin 32) (imm : BitVec 16), Issues s w = true →
    let e := w.engine.val
    let c := w.ctx.val
    let ea (s1 : State) : Nat := (reg s1 e c ra + imm.signExtend 64).toNat
    let isPair (major : Nat) : Bool := major == 0x17 || major == 0x1C
    let st (major kind : Nat) : State := issued s w (wordI major rd ra imm) kind
    let traps (i : Instr) (cause : Nat) (s1 : State) : Prop :=
      Effect (exec i s) (fun t => t = trapHere e c cause (ea s1) s1)
    -- an access of `n` bytes, in parts of `m`: the traps that come before it
    let checked (i : Instr) (major kind n : Nat) : Prop :=
      let s1 := st major kind
      let a := ea s1
      let m := if isPair major then 8 else n
      (a % m ≠ 0 → traps i cALIGN s1) ∧
      (a % m = 0 → (parts a n (isPair major)).any (fun p => !mayReach s1 e c p.2 (placeOf p.1 p.2)) = true →
        traps i cACCESS s1)
    let goes (major kind n : Nat) (p : EPlace) (s2 : State) : Prop :=
      let s1 := st major kind
      let a := ea s1
      let m := if isPair major then 8 else n
      a % m = 0 ∧ (parts a n (isPair major)).all (fun p => mayReach s1 e c p.2 (placeOf p.1 p.2)) = true ∧
        placeOf a m = p ∧ s2 = sampleAccess e c p a s1
    let load (i : Instr) (major kind size : Nat) (signed : Bool) : Prop :=
      let pair := isPair major
      let n := if pair then 16 else size
      let a := ea (st major kind)
      checked i major kind n ∧
      (∀ h s2, goes major kind n (.host h) s2 → isAbandoned s2 e c = false → Effect (exec i s) (fun t =>
        t = hostAccess e c h size none false (block e c (.access a (.load rd size signed pair [])) s2))) ∧
      (∀ k h s2, goes major kind n (.remote k h) s2 → isAbandoned s2 e c = false → Effect (exec i s) (fun t =>
        t = remoteAccess e c k a h size none [] (block e c (.access a (.load rd size signed pair [])) s2))) ∧
      (∀ off s2, goes major kind n (.unit off) s2 → isAbandoned s2 e c = false → Effect (exec i s) (fun t =>
        let d := draw (2 ^ (8 * n)) s2
        t = loadDone e c rd size signed pair (leBytes n d.1) d.2)) ∧
      (pair = false → ∀ off s2, goes major kind n (.context off) s2 → (cmRead off n [w.data] s2).2.1 = true →
        Effect (exec i s) (fun t => t = trapHere e c cPOISON a
          (observe (ctxObserver e c) none off n (stampOf (st major kind) e c ra) (cmRead off n [w.data] s2).2.2).2)) ∧
      (pair = false → ∀ off s2, goes major kind n (.ldm off) s2 → w.data = .uncorrectable →
        Effect (exec i s) (fun t => t = trapHere e c cPARITY a s2)) ∧
      (∀ k off s2, goes major kind n (.cmem k off) s2 → clusterOn s2 k = false →
        Effect (exec i s) (fun t => t = trapHere e c cBUS a s2))
    let store (i : Instr) (major kind size : Nat) : Prop :=
      let pair := isPair major
      let n := if pair then 16 else size
      let s1 := st major kind
      let a := ea s1
      let bs := if pair then leBytes 8 (reg s1 e c rd).toNat ++ leBytes 8 (reg s1 e c (rd + 1)).toNat
        else leBytes size (reg s1 e c rd).toNat
      checked i major kind n ∧
      (∀ h s2, goes major kind n (.host h) s2 → isAbandoned s2 e c = false → Effect (exec i s) (fun t =>
        t = if pair then
            hostAccess e c h 8 (some (bs.take 8)) true (block e c (.access a (.pairStore bs 0)) s2)
          else hostAccess e c h n (some bs) false (block e c (.access a (.store [] none)) s2))) ∧
      (∀ k h s2, goes major kind n (.remote k h) s2 → isAbandoned s2 e c = false → Effect (exec i s) (fun t =>
        t = if pair then remoteStore e c k a h (bs.take 8) (bs.drop 8) s2 else remoteStore e c k a h bs [] s2)) ∧
      (∀ off s2, goes major kind n (.unit off) s2 → isAbandoned s2 e c = false → Effect (exec i s) (fun t =>
        t = nextPc e c (if pair then
            emit (.unitStore (off + 8) (bs.drop 8)) (emit (.unitStore off (bs.take 8)) s2)
          else emit (.unitStore off bs) s2))) ∧
      (∀ k off s2, goes major kind n (.cmem k off) s2 → clusterOn s2 k = false →
        Effect (exec i s) (fun t => t = trapHere e c cBUS a s2))
    load (.ld8 w rd ra imm) 0x10 1 1 true ∧ load (.ld8u w rd ra imm) 0x11 1 1 false ∧
    load (.ld16 w rd ra imm) 0x12 1 2 true ∧ load (.ld16u w rd ra imm) 0x13 1 2 false ∧
    load (.ld32 w rd ra imm) 0x14 1 4 true ∧ load (.ld32u w rd ra imm) 0x15 1 4 false ∧
    load (.ld64 w rd ra imm) 0x16 1 8 false ∧ (rd.val % 2 = 0 → load (.ld2w w rd ra imm) 0x17 3 8 false) ∧
    store (.st8 w rd ra imm) 0x18 2 1 ∧ store (.st16 w rd ra imm) 0x19 2 2 ∧ store (.st32 w rd ra imm) 0x1A 2 4 ∧
    store (.st64 w rd ra imm) 0x1B 2 8 ∧ (rd.val % 2 = 0 → store (.st2w w rd ra imm) 0x1C 3 8) ∧
    (rd.val % 2 = 1 →
      Effect (exec (.ld2w w rd ra imm) s) (fun t => t = trapHere e c cILLEGAL 0 (st 0x17 3)) ∧
      Effect (exec (.st2w w rd ra imm) s) (fun t => t = trapHere e c cILLEGAL 0 (st 0x1C 3)))

/-- Load reserve and store conditional (R378, R412 to R414). -/
def Obligations.EngineLoadReserveAndStoreConditional : Prop :=
  ∀ (s : State) (w : Issue) (rd ra rb : Fin 32) (imm : BitVec 16), Issues s w = true → w.data = .clean →
    let e := w.engine.val
    let c := w.ctx.val
    let o := ctxObserver e c
    let traps (i : Instr) (s1 : State) (a : Nat) : Prop :=
      (a % 8 ≠ 0 → Effect (exec i s) (fun t => t = trapHere e c cALIGN a s1)) ∧
      (a % 8 = 0 → mayReach s1 e c 8 (placeOf a 8) = false →
        Effect (exec i s) (fun t => t = trapHere e c cACCESS a s1)) ∧
      (a % 8 = 0 → granuleOf (placeOf a 8) = none →
        Effect (exec i s) (fun t => t = trapHere e c cACCESS a s1))
    (let s1 := issued s w (wordI 0x1D rd ra imm) 3;
      let a := (reg s1 e c ra + imm.signExtend 64).toNat;
      let s2 := sampleAccess e c (placeOf a 8) a s1;
      let hold (cl : Option Nat) (off : Nat) (r : List Byte × State) : State :=
        setCtx e c (fun x => { x with resv := some { cluster := cl, index := off / 128 } })
          (nextPc e c (setStamp e c rd r.2.me.fences (setReg e c rd (BitVec.ofNat 64 (leNat r.1)) r.2)));
      traps (.lrsv w rd ra imm) s1 a ∧
      (a % 8 = 0 → mayReach s1 e c 8 (placeOf a 8) = true →
        (∀ k off, placeOf a 8 = .cmem k off → clusterOn s2 k = true → Effect (exec (.lrsv w rd ra imm) s) (fun t =>
          t = hold (some k) off (observe o (some k) off 8 s1.me.fences (seeRange o (some k) off 8 s2)))) ∧
        (∀ off, placeOf a 8 = .context off →
          let r := cmRead off 8 [.clean] (seeRange o none off 8 s2)
          r.2.1 = false → Effect (exec (.lrsv w rd ra imm) s) (fun t =>
            t = hold none off (observe o none off 8 s1.me.fences r.2.2))))) ∧
    (let s1 := issued s w (wordR 0x1E rd ra rb 0) 3;
      let a := (reg s1 e c ra).toNat;
      let v := leBytes 8 (reg s1 e c rb).toNat;
      let s2 := sampleAccess e c (placeOf a 8) a (setCtx e c (fun x => { x with resv := none }) s1);
      traps (.scnd w rd ra rb) s1 a ∧
      (a % 8 = 0 → mayReach s1 e c 8 (placeOf a 8) = true →
        (∀ k off, placeOf a 8 = .cmem k off → (ectx s1 e c).resv = some { cluster := some k, index := off / 128 } →
          Effect (exec (.scnd w rd ra rb) s) (fun t =>
            t = finish e c rd 0 (bump 0x8638 0 (cmemStore e c k off v s2)))) ∧
        (∀ off, placeOf a 8 = .context off → (ectx s1 e c).resv = some { cluster := none, index := off / 128 } →
          Effect (exec (.scnd w rd ra rb) s) (fun t =>
            t = finish e c rd 0 (bump 0x8638 0 (contextStore e c off v .clean s2)))) ∧
        (∀ g, granuleOf (placeOf a 8) = some g → (ectx s1 e c).resv ≠ some g →
          Effect (exec (.scnd w rd ra rb) s) (fun t => t = finish e c rd 1 (bump 0x8637 0 s2)))))

/-- System instructions of the engines (R378, R380 to R384, R390, R406 to R408). -/
def Obligations.EngineSystemInstructions : Prop :=
  ∀ (s : State) (w : Issue) (rd ra : Fin 32), Issues s w = true →
    let e := w.engine.val
    let c := w.ctx.val
    let x (function selector kind : Nat) : State := issued s w (wordX 0x30 rd ra function selector) kind
    let u (selector : Nat) : State := issued s w (wordX 0x34 rd ra 0 selector) 5
    let firmware (s1 : State) : Prop := inPackage s1 e c = false
    (∀ (sel : BitVec 12) (v : Word64),
      let s1 := x 1 sel.toNat 0
      let r := ectx s1 e c
      firmware s1 →
      [(0, r.status), (1, r.cause), (2, r.vector), (3, r.priority), (4, r.resume), (5, r.faultaddr),
        (6, BitVec.ofNat 64 (c * 256 + e)), (7, r.asid), (8, r.tenant), (10, sget 0 r.rwin 0), (11, sget 0 r.rwin 1),
        (12, sget 0 r.rwin 2), (13, sget 0 r.rwin 3), (15, r.scratch), (16, r.mtcmp), (17, r.pending),
        (18, r.pbase)].lookup sel.toNat = some v →
      Effect (exec (.rds w rd ra sel) s) (fun t => t = finish e c rd v s1)) ∧
    (∀ (sel : BitVec 12) (write : Word64 → ECtx → ECtx),
      let s1 := x 2 sel.toNat 0
      firmware s1 →
      ([(0, fun v x => { x with status := v &&& statusMask }), (1, fun v x => { x with cause := v }),
        (2, fun v x => { x with vector := v }), (3, fun v x => { x with priority := v &&& 0xF }),
        (4, fun v x => { x with resume := v }), (5, fun v x => { x with faultaddr := v }),
        (7, fun v x => { x with asid := v &&& 0xFFFF }), (8, fun v x => { x with tenant := v &&& 0xFFFF }),
        (10, fun v x => { x with rwin := sset 0 x.rwin 0 v }), (11, fun v x => { x with rwin := sset 0 x.rwin 1 v }),
        (12, fun v x => { x with rwin := sset 0 x.rwin 2 v }), (13, fun v x => { x with rwin := sset 0 x.rwin 3 v }),
        (15, fun v x => { x with scratch := v }), (16, fun v x => { x with mtcmp := v, mtcmpDone := false }),
        (17, fun v x => { x with pending := x.pending &&& ~~~v })] : List (Nat × (Word64 → ECtx → ECtx))).lookup
          sel.toNat = some write →
      Effect (exec (.wrs w rd ra sel) s) (fun t =>
        t = nextPc e c (setCtx e c (write (reg s1 e c ra)) s1))) ∧
    (∀ sel : BitVec 12,
      let s1 := x 1 sel.toNat 0
      let s2 := x 2 sel.toNat 0
      (sel.toNat = 9 → firmware s1 → Effect (exec (.rds w rd ra sel) s) (fun t =>
        t = finish e c rd (BitVec.ofNat 64 (draw (2 ^ 64) s1).1) (draw (2 ^ 64) s1).2)) ∧
      (sel.toNat = 14 → firmware s1 → Effect (exec (.rds w rd ra sel) s) (fun t =>
        let r := draw ((ectx s1 e c).budget.toNat + 1) s1
        t = finish e c rd (BitVec.ofNat 64 r.1) r.2)) ∧
      (18 < sel.toNat → Effect (exec (.rds w rd ra sel) s) (fun t => t = trapHere e c cILLEGAL 0 s1)) ∧
      (18 < sel.toNat ∨ sel.toNat = 6 ∨ sel.toNat = 9 ∨ sel.toNat = 14 ∨ sel.toNat = 18 →
        Effect (exec (.wrs w rd ra sel) s) (fun t => t = trapHere e c cILLEGAL 0 s2)) ∧
      (inPackage s1 e c = true → sel.toNat = 2 ∨ sel.toNat = 4 → Effect (exec (.rds w rd ra sel) s) (fun t =>
        t = trapHere e c cACCESS 0 s1)) ∧
      (inPackage s2 e c = true → sel.toNat ∈ [1, 2, 3, 4, 5, 7, 8, 17] → Effect (exec (.wrs w rd ra sel) s) (fun t =>
        t = trapHere e c cACCESS 0 s2))) ∧
    (∀ sel : BitVec 12,
      Effect (exec (.trap w rd ra sel) s) (fun t => t = trapHere e c cTRAP sel.toNat (x 3 sel.toNat 0)) ∧
      Effect (exec (.brk w rd ra sel) s) (fun t => t = trapHere e c cBREAK sel.toNat (x 7 sel.toNat 0)) ∧
      (firmware (x 4 sel.toNat 0) → Effect (exec (.ret w rd ra sel) s) (fun t =>
        t = retire e c (setCtx e c trapReturn (x 4 sel.toNat 0)))) ∧
      (inPackage (x 4 sel.toNat 0) e c = true → Effect (exec (.ret w rd ra sel) s) (fun t =>
        t = trapHere e c cILLEGAL 0 (x 4 sel.toNat 0))) ∧
      (let s1 := x 5 sel.toNat 0;
        let took := Nat.land (fld (reg s1 e c ra).toNat 4 0) (pendingBits (ectx s1 e c));
        (took = 0 → Effect (exec (.wait w rd ra sel) s) (fun t =>
          t = block e c (.event (fld (reg s1 e c ra).toNat 4 0) rd) s1)) ∧
        (took ≠ 0 → Effect (exec (.wait w rd ra sel) s) (fun t =>
          t = finish e c rd (BitVec.ofNat 64 took) (setEngine e (fun g => { g with offer := true })
            (setCtx e c (fun x => { x with pending := x.pending &&& ~~~(BitVec.ofNat 64 took) }) s1))))) ∧
      Effect (exec (.yield w rd ra sel) s) (fun t =>
        t = nextPc e c (setEngine e (fun g => { g with offer := true }) (x 6 sel.toNat 0))) ∧
      Effect (exec (.doneItem w rd ra sel) s) (fun t => t = packageEnd e c (nextPc e c (x 8 sel.toNat 0)))) ∧
    (isAbandoned (u 1) e c = false → Effect (exec (.mtread w rd ra) s) (fun t =>
      t = finish e c rd (BitVec.ofNat 64 (now (u 1))) (u 1))) ∧
    Effect (exec (.fenceO w) s) (fun t => t = nextPc e c (fenceCluster e c (issued s w (wordI 0x1F 0 0 1) 0))) ∧
    (let s1 := issued s w (wordI 0x1F 0 0 2) 0;
      let x := ectx s1 e c;
      let no := x.fenceNo + 1;
      let s2 := block e c (.fence no (x.wrote.length + x.flows.length)) (setCtx e c (fun x => { x with fenceNo := no }) s1);
      let s3 := foldSt (fun (l : Nat × Nat) s => later (.zeroRead l.1 (.fence e c no l.1 l.2)) s) x.wrote s2;
      Effect (exec (.fenceP w) s) (fun t => t = fenceCheck e c
        (foldSt (fun (f : Nat × Nat × Nat) s => engineFlush (.fence e c no f.2.2) f.1 f.2.1 s) x.flows s3))) ∧
    (let s1 := u 2;
      let a := (reg s1 e c ra).toNat;
      let tag := (ectx s1 e c).nextTag;
      let desc := memRead (engine s1 e).ldm a 32;
      let n := Config.moveLength desc;
      isAbandoned s1 e c = false →
        (placeOf a 32 = .ldm a → mayReach s1 e c 32 (.ldm a) = true →
          (w.data = .clean → Effect (exec (.dma w rd ra) s) (fun t =>
            t = finish e c rd (BitVec.ofNat 64 tag) (setCtx e c (fun x => { x with
              moves := x.moves ++ [{
                tag := tag, desc := desc, asid := (ectx s1 e c).asid.toNat % 2 ^ 16
                tenant := (ectx s1 e c).tenant.toNat, rwin := (ectx s1 e c).rwin
                permitted := mayReach s1 e c n (placeOf (Config.moveSource desc) n) &&
                  mayReach s1 e c n (placeOf (Config.moveDest desc) n) }]
              nextTag := tag + 1 }) (seeReached (moveObserver (clusterOf e)) s1)))) ∧
          (w.data = .uncorrectable → Effect (exec (.dma w rd ra) s) (fun t => t = trapHere e c cPARITY a s1))) ∧
        ((∀ off, placeOf a 32 ≠ .ldm off) ∨ mayReach s1 e c 32 (placeOf a 32) = false →
          Effect (exec (.dma w rd ra) s) (fun t => t = trapHere e c cACCESS a s1))) ∧
    (∀ m st,
      let s1 := setEngine e (fun g => { g with offer := true }) (u 3)
      let tag := (reg (u 3) e c ra).toNat
      isAbandoned (u 3) e c = false → ((ectx s1 e c).moves.find? fun m => m.tag == tag) = some m →
      (m.done = some st → Effect (exec (.dmawait w rd ra) s) (fun t => t = finish e c rd (BitVec.ofNat 64 st)
        (setCtx e c (fun x => { x with moves := x.moves.filter fun k => k.tag != tag }) s1))) ∧
      (m.done = none → Effect (exec (.dmawait w rd ra) s) (fun t => t = block e c (.dma tag rd) s1))) ∧
    (let s1 := u 4;
      let v := (reg s1 e c ra).toNat;
      isAbandoned s1 e c = false → v % 2 ^ 7 < 96 → engineRuns s1 (v % 2 ^ 7) = true → Effect (exec (.wake w rd ra) s) (fun t =>
        t = nextPc e c (setEvent (v % 2 ^ 7) (v / 2 ^ 8 % 4) 3 s1))) ∧
    (∀ word : BitVec 32, legalWord word.toNat = false → Effect (exec (.illegalInstruction w word) s) (fun t =>
      t = trapHere e c cILLEGAL 0 (issued s w word.toNat 0)))

/-- Lock instructions (R416, R419, R424, R425). -/
def Obligations.EngineLockInstructions : Prop :=
  ∀ (s : State) (w : Issue) (rd ra : Fin 32), Issues s w = true →
    let e := w.engine.val
    let c := w.ctx.val
    let p : Party := .engine (e * 4 + c)
    let u (selector : Nat) : State := issued s w (wordX 0x34 rd ra 0 selector) 5
    let lock (s1 : State) : Nat := (reg s1 e c ra).toNat
    let prio (s1 : State) : Nat := (ectx s1 e c).priority.toNat % 16
    let mayUse (s1 : State) : Prop := lock s1 < 4096 ∧ inPackage s1 e c = false ∧ isAbandoned s1 e c = false
    let gives (i : Instr) (v : Nat) (s2 : State) : Prop :=
      Effect (exec i s) (fun t => t = finish e c rd (BitVec.ofNat 64 v) s2)
    (∀ h,
      let s1 := u 0x10
      let l := lock s1
      mayUse s1 → (ectx s1 e c).granted = none →
        ((lockOf s1 l).holder = none →
          gives (.acquire w rd ra) 0 (takeLock l p (prio s1) 0 (bump 0x8630 0 s1))) ∧
        ((lockOf s1 l).holder = some h → h.party = p → gives (.acquire w rd ra) 4 s1) ∧
        ((lockOf s1 l).holder = some h → h.party ≠ p → waitsFor s1 p = none →
          Effect (exec (.acquire w rd ra) s) (fun t =>
            t = block e c (.lock l rd) (enqueueWaiter l p (prio s1) 0 (bump 0x8630 0 s1))))) ∧
    (let s1 := u 0x11;
      let l := lock s1;
      mayUse s1 →
        (holderIs s1 l p = true → gives (.release w rd ra) 0 (giveUp l p false s1)) ∧
        (holderIs s1 l p = false → gives (.release w rd ra) 3 s1)) ∧
    (∀ h,
      let s1 := u 0x12
      let l := lock s1
      mayUse s1 →
        ((lockOf s1 l).holder = none → gives (.tryLock w rd ra) 0 (takeLock l p (prio s1) 0 s1)) ∧
        ((lockOf s1 l).holder = some h → h.party = p → gives (.tryLock w rd ra) 4 s1) ∧
        ((lockOf s1 l).holder = some h → h.party ≠ p → gives (.tryLock w rd ra) 1 (bump 0x8633 0 s1))) ∧
    (isAbandoned (u 0x10) e c = false → 4096 ≤ lock (u 0x10) → gives (.acquire w rd ra) 12 (u 0x10)) ∧
    (isAbandoned (u 0x11) e c = false → 4096 ≤ lock (u 0x11) → gives (.release w rd ra) 12 (u 0x11)) ∧
    (isAbandoned (u 0x12) e c = false → 4096 ≤ lock (u 0x12) → gives (.tryLock w rd ra) 12 (u 0x12))

/-- Work items and events of contexts (R384 to R386, R390, R408). -/
def Obligations.WorkItemsAndTheirEvents : Prop :=
  ∀ s : State,
    (∀ (control : Bool),
      let mask := rc s 0x8410 0
      let k : ItemKind := if control then .control else .internal
      let gives (f : State → State) : Prop := Effect (exec (.workItemDispatch control) s) (fun t => t = f s)
      s.me.items = [] →
        (∀ e c, poweredSet s mask ≠ [] → pickCtx s mask = some (e, c) → gives (startItem e c k)) ∧
        (poweredSet s mask ≠ [] → pickCtx s mask = none → gives (fun s => { s with me := { s.me with items := [k] } })) ∧
        (poweredSet s mask = [] → gives id)) ∧
    (∀ (qn : Fin 1048576) (op : SendOp),
      let q := queue s qn.val
      let slot := dOPCODE op.desc - 0x38
      let g := pkgSlot s slot
      let s1 := markStarted qn.val op.n s
      let refused (reason : Nat) : Prop := Effect (exec (.packageCall qn) s) (fun t =>
        t = bump 0x8451 0 (complete qn.val op.n (cancelled reason 0) s1))
      startable s qn.val (fun o => 0x38 ≤ o && o ≤ 0x3F) = some op → g.state ≠ .quiescing →
      s.me.acts.any (fun a => (a.target == 0 || a.target == slot + 1) && a.state != .armed) = false →
        (g.state ≠ .active → refused esNOPACKAGE) ∧
        (g.state = .active → q.tenant ≠ g.tenant → refused esNOTPERMITTED) ∧
        (g.state = .active → q.tenant = g.tenant →
          (g.handlers[fld (dOP0 op.desc) 7 0]? = none → refused esBADHANDLER) ∧
          (∀ entry, g.handlers[fld (dOP0 op.desc) 7 0]? = some entry →
            (poweredSet s g.mask = [] → refused esNOENGINE) ∧
            (∀ e c, poweredSet s g.mask ≠ [] → pickCtx s g.mask = some (e, c) →
              Effect (exec (.packageCall qn) s) (fun t => t = enterPackage e c slot qn.val q op entry s1))))) ∧
    (∀ (engine : Fin 96) (ctx : Fin 4),
      let e := engine.val
      let c := ctx.val
      let x := ectx s e c
      engineRuns s e = true →
        (x.item ≠ none → atBoundary x.wait = true →
          (x.budget ≠ 0 → Effect (exec (.budgetExhausted engine ctx) s) (fun t =>
            t = trapHere e c cBUDGET 0 (setCtx e c (fun x => { x with budget := 0 }) s))) ∧
          (x.status.getLsbD 12 = true → Nat.land (intMask x) (pendingBits x) ≠ 0 →
            Effect (exec (.interruptTaken engine ctx) s) (fun t =>
              t = takeTrap e c cINTERRUPT (Nat.land (intMask x) (pendingBits x)) x.pc s))) ∧
        (x.mtcmpDone = false → x.mtcmp.toNat ≤ now s →
          Effect (exec (.mtcmpReached engine ctx) s) (fun t =>
            t = setEvent e c 2 (setCtx e c (fun x => { x with mtcmpDone := true }) s))) ∧
        (∀ (tag : BitVec 64) (given : MoveInput) (st : BitVec 8) (m : Move),
          (x.moves.find? fun m => m.tag == tag.toNat && m.done.isNone && !m.writing) = some m →
          let n := Config.moveLength m.desc
          let gives (s1 : State) : Prop := Effect (exec (.dmaMoveComplete engine ctx tag given st) s) (fun t => t = s1)
          let ends (code : Nat) (s1 : State) : Prop := gives (moveOver e c m.tag code s1)
          let dest := placeOf (Config.moveDest m.desc) n
          let (bs, bad, unread, s1) := moveRead e n (placeOf (Config.moveSource m.desc) n) given s
          (m.permitted = false → ends stLOCALFAULT s) ∧
          (m.permitted = true → st ≠ 0 → ends st.toNat s) ∧
          (m.permitted = true → st = 0 →
            (unread = true → ends stLOCALFAULT s1) ∧
            (unread = false →
              (dest = .none → ends stLOCALFAULT s1) ∧
              (∀ off, dest = .ldm off → ends (movedStatus bad) (if bad then s1 else ldmWrite e off bs s1)) ∧
              (∀ k off, dest = .cmem k off → clusterOn s1 k = false → ends stLOCALFAULT s1) ∧
              (∀ k off, dest = .cmem k off → clusterOn s1 k = true → ends (movedStatus bad)
                (if bad then s1 else cmemWrite k off bs (performRange (some k) off bs.length s1))) ∧
              (∀ off, dest = .context off →
                let s2 := performRange none off bs.length s1
                ends (movedStatus bad) (if bad then cmWritePoison off bs.length s2 else cmWrite off bs given.dest s2)) ∧
              (∀ off, dest = .unit off →
                ends (movedStatus bad) (if bad then s1 else emit (.unitStore off bs) s1)) ∧
              ((∃ a, dest = .host a) ∨ (∃ k a, dest = .remote k a) →
                gives (moveWrite e c m dest bs bad given.dest s1))))))

/-- Activation and removal of firmware and packages (R393 to R395). -/
def Obligations.ActivationsAndPackages : Prop :=
  ∀ s : State,
    (∀ (target source : BitVec 8) (instant : BitVec 64), target.toNat < 9 →
      let r := activateCheck s target.toNat source.toNat
      let act (P : State → Prop) : Prop := Effect (exec (.activate target source instant) s) P
      let refused (reason : Nat) : Prop := act (fun t => t = actRefuse target.toNat reason instant.toNat s)
      (r ≠ 0 → r ≠ 2 → refused r) ∧
      (r = 2 → act (fun t => t = actRefuse target.toNat 2 instant.toNat
        (logEvent 5 0 0x10 3 (beBytes 4 s.ms.mgmtFw.mgmtVersion ++
          beBytes 4 (bundleOf (area s source.toNat).bytes).engineVersion) s))) ∧
      (r = 0 →
        (instant = 0 → act (fun t => t = beginQuiesce target.toNat source.toNat 0 false s)) ∧
        (instant ≠ 0 → timeFree s = true → refused 7) ∧
        (timeFree s = false → 0 < instant.toNat → instant.toNat < now s → act (fun t =>
          t = beginQuiesce target.toNat source.toNat instant.toNat false (bump 0x4006 0 s))) ∧
        (timeFree s = false → instant ≠ 0 → now s ≤ instant.toNat →
          (16384 ≤ s.tb.armed.length → refused 6) ∧
          (s.tb.armed.length < 16384 → act (fun t =>
            t = setActStatus (fun _ => { state := 1, target := target.toNat, instant := instant.toNat }) { s with
              tb := { s.tb with armed := s.tb.armed ++ [{
                owner := .activation target.toNat, instant := instant.toNat, late := false }] }
              me := { s.me with acts := s.me.acts ++ [{
                target := target.toNat, state := .armed, source := source.toNat, instant := instant.toNat }] } }))))) ∧
    (∀ target : BitVec 8, target ≠ 0 → target.toNat < 9 → (pkgSlot s (target.toNat - 1)).state ≠ .empty →
      ((findAct s target.toNat = none → Effect (exec (.packageRemove target) s) (fun t =>
        t = beginQuiesce target.toNat 0 0 true s)) ∧
      ((findAct s target.toNat).isSome = true → Effect (exec (.packageRemove target) s) (fun t =>
        t = actRefuse target.toNat 8 0 s)))) ∧
    (∀ (target : BitVec 8) (a : Activation), findAct s target.toNat = some a →
      (a.state = .armed →
        Effect (exec (.activationCancel target) s) (fun t =>
          t = setActStatus (fun _ => { state := 0, target := target.toNat })
            (dropAct target.toNat (releaseShot (.activation target.toNat) s))) ∧
        (dueUpTo (.activation target.toNat) s = [.activation target.toNat] → shotDue s (.activation target.toNat) = true →
          Effect (exec (.activationInstant target) s) (fun t =>
            t = beginQuiesce target.toNat a.source a.instant a.remove (fireShot (.activation target.toNat) s).2))) ∧
      (a.state = .quiescing →
        (scopeQuiet s a = true → ticks s ≤ a.since + a.limit →
          (loadFits a s = true → Effect (exec (.quiesceComplete target) s) (fun t =>
            t = setActStatus (fun _ => {
              state := 4, target := target.toNat, instant := a.instant, quiesce := ticks s - a.since })
              (later .dispatch (dropAct target.toNat (loadImage a s))))) ∧
          (loadFits a s = false → Effect (exec (.quiesceComplete target) s) (fun t =>
            t = actRefuse target.toNat 9 a.instant (resumeOld target.toNat s)))) ∧
        ((scopeQuiet s a = false ∧ a.since + a.limit ≤ ticks s) ∨ a.since + a.limit < ticks s →
          Effect (exec (.quiesceTimeout target) s) (fun t =>
            t = logEvent 4 0 0x10 3
              (beBytes 1 target.toNat ++ beBytes 1 5 ++ beBytes 8 (ticks s - a.since))
              (setActStatus (fun _ => {
                state := 5, target := target.toNat, reason := 5, instant := a.instant
                quiesce := ticks s - a.since })
                (resumeOld target.toNat s))))))

/-- Host locks and context memory (R416, R427 to R429, R433, R437, R443, R445). -/
def Obligations.HostLocksAndContextMemory : Prop :=
  ∀ s : State,
    let isHost (q : Party) : Bool := match q with | .host _ _ => true | _ => false
    (∀ (fn : Fin 514) (prio : BitVec 4) (token : BitVec 16) (eqn : BitVec 20) (v : BitVec 8) (lock : BitVec 12),
      let l := lock.toNat
      let p : Party := .host fn token.toNat
      let w : LockWord := ⟨prio.toNat, token.toNat, eqn.toNat, v.toNat, l⟩
      -- 384 waiters of the 8192, and of the 8191 of a lock, are kept for contexts
      let noRoom : Prop := 8192 - 384 ≤ hostWaiters s ∨
        ((∃ x, (lockOf s l).holder = some x ∧ ∃ f k, x.party = .host f k) ∧
          8191 - 384 ≤ ((lockOf s l).waiters.filter fun v => isHost v.party).length)
      let acquire := exec (.lockAcquire fn prio token eqn v lock) s
      let tried := exec (.lockTry fn prio token eqn v lock) s
      let released := exec (.lockRelease fn prio token eqn v lock) s
      let cancelled := exec (.lockCancel fn prio token eqn v lock) s
      let answers (o : Host.Outcome State Fault Refusal) (code : Nat) (t1 : State) : Prop := Effect o (fun t =>
        t = lockEvent eqn.toNat 0x0202 token.toNat l code 0 t1)
      let granted (o : Host.Outcome State Fault Refusal) (s1 : State) : Prop := Effect o (fun t =>
        let s2 := takeLock l p prio.toNat eqn.toNat s1
        t = lockEvent eqn.toNat 0x0200 token.toNat l 2 (lockOf s2 l).waiters.length s2)
      let counted (o : Host.Outcome State Fault Refusal) : Prop := Effect o (fun t => t = bump 0x8631 0 s)
      barsLive s fn = true →
        (lockWordOk s fn w true = false → counted acquire ∧ counted tried) ∧
        (lockWordOk s fn w false = false → counted released ∧ counted cancelled) ∧
        (tenantOk s fn (lockTenant s l) = false →
          (lockWordOk s fn w true = true → answers acquire 11 s ∧ answers tried 11 s) ∧
          (lockWordOk s fn w false = true → answers released 11 s ∧ answers cancelled 11 s)) ∧
        (lockWordOk s fn w true = true → tenantOk s fn (lockTenant s l) = true →
          ((waitsFor s p).isSome = true → answers acquire 9 s) ∧
          (waitsFor s p = none →
            (partyHolds s l p = true → answers acquire 4 s) ∧
            (partyHolds s l p = false →
              ((lockOf s l).holder = none → granted acquire (bump 0x8630 0 s)) ∧
              ((lockOf s l).holder.isSome = true →
                (noRoom → answers acquire 8 s) ∧
                (¬ noRoom → Effect acquire (fun t =>
                  t = enqueueWaiter l p prio.toNat eqn.toNat (bump 0x8630 0 s)))))) ∧
          (partyHolds s l p = true → answers tried 4 s) ∧
          (partyHolds s l p = false →
            ((lockOf s l).holder = none → granted tried s) ∧
            ((lockOf s l).holder.isSome = true → answers tried 1 (bump 0x8633 0 s)))) ∧
        (lockWordOk s fn w false = true → tenantOk s fn (lockTenant s l) = true →
          (partyHolds s l p = true →
            Effect released (fun t => t = giveUp l p false s) ∧ answers cancelled 6 s) ∧
          (partyHolds s l p = false →
            answers released 3 s ∧
            ((lockOf s l).waiters.any (fun v => v.party == p) = true →
              answers cancelled 5 (removeWaiter l p s)) ∧
            ((lockOf s l).waiters.any (fun v => v.party == p) = false → answers cancelled 7 s)))) ∧
    (∀ k : Fin 2,
      let g := k.val * (stackBytes / 32) + (stack s k.val).scrub
      let s1 := bumpStack k.val 6 1 (setStack k.val (fun t => { t with
        scrub := (t.scrub + 1) % (stackBytes / 32)
        passAt := if t.scrub = 0 then ticks s else t.passAt
        passTicks := if t.scrub = 0 then rc s 0x8830 0 * 2 ^ 32 else t.passTicks }) s)
      (stackWorks s k.val = true →
        (scrubDue s (stack s k.val) = true →
          (isPoisoned s1 g = true → ∀ ecc, Effect (exec (.scrubRead k ecc) s) (fun t => t = s1)) ∧
          (isPoisoned s1 g = false →
            Effect (exec (.scrubRead k .clean) s) (fun t => t = s1) ∧
            Effect (exec (.scrubRead k .correctable) s) (fun t =>
              t = cmRecord 1 k.val (granLocal g) 1 (bump 0x8840 k.val s1)) ∧
            Effect (exec (.scrubRead k .uncorrectable) s) (fun t => t = poisonGranule g 1 s1))) ∧
        Effect (exec (.stackLost k) s) (fun t => t = later (.stackLost k.val) s)) ∧
      ((stack s k.val).state = .training → domOn s (dHB k.val) = true →
        Effect (exec (.stackTrainingComplete k true) s) (fun t =>
          let s1 := setStack k.val (fun t => { t with state := .working }) s
          t = if k = 0 ∨ stackWorks s 0 = false then mirrorPlaced s1 else s1) ∧
        Effect (exec (.stackTrainingComplete k false) s) (fun t =>
          t = setStack k.val (fun t => { t with state := .absent }) s)))

/-- Registers of the host (R52, R459 to R462, R464). -/
def Obligations.HostRegistersTakeEffect : Prop :=
  ∀ (s : State) (fn : Fin 514), barsLive s fn = true →
    (∀ len : BitVec 16,
      let s1 := openMailbox fn s
      let m := (hostFn s1 fn).mb
      let y := parseYusto (memRead m.req 0 len.toNat)
      let may : Prop := m.pending = false ∧ 16 ≤ len.toNat ∧ len.toNat ≤ 1116 ∧ rcOn s1 0x2104 0 = true ∧
        serves s1 (mailboxOf fn) = true
      (may → Effect (exec (.mailboxSubmit fn len) s) (fun t =>
        t = inSession m.session y.1 y.2.1 y.2.2 (setFn fn (fun f => { f with
          mb := { f.mb with pending := true } }) s1))) ∧
      (¬ may → Effect (exec (.mailboxSubmit fn len) s) (fun t =>
        t = setFn fn (fun f => { f with mb := { f.mb with discarded := (f.mb.discarded + 1) % 256 } }) s1))) ∧
    (admBusy s fn = true →
      Effect (exec (.aqEnable fn) s) (fun t => t = admDrop fn s) ∧
      Effect (exec (.aqDisable fn) s) (fun t => t = admDrop fn s) ∧
      Effect (exec (.aqResume fn) s) (fun t => t = admDrop fn s) ∧
      Effect (exec (.aqResumeSkip fn) s) (fun t => t = admDrop fn s) ∧
      Effect (exec (.aqResizeCq fn) s) (fun t => t = admDrop fn s)) ∧
    (admBusy s fn = false →
      let a := (hostFn s fn).adm
      let qn := adminQn s fn
      let asid := fld a.config 63 48
      let sqLog := fld a.config 20 16
      let cqLog := fld a.config 28 24
      let gen := fld a.config 47 40
      let vector := fld a.config 39 29
      let sq := queue s qn
      let cq := queue s (qn + 1)
      let shows (i : Instr) (code : Nat) : Prop := Effect (exec i s) (fun t => t = setAdm fn (fun a => { a with result := code }) s)
      let waits (i : Instr) (action : Nat) : Prop := Effect (exec i s) (fun t =>
        t = setAdm fn (fun a => { a with busy := some (0x1028, action) }) s)
      let sizes : Prop := 4 ≤ sqLog ∧ sqLog ≤ 16 ∧ 4 ≤ cqLog ∧ cqLog ≤ 16 ∧ vector < msixSize fn
      let ours : Prop := (space s asid).state = .live ∧ (space s asid).fn = fn
      let room : Prop := stacksWorking s ≠ 0 ∧ queuesExisting s + 2 ≤ min (queueLimit s) (capQueues s)
      ((queueRange s fn).2 = 0 → shows (.aqEnable fn) 3) ∧
      ((queueRange s fn).2 ≠ 0 → adminExists s fn = true → shows (.aqEnable fn) 2) ∧
      ((queueRange s fn).2 ≠ 0 → adminExists s fn = false →
        (¬ sizes → shows (.aqEnable fn) 1) ∧
        (sizes → ¬ ours → shows (.aqEnable fn) 3) ∧
        (sizes → ours → ¬ room → shows (.aqEnable fn) 4)) ∧
      ((queueRange s fn).2 ≠ 0 → adminExists s fn = false → sizes → ours → room →
        Effect (exec (.aqEnable fn) s) (fun t =>
          let k := placeStack s
          let k2 := placeStack k.2
          t = setAdm fn (fun a => { a with result := 0, disabling := false, haltReason := 0, haltIndex := 0 })
            (setQueue (qn + 1) (fun _ => {
              state := .ready, type := qCQ, fn := fn, base := a.cqBase, log2 := cqLog, gen := gen, weight := 1
              vector := vector, tenant := (space s asid).tenant, asid := asid, noEq := true
              modCount := fld a.mod_ 63 48, modTime := fld a.mod_ 31 0, admin := true, stack := k2.1 })
              (setQueue qn (fun _ => {
                state := .ready, type := qSEND, fn := fn, base := a.sqBase, log2 := sqLog, gen := gen, weight := 1
                gust := 16, tenant := (space s asid).tenant, asid := asid, cqn := qn + 1, noEq := true
                admin := true, stack := k.1 }) k2.2)))) ∧
      (adminExists s fn = false → shows (.aqDisable fn) 2) ∧
      (adminExists s fn = true → Effect (exec (.aqDisable fn) s) (fun t =>
        let end_ (k : Nat) (s : State) : State :=
          if qExists (queue s k) = true ∧ dying (queue s k) = false then destroyForce k none s else s
        t = setAdm fn (fun a => { a with result := 0, disabling := true }) (end_ (qn + 1) (end_ qn s)))) ∧
      (sq.state ≠ .halted ∨ sq.destroying ≠ none → shows (.aqResume fn) 2 ∧ shows (.aqResumeSkip fn) 2) ∧
      (sq.state = .halted → sq.destroying = none →
        Effect (exec (.aqResume fn) s) (fun t =>
          t = setAdm fn (fun a => { a with result := 0 }) (resume qn false s)) ∧
        (haltOfEntry sq = false ∨ cqFree s sq ≠ 0 → Effect (exec (.aqResumeSkip fn) s) (fun t =>
          t = setAdm fn (fun a => { a with result := 0 }) (resume qn true s))) ∧
        (haltOfEntry sq = true → cqFree s sq = 0 → waits (.aqResumeSkip fn) 4)) ∧
      (qExists cq = false → shows (.aqResizeCq fn) 2) ∧
      (qExists cq = true →
        (cq.writing = true → waits (.aqResizeCq fn) 5) ∧
        (cq.writing = false →
          (cqLog < 4 ∨ 16 < cqLog → shows (.aqResizeCq fn) 1) ∧
          (4 ≤ cqLog → cqLog ≤ 16 →
            (2 ^ cqLog < cq.reserved → shows (.aqResizeCq fn) 5) ∧
            (cq.reserved ≤ 2 ^ cqLog → Effect (exec (.aqResizeCq fn) s) (fun t =>
              t = pump (qn + 1) (setQueue (qn + 1) (fun q => { q with
                base := a.cqBase, log2 := cqLog, written := 0, head := 0 })
                (setAdm fn (fun a => { a with result := 0, oldWritten := cq.written }) s)))))))) ∧
    (∀ off v : Nat,
      ((hostFn s fn).adm.busy = some (off, v) → Effect (exec (.groupWriteTakesEffect fn false) s) (fun t =>
        t = admWrite fn off v (setAdm fn (fun a => { a with busy := none }) s))) ∧
      ((hostFn s fn).tr.busy = some (off, v) → Effect (exec (.groupWriteTakesEffect fn true) s) (fun t =>
        t = trWrite fn off v (setTr fn (fun a => { a with busy := none }) s))))

/-- Links, functions, sideband (R450, R451, R454, R482 to R484, R511). -/
def Obligations.LinksFunctionsAndSideband : Prop :=
  ∀ s : State,
    (∀ k : Fin 2,
      let l := hostLink s k.val
      (∀ (width rate : BitVec 8) (flit : Bool), l.perstN = true → l.training = true → l.up = false →
        domOn s (dHL k.val) = true → linkTrains width.toNat rate.toNat flit = true →
        Effect (exec (.hostLinkUp k width rate flit) s) (fun t =>
          t = openMailboxes (setLink k.val (fun l => { l with
            up := true, training := false, width := width.toNat, rate := rate.toNat, flit := flit }) s))) ∧
      (l.up = true → Effect (exec (.hostLinkDown k) s) (fun t =>
        t = setLink k.val (fun l => { l with
          training := l.perstN && l.refclk && domOn s (dHL k.val) }) (linkLost k.val s))) ∧
      Effect (exec (.perstAssert k) s) (fun t =>
        t = setLink k.val (fun l => { l with perstN := false, training := false }) (linkLost k.val s)) ∧
      (∀ refclk : Bool, Effect (exec (.perstDeassert k refclk) s) (fun t =>
        t = setLink k.val (fun l => { l with
          perstN := true, refclk := refclk, training := refclk && domOn s (dHL k.val) }) s))) ∧
    (∀ fn : Fin 514,
      (fnEnabled s fn = true → (hostFn s fn).flr = false → Effect (exec (.functionLevelReset fn) s) (fun t =>
        t = fnReset fn true (bump 0xA031 (fnLink fn) s))) ∧
      ((hostFn s fn).flr = true → fnQuiet s fn = true → Effect (exec (.flrComplete fn) s) (fun t =>
        t = openMailboxes (setFn fn (fun f => { f with flr := false }) s)))) ∧
    (∀ (a : BitVec 12) (d : BitVec 16), sbServes s = true →
      let answer (status data : Nat) (s1 : State) : State :=
        let s2 := bump 0x2200 0 (emit (.sideband s1.sb.response) s1)
        let s3 := if status = 0xA then s2 else bump 0x2202 0 s2
        { s3 with sb := { s3.sb with response := status * 2 ^ 28 + a.toNat * 2 ^ 16 + data } }
      (∀ v, sbRegister s a.toNat = some v →
        Effect (exec (.sbRead a 0) s) (fun t => t = answer 0xA v s) ∧
        (a ≠ 0x030 → Effect (exec (.sbWrite a d) s) (fun t => t = answer 3 0 s))) ∧
      (d ≠ 0 → Effect (exec (.sbRead a d) s) (fun t => t = answer 5 0 s)) ∧
      (sbRegister s a.toNat = none →
        Effect (exec (.sbRead a 0) s) (fun t => t = answer 6 0 s) ∧
        Effect (exec (.sbWrite a d) s) (fun t => t = answer 6 0 s)) ∧
      (a = 0x030 → Effect (exec (.sbWrite a d) s) (fun t =>
        t = answer 0xA d.toNat { s with sb := { s.sb with scratch := d.toNat } })) ∧
      (a = 0 → Effect (exec (.sbNop 0 a 0) s) (fun t => t = answer 0xA 0 s)) ∧
      (a ≠ 0 ∨ d ≠ 0 → Effect (exec (.sbNop 0 a d) s) (fun t => t = answer 5 0 s)) ∧
      (exec (.sbNop 1 a d) s = exec (.sbRead a d) s ∧ exec (.sbNop 2 a d) s = exec (.sbWrite a d) s) ∧
      (∀ op : BitVec 4, op ≠ 0 → op ≠ 1 → op ≠ 2 → Effect (exec (.sbNop op a d) s) (fun t => t = answer 5 0 s)) ∧
      Effect (exec .sbFrameAbort s) (fun t => t = bump 0x2201 0 s))

/-- Input, domains, departure (R264, R487, R488, R490, R493, R496 to R498). -/
def Obligations.InputDomainsAndDeparture : Prop :=
  ∀ s : State,
    (∀ vin : BitVec 32,
      let good := { s with pr := { s.pr with inputGood := true } }
      (39000 ≤ vin.toNat → domOn s 0 = false ∨ s.pr.shed = false → Effect (exec (.inputGood vin) s) (fun t =>
        t = good)) ∧
      (39000 ≤ vin.toNat → domOn s 0 = true → s.pr.shed = true → Effect (exec (.inputGood vin) s) (fun t =>
        t = takeReset 2 1 true { good with pr := { good.pr with shed := false } })) ∧
      (domOn s 0 = true →
        (vin.toNat < 38000 → s.pr.shed = false → Effect (exec (.inputLoss vin) s) (fun t => t = shed 1 vin.toNat s)) ∧
        (63000 < vin.toNat → Effect (exec (.inputOvervoltage vin) s) (fun t =>
          t = raiseFault 1 0 vin.toNat (if s.pr.shed then s else shed 2 vin.toNat s))))) ∧
    (∀ d : Fin 30, domOn s 0 = true →
      (nextStart s = some d.val → startSpaced s = true → Effect (exec (.domainStart d) s) (fun t =>
        t = setDomain d.val .ramping { s with pr := { s.pr with
          lateStart := s.pr.lateStart.filter fun x => x != d.val
          startAt := some (ticks s)
          rampAt := mput s.pr.rampAt d.val (ticks s) } })) ∧
      (d ≠ 0 → domState s d.val = .ramping →
        (parentOn s d.val = true → mayStart s d.val = true →
          s.pr.kept.contains d.val = false ∨
            startOrder.find? (fun x => s.pr.kept.contains x && parentOn s x && mayStart s x) = some d.val →
          Effect (exec (.domainPowerGood d) s) (fun t => t = milestoneSix (domainUp d.val (setDomain d.val .on { s with
            pr := { s.pr with kept := s.pr.kept.filter fun x => x != d.val } })))) ∧
        (s.pr.kept.contains d.val = false → sget 0 s.pr.rampAt d.val + ticksOf 5 1000 ≤ ticks s →
          Effect (exec (.domainRampTimeout d) s) (fun t =>
          t = unitRaise 2 d.val 0 (leaveOn d.val true s)))) ∧
      (d ≠ 0 → s.rs.phase = .running → domState s d.val = .isolated →
        Effect (exec (.domainRestart (BitVec.ofNat 8 d.val)) s) (fun t =>
          t = startLast d.val (setDomain d.val .off s)))) ∧
    (fullService s = true → s.pr.departure = .joined → Effect (exec .departRequest s) (fun t =>
      t = later .departStart { s with pr := { s.pr with
        departure := .draining, drainAt := ticks s + rc s 0x3101 0 } })) ∧
    (domOn s 0 = true →
      (s.pr.departure = .draining → fabricQuiet s = true → Effect (exec .departQuiesceComplete s) (fun t =>
        let limit := (now s + (s.pr.drainAt - ticks s)) % 2 ^ 64
        t = foldSt (fun p s => if (portRoute s p).state = .up then sendLinkCtl p 1 limit s else s) (rangeFrom 0 72)
          { s with pr := { s.pr with departure := .departing } })) ∧
      (s.pr.departure = .departing → (rangeFrom 0 72).all (portDrained s) = true →
        Effect (exec .departDrainComplete s) (fun t =>
          t = sectorsOff 1 (foldSt (fun p s => linkCtlNow p 2 0 s) (linkedPorts s) s))) ∧
      (s.pr.departure = .draining ∨ s.pr.departure = .departing → s.pr.drainAt ≤ ticks s →
        Effect (exec .drainLimitExpiry s) (fun t =>
          t = sectorsOff 2 (discardHeld (foldSt (fun p s => linkCtlNow p 2 1 s) (linkedPorts s) s))))) ∧
    (∀ (port : Fin 72) (p : Packet), domOn s dCX = true →
      let s1 := takeIngress port.val p true s
      (Instr.wf (.linkCtlDepartArrive port p) = true → Effect (exec (.linkCtlDepartArrive port p) s) (fun t =>
        t = portDepart port.val s1)) ∧
      (Instr.wf (.departDoneArrive port p) = true → Effect (exec (.departDoneArrive port p) s) (fun t =>
        t = portDepartDone port.val s1)))

/-- Resets (R488, R504 to R506, R512, R516, R521, R554). -/
def Obligations.ResetsAreTaken : Prop :=
  ∀ s : State,
    let lower (code : Nat) : Prop := code < s.rs.cause % 256
    let warm (i : Instr) (code detail : Nat) : Prop :=
      (s.rs.phase ≠ .off → s.rs.phase ≠ .resetCold → s.rs.phase ≠ .resetWarm → Effect (exec i s) (fun t =>
        t = recordCause code detail (now s) (assertWarm (bump 0x3402 code s)))) ∧
      (s.rs.phase = .resetCold → Effect (exec i s) (fun t => t = bump 0x3402 code s)) ∧
      (s.rs.phase = .resetWarm →
        (lower code → Effect (exec i s) (fun t => t = recordCause code detail s.rs.instant (bump 0x3402 code s))) ∧
        (¬ lower code → Effect (exec i s) (fun t => t = bump 0x3402 code s)))
    let cold (i : Instr) (code detail : Nat) : Prop :=
      (s.rs.phase ≠ .off → s.rs.phase ≠ .resetCold → Effect (exec i s) (fun t =>
        t = recordCause code detail 0 (assertCold (bump 0x3402 code s)))) ∧
      (s.rs.phase = .resetCold →
        (lower code → Effect (exec i s) (fun t => t = recordCause code detail 0 (bump 0x3402 code s))) ∧
        (¬ lower code → Effect (exec i s) (fun t => t = bump 0x3402 code s)))
    (s.pr.inputGood = true →
      (s.rs.phase = .off → Effect (exec .powerOnReset s) (fun t =>
        t = recordCause 1 0 0 (assertCold (bump 0x3402 1 s)))) ∧
      (s.rs.phase = .resetCold → s.rs.cause % 256 = 2 → Effect (exec .powerOnReset s) (fun t =>
        t = recordCause 1 0 0 (bump 0x3402 1 s)))) ∧
    cold .brownOutReset 2 0 ∧ cold .pinReset 3 0 ∧ cold .resetCold 6 2 ∧
    warm .resetWarm 6 1 ∧ (∀ pll : Fin 16, warm (.clockFailure pll) 7 pll.val) ∧
    (processorRuns s = true → warm .watchdogExpiry 4 1 ∧ warm (.lockup false) 8 1 ∧ warm (.lockup true) 8 2) ∧
    (resetServed s = true → warm .resetRequestWarm 5 1 ∧ cold .resetRequestCold 5 2) ∧
    (s.rs.timerRunning = true → s.rs.startLimit ≤ ticks s → warm .startTimeout 4 2) ∧
    (s.fc.holdRunning = true → s.fc.holdAt ≤ ticks s → warm .resetHoldExpiry 5 3)

/-- Starts (R507, R508, R512 to R515, R517). -/
def Obligations.StartsGoThroughTheirMilestones : Prop :=
  ∀ s : State,
    let launched (k : Nat) (s : State) : State := { s with rs := { s.rs with
      phase := .verified, source := k, failedStarts := s.rs.failedStarts + 1, milestone := 2
      timerRunning := true, jumpAt := ticks s, startLimit := ticks s + ticksOf (persisted s 0x3420) 1000 } }
    let try_ (a b bits : Nat) (s : State) : State :=
      if slotGood s a = true then launched a s
      else if slotGood s b = true then launchImage b (fallback bits b s)
      else enterDoldrums (fallback (Nat.lor bits 4) 4 s)
    let selected (s : State) : State :=
      if s.sb.bootSel = 0 then try_ 0 1 1 s
      else if s.sb.bootSel = 1 then try_ 1 0 1 s
      else { romLoad s with rs := { (romLoad s).rs with
        phase := .waiting, source := s.sb.bootSel
        waitUntil := ticks (romLoad s) + persisted (romLoad s) 0x3414 * 2 ^ 32 } }
    (∀ (sel : BitVec 2) (clk : Bool) (slot : BitVec 6),
      (s.rs.phase = .resetCold → Effect (exec (.resetRelease sel clk slot) s) (fun t =>
        t = bootRom (setDomain 0 .on { s with sb := { s.sb with
          bootSel := sel.toNat, clkMode := if clk then 1 else 0, slotId := slot.toNat } }))) ∧
      (s.rs.phase = .resetWarm → s.rs.assertedAt + ticksOf 60 1000000 ≤ ticks s →
        Effect (exec (.resetRelease sel clk slot) s) (fun t => t = bootRom (endSafe s)))) ∧
    (let once : Option Nat := match s.rs.updateBoot with | some t => some t | none => s.ms.bootOnce;
      let s1 := { s with rs := { s.rs with updateBoot := none, fallbacks := 0 }, ms := { s.ms with bootOnce := none } };
      let s2 := { s1 with rs := { s1.rs with milestone := 1 } };
      (startsSpent s1 = true → bootRom s = enterDoldrums s1) ∧
      (startsSpent s1 = false →
        (∀ k, once = some k → slotGood s2 k = true →
          bootRom s = launched k { s2 with rs := { s2.rs with fallbacks := 8 } }) ∧
        (once = none ∨ (∃ k, once = some k ∧ slotGood s2 k = false) → bootRom s = selected s2))) ∧
    (∀ k : Nat, (startsSpent s = true → launchImage k s = enterDoldrums s) ∧
      (startsSpent s = false → launchImage k s = launched k s)) ∧
    (s.rs.phase = .waiting → s.rs.waitUntil ≤ ticks s → Effect (exec .bundleWaitExpiry s) (fun t =>
      let s1 := setUpdate (fun u => { u with state := .idle, cells := [] }) (updateDrop s)
      t = if slotGood s1 0 = true then launchImage 0 (fallback 2 0 s1)
        else if slotGood s1 1 = true then launchImage 1 (fallback 2 1 s1)
        else enterDoldrums (fallback 6 4 s1))) ∧
    (s.rs.phase = .verified → Effect (exec .managementFirmwareStart s) (fun t => t = managementStart s)) ∧
    (s.rs.phase = .running → s.rs.milestone = 6 → Effect (exec .operationalMilestone s) (fun t =>
      let ms := (ticks s - s.rs.jumpAt) * 1000 / 2 ^ 32
      t = logEvent 2 0 2 2 (beBytes 4 ms ++ beBytes 1 s.rs.source) { s with rs := { s.rs with
        milestone := 8, failedStarts := 0, timerRunning := false, duration := ms } })) ∧
    (s.rs.phase = .doldrums → Effect (exec .doldrumsExit s) (fun t =>
      t = later (.reset 5 1 false) (logEvent 2 0 3 2 (beBytes 1 2) { s with rs := { s.rs with failedStarts := 0 } })))

/-- Management and updates (R513, R517, R524, R525, R528, R532 to R535, R540). -/
def Obligations.SensorsLogAndUpdates : Prop :=
  ∀ s : State,
    (fullService s = true →
      (∀ x : Scan, scanDue s = true → Effect (exec (.sensorScan x) s) (fun t =>
        t = scanOptics x (scanSensors x { s with ms := { s.ms with scanAt := some (ticks s) } }))) ∧
      (let k := now s / rc s 0x2010 0;
        s.ms.nextSample ≤ k → Effect (exec .telemetrySample s) (fun t =>
          t = telemetry (k * rc s 0x2010 0) false { s with ms := { s.ms with nextSample := k + 1 } }))) ∧
    (domOn s 0 = true →
      ∀ b : LogBurst, (s.ms.bursts.find? fun b => b.second < now s / 2 ^ 32 && b.omitted != 0) = some b →
        Effect (exec .logCoalesceFlush s) (fun t =>
          t = logWrite {
            stamp := now s, seq := 0, severity := b.severity, tfree := timeFree s, cls := b.cls
            source := b.source, code := 0xFFFF, data := beBytes 2 b.code ++ beBytes 4 b.omitted }
            { s with ms := { s.ms with
              bursts := s.ms.bursts.filter fun x => !(x.cls == b.cls && x.source == b.source && x.code == b.code) } })) ∧
    (s.rs.phase = .running ∨ s.rs.phase = .doldrums ∨ s.rs.phase = .waiting →
      let u := s.ms.update
      let shown (target outcome reason : Nat) (s : State) : State :=
        setUpdate (fun u => { u with
          target := if u.state = .idle then target else u.target, outcome := outcome, reason := reason }) s
      let shows (i : Instr) (target outcome reason : Nat) : Prop := Effect (exec i s) (fun t =>
        t = shown target outcome reason s)
      let barred (target : Nat) : Prop := inUse s target = true ∧ intoRam s target = false
      (∀ (session : BitVec 30) (target : BitVec 8) (length : BitVec 32),
        let begin_ : Instr := .updateBegin session target length
        let fits : Prop := length.toNat % 4 = 0 ∧ length ≠ 0 ∧ length.toNat ≤ areaSize target.toNat
        (u.state ≠ .idle → shows begin_ u.target 2 1 ∧ shows (.updateErase target) u.target 2 1) ∧
        (u.state = .idle →
          (isTarget target.toNat = false →
            shows begin_ target.toNat 2 11 ∧ shows (.updateErase target) target.toNat 2 11) ∧
          (isTarget target.toNat = true →
            (barred target.toNat → shows begin_ target.toNat 2 2) ∧
            (¬ barred target.toNat → ¬ fits → shows begin_ target.toNat 2 3) ∧
            (¬ barred target.toNat → fits → Effect (exec begin_ s) (fun t => t = setUpdate (fun _ => {
              state := .receiving, target := target.toNat, owner := session.toNat, length := length.toNat })
              (setArea (if intoRam s target.toNat = true then 128 else target.toNat) (fun _ => {}) s))) ∧
            (inUse s target.toNat = true → shows (.updateErase target) target.toNat 2 2) ∧
            (inUse s target.toNat = false → Effect (exec (.updateErase target) s) (fun t =>
              t = shown target.toNat 0 0 (setArea target.toNat (fun _ => {}) s)))))) ∧
      (∀ session : BitVec 30,
        (u.state = .receiving → u.owner = session.toNat →
          Effect (exec (.updateFinish session) s) (fun t => t = setUpdate (fun u => { u with
            state := .verifying
            verdict := if u.cells.length < u.length then 4
              else verifyImage s (decide (16 ≤ u.target)) (updateImage u) }) s) ∧
          Effect (exec (.updateAbort session) s) (fun t => t = logUpdate 4 u.target 9 u.received
            (setUpdate (fun u => { u with state := .idle, outcome := 4, reason := 9, cells := [] }) s))) ∧
        (u.state ≠ .receiving ∨ u.owner ≠ session.toNat →
          Effect (exec (.updateFinish session) s) (fun t => t = s) ∧
          Effect (exec (.updateAbort session) s) (fun t => t = s))) ∧
      (u.state = .verifying →
        let done_ (outcome : Nat) (s : State) : State := logUpdate outcome u.target u.verdict u.received
          (setUpdate (fun u => { u with state := .idle, outcome := outcome, reason := u.verdict, cells := [] }) s)
        (u.verdict ≠ 0 → Effect (exec .updateVerifyComplete s) (fun t => t = bundleBoot (done_ 3 s))) ∧
        (u.verdict = 0 →
          Effect (exec .updateVerifyComplete s) (fun t => t = bundleBoot (doldrumsUpdate u.target
            (done_ 1 (setArea (if intoRam s u.target = true then 128 else u.target)
              (fun _ => { valid := true, bytes := updateImage u }) s)))))) ∧
      (∀ source target : BitVec 8,
        let copy : Instr := .updateCopy source target
        let slots : Prop := source.toNat < 2 ∧ target.toNat < 2
        let a := area s source.toNat
        (u.state ≠ .idle → shows copy u.target 2 1) ∧
        (u.state = .idle →
          (¬ slots → shows copy target.toNat 2 11) ∧
          (slots → inUse s target.toNat = true → shows copy target.toNat 2 2) ∧
          (slots → inUse s target.toNat = false →
            (a.valid = false ∨ verifyImage s false a.bytes ≠ 0 → shows copy target.toNat 2 10) ∧
            (a.valid = true → verifyImage s false a.bytes = 0 → Effect (exec copy s) (fun t =>
              t = doldrumsUpdate target.toNat (logUpdate 1 target.toNat 0 a.bytes.length
                (setUpdate (fun u => { u with
                  target := target.toNat, outcome := 1, reason := 0, received := a.bytes.length })
                  (setArea target.toNat (fun _ => a) s)))))))) ∧
      (∀ target : BitVec 8,
        (target.toNat < 2 → (area s target.toNat).valid = true → Effect (exec (.bootOnce target) s) (fun t =>
          t = shown target.toNat 0 0 { s with ms := { s.ms with bootOnce := some target.toNat } })) ∧
        (2 ≤ target.toNat ∨ (area s target.toNat).valid = false → shows (.bootOnce target) target.toNat 2 10)))

/-- Faults (R490, R544, R546, R547, R555 to R557). -/
def Obligations.FaultsAndBreeze : Prop :=
  ∀ s : State,
    (fullService s = true →
      (∀ src : BitVec 8,
        Effect (exec (.clearSource src) s) (fun t => t = evalFaultN (foldSt (fun e s =>
          if e.1 / 65536 = src.toNat then takeRaise src.toNat (e.1 % 65536) e.2 s else s) s.fc.active { s with
            fc := { s.fc with sticky := sset false s.fc.sticky src.toNat false } })) ∧
        Effect (exec (.faultInjection src) s) (fun t => t = takeRaise src.toNat 0 0 s)) ∧
      Effect (exec .clearAll s) (fun t => t = evalFaultN
        (foldSt (fun e s => takeRaise (e.1 / 65536) (e.1 % 65536) e.2 s) s.fc.active { s with
          fc := { s.fc with sticky := [] } })) ∧
      Effect (exec .unfreeze s) (fun t => t = { s with fc := { s.fc with frozen := false } }) ∧
      Effect (exec .empty s) (fun t => t = { s with fc := { s.fc with history := [], frozen := false } })) ∧
    (domOn s 0 = true →
      (∀ (src : BitVec 8) (inst : BitVec 16) (data : BitVec 32),
        let raise : Instr := .faultRaise src inst data
        let n := src.toNat
        let active (s : State) : State := { s with fc := { s.fc with
          active := mput s.fc.active (n * 65536 + inst.toNat) data.toNat } }
        (isCondition n = false →
          (n ≠ 2 → n ≠ 21 → Effect (exec raise s) (fun t => t = takeRaise n inst.toNat data.toNat s)) ∧
          (n = 2 → inst ≠ 0 → inst.toNat < 30 → Effect (exec raise s) (fun t =>
            t = takeRaise 2 inst.toNat data.toNat (leaveOn inst.toNat true s))) ∧
          (n = 2 → inst = 0 ∨ 30 ≤ inst.toNat → Effect (exec raise s) (fun t =>
            t = takeRaise 2 inst.toNat data.toNat s)) ∧
          (n = 21 → inst.toNat < 2 → Effect (exec raise s) (fun t =>
            t = takeRaise 21 inst.toNat data.toNat (bump 0xA033 inst.toNat s))) ∧
          (n = 21 → 2 ≤ inst.toNat → Effect (exec raise s) (fun t =>
            t = takeRaise 21 inst.toNat data.toNat s))) ∧
        (isCondition n = true → Effect (exec raise s) (fun t =>
          t = takeRaise n inst.toNat data.toNat (active s)))) ∧
      (∀ written : Bool,
        let s1 := if written = true ∧ (s.rs.phase = .running ∨ s.rs.phase = .doldrums) then
          { s with fc := { s.fc with keepalive := true, keepaliveAt := ticks s } } else s
        let alive : Prop := s1.fc.keepalive = true ∧ ticks s ≤ s1.fc.keepaliveAt + ticksOf 2 1000
        let early : Prop := ∃ b, s.fc.boundaryAt = some b ∧ ticks s < b + ticksOf 475 1000000
        (early → Effect (exec (.breezeToggle written) s) (fun t => t = s1)) ∧
        (¬ early →
          (alive → s.fc.safe = false → Effect (exec (.breezeToggle written) s) (fun t =>
            t = { s1 with fc := { s1.fc with boundaryAt := some (ticks s), breeze := !s.fc.breeze } })) ∧
          (¬ alive ∨ s.fc.safe = true → Effect (exec (.breezeToggle written) s) (fun t =>
            t = { s1 with fc := { s1.fc with boundaryAt := some (ticks s) } })))) ∧
      (s.fc.keepaliveAt + ticksOf 2 1000 < ticks s → Effect (exec .breezeKeepaliveExpiry s) (fun t =>
        t = { s with fc := { s.fc with keepalive := false } })))

/-- One step (95_what_each_step_holds.md); the empty queue is the model's choice (assumption 35). -/
def Obligations.StepRunsTheCommandAtTheFront : Prop :=
  (∀ (c : Instr) (s : State), step { s with pending := c :: s.pending } = exec c s) ∧
    (∀ (c : Instr) (r : List Instr) (s : State), s.pending = c :: r → step s = exec c { s with pending := r }) ∧
    ∀ s : State, s.pending = [] →
      (domOn s 0 = true → step s = .next (tick s)) ∧ (domOn s 0 = false → step s = .next s)

/-- Reset; engine registers and memory bytes 0 are the model's choice (assumptions 5 and 36). -/
def Obligations.ResetLeavesTheModuleUnpowered : Prop :=
  let s := State.reset
  (∀ d, domOn s d = false) ∧ s.rs.phase = .off ∧ s.tb.mt = 0 ∧ s.tb.state = .free ∧ s.tb.armed = [] ∧
    (∀ idx sub, liveBytes s idx sub = defaultBytes idx sub ∧ rc s idx sub = objDefault idx sub) ∧
    (∀ n, (commitSet s n).state = .closed) ∧ s.od.sessions = [] ∧
    (∀ q, qExists (queue s q) = false) ∧ (∀ p, (portRoute s p).state = .disabled) ∧
    (∀ e c r, reg s e c r = 0 ∧ pcOf s e c = 0) ∧
    (∀ e a, memGet (engine s e).ldm a = 0 ∧ memGet (engine s e).imem a = 0) ∧ (∀ a, memGet s.cm.bytes a = 0) ∧
    (∀ k a, memGet (cmem s k) a = 0) ∧ (∀ idx sub, count s idx sub = 0) ∧ s.pending = [] ∧ s.work = []

/-- The canonical form at reset. -/
def Obligations.ResetIsInCanonicalForm : Prop :=
  State.reset.canon = true ∧ State.reset.memWf = true ∧ Memory.wf State.reset.cm.bytes = true

/-- R35. -/
def Obligations.PastInstantsFireAtOnce : Prop :=
  ∀ (owner : ShotOwner) (s : State),
    armShot owner 0 s = .atOnce false ∧
    ∀ instant : Nat, instant ≠ 0 → instant < now s → timeFree s = false → armShot owner instant s = .atOnce true

/-- R49. -/
def Obligations.FabricRequestsOfOtherTenantsAreDiscarded : Prop :=
  ∀ (s : State) (source : BitVec 32) (tenant : BitVec 16) (session seq : BitVec 32),
    tenant ≠ 0 → s.rs.phase = .running → rcOn s 0x2103 0 = true →
    let h : YHdr := { carrier := .fabric source tenant, session := session, seq := seq }
    let gone (i : Instr) (b : YBody) : Prop := Effect (exec i s) (fun t =>
      t = bump 0x2111 0 { s with rt := { s.rt with
        delivered := eraseFirst (fun p => p.type == tMGMT && p.source == source.toNat &&
          p.tenant == tenant.toNat && parseYusto p.payload == (session.toNat, seq.toNat, b)) s.rt.delivered } })
    (∀ idx sub shadow, gone (.yustoRead h idx sub shadow) (.read idx sub shadow)) ∧
    (∀ idx sub set value, value.length ≤ 1096 → gone (.yustoWrite h idx sub set value) (.write idx sub set value)) ∧
    (∀ idx, gone (.yustoShape h idx) (.shape idx)) ∧
    (∀ idx sub off len, gone (.segRead h idx sub off len) (.segRead idx sub off len)) ∧
    (∀ idx sub set total off data, data.length ≤ 1088 →
      gone (.segWrite h idx sub set total off data) (.segWrite idx sub set total off data)) ∧
    (∀ set mt, gone (.commit h set mt) (.commit set mt)) ∧
    (∀ set, gone (.commitCancel h set) (.cancel set)) ∧
    (∀ set, gone (.commitDiscard h set) (.discard set)) ∧
    (∀ set first, gone (.report h set first) (.report set first)) ∧
    (∀ mask lo hi, gone (.subscribe h mask lo hi) (.subscribe mask lo hi)) ∧
    (∀ lo hi, gone (.subscribeCancel h lo hi) (.subscribe 0 lo hi))

/-- R149. -/
def Obligations.TenantZeroIsRefused : Prop :=
  ∀ (s : State) (p : Packet), domOn s dCX = true → packetWf p = true → p.tenant = 0 →
    let refused (t : State) : Prop := t = (sendRefusal p rTENANT 0 (bump 0x7867 0 (takeDelivered p s))).2
    (p.type = tPUT → Effect (exec (.putArrive p) s) refused) ∧
    (p.type = tPUTIMM → Effect (exec (.putImmArrive p) s) refused) ∧
    (p.type = tGET → Effect (exec (.getArrive p) s) refused) ∧
    (p.type = tFADD64 → Effect (exec (.fadd64Arrive p) s) refused) ∧
    (p.type = tSWAP64 → Effect (exec (.swap64Arrive p) s) refused) ∧
    (p.type = tCAS64 → Effect (exec (.cas64Arrive p) s) refused) ∧
    (p.type = tCAS128 → Effect (exec (.cas128Arrive p) s) refused) ∧
    (p.type = tFLUSH → Effect (exec (.flushArrive p) s) refused) ∧
    (p.type = tCSEND → Effect (exec (.csendArrive p) s) refused) ∧
    (p.type = tCPUT → Effect (exec (.cputArrive p) s) refused) ∧
    (p.type = tCGET → Effect (exec (.cgetArrive p) s) refused) ∧
    (p.type = tTSEND → Effect (exec (.tsendArrive p) s) refused) ∧
    (p.type = tRTS → Effect (exec (.rtsArrive p) s) refused) ∧
    (p.type = tSKIP → Effect (exec (.skipArrive p) s) refused)

/-- R412. -/
def Obligations.ReservationsAreForSharedMemory : Prop :=
  ∀ (s : State) (w : Issue) (rd ra rb : Fin 32) (imm : BitVec 16), Issues s w = true → w.data = .clean →
    let e := w.engine.val
    let c := w.ctx.val
    let o := ctxObserver e c
    let hold (cl : Option Nat) (off : Nat) (b : List Byte × State) : State :=
      setCtx e c (fun x => { x with resv := some { cluster := cl, index := off / 128 } })
        (nextPc e c (setStamp e c rd b.2.me.fences (setReg e c rd (BitVec.ofNat 64 (leNat b.1)) b.2)))
    (let s1 := issued s w (wordI 0x1D rd ra imm) 3;
      let a := (reg s1 e c ra + imm.signExtend 64).toNat;
      a % 8 = 0 →
        (∀ k off, placeOf a 8 = .cmem k off → mayReach s1 e c 8 (.cmem k off) = true → clusterOn s1 k = true →
          let s2 := seeRange o (some k) off 8 (sampleAccess e c (.cmem k off) a s1);
          Effect (exec (.lrsv w rd ra imm) s) (fun t =>
            t = hold (some k) off (observe o (some k) off 8 s1.me.fences s2))) ∧
        (∀ off, placeOf a 8 = .context off → mayReach s1 e c 8 (.context off) = true →
          let r := cmRead off 8 [.clean] (seeRange o none off 8 (sampleAccess e c (.context off) a s1));
          r.2.1 = false → Effect (exec (.lrsv w rd ra imm) s) (fun t =>
            t = hold none off (observe o none off 8 s1.me.fences r.2.2))) ∧
        ((∀ k off, placeOf a 8 ≠ .cmem k off) → (∀ off, placeOf a 8 ≠ .context off) →
          Effect (exec (.lrsv w rd ra imm) s) (fun t => t = trapHere e c cACCESS a s1))) ∧
    (let s1 := issued s w (wordR 0x1E rd ra rb 0) 3;
      let a := (reg s1 e c ra).toNat;
      a % 8 = 0 → (∀ k off, placeOf a 8 ≠ .cmem k off) → (∀ off, placeOf a 8 ≠ .context off) →
        Effect (exec (.scnd w rd ra rb) s) (fun t => t = trapHere e c cACCESS a s1))

/-- R26, R27. -/
def Obligations.TimeSourceIsTheBestUsablePeer : Prop :=
  ∀ s : State,
    (∀ p, bestPeer s (fun _ => true) = some p →
      p < 72 ∧ usablePeer s p = true ∧ (peerTime s p).srcNode ≠ ownNode s ∧ firstOfBond s p = true ∧
      ∀ q, q < 72 → usablePeer s q = true → q ≠ p →
        (peerTime s p).depth < (peerTime s q).depth ∨
        ((peerTime s p).depth = (peerTime s q).depth ∧
          ((peerTime s p).delay < (peerTime s q).delay ∨
           ((peerTime s p).delay = (peerTime s q).delay ∧ p < q)))) ∧
    (bestPeer s (fun _ => true) = none → ∀ q, q < 72 → usablePeer s q = false)

/-- R194. -/
def Obligations.IntegerSumsAreExact : Prop :=
  ∀ r : Red, r.op = 0 → r.ty ≤ 3 →
    let bits := if r.ty = 1 ∨ r.ty = 3 then 64 else 32
    let lo : Int := if r.ty ≤ 1 then -2 ^ (bits - 1) else 0
    let hi : Int := if r.ty ≤ 1 then 2 ^ (bits - 1) - 1 else 2 ^ bits - 1
    (∀ (a : Int) (l m : List Int), l.Perm m →
      l.foldl (fun p i => r.combine p (.sum i)) (.sum a) = .sum (a + l.sum) ∧
      l.foldl (fun p i => r.combine p (.sum i)) (.sum a) = m.foldl (fun p i => r.combine p (.sum i)) (.sum a)) ∧
    (∀ i : Int,
      (r.final (.sum i)).2 = decide (i < lo ∨ hi < i) ∧
      (r.final (.sum i)).1.length = bits / 8 ∧
      (r.sat = false → (leNat (r.final (.sum i)).1 : Int) = i % 2 ^ bits) ∧
      (r.sat = true → (leNat (r.final (.sum i)).1 : Int) =
        (if i < lo then lo else if hi < i then hi else i) % 2 ^ bits)) ∧
    (∀ i : Int, (r.wire (.sum i)).length = 16 ∧ (leNat (r.wire (.sum i)) : Int) = i % 2 ^ 128)

/-- R197. -/
def Obligations.EveryNanResultIsCanonical : Prop :=
  ∀ r : Red, r.ty = 4 ∨ r.ty = 5 ∨ r.ty = 6 →
    let f := fmtOf r.ty
    let canonical := if r.ty = 4 then 0x7FC00000 else if r.ty = 5 then 0x7FF8000000000000 else 0x7FC0
    (∀ p : Part, (∀ i, p ≠ .sum i) →
      let v := leNat ((r.final p).1.take (typeSize r.ty))
      f.isNan v = true → v = canonical) ∧
    (∀ a b, f.isNan (f.add a b) = true → f.add a b = canonical) ∧
    (∀ isMin a b, f.isNan (extreme isMin r.ty a b) = true → extreme isMin r.ty a b = canonical) ∧
    (∀ a b, f.isNan a = true ∨ f.isNan b = true → f.add a b = canonical ∧
      ∀ isMin, extreme isMin r.ty a b = canonical)

/-- CONTRIB payloads (R250). -/
def Obligations.PartialResultsAreReadBackWhole : Prop :=
  ∀ (r : Red) (l : List Part) (marked : Bool),
    (∀ p ∈ l, match p with
      | .sum i => r.op = 0 ∧ isInt r.ty = true ∧ -2 ^ 127 ≤ i ∧ i < 2 ^ 127
      | .elem w over_ => r.op < 6 ∧ (r.op = 0 → isInt r.ty = false ∧ r.mode ≠ 2) ∧ w < 2 ^ (8 * typeSize r.ty) ∧
        over_ = (marked && r.op == 0 && (fmtOf r.ty).isInf w)
      | .loc v n => (r.op = 6 ∨ r.op = 7) ∧ v < 2 ^ (8 * typeSize r.ty) ∧ n < 2 ^ 32
      | .exact i _ _ _ _ => r.op = 0 ∧ isInt r.ty = false ∧ r.mode = 2 ∧ -2 ^ 2559 ≤ i ∧ i < 2 ^ 2559) →
    ∀ n, l.length ≤ n → r.parse marked n (l.flatMap r.wire) = l

/-- Table 08-1 both ways (R236). -/
def Obligations.PacketHeadersAreReadBackWhole : Prop :=
  ∀ p : Packet, packetWf p = true →
    packetOfBits (hdrBits p) p.payload = p ∧ hdrBits p < 2 ^ 512 ∧ fld (hdrBits p) 383 372 = p.payload.length

/-- Every command completes. -/
def Obligations.EveryCommandIsExecuted : Prop :=
  (∀ (c : Instr) (s : State), ∃ t, exec c s = .next t) ∧ ∀ s : State, ∃ t, step s = .next t

/-- No power, no effect (R489). -/
def Obligations.UnitsWithoutPowerTakeNoPacket : Prop :=
  ∀ (s : State) (p : Packet) (c : RawCell) (port : Fin 72), domOn s dCX = false →
    ∀ i ∈ ([.tsendArrive p, .rtsArrive p, .skipArrive p, .rgetArrive p, .putArrive p, .putImmArrive p, .getArrive p,
        .fadd64Arrive p, .swap64Arrive p, .cas64Arrive p, .cas128Arrive p, .flushArrive p, .csendArrive p,
        .cputArrive p, .cgetArrive p, .ackArrive p, .refusalArrive p, .getDataArrive p, .atomicRespArrive p,
        .lossNoticeArrive p, .collJoin p, .collReady p, .collAbandon p, .collContrib p, .collResult p, .collAbort p,
        .collHeartbeat p, .collDepart p, .collLost p, .collBroken p, .collFetch p, .squallNoticeArrive p,
        .healthArrive port p, .laneSetupArrive port p, .laneReplyArrive port p, .laneDataArrive port p,
        .laneReleaseArrive port p, .linkCtlDepartArrive port p, .departDoneArrive port p,
        .dataCellReceive port c, .creditCellReceive port c, .syncMarkReceive port c, .syncReplyReceive port c,
        .trainCellReceive port c] : List Instr),
      exec i s = .next s

/-- Registers of the engines (R374). -/
def Obligations.EngineRegistersKeepWhatIsWritten : Prop :=
  ∀ (s : State) (e c r : Nat) (v : Word64), s.canon = true →
    let t := setReg e c r v s
    let u := finish e c r v s
    (∀ e2 c2 r2, reg t e2 c2 r2 = if e2 = e ∧ c2 = c ∧ r2 = r then v else reg s e2 c2 r2) ∧
    (∀ e2 c2, pcOf t e2 c2 = pcOf s e2 c2) ∧
    (∀ e2 c2 r2, reg u e2 c2 r2 = if e2 = e ∧ c2 = c ∧ r2 = r then v else reg s e2 c2 r2) ∧
    (∀ e2 c2, pcOf u e2 c2 = if e2 = e ∧ c2 = c then pcOf s e c + 4 else pcOf s e2 c2) ∧
    (∀ e2 a, memGet (engine u e2).ldm a = memGet (engine s e2).ldm a ∧
      memGet (engine u e2).imem a = memGet (engine s e2).imem a) ∧
    (∀ k a, memGet (cmem u k) a = memGet (cmem s k) a) ∧ (∀ a, memGet u.cm.bytes a = memGet s.cm.bytes a)

/-- The queue of commands is the senders'. -/
def Obligations.StepsTakeCommandsInOrder : Prop :=
  ∀ s t : State, step s = .next t → t.pending = s.pending.tail

/-- The canonical form is an invariant. -/
def Obligations.EveryStepKeepsTheCanonicalForm : Prop :=
  ∀ s t : State, s.canon = true → step s = .next t → t.canon = true
end

