-- ==== Sys2Proof/Laws/SMap.lean ====
section
/-!
SUPPORT. Sparse maps: reading after writing, and the canonical forms.
-/
namespace Sys2Proof.Machine

variable {α : Type}

/-! ### Keys below the first one -/

theorem mwfFrom_weaken {m : SMap α} {lo hi : Nat} (h : lo ≤ hi) (w : mwfFrom hi m = true) : mwfFrom lo m = true := by
  cases m with
  | nil => rfl
  | cons a r => simp only [mwfFrom, Bool.and_eq_true, decide_eq_true_eq] at w ⊢; exact ⟨by omega, w.2⟩

theorem swfFrom_weaken [DecidableEq α] {d : α} {m : SMap α} {lo hi : Nat} (h : lo ≤ hi)
    (w : swfFrom d hi m = true) : swfFrom d lo m = true := by
  cases m with
  | nil => rfl
  | cons a r =>
    simp only [swfFrom, Bool.and_eq_true, decide_eq_true_eq] at w ⊢; exact ⟨⟨by omega, w.1.2⟩, w.2⟩

theorem mwfFrom_of_swfFrom [DecidableEq α] {d : α} {m : SMap α} {lo : Nat} (w : swfFrom d lo m = true) :
    mwfFrom lo m = true := by
  induction m generalizing lo with
  | nil => rfl
  | cons a r ih =>
    simp only [swfFrom, mwfFrom, Bool.and_eq_true, decide_eq_true_eq] at w ⊢; exact ⟨w.1.1, ih w.2⟩

theorem mwf_of_swf [DecidableEq α] {d : α} {m : SMap α} (w : swf d m = true) : mwf m = true := mwfFrom_of_swfFrom w

theorem sget_below {d : α} {m : SMap α} {lo k : Nat} (w : mwfFrom lo m = true) (h : k < lo) : sget d m k = d := by
  induction m generalizing lo with
  | nil => rfl
  | cons a r ih =>
    simp only [mwfFrom, Bool.and_eq_true, decide_eq_true_eq] at w
    simp only [sget]; rw [if_neg (by omega)]; exact ih w.2 (by omega)

/-! ### `sset`, `smod`: a map with a default -/

theorem sget_sset_ne [DecidableEq α] {d : α} (m : SMap α) {k j : Nat} (v : α) (h : k ≠ j) :
    sget d (sset d m k v) j = sget d m j := by
  induction m with
  | nil => simp only [sset]; split <;> simp [sget, h]
  | cons a r ih =>
    obtain ⟨i, w⟩ := a
    simp only [sset]
    split
    · split <;> simp [sget, h]
    · split
      · split <;> simp_all [sget]
      · simp only [sget, ih]

theorem sget_sset_eq [DecidableEq α] {d : α} {m : SMap α} (k : Nat) (v : α) (w : mwf m = true) :
    sget d (sset d m k v) k = v := by
  unfold mwf at w
  generalize 0 = lo at w
  induction m generalizing lo with
  | nil => simp only [sset]; split <;> simp_all [sget]
  | cons a r ih =>
    obtain ⟨i, x⟩ := a
    simp only [mwfFrom, Bool.and_eq_true, decide_eq_true_eq] at w
    simp only [sset]
    split
    · split
      · next hv => rw [hv]; simp only [sget]; rw [if_neg (by omega)]; exact sget_below w.2 (by omega)
      · simp [sget]
    · split
      · next hk =>
        split
        · next hv => rw [hv]; exact sget_below w.2 (by omega)
        · simp [sget]
      · simp only [sget]; rw [if_neg (by omega)]; exact ih _ w.2

theorem sget_smod_ne [DecidableEq α] {d : α} (m : SMap α) {k j : Nat} (f : α → α) (h : k ≠ j) :
    sget d (smod d m k f) j = sget d m j := sget_sset_ne m _ h

theorem sget_smod_eq [DecidableEq α] {d : α} {m : SMap α} (k : Nat) (f : α → α) (w : mwf m = true) :
    sget d (smod d m k f) k = f (sget d m k) := sget_sset_eq k _ w

/-- Reading any key after a change of one. -/
theorem sget_smod [DecidableEq α] {d : α} {m : SMap α} (k j : Nat) (f : α → α) (w : mwf m = true) :
    sget d (smod d m k f) j = if j = k then f (sget d m k) else sget d m j := by
  split
  · next h => rw [h]; exact sget_smod_eq k f w
  · next h => exact sget_smod_ne m f (Ne.symm h)

theorem sget_sset [DecidableEq α] {d : α} {m : SMap α} (k j : Nat) (v : α) (w : mwf m = true) :
    sget d (sset d m k v) j = if j = k then v else sget d m j := by
  split
  · next h => rw [h]; exact sget_sset_eq k v w
  · next h => exact sget_sset_ne m v (Ne.symm h)

theorem mwfFrom_sset [DecidableEq α] {d : α} {m : SMap α} {lo k : Nat} (v : α) (h : lo ≤ k)
    (w : mwfFrom lo m = true) : mwfFrom lo (sset d m k v) = true := by
  induction m generalizing lo with
  | nil => simp only [sset]; split <;> simp [mwfFrom, h]
  | cons a r ih =>
    obtain ⟨i, x⟩ := a
    simp only [mwfFrom, Bool.and_eq_true, decide_eq_true_eq] at w
    simp only [sset]
    split
    · split
      · simp [mwfFrom, w]
      · simp only [mwfFrom, Bool.and_eq_true, decide_eq_true_eq]; exact ⟨h, by omega, w.2⟩
    · split
      · split
        · exact mwfFrom_weaken (by omega) w.2
        · next hk _ => simp only [mwfFrom, Bool.and_eq_true, decide_eq_true_eq]; exact ⟨h, hk ▸ w.2⟩
      · simp only [mwfFrom, Bool.and_eq_true, decide_eq_true_eq]; exact ⟨w.1, ih (by omega) w.2⟩

@[simp] theorem mwf_sset [DecidableEq α] {d : α} {m : SMap α} (k : Nat) (v : α) (w : mwf m = true) :
    mwf (sset d m k v) = true := mwfFrom_sset v (Nat.zero_le k) w

@[simp] theorem mwf_smod [DecidableEq α] {d : α} {m : SMap α} (k : Nat) (f : α → α) (w : mwf m = true) :
    mwf (smod d m k f) = true := mwf_sset k _ w

theorem swfFrom_sset [DecidableEq α] {d : α} {m : SMap α} {lo k : Nat} (v : α) (h : lo ≤ k)
    (w : swfFrom d lo m = true) : swfFrom d lo (sset d m k v) = true := by
  induction m generalizing lo with
  | nil => simp only [sset]; split <;> simp_all [swfFrom]
  | cons a r ih =>
    obtain ⟨i, x⟩ := a
    simp only [swfFrom, Bool.and_eq_true, decide_eq_true_eq] at w
    simp only [sset]
    split
    · split
      · simp only [swfFrom, Bool.and_eq_true, decide_eq_true_eq]; exact w
      · next hv => simp only [swfFrom, Bool.and_eq_true, decide_eq_true_eq]; exact ⟨⟨h, hv⟩, ⟨by omega, w.1.2⟩, w.2⟩
    · split
      · split
        · exact swfFrom_weaken (by omega) w.2
        · next hk hv => simp only [swfFrom, Bool.and_eq_true, decide_eq_true_eq]; exact ⟨⟨h, hv⟩, hk ▸ w.2⟩
      · simp only [swfFrom, Bool.and_eq_true, decide_eq_true_eq]; exact ⟨w.1, ih (by omega) w.2⟩

@[simp] theorem swf_sset [DecidableEq α] {d : α} {m : SMap α} (k : Nat) (v : α) (w : swf d m = true) :
    swf d (sset d m k v) = true := swfFrom_sset v (Nat.zero_le k) w

@[simp] theorem swf_smod [DecidableEq α] {d : α} {m : SMap α} (k : Nat) (f : α → α) (w : swf d m = true) :
    swf d (smod d m k f) = true := swf_sset k _ w

/-- What holds of every listed value, and of the value written, holds of every listed value after. -/
theorem all_sset [DecidableEq α] {d : α} {m : SMap α} {p : α → Bool} (k : Nat) (v : α)
    (h : m.all (fun e => p e.2) = true) (hv : p v = true) : (sset d m k v).all (fun e => p e.2) = true := by
  induction m with
  | nil => simp only [sset]; split <;> simp [hv]
  | cons a r ih =>
    simp only [List.all_cons, Bool.and_eq_true] at h
    simp only [sset]
    split
    · split <;> simp only [List.all_cons, Bool.and_eq_true]
      · exact h
      · exact ⟨hv, h⟩
    · split
      · split
        · exact h.2
        · simp only [List.all_cons, Bool.and_eq_true]; exact ⟨hv, h.2⟩
      · simp only [List.all_cons, Bool.and_eq_true]; exact ⟨h.1, ih h.2⟩

theorem all_sget {d : α} {m : SMap α} {p : α → Bool} (k : Nat) (h : m.all (fun e => p e.2) = true) (hd : p d = true) :
    p (sget d m k) = true := by
  induction m with
  | nil => exact hd
  | cons a r ih =>
    simp only [List.all_cons, Bool.and_eq_true] at h
    simp only [sget]; split
    · exact h.1
    · exact ih h.2

theorem all_smod [DecidableEq α] {d : α} {m : SMap α} {p : α → Bool} (k : Nat) (f : α → α)
    (h : m.all (fun e => p e.2) = true) (hd : p d = true) (hf : ∀ x, p x = true → p (f x) = true) :
    (smod d m k f).all (fun e => p e.2) = true := all_sset k _ h (hf _ (all_sget k h hd))

/-! ### `smapv`, `map`, `filter`, `mdel` -/

theorem mwfFrom_smapv [DecidableEq α] {d : α} {m : SMap α} {f : Nat → α → α} {lo : Nat} (w : mwfFrom lo m = true) :
    mwfFrom lo (smapv d f m) = true := by
  induction m generalizing lo with
  | nil => rfl
  | cons a r ih =>
    simp only [mwfFrom, Bool.and_eq_true, decide_eq_true_eq] at w
    simp only [smapv]; split
    · exact mwfFrom_weaken (by omega) (ih w.2)
    · simp only [mwfFrom, Bool.and_eq_true, decide_eq_true_eq]; exact ⟨w.1, ih w.2⟩

@[simp] theorem mwf_smapv [DecidableEq α] {d : α} {m : SMap α} (f : Nat → α → α) (w : mwf m = true) :
    mwf (smapv d f m) = true := mwfFrom_smapv w

theorem all_smapv [DecidableEq α] {d : α} {m : SMap α} {p : α → Bool} {f : Nat → α → α}
    (h : m.all (fun e => p e.2) = true) (hf : ∀ k x, p x = true → p (f k x) = true) :
    (smapv d f m).all (fun e => p e.2) = true := by
  induction m with
  | nil => rfl
  | cons a r ih =>
    simp only [List.all_cons, Bool.and_eq_true] at h
    simp only [smapv]; split
    · exact ih h.2
    · simp only [List.all_cons, Bool.and_eq_true]; exact ⟨hf _ _ h.1, ih h.2⟩

theorem mwfFrom_filter {m : SMap α} {p : Nat × α → Bool} {lo : Nat} (w : mwfFrom lo m = true) :
    mwfFrom lo (m.filter p) = true := by
  induction m generalizing lo with
  | nil => rfl
  | cons a r ih =>
    simp only [mwfFrom, Bool.and_eq_true, decide_eq_true_eq] at w
    simp only [List.filter_cons]; split
    · simp only [mwfFrom, Bool.and_eq_true, decide_eq_true_eq]; exact ⟨w.1, ih w.2⟩
    · exact mwfFrom_weaken (by omega) (ih w.2)

theorem swfFrom_filter [DecidableEq α] {d : α} {m : SMap α} {p : Nat × α → Bool} {lo : Nat}
    (w : swfFrom d lo m = true) : swfFrom d lo (m.filter p) = true := by
  induction m generalizing lo with
  | nil => rfl
  | cons a r ih =>
    simp only [swfFrom, Bool.and_eq_true, decide_eq_true_eq] at w
    simp only [List.filter_cons]; split
    · simp only [swfFrom, Bool.and_eq_true, decide_eq_true_eq]; exact ⟨w.1, ih w.2⟩
    · exact swfFrom_weaken (by omega) (ih w.2)

@[simp] theorem swf_filter [DecidableEq α] {d : α} {m : SMap α} (p : Nat × α → Bool) (w : swf d m = true) :
    swf d (m.filter p) = true := swfFrom_filter w

theorem all_filter {m : SMap α} {p q : Nat × α → Bool} (h : m.all q = true) : (m.filter p).all q = true := by
  simp only [List.all_eq_true, List.mem_filter] at h ⊢; exact fun x hx => h x hx.1

theorem all_mdel {m : SMap α} {q : Nat × α → Bool} (k : Nat) (h : m.all q = true) : (mdel m k).all q = true := by
  induction m with
  | nil => rfl
  | cons a r ih =>
    simp only [List.all_cons, Bool.and_eq_true] at h
    simp only [mdel]; split
    · exact h.2
    · simp only [List.all_cons, Bool.and_eq_true]; exact ⟨h.1, ih h.2⟩

theorem mwfFrom_map {m : SMap α} {f : Nat × α → Nat × α} (hf : ∀ e, (f e).1 = e.1) {lo : Nat}
    (w : mwfFrom lo m = true) : mwfFrom lo (m.map f) = true := by
  induction m generalizing lo with
  | nil => rfl
  | cons a r ih =>
    simp only [mwfFrom, Bool.and_eq_true, decide_eq_true_eq] at w
    have := hf a
    simp only [List.map_cons]
    rw [show f a = (a.1, (f a).2) by rw [← this]]
    simp only [mwfFrom, Bool.and_eq_true, decide_eq_true_eq]; exact ⟨w.1, ih w.2⟩

/-! ### `mget?`, `mput`, `mmod`, `mdel`: a map without a default -/

@[simp] theorem mget?_mput_eq (m : SMap α) (k : Nat) (v : α) : mget? (mput m k v) k = some v := by
  induction m with
  | nil => simp [mput, mget?]
  | cons a r ih =>
    obtain ⟨j, w⟩ := a
    simp only [mput]; split
    · simp [mget?]
    · split
      · simp [mget?]
      · simp only [mget?]; rw [if_neg (by omega)]; exact ih

theorem mget?_mput_ne (m : SMap α) {k j : Nat} (v : α) (h : k ≠ j) : mget? (mput m k v) j = mget? m j := by
  induction m with
  | nil => simp [mput, mget?, h]
  | cons a r ih =>
    obtain ⟨i, w⟩ := a
    simp only [mput]; split
    · simp [mget?, h]
    · split
      · next hk => subst hk; simp [mget?, h]
      · simp only [mget?, ih]

@[simp] theorem mget?_mmod_eq (m : SMap α) (k : Nat) (f : α → α) : mget? (mmod m k f) k = (mget? m k).map f := by
  unfold mmod; cases h : mget? m k <;> simp [h]

theorem mget?_mmod_ne (m : SMap α) {k j : Nat} (f : α → α) (h : k ≠ j) : mget? (mmod m k f) j = mget? m j := by
  unfold mmod; split
  · exact mget?_mput_ne m _ h
  · rfl

theorem mget?_mdel_ne (m : SMap α) {k j : Nat} (h : k ≠ j) : mget? (mdel m k) j = mget? m j := by
  induction m with
  | nil => rfl
  | cons a r ih =>
    obtain ⟨i, w⟩ := a
    simp only [mdel]; split
    · next hk => subst hk; simp [mget?, h]
    · simp only [mget?, ih]

/-! ### Folding a state over a list -/

/-- What every application keeps, the fold keeps. -/
theorem foldSt_keeps {σ : Type} {p : σ → Prop} {f : α → σ → σ} (hf : ∀ a s, p s → p (f a s)) :
    ∀ (l : List α) (s : σ), p s → p (foldSt f l s)
  | [], _, h => h
  | a :: r, s, h => foldSt_keeps hf r (f a s) (hf a s h)

theorem foldl_keeps {σ : Type} {p : σ → Prop} {f : σ → α → σ} (hf : ∀ s a, p s → p (f s a)) :
    ∀ (l : List α) (s : σ), p s → p (l.foldl f s)
  | [], _, h => h
  | a :: r, s, h => foldl_keeps hf r (f s a) (hf s a h)

end Sys2Proof.Machine
end

