-- ==== Sys2Proof/Laws/Memory.lean ====
section
/-!
SUPPORT. Byte memories: every operation keeps the canonical form, and reading after writing.
-/
namespace Sys2Proof.Machine

@[simp] theorem Memory.wf_memSet {m : List Host.Cell} (a : Nat) (b : Byte) (w : Memory.wf m = true) :
    Memory.wf (memSet m a b) = true := swf_sset a b w

@[simp] theorem Memory.wf_memWrite {m : List Host.Cell} (a : Nat) (bs : List Byte) (w : Memory.wf m = true) :
    Memory.wf (memWrite m a bs) = true := by
  induction bs generalizing m a with
  | nil => exact w
  | cons b r ih => exact ih (a + 1) (Memory.wf_memSet a b w)

@[simp] theorem Memory.wf_filter {m : List Host.Cell} (p : Host.Cell → Bool) (w : Memory.wf m = true) :
    Memory.wf (m.filter p) = true := swf_filter p w

/-- A byte written is read; every other byte reads as before. -/
theorem memGet_memSet {m : List Host.Cell} (a x : Nat) (b : Byte) (w : Memory.wf m = true) :
    memGet (memSet m a b) x = if x = a then b else memGet m x := sget_sset a x b (mwf_of_swf w)

/-- Bytes outside the bytes written read as before. -/
theorem memGet_memWrite_outside {m : List Host.Cell} (a x : Nat) (bs : List Byte) (h : x < a ∨ a + bs.length ≤ x) :
    memGet (memWrite m a bs) x = memGet m x := by
  induction bs generalizing m a with
  | nil => rfl
  | cons b r ih =>
    simp only [List.length_cons] at h
    simp only [memWrite]; rw [ih (a + 1) (by omega)]; exact sget_sset_ne m b (by omega)

/-- The bytes written are read. -/
theorem memGet_memWrite_inside {m : List Host.Cell} (a k : Nat) (bs : List Byte) (w : Memory.wf m = true)
    (h : k < bs.length) : memGet (memWrite m a bs) (a + k) = bs[k] := by
  induction bs generalizing m a k with
  | nil => exact absurd h (Nat.not_lt_zero k)
  | cons b r ih =>
    simp only [memWrite]
    cases k with
    | zero =>
      rw [memGet_memWrite_outside _ _ _ (by omega)]; simp [memGet_memSet a a b w]
    | succ j =>
      have := ih (a + 1) j (Memory.wf_memSet a b w) (by simpa using h)
      rw [show a + (j + 1) = a + 1 + j by omega, this]; rfl

@[simp] theorem memRead_length {m : List Host.Cell} (a n : Nat) : (memRead m a n).length = n := by
  induction n generalizing a with
  | zero => rfl
  | succ n ih => simp [memRead, ih]

/-- What is written is read back. -/
theorem memRead_memWrite {m : List Host.Cell} (a : Nat) (bs : List Byte) (w : Memory.wf m = true) :
    memRead (memWrite m a bs) a bs.length = bs := by
  induction bs generalizing m a with
  | nil => rfl
  | cons b r ih =>
    simp only [memWrite, List.length_cons, memRead]
    rw [ih (a + 1) (Memory.wf_memSet a b w), memGet_memWrite_outside _ _ _ (by omega)]
    simp [memGet_memSet a a b w]

end Sys2Proof.Machine
end

