-- ==== Sys2Proof/Laws/Good.lean ====
section
/-!
SUPPORT. What every operation keeps: the queue of commands, and the canonical form of the byte memories
and of the register files.  The files beside this one say it of every shared operation.
-/
namespace Sys2Proof.Machine

/-- An engine in canonical form. -/
structure EngOk (g : Engine) : Prop where
  ctxs : mwf g.ctxs = true
  regs : g.ctxs.all (fun e => mwf e.2.regs) = true
  ldm : Memory.wf g.ldm = true
  imem : Memory.wf g.imem = true

/-- The engines in canonical form. -/
structure EnginesOk (m : SMap Engine) : Prop where
  keys : mwf m = true
  each : ∀ e ∈ m, EngOk e.2

/-- The engines, cluster memories, context memory and mailboxes in canonical form. -/
structure MeOk (m : Engines) : Prop where
  engines : EnginesOk m.engines
  cmem : m.cmem.all (fun e => Memory.wf e.2) = true

structure CmOk (m : CtxMem) : Prop where
  bytes : Memory.wf m.bytes = true

structure HlOk (m : HostLinks) : Prop where
  fns : m.fns.all (fun e => Memory.wf e.2.mb.req) = true

/-- The queue of commands is `q`, and the state is in canonical form. -/
structure Good (q : List Instr) (s : State) : Prop where
  pending : s.pending = q
  me : MeOk s.me
  cm : CmOk s.cm
  hl : HlOk s.hl

/-- Of a pair, and of a triple, whose last part is the state. -/
def Good2 {α : Type} (q : List Instr) (p : α × State) : Prop := Good q p.2
def Good3 {α β : Type} (q : List Instr) (p : α × β × State) : Prop := Good q p.2.2

/-- Of a step's outcome: a next state is good. -/
def GoodO (q : List Instr) (o : Out3) : Prop := ∀ t, o = .next t → Good q t

theorem EngOk.of_engine {g : Engine} : EngOk g ↔ (g.sorted && g.memWf) = true := by
  constructor
  · rintro ⟨h1, h2, h3, h4⟩; simp [Engine.sorted, Engine.memWf, h1, h3, h4]; simpa using h2
  · intro h; simp only [Engine.sorted, Engine.memWf, Bool.and_eq_true] at h; exact ⟨h.1.1, h.1.2, h.2.1, h.2.2⟩

theorem good_iff {q : List Instr} {s : State} : Good q s ↔ s.pending = q ∧ s.canon = true := by
  constructor
  · rintro ⟨h1, ⟨⟨h2, h3⟩, h4⟩, ⟨h5⟩, ⟨h6⟩⟩
    refine ⟨h1, ?_⟩
    simp only [State.canon, State.memWf, Bool.and_eq_true, h2, h4, h5, h6, and_true, true_and, List.all_eq_true]
    have := fun e he => EngOk.of_engine.1 (h3 e he)
    simp only [Bool.and_eq_true] at this
    exact ⟨fun e he => (this e he).2, fun e he => (this e he).1⟩
  · rintro ⟨h1, h⟩
    simp only [State.canon, State.memWf, Bool.and_eq_true, List.all_eq_true] at h
    obtain ⟨⟨⟨⟨⟨h5, h7⟩, h4⟩, h6⟩, h2⟩, h3⟩ := h
    refine ⟨h1, ⟨⟨h2, fun e he => EngOk.of_engine.2 (by simp [h3 e he, h7 e he])⟩, ?_⟩, ⟨h5⟩, ⟨?_⟩⟩
    · simpa using h4
    · simpa using h6

/-! ### One constructor, field by field -/

theorem Good.mk' {q : List Instr} {tb : TimeBase} {od : Dict} {qm : QueueMgr} {mu : Matching} {ra : Remote} {ce : Collective}
    {tu : Trans} {rt : Routing} {fs : Flow} {ll : Link} {px : PortComplex} {me : Engines} {lk : SMap Lock} {cm : CtxMem}
    {hl : HostLinks} {sb : Sideband} {pr : Power} {rs : Boot} {ms : Mgmt} {fc : Faults} {cnt : SMap Nat}
    {work : List Work} {out : List Out} {free : Nat} {pending : List Instr}
    (h1 : pending = q) (h2 : MeOk me) (h3 : CmOk cm) (h4 : HlOk hl) :
    Good q (State.mk tb od qm mu ra ce tu rt fs ll px me lk cm hl sb pr rs ms fc cnt work out free pending) :=
  ⟨h1, h2, h3, h4⟩

/-- An update of fields that the form does not speak of. -/
theorem Good.mkS {q : List Instr} {s : State} {tb : TimeBase} {od : Dict} {qm : QueueMgr} {mu : Matching} {ra : Remote}
    {ce : Collective} {tu : Trans} {rt : Routing} {fs : Flow} {ll : Link} {px : PortComplex} {lk : SMap Lock}
    {sb : Sideband} {pr : Power} {rs : Boot} {ms : Mgmt} {fc : Faults} {cnt : SMap Nat}
    {work : List Work} {out : List Out} {free : Nat} (h : Good q s) :
    Good q (State.mk tb od qm mu ra ce tu rt fs ll px s.me lk s.cm s.hl sb pr rs ms fc cnt work out free s.pending) :=
  ⟨h.pending, h.me, h.cm, h.hl⟩

theorem Good.mkMe {q : List Instr} {s : State} {tb : TimeBase} {od : Dict} {qm : QueueMgr} {mu : Matching} {ra : Remote}
    {ce : Collective} {tu : Trans} {rt : Routing} {fs : Flow} {ll : Link} {px : PortComplex} {me : Engines} {lk : SMap Lock}
    {sb : Sideband} {pr : Power} {rs : Boot} {ms : Mgmt} {fc : Faults} {cnt : SMap Nat}
    {work : List Work} {out : List Out} {free : Nat} (h : Good q s) (hm : MeOk s.me → MeOk me) :
    Good q (State.mk tb od qm mu ra ce tu rt fs ll px me lk s.cm s.hl sb pr rs ms fc cnt work out free s.pending) :=
  ⟨h.pending, hm h.me, h.cm, h.hl⟩

theorem Good.mkCm {q : List Instr} {s : State} {tb : TimeBase} {od : Dict} {qm : QueueMgr} {mu : Matching} {ra : Remote}
    {ce : Collective} {tu : Trans} {rt : Routing} {fs : Flow} {ll : Link} {px : PortComplex} {lk : SMap Lock} {cm : CtxMem}
    {sb : Sideband} {pr : Power} {rs : Boot} {ms : Mgmt} {fc : Faults} {cnt : SMap Nat}
    {work : List Work} {out : List Out} {free : Nat} (h : Good q s) (hm : CmOk s.cm → CmOk cm) :
    Good q (State.mk tb od qm mu ra ce tu rt fs ll px s.me lk cm s.hl sb pr rs ms fc cnt work out free s.pending) :=
  ⟨h.pending, h.me, hm h.cm, h.hl⟩

theorem Good.mkHl {q : List Instr} {s : State} {tb : TimeBase} {od : Dict} {qm : QueueMgr} {mu : Matching} {ra : Remote}
    {ce : Collective} {tu : Trans} {rt : Routing} {fs : Flow} {ll : Link} {px : PortComplex} {lk : SMap Lock}
    {hl : HostLinks} {sb : Sideband} {pr : Power} {rs : Boot} {ms : Mgmt} {fc : Faults} {cnt : SMap Nat}
    {work : List Work} {out : List Out} {free : Nat} (h : Good q s) (hm : HlOk s.hl → HlOk hl) :
    Good q (State.mk tb od qm mu ra ce tu rt fs ll px s.me lk s.cm hl sb pr rs ms fc cnt work out free s.pending) :=
  ⟨h.pending, h.me, h.cm, hm h.hl⟩

/-- The engines but for what the form does not speak of. -/
theorem meOk_mk {m : Engines} {slots : SMap PkgSlot} {acts : List Activation} {fwSlot : Nat} {img : List Byte}
    {items : List ItemKind} {st : ActStatus} {ring : SMap Nat} {n : Nat} {far : List FarLane} {nf : Nat}
    {fl : List Flight} {fences : Nat} (h : MeOk m) :
    MeOk (Engines.mk m.engines m.cmem slots acts fwSlot img items st ring n far nf fl fences) := ⟨h.engines, h.cmem⟩

theorem cmOk_mk {m : CtxMem} {hbm : SMap Stack} {records : List Nat} {mf : Nat} (h : CmOk m) :
    CmOk (CtxMem.mk hbm m.bytes records mf) :=
  ⟨h.bytes⟩

theorem hlOk_mk {m : HostLinks} {links : SMap HostLink} (h : HlOk m) : HlOk (HostLinks.mk links m.fns) := ⟨h.fns⟩

/-! ### Conditions, definitions, pairs -/

theorem keep_ite {α : Sort _} {P : α → Prop} {c : Prop} [Decidable c] {a b : α} (h1 : P a) (h2 : P b) :
    P (if c then a else b) := by split <;> assumption

/-- The state of a pair that a function answers. -/
theorem good2_snd {q : List Instr} {α : Type} {p : α × State} (h : Good2 q p) : Good q p.2 := h
theorem good2_eq {q : List Instr} {α : Type} {p : α × State} {a : α} {s : State} (e : p = (a, s)) (h : Good2 q p) :
    Good q s := by subst e; exact h
theorem good3_eq {q : List Instr} {α β : Type} {p : α × β × State} {a : α} {b : β} {s : State} (e : p = (a, b, s))
    (h : Good3 q p) : Good q s := by subst e; exact h
theorem good3_snd {q : List Instr} {α β : Type} {p : α × β × State} (h : Good3 q p) : Good q p.2.2 := h
theorem good2_mk {q : List Instr} {α : Type} {a : α} {s : State} (h : Good q s) : Good2 q (a, s) := h
theorem good3_mk {q : List Instr} {α β : Type} {a : α} {b : β} {s : State} (h : Good q s) : Good3 q (a, b, s) := h
theorem goodO_next {q : List Instr} {s : State} (h : Good q s) : GoodO q (.next s) := by intro t e; cases e; exact h
theorem goodO_fault {q : List Instr} {f : Fault} : GoodO q (.fault f) := by intro t e; cases e
theorem goodO_refused {q : List Instr} {r : Refusal} : GoodO q (.refused r) := by intro t e; cases e

theorem good_id {q : List Instr} {s : State} (h : Good q s) : Good q (id s) := h

/-! ### Folds -/

theorem good_foldSt {q : List Instr} {α : Type} {f : α → State → State} {l : List α} {s : State}
    (hf : ∀ a s, Good q s → Good q (f a s)) (h : Good q s) : Good q (foldSt f l s) := foldSt_keeps hf l s h

theorem good_forRange {q : List Instr} {lo n : Nat} {f : Nat → State → State} {s : State}
    (hf : ∀ a s, Good q s → Good q (f a s)) (h : Good q s) : Good q (forRange lo n f s) := foldSt_keeps hf _ s h

theorem good_foldl {q : List Instr} {α : Type} {f : State → α → State} {l : List α} {s : State}
    (hf : ∀ s a, Good q s → Good q (f s a)) (h : Good q s) : Good q (l.foldl f s) := foldl_keeps hf l s h

theorem good2_foldl {q : List Instr} {α β : Type} {f : β × State → α → β × State} {l : List α} {p : β × State}
    (hf : ∀ p a, Good q p.2 → Good2 q (f p a)) (h : Good q p.2) : Good2 q (l.foldl f p) :=
  foldl_keeps (p := Good2 q) hf l p h

theorem good_when {q : List Instr} {c : Bool} {f : State → State} {s : State}
    (hf : ∀ s, Good q s → Good q (f s)) (h : Good q s) : Good q (when_ c f s) := by
  unfold when_; split
  · exact hf s h
  · exact h

/-! ### The engines' maps -/

theorem engOk_default : EngOk {} := ⟨rfl, rfl, rfl, rfl⟩

theorem enginesOk_smod {m : SMap Engine} {e : Nat} {f : Engine → Engine} (h : EnginesOk m)
    (hf : ∀ g, EngOk g → EngOk (f g)) : EnginesOk (smod {} m e f) := by
  refine ⟨mwf_smod _ _ h.keys, ?_⟩
  have := all_smod (p := fun g : Engine => g.sorted && g.memWf) (d := {}) (m := m) e f
    (by simp only [List.all_eq_true]; exact fun x hx => EngOk.of_engine.1 (h.each x hx)) rfl
    (fun x hx => EngOk.of_engine.1 (hf x (EngOk.of_engine.2 hx)))
  simp only [List.all_eq_true] at this
  exact fun x hx => EngOk.of_engine.2 (this x hx)

theorem enginesOk_map {m : SMap Engine} {f : Nat × Engine → Nat × Engine} (h : EnginesOk m) (hk : ∀ e, (f e).1 = e.1)
    (hf : ∀ e, EngOk e.2 → EngOk (f e).2) : EnginesOk (m.map f) := by
  refine ⟨mwfFrom_map hk h.keys, fun x hx => ?_⟩
  obtain ⟨e, he, rfl⟩ := List.mem_map.1 hx
  exact hf e (h.each e he)

theorem enginesOk_smapv {m : SMap Engine} {f : Nat → Engine → Engine} (h : EnginesOk m)
    (hf : ∀ k g, EngOk g → EngOk (f k g)) : EnginesOk (smapv {} f m) := by
  refine ⟨mwf_smapv _ h.keys, ?_⟩
  have := all_smapv (p := fun g : Engine => g.sorted && g.memWf) (d := {}) (m := m) (f := f)
    (by simp only [List.all_eq_true]; exact fun x hx => EngOk.of_engine.1 (h.each x hx))
    (fun k x hx => EngOk.of_engine.1 (hf k x (EngOk.of_engine.2 hx)))
  simp only [List.all_eq_true] at this
  exact fun x hx => EngOk.of_engine.2 (this x hx)

theorem enginesOk_filter {m : SMap Engine} {p : Nat × Engine → Bool} (h : EnginesOk m) : EnginesOk (m.filter p) :=
  ⟨mwfFrom_filter h.keys, fun x hx => h.each x (List.mem_filter.1 hx).1⟩

theorem enginesOk_nil : EnginesOk [] := ⟨rfl, fun _ h => absurd h (by simp)⟩

theorem engOk_ctxs {g : Engine} {c : Nat} {f : ECtx → ECtx} (h : EngOk g) (hf : ∀ x, mwf x.regs = true → mwf (f x).regs = true) :
    mwf (smod {} g.ctxs c f) = true ∧ (smod {} g.ctxs c f).all (fun e => mwf e.2.regs) = true :=
  ⟨mwf_smod _ _ h.ctxs, all_smod (p := fun x : ECtx => mwf x.regs) c f h.regs rfl hf⟩

/-- An engine but for its contexts and its memories. -/
theorem engOk_mk {g : Engine} {halted : Bool} {cur : Nat} {offer : Bool} {lastTrap : Nat × Nat × Nat}
    {per kinds cap n k : Nat} {due : Bool} (h : EngOk g) :
    EngOk (Engine.mk halted cur offer g.ctxs lastTrap g.ldm g.imem per kinds cap n k due) := ⟨h.ctxs, h.regs, h.ldm, h.imem⟩

theorem hlOk_smod {m : HostLinks} {k : Nat} {f : HostFn → HostFn} (h : HlOk m)
    (hf : ∀ g, Memory.wf g.mb.req = true → Memory.wf (f g).mb.req = true) :
    HlOk { m with fns := smod {} m.fns k f } :=
  ⟨all_smod (p := fun g : HostFn => Memory.wf g.mb.req) k f h.fns rfl hf⟩

/-! ### One write of an engine, of a context, of a host function -/

theorem setFn_good {q : List Instr} (fn : Nat) (f : HostFn → HostFn) {s : State}
    (hf : ∀ g, Memory.wf g.mb.req = true → Memory.wf (f g).mb.req = true) (h : Good q s) : Good q (setFn fn f s) :=
  Good.mkHl h fun h => hlOk_smod h hf

theorem setEngine_good {q : List Instr} (e : Nat) (f : Engine → Engine) {s : State}
    (hf : ∀ g, EngOk g → EngOk (f g)) (h : Good q s) : Good q (setEngine e f s) :=
  Good.mkMe h fun h => ⟨enginesOk_smod h.engines hf, h.cmem⟩

theorem setCtx_good {q : List Instr} (e c : Nat) (f : ECtx → ECtx) {s : State}
    (hf : ∀ x, mwf x.regs = true → mwf (f x).regs = true) (h : Good q s) : Good q (setCtx e c f s) :=
  setEngine_good e _ (fun _ hg => ⟨(engOk_ctxs hg hf).1, (engOk_ctxs hg hf).2, hg.ldm, hg.imem⟩) h

/-! ### Updates that the form does not speak of -/

theorem good_upd {q : List Instr} {s : State} {tb : TimeBase} {od : Dict} {qm : QueueMgr} {mu : Matching} {ra : Remote}
    {ce : Collective} {tu : Trans} {rt : Routing} {fs : Flow} {ll : Link} {px : PortComplex} {lk : SMap Lock}
    {sb : Sideband} {pr : Power} {rs : Boot} {ms : Mgmt} {fc : Faults} {cnt : SMap Nat}
    {work : List Work} {out : List Out} {free : Nat} :
    Good q (State.mk tb od qm mu ra ce tu rt fs ll px s.me lk s.cm s.hl sb pr rs ms fc cnt work out free s.pending) ↔
    Good q s := ⟨fun h => ⟨h.pending, h.me, h.cm, h.hl⟩, Good.mkS⟩

theorem good_updMe {q : List Instr} {s : State} {tb : TimeBase} {od : Dict} {qm : QueueMgr} {mu : Matching} {ra : Remote}
    {ce : Collective} {tu : Trans} {rt : Routing} {fs : Flow} {ll : Link} {px : PortComplex} {lk : SMap Lock}
    {sb : Sideband} {pr : Power} {rs : Boot} {ms : Mgmt} {fc : Faults} {cnt : SMap Nat}
    {work : List Work} {out : List Out} {free : Nat} {slots : SMap PkgSlot} {acts : List Activation} {fwSlot : Nat}
    {img : List Byte} {items : List ItemKind} {st : ActStatus} {ring : SMap Nat} {n : Nat} {far : List FarLane} {nf : Nat}
    {fl : List Flight} {fences : Nat} :
    Good q (State.mk tb od qm mu ra ce tu rt fs ll px
      (Engines.mk s.me.engines s.me.cmem slots acts fwSlot img items st ring n far nf fl fences) lk s.cm s.hl sb pr rs ms fc cnt work out free s.pending) ↔ Good q s :=
  ⟨fun h => ⟨h.pending, ⟨h.me.engines, h.me.cmem⟩, h.cm, h.hl⟩, fun h => Good.mkMe h meOk_mk⟩

theorem good_updCm {q : List Instr} {s : State} {tb : TimeBase} {od : Dict} {qm : QueueMgr} {mu : Matching} {ra : Remote}
    {ce : Collective} {tu : Trans} {rt : Routing} {fs : Flow} {ll : Link} {px : PortComplex} {lk : SMap Lock}
    {sb : Sideband} {pr : Power} {rs : Boot} {ms : Mgmt} {fc : Faults} {cnt : SMap Nat}
    {work : List Work} {out : List Out} {free : Nat} {hbm : SMap Stack} {records : List Nat} {mf : Nat} :
    Good q (State.mk tb od qm mu ra ce tu rt fs ll px s.me lk (CtxMem.mk hbm s.cm.bytes records mf) s.hl sb pr rs ms fc cnt
      work out free s.pending) ↔ Good q s :=
  ⟨fun h => ⟨h.pending, h.me, ⟨h.cm.bytes⟩, h.hl⟩, fun h => Good.mkCm h cmOk_mk⟩

theorem good_updHl {q : List Instr} {s : State} {tb : TimeBase} {od : Dict} {qm : QueueMgr} {mu : Matching} {ra : Remote}
    {ce : Collective} {tu : Trans} {rt : Routing} {fs : Flow} {ll : Link} {px : PortComplex} {lk : SMap Lock}
    {sb : Sideband} {pr : Power} {rs : Boot} {ms : Mgmt} {fc : Faults} {cnt : SMap Nat}
    {work : List Work} {out : List Out} {free : Nat} {links : SMap HostLink} :
    Good q (State.mk tb od qm mu ra ce tu rt fs ll px s.me lk s.cm (HostLinks.mk links s.hl.fns) sb pr rs ms fc cnt
      work out free s.pending) ↔ Good q s :=
  ⟨fun h => ⟨h.pending, h.me, h.cm, ⟨h.hl.fns⟩⟩, fun h => Good.mkHl h hlOk_mk⟩

end Sys2Proof.Machine
end

