-- ==== Sys2Proof/Laws/KeepBase.lean ====
section
/-!
SUPPORT. Keeping the queue of commands and the canonical form: queues, host functions, translation, context memory.
-/
namespace Sys2Proof.Machine

/-! ### Machine/Ops.lean -/

theorem bumpBy_good {q : List Instr} (a0) (a1) (a2) {s : State} (h : Good q s) : Good q (bumpBy a0 a1 a2 s) := by
  unfold bumpBy
  repeat' (with_reducible first | assumption | intro _ | simp only [good_upd] | split)

theorem bump_good {q : List Instr} (a0) (a1) {s : State} (h : Good q s) : Good q (bump a0 a1 s) := by
  unfold bump
  repeat' (with_reducible first | assumption | intro _ | apply bumpBy_good | split)

theorem bumpMod_good {q : List Instr} (a0) (a1) {s : State} (h : Good q s) : Good q (bumpMod a0 a1 s) := by
  unfold bumpMod
  repeat' (with_reducible first | assumption | intro _ | apply bumpBy_good | split)

theorem bumpG15_good {q : List Instr} (a0) (a1) {s : State} (h : Good q s) : Good q (bumpG15 a0 a1 s) := by
  unfold bumpG15
  repeat' (with_reducible first | assumption | intro _ | apply bumpMod_good | split)

theorem bumpPort_good {q : List Instr} (a0) (a1) (a2) {s : State} (h : Good q s) : Good q (bumpPort a0 a1 a2 s) := by
  unfold bumpPort
  repeat' (with_reducible first | assumption | intro _ | apply bumpMod_good | split)

theorem bumpPortVc_good {q : List Instr} (a0) (a1) (a2) (a3) {s : State} (h : Good q s) :
    Good q (bumpPortVc a0 a1 a2 a3 s) := by
  unfold bumpPortVc
  repeat' (with_reducible first | assumption | intro _ | apply bumpMod_good | split)

theorem bumpEngine_good {q : List Instr} (a0) (a1) (a2) {s : State} (h : Good q s) :
    Good q (bumpEngine a0 a1 a2 s) := by
  unfold bumpEngine
  repeat' (with_reducible first | assumption | intro _ | apply bumpMod_good | split)

theorem bumpHost_good {q : List Instr} (a0) (a1) (a2) {s : State} (h : Good q s) : Good q (bumpHost a0 a1 a2 s) := by
  unfold bumpHost
  repeat' (with_reducible first | assumption | intro _ | apply bumpMod_good | split)

theorem bumpStack_good {q : List Instr} (a0) (a1) (a2) {s : State} (h : Good q s) :
    Good q (bumpStack a0 a1 a2 s) := by
  unfold bumpStack
  repeat' (with_reducible first | assumption | intro _ | apply bumpMod_good | split)

theorem draw_good {q : List Instr} (a0) {s : State} (h : Good q s) : Good2 q (draw a0 s) := by
  unfold draw
  repeat' (with_reducible first | assumption | intro _ | simp only [good_upd] | apply good2_mk)

theorem later_good {q : List Instr} (a0) {s : State} (h : Good q s) : Good q (later a0 s) := by
  unfold later
  repeat' (with_reducible first | assumption | intro _ | simp only [good_upd] | split)

theorem forgetPeers_good {q : List Instr} {s : State} (h : Good q s) : Good q (forgetPeers s) := by
  unfold forgetPeers
  repeat' (with_reducible first | assumption | intro _ | simp only [good_upd] | apply later_good)

theorem emit_good {q : List Instr} (a0) {s : State} (h : Good q s) : Good q (emit a0 s) := by
  unfold emit
  repeat' (with_reducible first | assumption | intro _ | simp only [good_upd] | split)

theorem postEvent_good {q : List Instr} (a0) (a1) (a2) (a3) (a4) {s : State} (h : Good q s) :
    Good q (postEvent a0 a1 a2 a3 a4 s) := by
  unfold postEvent
  repeat' (with_reducible first | assumption | intro _ | apply later_good | split)

theorem raiseFault_good {q : List Instr} (a0) (a1) (a2) {s : State} (h : Good q s) :
    Good q (raiseFault a0 a1 a2 s) := by
  unfold raiseFault
  repeat' (with_reducible first | assumption | intro _ | apply later_good | split)

/-! ### Machine/QueueBase.lean -/

theorem setQueue_good {q : List Instr} (a0) (a1) {s : State} (h : Good q s) : Good q (setQueue a0 a1 s) := by
  unfold setQueue
  repeat' (with_reducible first | assumption | intro _ | simp only [good_upd] | split)

theorem markStarted_good {q : List Instr} (a0) (a1) {s : State} (h : Good q s) : Good q (markStarted a0 a1 s) := by
  unfold markStarted
  repeat' (with_reducible first | assumption | intro _ | apply setQueue_good | split)

theorem complete_good {q : List Instr} (a0) (a1) (a2) {s : State} (h : Good q s) : Good q (complete a0 a1 a2 s) := by
  unfold complete
  repeat' (with_reducible first | assumption | intro _ | apply later_good | split)

/-! ### Machine/Functions.lean -/

theorem setLink_good {q : List Instr} (a0) (a1) {s : State} (h : Good q s) : Good q (setLink a0 a1 s) := by
  unfold setLink
  repeat' (with_reducible first | assumption | intro _ | simp only [good_upd, good_updHl])

theorem bumpFnBy_good {q : List Instr} (a0) (a1) (a2) {s : State} (h : Good q s) : Good q (bumpFnBy a0 a1 a2 s) := by
  unfold bumpFnBy
  repeat' (with_reducible first | assumption | intro _ | apply setFn_good)

theorem bumpFn_good {q : List Instr} (a0) (a1) {s : State} (h : Good q s) : Good q (bumpFn a0 a1 s) := by
  unfold bumpFn
  repeat' (with_reducible first | assumption | intro _ | apply bumpFnBy_good | split)

/-! ### Machine/HostBase.lean -/

theorem countTlp_good {q : List Instr} (a0) {s : State} (h : Good q s) : Good q (countTlp a0 s) := by
  unfold countTlp
  repeat' (with_reducible first | assumption | intro _ | apply bumpHost_good | split)

theorem countRead_good {q : List Instr} (a0) (a1) {s : State} (h : Good q s) : Good q (countRead a0 a1 s) := by
  unfold countRead
  repeat' (with_reducible first | assumption | intro _ | apply bumpFnBy_good | apply bumpHost_good)

theorem countWrite_good {q : List Instr} (a0) (a1) {s : State} (h : Good q s) : Good q (countWrite a0 a1 s) := by
  unfold countWrite
  repeat' (with_reducible first | assumption | intro _ | apply bumpFnBy_good | apply bumpHost_good)

theorem sendVector_good {q : List Instr} (a0) (a1) {s : State} (h : Good q s) : Good q (sendVector a0 a1 s) := by
  unfold sendVector; dsimp only
  repeat'
    with_reducible first
      | assumption | intro _ | apply emit_good | apply bumpG15_good | apply bumpFn_good | apply countTlp_good
      | refine keep_ite ?_ ?_

theorem raiseVector_good {q : List Instr} (a0) (a1) {s : State} (h : Good q s) : Good q (raiseVector a0 a1 s) := by
  unfold raiseVector; dsimp only
  repeat'
    with_reducible first
      | assumption | intro _ | apply setFn_good | apply sendVector_good | refine keep_ite ?_ ?_

theorem flushVectors_good {q : List Instr} (a0) {s : State} (h : Good q s) : Good q (flushVectors a0 s) := by
  unfold flushVectors; dsimp only
  repeat'
    with_reducible first
      | assumption | intro _ | apply sendVector_good | apply setFn_good | apply good_foldSt | refine keep_ite ?_ ?_

theorem sendReads_good {q : List Instr} (k n : Nat) {s : State} (h : Good q s) : Good q (sendReads k n s) := by
  induction n generalizing s with
  | zero => exact h
  | succ n ih =>
    unfold sendReads; dsimp only
    split
    · exact h
    · refine keep_ite h (keep_ite (ih (later_good _ (good_upd.2 h))) ?_)
      split
      · exact h
      · exact ih (emit_good _ (countTlp_good _ (setLink_good _ _ (good_upd.2 h))))

theorem pumpReads_good {q : List Instr} (a0) {s : State} (h : Good q s) : Good q (pumpReads a0 s) := by
  unfold pumpReads
  repeat' (with_reducible first | assumption | intro _ | apply sendReads_good | split)

theorem issueRead_good {q : List Instr} (a0) {s : State} (h : Good q s) : Good q (issueRead a0 s) := by
  unfold issueRead; dsimp only
  repeat' (with_reducible first | assumption | intro _ | simp only [good_upd] | apply pumpReads_good)

theorem issueWrite_good {q : List Instr} (a0) (a1) (a2) (a3) (a4) {s : State} (h : Good q s) :
    Good q (issueWrite a0 a1 a2 a3 a4 s) := by
  unfold issueWrite; dsimp only
  repeat'
    with_reducible first
      | assumption | intro _ | apply emit_good | apply countTlp_good | apply countWrite_good | apply good_foldSt

theorem zeroRead_good {q : List Instr} (a0) (a1) {s : State} (h : Good q s) : Good q (zeroRead a0 a1 s) := by
  unfold zeroRead
  repeat'
    with_reducible first
      | assumption | intro _ | apply later_good | apply issueRead_good | refine keep_ite ?_ ?_

/-! ### Machine/TransOps.lean -/

theorem setSpace_good {q : List Instr} (a0) (a1) {s : State} (h : Good q s) : Good q (setSpace a0 a1 s) := by
  unfold setSpace
  repeat' (with_reducible first | assumption | intro _ | simp only [good_upd] | split)

theorem setRec_good {q : List Instr} (a0) (a1) {s : State} (h : Good q s) : Good q (setRec a0 a1 s) := by
  unfold setRec
  repeat' (with_reducible first | assumption | intro _ | simp only [good_upd] | split)

theorem faultEvent_good {q : List Instr} (a0) (a1) (a2) (a3) (a4) {s : State} (h : Good q s) :
    Good q (faultEvent a0 a1 a2 a3 a4 s) := by
  unfold faultEvent
  repeat' (with_reducible first | assumption | intro _ | apply postEvent_good)

theorem releaseRec_good {q : List Instr} (a0) {s : State} (h : Good q s) : Good q (releaseRec a0 s) := by
  unfold releaseRec
  repeat' (with_reducible first | assumption | intro _ | apply setRec_good | split)

theorem failAcc_good {q : List Instr} (a0) (a1) (a2) (a3) {s : State} (h : Good q s) :
    Good q (failAcc a0 a1 a2 a3 s) := by
  unfold failAcc; dsimp only
  repeat' (with_reducible first | assumption | intro _ | apply later_good | apply faultEvent_good)

theorem followOn_good {q : List Instr} (a0) {s : State} (h : Good q s) : Good q (followOn a0 s) := by
  unfold followOn
  repeat' (with_reducible first | assumption | intro _ | apply later_good | refine keep_ite ?_ ?_ | split)

theorem holdAcc_good {q : List Instr} (a0) (a1) (a2) (a3) {s : State} (h : Good q s) :
    Good q (holdAcc a0 a1 a2 a3 s) := by
  unfold holdAcc; dsimp only
  repeat'
    with_reducible first
      | assumption | intro _ | apply bump_good | apply setRec_good | apply postEvent_good | apply setSpace_good
      | apply failAcc_good | apply draw_good | apply faultEvent_good | apply good_when | apply good2_mk
      | refine good2_eq (by assumption) ?_ | refine good2_snd (p := draw _ _) ?_ | refine keep_ite ?_ ?_ | split

theorem deadSpace_good {q : List Instr} (a0) {s : State} (h : Good q s) : Good q (deadSpace a0 s) := by
  unfold deadSpace
  repeat' (with_reducible first | assumption | intro _ | apply later_good | apply bump_good | apply followOn_good)

theorem accFault_good {q : List Instr} (a0) (a1) (a2) (a3) {s : State} (h : Good q s) :
    Good q (accFault a0 a1 a2 a3 s) := by
  unfold accFault; dsimp only
  repeat'
    with_reducible first
      | assumption | intro _ | simp only [good_upd] | apply deadSpace_good | apply bump_good | apply followOn_good
      | apply failAcc_good | apply holdAcc_good | apply postEvent_good | refine keep_ite ?_ ?_ | split

theorem performAcc_good {q : List Instr} (a0) (a1) {s : State} (h : Good q s) : Good q (performAcc a0 a1 s) := by
  unfold performAcc; dsimp only
  repeat'
    with_reducible first
      | assumption | intro _ | apply followOn_good | apply later_good | apply issueWrite_good | apply issueRead_good
      | refine keep_ite ?_ ?_ | split

theorem useLeaf_good {q : List Instr} (a0) (a1) {s : State} (h : Good q s) : Good q (useLeaf a0 a1 s) := by
  unfold useLeaf
  repeat'
    with_reducible first
      | assumption | intro _ | apply accFault_good | apply performAcc_good | refine keep_ite ?_ ?_ | split

theorem cachePut_good {q : List Instr} {α : Type} (n : Nat) (x : α) (l : List α) {s : State} (h : Good q s) :
    Good2 q (cachePut n x l s) := good2_mk (draw_good n h)

theorem tlbPut_good {q : List Instr} (a0) (a1) (a2) {s : State} (h : Good q s) : Good q (tlbPut a0 a1 a2 s) := by
  unfold tlbPut; dsimp only
  repeat'
    with_reducible first
      | assumption | intro _ | simp only [good_upd] | apply cachePut_good | apply good2_mk
      | refine good2_eq (by assumption) ?_ | refine good2_snd (p := cachePut _ _ _ _) ?_

theorem walkPut_good {q : List Instr} (a0) (a1) (a2) (a3) {s : State} (h : Good q s) :
    Good q (walkPut a0 a1 a2 a3 s) := by
  unfold walkPut; dsimp only
  repeat'
    with_reducible first
      | assumption | intro _ | simp only [good_upd] | apply cachePut_good | apply good2_mk
      | refine good2_eq (by assumption) ?_ | refine good2_snd (p := cachePut _ _ _ _) ?_

theorem readEntry_good {q : List Instr} (a0) (a1) (a2) {s : State} (h : Good q s) :
    Good q (readEntry a0 a1 a2 s) := by
  unfold readEntry; dsimp only
  repeat'
    with_reducible first
      | assumption | intro _ | apply accFault_good | apply issueRead_good | apply bump_good | refine keep_ite ?_ ?_

theorem walkFrom_good {q : List Instr} (a0) {s : State} (h : Good q s) : Good q (walkFrom a0 s) := by
  unfold walkFrom
  repeat' (with_reducible first | assumption | intro _ | apply readEntry_good | refine keep_ite ?_ ?_ | split)

theorem preCheck_good {q : List Instr} (a0) {f1} (hf1 : ∀ x0, Good q x0 → Good q (f1 x0)) {s : State} (h : Good q s) :
    Good q (preCheck a0 f1 s) := by
  unfold preCheck
  repeat'
    with_reducible first
      | assumption | intro _ | apply hf1 | apply deadSpace_good | apply accFault_good | refine keep_ite ?_ ?_

theorem startAcc_good {q : List Instr} (a0) {s : State} (h : Good q s) : Good q (startAcc a0 s) := by
  unfold startAcc
  repeat'
    with_reducible first
      | assumption | intro _ | apply preCheck_good | apply useLeaf_good | apply bump_good | apply walkFrom_good
      | refine keep_ite ?_ ?_ | split

theorem freshWalk_good {q : List Instr} (a0) {s : State} (h : Good q s) : Good q (freshWalk a0 s) := by
  unfold freshWalk
  repeat' (with_reducible first | assumption | intro _ | apply preCheck_good | apply readEntry_good)

theorem walkNext_good {q : List Instr} (a0) {s : State} (h : Good q s) : Good q (walkNext a0 s) := by
  unfold walkNext
  repeat'
    with_reducible first
      | assumption | intro _ | simp only [good_upd] | apply freshWalk_good | refine keep_ite ?_ ?_ | split

theorem entryRead_good {q : List Instr} (a0) (a1) (a2) {s : State} (h : Good q s) :
    Good q (entryRead a0 a1 a2 s) := by
  unfold entryRead; dsimp only
  repeat'
    with_reducible first
      | assumption | intro _ | apply accFault_good | apply useLeaf_good | apply tlbPut_good | apply readEntry_good
      | apply walkPut_good | apply good_when | refine keep_ite ?_ ?_

theorem readCompletion_good {q : List Instr} (a0) (a1) {s : State} (h : Good q s) :
    Good q (readCompletion a0 a1 s) := by
  unfold readCompletion; dsimp only
  repeat'
    with_reducible first
      | assumption | intro _ | simp only [good_upd] | apply countRead_good | apply later_good | apply freshWalk_good
      | apply startAcc_good | apply entryRead_good | apply accFault_good | refine keep_ite ?_ ?_ | split

theorem partEnds_good {q : List Instr} (a0) {s : State} (h : Good q s) : Good q (partEnds a0 s) := by
  unfold partEnds
  repeat' (with_reducible first | assumption | intro _ | apply readCompletion_good | refine keep_ite ?_ ?_ | split)

theorem invalidate_good {q : List Instr} (a0) (a1) (a2) (a3) (a4) (a5) (a6) (a7) {s : State} (h : Good q s) :
    Good q (invalidate a0 a1 a2 a3 a4 a5 a6 a7 s) := by
  unfold invalidate; dsimp only
  repeat' (with_reducible first | assumption | intro _ | simp only [good_upd] | refine keep_ite ?_ ?_ | split)

theorem faultResume_good {q : List Instr} (a0) (a1) {s : State} (h : Good q s) : Good q (faultResume a0 a1 s) := by
  unfold faultResume; dsimp only
  repeat'
    with_reducible first
      | assumption | intro _ | simp only [good_upd] | apply bump_good | apply freshWalk_good | apply releaseRec_good
      | apply walkNext_good | apply good_foldSt | refine keep_ite ?_ ?_ | apply good_id | split

theorem faultFail_good {q : List Instr} (a0) (a1) {s : State} (h : Good q s) : Good q (faultFail a0 a1 s) := by
  unfold faultFail
  repeat'
    with_reducible first
      | assumption | intro _ | apply bump_good | apply later_good | apply releaseRec_good | apply good_foldSt
      | refine keep_ite ?_ ?_ | apply good_id | split

theorem transEffect_good {q : List Instr} (a0) {s : State} (h : Good q s) : Good q (transEffect a0 s) := by
  unfold transEffect; dsimp only
  repeat'
    with_reducible first
      | assumption | intro _ | apply invalidate_good | apply faultResume_good | apply faultFail_good
      | refine keep_ite ?_ ?_

theorem transCommand_good {q : List Instr} (a0) (a1) {s : State} (h : Good q s) : Good q (transCommand a0 a1 s) := by
  unfold transCommand; dsimp only
  repeat'
    with_reducible first
      | assumption | intro _ | simp only [good_upd] | apply bump_good | apply transEffect_good
      | refine keep_ite ?_ ?_

theorem releaseHeld_good {q : List Instr} (i : Nat) (n : Nat) {s : State} (h : Good q s) : Good q (releaseHeld i n s) := by
  induction n generalizing s with
  | zero => exact h
  | succ n ih =>
    unfold releaseHeld; split
    · exact h
    · split
      · refine ih (keep_ite (P := fun f : State → State => Good q (f _)) ?_ ?_)
        · exact transEffect_good _ (good_upd.2 h)
        · exact bump_good _ _ (good_upd.2 h)
      · exact h

theorem invalidateDone_good {q : List Instr} (a0) {s : State} (h : Good q s) : Good q (invalidateDone a0 s) := by
  unfold invalidateDone; dsimp only
  repeat'
    with_reducible first
      | assumption | intro _ | simp only [good_upd] | apply bump_good | apply postEvent_good
      | apply releaseHeld_good | refine keep_ite ?_ ?_ | split

theorem discardCaches_good {q : List Instr} (a0) {s : State} (h : Good q s) : Good q (discardCaches a0 s) := by
  unfold discardCaches
  repeat' (with_reducible first | assumption | intro _ | simp only [good_upd] | split)

theorem closeSpace_good {q : List Instr} (a0) {s : State} (h : Good q s) : Good q (closeSpace a0 s) := by
  unfold closeSpace
  repeat' (with_reducible first | assumption | intro _ | apply setSpace_good | apply discardCaches_good)

theorem closeDying_good {q : List Instr} {s : State} (h : Good q s) : Good q (closeDying s) := by
  unfold closeDying
  repeat'
    with_reducible first
      | assumption | intro _ | apply closeSpace_good | apply good_foldSt | refine keep_ite ?_ ?_

theorem asCommand_good {q : List Instr} (a0) (a1) {s : State} (h : Good q s) : Good q (asCommand a0 a1 s) := by
  unfold asCommand; dsimp only
  repeat'
    with_reducible first
      | assumption | intro _ | apply bump_good | apply setSpace_good | apply discardCaches_good
      | apply invalidate_good | apply closeSpace_good | refine keep_ite ?_ ?_ | split

theorem asCloseComplete_good {q : List Instr} (a0) {s : State} (h : Good q s) : Good q (asCloseComplete a0 s) := by
  unfold asCloseComplete
  repeat' (with_reducible first | assumption | intro _ | apply setSpace_good | refine keep_ite ?_ ?_ | split)

theorem dropWaiters_good {q : List Instr} (a0) {s : State} (h : Good q s) : Good q (dropWaiters a0 s) := by
  unfold dropWaiters; dsimp only
  repeat'
    with_reducible first
      | assumption | intro _ | simp only [good_upd] | apply releaseRec_good | apply setRec_good | apply good_foldSt
      | refine keep_ite ?_ ?_

theorem takeWaiter_good {q : List Instr} (a0) (a1) {s : State} (h : Good q s) : Good q (takeWaiter a0 a1 s) := by
  unfold takeWaiter; dsimp only
  repeat'
    with_reducible first
      | assumption | intro _ | apply releaseRec_good | apply setRec_good | refine keep_ite ?_ ?_

theorem localWaitExpiry_good {q : List Instr} (a0) {s : State} (h : Good q s) : Good q (localWaitExpiry a0 s) := by
  unfold localWaitExpiry; dsimp only
  repeat'
    with_reducible first
      | assumption | intro _ | apply later_good | apply takeWaiter_good | refine keep_ite ?_ ?_ | split

/-! ### Machine/QueueOps.lean -/

theorem pump_good {q : List Instr} (a0) {s : State} (h : Good q s) : Good q (pump a0 s) := by
  unfold pump; dsimp only
  repeat'
    with_reducible first
      | assumption | intro _ | apply later_good | apply setQueue_good | refine keep_ite ?_ ?_ | split

theorem appendPending_good {q : List Instr} (a0) (a1) {s : State} (h : Good q s) :
    Good q (appendPending a0 a1 s) := by
  unfold appendPending
  repeat' (with_reducible first | assumption | intro _ | apply pump_good | apply setQueue_good)

theorem appendEntry_good {q : List Instr} (a0) (a1) (a2) {s : State} (h : Good q s) :
    Good q (appendEntry a0 a1 a2 s) := by
  unfold appendEntry
  repeat' (with_reducible first | assumption | intro _ | apply appendPending_good | split)

theorem raiseQueue_good {q : List Instr} (a0) {s : State} (h : Good q s) : Good q (raiseQueue a0 s) := by
  unfold raiseQueue; dsimp only
  repeat' (with_reducible first | assumption | intro _ | apply raiseVector_good | apply setQueue_good)

theorem afterEntry_good {q : List Instr} (a0) (a1) {s : State} (h : Good q s) : Good q (afterEntry a0 a1 s) := by
  unfold afterEntry; dsimp only
  repeat'
    with_reducible first
      | assumption | intro _ | apply raiseQueue_good | apply setQueue_good | refine keep_ite ?_ ?_

theorem moderationTimeout_good {q : List Instr} (a0) {s : State} (h : Good q s) :
    Good q (moderationTimeout a0 s) := by
  unfold moderationTimeout; dsimp only
  repeat' (with_reducible first | assumption | intro _ | apply raiseQueue_good | refine keep_ite ?_ ?_ | split)

theorem queueEvent_good {q : List Instr} (a0) (a1) (a2) (a3) (a4) {s : State} (h : Good q s) :
    Good q (queueEvent a0 a1 a2 a3 a4 s) := by
  unfold queueEvent; dsimp only
  repeat'
    with_reducible first
      | assumption | intro _ | apply bump_good | apply postEvent_good | refine keep_ite ?_ ?_

theorem eventArrive_good {q : List Instr} (a0) (a1) (a2) (a3) (a4) (a5) {s : State} (h : Good q s) :
    Good q (eventArrive a0 a1 a2 a3 a4 a5 s) := by
  unfold eventArrive; dsimp only
  repeat'
    with_reducible first
      | assumption | intro _ | apply bump_good | apply bumpFn_good | apply setQueue_good | apply appendEntry_good
      | refine keep_ite ?_ ?_

theorem releaseSlots_good {q : List Instr} (a0) (a1) {s : State} (h : Good q s) : Good q (releaseSlots a0 a1 s) := by
  unfold releaseSlots
  repeat' (with_reducible first | assumption | intro _ | apply setQueue_good | split)

theorem writeCompletion_good {q : List Instr} (a0) (a1) (a2) (a3) (a4) (a5) (a6) (a7) (a8) {s : State} (h : Good q s) :
    Good q (writeCompletion a0 a1 a2 a3 a4 a5 a6 a7 a8 s) := by
  unfold writeCompletion; dsimp only
  repeat' (with_reducible first | assumption | intro _ | apply appendPending_good | refine keep_ite ?_ ?_ | split)

theorem recvDone_good {q : List Instr} (a0) (a1) (a2) (a3) (a4) (a5) {s : State} (h : Good q s) :
    Good q (recvDone a0 a1 a2 a3 a4 a5 s) := by
  unfold recvDone; dsimp only
  repeat'
    with_reducible first
      | assumption | intro _ | apply releaseSlots_good | apply later_good | apply writeCompletion_good
      | refine keep_ite ?_ ?_ | split

theorem adminDone_good {q : List Instr} (a0) (a1) (a2) {s : State} (h : Good q s) :
    Good q (adminDone a0 a1 a2 s) := by
  unfold adminDone
  repeat' (with_reducible first | assumption | intro _ | apply complete_good | split)

theorem adminHalt_good {q : List Instr} (a0) (a1) (a2) {s : State} (h : Good q s) :
    Good q (adminHalt a0 a1 a2 s) := by
  unfold adminHalt; dsimp only
  repeat' (with_reducible first | assumption | intro _ | apply setFn_good | apply raiseVector_good | apply good_when)

theorem haltQueue_good {q : List Instr} (a0) (a1) (a2) (a3) {s : State} (h : Good q s) :
    Good q (haltQueue a0 a1 a2 a3 s) := by
  unfold haltQueue; dsimp only
  repeat'
    with_reducible first
      | assumption | intro _ | apply releaseSlots_good | apply setQueue_good | apply bump_good
      | apply adminHalt_good | apply queueEvent_good | apply adminDone_good | apply good_when
      | refine keep_ite ?_ ?_ | split

theorem haltEntry_good {q : List Instr} (a0) (a1) (a2) (a3) {s : State} (h : Good q s) :
    Good q (haltEntry a0 a1 a2 a3 s) := by
  unfold haltEntry
  repeat' (with_reducible first | assumption | intro _ | apply haltQueue_good | apply setQueue_good)

theorem fetchNext_good {q : List Instr} (a0) {s : State} (h : Good q s) : Good q (fetchNext a0 s) := by
  unfold fetchNext; dsimp only
  repeat' (with_reducible first | assumption | intro _ | apply later_good | refine keep_ite ?_ ?_ | split)

theorem visit_good {q : List Instr} (a0) {s : State} (h : Good q s) : Good q (visit a0 s) := by
  unfold visit; dsimp only
  repeat' (with_reducible first | assumption | intro _ | apply setQueue_good | apply fetchNext_good)

/-- Of an optional pair. -/
def GoodOpt {α : Type} (q : List Instr) (o : Option (α × State)) : Prop := ∀ x, o = some x → Good q x.2

theorem goodOpt_or {q : List Instr} {α : Type} {a b : Option (α × State)} (h1 : GoodOpt q a) (h2 : GoodOpt q b) :
    GoodOpt q (a.or b) := by
  cases a with
  | none => simpa using h2
  | some x => intro y e; exact h1 y (by simpa using e)

theorem goodOpt_map {q : List Instr} {α β : Type} {f : α → β × State} {o : Option α} (h : ∀ x, Good q (f x).2) :
    GoodOpt q (o.map f) := by
  intro y e
  obtain ⟨x, _, rfl⟩ := Option.map_eq_some_iff.1 e
  exact h x

theorem nextData_good {q : List Instr} (el : List (Nat × Queue)) (n k : Nat) {s : State} (h : Good q s) :
    GoodOpt q (nextData s el n k) := by
  unfold nextData; dsimp only
  repeat' with_reducible split
  · intro x e; cases e
  · intro x e; cases e
  · intro x e; rw [← Option.some.inj e]; exact good_upd.2 h

theorem fetchVisit_good {q : List Instr} {s : State} (h : Good q s) : Good q (fetchVisit s) := by
  have ha : ∀ (el : List (Nat × Queue)) f0, GoodOpt q ((nextAdminFn el f0).map fun x =>
      (x.2, { s with qm := { s.qm with aturn := some (x.1 + 1) } })) :=
    fun _ _ => goodOpt_map fun _ => good_upd.2 h
  unfold fetchVisit; dsimp only
  split
  · rename_i e
    refine visit_good _ (goodOpt_or ?_ (goodOpt_or (ha _ _) (nextData_good _ _ _ h)) _ e)
    split
    · exact goodOpt_or (ha _ _) (nextData_good _ _ _ h)
    · exact nextData_good _ _ _ h
  · exact h

theorem accept_good {q : List Instr} (a0) (a1) (a2) {s : State} (h : Good q s) : Good q (accept a0 a1 a2 s) := by
  unfold accept; dsimp only
  repeat'
    with_reducible first
      | assumption | intro _ | simp only [good_upd] | apply bumpG15_good | apply bumpFn_good | apply setQueue_good
      | apply fetchNext_good | refine keep_ite ?_ ?_

theorem readFrag_good {q : List Instr} (a0) (a1) (a2) {s : State} (h : Good q s) : Good q (readFrag a0 a1 a2 s) := by
  unfold readFrag
  repeat' (with_reducible first | assumption | intro _ | apply later_good | split)

theorem ringRead_good {q : List Instr} (a0) (a1) (a2) (a3) {s : State} (h : Good q s) :
    Good q (ringRead a0 a1 a2 a3 s) := by
  unfold ringRead; dsimp only
  repeat'
    with_reducible first
      | assumption | intro _ | apply haltEntry_good | apply readFrag_good | apply setQueue_good | apply accept_good
      | refine keep_ite ?_ ?_ | split

theorem fragRead_good {q : List Instr} (a0) (a1) (a2) (a3) {s : State} (h : Good q s) :
    Good q (fragRead a0 a1 a2 a3 s) := by
  unfold fragRead; dsimp only
  repeat'
    with_reducible first
      | assumption | intro _ | apply haltEntry_good | apply readFrag_good | apply setQueue_good | apply accept_good
      | refine keep_ite ?_ ?_ | split

theorem entryWritten_good {q : List Instr} (a0) (a1) (a2) (a3) {s : State} (h : Good q s) :
    Good q (entryWritten a0 a1 a2 a3 s) := by
  unfold entryWritten; dsimp only
  repeat'
    with_reducible first
      | assumption | intro _ | apply later_good | apply setQueue_good | apply bumpG15_good | apply bumpFn_good
      | apply pump_good | apply afterEntry_good | apply haltQueue_good | refine keep_ite ?_ ?_ | split

theorem markDone_good {q : List Instr} (a0) (a1) (a2) {s : State} (h : Good q s) : Good q (markDone a0 a1 a2 s) := by
  unfold markDone
  repeat' (with_reducible first | assumption | intro _ | apply setQueue_good | split)

theorem dropHandles_good {q : List Instr} (a0) (a1) {s : State} (h : Good q s) : Good q (dropHandles a0 a1 s) := by
  unfold dropHandles
  repeat' (with_reducible first | assumption | intro _ | simp only [good_upd] | split)

theorem retireOne_good {q : List Instr} (a0) {s : State} (h : Good q s) : Good q (retireOne a0 s) := by
  unfold retireOne; dsimp only
  repeat'
    with_reducible first
      | assumption | intro _ | apply dropHandles_good | apply setQueue_good | apply releaseSlots_good
      | apply writeCompletion_good | refine keep_ite ?_ ?_ | split

theorem doorbellDiscard_good {q : List Instr} (a0) {s : State} (h : Good q s) : Good q (doorbellDiscard a0 s) := by
  unfold doorbellDiscard
  repeat' (with_reducible first | assumption | intro _ | apply bumpFn_good | apply bump_good)

theorem doorbellIgnore_good {q : List Instr} (a0) {s : State} (h : Good q s) : Good q (doorbellIgnore a0 s) := by
  unfold doorbellIgnore
  repeat' (with_reducible first | assumption | intro _ | apply bumpFn_good | apply bump_good)

theorem atSlot_good {q : List Instr} (a0) (a1) {f2} (hf2 : ∀ x0 x1, Good q x1 → Good q (f2 x0 x1)) {s : State} (h : Good q s) :
    Good q (atSlot a0 a1 f2 s) := by
  unfold atSlot; dsimp only
  repeat'
    with_reducible first
      | assumption | intro _ | apply hf2 | apply bumpHost_good | apply doorbellDiscard_good | refine keep_ite ?_ ?_
      | split

theorem doorbellTail_good {q : List Instr} (a0) (a1) (a2) (a3) (a4) {s : State} (h : Good q s) :
    Good q (doorbellTail a0 a1 a2 a3 a4 s) := by
  unfold doorbellTail; dsimp only
  repeat'
    with_reducible first
      | assumption | intro _ | apply doorbellIgnore_good | apply haltQueue_good | apply bumpFn_good
      | apply bump_good | apply setQueue_good | refine keep_ite ?_ ?_

theorem headTo_good {q : List Instr} (a0) (a1) {s : State} (h : Good q s) : Good q (headTo a0 a1 s) := by
  unfold headTo; dsimp only
  repeat'
    with_reducible first
      | assumption | intro _ | apply setQueue_good | apply appendEntry_good | refine keep_ite ?_ ?_

theorem doorbellHead_good {q : List Instr} (a0) (a1) (a2) (a3) (a4) (a5) {s : State} (h : Good q s) :
    Good q (doorbellHead a0 a1 a2 a3 a4 a5 s) := by
  unfold doorbellHead; dsimp only
  repeat'
    with_reducible first
      | assumption | intro _ | apply doorbellIgnore_good | apply bumpFn_good | apply headTo_good
      | apply setQueue_good | apply raiseQueue_good | refine keep_ite ?_ ?_

theorem keyRightsWrite_good {q : List Instr} (a0) (a1) (a2) (a3) (a4) {s : State} (h : Good q s) :
    Good q (keyRightsWrite a0 a1 a2 a3 a4 s) := by
  unfold keyRightsWrite; dsimp only
  repeat'
    with_reducible first
      | assumption | intro _ | apply bumpFn_good | apply bump_good | apply setQueue_good | refine keep_ite ?_ ?_

/-! ### Machine/CtxMem.lean -/

theorem setStack_good {q : List Instr} (a0) (a1) {s : State} (h : Good q s) : Good q (setStack a0 a1 s) := by
  unfold setStack
  repeat' (with_reducible first | assumption | intro _ | simp only [good_upd, good_updCm])

theorem breakResv_good {q : List Instr} (g : Granule) {s : State} (h : Good q s) : Good q (breakResv g s) := by
  refine Good.mkMe h fun h => ⟨enginesOk_map h.engines (fun _ => rfl) fun e he => ?_, h.cmem⟩
  refine ⟨mwfFrom_map (f := fun c : Nat × ECtx => (c.1, if c.2.resv == some g then { c.2 with resv := none } else c.2))
    (fun _ => rfl) he.ctxs, ?_, he.ldm, he.imem⟩
  have := he.regs
  simp only [List.all_map, List.all_eq_true, Function.comp_def] at this ⊢
  intro c hc
  have := this c hc
  split <;> exact this

theorem cmRecord_good {q : List Instr} (a0) (a1) (a2) (a3) {s : State} (h : Good q s) :
    Good q (cmRecord a0 a1 a2 a3 s) := by
  unfold cmRecord; dsimp only
  repeat' (with_reducible first | assumption | intro _ | simp only [good_upd, good_updCm])

theorem poisonGranule_good {q : List Instr} (a0) (a1) {s : State} (h : Good q s) :
    Good q (poisonGranule a0 a1 s) := by
  unfold poisonGranule; dsimp only
  repeat'
    with_reducible first
      | assumption | intro _ | apply setStack_good | apply later_good | apply cmRecord_good | apply bump_good
      | apply good_when

theorem clearGranule_good {q : List Instr} (a0) {s : State} (h : Good q s) : Good q (clearGranule a0 s) := by
  unfold clearGranule
  repeat' (with_reducible first | assumption | intro _ | apply setStack_good | split)

theorem readGranule_good {q : List Instr} (a0) (a1) (a2) {s : State} (h : Good q s) :
    Good2 q (readGranule a0 a1 a2 s) := by
  unfold readGranule; dsimp only
  repeat'
    with_reducible first
      | assumption | intro _ | apply bumpStack_good | apply cmRecord_good | apply bump_good
      | apply poisonGranule_good | apply good2_mk | refine good2_eq (by assumption) ?_ | refine keep_ite ?_ ?_
      | split

theorem readGranules_good {q : List Instr} (l : List Nat) (src : Nat) (ecc : List Ecc) {s : State} (h : Good q s) :
    Good2 q (readGranules l src ecc s) := by
  induction l generalizing s ecc with
  | nil => exact h
  | cons g r ih => exact ih _ (readGranule_good g src _ h)

theorem cmRead_good {q : List Instr} (off n : Nat) (ecc : List Ecc) {s : State} (h : Good q s) : Good3 q (cmRead off n ecc s) :=
  readGranules_good _ _ _ h

theorem cmPut_good {q : List Instr} (a : Nat) (bs : List Byte) {s : State} (h : Good q s) :
    Good q { s with cm := { s.cm with bytes := memWrite s.cm.bytes a bs } } :=
  Good.mkCm h fun h => ⟨Memory.wf_memWrite _ _ h.bytes⟩

theorem writeGranule_good {q : List Instr} (g off : Nat) (bs : List Byte) (ecc : Ecc) {s : State} (h : Good q s) :
    Good q (writeGranule g off bs ecc s) := by
  unfold writeGranule
  dsimp only
  have hb := bumpStack_good (granStack g) 2 1 h
  repeat' with_reducible split
  · exact h
  · exact bumpStack_good _ _ _ (clearGranule_good _ (cmPut_good _ _ h))
  · exact cmRecord_good _ _ _ _ (bump_good _ _ hb)
  · exact cmPut_good _ _ hb
  · exact cmPut_good _ _ (cmRecord_good _ _ _ _ (bump_good _ _ hb))
  · exact cmRecord_good _ _ _ _ (bump_good _ _ (poisonGranule_good _ _ hb))

theorem writeGranules_good {q : List Instr} (l : List Nat) (off : Nat) (bs : List Byte) (ecc : List Ecc) {s : State}
    (h : Good q s) : Good q (writeGranules l off bs ecc s) := by
  induction l generalizing s ecc with
  | nil => exact h
  | cons g r ih => exact ih _ (writeGranule_good g off bs _ h)

theorem breakRange_good {q : List Instr} (a0) (a1) {s : State} (h : Good q s) : Good q (breakRange a0 a1 s) := by
  unfold breakRange
  repeat'
    with_reducible first
      | assumption | intro _ | apply breakResv_good | apply good_forRange | refine keep_ite ?_ ?_

theorem cmWrite_good {q : List Instr} (a0) (a1) (a2) {s : State} (h : Good q s) : Good q (cmWrite a0 a1 a2 s) := by
  unfold cmWrite
  repeat' (with_reducible first | assumption | intro _ | apply breakRange_good | apply writeGranules_good)

theorem cmWritePoison_good {q : List Instr} (a0) (a1) {s : State} (h : Good q s) :
    Good q (cmWritePoison a0 a1 s) := by
  unfold cmWritePoison
  repeat'
    with_reducible first
      | assumption | intro _ | apply breakRange_good | apply later_good | apply setStack_good | apply good_foldSt
      | refine keep_ite ?_ ?_

theorem mirrorPlaced_good {q : List Instr} {s : State} (h : Good q s) : Good q (mirrorPlaced s) := by
  unfold mirrorPlaced
  repeat' (with_reducible first | assumption | intro _ | simp only [good_upd, good_updCm])

theorem clearSome_good {q : List Instr} (l : List Nat) (n : Nat) {s : State} (h : Good q s) : Good q (clearSome l n s) := by
  induction l generalizing n s with
  | nil => unfold clearSome; exact h
  | cons g r ih =>
    cases n with
    | zero => unfold clearSome; exact h
    | succ n =>
      unfold clearSome
      exact keep_ite (ih _ (clearGranule_good _ (good2_snd (draw_good 2 h)))) (ih _ (good2_snd (draw_good 2 h)))

theorem poolWrote_good {q : List Instr} (a0) (a1) (a2) {s : State} (h : Good q s) :
    Good q (poolWrote a0 a1 a2 s) := by
  unfold poolWrote
  repeat' (with_reducible first | assumption | intro _ | apply clearSome_good | split)

/-! ### Machine/QueueAdmin.lean -/

theorem adminStart_good {q : List Instr} (a0) (a1) {f2} (hf2 : ∀ x0 x1 x2, Good q x2 → Good q (f2 x0 x1 x2)) {s : State} (h : Good q s) :
    Good q (adminStart a0 a1 f2 s) := by
  unfold adminStart; dsimp only
  repeat'
    with_reducible first
      | assumption | intro _ | apply hf2 | apply markStarted_good | refine keep_ite ?_ ?_ | split

theorem onTarget_good {q : List Instr} (a0) (a1) (a2) (a3) (a4) {f5} (hf5 : ∀ x0 x1 x2, Good q x2 → Good q (f5 x0 x1 x2)) {s : State} (h : Good q s) :
    Good q (onTarget a0 a1 a2 a3 a4 f5 s) := by
  unfold onTarget; dsimp only
  repeat' (with_reducible first | assumption | intro _ | apply hf5 | apply adminDone_good | refine keep_ite ?_ ?_)

theorem placeStack_good {q : List Instr} {s : State} (h : Good q s) : Good2 q (placeStack s) := by
  unfold placeStack
  repeat'
    with_reducible first
      | assumption | intro _ | apply draw_good | apply good2_mk | refine good2_eq (by assumption) ?_
      | refine good2_snd (p := draw _ _) ?_ | refine keep_ite ?_ ?_ | split

theorem queueCreate_good {q : List Instr} (a0) {s : State} (h : Good q s) : Good q (queueCreate a0 s) := by
  unfold queueCreate; dsimp only
  repeat'
    with_reducible first
      | assumption | intro _ | apply adminStart_good | apply adminDone_good | apply placeStack_good
      | apply setQueue_good | apply good2_mk | refine good2_eq (by assumption) ?_
      | refine good2_snd (p := placeStack _) ?_ | refine keep_ite ?_ ?_

theorem queueResize_good {q : List Instr} (a0) {s : State} (h : Good q s) : Good q (queueResize a0 s) := by
  unfold queueResize; dsimp only
  repeat'
    with_reducible first
      | assumption | intro _ | apply adminStart_good | apply onTarget_good | apply adminDone_good
      | apply setQueue_good | apply pump_good | refine keep_ite ?_ ?_

theorem queueHalt_good {q : List Instr} (a0) {s : State} (h : Good q s) : Good q (queueHalt a0 s) := by
  unfold queueHalt
  repeat'
    with_reducible first
      | assumption | intro _ | apply adminStart_good | apply onTarget_good | apply adminDone_good
      | apply haltQueue_good | refine keep_ite ?_ ?_

theorem queueDrain_good {q : List Instr} (a0) {s : State} (h : Good q s) : Good q (queueDrain a0 s) := by
  unfold queueDrain
  repeat'
    with_reducible first
      | assumption | intro _ | apply adminStart_good | apply onTarget_good | apply adminDone_good
      | apply setQueue_good | refine keep_ite ?_ ?_

theorem drainEnd_good {q : List Instr} (a0) {s : State} (h : Good q s) : Good q (drainEnd a0 s) := by
  unfold drainEnd; dsimp only
  repeat'
    with_reducible first
      | assumption | intro _ | apply adminDone_good | apply haltQueue_good | apply setQueue_good
      | refine keep_ite ?_ ?_ | split

theorem resume_good {q : List Instr} (a0) (a1) {s : State} (h : Good q s) : Good q (resume a0 a1 s) := by
  unfold resume; dsimp only
  repeat'
    with_reducible first
      | assumption | intro _ | apply setQueue_good | apply recvDone_good | apply pump_good | refine keep_ite ?_ ?_

theorem queueResume_good {q : List Instr} (a0) (a1) {s : State} (h : Good q s) : Good q (queueResume a0 a1 s) := by
  unfold queueResume; dsimp only
  repeat'
    with_reducible first
      | assumption | intro _ | apply adminStart_good | apply onTarget_good | apply adminDone_good
      | apply resume_good | refine keep_ite ?_ ?_

theorem queueQuery_good {q : List Instr} (a0) {s : State} (h : Good q s) : Good q (queueQuery a0 s) := by
  unfold queueQuery
  repeat'
    with_reducible first
      | assumption | intro _ | apply adminStart_good | apply onTarget_good | apply adminDone_good | apply later_good
      | refine keep_ite ?_ ?_

theorem queryWritten_good {q : List Instr} (a0) (a1) (a2) {s : State} (h : Good q s) :
    Good q (queryWritten a0 a1 a2 s) := by
  unfold queryWritten
  repeat' (with_reducible first | assumption | intro _ | apply adminDone_good | split)

theorem queueModify_good {q : List Instr} (a0) {s : State} (h : Good q s) : Good q (queueModify a0 s) := by
  unfold queueModify; dsimp only
  repeat'
    with_reducible first
      | assumption | intro _ | apply adminStart_good | apply onTarget_good | apply adminDone_good
      | apply setQueue_good | refine keep_ite ?_ ?_

end Sys2Proof.Machine
end

