-- ==== Sys2Proof/Laws/KeepFlow.lean ====
section
/-!
SUPPORT. Keeping the queue of commands and the canonical form: the image, power, routing, flow control, the base of remote access.
-/
namespace Sys2Proof.Machine

/-! ### Machine/FlowBase.lean -/

theorem setFlow_good {q : List Instr} (a0) (a1) {s : State} (h : Good q s) : Good q (setFlow a0 a1 s) := by
  unfold setFlow
  repeat' (with_reducible first | assumption | intro _ | simp only [good_upd] | split)

theorem setVc_good {q : List Instr} (a0) (a1) (a2) {s : State} (h : Good q s) : Good q (setVc a0 a1 a2 s) := by
  unfold setVc
  repeat' (with_reducible first | assumption | intro _ | apply setFlow_good | split)

theorem noteWait_good {q : List Instr} (a0) (a1) {s : State} (h : Good q s) : Good q (noteWait a0 a1 s) := by
  unfold noteWait; dsimp only
  repeat' (with_reducible first | assumption | intro _ | apply setFlow_good | apply good_when)

theorem enqueue_good {q : List Instr} (a0) (a1) (a2) (a3) {s : State} (h : Good q s) :
    Good q (enqueue a0 a1 a2 a3 s) := by
  unfold enqueue; dsimp only
  repeat'
    with_reducible first
      | assumption | intro _ | apply bump_good | apply noteWait_good | apply setFlow_good | apply good_when

theorem grantPools_good {q : List Instr} (a0) {s : State} (h : Good q s) : Good q (grantPools a0 s) := by
  unfold grantPools
  repeat' (with_reducible first | assumption | intro _ | apply setFlow_good)

theorem zeroCredits_good {q : List Instr} (a0) {s : State} (h : Good q s) : Good q (zeroCredits a0 s) := by
  unfold zeroCredits
  repeat' (with_reducible first | assumption | intro _ | apply setFlow_good | split)

theorem freeCells_good {q : List Instr} (a0) (a1) (a2) {s : State} (h : Good q s) :
    Good q (freeCells a0 a1 a2 s) := by
  unfold freeCells; dsimp only
  repeat' (with_reducible first | assumption | intro _ | apply setVc_good | split)

theorem poolChange_good {q : List Instr} (a0) (a1) (a2) (a3) {s : State} (h : Good q s) :
    Good q (poolChange a0 a1 a2 a3 s) := by
  unfold poolChange; dsimp only
  repeat'
    with_reducible first
      | assumption | intro _ | apply setFlow_good | apply setVc_good | refine keep_ite ?_ ?_

theorem leaveIngress_good {q : List Instr} (a0) (a1) {s : State} (h : Good q s) : Good q (leaveIngress a0 a1 s) := by
  unfold leaveIngress
  repeat' (with_reducible first | assumption | intro _ | apply freeCells_good | refine keep_ite ?_ ?_ | split)

theorem leaveQueued_good {q : List Instr} (a0) {s : State} (h : Good q s) : Good q (leaveQueued a0 s) := by
  unfold leaveQueued
  repeat' (with_reducible first | assumption | intro _ | apply leaveIngress_good | split)

theorem injectPacket_good {q : List Instr} (a0) {s : State} (h : Good q s) : Good q (injectPacket a0 s) := by
  unfold injectPacket
  repeat' (with_reducible first | assumption | intro _ | simp only [good_upd] | apply bumpG15_good)

theorem deliver_good {q : List Instr} (a0) {s : State} (h : Good q s) : Good q (deliver a0 s) := by
  unfold deliver
  repeat'
    with_reducible first
      | assumption | intro _ | simp only [good_upd] | apply later_good | apply bumpG15_good | apply good_when

/-! ### Machine/Image.lean -/

theorem setArea_good {q : List Instr} (a0) (a1) {s : State} (h : Good q s) : Good q (setArea a0 a1 s) := by
  unfold setArea
  repeat' (with_reducible first | assumption | intro _ | simp only [good_upd] | split)

theorem logWrite_good {q : List Instr} (a0) {s : State} (h : Good q s) : Good q (logWrite a0 s) := by
  unfold logWrite; dsimp only
  repeat'
    with_reducible first
      | assumption | intro _ | simp only [good_upd] | apply cmWrite_good | apply later_good | refine keep_ite ?_ ?_

theorem closeBurst_good {q : List Instr} (a0) {s : State} (h : Good q s) : Good q (closeBurst a0 s) := by
  unfold closeBurst; dsimp only
  repeat'
    with_reducible first
      | assumption | intro _ | simp only [good_upd] | apply logWrite_good | refine keep_ite ?_ ?_

theorem openBurst_good {q : List Instr} (a0) (a1) {s : State} (h : Good q s) : Good q (openBurst a0 a1 s) := by
  unfold openBurst
  repeat' (with_reducible first | assumption | intro _ | simp only [good_upd] | apply logWrite_good)

theorem logEvent_good {q : List Instr} (a0) (a1) (a2) (a3) (a4) {s : State} (h : Good q s) :
    Good q (logEvent a0 a1 a2 a3 a4 s) := by
  unfold logEvent; dsimp only
  repeat'
    with_reducible first
      | assumption | intro _ | simp only [good_upd] | apply logWrite_good | apply bump_good | apply openBurst_good
      | apply closeBurst_good | refine keep_ite ?_ ?_ | split

/-! ### Machine/Power.lean -/

theorem setDomain_good {q : List Instr} (a0) (a1) {s : State} (h : Good q s) : Good q (setDomain a0 a1 s) := by
  unfold setDomain
  repeat' (with_reducible first | assumption | intro _ | simp only [good_upd] | split)

theorem leaveOne_good {q : List Instr} (a0) (a1) {s : State} (h : Good q s) : Good q (leaveOne a0 a1 s) := by
  unfold leaveOne; dsimp only
  repeat'
    with_reducible first
      | assumption | intro _ | apply setDomain_good | apply bump_good | apply later_good | apply good_when
      | refine keep_ite ?_ ?_ | split

theorem leaveOn_good {q : List Instr} (a0) (a1) {s : State} (h : Good q s) : Good q (leaveOn a0 a1 s) := by
  unfold leaveOn
  repeat' (with_reducible first | assumption | intro _ | apply leaveOne_good | apply good_foldSt)

theorem startLast_good {q : List Instr} (a0) {s : State} (h : Good q s) : Good q (startLast a0 s) := by
  unfold startLast
  repeat' (with_reducible first | assumption | intro _ | simp only [good_upd] | split)

theorem evalFaultN_good {q : List Instr} {s : State} (h : Good q s) : Good q (evalFaultN s) := by
  unfold evalFaultN; dsimp only
  repeat' (with_reducible first | assumption | intro _ | simp only [good_upd] | split)

theorem enterSafe_good {q : List Instr} (a0) {s : State} (h : Good q s) : Good q (enterSafe a0 s) := by
  unfold enterSafe; dsimp only
  repeat'
    with_reducible first
      | assumption | intro _ | simp only [good_upd] | apply later_good | apply bump_good | refine keep_ite ?_ ?_

theorem notice_good {q : List Instr} (a0) (a1) (a2) (a3) (a4) {s : State} (h : Good q s) :
    Good q (notice a0 a1 a2 a3 a4 s) := by
  unfold notice; dsimp only
  repeat'
    with_reducible first
      | assumption | intro _ | simp only [good_upd] | apply bump_good | apply postEvent_good | refine keep_ite ?_ ?_

theorem takeRaise_good {q : List Instr} (a0) (a1) (a2) {s : State} (h : Good q s) :
    Good q (takeRaise a0 a1 a2 s) := by
  unfold takeRaise; dsimp only
  repeat'
    with_reducible first
      | assumption | intro _ | simp only [good_upd] | apply bump_good | apply logEvent_good | apply later_good
      | apply enterSafe_good | apply notice_good | apply leaveOn_good | apply evalFaultN_good | apply good_when
      | refine keep_ite ?_ ?_ | split

theorem unitRaise_good {q : List Instr} (a0) (a1) (a2) {s : State} (h : Good q s) :
    Good q (unitRaise a0 a1 a2 s) := by
  unfold unitRaise; dsimp only
  repeat'
    with_reducible first
      | assumption | intro _ | simp only [good_upd] | apply takeRaise_good | refine keep_ite ?_ ?_

theorem faultRaise_good {q : List Instr} (a0) (a1) (a2) {s : State} (h : Good q s) :
    Good q (faultRaise a0 a1 a2 s) := by
  unfold faultRaise; dsimp only
  repeat'
    with_reducible first
      | assumption | intro _ | apply bump_good | apply leaveOn_good | apply unitRaise_good | apply good_when
      | refine keep_ite ?_ ?_

theorem endCondition_good {q : List Instr} (a0) (a1) {s : State} (h : Good q s) : Good q (endCondition a0 a1 s) := by
  unfold endCondition
  repeat' (with_reducible first | assumption | intro _ | simp only [good_upd] | split)

theorem reraise_good {q : List Instr} (a0) {s : State} (h : Good q s) : Good q (reraise a0 s) := by
  unfold reraise
  repeat'
    with_reducible first
      | assumption | intro _ | apply takeRaise_good | apply good_foldSt | refine keep_ite ?_ ?_

theorem clearSource_good {q : List Instr} (a0) {s : State} (h : Good q s) : Good q (clearSource a0 s) := by
  unfold clearSource; dsimp only
  repeat'
    with_reducible first
      | assumption | intro _ | simp only [good_upd] | apply evalFaultN_good | apply reraise_good

theorem clearAll_good {q : List Instr} {s : State} (h : Good q s) : Good q (clearAll s) := by
  unfold clearAll; dsimp only
  repeat'
    with_reducible first
      | assumption | intro _ | simp only [good_upd] | apply evalFaultN_good | apply takeRaise_good
      | apply good_foldSt

theorem unfreeze_good {q : List Instr} {s : State} (h : Good q s) : Good q (unfreeze s) := by
  unfold unfreeze
  repeat' (with_reducible first | assumption | intro _ | simp only [good_upd] | split)

theorem emptyHistory_good {q : List Instr} {s : State} (h : Good q s) : Good q (emptyHistory s) := by
  unfold emptyHistory
  repeat' (with_reducible first | assumption | intro _ | simp only [good_upd] | split)

theorem clearCommand_good {q : List Instr} (a0) {s : State} (h : Good q s) : Good q (clearCommand a0 s) := by
  unfold clearCommand; dsimp only
  repeat'
    with_reducible first
      | assumption | intro _ | apply clearSource_good | apply clearAll_good | apply unfreeze_good
      | apply emptyHistory_good | refine keep_ite ?_ ?_

theorem shed_good {q : List Instr} (a0) (a1) {s : State} (h : Good q s) : Good q (shed a0 a1 s) := by
  unfold shed; dsimp only
  repeat'
    with_reducible first
      | assumption | intro _ | simp only [good_upd] | apply later_good | apply leaveOn_good | apply logEvent_good

/-! ### Machine/Routing.lean -/

theorem setPort_good {q : List Instr} (a0) (a1) {s : State} (h : Good q s) : Good q (setPort a0 a1 s) := by
  unfold setPort
  repeat' (with_reducible first | assumption | intro _ | simp only [good_upd] | split)

theorem sendLinkCtl_good {q : List Instr} (a0) (a1) (a2) {s : State} (h : Good q s) :
    Good q (sendLinkCtl a0 a1 a2 s) := by
  unfold sendLinkCtl
  repeat' (with_reducible first | assumption | intro _ | apply enqueue_good | split)

theorem sendHealth_good {q : List Instr} (a0) {s : State} (h : Good q s) : Good q (sendHealth a0 s) := by
  unfold sendHealth
  repeat'
    with_reducible first
      | assumption | intro _ | simp only [good_upd] | apply sendLinkCtl_good | apply good_forRange

theorem healthAll_good {q : List Instr} {s : State} (h : Good q s) : Good q (healthAll s) := by
  unfold healthAll
  repeat'
    with_reducible first
      | assumption | intro _ | apply sendHealth_good | apply good_forRange | refine keep_ite ?_ ?_ | split

theorem setPortState_good {q : List Instr} (a0) (a1) {s : State} (h : Good q s) : Good q (setPortState a0 a1 s) := by
  unfold setPortState; dsimp only
  repeat'
    with_reducible first
      | assumption | intro _ | apply setPort_good | apply later_good | apply healthAll_good | refine keep_ite ?_ ?_

theorem clearMasks_good {q : List Instr} (a0) {s : State} (h : Good q s) : Good q (clearMasks a0 s) := by
  unfold clearMasks
  repeat' (with_reducible first | assumption | intro _ | apply setPort_good | split)

theorem vaneUpdate_good {q : List Instr} {s : State} (h : Good q s) : Good q (vaneUpdate s) := by
  unfold vaneUpdate
  repeat'
    with_reducible first
      | assumption | intro _ | apply setPort_good | apply good_forRange | refine keep_ite ?_ ?_

theorem unroutable_good {q : List Instr} (a0) (a1) {s : State} (h : Good q s) : Good q (unroutable a0 a1 s) := by
  unfold unroutable
  repeat' (with_reducible first | assumption | intro _ | apply bump_good | apply later_good | refine keep_ite ?_ ?_)

theorem routePacket_good {q : List Instr} (a0) (a1) {s : State} (h : Good q s) : Good q (routePacket a0 a1 s) := by
  unfold routePacket; dsimp only
  repeat'
    with_reducible first
      | assumption | intro _ | apply bumpBy_good | apply deliver_good | apply leaveIngress_good | apply later_good
      | apply bump_good | apply unroutable_good | apply bumpPort_good | apply bumpG15_good | apply enqueue_good
      | apply good_when | refine keep_ite ?_ ?_ | split

theorem portTrained_good {q : List Instr} (a0) (a1) {s : State} (h : Good q s) : Good q (portTrained a0 a1 s) := by
  unfold portTrained; dsimp only
  repeat'
    with_reducible first
      | assumption | intro _ | apply setPort_good | apply setPortState_good | apply raiseFault_good
      | refine keep_ite ?_ ?_

theorem portDown_good {q : List Instr} (a0) {s : State} (h : Good q s) : Good q (portDown a0 s) := by
  unfold portDown
  repeat'
    with_reducible first
      | assumption | intro _ | apply setPortState_good | apply clearMasks_good | refine keep_ite ?_ ?_ | split

theorem portBack_good {q : List Instr} (a0) {s : State} (h : Good q s) : Good q (portBack a0 s) := by
  unfold portBack
  repeat' (with_reducible first | assumption | intro _ | apply setPortState_good | refine keep_ite ?_ ?_ | split)

theorem portFlushed_good {q : List Instr} (a0) {s : State} (h : Good q s) : Good q (portFlushed a0 s) := by
  unfold portFlushed; dsimp only
  repeat'
    with_reducible first
      | assumption | intro _ | apply endCondition_good | apply setPortState_good | apply clearMasks_good
      | apply setPort_good | apply good_when | refine keep_ite ?_ ?_ | split

theorem portDepart_good {q : List Instr} (a0) {s : State} (h : Good q s) : Good q (portDepart a0 s) := by
  unfold portDepart
  repeat' (with_reducible first | assumption | intro _ | apply setPortState_good | refine keep_ite ?_ ?_ | split)

theorem portDepartDone_good {q : List Instr} (a0) {s : State} (h : Good q s) : Good q (portDepartDone a0 s) := by
  unfold portDepartDone
  repeat'
    with_reducible first
      | assumption | intro _ | apply later_good | apply setPortState_good | apply clearMasks_good
      | refine keep_ite ?_ ?_ | split

theorem healthArrive_good {q : List Instr} (a0) (a1) {s : State} (h : Good q s) : Good q (healthArrive a0 a1 s) := by
  unfold healthArrive; dsimp only
  repeat'
    with_reducible first
      | assumption | intro _ | apply later_good | apply setPort_good | refine keep_ite ?_ ?_

/-! ### Machine/FlowSched.lean -/

theorem accruePort_good {q : List Instr} (a0) {s : State} (h : Good q s) : Good q (accruePort a0 s) := by
  unfold accruePort
  repeat' (with_reducible first | assumption | intro _ | apply setFlow_good | split)

theorem refreshGates_good {q : List Instr} (a0) {s : State} (h : Good q s) : Good q (refreshGates a0 s) := by
  unfold refreshGates; dsimp only
  repeat' (with_reducible first | assumption | intro _ | apply setFlow_good | split)

theorem newGates_good {q : List Instr} (a0) (a1) (a2) {s : State} (h : Good q s) : Good q (newGates a0 a1 a2 s) := by
  unfold newGates; dsimp only
  repeat' (with_reducible first | assumption | intro _ | apply refreshGates_good | apply setFlow_good)

theorem gatesRestart_good {q : List Instr} {s : State} (h : Good q s) : Good q (gatesRestart s) := by
  unfold gatesRestart
  repeat'
    with_reducible first
      | assumption | intro _ | apply refreshGates_good | apply setFlow_good | apply good_forRange

theorem gatesStep_good {q : List Instr} (a0) (a1) {s : State} (h : Good q s) : Good q (gatesStep a0 a1 s) := by
  unfold gatesStep; dsimp only
  repeat'
    with_reducible first
      | assumption | intro _ | apply refreshGates_good | apply bumpBy_good | apply bump_good | apply good_forRange
      | apply good_when

theorem countHeld_good {q : List Instr} (a0) {s : State} (h : Good q s) : Good q (countHeld a0 s) := by
  unfold countHeld
  repeat'
    with_reducible first
      | assumption | intro _ | apply bumpPortVc_good | apply good_foldSt | refine keep_ite ?_ ?_ | split

theorem assignTags_good {q : List Instr} (a0) {s : State} (h : Good q s) : Good q (assignTags a0 s) := by
  unfold assignTags; dsimp only
  repeat' (with_reducible first | assumption | intro _ | apply setFlow_good | split)

theorem settleTags_good {q : List Instr} (a0) {s : State} (h : Good q s) : Good q (settleTags a0 s) := by
  unfold settleTags
  repeat'
    with_reducible first
      | assumption | intro _ | apply assignTags_good | apply refreshGates_good | apply accruePort_good

theorem chargeStart_good {q : List Instr} (a0) (a1) {s : State} (h : Good q s) : Good q (chargeStart a0 a1 s) := by
  unfold chargeStart; dsimp only
  repeat'
    with_reducible first
      | assumption | intro _ | apply noteWait_good | apply setVc_good | apply setFlow_good | apply leaveQueued_good

theorem shapersChanged_good {q : List Instr} (a0) (a1) {s : State} (h : Good q s) :
    Good q (shapersChanged a0 a1 s) := by
  unfold shapersChanged; dsimp only
  repeat'
    with_reducible first
      | assumption | intro _ | apply bump_good | apply setFlow_good | apply good_forRange | refine keep_ite ?_ ?_

theorem police_good {q : List Instr} (a0) (a1) (a2) (a3) {s : State} (h : Good q s) :
    Good2 q (police a0 a1 a2 a3 s) := by
  unfold police; dsimp only
  repeat'
    with_reducible first
      | assumption | intro _ | simp only [good_upd] | apply bump_good | apply good2_mk
      | refine good2_eq (by assumption) ?_ | refine keep_ite ?_ ?_ | split

theorem policersChanged_good {q : List Instr} (a0) {s : State} (h : Good q s) : Good q (policersChanged a0 s) := by
  unfold policersChanged; dsimp only
  repeat'
    with_reducible first
      | assumption | intro _ | simp only [good_upd] | apply good_forRange | refine keep_ite ?_ ?_

theorem sampleOne_good {q : List Instr} (a0) (a1) (a2) (a3) {s : State} (h : Good q s) :
    Good q (sampleOne a0 a1 a2 a3 s) := by
  unfold sampleOne; dsimp only
  repeat' (with_reducible first | assumption | intro _ | simp only [good_upd] | apply bump_good)

theorem sample_good {q : List Instr} (a0) (a1) {s : State} (h : Good q s) : Good q (sample a0 a1 s) := by
  unfold sample
  repeat'
    with_reducible first
      | assumption | intro _ | apply sampleOne_good | apply good_foldSt | refine keep_ite ?_ ?_

theorem sampleDue_good {q : List Instr} (a0) {s : State} (h : Good q s) : Good q (sampleDue a0 s) := by
  unfold sampleDue; dsimp only
  repeat'
    with_reducible first
      | assumption | intro _ | simp only [good_upd] | apply bump_good | apply sample_good | refine keep_ite ?_ ?_

theorem sampleFrom_good {q : List Instr} {s : State} (h : Good q s) : Good q (sampleFrom s) := by
  unfold sampleFrom
  repeat' (with_reducible first | assumption | intro _ | simp only [good_upd] | split)

theorem sampleStep_good {q : List Instr} (a0) (a1) {s : State} (h : Good q s) : Good q (sampleStep a0 a1 s) := by
  unfold sampleStep; dsimp only
  repeat'
    with_reducible first
      | assumption | intro _ | simp only [good_upd] | apply sample_good | apply bump_good | refine keep_ite ?_ ?_

theorem evalMarker_good {q : List Instr} (a0) (a1) {s : State} (h : Good q s) : Good2 q (evalMarker a0 a1 s) := by
  unfold evalMarker; dsimp only
  repeat'
    with_reducible first
      | assumption | intro _ | apply setFlow_good | apply bumpBy_good | apply raiseFault_good | apply good2_mk
      | refine good2_eq (by assumption) ?_ | refine keep_ite ?_ ?_ | split

theorem applyReply_good {q : List Instr} (a0) (a1) {s : State} (h : Good q s) : Good q (applyReply a0 a1 s) := by
  unfold applyReply; dsimp only
  repeat' (with_reducible first | assumption | intro _ | apply noteWait_good | apply setVc_good | apply good_forRange)

/-! ### Machine/RemoteBase.lean -/

theorem setSrc_good {q : List Instr} (a0) (a1) {s : State} (h : Good q s) : Good q (setSrc a0 a1 s) := by
  unfold setSrc
  repeat' (with_reducible first | assumption | intro _ | simp only [good_upd] | split)

theorem setMsg_good {q : List Instr} (a0) (a1) (a2) {s : State} (h : Good q s) : Good q (setMsg a0 a1 a2 s) := by
  unfold setMsg
  repeat' (with_reducible first | assumption | intro _ | apply setSrc_good | split)

theorem openSrc_good {q : List Instr} (a0) {s : State} (h : Good q s) : Good2 q (openSrc a0 s) := by
  unfold openSrc; dsimp only
  repeat'
    with_reducible first
      | assumption | intro _ | simp only [good_upd] | apply draw_good | apply placeStack_good | apply good2_mk
      | refine good2_eq (by assumption) ?_ | refine good2_snd (p := draw _ _) ?_
      | refine good2_snd (p := placeStack _) ?_ | refine keep_ite ?_ ?_ | split

theorem putFailed_good {q : List Instr} (a0) (a1) (a2) (a3) (a4) {s : State} (h : Good q s) :
    Good q (putFailed a0 a1 a2 a3 a4 s) := by
  unfold putFailed
  repeat' (with_reducible first | assumption | intro _ | apply queueEvent_good | split)

theorem connError_good {q : List Instr} (a0) (a1) {s : State} (h : Good q s) : Good q (connError a0 a1 s) := by
  unfold connError; dsimp only
  repeat'
    with_reducible first
      | assumption | intro _ | simp only [good_upd] | apply postEvent_good | refine keep_ite ?_ ?_

theorem dropMsg_good {q : List Instr} (a0) (a1) {s : State} (h : Good q s) : Good q (dropMsg a0 a1 s) := by
  unfold dropMsg
  repeat' (with_reducible first | assumption | intro _ | apply setSrc_good | split)

theorem gather_good {q : List Instr} (a0) (a1) {s : State} (h : Good q s) : Good q (gather a0 a1 s) := by
  unfold gather; dsimp only
  repeat' (with_reducible first | assumption | intro _ | apply later_good | apply setMsg_good | refine keep_ite ?_ ?_)

theorem inject_good {q : List Instr} (a0) (a1) (a2) (a3) {s : State} (h : Good q s) :
    Good q (inject a0 a1 a2 a3 s) := by
  unfold inject; dsimp only
  repeat'
    with_reducible first
      | assumption | intro _ | apply injectPacket_good | apply bump_good | apply setMsg_good | apply good_when

theorem tryInject_good {q : List Instr} (a0) (a1) {s : State} (h : Good q s) : Good q (tryInject a0 a1 s) := by
  unfold tryInject; dsimp only
  repeat'
    with_reducible first
      | assumption | intro _ | apply gather_good | apply setMsg_good | apply inject_good | apply police_good
      | apply good2_mk | refine good2_eq (by assumption) ?_ | refine good2_snd (p := police _ _ _ _ _) ?_
      | refine keep_ite ?_ ?_ | split

theorem goOn_good {q : List Instr} (a0) (a1) {s : State} (h : Good q s) : Good q (goOn a0 a1 s) := by
  unfold goOn
  repeat'
    with_reducible first
      | assumption | intro _ | apply gather_good | apply tryInject_good | refine keep_ite ?_ ?_ | split

theorem kickFlow_good {q : List Instr} (a0) {s : State} (h : Good q s) : Good q (kickFlow a0 s) := by
  unfold kickFlow
  repeat'
    with_reducible first
      | assumption | intro _ | apply tryInject_good | apply setMsg_good | apply good_foldSt | refine keep_ite ?_ ?_
      | split

theorem startIn_good {q : List Instr} (a0) (a1) {s : State} (h : Good q s) : Good q (startIn a0 a1 s) := by
  unfold startIn; dsimp only
  repeat'
    with_reducible first
      | assumption | intro _ | simp only [good_upd] | apply openSrc_good | apply setSrc_good | apply goOn_good
      | apply good2_mk | refine good2_eq (by assumption) ?_ | refine good2_snd (p := openSrc _ _) ?_
      | refine keep_ite ?_ ?_ | split

theorem startMsg_good {q : List Instr} (a0) (a1) {s : State} (h : Good q s) : Good q (startMsg a0 a1 s) := by
  unfold startMsg
  repeat'
    with_reducible first
      | assumption | intro _ | simp only [good_upd] | apply startIn_good | refine keep_ite ?_ ?_

theorem kickWaiting_good {q : List Instr} {s : State} (h : Good q s) : Good q (kickWaiting s) := by
  unfold kickWaiting
  repeat'
    with_reducible first
      | assumption | intro _ | simp only [good_upd] | apply startMsg_good | apply good_foldSt

theorem sendSkip_good {q : List Instr} (a0) (a1) {s : State} (h : Good q s) : Good q (sendSkip a0 a1 s) := by
  unfold sendSkip
  repeat' (with_reducible first | assumption | intro _ | apply startMsg_good | refine keep_ite ?_ ?_ | split)

theorem lateFailure_good {q : List Instr} (a0) (a1) (a2) (a3) (a4) (a5) {s : State} (h : Good q s) :
    Good q (lateFailure a0 a1 a2 a3 a4 a5 s) := by
  unfold lateFailure; dsimp only
  repeat' (with_reducible first | assumption | intro _ | simp only [good_upd] | apply putFailed_good)

theorem failMsg_good {q : List Instr} (a0) (a1) (a2) (a3) {s : State} (h : Good q s) :
    Good q (failMsg a0 a1 a2 a3 s) := by
  unfold failMsg; dsimp only
  repeat'
    with_reducible first
      | assumption | intro _ | apply kickFlow_good | apply setMsg_good | apply dropMsg_good | apply bump_good
      | apply lateFailure_good | apply complete_good | apply later_good | apply connError_good | apply sendSkip_good
      | apply kickWaiting_good | apply good_when | refine keep_ite ?_ ?_ | split

theorem resendMsg_good {q : List Instr} (a0) (a1) {s : State} (h : Good q s) : Good q (resendMsg a0 a1 s) := by
  unfold resendMsg
  repeat'
    with_reducible first
      | assumption | intro _ | apply setMsg_good | apply goOn_good | refine keep_ite ?_ ?_ | split

theorem retransmit_good {q : List Instr} (a0) (a1) {s : State} (h : Good q s) : Good q (retransmit a0 a1 s) := by
  unfold retransmit
  repeat'
    with_reducible first
      | assumption | intro _ | apply resendMsg_good | apply failMsg_good | apply bump_good | apply setMsg_good
      | refine keep_ite ?_ ?_ | split

theorem msgReadDone_good {q : List Instr} (a0) (a1) (a2) {s : State} (h : Good q s) :
    Good q (msgReadDone a0 a1 a2 s) := by
  unfold msgReadDone; dsimp only
  repeat'
    with_reducible first
      | assumption | intro _ | apply setMsg_good | apply resendMsg_good | apply goOn_good | apply failMsg_good
      | refine keep_ite ?_ ?_ | split

theorem windowUpdate_good {q : List Instr} (a0) (a1) (a2) (a3) (a4) {s : State} (h : Good q s) :
    Good q (windowUpdate a0 a1 a2 a3 a4 s) := by
  unfold windowUpdate; dsimp only
  repeat'
    with_reducible first
      | assumption | intro _ | simp only [good_upd] | apply bump_good | apply setSrc_good | apply good_when
      | refine keep_ite ?_ ?_ | split

theorem flushReported_good {q : List Instr} (a0) (a1) (a2) (a3) {s : State} (h : Good q s) :
    Good q (flushReported a0 a1 a2 a3 s) := by
  unfold flushReported; dsimp only
  repeat' (with_reducible first | assumption | intro _ | simp only [good_upd] | apply setSrc_good)

theorem endMsg_good {q : List Instr} (a0) (a1) (a2) (a3) {s : State} (h : Good q s) :
    Good q (endMsg a0 a1 a2 a3 s) := by
  unfold endMsg; dsimp only
  repeat'
    with_reducible first
      | assumption | intro _ | apply dropMsg_good | apply complete_good | apply flushReported_good
      | apply later_good | apply kickWaiting_good | apply kickFlow_good | apply good_when | refine keep_ite ?_ ?_
      | split

theorem msgLeft_good {q : List Instr} (a0) (a1) {s : State} (h : Good q s) : Good q (msgLeft a0 a1 s) := by
  unfold msgLeft; dsimp only
  repeat'
    with_reducible first
      | assumption | intro _ | apply setMsg_good | apply complete_good | apply later_good | apply failMsg_good
      | refine keep_ite ?_ ?_ | apply good_id | split

theorem packetLeft_good {q : List Instr} (a0) {s : State} (h : Good q s) : Good q (packetLeft a0 s) := by
  unfold packetLeft
  repeat' (with_reducible first | assumption | intro _ | apply msgLeft_good | refine keep_ite ?_ ?_ | split)

theorem packetUnroutable_good {q : List Instr} (a0) {s : State} (h : Good q s) : Good q (packetUnroutable a0 s) := by
  unfold packetUnroutable
  repeat' (with_reducible first | assumption | intro _ | apply failMsg_good | refine keep_ite ?_ ?_ | split)

theorem packetLost_good {q : List Instr} (a0) {s : State} (h : Good q s) : Good q (packetLost a0 s) := by
  unfold packetLost; dsimp only
  repeat' (with_reducible first | assumption | intro _ | apply retransmit_good | refine keep_ite ?_ ?_ | split)

theorem lossInterval_good {q : List Instr} (a0) (a1) (a2) {s : State} (h : Good q s) :
    Good q (lossInterval a0 a1 a2 s) := by
  unfold lossInterval
  repeat' (with_reducible first | assumption | intro _ | apply retransmit_good | refine keep_ite ?_ ?_ | split)

theorem retryInterval_good {q : List Instr} (a0) (a1) (a2) {s : State} (h : Good q s) :
    Good q (retryInterval a0 a1 a2 s) := by
  unfold retryInterval
  repeat' (with_reducible first | assumption | intro _ | apply resendMsg_good | refine keep_ite ?_ ?_ | split)

theorem reevaluate_good {q : List Instr} (a0) (a1) {s : State} (h : Good q s) : Good q (reevaluate a0 a1 s) := by
  unfold reevaluate
  repeat'
    with_reducible first
      | assumption | intro _ | apply tryInject_good | apply setMsg_good | refine keep_ite ?_ ?_ | split

theorem refusedRetry_good {q : List Instr} (a0) (a1) (a2) (a3) {s : State} (h : Good q s) :
    Good q (refusedRetry a0 a1 a2 a3 s) := by
  unfold refusedRetry; dsimp only
  repeat'
    with_reducible first
      | assumption | intro _ | apply failMsg_good | apply kickFlow_good | apply setMsg_good | refine keep_ite ?_ ?_
      | split

theorem baseReset_good {q : List Instr} (a0) {s : State} (h : Good q s) : Good q (baseReset a0 s) := by
  unfold baseReset
  repeat' (with_reducible first | assumption | intro _ | simp only [good_upd] | refine keep_ite ?_ ?_ | split)

theorem sinkNext_good {q : List Instr} (a0) (a1) {s : State} (h : Good q s) : Good q (sinkNext a0 a1 s) := by
  unfold sinkNext; dsimp only
  repeat'
    with_reducible first
      | assumption | intro _ | apply endMsg_good | apply later_good | apply setMsg_good | refine keep_ite ?_ ?_
      | split

theorem sinkDone_good {q : List Instr} (a0) (a1) (a2) {s : State} (h : Good q s) : Good q (sinkDone a0 a1 a2 s) := by
  unfold sinkDone; dsimp only
  repeat'
    with_reducible first
      | assumption | intro _ | apply sinkNext_good | apply setMsg_good | apply failMsg_good | refine keep_ite ?_ ?_
      | split

theorem respData_good {q : List Instr} (a0) (a1) (a2) (a3) (a4) {s : State} (h : Good q s) :
    Good q (respData a0 a1 a2 a3 a4 s) := by
  unfold respData; dsimp only
  repeat'
    with_reducible first
      | assumption | intro _ | apply setMsg_good | apply sinkNext_good | apply later_good | apply endMsg_good
      | refine keep_ite ?_ ?_ | split

end Sys2Proof.Machine
end

