-- ==== Sys2Proof/Laws/KeepEngine.lean ====
section
/-!
SUPPORT. Keeping the queue of commands and the canonical form: what observers see, the engines and the lock unit.
-/
namespace Sys2Proof.Machine

/-! ### Machine/Visible.lean -/

theorem look_good {q : List Instr} (o : Nat) (cl : Option Nat) (off n dep : Nat) (l : List Flight) {s : State}
    (h : Good q s) : Good2 q (look o cl off n dep l s) := by
  induction l generalizing s with
  | nil => exact h
  | cons f r ih =>
    unfold look; dsimp only
    split
    · exact good2_mk (ih (draw_good 2 h))
    · exact good2_mk (ih h)

theorem observe_good {q : List Instr} (a0) (a1) (a2) (a3) (a4) {s : State} (h : Good q s) :
    Good2 q (observe a0 a1 a2 a3 a4 s) := by
  unfold observe; dsimp only
  repeat'
    with_reducible first
      | assumption | intro _ | simp only [good_upd, good_updMe] | apply look_good | apply good2_mk
      | refine good2_eq (by assumption) ?_ | refine good2_snd (p := look _ _ _ _ _ _ _) ?_

theorem launchStore_good {q : List Instr} (a0) (a1) (a2) (a3) {s : State} (h : Good q s) :
    Good q (launchStore a0 a1 a2 a3 s) := by
  unfold launchStore; dsimp only
  repeat' (with_reducible first | assumption | intro _ | simp only [good_upd, good_updMe])

theorem perform_good {q : List Instr} (a0) {s : State} (h : Good q s) : Good q (perform a0 s) := by
  unfold perform
  repeat' (with_reducible first | assumption | intro _ | simp only [good_upd, good_updMe])

theorem performRange_good {q : List Instr} (a0) (a1) (a2) {s : State} (h : Good q s) :
    Good q (performRange a0 a1 a2 s) := by
  unfold performRange
  repeat' (with_reducible first | assumption | intro _ | apply perform_good | split)

theorem seeRange_good {q : List Instr} (a0) (a1) (a2) (a3) {s : State} (h : Good q s) :
    Good q (seeRange a0 a1 a2 a3 s) := by
  unfold seeRange
  repeat' (with_reducible first | assumption | intro _ | simp only [good_upd, good_updMe])

theorem seeReached_good {q : List Instr} (a0) {s : State} (h : Good q s) : Good q (seeReached a0 s) := by
  unfold seeReached
  repeat' (with_reducible first | assumption | intro _ | simp only [good_upd, good_updMe])

theorem fenceCluster_good {q : List Instr} (a0) (a1) {s : State} (h : Good q s) : Good q (fenceCluster a0 a1 s) := by
  unfold fenceCluster; dsimp only
  repeat' (with_reducible first | assumption | intro _ | simp only [good_upd, good_updMe])

theorem fenceArrays_good {q : List Instr} (a0) (a1) {s : State} (h : Good q s) : Good q (fenceArrays a0 a1 s) := by
  unfold fenceArrays; dsimp only
  repeat' (with_reducible first | assumption | intro _ | simp only [good_upd, good_updMe] | split)

/-! ### Machine/Operands.lean -/

theorem setReg_good {q : List Instr} (e c r : Nat) (v : Word64) {s : State} (h : Good q s) : Good q (setReg e c r v s) :=
  setCtx_good e c _ (fun _ h => mwf_sset _ _ h) h

theorem setStamp_good {q : List Instr} (a0) (a1) (a2) (a3) {s : State} (h : Good q s) :
    Good q (setStamp a0 a1 a2 a3 s) := by
  unfold setStamp
  repeat' (with_reducible first | assumption | intro _ | apply setCtx_good)

theorem setPc_good {q : List Instr} (a0) (a1) (a2) {s : State} (h : Good q s) : Good q (setPc a0 a1 a2 s) := by
  unfold setPc
  repeat' (with_reducible first | assumption | intro _ | apply setCtx_good)

theorem cmemPut_good {q : List Instr} (k off : Nat) (bs : List Byte) {s : State} (h : Good q s) :
    Good q { s with me := { s.me with cmem := smod [] s.me.cmem k fun m => memWrite m off bs } } :=
  Good.mkMe h fun h => ⟨h.engines, all_smod (p := fun m => Memory.wf m) k _ h.cmem rfl fun _ hm => Memory.wf_memWrite _ _ hm⟩

theorem cmemWrite_good {q : List Instr} (k off : Nat) (bs : List Byte) {s : State} (h : Good q s) :
    Good q (cmemWrite k off bs s) := by
  unfold cmemWrite; dsimp only
  refine keep_ite (cmemPut_good _ _ _ h) ?_
  exact good_forRange (fun _ _ h => breakResv_good _ h) (cmemPut_good _ _ _ h)

theorem cmemStore_good {q : List Instr} (a0) (a1) (a2) (a3) (a4) {s : State} (h : Good q s) :
    Good q (cmemStore a0 a1 a2 a3 a4 s) := by
  unfold cmemStore
  repeat' (with_reducible first | assumption | intro _ | apply launchStore_good | apply cmemWrite_good)

theorem contextStore_good {q : List Instr} (a0) (a1) (a2) (a3) (a4) {s : State} (h : Good q s) :
    Good q (contextStore a0 a1 a2 a3 a4 s) := by
  unfold contextStore
  repeat' (with_reducible first | assumption | intro _ | apply launchStore_good | apply cmWrite_good)

theorem ldmWrite_good {q : List Instr} (e off : Nat) (bs : List Byte) {s : State} (h : Good q s) :
    Good q (ldmWrite e off bs s) :=
  setEngine_good e _ (fun _ hg => ⟨hg.ctxs, hg.regs, Memory.wf_memWrite _ _ hg.ldm, hg.imem⟩) h

/-! ### Machine/Engine.lean -/

theorem samplePeriod_good {q : List Instr} (a0) {s : State} (h : Good q s) : Good q (samplePeriod a0 s) := by
  unfold samplePeriod; dsimp only
  repeat'
    with_reducible first
      | assumption | intro _ | apply setEngine_good | refine keep_ite ?_ ?_ | exact fun _ h => h | apply engOk_mk

theorem sampleIssue_good {q : List Instr} (a0) (a1) (a2) (a3) {s : State} (h : Good q s) :
    Good q (sampleIssue a0 a1 a2 a3 s) := by
  unfold sampleIssue; dsimp only
  repeat'
    with_reducible first
      | assumption | intro _ | apply samplePeriod_good | apply setCtx_good | apply draw_good | apply setEngine_good
      | apply good2_mk | refine good2_eq (by assumption) ?_ | refine good2_snd (p := draw _ _) ?_
      | refine keep_ite ?_ ?_ | exact fun _ h => h | apply engOk_mk | split

theorem sampleAccess_good {q : List Instr} (a0) (a1) (a2) (a3) {s : State} (h : Good q s) :
    Good q (sampleAccess a0 a1 a2 a3 s) := by
  unfold sampleAccess
  repeat' (with_reducible first | assumption | intro _ | apply setCtx_good)

theorem sampleWrite_good {q : List Instr} (a0) (a1) (a2) {s : State} (h : Good q s) :
    Good q (sampleWrite a0 a1 a2 s) := by
  unfold sampleWrite; dsimp only
  repeat'
    with_reducible first
      | assumption | intro _ | simp only [good_upd, good_updMe] | apply draw_good | apply bump_good
      | apply bumpEngine_good | apply good2_mk | refine good2_eq (by assumption) ?_
      | refine good2_snd (p := draw _ _) ?_ | refine keep_ite ?_ ?_

theorem retire_good {q : List Instr} (a0) (a1) {s : State} (h : Good q s) : Good q (retire a0 a1 s) := by
  unfold retire; dsimp only
  repeat'
    with_reducible first
      | assumption | intro _ | apply bumpEngine_good | apply setCtx_good | apply sampleWrite_good
      | refine keep_ite ?_ ?_ | exact fun _ h => h | split

theorem nextPc_good {q : List Instr} (a0) (a1) {s : State} (h : Good q s) : Good q (nextPc a0 a1 s) := by
  unfold nextPc
  repeat' (with_reducible first | assumption | intro _ | apply retire_good | apply setPc_good)

theorem finish_good {q : List Instr} (a0) (a1) (a2) (a3) {s : State} (h : Good q s) :
    Good q (finish a0 a1 a2 a3 s) := by
  unfold finish
  repeat' (with_reducible first | assumption | intro _ | apply nextPc_good | apply setReg_good)

theorem endItem_good {q : List Instr} (a0) (a1) (a2) {s : State} (h : Good q s) : Good q (endItem a0 a1 a2 s) := by
  unfold endItem; dsimp only
  repeat'
    with_reducible first
      | assumption | intro _ | apply setCtx_good | apply setEngine_good | apply later_good | apply bumpEngine_good
      | apply bump_good | apply good_when | refine keep_ite ?_ ?_ | exact fun _ h => h | apply engOk_mk | split

theorem endItems_good {q : List Instr} (a0) {s : State} (h : Good q s) : Good q (endItems a0 s) := by
  unfold endItems
  repeat' (with_reducible first | assumption | intro _ | apply endItem_good | apply good_forRange)

theorem orphanEngine_good {q : List Instr} (a0) {s : State} (h : Good q s) : Good q (orphanEngine a0 s) := by
  unfold orphanEngine
  repeat' (with_reducible first | assumption | intro _ | apply later_good | split)

theorem haltEngine_good {q : List Instr} (a0) (a1) {s : State} (h : Good q s) : Good q (haltEngine a0 a1 s) := by
  unfold haltEngine
  repeat'
    with_reducible first
      | assumption | intro _ | apply raiseFault_good | apply endItems_good | apply orphanEngine_good
      | apply setEngine_good | refine keep_ite ?_ ?_ | exact fun _ h => h | apply engOk_mk

theorem trapCtx_regs (a b : Nat) (c : Word64) (x : ECtx) : (trapCtx a b c x).regs = x.regs := rfl

theorem takeTrap_good {q : List Instr} (a0) (a1) (a2) (a3) (a4) {s : State} (h : Good q s) :
    Good q (takeTrap a0 a1 a2 a3 a4 s) := by
  unfold takeTrap; dsimp only
  repeat'
    with_reducible first
      | assumption | intro _ | rw [trapCtx_regs] | apply bumpEngine_good | apply bump_good | apply setEngine_good
      | apply haltEngine_good | apply setCtx_good | refine keep_ite ?_ ?_ | exact fun _ h => h | apply engOk_mk

theorem trapHere_good {q : List Instr} (a0) (a1) (a2) (a3) {s : State} (h : Good q s) :
    Good q (trapHere a0 a1 a2 a3 s) := by
  unfold trapHere
  repeat' (with_reducible first | assumption | intro _ | apply takeTrap_good | split)

theorem switchTo_good {q : List Instr} (a0) (a1) {s : State} (h : Good q s) : Good q (switchTo a0 a1 s) := by
  unfold switchTo; dsimp only
  repeat'
    with_reducible first
      | assumption | intro _ | apply setEngine_good | apply bumpEngine_good | apply setCtx_good
      | refine keep_ite ?_ ?_ | exact fun _ h => h | apply engOk_mk

theorem takeInterrupt_good {q : List Instr} (a0) (a1) {s : State} (h : Good q s) :
    Good q (takeInterrupt a0 a1 s) := by
  unfold takeInterrupt; dsimp only
  repeat' (with_reducible first | assumption | intro _ | apply takeTrap_good | split)

theorem meRun_good {q : List Instr} (a0) (a1) (a2) {f3} (hf3 : ∀ x0, Good q x0 → GoodO q (f3 x0)) {s : State} (h : Good q s) :
    GoodO q (meRun a0 a1 a2 f3 s) := by
  unfold meRun; dsimp only
  repeat'
    with_reducible first
      | assumption | intro _ | apply hf3 | apply switchTo_good | apply takeInterrupt_good | apply trapHere_good
      | apply sampleIssue_good | apply bump_good | apply goodO_next | apply goodO_fault | apply goodO_refused
      | refine keep_ite ?_ ?_ | split

theorem block_good {q : List Instr} (a0) (a1) (a2) {s : State} (h : Good q s) : Good q (block a0 a1 a2 s) := by
  unfold block
  repeat' (with_reducible first | assumption | intro _ | apply setCtx_good)

theorem aluDone_good {q : List Instr} (a0) (a1) (a2) (a3) (a4) {s : State} (h : Good q s) :
    Good q (aluDone a0 a1 a2 a3 a4 s) := by
  unfold aluDone; dsimp only
  repeat'
    with_reducible first
      | assumption | intro _ | apply setStamp_good | apply setReg_good | apply setCtx_good | apply nextPc_good
      | apply takeTrap_good | refine keep_ite ?_ ?_

theorem aluRR_good {q : List Instr} (a0) (a1) (a2) (a3) (a4) (a5) {s : State} (h : Good q s) :
    GoodO q (aluRR a0 a1 a2 a3 a4 a5 s) := by
  unfold aluRR
  repeat' (with_reducible first | assumption | intro _ | apply meRun_good | apply aluDone_good | apply goodO_next)

theorem aluR_good {q : List Instr} (a0) (a1) (a2) (a3) (a4) {s : State} (h : Good q s) :
    GoodO q (aluR a0 a1 a2 a3 a4 s) := by
  unfold aluR
  repeat' (with_reducible first | assumption | intro _ | apply meRun_good | apply aluDone_good | apply goodO_next)

theorem aluK_good {q : List Instr} (a0) (a1) (a2) (a3) {s : State} (h : Good q s) : GoodO q (aluK a0 a1 a2 a3 s) := by
  unfold aluK
  repeat' (with_reducible first | assumption | intro _ | apply meRun_good | apply aluDone_good | apply goodO_next)

theorem branch_good {q : List Instr} (a0) (a1) (a2) (a3) (a4) (a5) {s : State} (h : Good q s) :
    GoodO q (branch a0 a1 a2 a3 a4 a5 s) := by
  unfold branch; dsimp only
  repeat'
    with_reducible first
      | assumption | intro _ | apply meRun_good | apply retire_good | apply setPc_good | apply goodO_next

theorem setEvent_good {q : List Instr} (a0) (a1) (a2) {s : State} (h : Good q s) : Good q (setEvent a0 a1 a2 s) := by
  unfold setEvent; dsimp only
  repeat'
    with_reducible first
      | assumption | intro _ | apply setCtx_good | apply finish_good | refine keep_ite ?_ ?_ | exact fun _ h => h
      | split

theorem loadDone_good {q : List Instr} (a0) (a1) (a2) (a3) (a4) (a5) (a6) {s : State} (h : Good q s) :
    Good q (loadDone a0 a1 a2 a3 a4 a5 a6 s) := by
  unfold loadDone; dsimp only
  repeat'
    with_reducible first
      | assumption | intro _ | apply setStamp_good | apply setReg_good | apply nextPc_good | refine keep_ite ?_ ?_

theorem hostAccess_good {q : List Instr} (a0) (a1) (a2) (a3) (a4) (a5) {s : State} (h : Good q s) :
    Good q (hostAccess a0 a1 a2 a3 a4 a5 s) := by
  unfold hostAccess; dsimp only
  repeat' (with_reducible first | assumption | intro _ | apply later_good | split)

theorem remoteAccess_good {q : List Instr} (a0) (a1) (a2) (a3) (a4) (a5) (a6) (a7) {s : State} (h : Good q s) :
    Good q (remoteAccess a0 a1 a2 a3 a4 a5 a6 a7 s) := by
  unfold remoteAccess; dsimp only
  repeat' (with_reducible first | assumption | intro _ | apply later_good | split)

theorem sramRead_good {q : List Instr} (a0) (a1) (a2) (a3) (a4) {f5} (hf5 : ∀ x0 x1, Good q x1 → Good q (f5 x0 x1)) {s : State} (h : Good q s) :
    Good q (sramRead a0 a1 a2 a3 a4 f5 s) := by
  unfold sramRead
  repeat'
    with_reducible first
      | assumption | intro _ | apply hf5 | apply trapHere_good | apply bump_good | refine keep_ite ?_ ?_ | split

theorem localLoad_good {q : List Instr} (a0) (a1) (a2) (a3) (a4) {f5} (hf5 : ∀ x0 x1, Good q x1 → Good q (f5 x0 x1)) {s : State} (h : Good q s) :
    Good q (localLoad a0 a1 a2 a3 a4 f5 s) := by
  unfold localLoad; dsimp only
  repeat'
    with_reducible first
      | assumption | intro _ | apply hf5 | apply sramRead_good | apply trapHere_good | apply observe_good
      | apply cmRead_good | apply good2_mk | refine good2_eq (by assumption) ?_
      | refine good2_snd (p := observe _ _ _ _ _ _) ?_ | apply good3_mk | refine good3_eq (by assumption) ?_
      | refine good3_snd (p := cmRead _ _ _ _) ?_ | refine keep_ite ?_ ?_ | split

theorem loadParts_good {q : List Instr} (a0) (a1) (a2) {f3} (hf3 : ∀ x0 x1, Good q x1 → Good q (f3 x0 x1)) {s : State} (h : Good q s) :
    Good q (loadParts a0 a1 a2 f3 s) := by
  unfold loadParts
  repeat'
    with_reducible first
      | assumption | intro _ | apply hf3 | apply localLoad_good | refine keep_ite ?_ ?_ | split

theorem doLoad_good {q : List Instr} (a0) (a1) (a2) (a3) (a4) (a5) (a6) {s : State} (h : Good q s) :
    GoodO q (doLoad a0 a1 a2 a3 a4 a5 a6 s) := by
  unfold doLoad; dsimp only
  repeat'
    with_reducible first
      | assumption | intro _ | apply trapHere_good | apply sampleAccess_good | apply loadParts_good
      | apply loadDone_good | apply endItem_good | apply draw_good | apply block_good | apply hostAccess_good
      | apply remoteAccess_good | apply good2_mk | refine good2_eq (by assumption) ?_
      | refine good2_snd (p := draw _ _) ?_ | apply goodO_next | apply goodO_fault | apply goodO_refused
      | refine keep_ite ?_ ?_ | split

theorem remoteStore_good {q : List Instr} (a0) (a1) (a2) (a3) (a4) (a5) (a6) {s : State} (h : Good q s) :
    Good q (remoteStore a0 a1 a2 a3 a4 a5 a6 s) := by
  unfold remoteStore; dsimp only
  repeat'
    with_reducible first
      | assumption | intro _ | simp only [good_upd, good_updMe] | apply block_good | apply setCtx_good
      | apply remoteAccess_good

theorem arrayStore_good {q : List Instr} (a0) (a1) (a2) (a3) (a4) {s : State} (h : Good q s) :
    Good q (arrayStore a0 a1 a2 a3 a4 s) := by
  unfold arrayStore
  repeat'
    with_reducible first
      | assumption | intro _ | apply ldmWrite_good | apply cmemStore_good | apply contextStore_good
      | refine keep_ite ?_ ?_ | split

theorem storeParts_good {q : List Instr} (a0) (a1) (a2) {s : State} (h : Good q s) :
    Good q (storeParts a0 a1 a2 s) := by
  unfold storeParts
  repeat' (with_reducible first | assumption | intro _ | apply arrayStore_good | refine keep_ite ?_ ?_ | split)

theorem doStore_good {q : List Instr} (a0) (a1) (a2) (a3) {s : State} (h : Good q s) :
    GoodO q (doStore a0 a1 a2 a3 s) := by
  unfold doStore; dsimp only
  repeat'
    with_reducible first
      | assumption | intro _ | apply trapHere_good | apply sampleAccess_good | apply nextPc_good
      | apply storeParts_good | apply endItem_good | apply emit_good | apply hostAccess_good | apply block_good
      | apply remoteStore_good | apply goodO_next | apply goodO_fault | apply goodO_refused | refine keep_ite ?_ ?_
      | split

theorem noteWrote_good {q : List Instr} (a0) (a1) (a2) {s : State} (h : Good q s) :
    Good q (noteWrote a0 a1 a2 s) := by
  unfold noteWrote; dsimp only
  repeat' (with_reducible first | assumption | intro _ | apply setCtx_good)

theorem unblock_good {q : List Instr} (a0) (a1) {s : State} (h : Good q s) : Good q (unblock a0 a1 s) := by
  unfold unblock
  repeat' (with_reducible first | assumption | intro _ | apply setCtx_good)

theorem storeLeft_good {q : List Instr} (a0) (a1) (a2) {s : State} (h : Good q s) :
    Good q (storeLeft a0 a1 a2 s) := by
  unfold storeLeft
  repeat'
    with_reducible first
      | assumption | intro _ | apply nextPc_good | apply unblock_good | apply remoteStore_good
      | refine keep_ite ?_ ?_ | apply good_id | split

theorem pairProbed_good {q : List Instr} (a0) (a1) (a2) (a3) (a4) {s : State} (h : Good q s) :
    Good q (pairProbed a0 a1 a2 a3 a4 s) := by
  unfold pairProbed; dsimp only
  repeat'
    with_reducible first
      | assumption | intro _ | apply hostAccess_good | apply setCtx_good | apply trapHere_good | apply unblock_good
      | apply nextPc_good | apply noteWrote_good | apply performAcc_good | refine keep_ite ?_ ?_
      | exact fun _ h => h | split

theorem engineResult_good {q : List Instr} (a0) (a1) (a2) {s : State} (h : Good q s) :
    Good q (engineResult a0 a1 a2 s) := by
  unfold engineResult; dsimp only
  repeat'
    with_reducible first
      | assumption | intro _ | apply unblock_good | apply trapHere_good | apply setCtx_good | apply hostAccess_good
      | apply remoteAccess_good | apply loadDone_good | apply nextPc_good | apply noteWrote_good
      | apply pairProbed_good | refine keep_ite ?_ ?_ | exact fun _ h => h | split

theorem fenceLeft_good {q : List Instr} (a0) (a1) (a2) (a3) {s : State} (h : Good q s) :
    Good q (fenceLeft a0 a1 a2 a3 s) := by
  unfold fenceLeft
  repeat' (with_reducible first | assumption | intro _ | apply setCtx_good)

theorem fenceCheck_good {q : List Instr} (a0) (a1) {s : State} (h : Good q s) : Good q (fenceCheck a0 a1 s) := by
  unfold fenceCheck; dsimp only
  repeat'
    with_reducible first
      | assumption | intro _ | apply trapHere_good | apply setCtx_good | apply nextPc_good | apply fenceArrays_good
      | apply unblock_good | refine keep_ite ?_ ?_ | exact fun _ h => h | split

theorem noteFail_regs (a : Nat) (x : ECtx) : (noteFail a x).regs = x.regs := rfl

theorem fenceAck_good {q : List Instr} (e c no : Nat) (ok : Bool) (addr : Nat) {ack : ECtx → ECtx}
    (ha : ∀ x, mwf x.regs = true → mwf (ack x).regs = true) {s : State} (h : Good q s) :
    Good q (fenceAck e c no ok addr ack s) := by
  unfold fenceAck; dsimp only
  split
  · refine keep_ite h (fenceCheck_good _ _ (setCtx_good _ _ _ (fun x hx => ?_) (fenceLeft_good _ _ _ _ h)))
    split
    · exact ha x hx
    · rw [noteFail_regs]; exact hx
  · exact h

theorem fenceRead_good {q : List Instr} (e c no k addr : Nat) (r : AccResult) {s : State} (h : Good q s) :
    Good q (fenceRead e c no k addr r s) := by
  unfold fenceRead
  apply fenceAck_good
  · intro x hx; exact hx
  · exact h

theorem fenceFlushed_good {q : List Instr} (e c no addr dest tenant : Nat) (ok : Bool) {s : State} (h : Good q s) :
    Good q (fenceFlushed e c no addr dest tenant ok s) := by
  unfold fenceFlushed; dsimp only
  split
  · exact keep_ite h (fenceAck_good _ _ _ _ _ (fun _ h => h) (setCtx_good _ _ _ (fun _ h => h) h))
  · exact h

theorem remoteDone_good {q : List Instr} (a0) (a1) (a2) (a3) (a4) {s : State} (h : Good q s) :
    Good q (remoteDone a0 a1 a2 a3 a4 s) := by
  unfold remoteDone; dsimp only
  repeat'
    with_reducible first
      | assumption | intro _ | rw [noteFail_regs] | apply engineResult_good | apply trapHere_good
      | apply unblock_good | apply setCtx_good | apply storeLeft_good | apply fenceCheck_good | apply good_when
      | refine keep_ite ?_ ?_ | apply good_id | exact fun _ h => h | split

/-! ### Machine/Locks.lean -/

theorem setLock_good {q : List Instr} (a0) (a1) {s : State} (h : Good q s) : Good q (setLock a0 a1 s) := by
  unfold setLock
  repeat' (with_reducible first | assumption | intro _ | simp only [good_upd] | split)

theorem lockEvent_good {q : List Instr} (a0) (a1) (a2) (a3) (a4) (a5) {s : State} (h : Good q s) :
    Good q (lockEvent a0 a1 a2 a3 a4 a5 s) := by
  unfold lockEvent
  repeat' (with_reducible first | assumption | intro _ | apply later_good | split)

theorem signalInherit_good {q : List Instr} (a0) (a1) (a2) {s : State} (h : Good q s) :
    Good q (signalInherit a0 a1 a2 s) := by
  unfold signalInherit; dsimp only
  repeat'
    with_reducible first
      | assumption | intro _ | apply bump_good | apply setEvent_good | apply lockEvent_good | refine keep_ite ?_ ?_
      | apply good_id | split

theorem recomputeHeld_good {q : List Instr} (a0) (a1) {s : State} (h : Good q s) :
    Good q (recomputeHeld a0 a1 s) := by
  unfold recomputeHeld; dsimp only
  repeat'
    with_reducible first
      | assumption | intro _ | apply setLock_good | apply signalInherit_good | apply good_foldSt
      | refine keep_ite ?_ ?_ | split

theorem propagate_good {q : List Instr} (a0) (a1) (a2) {s : State} (h : Good q s) :
    Good q (propagate a0 a1 a2 s) := by
  induction a0 generalizing s a1 a2 with
  | zero => exact bump_good _ _ h
  | succ n ih =>
    unfold propagate; try dsimp only
    repeat'
      with_reducible first
        | assumption | apply ih | intro _ | apply bump_good | apply recomputeHeld_good | apply setLock_good
        | refine keep_ite ?_ ?_ | split

theorem reprioritise_good {q : List Instr} (a0) {s : State} (h : Good q s) : Good q (reprioritise a0 s) := by
  unfold reprioritise
  repeat' (with_reducible first | assumption | intro _ | apply propagate_good | refine keep_ite ?_ ?_ | split)

theorem deliverGrant_good {q : List Instr} (a0) (a1) (a2) {s : State} (h : Good q s) :
    Good q (deliverGrant a0 a1 a2 s) := by
  unfold deliverGrant; dsimp only
  repeat'
    with_reducible first
      | assumption | intro _ | apply lockEvent_good | apply finish_good | apply setCtx_good | apply setEvent_good
      | refine keep_ite ?_ ?_ | apply good_id | exact fun _ h => h | split

theorem dropGrant_good {q : List Instr} (a0) {s : State} (h : Good q s) : Good q (dropGrant a0 s) := by
  unfold dropGrant
  repeat'
    with_reducible first
      | assumption | intro _ | apply setCtx_good | refine keep_ite ?_ ?_ | apply good_id | exact fun _ h => h
      | split

theorem handoff_good {q : List Instr} (a0) (a1) {s : State} (h : Good q s) : Good q (handoff a0 a1 s) := by
  unfold handoff; dsimp only
  repeat'
    with_reducible first
      | assumption | intro _ | apply dropGrant_good | apply setLock_good | apply recomputeHeld_good
      | apply bump_good | apply deliverGrant_good | apply good_when | refine keep_ite ?_ ?_ | split

theorem giveUp_good {q : List Instr} (a0) (a1) (a2) {s : State} (h : Good q s) : Good q (giveUp a0 a1 a2 s) := by
  unfold giveUp
  repeat' (with_reducible first | assumption | intro _ | apply propagate_good | apply handoff_good)

theorem takeLock_good {q : List Instr} (a0) (a1) (a2) (a3) {s : State} (h : Good q s) :
    Good q (takeLock a0 a1 a2 a3 s) := by
  unfold takeLock
  repeat' (with_reducible first | assumption | intro _ | apply setLock_good | split)

theorem enqueueWaiter_good {q : List Instr} (a0) (a1) (a2) (a3) {s : State} (h : Good q s) :
    Good q (enqueueWaiter a0 a1 a2 a3 s) := by
  unfold enqueueWaiter; dsimp only
  repeat' (with_reducible first | assumption | intro _ | apply reprioritise_good | apply setLock_good)

theorem removeWaiter_good {q : List Instr} (a0) (a1) {s : State} (h : Good q s) : Good q (removeWaiter a0 a1 s) := by
  unfold removeWaiter
  repeat' (with_reducible first | assumption | intro _ | apply reprioritise_good | apply setLock_good)

theorem orphanParties_good {q : List Instr} (a0) {s : State} (h : Good q s) : Good q (orphanParties a0 s) := by
  unfold orphanParties; dsimp only
  repeat'
    with_reducible first
      | assumption | intro _ | apply reprioritise_good | apply setLock_good | apply handoff_good | apply good_foldSt

theorem orphanFn_good {q : List Instr} (a0) {s : State} (h : Good q s) : Good q (orphanFn a0 s) := by
  unfold orphanFn
  repeat' (with_reducible first | assumption | intro _ | apply orphanParties_good)

end Sys2Proof.Machine
end

