-- ==== Sys2Proof/Laws/KeepMatch.lean ====
section
/-!
SUPPORT. Keeping the queue of commands and the canonical form: the targets of remote access and the matching unit.
-/
namespace Sys2Proof.Machine

/-! ### Machine/RemoteTgt.lean -/

theorem setTgt_good {q : List Instr} (a0) (a1) {s : State} (h : Good q s) : Good q (setTgt a0 a1 s) := by
  unfold setTgt
  repeat' (with_reducible first | assumption | intro _ | simp only [good_upd] | split)

theorem setRMsg_good {q : List Instr} (a0) (a1) (a2) {s : State} (h : Good q s) : Good q (setRMsg a0 a1 a2 s) := by
  unfold setRMsg
  repeat' (with_reducible first | assumption | intro _ | apply setTgt_good | split)

theorem sendRefusal_good {q : List Instr} (a0) (a1) (a2) {s : State} (h : Good q s) :
    Good2 q (sendRefusal a0 a1 a2 s) := by
  unfold sendRefusal; dsimp only
  repeat' (with_reducible first | assumption | intro _ | apply injectPacket_good | apply bump_good | apply good2_mk)

theorem setFlush_good {q : List Instr} (a0) (a1) (a2) {s : State} (h : Good q s) : Good q (setFlush a0 a1 a2 s) := by
  unfold setFlush
  repeat' (with_reducible first | assumption | intro _ | apply setTgt_good | split)

theorem flushReads_good {q : List Instr} (a0) (a1) {s : State} (h : Good q s) : Good q (flushReads a0 a1 s) := by
  unfold flushReads
  repeat' (with_reducible first | assumption | intro _ | apply later_good | apply setFlush_good | apply good_foldSt)

theorem finishRsn_good {q : List Instr} (a0) (a1) {s : State} (h : Good q s) : Good q (finishRsn a0 a1 s) := by
  unfold finishRsn; dsimp only
  repeat'
    with_reducible first
      | assumption | intro _ | apply setTgt_good | apply flushReads_good | apply later_good | apply setFlush_good
      | apply good_foldSt | refine keep_ite ?_ ?_ | split

theorem ackMsg_good {q : List Instr} (a0) (a1) (a2) (a3) {s : State} (h : Good q s) :
    Good q (ackMsg a0 a1 a2 a3 s) := by
  unfold ackMsg; dsimp only
  repeat'
    with_reducible first
      | assumption | intro _ | apply setTgt_good | apply finishRsn_good | apply injectPacket_good
      | refine keep_ite ?_ ?_ | split

theorem refuseMsg_good {q : List Instr} (a0) (a1) (a2) (a3) {s : State} (h : Good q s) :
    Good q (refuseMsg a0 a1 a2 a3 s) := by
  unfold refuseMsg; dsimp only
  repeat'
    with_reducible first
      | assumption | intro _ | apply sendRefusal_good | apply later_good | apply setRMsg_good | apply setTgt_good
      | apply finishRsn_good | apply good_when | apply good2_mk | refine good2_eq (by assumption) ?_
      | refine good2_snd (p := sendRefusal _ _ _ _) ?_ | refine keep_ite ?_ ?_ | split

theorem addRMsg_good {q : List Instr} (a0) (a1) (a2) {s : State} (h : Good q s) : Good q (addRMsg a0 a1 a2 s) := by
  unfold addRMsg; dsimp only
  repeat' (with_reducible first | assumption | intro _ | simp only [good_upd] | apply setTgt_good)

theorem frontIn_good {q : List Instr} (a0) (a1) (a2) {s : State} (h : Good q s) : Good2 q (frontIn a0 a1 a2 s) := by
  unfold frontIn; dsimp only
  repeat'
    with_reducible first
      | assumption | intro _ | apply bump_good | apply setTgt_good | apply injectPacket_good | apply setRMsg_good
      | apply addRMsg_good | apply good_when | apply good2_mk | refine good2_eq (by assumption) ?_
      | refine keep_ite ?_ ?_ | split

theorem front_good {q : List Instr} (a0) {s : State} (h : Good q s) : Good2 q (front a0 s) := by
  unfold front; dsimp only
  repeat'
    with_reducible first
      | assumption | intro _ | simp only [good_upd] | apply sendRefusal_good | apply bump_good | apply setTgt_good
      | apply frontIn_good | apply placeStack_good | apply addRMsg_good | apply good2_mk
      | refine good2_eq (by assumption) ?_ | refine good2_snd (p := sendRefusal _ _ _ _) ?_
      | refine good2_snd (p := frontIn _ _ _ _) ?_ | refine good2_snd (p := placeStack _) ?_ | refine keep_ite ?_ ?_
      | split

theorem flowExpiry_good {q : List Instr} (a0) {s : State} (h : Good q s) : Good q (flowExpiry a0 s) := by
  unfold flowExpiry
  repeat'
    with_reducible first
      | assumption | intro _ | simp only [good_upd] | apply kickWaiting_good | refine keep_ite ?_ ?_ | split

theorem flushArrive_good {q : List Instr} (a0) (a1) {s : State} (h : Good q s) : Good q (flushArrive a0 a1 s) := by
  unfold flushArrive; dsimp only
  repeat'
    with_reducible first
      | assumption | intro _ | apply setTgt_good | apply ackMsg_good | apply flushReads_good | refine keep_ite ?_ ?_
      | apply good_foldl | split

theorem flushRead_good {q : List Instr} (a0) (a1) (a2) {s : State} (h : Good q s) :
    Good q (flushRead a0 a1 a2 s) := by
  unfold flushRead
  repeat'
    with_reducible first
      | assumption | intro _ | apply ackMsg_good | apply setFlush_good | apply refuseMsg_good
      | refine keep_ite ?_ ?_ | split

/-! ### Machine/MatchOps.lean -/

theorem setDom_good {q : List Instr} (a0) (a1) {s : State} (h : Good q s) : Good q (setDom a0 a1 s) := by
  unfold setDom
  repeat' (with_reducible first | assumption | intro _ | simp only [good_upd] | split)

theorem listWrote_good {q : List Instr} (a0) {s : State} (h : Good q s) : Good q (listWrote a0 s) := by
  unfold listWrote
  repeat' (with_reducible first | assumption | intro _ | apply poolWrote_good | split)

theorem dataWrote_good {q : List Instr} (a0) (a1) {s : State} (h : Good q s) : Good q (dataWrote a0 a1 s) := by
  unfold dataWrote
  repeat' (with_reducible first | assumption | intro _ | apply poolWrote_good | split)

theorem domEvent_good {q : List Instr} (a0) (a1) (a2) (a3) {s : State} (h : Good q s) :
    Good q (domEvent a0 a1 a2 a3 s) := by
  unfold domEvent; dsimp only
  repeat'
    with_reducible first
      | assumption | intro _ | apply postEvent_good | apply setDom_good | refine keep_ite ?_ ?_

theorem domOpen_good {q : List Instr} (a0) {s : State} (h : Good q s) : Good q (domOpen a0 s) := by
  unfold domOpen; dsimp only
  repeat'
    with_reducible first
      | assumption | intro _ | apply placeStack_good | apply setDom_good | apply good2_mk
      | refine good2_eq (by assumption) ?_ | refine good2_snd (p := placeStack _) ?_

theorem setPlacing_good {q : List Instr} (a0) (a1) {s : State} (h : Good q s) : Good q (setPlacing a0 a1 s) := by
  unfold setPlacing
  repeat' (with_reducible first | assumption | intro _ | simp only [good_upd] | split)

theorem dropGet_good {q : List Instr} (a0) {s : State} (h : Good q s) : Good q (dropGet a0 s) := by
  unfold dropGet; dsimp only
  repeat'
    with_reducible first
      | assumption | intro _ | simp only [good_upd] | apply dropMsg_good | refine keep_ite ?_ ?_ | split

theorem placingEnd_good {q : List Instr} (a0) {s : State} (h : Good q s) : Good q (placingEnd a0 s) := by
  unfold placingEnd; dsimp only
  repeat'
    with_reducible first
      | assumption | intro _ | simp only [good_upd] | apply dropGet_good | apply recvDone_good
      | apply refuseMsg_good | apply ackMsg_good | refine keep_ite ?_ ?_ | split

theorem placingInfo_good {q : List Instr} (a0) (a1) {s : State} (h : Good q s) : Good q (placingInfo a0 a1 s) := by
  unfold placingInfo; dsimp only
  repeat'
    with_reducible first
      | assumption | intro _ | apply later_good | apply setPlacing_good | apply placingEnd_good
      | refine keep_ite ?_ ?_

theorem noteLink_good {q : List Instr} (a0) (a1) (a2) {s : State} (h : Good q s) : Good q (noteLink a0 a1 a2 s) := by
  unfold noteLink
  repeat' (with_reducible first | assumption | intro _ | apply setTgt_good | split)

theorem placingNext_good {q : List Instr} (a0) (a1) {s : State} (h : Good q s) : Good q (placingNext a0 a1 s) := by
  induction a1 generalizing s a0 with
  | zero => exact h
  | succ n ih =>
    unfold placingNext; try dsimp only
    repeat'
      with_reducible first
        | assumption | apply ih | intro _ | apply later_good | apply noteLink_good | apply placingInfo_good
        | apply setPlacing_good | refine keep_ite ?_ ?_ | split

theorem placingGo_good {q : List Instr} (a0) {s : State} (h : Good q s) : Good q (placingGo a0 s) := by
  unfold placingGo
  repeat' (with_reducible first | assumption | intro _ | apply placingNext_good | refine keep_ite ?_ ?_ | split)

theorem placingDone_good {q : List Instr} (a0) (a1) (a2) {s : State} (h : Good q s) :
    Good q (placingDone a0 a1 a2 s) := by
  unfold placingDone; dsimp only
  repeat'
    with_reducible first
      | assumption | intro _ | apply placingGo_good | apply setPlacing_good | refine keep_ite ?_ ?_ | split

theorem placingData_good {q : List Instr} (a0) (a1) {s : State} (h : Good q s) : Good q (placingData a0 a1 s) := by
  unfold placingData; dsimp only
  repeat'
    with_reducible first
      | assumption | intro _ | apply dropWaiters_good | apply placingGo_good | apply setPlacing_good
      | refine keep_ite ?_ ?_

theorem fetchFailed_good {q : List Instr} (a0) {s : State} (h : Good q s) : Good q (fetchFailed a0 s) := by
  unfold fetchFailed; dsimp only
  repeat'
    with_reducible first
      | assumption | intro _ | apply dropWaiters_good | apply placingGo_good | apply setPlacing_good

theorem bind_good {q : List Instr} (a0) (a1) (a2) (a3) (a4) {s : State} (h : Good q s) :
    Good q (bind a0 a1 a2 a3 a4 s) := by
  unfold bind; dsimp only
  repeat'
    with_reducible first
      | assumption | intro _ | simp only [good_upd] | apply startMsg_good | apply placingGo_good
      | refine keep_ite ?_ ?_

theorem ackStored_good {q : List Instr} (a0) (a1) {s : State} (h : Good q s) : Good q (ackStored a0 a1 s) := by
  unfold ackStored; dsimp only
  repeat'
    with_reducible first
      | assumption | intro _ | apply ackMsg_good | apply setDom_good | refine keep_ite ?_ ?_

theorem refuseU_good {q : List Instr} (a0) (a1) {s : State} (h : Good q s) : Good q (refuseU a0 a1 s) := by
  unfold refuseU
  repeat' (with_reducible first | assumption | intro _ | apply refuseMsg_good | split)

theorem arrive_good {q : List Instr} (a0) (a1) (a2) {s : State} (h : Good q s) : Good q (arrive a0 a1 a2 s) := by
  unfold arrive; dsimp only
  repeat'
    with_reducible first
      | assumption | intro _ | apply setDom_good | apply bind_good | apply bump_good | apply domEvent_good
      | apply refuseU_good | apply dataWrote_good | apply listWrote_good | apply ackStored_good | apply good_when
      | refine keep_ite ?_ ?_ | split

theorem atTurn_good {q : List Instr} (a0) (a1) (a2) {s : State} (h : Good q s) : Good q (atTurn a0 a1 a2 s) := by
  unfold atTurn
  repeat'
    with_reducible first
      | assumption | intro _ | apply ackMsg_good | apply arrive_good | refine keep_ite ?_ ?_

theorem setRecvNext_good {q : List Instr} (a0) (a1) (a2) {s : State} (h : Good q s) :
    Good q (setRecvNext a0 a1 a2 s) := by
  unfold setRecvNext
  repeat' (with_reducible first | assumption | intro _ | simp only [good_upd] | split)

theorem releaseSeq_good {q : List Instr} (a0) (a1) (a2) {s : State} (h : Good q s) :
    Good q (releaseSeq a0 a1 a2 s) := by
  induction a2 generalizing s a0 a1 with
  | zero => exact h
  | succ n ih =>
    unfold releaseSeq; try dsimp only
    repeat'
      with_reducible first
        | assumption | apply ih | intro _ | apply atTurn_good | apply bump_good | apply refuseU_good | apply setDom_good
        | apply setRecvNext_good | refine keep_ite ?_ ?_ | split

theorem muRetry_good {q : List Instr} (a0) {s : State} (h : Good q s) : Good q (muRetry a0 s) := by
  unfold muRetry
  repeat' (with_reducible first | assumption | intro _ | apply refuseMsg_good | apply bump_good)

theorem ordered_good {q : List Instr} (a0) (a1) (a2) {s : State} (h : Good q s) : Good q (ordered a0 a1 a2 s) := by
  unfold ordered; dsimp only
  repeat'
    with_reducible first
      | assumption | intro _ | simp only [good_upd] | apply refuseU_good | apply bump_good | apply muRetry_good
      | apply domEvent_good | apply atTurn_good | apply setRecvNext_good | apply releaseSeq_good | apply setDom_good
      | apply dataWrote_good | apply listWrote_good | apply ackStored_good | refine keep_ite ?_ ?_

theorem laterPacket_good {q : List Instr} (a0) (a1) {s : State} (h : Good q s) : Good q (laterPacket a0 a1 s) := by
  unfold laterPacket; dsimp only
  repeat'
    with_reducible first
      | assumption | intro _ | apply ackStored_good | apply setDom_good | apply dataWrote_good
      | apply placingData_good | refine keep_ite ?_ ?_ | split

theorem recvGone_good {q : List Instr} (a0) (a1) {s : State} (h : Good q s) : Good q (recvGone a0 a1 s) := by
  unfold recvGone
  repeat' (with_reducible first | assumption | intro _ | apply recvDone_good | split)

theorem post_good {q : List Instr} (a0) (a1) {s : State} (h : Good q s) : Good q (post a0 a1 s) := by
  unfold post; dsimp only
  repeat'
    with_reducible first
      | assumption | intro _ | apply recvGone_good | apply setDom_good | apply bind_good | apply bump_good
      | apply domEvent_good | apply listWrote_good | refine keep_ite ?_ ?_ | split

theorem cancel_good {q : List Instr} (a0) (a1) {s : State} (h : Good q s) : Good q (cancel a0 a1 s) := by
  unfold cancel; dsimp only
  repeat'
    with_reducible first
      | assumption | intro _ | apply setDom_good | apply recvGone_good | apply recvDone_good
      | apply releaseSlots_good | apply bump_good | refine keep_ite ?_ ?_ | split

theorem takeRecvOp_good {q : List Instr} (a0) (a1) {f2} (hf2 : ∀ x0 x1, Good q x1 → Good q (f2 x0 x1)) {s : State} (h : Good q s) :
    Good q (takeRecvOp a0 a1 f2 s) := by
  unfold takeRecvOp; dsimp only
  repeat'
    with_reducible first
      | assumption | intro _ | apply hf2 | apply setQueue_good | refine keep_ite ?_ ?_ | split

theorem recvPost_good {q : List Instr} (a0) {s : State} (h : Good q s) : Good q (recvPost a0 s) := by
  unfold recvPost
  repeat' (with_reducible first | assumption | intro _ | apply takeRecvOp_good | apply post_good)

theorem recvCancel_good {q : List Instr} (a0) {s : State} (h : Good q s) : Good q (recvCancel a0 s) := by
  unfold recvCancel
  repeat' (with_reducible first | assumption | intro _ | apply takeRecvOp_good | apply cancel_good)

theorem domClose_good {q : List Instr} (a0) (a1) {s : State} (h : Good q s) : Good q (domClose a0 a1 s) := by
  unfold domClose; dsimp only
  repeat'
    with_reducible first
      | assumption | intro _ | simp only [good_upd] | apply setDom_good | apply recvGone_good | apply refuseU_good
      | apply kickWaiting_good | apply dropMsg_good | apply good_foldSt | refine keep_ite ?_ ?_

theorem domCommand_good {q : List Instr} (a0) {s : State} (h : Good q s) : Good q (domCommand a0 s) := by
  unfold domCommand
  repeat'
    with_reducible first
      | assumption | intro _ | apply bump_good | apply domOpen_good | apply domClose_good | refine keep_ite ?_ ?_

theorem domCloseComplete_good {q : List Instr} (a0) {s : State} (h : Good q s) : Good q (domCloseComplete a0 s) := by
  unfold domCloseComplete; dsimp only
  repeat'
    with_reducible first
      | assumption | intro _ | apply postEvent_good | apply setDom_good | refine keep_ite ?_ ?_

theorem tsend_good {q : List Instr} (a0) {s : State} (h : Good q s) : Good q (tsend a0 s) := by
  unfold tsend; dsimp only
  repeat'
    with_reducible first
      | assumption | intro _ | simp only [good_upd] | apply complete_good | apply markStarted_good
      | apply domEvent_good | apply startIn_good | refine keep_ite ?_ ?_ | split

theorem rgetNext_good {q : List Instr} (a0) (a1) (a2) (a3) {s : State} (h : Good q s) :
    Good q (rgetNext a0 a1 a2 a3 s) := by
  unfold rgetNext; dsimp only
  repeat'
    with_reducible first
      | assumption | intro _ | apply refuseMsg_good | apply later_good | refine keep_ite ?_ ?_ | split

theorem rgetRead_good {q : List Instr} (a0) (a1) (a2) (a3) (a4) {s : State} (h : Good q s) :
    Good q (rgetRead a0 a1 a2 a3 a4 s) := by
  unfold rgetRead; dsimp only
  repeat'
    with_reducible first
      | assumption | intro _ | apply rgetNext_good | apply injectPacket_good | apply finishRsn_good
      | apply refuseMsg_good | refine keep_ite ?_ ?_ | split

theorem rgetArrive_good {q : List Instr} (a0) (a1) {s : State} (h : Good q s) : Good q (rgetArrive a0 a1 s) := by
  unfold rgetArrive; dsimp only
  repeat'
    with_reducible first
      | assumption | intro _ | apply refuseMsg_good | apply ackMsg_good | apply rgetNext_good
      | refine keep_ite ?_ ?_

end Sys2Proof.Machine
end

