-- ==== Sys2Proof/Laws/KeepRemote.lean ====
section
/-!
SUPPORT. Keeping the queue of commands and the canonical form: remote access and the one-shots.
-/
namespace Sys2Proof.Machine

/-! ### Machine/RemoteOps.lean -/

theorem startPlain_good {q : List Instr} (a0) (a1) (a2) {s : State} (h : Good q s) :
    Good q (startPlain a0 a1 a2 s) := by
  unfold startPlain; dsimp only
  repeat'
    with_reducible first
      | assumption | intro _ | apply startIn_good | apply markStarted_good | refine keep_ite ?_ ?_ | split

theorem startPut_good {q : List Instr} (a0) {s : State} (h : Good q s) : Good q (startPut a0 s) := by
  unfold startPut
  repeat' (with_reducible first | assumption | intro _ | apply startPlain_good | split)

theorem startPutImm_good {q : List Instr} (a0) {s : State} (h : Good q s) : Good q (startPutImm a0 s) := by
  unfold startPutImm
  repeat' (with_reducible first | assumption | intro _ | apply startPlain_good | split)

theorem startGet_good {q : List Instr} (a0) {s : State} (h : Good q s) : Good q (startGet a0 s) := by
  unfold startGet
  repeat' (with_reducible first | assumption | intro _ | apply startPlain_good | split)

theorem startFadd_good {q : List Instr} (a0) {s : State} (h : Good q s) : Good q (startFadd a0 s) := by
  unfold startFadd
  repeat' (with_reducible first | assumption | intro _ | apply startPlain_good | split)

theorem startSwap_good {q : List Instr} (a0) {s : State} (h : Good q s) : Good q (startSwap a0 s) := by
  unfold startSwap
  repeat' (with_reducible first | assumption | intro _ | apply startPlain_good | split)

theorem startCas64_good {q : List Instr} (a0) {s : State} (h : Good q s) : Good q (startCas64 a0 s) := by
  unfold startCas64
  repeat' (with_reducible first | assumption | intro _ | apply startPlain_good | split)

theorem startCas128_good {q : List Instr} (a0) {s : State} (h : Good q s) : Good q (startCas128 a0 s) := by
  unfold startCas128
  repeat' (with_reducible first | assumption | intro _ | apply startPlain_good | split)

theorem startFlush_good {q : List Instr} (a0) {s : State} (h : Good q s) : Good q (startFlush a0 s) := by
  unfold startFlush
  repeat' (with_reducible first | assumption | intro _ | apply startPlain_good | split)

theorem startConn_good {q : List Instr} (a0) (a1) (a2) {s : State} (h : Good q s) :
    Good q (startConn a0 a1 a2 s) := by
  unfold startConn; dsimp only
  repeat'
    with_reducible first
      | assumption | intro _ | apply complete_good | apply markStarted_good | apply startIn_good
      | refine keep_ite ?_ ?_ | split

theorem startCsend_good {q : List Instr} (a0) {s : State} (h : Good q s) : Good q (startCsend a0 s) := by
  unfold startCsend
  repeat' (with_reducible first | assumption | intro _ | apply startConn_good | split)

theorem startCput_good {q : List Instr} (a0) {s : State} (h : Good q s) : Good q (startCput a0 s) := by
  unfold startCput
  repeat' (with_reducible first | assumption | intro _ | apply startConn_good | split)

theorem startCget_good {q : List Instr} (a0) {s : State} (h : Good q s) : Good q (startCget a0 s) := by
  unfold startCget
  repeat' (with_reducible first | assumption | intro _ | apply startConn_good | split)

theorem engineRemote_good {q : List Instr} (a0) (a1) (a2) (a3) (a4) (a5) (a6) (a7) (a8) (a9) {s : State} (h : Good q s) :
    Good q (engineRemote a0 a1 a2 a3 a4 a5 a6 a7 a8 a9 s) := by
  unfold engineRemote
  repeat' (with_reducible first | assumption | intro _ | apply startMsg_good | split)

theorem engineFlush_good {q : List Instr} (a0) (a1) (a2) {s : State} (h : Good q s) :
    Good q (engineFlush a0 a1 a2 s) := by
  unfold engineFlush
  repeat' (with_reducible first | assumption | intro _ | apply startMsg_good | split)

theorem setRegion_good {q : List Instr} (a0) (a1) {s : State} (h : Good q s) : Good q (setRegion a0 a1 s) := by
  unfold setRegion
  repeat' (with_reducible first | assumption | intro _ | simp only [good_upd] | split)

theorem takeBuffer_good {q : List Instr} (a0) {s : State} (h : Good q s) : Good2 q (takeBuffer a0 s) := by
  unfold takeBuffer
  repeat'
    with_reducible first
      | assumption | intro _ | simp only [good_upd] | apply good2_mk | refine good2_eq (by assumption) ?_
      | refine keep_ite ?_ ?_ | split

theorem bufferDone_good {q : List Instr} (a0) (a1) (a2) (a3) {s : State} (h : Good q s) :
    Good q (bufferDone a0 a1 a2 a3 s) := by
  unfold bufferDone
  repeat' (with_reducible first | assumption | intro _ | apply recvDone_good | split)

theorem placedAll_good {q : List Instr} (a0) (a1) {s : State} (h : Good q s) : Good q (placedAll a0 a1 s) := by
  unfold placedAll; dsimp only
  repeat'
    with_reducible first
      | assumption | intro _ | apply ackMsg_good | apply refuseMsg_good | apply takeBuffer_good
      | apply bufferDone_good | apply good2_mk | refine good2_eq (by assumption) ?_
      | refine good2_snd (p := takeBuffer _ _) ?_ | refine keep_ite ?_ ?_ | split

theorem placedMore_good {q : List Instr} (a0) (a1) (a2) {s : State} (h : Good q s) :
    Good q (placedMore a0 a1 a2 s) := by
  unfold placedMore; dsimp only
  repeat'
    with_reducible first
      | assumption | intro _ | apply setRMsg_good | apply placedAll_good | refine keep_ite ?_ ?_ | split

theorem placeNext_good {q : List Instr} (a0) (a1) (a2) {s : State} (h : Good q s) :
    Good q (placeNext a0 a1 a2 s) := by
  unfold placeNext; dsimp only
  repeat' (with_reducible first | assumption | intro _ | apply later_good | apply setRMsg_good)

theorem placeDone_good {q : List Instr} (a0) (a1) (a2) {s : State} (h : Good q s) :
    Good q (placeDone a0 a1 a2 s) := by
  unfold placeDone; dsimp only
  repeat'
    with_reducible first
      | assumption | intro _ | apply placeNext_good | apply placedMore_good | apply refuseMsg_good
      | refine keep_ite ?_ ?_ | split

theorem getNext_good {q : List Instr} (a0) (a1) (a2) (a3) {s : State} (h : Good q s) :
    Good q (getNext a0 a1 a2 a3 s) := by
  unfold getNext; dsimp only
  repeat' (with_reducible first | assumption | intro _ | apply later_good | split)

theorem getRead_good {q : List Instr} (a0) (a1) (a2) (a3) (a4) {s : State} (h : Good q s) :
    Good q (getRead a0 a1 a2 a3 a4 s) := by
  unfold getRead; dsimp only
  repeat'
    with_reducible first
      | assumption | intro _ | apply getNext_good | apply injectPacket_good | apply finishRsn_good
      | apply refuseMsg_good | refine keep_ite ?_ ?_ | split

theorem atomicDone_good {q : List Instr} (a0) (a1) {s : State} (h : Good q s) : Good q (atomicDone a0 a1 s) := by
  unfold atomicDone; dsimp only
  repeat'
    with_reducible first
      | assumption | intro _ | apply finishRsn_good | apply injectPacket_good | apply refuseMsg_good
      | refine keep_ite ?_ ?_ | split

theorem atomicGo_good {q : List Instr} (a0) (a1) {s : State} (h : Good q s) : Good q (atomicGo a0 a1 s) := by
  unfold atomicGo; dsimp only
  repeat'
    with_reducible first
      | assumption | intro _ | apply refuseMsg_good | apply later_good | refine keep_ite ?_ ?_

theorem sendNext_good {q : List Instr} (a0) (a1) (a2) {s : State} (h : Good q s) : Good q (sendNext a0 a1 a2 s) := by
  induction a2 generalizing s a0 a1 with
  | zero => exact h
  | succ n ih =>
    unfold sendNext; try dsimp only
    repeat'
      with_reducible first
        | assumption | apply ih | intro _ | apply later_good | apply setRMsg_good | refine keep_ite ?_ ?_ | split

theorem sendGo_good {q : List Instr} (a0) (a1) {s : State} (h : Good q s) : Good q (sendGo a0 a1 s) := by
  unfold sendGo
  repeat' (with_reducible first | assumption | intro _ | apply sendNext_good | refine keep_ite ?_ ?_ | split)

theorem sendPlaced_good {q : List Instr} (a0) (a1) (a2) {s : State} (h : Good q s) :
    Good q (sendPlaced a0 a1 a2 s) := by
  unfold sendPlaced; dsimp only
  repeat'
    with_reducible first
      | assumption | intro _ | apply sendGo_good | apply setRMsg_good | apply bufferDone_good | apply refuseMsg_good
      | refine keep_ite ?_ ?_ | split

theorem flowGo_good {q : List Instr} (a0) {s : State} (h : Good q s) : Good q (flowGo a0 s) := by
  unfold flowGo; dsimp only
  repeat'
    with_reducible first
      | assumption | intro _ | apply refuseMsg_good | apply takeBuffer_good | apply sendGo_good | apply setRMsg_good
      | apply bufferDone_good | apply good_foldSt | apply good2_mk | refine good2_eq (by assumption) ?_
      | refine good2_snd (p := takeBuffer _ _) ?_ | refine keep_ite ?_ ?_ | split

theorem takeRequest_good {q : List Instr} (a0) (a1) (a2) {s : State} (h : Good q s) :
    Good q (takeRequest a0 a1 a2 s) := by
  unfold takeRequest; dsimp only
  repeat'
    with_reducible first
      | assumption | intro _ | apply ordered_good | apply laterPacket_good | apply rgetArrive_good
      | apply flushArrive_good | apply refuseMsg_good | apply sendPlaced_good | apply dropWaiters_good
      | apply later_good | apply sendGo_good | apply setRMsg_good | apply ackMsg_good | apply getNext_good
      | apply placedMore_good | apply placeNext_good | apply atomicGo_good | refine keep_ite ?_ ?_ | split

theorem orderGo_good {q : List Instr} {s : State} (h : Good q s) : Good q (orderGo s) := by
  unfold orderGo
  repeat'
    with_reducible first
      | assumption | intro _ | simp only [good_upd] | apply takeRequest_good | apply good_foldSt
      | refine keep_ite ?_ ?_ | split

theorem requestArrive_good {q : List Instr} (a0) {s : State} (h : Good q s) : Good q (requestArrive a0 s) := by
  unfold requestArrive
  repeat'
    with_reducible first
      | assumption | intro _ | simp only [good_upd] | apply front_good | apply takeRequest_good | apply good2_mk
      | refine good2_eq (by assumption) ?_ | refine good2_snd (p := front _ _) ?_ | refine keep_ite ?_ ?_ | split

theorem answerArrive_good {q : List Instr} (a0) (a1) {f2} (hf2 : ∀ x0 x1, Good q x1 → Good q (f2 x0 x1)) {s : State} (h : Good q s) :
    Good q (answerArrive a0 a1 f2 s) := by
  unfold answerArrive; dsimp only
  repeat'
    with_reducible first
      | assumption | intro _ | apply hf2 | apply bump_good | apply draw_good | apply good_when | apply good2_mk
      | refine good2_eq (by assumption) ?_ | refine good2_snd (p := draw _ _) ?_ | refine keep_ite ?_ ?_ | split

theorem ackArrive_good {q : List Instr} (a0) {s : State} (h : Good q s) : Good q (ackArrive a0 s) := by
  unfold ackArrive; dsimp only
  repeat'
    with_reducible first
      | assumption | intro _ | apply answerArrive_good | apply windowUpdate_good | apply endMsg_good
      | refine keep_ite ?_ ?_ | split

theorem refusalArrive_good {q : List Instr} (a0) {s : State} (h : Good q s) : Good q (refusalArrive a0 s) := by
  unfold refusalArrive
  repeat'
    with_reducible first
      | assumption | intro _ | apply answerArrive_good | apply refusedRetry_good | apply failMsg_good
      | refine keep_ite ?_ ?_

theorem getDataArrive_good {q : List Instr} (a0) {s : State} (h : Good q s) : Good q (getDataArrive a0 s) := by
  unfold getDataArrive
  repeat' (with_reducible first | assumption | intro _ | apply answerArrive_good | apply respData_good)

theorem atomicRespArrive_good {q : List Instr} (a0) {s : State} (h : Good q s) : Good q (atomicRespArrive a0 s) := by
  unfold atomicRespArrive
  repeat' (with_reducible first | assumption | intro _ | apply answerArrive_good | apply respData_good)

theorem stallExpiry_good {q : List Instr} (a0) {s : State} (h : Good q s) : Good q (stallExpiry a0 s) := by
  unfold stallExpiry; dsimp only
  repeat'
    with_reducible first
      | assumption | intro _ | apply takeWaiter_good | apply refuseMsg_good | refine keep_ite ?_ ?_ | split

theorem refuseStalled_good {q : List Instr} (a0) {s : State} (h : Good q s) : Good2 q (refuseStalled a0 s) := by
  unfold refuseStalled; dsimp only
  repeat'
    with_reducible first
      | assumption | intro _ | apply dropWaiters_good | apply refuseMsg_good | apply good_foldSt | apply good2_mk
      | refine good2_eq (by assumption) ?_ | refine keep_ite ?_ ?_ | split

theorem registerRegion_good {q : List Instr} (a0) {s : State} (h : Good q s) : Good q (registerRegion a0 s) := by
  unfold registerRegion; dsimp only
  repeat'
    with_reducible first
      | assumption | intro _ | apply adminStart_good | apply adminDone_good | apply placeStack_good
      | apply setRegion_good | apply good2_mk | refine good2_eq (by assumption) ?_
      | refine good2_snd (p := placeStack _) ?_ | refine keep_ite ?_ ?_

theorem drainRegion_good {q : List Instr} (a0) (a1) {s : State} (h : Good q s) : Good q (drainRegion a0 a1 s) := by
  unfold drainRegion; dsimp only
  repeat'
    with_reducible first
      | assumption | intro _ | apply setRegion_good | apply refuseStalled_good | apply good2_mk
      | refine good2_eq (by assumption) ?_ | refine good2_snd (p := refuseStalled _ _) ?_

theorem deregister_good {q : List Instr} (a0) {s : State} (h : Good q s) : Good q (deregister a0 s) := by
  unfold deregister; dsimp only
  repeat'
    with_reducible first
      | assumption | intro _ | apply adminStart_good | apply adminDone_good | apply drainRegion_good
      | refine keep_ite ?_ ?_

theorem regionDrained_good {q : List Instr} (a0) {s : State} (h : Good q s) : Good q (regionDrained a0 s) := by
  unfold regionDrained; dsimp only
  repeat'
    with_reducible first
      | assumption | intro _ | apply closeDying_good | apply setRegion_good | apply adminDone_good
      | refine keep_ite ?_ ?_ | split

theorem setConn_good {q : List Instr} (a0) (a1) {s : State} (h : Good q s) : Good q (setConn a0 a1 s) := by
  unfold setConn
  repeat' (with_reducible first | assumption | intro _ | simp only [good_upd] | split)

theorem openConn_good {q : List Instr} (a0) {s : State} (h : Good q s) : Good q (openConn a0 s) := by
  unfold openConn; dsimp only
  repeat'
    with_reducible first
      | assumption | intro _ | apply adminStart_good | apply adminDone_good | apply setConn_good
      | refine keep_ite ?_ ?_

theorem freeConn_good {q : List Instr} (a0) {s : State} (h : Good q s) : Good q (freeConn a0 s) := by
  unfold freeConn
  repeat'
    with_reducible first
      | assumption | intro _ | simp only [good_upd] | apply kickWaiting_good | apply setConn_good

theorem closeConn_good {q : List Instr} (a0) {s : State} (h : Good q s) : Good q (closeConn a0 s) := by
  unfold closeConn; dsimp only
  repeat'
    with_reducible first
      | assumption | intro _ | apply adminStart_good | apply adminDone_good | apply setConn_good
      | refine keep_ite ?_ ?_

theorem connClosed_good {q : List Instr} (a0) {s : State} (h : Good q s) : Good q (connClosed a0 s) := by
  unfold connClosed; dsimp only
  repeat'
    with_reducible first
      | assumption | intro _ | apply freeConn_good | apply adminDone_good | refine keep_ite ?_ ?_ | split

theorem abandonAt_good {q : List Instr} (a0) (a1) {s : State} (h : Good q s) : Good q (abandonAt a0 a1 s) := by
  unfold abandonAt; dsimp only
  repeat'
    with_reducible first
      | assumption | intro _ | simp only [good_upd] | apply kickWaiting_good | apply kickFlow_good
      | apply dropMsg_good | refine keep_ite ?_ ?_ | split

theorem abandonMsg_good {q : List Instr} (a0) (a1) {s : State} (h : Good q s) : Good q (abandonMsg a0 a1 s) := by
  unfold abandonMsg
  repeat' (with_reducible first | assumption | intro _ | apply abandonAt_good | refine keep_ite ?_ ?_ | split)

theorem closeConnForce_good {q : List Instr} (a0) {s : State} (h : Good q s) : Good q (closeConnForce a0 s) := by
  unfold closeConnForce; dsimp only
  repeat'
    with_reducible first
      | assumption | intro _ | apply adminStart_good | apply adminDone_good | apply abandonAt_good
      | apply complete_good | apply abandonMsg_good | apply freeConn_good | apply good_foldSt
      | refine keep_ite ?_ ?_ | split

theorem peersUnreachable_good {q : List Instr} (a0) {s : State} (h : Good q s) : Good q (peersUnreachable a0 s) := by
  unfold peersUnreachable; dsimp only
  repeat'
    with_reducible first
      | assumption | intro _ | apply connError_good | apply failMsg_good | apply good_foldSt | refine keep_ite ?_ ?_

/-! ### Machine/Shots.lean -/

theorem armShot_good {q : List Instr} {o : ShotOwner} {i : Nat} {s t : State} (e : armShot o i s = .armed t)
    (h : Good q s) : Good q t := by
  unfold armShot at e
  repeat' with_reducible split at e
  all_goals cases e
  exact good_upd.2 h

theorem releaseShot_good {q : List Instr} (o : ShotOwner) {s : State} (h : Good q s) : Good q (releaseShot o s) :=
  good_upd.2 h

theorem fireShot_good {q : List Instr} (a0) {s : State} (h : Good q s) : Good2 q (fireShot a0 s) := by
  unfold fireShot
  repeat'
    with_reducible first
      | assumption | intro _ | apply bump_good | apply releaseShot_good | apply good_when | apply good2_mk
      | refine good2_eq (by assumption) ?_ | refine keep_ite ?_ ?_ | split

end Sys2Proof.Machine
end

