-- ==== Sys2Proof/Laws/KeepLink.lean ====
section
/-!
SUPPORT. Keeping the queue of commands and the canonical form: the optics, the link layer, the time base.
-/
namespace Sys2Proof.Machine

/-! ### Machine/CollBase.lean -/

theorem setGroup_good {q : List Instr} (a0) (a1) {s : State} (h : Good q s) : Good q (setGroup a0 a1 s) := by
  unfold setGroup
  repeat' (with_reducible first | assumption | intro _ | simp only [good_upd] | split)

theorem setStep_good {q : List Instr} (a0) (a1) (a2) {s : State} (h : Good q s) : Good q (setStep a0 a1 a2 s) := by
  unfold setStep
  repeat' (with_reducible first | assumption | intro _ | apply setGroup_good | split)

theorem dropStep_good {q : List Instr} (a0) (a1) {s : State} (h : Good q s) : Good q (dropStep a0 a1 s) := by
  unfold dropStep
  repeat' (with_reducible first | assumption | intro _ | apply setGroup_good | split)

theorem sendColl_good {q : List Instr} (a0) (a1) (a2) (a3) {s : State} (h : Good q s) :
    Good q (sendColl a0 a1 a2 a3 s) := by
  unfold sendColl
  repeat' (with_reducible first | assumption | intro _ | apply injectPacket_good | split)

theorem sendCollAll_good {q : List Instr} (a0) (a1) (a2) (a3) {s : State} (h : Good q s) :
    Good q (sendCollAll a0 a1 a2 a3 s) := by
  unfold sendCollAll
  repeat' (with_reducible first | assumption | intro _ | apply sendColl_good | apply good_foldSt)

theorem stagingStack_good {q : List Instr} {s : State} (h : Good q s) (a1) : Good2 q (stagingStack s a1) := by
  unfold stagingStack; dsimp only
  repeat'
    with_reducible first
      | assumption | intro _ | apply draw_good | apply good2_mk | refine good2_eq (by assumption) ?_
      | refine good2_snd (p := draw _ _) ?_ | refine keep_ite ?_ ?_ | split

theorem sweepTransient_good {q : List Instr} {s : State} (h : Good q s) : Good q (sweepTransient s) := by
  unfold sweepTransient; dsimp only
  repeat' (with_reducible first | assumption | intro _ | simp only [good_upd] | split)

theorem stagingGone_good {q : List Instr} (a0) {s : State} (h : Good q s) : Good q (stagingGone a0 s) := by
  unfold stagingGone
  repeat' (with_reducible first | assumption | intro _ | simp only [good_upd] | split)

theorem releaseGroup_good {q : List Instr} (a0) {s : State} (h : Good q s) : Good q (releaseGroup a0 s) := by
  unfold releaseGroup; dsimp only
  repeat'
    with_reducible first
      | assumption | intro _ | simp only [good_upd] | apply releaseShot_good | apply sweepTransient_good
      | apply setGroup_good | apply good_foldSt

/-! ### Machine/Optics.lean -/

theorem setLanes_good {q : List Instr} (a0) (a1) {s : State} (h : Good q s) : Good q (setLanes a0 a1 s) := by
  unfold setLanes
  repeat' (with_reducible first | assumption | intro _ | simp only [good_upd] | split)

theorem setLane_good {q : List Instr} (a0) (a1) (a2) {s : State} (h : Good q s) : Good q (setLane a0 a1 a2 s) := by
  unfold setLane
  repeat' (with_reducible first | assumption | intro _ | apply setLanes_good | split)

theorem refreshLasers_good {q : List Instr} (a0) {s : State} (h : Good q s) : Good q (refreshLasers a0 s) := by
  unfold refreshLasers; dsimp only
  repeat' (with_reducible first | assumption | intro _ | apply setLane_good | apply good_foldSt)

theorem refreshAllLasers_good {q : List Instr} {s : State} (h : Good q s) : Good q (refreshAllLasers s) := by
  unfold refreshAllLasers
  repeat' (with_reducible first | assumption | intro _ | apply refreshLasers_good | apply good_forRange)

theorem startDwell_good {q : List Instr} (a0) {s : State} (h : Good q s) : Good q (startDwell a0 s) := by
  unfold startDwell
  repeat' (with_reducible first | assumption | intro _ | apply setLanes_good | split)

theorem endWidening_good {q : List Instr} (a0) {s : State} (h : Good q s) : Good q (endWidening a0 s) := by
  unfold endWidening; dsimp only
  repeat'
    with_reducible first
      | assumption | intro _ | apply setLane_good | apply bump_good | apply refreshLasers_good | apply setLanes_good
      | apply good_foldSt

theorem setPeerGood_good {q : List Instr} (a0) (a1) {s : State} (h : Good q s) : Good q (setPeerGood a0 a1 s) := by
  unfold setPeerGood; dsimp only
  repeat'
    with_reducible first
      | assumption | intro _ | apply setLane_good | apply setLanes_good | apply endWidening_good | apply good_foldSt
      | apply good_when

theorem abortScan_good {q : List Instr} (a0) (a1) {s : State} (h : Good q s) : Good q (abortScan a0 a1 s) := by
  unfold abortScan; dsimp only
  repeat' (with_reducible first | assumption | intro _ | simp only [good_upd] | refine keep_ite ?_ ?_ | split)

theorem startBringUp_good {q : List Instr} (a0) {s : State} (h : Good q s) : Good q (startBringUp a0 s) := by
  unfold startBringUp; dsimp only
  repeat'
    with_reducible first
      | assumption | intro _ | apply setLanes_good | apply refreshLasers_good | apply abortScan_good
      | refine keep_ite ?_ ?_

theorem lanesOff_good {q : List Instr} (a0) {s : State} (h : Good q s) : Good q (lanesOff a0 s) := by
  unfold lanesOff
  repeat'
    with_reducible first
      | assumption | intro _ | apply refreshLasers_good | apply abortScan_good | apply setLanes_good

theorem applyTest_good {q : List Instr} (a0) {s : State} (h : Good q s) : Good q (applyTest a0 s) := by
  unfold applyTest
  repeat'
    with_reducible first
      | assumption | intro _ | apply refreshLasers_good | apply setLanes_good | apply lanesOff_good
      | refine keep_ite ?_ ?_

theorem rateMatch_good {q : List Instr} (a0) (a1) (a2) (a3) {s : State} (h : Good q s) :
    Good2 q (rateMatch a0 a1 a2 a3 s) := by
  unfold rateMatch; dsimp only
  repeat'
    with_reducible first
      | assumption | intro _ | apply setLanes_good | apply good2_mk | refine good2_eq (by assumption) ?_
      | refine keep_ite ?_ ?_ | split

theorem markLanes_good {q : List Instr} (a0) (a1) (a2) (a3) {s : State} (h : Good q s) :
    Good q (markLanes a0 a1 a2 a3 s) := by
  unfold markLanes; dsimp only
  repeat'
    with_reducible first
      | assumption | intro _ | apply setLane_good | apply later_good | apply emit_good | apply good_foldSt
      | refine keep_ite ?_ ?_

theorem sendMarker_good {q : List Instr} (a0) (a1) {s : State} (h : Good q s) : Good q (sendMarker a0 a1 s) := by
  unfold sendMarker
  repeat' (with_reducible first | assumption | intro _ | apply markLanes_good | split)

theorem changeSet_good {q : List Instr} (a0) (a1) (a2) {s : State} (h : Good q s) :
    Good q (changeSet a0 a1 a2 s) := by
  unfold changeSet; dsimp only
  repeat'
    with_reducible first
      | assumption | intro _ | apply startDwell_good | apply bump_good | apply sendMarker_good
      | apply accruePort_good | apply setLane_good | apply refreshLasers_good | apply setLanes_good
      | apply good_foldSt | refine keep_ite ?_ ?_

theorem widenStep_good {q : List Instr} (a0) {s : State} (h : Good q s) : Good q (widenStep a0 s) := by
  unfold widenStep; dsimp only
  repeat' (with_reducible first | assumption | intro _ | apply changeSet_good | refine keep_ite ?_ ?_ | split)

theorem widenMarkers_good {q : List Instr} (a0) {s : State} (h : Good q s) : Good q (widenMarkers a0 s) := by
  unfold widenMarkers; dsimp only
  repeat'
    with_reducible first
      | assumption | intro _ | apply setLanes_good | apply widenStep_good | apply markLanes_good

theorem startWidening_good {q : List Instr} (a0) (a1) {s : State} (h : Good q s) :
    Good q (startWidening a0 a1 s) := by
  unfold startWidening; dsimp only
  repeat'
    with_reducible first
      | assumption | intro _ | apply setLane_good | apply refreshLasers_good | apply setLanes_good
      | apply widenMarkers_good | apply good_foldSt | refine keep_ite ?_ ?_

theorem lullEvaluate_good {q : List Instr} (a0) {s : State} (h : Good q s) : Good q (lullEvaluate a0 s) := by
  unfold lullEvaluate; dsimp only
  repeat'
    with_reducible first
      | assumption | intro _ | apply widenStep_good | apply changeSet_good | apply good_when | refine keep_ite ?_ ?_
      | split

theorem refreshGood_good {q : List Instr} (a0) {s : State} (h : Good q s) : Good q (refreshGood a0 s) := by
  unfold refreshGood; dsimp only
  repeat'
    with_reducible first
      | assumption | intro _ | apply setLanes_good | apply sendMarker_good | apply later_good | apply good_when
      | refine keep_ite ?_ ?_

theorem sendCodeword_good {q : List Instr} (a0) (a1) {s : State} (h : Good q s) : Good q (sendCodeword a0 a1 s) := by
  unfold sendCodeword; dsimp only
  repeat'
    with_reducible first
      | assumption | intro _ | apply later_good | apply emit_good | apply setLane_good | apply setLanes_good
      | apply markLanes_good | apply good_foldSt | apply good_when | refine keep_ite ?_ ?_

theorem streamCell_good {q : List Instr} (a0) (a1) {s : State} (h : Good q s) : Good q (streamCell a0 a1 s) := by
  unfold streamCell; dsimp only
  repeat'
    with_reducible first
      | assumption | intro _ | apply setLanes_good | apply sendCodeword_good | refine keep_ite ?_ ?_

theorem judgeScan_good {q : List Instr} (a0) {s : State} (h : Good q s) : Good q (judgeScan a0 s) := by
  unfold judgeScan; dsimp only
  repeat' (with_reducible first | assumption | intro _ | simp only [good_upd] | refine keep_ite ?_ ?_ | split)

theorem markerArrive_good {q : List Instr} (a0) (a1) (a2) (a3) (a4) (a5) {s : State} (h : Good q s) :
    Good q (markerArrive a0 a1 a2 a3 a4 a5 s) := by
  unfold markerArrive; dsimp only
  repeat'
    with_reducible first
      | assumption | intro _ | apply emit_good | apply setLane_good | apply refreshGood_good | apply setLanes_good
      | apply judgeScan_good | apply lullEvaluate_good | apply setPeerGood_good | apply good_when
      | refine keep_ite ?_ ?_

theorem laneLost_good {q : List Instr} (a0) (a1) (a2) {s : State} (h : Good q s) : Good q (laneLost a0 a1 a2 s) := by
  unfold laneLost; dsimp only
  repeat'
    with_reducible first
      | assumption | intro _ | apply setLane_good | apply abortScan_good | apply refreshGood_good | apply good_when

theorem signalLost_good {q : List Instr} (a0) (a1) (a2) {s : State} (h : Good q s) :
    Good q (signalLost a0 a1 a2 s) := by
  unfold signalLost
  repeat' (with_reducible first | assumption | intro _ | apply laneLost_good | apply good_when)

theorem bitSlip_good {q : List Instr} (a0) (a1) {s : State} (h : Good q s) : Good q (bitSlip a0 a1 s) := by
  unfold bitSlip
  repeat' (with_reducible first | assumption | intro _ | apply laneLost_good | refine keep_ite ?_ ?_ | split)

theorem setScan_good {q : List Instr} (a0) (a1) {s : State} (h : Good q s) : Good q (setScan a0 a1 s) := by
  unfold setScan
  repeat' (with_reducible first | assumption | intro _ | simp only [good_upd] | split)

theorem eyeScan_good {q : List Instr} (a0) {s : State} (h : Good q s) : Good q (eyeScan a0 s) := by
  unfold eyeScan; dsimp only
  repeat' (with_reducible first | assumption | intro _ | apply setScan_good | refine keep_ite ?_ ?_ | split)

theorem eyeScanDone_good {q : List Instr} (a0) (a1) {s : State} (h : Good q s) : Good q (eyeScanDone a0 a1 s) := by
  unfold eyeScanDone; dsimp only
  repeat' (with_reducible first | assumption | intro _ | apply setScan_good | split)

theorem countFec_good {q : List Instr} (a0) (a1) {s : State} (h : Good q s) : Good q (countFec a0 a1 s) := by
  unfold countFec
  repeat' (with_reducible first | assumption | intro _ | apply bump_good | apply bumpBy_good | refine keep_ite ?_ ?_)

theorem codeword_good {q : List Instr} (a0) (a1) (a2) {s : State} (h : Good q s) : Good q (codeword a0 a1 a2 s) := by
  unfold codeword; dsimp only
  repeat'
    with_reducible first
      | assumption | intro _ | apply emit_good | apply countFec_good | apply setLane_good | apply bumpBy_good
      | apply setLanes_good | apply good_foldSt | apply good_when | refine keep_ite ?_ ?_

/-! ### Machine/LinkLayer.lean -/

theorem setPL_good {q : List Instr} (a0) (a1) {s : State} (h : Good q s) : Good q (setPL a0 a1 s) := by
  unfold setPL
  repeat' (with_reducible first | assumption | intro _ | simp only [good_upd] | split)

theorem sendCell_good {q : List Instr} (a0) (a1) (a2) (a3) (a4) (a5) (a6) (a7) (a8) {s : State} (h : Good q s) :
    Good q (sendCell a0 a1 a2 a3 a4 a5 a6 a7 a8 s) := by
  unfold sendCell; dsimp only
  repeat' (with_reducible first | assumption | intro _ | apply streamCell_good | apply emit_good | apply bump_good)

theorem sendIdle_good {q : List Instr} (a0) {s : State} (h : Good q s) : Good q (sendIdle a0 s) := by
  unfold sendIdle; dsimp only
  repeat' (with_reducible first | assumption | intro _ | apply setPL_good | apply sendCell_good)

theorem takeReturn_good {q : List Instr} (a0) (a1) {s : State} (h : Good q s) : Good2 q (takeReturn a0 a1 s) := by
  unfold takeReturn; dsimp only
  repeat'
    with_reducible first
      | assumption | intro _ | apply setVc_good | apply good2_mk | refine good2_eq (by assumption) ?_
      | refine keep_ite ?_ ?_ | split

theorem sendSeq_good {q : List Instr} (a0) (a1) (a2) (a3) (a4) (a5) {s : State} (h : Good q s) :
    Good q (sendSeq a0 a1 a2 a3 a4 a5 s) := by
  unfold sendSeq; dsimp only
  repeat'
    with_reducible first
      | assumption | intro _ | apply takeReturn_good | apply setPL_good | apply sendCell_good | apply good2_mk
      | refine good2_eq (by assumption) ?_ | refine good2_snd (p := takeReturn _ _ _) ?_

theorem packetStart_good {q : List Instr} (a0) {s : State} (h : Good q s) : Good q (packetStart a0 s) := by
  unfold packetStart; dsimp only
  repeat'
    with_reducible first
      | assumption | intro _ | apply settleTags_good | apply bumpPortVc_good | apply chargeStart_good
      | apply assignTags_good | apply setPL_good | refine keep_ite ?_ ?_ | split

theorem sendDataCell_good {q : List Instr} (a0) (a1) {s : State} (h : Good q s) : Good q (sendDataCell a0 a1 s) := by
  unfold sendDataCell; dsimp only
  repeat'
    with_reducible first
      | assumption | intro _ | apply setPL_good | apply setLanes_good | apply bumpPortVc_good | apply sendSeq_good
      | apply bumpPort_good | apply later_good | apply good_when | refine keep_ite ?_ ?_ | split

theorem sendReplay_good {q : List Instr} (a0) (a1) {s : State} (h : Good q s) : Good q (sendReplay a0 a1 s) := by
  unfold sendReplay; dsimp only
  repeat' (with_reducible first | assumption | intro _ | apply setPL_good | apply sendCell_good)

theorem sendControl_good {q : List Instr} {p : Nat} {s t : State} (e : sendControl p s = some t) (h : Good q s) :
    Good q t := by
  unfold sendControl at e; dsimp only at e
  repeat' with_reducible split at e
  · rw [← Option.some.inj e]; exact sendSeq_good _ _ _ _ _ _ (setPL_good _ _ h)
  · rw [← Option.some.inj e]; exact sendSeq_good _ _ _ _ _ _ (setFlow_good _ _ (setPL_good _ _ h))
  · rw [← Option.some.inj e]; exact sendSeq_good _ _ _ _ _ _ h
  · cases e

theorem activeSlot_good {q : List Instr} (a0) {s : State} (h : Good q s) : Good q (activeSlot a0 s) := by
  unfold activeSlot; dsimp only
  repeat'
    with_reducible first
      | assumption | intro _ | refine sendControl_good (by assumption) ?_ | apply sendIdle_good
      | apply setLanes_good | apply sendReplay_good | apply sendDataCell_good | apply bump_good | apply good_when
      | refine keep_ite ?_ ?_ | split

theorem beginExchange_good {q : List Instr} (a0) {s : State} (h : Good q s) : Good q (beginExchange a0 s) := by
  unfold beginExchange; dsimp only
  repeat'
    with_reducible first
      | assumption | intro _ | apply draw_good | apply setPL_good | apply good2_mk
      | refine good2_eq (by assumption) ?_ | refine good2_snd (p := draw _ _) ?_

theorem sendNotices_good {q : List Instr} (a0) (a1) {s : State} (h : Good q s) : Good q (sendNotices a0 a1 s) := by
  unfold sendNotices; dsimp only
  repeat'
    with_reducible first
      | assumption | intro _ | apply bump_good | apply deliver_good | apply injectPacket_good | apply good_foldSt
      | refine keep_ite ?_ ?_

theorem releaseBuffers_good {q : List Instr} (a0) {s : State} (h : Good q s) : Good q (releaseBuffers a0 s) := by
  unfold releaseBuffers; dsimp only
  repeat'
    with_reducible first
      | assumption | intro _ | simp only [good_upd] | apply setFlow_good | apply good_forRange
      | refine keep_ite ?_ ?_

theorem reroute_good {q : List Instr} (a0) (a1) {s : State} (h : Good q s) : Good q (reroute a0 a1 s) := by
  unfold reroute; dsimp only
  repeat'
    with_reducible first
      | assumption | intro _ | apply bump_good | apply leaveQueued_good | apply bumpBy_good | apply bumpPort_good
      | apply enqueue_good | apply unroutable_good | apply good_when | refine keep_ite ?_ ?_ | split

theorem flush_good {q : List Instr} (a0) {s : State} (h : Good q s) : Good q (flush a0 s) := by
  unfold flush; dsimp only
  repeat'
    with_reducible first
      | assumption | intro _ | apply setFlow_good | apply reroute_good | apply bumpBy_good | apply sendNotices_good
      | apply setPL_good | apply later_good | apply bump_good | apply zeroCredits_good | apply releaseBuffers_good
      | apply good_foldSt

theorem flushRetrain_good {q : List Instr} (a0) {s : State} (h : Good q s) : Good q (flushRetrain a0 s) := by
  unfold flushRetrain; dsimp only
  repeat'
    with_reducible first
      | assumption | intro _ | apply flush_good | apply portFlushed_good | apply later_good
      | apply startBringUp_good | apply setPL_good | refine keep_ite ?_ ?_ | split

theorem linkDown_good {q : List Instr} (a0) {s : State} (h : Good q s) : Good q (linkDown a0 s) := by
  unfold linkDown; dsimp only
  repeat'
    with_reducible first
      | assumption | intro _ | apply setPL_good | apply bump_good | apply later_good | apply startBringUp_good
      | apply portDown_good | apply good_when | refine keep_ite ?_ ?_ | split

theorem leaveHeld_good {q : List Instr} (a0) {s : State} (h : Good q s) : Good q (leaveHeld a0 s) := by
  unfold leaveHeld
  repeat'
    with_reducible first
      | assumption | intro _ | apply endCondition_good | apply setPL_good | refine keep_ite ?_ ?_

theorem disablePort_good {q : List Instr} (a0) {s : State} (h : Good q s) : Good q (disablePort a0 s) := by
  unfold disablePort; dsimp only
  repeat'
    with_reducible first
      | assumption | intro _ | apply setPortState_good | apply clearMasks_good | apply leaveHeld_good
      | apply flush_good | apply setPort_good | apply later_good | apply lanesOff_good | apply setPL_good
      | refine keep_ite ?_ ?_ | split

theorem enablePort_good {q : List Instr} (a0) {s : State} (h : Good q s) : Good q (enablePort a0 s) := by
  unfold enablePort
  repeat'
    with_reducible first
      | assumption | intro _ | apply startBringUp_good | apply setPortState_good | apply setPL_good
      | refine keep_ite ?_ ?_ | split

theorem lanesLocked_good {q : List Instr} (a0) {s : State} (h : Good q s) : Good q (lanesLocked a0 s) := by
  unfold lanesLocked; dsimp only
  repeat'
    with_reducible first
      | assumption | intro _ | apply setLanes_good | apply beginExchange_good | apply setPL_good
      | refine keep_ite ?_ ?_ | split

theorem ackTo_good {q : List Instr} (a0) (a1) {s : State} (h : Good q s) : Good q (ackTo a0 a1 s) := by
  unfold ackTo; dsimp only
  repeat' (with_reducible first | assumption | intro _ | apply setPL_good | split)

theorem nakTo_good {q : List Instr} (a0) (a1) (a2) {s : State} (h : Good q s) : Good q (nakTo a0 a1 a2 s) := by
  unfold nakTo; dsimp only
  repeat' (with_reducible first | assumption | intro _ | apply bumpBy_good | apply setPL_good)

theorem replayAll_good {q : List Instr} (a0) {s : State} (h : Good q s) : Good q (replayAll a0 s) := by
  unfold replayAll
  repeat' (with_reducible first | assumption | intro _ | apply setPL_good | split)

theorem exchangeDone_good {q : List Instr} (a0) {s : State} (h : Good q s) : Good q (exchangeDone a0 s) := by
  unfold exchangeDone; dsimp only
  repeat'
    with_reducible first
      | assumption | intro _ | apply setPL_good | apply flush_good | apply portFlushed_good | apply raiseFault_good
      | apply replayAll_good | apply ackTo_good | apply later_good | apply portBack_good | apply bump_good
      | apply portTrained_good | apply grantPools_good | apply good_when | refine keep_ite ?_ ?_ | split

theorem exchangeSlot_good {q : List Instr} (a0) {s : State} (h : Good q s) : Good q (exchangeSlot a0 s) := by
  unfold exchangeSlot; dsimp only
  repeat'
    with_reducible first
      | assumption | intro _ | apply setPL_good | apply exchangeDone_good | apply sendCell_good
      | apply sendIdle_good | refine keep_ite ?_ ?_

theorem testSlot_good {q : List Instr} (a0) {s : State} (h : Good q s) : Good q (testSlot a0 s) := by
  unfold testSlot; dsimp only
  repeat'
    with_reducible first
      | assumption | intro _ | apply streamCell_good | apply emit_good | refine keep_ite ?_ ?_

theorem cellSlot_good {q : List Instr} (a0) {s : State} (h : Good q s) : Good q (cellSlot a0 s) := by
  unfold cellSlot; dsimp only
  repeat'
    with_reducible first
      | assumption | intro _ | apply bumpPort_good | apply testSlot_good | apply activeSlot_good
      | apply countHeld_good | apply exchangeSlot_good | apply sendIdle_good | apply good_when
      | refine keep_ite ?_ ?_

theorem applyCredit_good {q : List Instr} (a0) (a1) {s : State} (h : Good q s) : Good q (applyCredit a0 a1 s) := by
  unfold applyCredit
  repeat'
    with_reducible first
      | assumption | intro _ | apply noteWait_good | apply setVc_good | refine keep_ite ?_ ?_

theorem releaseCell_good {q : List Instr} (a0) (a1) {s : State} (h : Good q s) : Good q (releaseCell a0 a1 s) := by
  unfold releaseCell; dsimp only
  repeat'
    with_reducible first
      | assumption | intro _ | simp only [good_upd] | apply applyCredit_good | apply setVc_good | apply setPL_good
      | apply bump_good | apply freeCells_good | apply bumpPort_good | apply evalMarker_good | apply later_good
      | apply applyReply_good | apply good_when | apply good2_mk | refine good2_eq (by assumption) ?_
      | refine good2_snd (p := evalMarker _ _ _) ?_ | refine keep_ite ?_ ?_

theorem releaseFrom_good {q : List Instr} (a0) (a1) {s : State} (h : Good q s) : Good q (releaseFrom a0 a1 s) := by
  induction a1 generalizing s a0 with
  | zero => exact h
  | succ n ih =>
    unfold releaseFrom; try dsimp only
    repeat'
      with_reducible first
        | assumption | apply ih | intro _ | apply releaseCell_good | apply setPL_good | refine keep_ite ?_ ?_ | split

theorem receiveSeq_good {q : List Instr} (a0) (a1) {s : State} (h : Good q s) : Good q (receiveSeq a0 a1 s) := by
  unfold receiveSeq; dsimp only
  repeat'
    with_reducible first
      | assumption | intro _ | apply bump_good | apply releaseFrom_good | apply setPL_good | refine keep_ite ?_ ?_

theorem receiveTrain_good {q : List Instr} (a0) (a1) {s : State} (h : Good q s) : Good q (receiveTrain a0 a1 s) := by
  unfold receiveTrain; dsimp only
  repeat'
    with_reducible first
      | assumption | intro _ | apply later_good | apply exchangeDone_good | apply setPL_good | refine keep_ite ?_ ?_

theorem receiveCell_good {q : List Instr} (a0) (a1) (a2) {s : State} (h : Good q s) :
    Good q (receiveCell a0 a1 a2 s) := by
  unfold receiveCell; dsimp only
  repeat'
    with_reducible first
      | assumption | intro _ | apply rateMatch_good | apply bump_good | apply setPL_good | apply nakTo_good
      | apply ackTo_good | apply receiveTrain_good | apply receiveSeq_good | apply good2_mk
      | refine good2_eq (by assumption) ?_ | refine good2_snd (p := rateMatch _ _ _ _ _) ?_ | refine keep_ite ?_ ?_

theorem replayTimeout_good {q : List Instr} (a0) {s : State} (h : Good q s) : Good q (replayTimeout a0 s) := by
  unfold replayTimeout; dsimp only
  repeat'
    with_reducible first
      | assumption | intro _ | apply bump_good | apply setPL_good | apply replayAll_good | apply linkDown_good
      | refine keep_ite ?_ ?_ | split

theorem silence_good {q : List Instr} (a0) {s : State} (h : Good q s) : Good q (silence a0 s) := by
  unfold silence; dsimp only
  repeat' (with_reducible first | assumption | intro _ | apply linkDown_good | refine keep_ite ?_ ?_ | split)

theorem graceExpiry_good {q : List Instr} (a0) {s : State} (h : Good q s) : Good q (graceExpiry a0 s) := by
  unfold graceExpiry; dsimp only
  repeat'
    with_reducible first
      | assumption | intro _ | apply flush_good | apply portFlushed_good | apply setPL_good
      | apply startBringUp_good | refine keep_ite ?_ ?_

theorem heldRetry_good {q : List Instr} (a0) {s : State} (h : Good q s) : Good q (heldRetry a0 s) := by
  unfold heldRetry; dsimp only
  repeat'
    with_reducible first
      | assumption | intro _ | apply beginExchange_good | apply setPL_good | apply leaveHeld_good
      | refine keep_ite ?_ ?_

theorem retrain_good {q : List Instr} (a0) {s : State} (h : Good q s) : Good q (retrain a0 s) := by
  unfold retrain
  repeat' (with_reducible first | assumption | intro _ | apply flushRetrain_good | refine keep_ite ?_ ?_ | split)

theorem roundTrip_good {q : List Instr} (a0) (a1) {s : State} (h : Good q s) : Good q (roundTrip a0 a1 s) := by
  unfold roundTrip; dsimp only
  repeat' (with_reducible first | assumption | intro _ | apply setPL_good | refine keep_ite ?_ ?_ | split)

/-! ### Machine/TimeBase.lean -/

theorem setTb_good {q : List Instr} (a0) {s : State} (h : Good q s) : Good q (setTb a0 s) := by
  unfold setTb
  repeat' (with_reducible first | assumption | intro _ | simp only [good_upd] | split)

theorem judgeUncertainty_good {q : List Instr} {s : State} (h : Good q s) : Good q (judgeUncertainty s) := by
  unfold judgeUncertainty; dsimp only
  repeat'
    with_reducible first
      | assumption | intro _ | apply raiseFault_good | apply setTb_good | apply endCondition_good
      | refine keep_ite ?_ ?_

theorem instantReached_good {q : List Instr} (a0) {f1} (hf1 : ∀ x0, Good q x0 → Good q (f1 x0)) {s : State} (h : Good q s) :
    Good q (instantReached a0 f1 s) := by
  unfold instantReached
  repeat'
    with_reducible first
      | assumption | intro _ | apply hf1 | apply later_good | apply good_foldSt | refine keep_ite ?_ ?_ | split

theorem stepMt_good {q : List Instr} (a0) {s : State} (h : Good q s) : Good q (stepMt a0 s) := by
  unfold stepMt; dsimp only
  repeat'
    with_reducible first
      | assumption | intro _ | apply setTb_good | apply bump_good | apply logEvent_good | apply later_good
      | apply good_foldSt | refine keep_ite ?_ ?_

theorem correct_good {q : List Instr} (a0) {s : State} (h : Good q s) : Good q (correct a0 s) := by
  unfold correct
  repeat' (with_reducible first | assumption | intro _ | apply stepMt_good | apply setTb_good | refine keep_ite ?_ ?_)

theorem trimRate_good {q : List Instr} {s : State} (h : Good q s) : Good q (trimRate s) := by
  unfold trimRate; dsimp only
  repeat'
    with_reducible first
      | assumption | intro _ | apply draw_good | apply setTb_good | apply good2_mk
      | refine good2_eq (by assumption) ?_ | refine good2_snd (p := draw _ _) ?_

theorem memsRate_good {q : List Instr} {s : State} (h : Good q s) : Good q (memsRate s) := by
  unfold memsRate; dsimp only
  repeat'
    with_reducible first
      | assumption | intro _ | apply draw_good | apply setTb_good | apply good2_mk
      | refine good2_eq (by assumption) ?_ | refine good2_snd (p := draw _ _) ?_

theorem tick_good {q : List Instr} {s : State} (h : Good q s) : Good q (tick s) := by
  unfold tick; dsimp only
  repeat'
    with_reducible first
      | assumption | intro _ | apply memsRate_good | apply setTb_good | refine keep_ite ?_ ?_

theorem enterState_good {q : List Instr} (a0) {s : State} (h : Good q s) : Good q (enterState a0 s) := by
  unfold enterState; dsimp only
  repeat'
    with_reducible first
      | assumption | intro _ | apply setTb_good | apply later_good | apply logEvent_good
      | apply judgeUncertainty_good | refine keep_ite ?_ ?_

theorem setPeer_good {q : List Instr} (a0) (a1) {s : State} (h : Good q s) : Good q (setPeer a0 a1 s) := by
  unfold setPeer
  repeat' (with_reducible first | assumption | intro _ | apply setTb_good | split)

theorem judgePeers_good {q : List Instr} {s : State} (h : Good q s) : Good q (judgePeers s) := by
  unfold judgePeers
  repeat' (with_reducible first | assumption | intro _ | apply setTb_good | split)

theorem followPeer_good {q : List Instr} (a0) {s : State} (h : Good q s) : Good q (followPeer a0 s) := by
  unfold followPeer; dsimp only
  repeat'
    with_reducible first
      | assumption | intro _ | apply setTb_good | apply judgePeers_good | apply enterState_good | apply correct_good
      | refine keep_ite ?_ ?_ | split

theorem loseReference_good {q : List Instr} {s : State} (h : Good q s) : Good q (loseReference s) := by
  unfold loseReference
  repeat'
    with_reducible first
      | assumption | intro _ | apply followPeer_good | apply enterState_good | refine keep_ite ?_ ?_ | split

theorem loseSource_good {q : List Instr} {s : State} (h : Good q s) : Good q (loseSource s) := by
  unfold loseSource
  repeat'
    with_reducible first
      | assumption | intro _ | apply enterState_good | apply setTb_good | refine keep_ite ?_ ?_

theorem chooseSource_good {q : List Instr} {s : State} (h : Good q s) : Good q (chooseSource s) := by
  unfold chooseSource
  repeat' (with_reducible first | assumption | intro _ | apply followPeer_good | refine keep_ite ?_ ?_ | split)

theorem holdDownOver_good {q : List Instr} {s : State} (h : Good q s) : Good q (holdDownOver s) := by
  unfold holdDownOver
  repeat'
    with_reducible first
      | assumption | intro _ | apply chooseSource_good | apply setTb_good | refine keep_ite ?_ ?_ | split

theorem judgeDelay_good {q : List Instr} {s : State} (h : Good q s) : Good q (judgeDelay s) := by
  unfold judgeDelay; dsimp only
  repeat'
    with_reducible first
      | assumption | intro _ | apply setTb_good | apply correct_good | refine keep_ite ?_ ?_

theorem peersChanged_good {q : List Instr} {s : State} (h : Good q s) : Good q (peersChanged s) := by
  unfold peersChanged
  repeat' (with_reducible first | assumption | intro _ | apply judgeDelay_good | apply judgePeers_good)

theorem peerGone_good {q : List Instr} (a0) {s : State} (h : Good q s) : Good q (peerGone a0 s) := by
  unfold peerGone
  repeat' (with_reducible first | assumption | intro _ | apply peersChanged_good | apply setPeer_good)

theorem epochLost_good {q : List Instr} {s : State} (h : Good q s) : Good q (epochLost s) := by
  unfold epochLost
  repeat' (with_reducible first | assumption | intro _ | apply loseReference_good | apply setTb_good)

theorem setMt_good {q : List Instr} (a0) {s : State} (h : Good q s) : Good q (setMt a0 s) := by
  unfold setMt
  repeat' (with_reducible first | assumption | intro _ | apply setTb_good | split)

theorem refreshOscillator_good {q : List Instr} {s : State} (h : Good q s) : Good q (refreshOscillator s) := by
  unfold refreshOscillator; dsimp only
  repeat'
    with_reducible first
      | assumption | intro _ | apply draw_good | apply setTb_good | apply good2_mk
      | refine good2_eq (by assumption) ?_ | refine good2_snd (p := draw _ _) ?_ | refine keep_ite ?_ ?_

theorem acceptedEdge_good {q : List Instr} (a0) {s : State} (h : Good q s) : Good q (acceptedEdge a0 s) := by
  unfold acceptedEdge; dsimp only
  repeat'
    with_reducible first
      | assumption | intro _ | apply setTb_good | apply refreshOscillator_good | apply trimRate_good
      | apply correct_good | apply enterState_good | apply setMt_good | refine keep_ite ?_ ?_ | split

theorem epochEdge_good {q : List Instr} (a0) (a1) {s : State} (h : Good q s) : Good q (epochEdge a0 a1 s) := by
  unfold epochEdge; dsimp only
  repeat'
    with_reducible first
      | assumption | intro _ | apply setTb_good | apply acceptedEdge_good | apply bump_good | apply epochLost_good
      | refine keep_ite ?_ ?_

theorem tcodeFrame_good {q : List Instr} (a0) (a1) (a2) {s : State} (h : Good q s) :
    Good q (tcodeFrame a0 a1 a2 s) := by
  unfold tcodeFrame; dsimp only
  repeat'
    with_reducible first
      | assumption | intro _ | apply bump_good | apply setTb_good | refine keep_ite ?_ ?_ | split

theorem tcodeLost_good {q : List Instr} {s : State} (h : Good q s) : Good q (tcodeLost s) := by
  unfold tcodeLost
  repeat' (with_reducible first | assumption | intro _ | apply setTb_good | refine keep_ite ?_ ?_ | split)

theorem refClkLost_good {q : List Instr} {s : State} (h : Good q s) : Good q (refClkLost s) := by
  unfold refClkLost
  repeat'
    with_reducible first
      | assumption | intro _ | apply loseReference_good | apply setTb_good | refine keep_ite ?_ ?_

theorem timeExchange_good {q : List Instr} (a0) {s : State} (h : Good q s) : Good q (timeExchange a0 s) := by
  unfold timeExchange; dsimp only
  repeat'
    with_reducible first
      | assumption | intro _ | apply setPeer_good | apply enqueue_good | refine keep_ite ?_ ?_

theorem notePeer_good {q : List Instr} (a0) (a1) {s : State} (h : Good q s) : Good q (notePeer a0 a1 s) := by
  unfold notePeer; dsimp only
  repeat'
    with_reducible first
      | assumption | intro _ | apply setPeer_good | apply setTb_good | apply peersChanged_good
      | apply judgeUncertainty_good | apply loseSource_good | refine keep_ite ?_ ?_

theorem timeRequest_good {q : List Instr} (a0) (a1) (a2) {s : State} (h : Good q s) :
    Good q (timeRequest a0 a1 a2 s) := by
  unfold timeRequest; dsimp only
  repeat'
    with_reducible first
      | assumption | intro _ | apply notePeer_good | apply enqueue_good | refine keep_ite ?_ ?_

theorem timeResponse_good {q : List Instr} (a0) (a1) (a2) {s : State} (h : Good q s) :
    Good q (timeResponse a0 a1 a2 s) := by
  unfold timeResponse; dsimp only
  repeat'
    with_reducible first
      | assumption | intro _ | apply setPeer_good | apply notePeer_good | apply setTb_good | apply setMt_good
      | apply judgePeers_good | apply enterState_good | apply correct_good | apply trimRate_good
      | refine keep_ite ?_ ?_ | split

theorem usableAdvertised_good {q : List Instr} (a0) {s : State} (h : Good q s) : Good q (usableAdvertised a0 s) := by
  unfold usableAdvertised
  repeat'
    with_reducible first
      | assumption | intro _ | apply chooseSource_good | apply followPeer_good | refine keep_ite ?_ ?_ | split

theorem measuredUpdate_good {q : List Instr} {s : State} (h : Good q s) : Good q (measuredUpdate s) := by
  unfold measuredUpdate; dsimp only
  repeat'
    with_reducible first
      | assumption | intro _ | apply judgeDelay_good | apply setTb_good | refine keep_ite ?_ ?_

theorem timePulse_good {q : List Instr} {s : State} (h : Good q s) : Good q (timePulse s) := by
  unfold timePulse
  repeat' (with_reducible first | assumption | intro _ | apply setTb_good | refine keep_ite ?_ ?_ | split)

theorem timePulseEnd_good {q : List Instr} {s : State} (h : Good q s) : Good q (timePulseEnd s) := by
  unfold timePulseEnd
  repeat' (with_reducible first | assumption | intro _ | apply setTb_good | refine keep_ite ?_ ?_ | split)

end Sys2Proof.Machine
end

