-- ==== Sys2Proof/Laws/KeepColl.lean ====
section
/-!
SUPPORT. Keeping the queue of commands and the canonical form: the collective engine and the dispatcher.
-/
namespace Sys2Proof.Machine

/-! ### Machine/Dispatcher.lean -/

theorem startItem_good {q : List Instr} (a0) (a1) (a2) {s : State} (h : Good q s) :
    Good q (startItem a0 a1 a2 s) := by
  unfold startItem; dsimp only
  repeat'
    with_reducible first
      | assumption | intro _ | apply draw_good | apply seeReached_good | apply setCtx_good | apply good2_mk
      | refine good2_eq (by assumption) ?_ | refine good2_snd (p := draw _ _) ?_

theorem dispatchItems_good {q : List Instr} (n : Nat) {s : State} (h : Good q s) : Good q (dispatchItems n s) := by
  induction n generalizing s with
  | zero => exact h
  | succ n ih =>
    unfold dispatchItems; dsimp only
    split
    · exact h
    · refine keep_ite (ih (good_updMe.2 h)) ?_
      split
      · exact h
      · exact ih (startItem_good _ _ _ (good_updMe.2 h))

theorem serviceItem_good {q : List Instr} (qn : Nat) (o : SendOp) {f : (State → State) → State → State}
    (hf : ∀ start s, (∀ s, Good q s → Good q (start s)) → Good q s → Good q (f start s)) {s : State} (h : Good q s) :
    Good q (serviceItem qn o f s) := by
  unfold serviceItem
  refine keep_ite (complete_good _ _ _ (markStarted_good _ _ h)) ?_
  split
  · exact h
  · exact hf _ _ (fun _ h => startItem_good _ _ _ (markStarted_good _ _ h)) h

theorem enterPackage_good {q : List Instr} (a0) (a1) (a2) (a3) (a4) (a5) (a6) {s : State} (h : Good q s) :
    Good q (enterPackage a0 a1 a2 a3 a4 a5 a6 s) := by
  unfold enterPackage; dsimp only
  repeat'
    with_reducible first
      | assumption | intro _ | exact mwf_sset _ _ (mwf_sset _ _ (mwf_sset _ _ rfl)) | apply ldmWrite_good
      | apply seeReached_good | apply setCtx_good

theorem packageCall_good {q : List Instr} (a0) {s : State} (h : Good q s) : Good q (packageCall a0 s) := by
  unfold packageCall; dsimp only
  repeat'
    with_reducible first
      | assumption | intro _ | apply bump_good | apply complete_good | apply markStarted_good
      | apply enterPackage_good | refine keep_ite ?_ ?_ | split

theorem packageEnd_good {q : List Instr} (a0) (a1) {s : State} (h : Good q s) : Good q (packageEnd a0 a1 s) := by
  unfold packageEnd; dsimp only
  repeat'
    with_reducible first
      | assumption | intro _ | apply endItem_good | apply postEvent_good | refine keep_ite ?_ ?_ | split

theorem setActStatus_good {q : List Instr} (a0) {s : State} (h : Good q s) : Good q (setActStatus a0 s) := by
  unfold setActStatus
  repeat' (with_reducible first | assumption | intro _ | simp only [good_upd, good_updMe])

theorem actRefuse_good {q : List Instr} (a0) (a1) (a2) {s : State} (h : Good q s) :
    Good q (actRefuse a0 a1 a2 s) := by
  unfold actRefuse
  repeat' (with_reducible first | assumption | intro _ | apply setActStatus_good | split)

theorem dropAct_good {q : List Instr} (a0) {s : State} (h : Good q s) : Good q (dropAct a0 s) := by
  unfold dropAct
  repeat' (with_reducible first | assumption | intro _ | simp only [good_upd, good_updMe])

theorem beginQuiesce_good {q : List Instr} (a0) (a1) (a2) (a3) {s : State} (h : Good q s) :
    Good q (beginQuiesce a0 a1 a2 a3 s) := by
  unfold beginQuiesce; dsimp only
  repeat'
    with_reducible first
      | assumption | intro _ | simp only [good_upd, good_updMe] | apply dropAct_good | apply setActStatus_good
      | refine keep_ite ?_ ?_

theorem activate_good {q : List Instr} (a0) (a1) (a2) {s : State} (h : Good q s) : Good q (activate a0 a1 a2 s) := by
  unfold activate; dsimp only
  repeat'
    with_reducible first
      | assumption | intro _ | simp only [good_upd, good_updMe] | apply logEvent_good | apply actRefuse_good
      | apply beginQuiesce_good | apply bump_good | apply setActStatus_good | apply good_when
      | refine keep_ite ?_ ?_ | refine armShot_good (by assumption) ?_ | split

theorem activationCancel_good {q : List Instr} (a0) {s : State} (h : Good q s) : Good q (activationCancel a0 s) := by
  unfold activationCancel
  repeat'
    with_reducible first
      | assumption | intro _ | apply setActStatus_good | apply dropAct_good | apply releaseShot_good
      | refine keep_ite ?_ ?_ | split

theorem packageRemove_good {q : List Instr} (a0) {s : State} (h : Good q s) : Good q (packageRemove a0 s) := by
  unfold packageRemove
  repeat'
    with_reducible first
      | assumption | intro _ | apply actRefuse_good | apply beginQuiesce_good | refine keep_ite ?_ ?_

theorem engOk_loads {g : Engine} {a b : Nat} {c d : List Byte} (h : EngOk g) :
    EngOk { g with imem := memWrite g.imem a c, ldm := memWrite g.ldm b d } :=
  ⟨h.ctxs, h.regs, Memory.wf_memWrite _ _ h.ldm, Memory.wf_memWrite _ _ h.imem⟩

theorem loadFirmware_good {q : List Instr} (a0) {s : State} (h : Good q s) : Good q (loadFirmware a0 s) := by
  unfold loadFirmware
  repeat'
    with_reducible first
      | assumption | intro _ | exact engOk_loads (by assumption) | refine good_foldSt (fun _ _ h => ?_) ?_
      | apply setEngine_good | apply good_foldSt | refine keep_ite ?_ ?_

theorem loadImage_good {q : List Instr} (a0) {s : State} (h : Good q s) : Good q (loadImage a0 s) := by
  unfold loadImage; dsimp only
  repeat'
    with_reducible first
      | assumption | intro _ | exact engOk_loads (by assumption) | refine good_forRange (fun _ _ h => ?_) ?_
      | simp only [good_upd, good_updMe] | apply loadFirmware_good | apply setEngine_good | apply good_forRange
      | refine keep_ite ?_ ?_ | apply good_id | exact fun _ h => h | apply engOk_mk | split

theorem resumeOld_good {q : List Instr} (a0) {s : State} (h : Good q s) : Good q (resumeOld a0 s) := by
  unfold resumeOld; dsimp only
  repeat'
    with_reducible first
      | assumption | intro _ | simp only [good_upd, good_updMe] | apply later_good | apply dropAct_good
      | refine keep_ite ?_ ?_

theorem quiesceComplete_good {q : List Instr} (a0) {s : State} (h : Good q s) : Good q (quiesceComplete a0 s) := by
  unfold quiesceComplete; dsimp only
  repeat'
    with_reducible first
      | assumption | intro _ | apply setActStatus_good | apply later_good | apply dropAct_good
      | apply loadImage_good | apply actRefuse_good | apply resumeOld_good | refine keep_ite ?_ ?_ | split

theorem quiesceTimeout_good {q : List Instr} (a0) {s : State} (h : Good q s) : Good q (quiesceTimeout a0 s) := by
  unfold quiesceTimeout; dsimp only
  repeat'
    with_reducible first
      | assumption | intro _ | apply resumeOld_good | apply setActStatus_good | apply logEvent_good
      | refine keep_ite ?_ ?_ | split

theorem activationInstant_good {q : List Instr} (a0) {s : State} (h : Good q s) :
    Good q (activationInstant a0 s) := by
  unfold activationInstant; dsimp only
  repeat'
    with_reducible first
      | assumption | intro _ | apply fireShot_good | apply beginQuiesce_good | apply good2_mk
      | refine good2_eq (by assumption) ?_ | refine good2_snd (p := fireShot _ _) ?_ | refine keep_ite ?_ ?_ | split

theorem activationCommand_good {q : List Instr} (a0) {s : State} (h : Good q s) :
    Good q (activationCommand a0 s) := by
  unfold activationCommand; dsimp only
  repeat'
    with_reducible first
      | assumption | intro _ | apply activate_good | apply activationCancel_good | apply packageRemove_good
      | refine keep_ite ?_ ?_

/-! ### Machine/CollOps.lean -/

theorem failStart_good {q : List Instr} (a0) (a1) (a2) (a3) (a4) {s : State} (h : Good q s) :
    Good q (failStart a0 a1 a2 a3 a4 s) := by
  unfold failStart
  repeat' (with_reducible first | assumption | intro _ | apply complete_good | split)

theorem groupEvent_good {q : List Instr} (a0) (a1) (a2) (a3) (a4) (a5) {s : State} (h : Good q s) :
    Good q (groupEvent a0 a1 a2 a3 a4 a5 s) := by
  unfold groupEvent
  repeat' (with_reducible first | assumption | intro _ | apply queueEvent_good | split)

theorem createRead_good {q : List Instr} (a0) {s : State} (h : Good q s) : Good q (createRead a0 s) := by
  unfold createRead; dsimp only
  repeat' (with_reducible first | assumption | intro _ | apply later_good | split)

theorem dropCreate_good {q : List Instr} (a0) (a1) {s : State} (h : Good q s) : Good q (dropCreate a0 a1 s) := by
  unfold dropCreate
  repeat' (with_reducible first | assumption | intro _ | simp only [good_upd] | split)

theorem startCreate_good {q : List Instr} (a0) {s : State} (h : Good q s) : Good q (startCreate a0 s) := by
  unfold startCreate; dsimp only
  repeat'
    with_reducible first
      | assumption | intro _ | refine serviceItem_good _ _ (fun _ _ hst _ => ?_) ?_ | apply hst
      | simp only [good_upd] | apply serviceItem_good | apply createRead_good | refine keep_ite ?_ ?_ | split

theorem activateGroup_good {q : List Instr} (a0) {s : State} (h : Good q s) : Good q (activateGroup a0 s) := by
  unfold activateGroup; dsimp only
  repeat'
    with_reducible first
      | assumption | intro _ | apply setGroup_good | apply sendCollAll_good | apply complete_good

theorem sendJoin_good {q : List Instr} (a0) {s : State} (h : Good q s) : Good q (sendJoin a0 s) := by
  unfold sendJoin; dsimp only
  repeat'
    with_reducible first
      | assumption | intro _ | apply sendColl_good | apply setGroup_good | refine keep_ite ?_ ?_ | split

theorem joinUp_good {q : List Instr} (a0) {s : State} (h : Good q s) : Good q (joinUp a0 s) := by
  unfold joinUp; dsimp only
  repeat'
    with_reducible first
      | assumption | intro _ | apply activateGroup_good | apply sendJoin_good | refine keep_ite ?_ ?_

theorem createGo_good {q : List Instr} (a0) {s : State} (h : Good q s) : Good q (createGo a0 s) := by
  unfold createGo; dsimp only
  repeat'
    with_reducible first
      | assumption | intro _ | apply dropCreate_good | apply failStart_good | apply stagingStack_good
      | apply sweepTransient_good | apply joinUp_good | apply setGroup_good | apply good2_mk
      | refine good2_eq (by assumption) ?_ | refine good2_snd (p := stagingStack _ _) ?_ | refine keep_ite ?_ ?_
      | split

theorem memberTable_good {q : List Instr} (a0) (a1) (a2) {s : State} (h : Good q s) :
    Good q (memberTable a0 a1 a2 s) := by
  unfold memberTable; dsimp only
  repeat'
    with_reducible first
      | assumption | intro _ | simp only [good_upd] | apply complete_good | apply dropCreate_good
      | apply createRead_good | apply createGo_good | refine keep_ite ?_ ?_ | split

theorem abandonGroup_good {q : List Instr} (a0) (a1) (a2) (a3) {s : State} (h : Good q s) :
    Good q (abandonGroup a0 a1 a2 a3 s) := by
  unfold abandonGroup; dsimp only
  repeat'
    with_reducible first
      | assumption | intro _ | apply sendCollAll_good | apply complete_good | apply releaseGroup_good

theorem joinRetry_good {q : List Instr} (a0) {s : State} (h : Good q s) : Good q (joinRetry a0 s) := by
  unfold joinRetry; dsimp only
  repeat'
    with_reducible first
      | assumption | intro _ | apply sendJoin_good | apply bump_good | refine keep_ite ?_ ?_

theorem joinTimeout_good {q : List Instr} (a0) {s : State} (h : Good q s) : Good q (joinTimeout a0 s) := by
  unfold joinTimeout; dsimp only
  repeat' (with_reducible first | assumption | intro _ | apply abandonGroup_good | refine keep_ite ?_ ?_ | split)

theorem endStep_good {q : List Instr} (a0) (a1) (a2) {s : State} (h : Good q s) : Good q (endStep a0 a1 a2 s) := by
  unfold endStep; dsimp only
  repeat'
    with_reducible first
      | assumption | intro _ | apply releaseShot_good | apply dropStep_good | apply complete_good
      | refine keep_ite ?_ ?_ | split

theorem failStep_good {q : List Instr} (a0) (a1) (a2) {s : State} (h : Good q s) : Good q (failStep a0 a1 a2 s) := by
  unfold failStep
  repeat' (with_reducible first | assumption | intro _ | apply endStep_good | split)

theorem loseStep_good {q : List Instr} (a0) (a1) {s : State} (h : Good q s) : Good q (loseStep a0 a1 s) := by
  unfold loseStep; dsimp only
  repeat' (with_reducible first | assumption | intro _ | apply failStep_good | split)

theorem tellBroken_good {q : List Instr} (a0) {s : State} (h : Good q s) : Good q (tellBroken a0 s) := by
  unfold tellBroken; dsimp only
  repeat'
    with_reducible first
      | assumption | intro _ | apply setGroup_good | apply groupEvent_good | refine keep_ite ?_ ?_

theorem breakGroup_good {q : List Instr} (a0) (a1) (a2) {s : State} (h : Good q s) :
    Good q (breakGroup a0 a1 a2 s) := by
  unfold breakGroup; dsimp only
  repeat'
    with_reducible first
      | assumption | intro _ | apply setGroup_good | apply tellBroken_good | apply dropStep_good
      | apply sendColl_good | apply setStep_good | apply releaseShot_good | apply loseStep_good | apply good_foldSt
      | apply good_when | refine keep_ite ?_ ?_

theorem decideLoss_good {q : List Instr} (a0) (a1) (a2) {s : State} (h : Good q s) :
    Good q (decideLoss a0 a1 a2 s) := by
  unfold decideLoss; dsimp only
  repeat'
    with_reducible first
      | assumption | intro _ | apply setGroup_good | apply sendCollAll_good | apply breakGroup_good

theorem fetchFails_good {q : List Instr} (a0) {s : State} (h : Good q s) : Good q (fetchFails a0 s) := by
  unfold fetchFails
  repeat'
    with_reducible first
      | assumption | intro _ | apply loseStep_good | apply good_foldSt | refine keep_ite ?_ ?_

theorem topLost_good {q : List Instr} (a0) (a1) {s : State} (h : Good q s) : Good q (topLost a0 a1 s) := by
  unfold topLost; dsimp only
  repeat'
    with_reducible first
      | assumption | intro _ | apply sendCollAll_good | apply breakGroup_good | apply setGroup_good
      | apply fetchFails_good | refine keep_ite ?_ ?_

theorem declareLost_good {q : List Instr} (a0) (a1) (a2) {s : State} (h : Good q s) :
    Good q (declareLost a0 a1 a2 s) := by
  unfold declareLost; dsimp only
  repeat'
    with_reducible first
      | assumption | intro _ | apply bump_good | apply setGroup_good | apply decideLoss_good | apply topLost_good
      | apply sendColl_good | apply good_when | refine keep_ite ?_ ?_

theorem lostArrive_good {q : List Instr} (a0) (a1) {s : State} (h : Good q s) : Good q (lostArrive a0 a1 s) := by
  unfold lostArrive; dsimp only
  repeat' (with_reducible first | assumption | intro _ | apply decideLoss_good | refine keep_ite ?_ ?_ | split)

theorem brokenArrive_good {q : List Instr} (a0) (a1) {s : State} (h : Good q s) : Good q (brokenArrive a0 a1 s) := by
  unfold brokenArrive; dsimp only
  repeat'
    with_reducible first
      | assumption | intro _ | apply fetchFails_good | apply draw_good | apply breakGroup_good | apply setGroup_good
      | apply good2_mk | refine good2_eq (by assumption) ?_ | refine good2_snd (p := draw _ _) ?_
      | refine keep_ite ?_ ?_ | split

theorem abortHere_good {q : List Instr} (a0) (a1) (a2) (a3) {s : State} (h : Good q s) :
    Good q (abortHere a0 a1 a2 a3 s) := by
  unfold abortHere; dsimp only
  repeat' (with_reducible first | assumption | intro _ | apply bump_good | apply groupEvent_good | apply endStep_good)

theorem takeAbort_good {q : List Instr} (a0) (a1) (a2) (a3) {s : State} (h : Good q s) :
    Good q (takeAbort a0 a1 a2 a3 s) := by
  unfold takeAbort; dsimp only
  repeat'
    with_reducible first
      | assumption | intro _ | apply abortHere_good | apply setStep_good | apply setGroup_good
      | refine keep_ite ?_ ?_ | split

theorem topAbort_good {q : List Instr} (a0) (a1) (a2) (a3) (a4) {s : State} (h : Good q s) :
    Good q (topAbort a0 a1 a2 a3 a4 s) := by
  unfold topAbort; dsimp only
  repeat'
    with_reducible first
      | assumption | intro _ | apply takeAbort_good | apply sendCollAll_good | refine keep_ite ?_ ?_

theorem raiseAbort_good {q : List Instr} (a0) (a1) (a2) {s : State} (h : Good q s) :
    Good q (raiseAbort a0 a1 a2 s) := by
  unfold raiseAbort; dsimp only
  repeat'
    with_reducible first
      | assumption | intro _ | apply bump_good | apply setStep_good | apply topAbort_good | apply sendColl_good
      | apply good_when | refine keep_ite ?_ ?_ | split

theorem abortArrive_good {q : List Instr} (a0) (a1) {s : State} (h : Good q s) : Good q (abortArrive a0 a1 s) := by
  unfold abortArrive; dsimp only
  repeat'
    with_reducible first
      | assumption | intro _ | apply topAbort_good | apply takeAbort_good | apply sendCollAll_good
      | refine keep_ite ?_ ?_

theorem stepTimeout_good {q : List Instr} (a0) (a1) {s : State} (h : Good q s) : Good q (stepTimeout a0 a1 s) := by
  unfold stepTimeout; dsimp only
  repeat' (with_reducible first | assumption | intro _ | apply topAbort_good | refine keep_ite ?_ ?_ | split)

theorem heardFrom_good {q : List Instr} (a0) (a1) {s : State} (h : Good q s) : Good q (heardFrom a0 a1 s) := by
  unfold heardFrom
  repeat' (with_reducible first | assumption | intro _ | apply setGroup_good | split)

theorem startTimers_good {q : List Instr} (a0) {s : State} (h : Good q s) : Good q (startTimers a0 s) := by
  unfold startTimers; dsimp only
  repeat'
    with_reducible first
      | assumption | intro _ | apply heardFrom_good | apply setGroup_good | apply good_foldSt
      | refine keep_ite ?_ ?_

theorem resultWrite_good {q : List Instr} (a0) (a1) {s : State} (h : Good q s) : Good q (resultWrite a0 a1 s) := by
  unfold resultWrite; dsimp only
  repeat' (with_reducible first | assumption | intro _ | apply later_good | refine keep_ite ?_ ?_ | split)

theorem finishStep_good {q : List Instr} (a0) (a1) (a2) {s : State} (h : Good q s) :
    Good q (finishStep a0 a1 a2 s) := by
  unfold finishStep; dsimp only
  repeat'
    with_reducible first
      | assumption | intro _ | apply bump_good | apply endStep_good | apply good_when | refine keep_ite ?_ ?_
      | split

theorem haveResult_good {q : List Instr} (a0) (a1) (a2) (a3) {s : State} (h : Good q s) :
    Good q (haveResult a0 a1 a2 a3 s) := by
  unfold haveResult; dsimp only
  repeat'
    with_reducible first
      | assumption | intro _ | apply setGroup_good | apply poolWrote_good | apply setStep_good | apply sendColl_good
      | apply finishStep_good | apply resultWrite_good | apply good_foldSt | refine keep_ite ?_ ?_ | split

theorem resultWritten_good {q : List Instr} (a0) (a1) (a2) {s : State} (h : Good q s) :
    Good q (resultWritten a0 a1 a2 s) := by
  unfold resultWritten; dsimp only
  repeat'
    with_reducible first
      | assumption | intro _ | apply setStep_good | apply finishStep_good | apply resultWrite_good
      | refine keep_ite ?_ ?_ | split

theorem tryCombine_good {q : List Instr} (a0) (a1) {s : State} (h : Good q s) : Good q (tryCombine a0 a1 s) := by
  unfold tryCombine; dsimp only
  repeat'
    with_reducible first
      | assumption | intro _ | apply setStep_good | apply injectPacket_good | apply haveResult_good
      | apply setGroup_good | apply good_foldSt | refine keep_ite ?_ ?_ | split

theorem contribRead_good {q : List Instr} (a0) (a1) {s : State} (h : Good q s) : Good q (contribRead a0 a1 s) := by
  unfold contribRead; dsimp only
  repeat' (with_reducible first | assumption | intro _ | apply later_good | refine keep_ite ?_ ?_ | split)

theorem contribDone_good {q : List Instr} (a0) (a1) (a2) {s : State} (h : Good q s) :
    Good q (contribDone a0 a1 a2 s) := by
  unfold contribDone; dsimp only
  repeat'
    with_reducible first
      | assumption | intro _ | apply setStep_good | apply contribRead_good | apply tryCombine_good
      | apply raiseAbort_good | refine keep_ite ?_ ?_ | split

theorem launchStep_good {q : List Instr} (a0) (a1) (a2) {s : State} (h : Good q s) :
    Good q (launchStep a0 a1 a2 s) := by
  unfold launchStep
  repeat'
    with_reducible first
      | assumption | intro _ | apply tryCombine_good | apply setStep_good | refine keep_ite ?_ ?_ | split

theorem collLaunch_good {q : List Instr} (a0) (a1) {s : State} (h : Good q s) : Good q (collLaunch a0 a1 s) := by
  unfold collLaunch; dsimp only
  repeat'
    with_reducible first
      | assumption | intro _ | apply fireShot_good | apply launchStep_good | apply good2_mk
      | refine good2_eq (by assumption) ?_ | refine good2_snd (p := fireShot _ _) ?_ | refine keep_ite ?_ ?_

theorem openGoes_good {q : List Instr} (a0) (a1) (a2) (a3) {s : State} (h : Good q s) :
    Good q (openGoes a0 a1 a2 a3 s) := by
  unfold openGoes; dsimp only
  repeat'
    with_reducible first
      | assumption | intro _ | apply abortHere_good | apply raiseAbort_good | apply contribRead_good
      | apply launchStep_good | apply bump_good | apply good_when | refine keep_ite ?_ ?_
      | refine armShot_good (by assumption) ?_ | split

theorem openStep_good {q : List Instr} (g qn op : Nat) (o : SendOp) {s : State} (h : Good q s) :
    Good q (openStep g qn op o s) :=
  openGoes_good _ _ _ _ (setGroup_good _ _ (markStarted_good _ _ (startTimers_good _ h)))

theorem startStep_good {q : List Instr} (a0) (a1) {s : State} (h : Good q s) : Good q (startStep a0 a1 s) := by
  unfold startStep; dsimp only
  repeat'
    with_reducible first
      | assumption | intro _ | apply failStart_good | apply markStarted_good | apply complete_good
      | apply tellBroken_good | apply openStep_good | refine keep_ite ?_ ?_ | split

theorem endGroup_good {q : List Instr} (a0) (a1) {s : State} (h : Good q s) : Good q (endGroup a0 a1 s) := by
  unfold endGroup; dsimp only
  repeat'
    with_reducible first
      | assumption | intro _ | apply failStep_good | apply complete_good | apply sendCollAll_good
      | apply releaseGroup_good | apply good_foldSt | apply good_when | refine keep_ite ?_ ?_

theorem startGroupDestroy_good {q : List Instr} (a0) {s : State} (h : Good q s) :
    Good q (startGroupDestroy a0 s) := by
  unfold startGroupDestroy; dsimp only
  repeat'
    with_reducible first
      | assumption | intro _ | apply markStarted_good | apply failStart_good | apply complete_good
      | apply endGroup_good | refine keep_ite ?_ ?_ | split

theorem groupsOfQueue_good {q : List Instr} (a0) {s : State} (h : Good q s) : Good q (groupsOfQueue a0 s) := by
  unfold groupsOfQueue; dsimp only
  repeat'
    with_reducible first
      | assumption | intro _ | simp only [good_upd] | apply endGroup_good | apply good_foldSt
      | refine keep_ite ?_ ?_

theorem endAllGroups_good {q : List Instr} {s : State} (h : Good q s) : Good q (endAllGroups s) := by
  unfold endAllGroups
  repeat' (with_reducible first | assumption | intro _ | apply endGroup_good | apply good_foldSt)

theorem stagingLost_good {q : List Instr} (a0) {s : State} (h : Good q s) : Good q (stagingLost a0 s) := by
  unfold stagingLost; dsimp only
  repeat'
    with_reducible first
      | assumption | intro _ | apply sendCollAll_good | apply breakGroup_good | apply setGroup_good
      | refine keep_ite ?_ ?_

theorem joinArrive_good {q : List Instr} (a0) (a1) {s : State} (h : Good q s) : Good q (joinArrive a0 a1 s) := by
  unfold joinArrive; dsimp only
  repeat'
    with_reducible first
      | assumption | intro _ | apply sendColl_good | apply abandonGroup_good | apply joinUp_good
      | apply setGroup_good | refine keep_ite ?_ ?_

theorem readyArrive_good {q : List Instr} (a0) (a1) {s : State} (h : Good q s) : Good q (readyArrive a0 a1 s) := by
  unfold readyArrive; dsimp only
  repeat' (with_reducible first | assumption | intro _ | apply activateGroup_good | refine keep_ite ?_ ?_ | split)

theorem abandonArrive_good {q : List Instr} (a0) (a1) {s : State} (h : Good q s) :
    Good q (abandonArrive a0 a1 s) := by
  unfold abandonArrive; dsimp only
  repeat'
    with_reducible first
      | assumption | intro _ | apply abandonGroup_good | apply declareLost_good | refine keep_ite ?_ ?_

theorem contribArrive_good {q : List Instr} (a0) (a1) {s : State} (h : Good q s) :
    Good q (contribArrive a0 a1 s) := by
  unfold contribArrive; dsimp only
  repeat'
    with_reducible first
      | assumption | intro _ | apply setGroup_good | apply setStep_good | apply poolWrote_good
      | apply raiseAbort_good | apply tryCombine_good | refine keep_ite ?_ ?_ | split

theorem resultArrive_good {q : List Instr} (a0) (a1) {s : State} (h : Good q s) : Good q (resultArrive a0 a1 s) := by
  unfold resultArrive; dsimp only
  repeat'
    with_reducible first
      | assumption | intro _ | apply setStep_good | apply haveResult_good | refine keep_ite ?_ ?_ | split

theorem departArrive_good {q : List Instr} (a0) (a1) {s : State} (h : Good q s) : Good q (departArrive a0 a1 s) := by
  unfold departArrive; dsimp only
  repeat' (with_reducible first | assumption | intro _ | apply declareLost_good | refine keep_ite ?_ ?_ | split)

theorem fetchArrive_good {q : List Instr} (a0) (a1) {s : State} (h : Good q s) : Good q (fetchArrive a0 a1 s) := by
  unfold fetchArrive; dsimp only
  repeat'
    with_reducible first
      | assumption | intro _ | apply sendColl_good | apply good_foldSt | refine keep_ite ?_ ?_ | split

theorem collArrive_good {q : List Instr} (a0) {f1} (hf1 : ∀ x0 x1 x2, Good q x2 → Good q (f1 x0 x1 x2)) (a2) {s : State} (h : Good q s) :
    Good q (collArrive a0 f1 a2 s) := by
  unfold collArrive; dsimp only
  repeat'
    with_reducible first
      | assumption | intro _ | simp only [good_upd] | apply hf1 | apply bump_good | apply heardFrom_good
      | apply good_when | refine keep_ite ?_ ?_

theorem heartbeat_good {q : List Instr} (a0) {s : State} (h : Good q s) : Good q (heartbeat a0 s) := by
  unfold heartbeat; dsimp only
  repeat'
    with_reducible first
      | assumption | intro _ | apply sendCollAll_good | apply setGroup_good | refine keep_ite ?_ ?_

theorem livenessTimeout_good {q : List Instr} (a0) (a1) {s : State} (h : Good q s) :
    Good q (livenessTimeout a0 a1 s) := by
  unfold livenessTimeout; dsimp only
  repeat' (with_reducible first | assumption | intro _ | apply declareLost_good | refine keep_ite ?_ ?_ | split)

theorem collUnreachable_good {q : List Instr} (a0) {s : State} (h : Good q s) : Good q (collUnreachable a0 s) := by
  unfold collUnreachable; dsimp only
  repeat'
    with_reducible first
      | assumption | intro _ | apply declareLost_good | apply fetchFails_good | apply good_foldSt | apply good_when

theorem collUnroutable_good {q : List Instr} (a0) {s : State} (h : Good q s) : Good q (collUnroutable a0 s) := by
  unfold collUnroutable; dsimp only
  repeat'
    with_reducible first
      | assumption | intro _ | apply complete_good | apply releaseGroup_good | apply fetchFails_good
      | apply declareLost_good | refine keep_ite ?_ ?_

theorem collLost_good {q : List Instr} (a0) {s : State} (h : Good q s) : Good q (collLost a0 s) := by
  unfold collLost; dsimp only
  repeat'
    with_reducible first
      | assumption | intro _ | apply bump_good | apply injectPacket_good | refine keep_ite ?_ ?_ | split

/-! ### Machine/Moves.lean -/

theorem moveOver_good {q : List Instr} (a0) (a1) (a2) (a3) {s : State} (h : Good q s) :
    Good q (moveOver a0 a1 a2 a3 s) := by
  unfold moveOver; dsimp only
  repeat'
    with_reducible first
      | assumption | intro _ | apply setCtx_good | apply setEvent_good | apply finish_good | refine keep_ite ?_ ?_
      | exact fun _ h => h | split

theorem sramReports_good {q : List Instr} (a0) (a1) {s : State} (h : Good q s) : Good2 q (sramReports a0 a1 s) := by
  unfold sramReports
  repeat' (with_reducible first | assumption | intro _ | apply bumpBy_good | apply good2_mk)

theorem moveHost_good {q : List Instr} (a0) (a1) (a2) (a3) {s : State} (h : Good q s) :
    Good q (moveHost a0 a1 a2 a3 s) := by
  unfold moveHost; dsimp only
  repeat' (with_reducible first | assumption | intro _ | apply later_good | refine keep_ite ?_ ?_ | split)

theorem moveHostDone_good {q : List Instr} (a0) (a1) (a2) (a3) (a4) {s : State} (h : Good q s) :
    Good q (moveHostDone a0 a1 a2 a3 a4 s) := by
  unfold moveHostDone
  repeat'
    with_reducible first
      | assumption | intro _ | apply moveHost_good | apply moveOver_good | refine keep_ite ?_ ?_ | split

theorem moveAcked_good {q : List Instr} (a0) (a1) (a2) (a3) {s : State} (h : Good q s) :
    Good q (moveAcked a0 a1 a2 a3 s) := by
  unfold moveAcked
  repeat' (with_reducible first | assumption | intro _ | apply moveOver_good | refine keep_ite ?_ ?_ | split)

theorem moveSent_good {q : List Instr} (a0) (a1) (a2) (a3) (a4) {s : State} (h : Good q s) :
    Good q (moveSent a0 a1 a2 a3 a4 s) := by
  unfold moveSent
  repeat'
    with_reducible first
      | assumption | intro _ | apply moveOver_good | apply engineFlush_good | refine keep_ite ?_ ?_ | split

theorem moveWrite_good {q : List Instr} (a0) (a1) (a2) (a3) (a4) (a5) (a6) {s : State} (h : Good q s) :
    Good q (moveWrite a0 a1 a2 a3 a4 a5 a6 s) := by
  unfold moveWrite; dsimp only
  repeat'
    with_reducible first
      | assumption | intro _ | apply moveOver_good | apply setCtx_good | apply ldmWrite_good | apply cmemWrite_good
      | apply performRange_good | apply cmWritePoison_good | apply cmWrite_good | apply emit_good
      | apply moveHost_good | apply startMsg_good | refine keep_ite ?_ ?_ | exact fun _ h => h | split

theorem moveRead_good {q : List Instr} (e n : Nat) (p : EPlace) (given : MoveInput) {s : State} (h : Good q s) :
    Good q (moveRead e n p given s).2.2.2 := by
  unfold moveRead; dsimp only
  split
  · exact good2_snd (p := sramReports _ _ _) (sramReports_good _ _ h)
  · exact good2_snd (p := sramReports _ _ _) (sramReports_good _ _ (good2_snd (p := observe _ _ _ _ _ _)
      (observe_good _ _ _ _ _ h)))
  · rename_i off
    have h2 : Good q (cmRead off n given.source s).2.2 := cmRead_good _ _ _ h
    exact observe_good (moveObserver (clusterOf e)) none off n 0 h2
  · exact draw_good (2 ^ (8 * n)) h
  · exact h

theorem moveGo_good {q : List Instr} (a0) (a1) (a2) (a3) (a4) {s : State} (h : Good q s) :
    Good q (moveGo a0 a1 a2 a3 a4 s) := by
  unfold moveGo; dsimp only
  repeat'
    with_reducible first
      | assumption | intro _ | apply moveRead_good | apply moveOver_good | apply moveWrite_good
      | refine keep_ite ?_ ?_

end Sys2Proof.Machine
end

