-- ==== Sys2Proof/Laws/KeepLane.lean ====
section
/-!
SUPPORT. Keeping the queue of commands and the canonical form: the lanes and the end of queues.
-/
namespace Sys2Proof.Machine

/-! ### Machine/LaneOps.lean -/

theorem setOlane_good {q : List Instr} (a0) (a1) {s : State} (h : Good q s) : Good q (setOlane a0 a1 s) := by
  unfold setOlane
  repeat' (with_reducible first | assumption | intro _ | simp only [good_upd] | split)

theorem setLaneEntries_good {q : List Instr} (a0) {s : State} (h : Good q s) : Good q (setLaneEntries a0 s) := by
  unfold setLaneEntries
  repeat' (with_reducible first | assumption | intro _ | simp only [good_upd] | split)

theorem freeLabel_good {q : List Instr} (a0) {s : State} (h : Good q s) : Good2 q (freeLabel a0 s) := by
  unfold freeLabel; dsimp only
  repeat'
    with_reducible first
      | assumption | intro _ | apply draw_good | apply good2_mk | refine good2_eq (by assumption) ?_
      | refine good2_snd (p := draw _ _) ?_

theorem freeLnum_good {q : List Instr} {s : State} (h : Good q s) : Good2 q (freeLnum s) := by
  unfold freeLnum; dsimp only
  repeat'
    with_reducible first
      | assumption | intro _ | apply draw_good | apply good2_mk | refine good2_eq (by assumption) ?_
      | refine good2_snd (p := draw _ _) ?_

theorem laneSend_good {q : List Instr} (a0) (a1) (a2) (a3) (a4) {s : State} (h : Good q s) :
    Good q (laneSend a0 a1 a2 a3 a4 s) := by
  unfold laneSend
  repeat' (with_reducible first | assumption | intro _ | apply enqueue_good | split)

theorem countInjected_good {q : List Instr} (a0) {s : State} (h : Good q s) : Good q (countInjected a0 s) := by
  unfold countInjected
  repeat' (with_reducible first | assumption | intro _ | apply bumpG15_good | split)

theorem sendRelease_good {q : List Instr} (a0) (a1) (a2) (a3) (a4) (a5) (a6) (a7) {s : State} (h : Good q s) :
    Good q (sendRelease a0 a1 a2 a3 a4 a5 a6 a7 s) := by
  unfold sendRelease
  repeat' (with_reducible first | assumption | intro _ | apply laneSend_good | apply countInjected_good)

theorem sendReply_good {q : List Instr} (a0) (a1) (a2) (a3) (a4) (a5) (a6) (a7) {s : State} (h : Good q s) :
    Good q (sendReply a0 a1 a2 a3 a4 a5 a6 a7 s) := by
  unfold sendReply
  repeat' (with_reducible first | assumption | intro _ | apply laneSend_good | apply countInjected_good)

theorem releaseOut_good {q : List Instr} (a0) (a1) {s : State} (h : Good q s) : Good q (releaseOut a0 a1 s) := by
  unfold releaseOut; dsimp only
  repeat'
    with_reducible first
      | assumption | intro _ | simp only [good_upd] | apply sendRelease_good | refine keep_ite ?_ ?_

theorem originRelease_good {q : List Instr} (a0) (a1) (a2) {s : State} (h : Good q s) :
    Good q (originRelease a0 a1 a2 s) := by
  unfold originRelease; dsimp only
  repeat' (with_reducible first | assumption | intro _ | simp only [good_upd] | apply releaseOut_good | split)

theorem kickReleases_good {q : List Instr} {s : State} (h : Good q s) : Good q (kickReleases s) := by
  unfold kickReleases
  repeat'
    with_reducible first
      | assumption | intro _ | apply releaseOut_good | apply good_foldSt | refine keep_ite ?_ ?_

theorem freeLane_good {q : List Instr} (a0) {s : State} (h : Good q s) : Good q (freeLane a0 s) := by
  unfold freeLane
  repeat' (with_reducible first | assumption | intro _ | apply setOlane_good | apply settleTags_good)

theorem laneService_good {q : List Instr} (qn op : Nat) {f : SendOp → (State → State) → State → State}
    (hf : ∀ o start s, (∀ s, Good q s → Good q (start s)) → Good q s → Good q (f o start s)) {s : State} (h : Good q s) :
    Good q (laneService qn op f s) := by
  unfold laneService
  split
  · exact h
  · exact serviceItem_good _ _ (hf _) h

theorem openRefused_good {q : List Instr} (a0) (a1) (a2) {s : State} (h : Good q s) :
    Good q (openRefused a0 a1 a2 s) := by
  unfold openRefused
  repeat' (with_reducible first | assumption | intro _ | apply complete_good | split)

theorem laneOpen_good {q : List Instr} (a0) {s : State} (h : Good q s) : Good q (laneOpen a0 s) := by
  unfold laneOpen; dsimp only
  repeat'
    with_reducible first
      | assumption | intro _ | refine laneService_good _ _ (fun _ _ _ hst _ => ?_) ?_ | apply hst
      | apply laneService_good | apply openRefused_good | apply bump_good | apply freeLnum_good
      | apply freeLabel_good | apply settleTags_good | apply laneSend_good | apply countInjected_good
      | apply setOlane_good | apply good2_mk | refine good2_eq (by assumption) ?_
      | refine good2_snd (p := freeLnum _) ?_ | refine good2_snd (p := freeLabel _ _) ?_ | refine keep_ite ?_ ?_
      | split

theorem setSend_good {q : List Instr} (a0) (a1) (a2) (a3) {s : State} (h : Good q s) :
    Good q (setSend a0 a1 a2 a3 s) := by
  unfold setSend
  repeat' (with_reducible first | assumption | intro _ | apply setOlane_good | split)

theorem laneGather_good {q : List Instr} (a0) {s : State} (h : Good q s) : Good q (laneGather a0 s) := by
  unfold laneGather; dsimp only
  repeat' (with_reducible first | assumption | intro _ | apply later_good | refine keep_ite ?_ ?_ | split)

theorem laneEmit_good {q : List Instr} (a0) {s : State} (h : Good q s) : Good q (laneEmit a0 s) := by
  unfold laneEmit; dsimp only
  repeat'
    with_reducible first
      | assumption | intro _ | apply laneSend_good | apply countInjected_good | apply setOlane_good
      | apply setSend_good | apply laneGather_good | refine keep_ite ?_ ?_ | split

theorem laneSendStart_good {q : List Instr} (a0) {s : State} (h : Good q s) : Good q (laneSendStart a0 s) := by
  unfold laneSendStart; dsimp only
  repeat'
    with_reducible first
      | assumption | intro _ | refine laneService_good _ _ (fun _ _ _ hst _ => ?_) ?_ | apply hst
      | apply laneService_good | apply complete_good | apply setOlane_good | apply laneGather_good
      | refine keep_ite ?_ ?_ | split

theorem laneRead_good {q : List Instr} (a0) (a1) {s : State} (h : Good q s) : Good q (laneRead a0 a1 s) := by
  unfold laneRead; dsimp only
  repeat'
    with_reducible first
      | assumption | intro _ | apply setSend_good | apply laneGather_good | apply laneEmit_good
      | apply complete_good | apply setOlane_good | refine keep_ite ?_ ?_ | split

theorem laneClose_good {q : List Instr} (a0) {s : State} (h : Good q s) : Good q (laneClose a0 s) := by
  unfold laneClose; dsimp only
  repeat'
    with_reducible first
      | assumption | intro _ | refine laneService_good _ _ (fun _ _ _ hst _ => ?_) ?_ | apply hst
      | apply laneService_good | apply complete_good | apply originRelease_good | apply freeLane_good
      | refine keep_ite ?_ ?_ | split

theorem closeLane_good {q : List Instr} (a0) {s : State} (h : Good q s) : Good q (closeLane a0 s) := by
  unfold closeLane; dsimp only
  repeat'
    with_reducible first
      | assumption | intro _ | apply complete_good | apply openRefused_good | apply originRelease_good
      | apply freeLane_good | apply good_foldSt | refine keep_ite ?_ ?_

theorem closeLanes_good {q : List Instr} (a0) {s : State} (h : Good q s) : Good q (closeLanes a0 s) := by
  unfold closeLanes
  repeat'
    with_reducible first
      | assumption | intro _ | apply closeLane_good | apply good_foldSt | refine keep_ite ?_ ?_

theorem breakLane_good {q : List Instr} (a0) (a1) {s : State} (h : Good q s) : Good q (breakLane a0 a1 s) := by
  unfold breakLane; dsimp only
  repeat'
    with_reducible first
      | assumption | intro _ | apply complete_good | apply originRelease_good | apply freeLane_good
      | apply queueEvent_good | apply good_foldSt | refine keep_ite ?_ ?_

theorem laneDataLost_good {q : List Instr} (a0) {s : State} (h : Good q s) : Good q (laneDataLost a0 s) := by
  unfold laneDataLost
  repeat' (with_reducible first | assumption | intro _ | apply breakLane_good | refine keep_ite ?_ ?_ | split)

theorem farReport_good {q : List Instr} {s : State} (h : Good q s) : Good q (farReport s) := by
  unfold farReport; dsimp only
  repeat'
    with_reducible first
      | assumption | intro _ | simp only [good_upd, good_updMe] | apply postEvent_good | apply good_foldSt
      | refine keep_ite ?_ ?_

theorem lanesFlushed_good {q : List Instr} (a0) {s : State} (h : Good q s) : Good q (lanesFlushed a0 s) := by
  unfold lanesFlushed; dsimp only
  repeat'
    with_reducible first
      | assumption | intro _ | simp only [good_upd, good_updMe] | apply settleTags_good | apply breakLane_good
      | apply setLaneEntries_good | apply farReport_good | apply sendRelease_good | apply good_foldSt
      | refine keep_ite ?_ ?_ | split

theorem replyAtOrigin_good {q : List Instr} (a0) {s : State} (h : Good q s) : Good q (replyAtOrigin a0 s) := by
  unfold replyAtOrigin; dsimp only
  repeat'
    with_reducible first
      | assumption | intro _ | apply setOlane_good | apply complete_good | apply openRefused_good
      | apply freeLane_good | refine keep_ite ?_ ?_

theorem setupTimeout_good {q : List Instr} (a0) {s : State} (h : Good q s) : Good q (setupTimeout a0 s) := by
  unfold setupTimeout; dsimp only
  repeat'
    with_reducible first
      | assumption | intro _ | apply setOlane_good | apply bump_good | apply openRefused_good
      | apply originRelease_good | apply freeLane_good | refine keep_ite ?_ ?_

theorem squallArrive_good {q : List Instr} (a0) {s : State} (h : Good q s) : Good q (squallArrive a0 s) := by
  unfold squallArrive; dsimp only
  repeat' (with_reducible first | assumption | intro _ | apply setOlane_good | refine keep_ite ?_ ?_ | split)

theorem squallExpiry_good {q : List Instr} (a0) {s : State} (h : Good q s) : Good q (squallExpiry a0 s) := by
  unfold squallExpiry
  repeat' (with_reducible first | assumption | intro _ | apply setOlane_good | refine keep_ite ?_ ?_ | split)

theorem setupCheck_good {q : List Instr} (a0) (a1) {s : State} (h : Good q s) : Good3 q (setupCheck a0 a1 s) := by
  unfold setupCheck; dsimp only
  repeat'
    with_reducible first
      | assumption | intro _ | apply freeLabel_good | apply good2_mk | refine good2_eq (by assumption) ?_
      | refine good2_snd (p := freeLabel _ _) ?_ | apply good3_mk | refine good3_eq (by assumption) ?_
      | refine keep_ite ?_ ?_ | split

theorem setupArrive_good {q : List Instr} (a0) (a1) {s : State} (h : Good q s) : Good q (setupArrive a0 a1 s) := by
  unfold setupArrive; dsimp only
  repeat'
    with_reducible first
      | assumption | intro _ | simp only [good_upd, good_updMe] | apply setupCheck_good | apply sendReply_good
      | apply bump_good | apply settleTags_good | apply setLaneEntries_good | apply laneSend_good | apply good3_mk
      | refine good3_eq (by assumption) ?_ | refine good3_snd (p := setupCheck _ _ _) ?_ | refine keep_ite ?_ ?_
      | apply good_id | split

theorem replyArrive_good {q : List Instr} (a0) (a1) {s : State} (h : Good q s) : Good q (replyArrive a0 a1 s) := by
  unfold replyArrive; dsimp only
  repeat'
    with_reducible first
      | assumption | intro _ | apply replyAtOrigin_good | apply setLaneEntries_good | apply settleTags_good
      | apply laneSend_good | refine keep_ite ?_ ?_ | split

theorem dropLaneEntry_good {q : List Instr} (a0) (a1) {s : State} (h : Good q s) :
    Good q (dropLaneEntry a0 a1 s) := by
  unfold dropLaneEntry; dsimp only
  repeat'
    with_reducible first
      | assumption | intro _ | apply settleTags_good | apply setLaneEntries_good | refine keep_ite ?_ ?_ | split

theorem farEnd_good {q : List Instr} (a0) (a1) (a2) {s : State} (h : Good q s) : Good q (farEnd a0 a1 a2 s) := by
  unfold farEnd
  repeat' (with_reducible first | assumption | intro _ | simp only [good_upd, good_updMe])

theorem endLaneEntry_good {q : List Instr} (a0) (a1) {s : State} (h : Good q s) : Good q (endLaneEntry a0 a1 s) := by
  unfold endLaneEntry
  repeat' (with_reducible first | assumption | intro _ | apply setLaneEntries_good | split)

theorem releaseArrive_good {q : List Instr} (a0) (a1) {s : State} (h : Good q s) :
    Good q (releaseArrive a0 a1 s) := by
  unfold releaseArrive
  repeat'
    with_reducible first
      | assumption | intro _ | apply laneSend_good | apply endLaneEntry_good | apply dropLaneEntry_good
      | apply farReport_good | apply farEnd_good | refine keep_ite ?_ ?_ | split

theorem tentativeTimeout_good {q : List Instr} (a0) (a1) {s : State} (h : Good q s) :
    Good q (tentativeTimeout a0 a1 s) := by
  unfold tentativeTimeout
  repeat' (with_reducible first | assumption | intro _ | apply dropLaneEntry_good | refine keep_ite ?_ ?_ | split)

theorem laneOut_good {q : List Instr} (a0) (a1) {s : State} (h : Good q s) : Good q (laneOut a0 a1 s) := by
  unfold laneOut; dsimp only
  repeat'
    with_reducible first
      | assumption | intro _ | simp only [good_upd] | apply settleTags_good | apply setLaneEntries_good
      | refine keep_ite ?_ ?_

theorem lastDepart_good {q : List Instr} (a0) (a1) {s : State} (h : Good q s) : Good q (lastDepart a0 a1 s) := by
  unfold lastDepart; dsimp only
  repeat'
    with_reducible first
      | assumption | intro _ | apply setLaneEntries_good | apply settleTags_good | apply freeLane_good
      | apply good_foldSt | refine keep_ite ?_ ?_

theorem squallMark_good {q : List Instr} (a0) (a1) (a2) {s : State} (h : Good q s) :
    Good q (squallMark a0 a1 a2 s) := by
  unfold squallMark; dsimp only
  repeat'
    with_reducible first
      | assumption | intro _ | apply setLaneEntries_good | apply injectPacket_good | refine keep_ite ?_ ?_

theorem setFar_good {q : List Instr} (a0) (a1) {s : State} (h : Good q s) : Good q (setFar a0 a1 s) := by
  unfold setFar
  repeat' (with_reducible first | assumption | intro _ | simp only [good_upd, good_updMe] | apply good_id)

theorem farRefuse_good {q : List Instr} (a0) (a1) (a2) {s : State} (h : Good q s) :
    Good q (farRefuse a0 a1 a2 s) := by
  unfold farRefuse; dsimp only
  repeat'
    with_reducible first
      | assumption | intro _ | apply bump_good | apply postEvent_good | apply setFar_good | refine keep_ite ?_ ?_
      | apply good_id | split

theorem lanePlaceNext_good {q : List Instr} (a0) (a1) (a2) {s : State} (h : Good q s) :
    Good q (lanePlaceNext a0 a1 a2 s) := by
  unfold lanePlaceNext; dsimp only
  repeat' (with_reducible first | assumption | intro _ | apply later_good | split)

theorem lanePlaced_good {q : List Instr} (a0) (a1) (a2) (a3) {s : State} (h : Good q s) :
    Good q (lanePlaced a0 a1 a2 a3 s) := by
  unfold lanePlaced
  repeat'
    with_reducible first
      | assumption | intro _ | apply lanePlaceNext_good | apply farReport_good | apply setFar_good
      | apply farRefuse_good | refine keep_ite ?_ ?_ | split

theorem farArrive_good {q : List Instr} (a0) (a1) (a2) {s : State} (h : Good q s) :
    Good q (farArrive a0 a1 a2 s) := by
  unfold farArrive; dsimp only
  repeat'
    with_reducible first
      | assumption | intro _ | apply squallMark_good | apply bump_good | apply bumpG15_good | apply farRefuse_good
      | apply lanePlaceNext_good | apply setFar_good | apply draw_good | apply farReport_good | apply farEnd_good
      | apply dropLaneEntry_good | apply good_when | apply good2_mk | refine good2_eq (by assumption) ?_
      | refine good2_snd (p := draw _ _) ?_ | refine keep_ite ?_ ?_ | apply good_id | split

theorem dataArrive_good {q : List Instr} (a0) (a1) (a2) {s : State} (h : Good q s) :
    Good q (dataArrive a0 a1 a2 s) := by
  unfold dataArrive
  repeat'
    with_reducible first
      | assumption | intro _ | apply bump_good | apply leaveIngress_good | apply laneSend_good
      | apply endLaneEntry_good | apply bumpG15_good | apply farArrive_good | apply good_when
      | refine keep_ite ?_ ?_ | split

theorem laneLeft_good {q : List Instr} (a0) {s : State} (h : Good q s) : Good q (laneLeft a0 s) := by
  unfold laneLeft; dsimp only
  repeat'
    with_reducible first
      | assumption | intro _ | apply complete_good | apply setOlane_good | refine keep_ite ?_ ?_ | split

/-! ### Machine/QueueEnd.lean -/

theorem removePosted_good {q : List Instr} (a0) (a1) {s : State} (h : Good q s) : Good q (removePosted a0 a1 s) := by
  unfold removePosted; dsimp only
  repeat'
    with_reducible first
      | assumption | intro _ | simp only [good_upd] | apply releaseSlots_good | apply recvGone_good
      | apply recvDone_good | apply good_foldSt | refine keep_ite ?_ ?_

theorem abandonItem_regs (qn : Nat) (x : ECtx) : (abandonItem qn x).regs = x.regs := by
  unfold abandonItem; split
  · split <;> rfl
  · rfl

theorem abandonServices_good {q : List Instr} (qn : Nat) {s : State} (h : Good q s) : Good q (abandonServices qn s) := by
  unfold abandonServices; dsimp only
  refine Good.mkMe h fun h => ⟨enginesOk_smapv h.engines fun _ g hg => ?_, h.cmem⟩
  refine ⟨mwf_smapv _ hg.ctxs, all_smapv (p := fun x : ECtx => mwf x.regs) hg.regs fun _ x hx => ?_, hg.ldm, hg.imem⟩
  rw [abandonItem_regs]; exact hx

theorem serviceEnds_good {q : List Instr} (a0) (a1) (a2) {s : State} (h : Good q s) :
    Good q (serviceEnds a0 a1 a2 s) := by
  unfold serviceEnds; dsimp only
  repeat'
    with_reducible first
      | assumption | intro _ | apply complete_good | apply originRelease_good | apply freeLane_good
      | apply laneGather_good | apply setOlane_good | apply dropCreate_good | apply releaseGroup_good
      | apply sendCollAll_good | refine keep_ite ?_ ?_ | split

theorem endWaiters_good {q : List Instr} (a0) {s : State} (h : Good q s) : Good q (endWaiters a0 s) := by
  unfold endWaiters; dsimp only
  repeat'
    with_reducible first
      | assumption | intro _ | apply later_good | apply dropWaiters_good | apply good_foldSt

theorem abandonWork_good {q : List Instr} (a0) {s : State} (h : Good q s) : Good2 q (abandonWork a0 s) := by
  unfold abandonWork; dsimp only
  repeat'
    with_reducible first
      | assumption | intro _ | simp only [good_upd] | apply abandonAt_good | apply dropHandles_good
      | apply abandonServices_good | apply groupsOfQueue_good | apply endWaiters_good | apply removePosted_good
      | apply releaseSlots_good | apply setQueue_good | apply good_foldSt | apply good_when | apply good2_mk

theorem interruptPending_good {q : List Instr} (a0) {s : State} (h : Good q s) : Good q (interruptPending a0 s) := by
  unfold interruptPending
  repeat'
    with_reducible first
      | assumption | intro _ | apply adminDone_good | apply setQueue_good | refine keep_ite ?_ ?_ | split

theorem destroyForce_good {q : List Instr} (a0) (a1) {s : State} (h : Good q s) : Good q (destroyForce a0 a1 s) := by
  unfold destroyForce; dsimp only
  repeat'
    with_reducible first
      | assumption | intro _ | apply interruptPending_good | apply setQueue_good | apply abandonWork_good
      | apply good2_mk | refine good2_eq (by assumption) ?_ | refine good2_snd (p := abandonWork _ _) ?_

theorem queueDestroy_good {q : List Instr} (a0) (a1) {s : State} (h : Good q s) : Good q (queueDestroy a0 a1 s) := by
  unfold queueDestroy; dsimp only
  repeat'
    with_reducible first
      | assumption | intro _ | apply adminStart_good | apply onTarget_good | apply adminDone_good
      | apply destroyForce_good | apply setQueue_good | refine keep_ite ?_ ?_

theorem drainComplete_good {q : List Instr} (a0) {s : State} (h : Good q s) : Good q (drainComplete a0 s) := by
  unfold drainComplete; dsimp only
  repeat'
    with_reducible first
      | assumption | intro _ | apply setQueue_good | apply drainEnd_good | refine keep_ite ?_ ?_ | split

theorem destroyComplete_good {q : List Instr} (a0) {s : State} (h : Good q s) : Good q (destroyComplete a0 s) := by
  unfold destroyComplete; dsimp only
  repeat'
    with_reducible first
      | assumption | intro _ | apply removePosted_good | apply groupsOfQueue_good | apply setQueue_good
      | apply closeDying_good | apply adminDone_good | refine keep_ite ?_ ?_ | split

theorem destroyQueues_good {q : List Instr} (a0) (a1) {s : State} (h : Good q s) :
    Good q (destroyQueues a0 a1 s) := by
  unfold destroyQueues
  repeat'
    with_reducible first
      | assumption | intro _ | apply destroyForce_good | apply good_foldSt | refine keep_ite ?_ ?_

theorem contextLost_good {q : List Instr} (a0) (a1) (a2) {s : State} (h : Good q s) :
    Good q (contextLost a0 a1 a2 s) := by
  unfold contextLost; dsimp only
  repeat'
    with_reducible first
      | assumption | intro _ | apply setQueue_good | apply interruptPending_good | apply abandonWork_good
      | apply adminHalt_good | apply bump_good | apply queueEvent_good | apply good_when | apply good2_mk
      | refine good2_eq (by assumption) ?_ | refine good2_snd (p := abandonWork _ _) ?_ | refine keep_ite ?_ ?_

theorem dropConn_good {q : List Instr} (a0) {s : State} (h : Good q s) : Good q (dropConn a0 s) := by
  unfold dropConn; dsimp only
  repeat'
    with_reducible first
      | assumption | intro _ | apply complete_good | apply abandonMsg_good | apply freeConn_good | apply good_foldSt

theorem fnMoved_good {q : List Instr} (a0) (a1) (a2) {s : State} (h : Good q s) : Good q (fnMoved a0 a1 a2 s) := by
  unfold fnMoved; dsimp only
  repeat'
    with_reducible first
      | assumption | intro _ | apply destroyQueues_good | apply drainRegion_good | apply closeDying_good
      | apply setSpace_good | apply good_foldSt | refine keep_ite ?_ ?_

theorem fnTeardown_good {q : List Instr} (a0) {s : State} (h : Good q s) : Good q (fnTeardown a0 s) := by
  unfold fnTeardown; dsimp only
  repeat'
    with_reducible first
      | assumption | intro _ | apply fnMoved_good | apply dropConn_good | apply closeLanes_good
      | apply orphanFn_good | apply later_good | apply good_foldSt | apply good_when | refine keep_ite ?_ ?_

theorem memory_wf_nil : Memory.wf [] = true := rfl

theorem fnRegsReset_good {q : List Instr} (a0) (a1) {s : State} (h : Good q s) : Good q (fnRegsReset a0 a1 s) := by
  unfold fnRegsReset
  repeat' (with_reducible first | assumption | intro _ | exact memory_wf_nil | apply setFn_good)

theorem resetOne_good {q : List Instr} (a0) (a1) {s : State} (h : Good q s) : Good q (resetOne a0 a1 s) := by
  unfold resetOne
  repeat' (with_reducible first | assumption | intro _ | apply fnRegsReset_good | apply fnTeardown_good)

theorem fnReset_good {q : List Instr} (a0) (a1) {s : State} (h : Good q s) : Good q (fnReset a0 a1 s) := by
  unfold fnReset; dsimp only
  repeat'
    with_reducible first
      | assumption | intro _ | apply setLink_good | apply resetOne_good | apply good_foldSt | refine keep_ite ?_ ?_

theorem regionLost_good {q : List Instr} (a0) (a1) {s : State} (h : Good q s) : Good q (regionLost a0 a1 s) := by
  unfold regionLost; dsimp only
  repeat'
    with_reducible first
      | assumption | intro _ | apply drainRegion_good | apply postEvent_good | refine keep_ite ?_ ?_

theorem flowLost_good {q : List Instr} (a0) {s : State} (h : Good q s) : Good q (flowLost a0 s) := by
  unfold flowLost; dsimp only
  repeat'
    with_reducible first
      | assumption | intro _ | simp only [good_upd] | apply failMsg_good | apply startMsg_good | apply good_foldSt
      | refine keep_ite ?_ ?_ | split

theorem tgtLost_good {q : List Instr} (a0) {s : State} (h : Good q s) : Good q (tgtLost a0 s) := by
  unfold tgtLost
  repeat' (with_reducible first | assumption | intro _ | simp only [good_upd] | split)

theorem poisonStored_good {q : List Instr} (a0) {s : State} (h : Good q s) : Good q (poisonStored a0 s) := by
  unfold poisonStored
  repeat' (with_reducible first | assumption | intro _ | simp only [good_upd] | split)

theorem contextsLost_good {q : List Instr} (a0) (a1) {s : State} (h : Good q s) : Good q (contextsLost a0 a1 s) := by
  unfold contextsLost; dsimp only
  repeat'
    with_reducible first
      | assumption | intro _ | apply contextLost_good | apply good_foldSt | refine keep_ite ?_ ?_

theorem ringsMoved_good {q : List Instr} (a0) {s : State} (h : Good q s) : Good q (ringsMoved a0 s) := by
  unfold ringsMoved
  repeat'
    with_reducible first
      | assumption | intro _ | simp only [good_upd, good_updMe] | apply mirrorPlaced_good | refine keep_ite ?_ ?_

theorem stackGone_good {q : List Instr} (a0) {s : State} (h : Good q s) : Good q (stackGone a0 s) := by
  unfold stackGone; dsimp only
  repeat'
    with_reducible first
      | assumption | intro _ | apply contextsLost_good | apply regionLost_good | apply flowLost_good
      | apply tgtLost_good | apply domClose_good | apply poisonStored_good | apply ringsMoved_good
      | apply stagingGone_good | apply stagingLost_good | apply good_foldSt | refine keep_ite ?_ ?_

theorem pickOne_good {q : List Instr} {α : Type} (p : α → Bool) (m : SMap α) {s : State} (h : Good q s) :
    Good2 q (pickOne p m s) := by
  unfold pickOne; exact good2_mk (draw_good ((m.filter fun e => p e.2).length + 1) h)

theorem withPick_good {q : List Instr} {r : Option Nat × State} {f : Nat → State → State} (h : Good2 q r)
    (hf : ∀ k s, Good q s → Good q (f k s)) : Good q (withPick r f) := by
  unfold withPick; split
  · exact hf _ _ h
  · exact h

theorem storePoisoned_good {q : List Instr} (a0) {s : State} (h : Good q s) : Good q (storePoisoned a0 s) := by
  unfold storePoisoned; dsimp only
  repeat'
    with_reducible first
      | assumption | intro _ | apply withPick_good | simp only [good_upd] | apply draw_good | apply pickOne_good
      | apply setDom_good | apply good2_mk | refine good2_eq (by assumption) ?_
      | refine good2_snd (p := draw _ _) ?_ | refine good2_snd (p := pickOne _ _ _) ?_ | refine keep_ite ?_ ?_

theorem recordPoisoned_good {q : List Instr} {s : State} (h : Good q s) : Good q (recordPoisoned s) := by
  unfold recordPoisoned; dsimp only
  repeat'
    with_reducible first
      | assumption | intro _ | simp only [good_upd, good_updMe] | apply draw_good | apply good2_mk
      | refine good2_eq (by assumption) ?_ | refine good2_snd (p := draw _ _) ?_ | refine keep_ite ?_ ?_

theorem stagingPoisoned_good {q : List Instr} (a0) {s : State} (h : Good q s) : Good q (stagingPoisoned a0 s) := by
  unfold stagingPoisoned; dsimp only
  repeat'
    with_reducible first
      | assumption | intro _ | apply withPick_good | apply pickOne_good | apply draw_good | apply stagingLost_good
      | apply setGroup_good | apply good2_mk | refine good2_eq (by assumption) ?_
      | refine good2_snd (p := pickOne _ _ _) ?_ | refine good2_snd (p := draw _ _) ?_ | refine keep_ite ?_ ?_

theorem postedPoisoned_good {q : List Instr} (a0) {s : State} (h : Good q s) : Good q (postedPoisoned a0 s) := by
  unfold postedPoisoned; dsimp only
  repeat'
    with_reducible first
      | assumption | intro _ | apply withPick_good | apply pickOne_good | apply draw_good | apply domClose_good
      | apply good2_mk | refine good2_eq (by assumption) ?_ | refine good2_snd (p := pickOne _ _ _) ?_
      | refine good2_snd (p := draw _ _) ?_

theorem listPoisoned_good {q : List Instr} (a0) (a1) {s : State} (h : Good q s) : Good q (listPoisoned a0 a1 s) := by
  unfold listPoisoned; dsimp only
  repeat'
    with_reducible first
      | assumption | intro _ | apply withPick_good | apply pickOne_good | apply domClose_good

theorem matchPoisoned_good {q : List Instr} (a0) (a1) (a2) {s : State} (h : Good q s) :
    Good q (matchPoisoned a0 a1 a2 s) := by
  unfold matchPoisoned
  repeat'
    with_reducible first
      | assumption | intro _ | apply postedPoisoned_good | apply listPoisoned_good | refine keep_ite ?_ ?_

theorem granulePoisoned_good {q : List Instr} (a0) {s : State} (h : Good q s) : Good q (granulePoisoned a0 s) := by
  unfold granulePoisoned; dsimp only
  repeat'
    with_reducible first
      | assumption | intro _ | apply withPick_good | apply pickOne_good | apply contextsLost_good
      | apply regionLost_good | apply draw_good | apply tgtLost_good | apply flowLost_good
      | apply matchPoisoned_good | apply storePoisoned_good | apply stagingPoisoned_good | apply recordPoisoned_good
      | apply good2_mk | refine good2_eq (by assumption) ?_ | refine good2_snd (p := pickOne _ _ _) ?_
      | refine good2_snd (p := draw _ _) ?_ | refine keep_ite ?_ ?_ | split

end Sys2Proof.Machine
end

