-- ==== Sys2Proof/Laws/KeepMgmt.lean ====
section
/-!
SUPPORT. Keeping the queue of commands and the canonical form: management, commit, the host links, what a domain leaves, resets.
-/
namespace Sys2Proof.Machine

/-! ### Machine/Mgmt.lean -/

theorem scanTemp_good {q : List Instr} (a0) (a1) {s : State} (h : Good q s) : Good q (scanTemp a0 a1 s) := by
  unfold scanTemp; dsimp only
  repeat'
    with_reducible first
      | assumption | intro _ | simp only [good_upd] | apply raiseFault_good | apply endCondition_good
      | refine keep_ite ?_ ?_

theorem scanSensors_good {q : List Instr} (a0) {s : State} (h : Good q s) : Good q (scanSensors a0 s) := by
  unfold scanSensors; dsimp only
  repeat'
    with_reducible first
      | assumption | intro _ | simp only [good_upd] | apply scanTemp_good | apply endCondition_good
      | apply good_foldSt | refine keep_ite ?_ ?_ | split

theorem publish_good {q : List Instr} (a0) {s : State} (h : Good q s) : Good q (publish a0 s) := by
  unfold publish
  repeat' (with_reducible first | assumption | intro _ | simp only [good_upd] | split)

theorem telemetry_good {q : List Instr} (a0) (a1) {s : State} (h : Good q s) : Good q (telemetry a0 a1 s) := by
  unfold telemetry; dsimp only
  repeat' (with_reducible first | assumption | intro _ | simp only [good_upd] | apply publish_good | apply bump_good)

theorem telemetryDue_good {q : List Instr} {s : State} (h : Good q s) : Good q (telemetryDue s) := by
  unfold telemetryDue; dsimp only
  repeat'
    with_reducible first
      | assumption | intro _ | simp only [good_upd] | apply telemetry_good | refine keep_ite ?_ ?_

theorem telemetryFrom_good {q : List Instr} {s : State} (h : Good q s) : Good q (telemetryFrom s) := by
  unfold telemetryFrom
  repeat' (with_reducible first | assumption | intro _ | simp only [good_upd] | split)

theorem telemetryStep_good {q : List Instr} (a0) (a1) {s : State} (h : Good q s) :
    Good q (telemetryStep a0 a1 s) := by
  unfold telemetryStep; dsimp only
  repeat'
    with_reducible first
      | assumption | intro _ | simp only [good_upd] | apply telemetry_good | apply bump_good | refine keep_ite ?_ ?_

theorem logFlush_good {q : List Instr} {s : State} (h : Good q s) : Good q (logFlush s) := by
  unfold logFlush; dsimp only
  repeat' (with_reducible first | assumption | intro _ | apply closeBurst_good | refine keep_ite ?_ ?_ | split)

theorem setUpdate_good {q : List Instr} (a0) {s : State} (h : Good q s) : Good q (setUpdate a0 s) := by
  unfold setUpdate
  repeat' (with_reducible first | assumption | intro _ | simp only [good_upd] | split)

theorem updOutcome_good {q : List Instr} (a0) (a1) {s : State} (h : Good q s) : Good q (updOutcome a0 a1 s) := by
  unfold updOutcome
  repeat' (with_reducible first | assumption | intro _ | apply setUpdate_good | split)

theorem updShow_good {q : List Instr} (a0) (a1) (a2) {s : State} (h : Good q s) : Good q (updShow a0 a1 a2 s) := by
  unfold updShow; dsimp only
  repeat' (with_reducible first | assumption | intro _ | apply setUpdate_good | split)

theorem logUpdate_good {q : List Instr} (a0) (a1) (a2) (a3) {s : State} (h : Good q s) :
    Good q (logUpdate a0 a1 a2 a3 s) := by
  unfold logUpdate
  repeat' (with_reducible first | assumption | intro _ | apply logEvent_good | split)

theorem updateBegin_good {q : List Instr} (a0) (a1) (a2) {s : State} (h : Good q s) :
    Good q (updateBegin a0 a1 a2 s) := by
  unfold updateBegin; dsimp only
  repeat'
    with_reducible first
      | assumption | intro _ | apply updOutcome_good | apply updShow_good | apply setUpdate_good
      | apply setArea_good | refine keep_ite ?_ ?_

theorem updateFinish_good {q : List Instr} (a0) {s : State} (h : Good q s) : Good q (updateFinish a0 s) := by
  unfold updateFinish; dsimp only
  repeat' (with_reducible first | assumption | intro _ | apply setUpdate_good | refine keep_ite ?_ ?_ | split)

theorem updateDrop_good {q : List Instr} {s : State} (h : Good q s) : Good q (updateDrop s) := by
  unfold updateDrop; dsimp only
  repeat'
    with_reducible first
      | assumption | intro _ | apply logUpdate_good | apply setUpdate_good | refine keep_ite ?_ ?_

theorem updateAbort_good {q : List Instr} (a0) {s : State} (h : Good q s) : Good q (updateAbort a0 s) := by
  unfold updateAbort
  repeat' (with_reducible first | assumption | intro _ | apply updateDrop_good | refine keep_ite ?_ ?_ | split)

theorem doldrumsUpdate_good {q : List Instr} (a0) {s : State} (h : Good q s) : Good q (doldrumsUpdate a0 s) := by
  unfold doldrumsUpdate; dsimp only
  repeat'
    with_reducible first
      | assumption | intro _ | simp only [good_upd] | apply later_good | apply logEvent_good | refine keep_ite ?_ ?_

theorem updateVerify_good {q : List Instr} {s : State} (h : Good q s) : Good q (updateVerify s) := by
  unfold updateVerify; dsimp only
  repeat'
    with_reducible first
      | assumption | intro _ | apply logUpdate_good | apply setUpdate_good | apply doldrumsUpdate_good
      | apply setArea_good | refine keep_ite ?_ ?_

theorem updateCopy_good {q : List Instr} (a0) (a1) {s : State} (h : Good q s) : Good q (updateCopy a0 a1 s) := by
  unfold updateCopy; dsimp only
  repeat'
    with_reducible first
      | assumption | intro _ | apply updShow_good | apply updOutcome_good | apply setArea_good
      | apply setUpdate_good | apply doldrumsUpdate_good | apply logUpdate_good | refine keep_ite ?_ ?_

theorem bootOnce_good {q : List Instr} (a0) {s : State} (h : Good q s) : Good q (bootOnce a0 s) := by
  unfold bootOnce
  repeat'
    with_reducible first
      | assumption | intro _ | simp only [good_upd] | apply updShow_good | refine keep_ite ?_ ?_

theorem updateErase_good {q : List Instr} (a0) {s : State} (h : Good q s) : Good q (updateErase a0 s) := by
  unfold updateErase; dsimp only
  repeat'
    with_reducible first
      | assumption | intro _ | apply updShow_good | apply updOutcome_good | apply setArea_good
      | refine keep_ite ?_ ?_

theorem updateCommand_good {q : List Instr} (a0) (a1) {s : State} (h : Good q s) :
    Good q (updateCommand a0 a1 s) := by
  unfold updateCommand; dsimp only
  repeat'
    with_reducible first
      | assumption | intro _ | apply updShow_good | apply updateBegin_good | apply updateFinish_good
      | apply updateAbort_good | apply updateCopy_good | apply bootOnce_good | apply updateErase_good
      | refine keep_ite ?_ ?_

theorem updateSegment_good {q : List Instr} (a0) (a1) {s : State} (h : Good q s) :
    Good q (updateSegment a0 a1 s) := by
  unfold updateSegment; dsimp only
  repeat' (with_reducible first | assumption | intro _ | apply setUpdate_good)

/-! ### Machine/Commit.lean -/

theorem setSet_good {q : List Instr} (a0) (a1) {s : State} (h : Good q s) : Good q (setSet a0 a1 s) := by
  unfold setSet
  repeat' (with_reducible first | assumption | intro _ | simp only [good_upd] | split)

theorem setState_good {q : List Instr} (a0) (a1) {s : State} (h : Good q s) : Good q (setState a0 a1 s) := by
  unfold setState
  repeat' (with_reducible first | assumption | intro _ | apply later_good | apply setSet_good)

theorem openSet_good {q : List Instr} (a0) (a1) {s : State} (h : Good q s) : Good q (openSet a0 a1 s) := by
  unfold openSet
  repeat'
    with_reducible first
      | assumption | intro _ | apply setState_good | apply setSet_good | refine keep_ite ?_ ?_ | split

theorem shadowPut_good {q : List Instr} (a0) (a1) (a2) (a3) {s : State} (h : Good q s) :
    Good2 q (shadowPut a0 a1 a2 a3 s) := by
  unfold shadowPut; dsimp only
  repeat'
    with_reducible first
      | assumption | intro _ | apply setSet_good | apply openSet_good | apply good2_mk
      | refine good2_eq (by assumption) ?_ | refine keep_ite ?_ ?_ | split

theorem rcWrite_good {q : List Instr} (a0) (a1) (a2) (a3) {s : State} (h : Good q s) :
    Good2 q (rcWrite a0 a1 a2 a3 s) := by
  unfold rcWrite; dsimp only
  repeat'
    with_reducible first
      | assumption | intro _ | apply shadowPut_good | apply good2_mk | refine good2_eq (by assumption) ?_
      | refine good2_snd (p := shadowPut _ _ _ _ _) ?_ | refine keep_ite ?_ ?_ | split

theorem segStore_good {q : List Instr} (a0) (a1) (a2) (a3) (a4) (a5) {s : State} (h : Good q s) :
    Good2 q (segStore a0 a1 a2 a3 a4 a5 s) := by
  unfold segStore; dsimp only
  repeat'
    with_reducible first
      | assumption | intro _ | apply shadowPut_good | apply good2_mk | refine good2_eq (by assumption) ?_
      | refine good2_snd (p := shadowPut _ _ _ _ _) ?_ | refine keep_ite ?_ ?_ | split

theorem beforeApply_good {q : List Instr} (a0) {s : State} (h : Good q s) : Good q (beforeApply a0 s) := by
  unfold beforeApply; dsimp only
  repeat'
    with_reducible first
      | assumption | intro _ | simp only [good_upd] | apply settleTags_good | apply good_forRange | apply good_when
      | refine keep_ite ?_ ?_

theorem applyTime_good {q : List Instr} (a0) {s : State} (h : Good q s) : Good q (applyTime a0 s) := by
  unfold applyTime; dsimp only
  repeat'
    with_reducible first
      | assumption | intro _ | apply judgeDelay_good | apply peersChanged_good | apply judgeUncertainty_good
      | apply good_when

theorem applyPower_good {q : List Instr} (a0) {s : State} (h : Good q s) : Good q (applyPower a0 s) := by
  unfold applyPower; dsimp only
  repeat'
    with_reducible first
      | assumption | intro _ | simp only [good_upd] | apply leaveOn_good | apply setDomain_good
      | apply startLast_good | apply good_foldSt | refine keep_ite ?_ ?_

theorem clearTests_good {q : List Instr} (a0) {s : State} (h : Good q s) : Good q (clearTests a0 s) := by
  unfold clearTests
  repeat' (with_reducible first | assumption | intro _ | simp only [good_upd] | split)

theorem followMap_good {q : List Instr} {s : State} (h : Good q s) {s1 : State} (hs1 : Good q s1) :
    Good q (followMap s s1) := by
  unfold followMap; dsimp only
  repeat'
    with_reducible first
      | assumption | intro _ | apply enablePort_good | apply clearTests_good | apply disablePort_good
      | apply retrain_good | apply good_forRange | refine keep_ite ?_ ?_ | split

theorem applyRouting_good {q : List Instr} {s : State} (h : Good q s) (a1) (a2) {s1 : State} (hs1 : Good q s1) :
    Good q (applyRouting s a1 a2 s1) := by
  unfold applyRouting; dsimp only
  repeat'
    with_reducible first
      | assumption | intro _ | simp only [good_upd] | apply later_good | apply followMap_good
      | refine keep_ite ?_ ?_

theorem applyFlow_good {q : List Instr} {s : State} (h : Good q s) (a1) {s1 : State} (hs1 : Good q s1) :
    Good q (applyFlow s a1 s1) := by
  unfold applyFlow; dsimp only
  repeat'
    with_reducible first
      | assumption | intro _ | apply poolChange_good | apply shapersChanged_good | apply newGates_good
      | apply policersChanged_good | apply sampleFrom_good | apply good_foldSt | apply good_forRange
      | apply good_when | refine keep_ite ?_ ?_ | split

theorem applyLanes_good {q : List Instr} (a0) {s : State} (h : Good q s) : Good q (applyLanes a0 s) := by
  unfold applyLanes; dsimp only
  repeat'
    with_reducible first
      | assumption | intro _ | apply lullEvaluate_good | apply judgeScan_good | apply applyTest_good
      | apply refreshGood_good | apply setLane_good | apply good_foldSt | apply good_forRange
      | refine keep_ite ?_ ?_

theorem applyRanges_good {q : List Instr} {s : State} (h : Good q s) (a1) {s1 : State} (hs1 : Good q s1) :
    Good q (applyRanges s a1 s1) := by
  unfold applyRanges; dsimp only
  repeat'
    with_reducible first
      | assumption | intro _ | apply orphanFn_good | apply fnMoved_good | apply good_forRange
      | refine keep_ite ?_ ?_

theorem closeSession_good {q : List Instr} (a0) {s : State} (h : Good q s) : Good q (closeSession a0 s) := by
  unfold closeSession; dsimp only
  repeat'
    with_reducible first
      | assumption | intro _ | simp only [good_upd] | apply setState_good | apply setSet_good
      | apply updateDrop_good | apply good_foldSt | refine keep_ite ?_ ?_ | split

theorem closeSessions_good {q : List Instr} (a0) {s : State} (h : Good q s) : Good q (closeSessions a0 s) := by
  unfold closeSessions
  repeat'
    with_reducible first
      | assumption | intro _ | apply closeSession_good | apply good_foldSt | refine keep_ite ?_ ?_

theorem takeSession_good {q : List Instr} (a0) (a1) {s : State} (h : Good q s) : Good2 q (takeSession a0 a1 s) := by
  unfold takeSession; dsimp only
  repeat' (with_reducible first | assumption | intro _ | simp only [good_upd] | apply good2_mk)

theorem openMailbox_good {q : List Instr} (a0) {s : State} (h : Good q s) : Good q (openMailbox a0 s) := by
  unfold openMailbox; dsimp only
  repeat'
    with_reducible first
      | assumption | intro _ | apply takeSession_good | apply setFn_good | apply good2_mk
      | refine good2_eq (by assumption) ?_ | refine good2_snd (p := takeSession _ _ _) ?_ | refine keep_ite ?_ ?_

theorem openMailboxes_good {q : List Instr} {s : State} (h : Good q s) : Good q (openMailboxes s) := by
  unfold openMailboxes
  repeat' (with_reducible first | assumption | intro _ | apply openMailbox_good | apply good_foldSt)

theorem applyYusto_good {q : List Instr} (a0) {s : State} (h : Good q s) : Good q (applyYusto a0 s) := by
  unfold applyYusto; dsimp only
  repeat'
    with_reducible first
      | assumption | intro _ | apply closeSessions_good | apply openMailboxes_good | apply good_when

theorem applyUnits_good {q : List Instr} {s : State} (h : Good q s) (a1) (a2) {s1 : State} (hs1 : Good q s1) :
    Good q (applyUnits s a1 a2 s1) := by
  unfold applyUnits; dsimp only
  repeat'
    with_reducible first
      | assumption | intro _ | apply applyTime_good | apply telemetryFrom_good | apply applyPower_good
      | apply evalFaultN_good | apply applyRouting_good | apply applyFlow_good | apply applyLanes_good
      | apply applyYusto_good | apply applyRanges_good | apply good_when

theorem setLive_good {q : List Instr} (a0) (a1) {s : State} (h : Good q s) : Good q (setLive a0 a1 s) := by
  unfold setLive; dsimp only
  repeat' (with_reducible first | assumption | intro _ | simp only [good_upd] | split)

theorem setLives_good {q : List Instr} (a0) {s : State} (h : Good q s) : Good q (setLives a0 s) := by
  unfold setLives
  repeat' (with_reducible first | assumption | intro _ | apply setLive_good | apply good_foldSt)

theorem markTables_good {q : List Instr} (a0) {s : State} (h : Good q s) : Good q (markTables a0 s) := by
  unfold markTables; dsimp only
  repeat' (with_reducible first | assumption | intro _ | simp only [good_upd])

theorem applySet_good {q : List Instr} (a0) (a1) {s : State} (h : Good q s) : Good q (applySet a0 a1 s) := by
  unfold applySet; dsimp only
  repeat'
    with_reducible first
      | assumption | intro _ | simp only [good_upd] | apply beforeApply_good | apply setLives_good
      | apply markTables_good | apply setSet_good | apply setState_good | apply applyUnits_good | apply later_good
      | apply good_foldSt

theorem applyFires_good {q : List Instr} (a0) {s : State} (h : Good q s) : Good q (applyFires a0 s) := by
  unfold applyFires; dsimp only
  repeat'
    with_reducible first
      | assumption | intro _ | apply fireShot_good | apply applySet_good | apply good2_mk
      | refine good2_eq (by assumption) ?_ | refine good2_snd (p := fireShot _ _) ?_

theorem applyDue_good {q : List Instr} (a0) {s : State} (h : Good q s) : Good q (applyDue a0 s) := by
  unfold applyDue
  repeat' (with_reducible first | assumption | intro _ | apply instantReached_good | apply applyFires_good)

theorem commitResult_good {q : List Instr} (a0) (a1) {s : State} (h : Good q s) : Good2 q (commitResult a0 a1 s) := by
  unfold commitResult
  repeat' (with_reducible first | assumption | intro _ | simp only [good_upd] | apply good2_mk)

theorem armTables_good {q : List Instr} (a0) {s : State} (h : Good q s) : Good q (armTables a0 s) := by
  unfold armTables; dsimp only
  repeat' (with_reducible first | assumption | intro _ | simp only [good_upd] | refine keep_ite ?_ ?_ | split)

theorem dropTables_good {q : List Instr} (a0) {s : State} (h : Good q s) : Good q (dropTables a0 s) := by
  unfold dropTables
  repeat' (with_reducible first | assumption | intro _ | simp only [good_upd] | refine keep_ite ?_ ?_ | split)

theorem commitGo_good {q : List Instr} (a0) (a1) {s : State} (h : Good q s) : Good2 q (commitGo a0 a1 s) := by
  unfold commitGo; dsimp only
  repeat'
    with_reducible first
      | assumption | intro _ | simp only [good_upd] | apply setState_good | apply setSet_good
      | apply commitResult_good | apply applySet_good | apply bump_good | apply armTables_good | apply good_when
      | apply good2_mk | refine good2_eq (by assumption) ?_ | refine good2_snd (p := commitResult _ _ _) ?_
      | refine keep_ite ?_ ?_ | refine armShot_good (by assumption) ?_ | split

theorem commitAct_good {q : List Instr} (a0) (a1) (a2) (a3) {s : State} (h : Good q s) :
    Good2 q (commitAct a0 a1 a2 a3 s) := by
  unfold commitAct; dsimp only
  repeat'
    with_reducible first
      | assumption | intro _ | apply commitResult_good | apply commitGo_good | apply setState_good
      | apply setSet_good | apply dropTables_good | apply releaseShot_good | apply good2_mk
      | refine good2_eq (by assumption) ?_ | refine good2_snd (p := commitResult _ _ _) ?_
      | refine good2_snd (p := commitGo _ _ _) ?_ | refine keep_ite ?_ ?_ | split

theorem commitCommand_good {q : List Instr} (a0) (a1) {s : State} (h : Good q s) :
    Good q (commitCommand a0 a1 s) := by
  unfold commitCommand; dsimp only
  repeat'
    with_reducible first
      | assumption | intro _ | apply commitAct_good | apply good2_mk | refine good2_eq (by assumption) ?_
      | refine good2_snd (p := commitAct _ _ _ _ _) ?_

theorem checkScan_good {q : List Instr} {s : State} (h : Good q s) : Good q (checkScan s) := by
  unfold checkScan; dsimp only
  repeat'
    with_reducible first
      | assumption | intro _ | simp only [good_upd] | apply endCondition_good | apply raiseFault_good
      | apply bump_good | refine keep_ite ?_ ?_

theorem persistComplete_good {q : List Instr} {s : State} (h : Good q s) : Good q (persistComplete s) := by
  unfold persistComplete; dsimp only
  repeat' (with_reducible first | assumption | intro _ | simp only [good_upd] | refine keep_ite ?_ ?_ | split)

/-! ### Machine/HostOps.lean -/

theorem endReads_good {q : List Instr} (a0) {s : State} (h : Good q s) : Good q (endReads a0 s) := by
  unfold endReads
  repeat'
    with_reducible first
      | assumption | intro _ | apply readCompletion_good | apply good_foldSt | refine keep_ite ?_ ?_

theorem linkLost_good {q : List Instr} (a0) {s : State} (h : Good q s) : Good q (linkLost a0 s) := by
  unfold linkLost; dsimp only
  repeat'
    with_reducible first
      | assumption | intro _ | apply fnReset_good | apply setLink_good | apply endReads_good

theorem hostLinkDown_good {q : List Instr} (a0) {s : State} (h : Good q s) : Good q (hostLinkDown a0 s) := by
  unfold hostLinkDown
  repeat'
    with_reducible first
      | assumption | intro _ | apply setLink_good | apply linkLost_good | refine keep_ite ?_ ?_

theorem perstLow_good {q : List Instr} (a0) {s : State} (h : Good q s) : Good q (perstLow a0 s) := by
  unfold perstLow
  repeat' (with_reducible first | assumption | intro _ | apply setLink_good | apply linkLost_good)

theorem perstHigh_good {q : List Instr} (a0) (a1) {s : State} (h : Good q s) : Good q (perstHigh a0 a1 s) := by
  unfold perstHigh
  repeat' (with_reducible first | assumption | intro _ | apply setLink_good | split)

theorem hostLinkUp_good {q : List Instr} (a0) (a1) (a2) (a3) {s : State} (h : Good q s) :
    Good q (hostLinkUp a0 a1 a2 a3 s) := by
  unfold hostLinkUp; dsimp only
  repeat'
    with_reducible first
      | assumption | intro _ | apply openMailboxes_good | apply setLink_good | refine keep_ite ?_ ?_

theorem functionReset_good {q : List Instr} (a0) {s : State} (h : Good q s) : Good q (functionReset a0 s) := by
  unfold functionReset
  repeat' (with_reducible first | assumption | intro _ | apply fnReset_good | apply bump_good | refine keep_ite ?_ ?_)

theorem functionResetDone_good {q : List Instr} (a0) {s : State} (h : Good q s) :
    Good q (functionResetDone a0 s) := by
  unfold functionResetDone
  repeat'
    with_reducible first
      | assumption | intro _ | apply openMailboxes_good | apply setFn_good | refine keep_ite ?_ ?_

theorem configWrite_good {q : List Instr} (a0) (a1) {s : State} (h : Good q s) : Good q (configWrite a0 a1 s) := by
  unfold configWrite; dsimp only
  repeat'
    with_reducible first
      | assumption | intro _ | apply setLink_good | apply setFn_good | apply flushVectors_good
      | apply openMailboxes_good | refine keep_ite ?_ ?_ | exact fun _ h => h | split

theorem setAdm_good {q : List Instr} (a0) (a1) {s : State} (h : Good q s) : Good q (setAdm a0 a1 s) := by
  unfold setAdm
  repeat' (with_reducible first | assumption | intro _ | apply setFn_good)

theorem setTr_good {q : List Instr} (a0) (a1) {s : State} (h : Good q s) : Good q (setTr a0 a1 s) := by
  unfold setTr
  repeat' (with_reducible first | assumption | intro _ | apply setFn_good)

theorem aqResult_good {q : List Instr} (a0) (a1) {s : State} (h : Good q s) : Good q (aqResult a0 a1 s) := by
  unfold aqResult
  repeat' (with_reducible first | assumption | intro _ | apply setAdm_good | split)

theorem aqEnable_good {q : List Instr} (a0) {s : State} (h : Good q s) : Good q (aqEnable a0 s) := by
  unfold aqEnable; dsimp only
  repeat'
    with_reducible first
      | assumption | intro _ | apply aqResult_good | apply placeStack_good | apply setQueue_good | apply setAdm_good
      | apply good2_mk | refine good2_eq (by assumption) ?_ | refine good2_snd (p := placeStack _) ?_
      | refine keep_ite ?_ ?_

theorem aqDisable_good {q : List Instr} (a0) {s : State} (h : Good q s) : Good q (aqDisable a0 s) := by
  unfold aqDisable; dsimp only
  repeat'
    with_reducible first
      | assumption | intro _ | apply aqResult_good | apply destroyForce_good | apply setAdm_good
      | refine keep_ite ?_ ?_

theorem aqResume_good {q : List Instr} (a0) (a1) {s : State} (h : Good q s) : Good q (aqResume a0 a1 s) := by
  unfold aqResume; dsimp only
  repeat'
    with_reducible first
      | assumption | intro _ | apply aqResult_good | apply setAdm_good | apply resume_good | refine keep_ite ?_ ?_

theorem aqResizeCq_good {q : List Instr} (a0) {s : State} (h : Good q s) : Good q (aqResizeCq a0 s) := by
  unfold aqResizeCq; dsimp only
  repeat'
    with_reducible first
      | assumption | intro _ | apply aqResult_good | apply setAdm_good | apply pump_good | apply setQueue_good
      | refine keep_ite ?_ ?_

theorem aqAction_good {q : List Instr} (a0) (a1) {s : State} (h : Good q s) : Good q (aqAction a0 a1 s) := by
  unfold aqAction
  repeat'
    with_reducible first
      | assumption | intro _ | apply aqEnable_good | apply aqDisable_good | apply aqResume_good
      | apply aqResizeCq_good | apply aqResult_good | refine keep_ite ?_ ?_

theorem admDrop_good {q : List Instr} (a0) {s : State} (h : Good q s) : Good q (admDrop a0 s) := by
  unfold admDrop
  repeat' (with_reducible first | assumption | intro _ | apply setAdm_good | split)

theorem trDrop_good {q : List Instr} (a0) {s : State} (h : Good q s) : Good q (trDrop a0 s) := by
  unfold trDrop
  repeat' (with_reducible first | assumption | intro _ | apply setTr_good | split)

theorem aqControl_good {q : List Instr} (a0) (a1) {s : State} (h : Good q s) : Good q (aqControl a0 a1 s) := by
  unfold aqControl
  repeat'
    with_reducible first
      | assumption | intro _ | apply admDrop_good | apply aqAction_good | refine keep_ite ?_ ?_

theorem admWrite_good {q : List Instr} (a0) (a1) (a2) {s : State} (h : Good q s) : Good q (admWrite a0 a1 a2 s) := by
  unfold admWrite
  repeat'
    with_reducible first
      | assumption | intro _ | apply setAdm_good | apply aqAction_good | refine keep_ite ?_ ?_

theorem trWrite_good {q : List Instr} (a0) (a1) (a2) {s : State} (h : Good q s) : Good q (trWrite a0 a1 a2 s) := by
  unfold trWrite
  repeat'
    with_reducible first
      | assumption | intro _ | apply setTr_good | apply transCommand_good | refine keep_ite ?_ ?_

theorem groupTakesEffect_good {q : List Instr} (a0) (a1) {s : State} (h : Good q s) :
    Good q (groupTakesEffect a0 a1 s) := by
  unfold groupTakesEffect
  repeat'
    with_reducible first
      | assumption | intro _ | apply trWrite_good | apply setTr_good | apply admWrite_good | apply setAdm_good
      | refine keep_ite ?_ ?_ | split

theorem bar2Discard_good {q : List Instr} (a0) {s : State} (h : Good q s) : Good q (bar2Discard a0 s) := by
  unfold bar2Discard
  repeat' (with_reducible first | assumption | intro _ | apply bumpFn_good | apply bump_good)

theorem quadWrite_good {q : List Instr} (a0) (a1) (a2) {s : State} (h : Good q s) :
    Good q (quadWrite a0 a1 a2 s) := by
  unfold quadWrite; dsimp only
  repeat'
    with_reducible first
      | assumption | intro _ | apply atSlot_good | apply doorbellTail_good | apply doorbellHead_good
      | apply doorbellIgnore_good | apply keyRightsWrite_good | apply doorbellDiscard_good | refine keep_ite ?_ ?_

theorem bar0Write_good {q : List Instr} (a0) (a1) (a2) {s : State} (h : Good q s) :
    Good q (bar0Write a0 a1 a2 s) := by
  unfold bar0Write; dsimp only
  repeat'
    with_reducible first
      | assumption | intro _ | apply quadWrite_good | apply doorbellDiscard_good | apply good_foldSt
      | refine keep_ite ?_ ?_

theorem msixWrite_good {q : List Instr} (a0) (a1) (a2) {s : State} (h : Good q s) :
    Good q (msixWrite a0 a1 a2 s) := by
  unfold msixWrite; dsimp only
  repeat'
    with_reducible first
      | assumption | intro _ | apply setFn_good | apply flushVectors_good | apply good_foldSt
      | refine keep_ite ?_ ?_

theorem mbReqWrite_good {q : List Instr} (a0) (a1) (a2) {s : State} (h : Good q s) :
    Good q (mbReqWrite a0 a1 a2 s) := by
  unfold mbReqWrite
  repeat'
    with_reducible first
      | assumption | intro _ | exact Memory.wf_memWrite _ _ (by assumption) | apply setFn_good

theorem bar2Write_good {q : List Instr} (a0) (a1) (a2) {s : State} (h : Good q s) :
    Good q (bar2Write a0 a1 a2 s) := by
  unfold bar2Write; dsimp only
  repeat'
    with_reducible first
      | assumption | intro _ | apply mbReqWrite_good | apply msixWrite_good | apply bar2Discard_good
      | apply setFn_good | apply admDrop_good | apply setAdm_good | apply trDrop_good | apply setTr_good
      | refine keep_ite ?_ ?_

theorem poisonedWrite_good {q : List Instr} (a0) {s : State} (h : Good q s) : Good q (poisonedWrite a0 s) := by
  unfold poisonedWrite
  repeat' (with_reducible first | assumption | intro _ | apply bump_good | split)

theorem bar2Read_good {q : List Instr} (a0) (a1) (a2) {s : State} (h : Good q s) : Good2 q (bar2Read a0 a1 a2 s) := by
  unfold bar2Read; dsimp only
  repeat'
    with_reducible first
      | assumption | intro _ | apply bar2Discard_good | apply good2_mk | refine good2_eq (by assumption) ?_
      | refine keep_ite ?_ ?_ | split

/-! ### Machine/Departure.lean -/

theorem cxLeft_good {q : List Instr} {s : State} (h : Good q s) : Good q (cxLeft s) := by
  unfold cxLeft
  repeat' (with_reducible first | assumption | intro _ | simp only [good_upd, good_updMe] | apply forgetPeers_good)

theorem hlLeft_good {q : List Instr} (a0) {s : State} (h : Good q s) : Good q (hlLeft a0 s) := by
  unfold hlLeft
  repeat' (with_reducible first | assumption | intro _ | apply setLink_good | apply linkLost_good)

theorem scLeft_good {q : List Instr} (a0) {s : State} (h : Good q s) : Good q (scLeft a0 s) := by
  unfold scLeft
  repeat'
    with_reducible first
      | assumption | intro _ | apply lanesOff_good | apply flushRetrain_good | apply good_foldSt

theorem oeLeft_good {q : List Instr} (a0) {s : State} (h : Good q s) : Good q (oeLeft a0 s) := by
  unfold oeLeft; dsimp only
  repeat'
    with_reducible first
      | assumption | intro _ | simp only [good_upd] | apply lanesOff_good | apply linkDown_good | apply good_foldSt

theorem ecLeft_good {q : List Instr} (j : Nat) {s : State} (h : Good q s) : Good q (ecLeft j s) := by
  have ht : Good q (foldSt (fun e s => setEngine e (fun _ => {}) (endItems e s)) (enginesOf j)
      (later (.orphan ((rangeFrom (64 * j) 64).map .engine)) s)) :=
    good_foldSt (fun _ _ h => setEngine_good _ _ (fun _ _ => engOk_default) (endItems_good _ h)) (later_good _ h)
  revert ht
  unfold ecLeft; dsimp only
  generalize foldSt _ (enginesOf j) _ = t
  exact fun ht => Good.mkMe ht fun h => ⟨h.engines, all_mdel _ (all_mdel _ h.cmem)⟩

theorem loseStack_good {q : List Instr} (a0) {s : State} (h : Good q s) : Good q (loseStack a0 s) := by
  unfold loseStack; dsimp only
  repeat'
    with_reducible first
      | assumption | intro _ | apply stackGone_good | apply raiseFault_good | apply setStack_good
      | refine keep_ite ?_ ?_

theorem hbLeft_good {q : List Instr} (k : Nat) {s : State} (h : Good q s) : Good q (hbLeft k s) :=
  have g := loseStack_good k h
  ⟨g.pending, meOk_mk g.me, ⟨Memory.wf_filter _ g.cm.bytes⟩, g.hl⟩

theorem domainLeft_good {q : List Instr} (a0) {s : State} (h : Good q s) : Good q (domainLeft a0 s) := by
  unfold domainLeft; dsimp only
  repeat'
    with_reducible first
      | assumption | intro _ | apply bumpBy_good | apply cxLeft_good | apply hlLeft_good | apply scLeft_good
      | apply oeLeft_good | apply ecLeft_good | apply hbLeft_good | refine keep_ite ?_ ?_

theorem cxUp_good {q : List Instr} {s : State} (h : Good q s) : Good q (cxUp s) := by
  unfold cxUp; dsimp only
  repeat'
    with_reducible first
      | assumption | intro _ | simp only [good_upd] | apply shapersChanged_good | apply newGates_good
      | apply enablePort_good | apply sampleFrom_good | apply policersChanged_good | apply good_forRange
      | refine keep_ite ?_ ?_

theorem sectorUp_good {q : List Instr} (a0) {s : State} (h : Good q s) : Good q (sectorUp a0 s) := by
  unfold sectorUp
  repeat'
    with_reducible first
      | assumption | intro _ | apply applyTest_good | apply startBringUp_good | apply good_foldSt
      | refine keep_ite ?_ ?_ | split

theorem domainUp_good {q : List Instr} (a0) {s : State} (h : Good q s) : Good q (domainUp a0 s) := by
  unfold domainUp
  repeat'
    with_reducible first
      | assumption | intro _ | apply cxUp_good | apply setLink_good | apply sectorUp_good | apply later_good
      | apply loadFirmware_good | apply setStack_good | refine keep_ite ?_ ?_

theorem milestoneSix_good {q : List Instr} {s : State} (h : Good q s) : Good q (milestoneSix s) := by
  unfold milestoneSix
  repeat' (with_reducible first | assumption | intro _ | simp only [good_upd] | refine keep_ite ?_ ?_ | split)

theorem domainStart_good {q : List Instr} (a0) {s : State} (h : Good q s) : Good q (domainStart a0 s) := by
  unfold domainStart
  repeat'
    with_reducible first
      | assumption | intro _ | simp only [good_upd] | apply setDomain_good | refine keep_ite ?_ ?_

theorem domainGood_good {q : List Instr} (a0) {s : State} (h : Good q s) : Good q (domainGood a0 s) := by
  unfold domainGood; dsimp only
  repeat'
    with_reducible first
      | assumption | intro _ | simp only [good_upd] | apply milestoneSix_good | apply domainUp_good
      | apply setDomain_good | refine keep_ite ?_ ?_

theorem domainRampTimeout_good {q : List Instr} (a0) {s : State} (h : Good q s) :
    Good q (domainRampTimeout a0 s) := by
  unfold domainRampTimeout
  repeat'
    with_reducible first
      | assumption | intro _ | apply unitRaise_good | apply leaveOn_good | refine keep_ite ?_ ?_

theorem domainRestart_good {q : List Instr} (a0) {s : State} (h : Good q s) : Good q (domainRestart a0 s) := by
  unfold domainRestart
  repeat'
    with_reducible first
      | assumption | intro _ | apply startLast_good | apply setDomain_good | refine keep_ite ?_ ?_

theorem linkCtlNow_good {q : List Instr} (a0) (a1) (a2) {s : State} (h : Good q s) :
    Good q (linkCtlNow a0 a1 a2 s) := by
  unfold linkCtlNow
  repeat' (with_reducible first | assumption | intro _ | apply emit_good | split)

theorem departRequest_good {q : List Instr} {s : State} (h : Good q s) : Good q (departRequest s) := by
  unfold departRequest
  repeat'
    with_reducible first
      | assumption | intro _ | simp only [good_upd] | apply later_good | refine keep_ite ?_ ?_

theorem departStart_good {q : List Instr} {s : State} (h : Good q s) : Good q (departStart s) := by
  unfold departStart
  repeat' (with_reducible first | assumption | intro _ | apply closeLanes_good | apply endAllGroups_good)

theorem departQuiet_good {q : List Instr} {s : State} (h : Good q s) : Good q (departQuiet s) := by
  unfold departQuiet; dsimp only
  repeat'
    with_reducible first
      | assumption | intro _ | simp only [good_upd] | apply sendLinkCtl_good | apply good_foldSt
      | refine keep_ite ?_ ?_

theorem sectorsOff_good {q : List Instr} (a0) {s : State} (h : Good q s) : Good q (sectorsOff a0 s) := by
  unfold sectorsOff; dsimp only
  repeat'
    with_reducible first
      | assumption | intro _ | simp only [good_upd] | apply leaveOn_good | apply good_foldSt

theorem departDrained_good {q : List Instr} {s : State} (h : Good q s) : Good q (departDrained s) := by
  unfold departDrained
  repeat'
    with_reducible first
      | assumption | intro _ | apply sectorsOff_good | apply linkCtlNow_good | apply good_foldSt
      | refine keep_ite ?_ ?_

theorem discardHeld_good {q : List Instr} {s : State} (h : Good q s) : Good q (discardHeld s) := by
  unfold discardHeld; dsimp only
  repeat'
    with_reducible first
      | assumption | intro _ | simp only [good_upd] | apply bumpBy_good | apply setFlow_good | apply setPL_good
      | apply good_forRange

theorem drainLimit_good {q : List Instr} {s : State} (h : Good q s) : Good q (drainLimit s) := by
  unfold drainLimit; dsimp only
  repeat'
    with_reducible first
      | assumption | intro _ | apply sectorsOff_good | apply discardHeld_good | apply linkCtlNow_good
      | apply good_foldSt | refine keep_ite ?_ ?_

theorem withdraw_good {q : List Instr} {s : State} (h : Good q s) : Good q (withdraw s) := by
  unfold withdraw; dsimp only
  repeat'
    with_reducible first
      | assumption | intro _ | simp only [good_upd] | apply linkCtlNow_good | apply sectorsOff_good
      | apply discardHeld_good | apply good_foldSt | refine keep_ite ?_ ?_

/-! ### Machine/Reset.lean -/

theorem dropPersist_good {q : List Instr} {s : State} (h : Good q s) : Good q (dropPersist s) := by
  unfold dropPersist; dsimp only
  repeat'
    with_reducible first
      | assumption | intro _ | simp only [good_upd] | apply draw_good | apply good2_mk
      | refine good2_eq (by assumption) ?_ | refine good2_snd (p := draw _ _) ?_ | refine keep_ite ?_ ?_

theorem bootChoice_good {q : List Instr} {s : State} (h : Good q s) : Good q (bootChoice s) := by
  unfold bootChoice; dsimp only
  repeat'
    with_reducible first
      | assumption | intro _ | simp only [good_upd] | apply raiseFault_good | apply logEvent_good
      | refine keep_ite ?_ ?_ | split

theorem bootLoad_good {q : List Instr} {s : State} (h : Good q s) : Good q (bootLoad s) := by
  unfold bootLoad; dsimp only
  repeat'
    with_reducible first
      | assumption | intro _ | simp only [good_upd] | apply bootChoice_good | apply setLives_good
      | apply setSet_good | apply logEvent_good | apply good_foldSt

theorem romLoad_good {q : List Instr} {s : State} (h : Good q s) : Good q (romLoad s) := by
  unfold romLoad
  repeat'
    with_reducible first
      | assumption | intro _ | simp only [good_upd] | apply setLives_good | refine keep_ite ?_ ?_ | split

theorem unitsReset_good {q : List Instr} {s : State} (h : Good q s) : Good q (unitsReset s) :=
  ⟨h.pending, ⟨enginesOk_nil, rfl⟩, ⟨rfl⟩,
    ⟨all_smapv (p := fun g : HostFn => Memory.wf g.mb.req) h.hl.fns fun _ _ _ => rfl⟩⟩

theorem processorReset_good {q : List Instr} {s : State} (h : Good q s) : Good q (processorReset s) := by
  unfold processorReset; dsimp only
  repeat'
    with_reducible first
      | assumption | intro _ | apply closeSessions_good | apply dropPersist_good | apply updateDrop_good
      | apply setUpdate_good

theorem assertWarm_good {q : List Instr} {s : State} (h : Good q s) : Good q (assertWarm s) := by
  unfold assertWarm; dsimp only
  repeat'
    with_reducible first
      | assumption | intro _ | simp only [good_upd] | apply processorReset_good | apply bumpBy_good
      | apply unitsReset_good | apply evalFaultN_good | apply forgetPeers_good | apply good_foldSt
      | refine keep_ite ?_ ?_

theorem assertCold_good {q : List Instr} {s : State} (h : Good q s) : Good q (assertCold s) := by
  unfold assertCold; dsimp only
  repeat'
    with_reducible first
      | assumption | intro _ | simp only [good_upd] | apply unitsReset_good | apply processorReset_good

theorem recordCause_good {q : List Instr} (a0) (a1) (a2) {s : State} (h : Good q s) :
    Good q (recordCause a0 a1 a2 s) := by
  unfold recordCause
  repeat' (with_reducible first | assumption | intro _ | simp only [good_upd] | split)

theorem takeReset_good {q : List Instr} (a0) (a1) (a2) {s : State} (h : Good q s) :
    Good q (takeReset a0 a1 a2 s) := by
  unfold takeReset; dsimp only
  repeat'
    with_reducible first
      | assumption | intro _ | apply recordCause_good | apply assertCold_good | apply bump_good
      | apply assertWarm_good | refine keep_ite ?_ ?_ | split

theorem enterDoldrums_good {q : List Instr} {s : State} (h : Good q s) : Good q (enterDoldrums s) := by
  unfold enterDoldrums; dsimp only
  repeat'
    with_reducible first
      | assumption | intro _ | simp only [good_upd] | apply leaveOn_good | apply romLoad_good | apply later_good
      | apply raiseFault_good

theorem launchImage_good {q : List Instr} (a0) {s : State} (h : Good q s) : Good q (launchImage a0 s) := by
  unfold launchImage
  repeat'
    with_reducible first
      | assumption | intro _ | simp only [good_upd] | apply enterDoldrums_good | refine keep_ite ?_ ?_

theorem fallback_good {q : List Instr} (a0) (a1) {s : State} (h : Good q s) : Good q (fallback a0 a1 s) := by
  unfold fallback; dsimp only
  repeat' (with_reducible first | assumption | intro _ | simp only [good_upd] | apply logEvent_good)

theorem trySlots_good {q : List Instr} (a0) (a1) (a2) {s : State} (h : Good q s) : Good q (trySlots a0 a1 a2 s) := by
  unfold trySlots
  repeat'
    with_reducible first
      | assumption | intro _ | apply launchImage_good | apply fallback_good | apply enterDoldrums_good
      | refine keep_ite ?_ ?_

theorem bySelection_good {q : List Instr} {s : State} (h : Good q s) : Good q (bySelection s) := by
  unfold bySelection; dsimp only
  repeat'
    with_reducible first
      | assumption | intro _ | simp only [good_upd] | apply trySlots_good | apply romLoad_good
      | refine keep_ite ?_ ?_

theorem bootRom_good {q : List Instr} {s : State} (h : Good q s) : Good q (bootRom s) := by
  unfold bootRom; dsimp only
  repeat'
    with_reducible first
      | assumption | intro _ | simp only [good_upd] | apply enterDoldrums_good | apply launchImage_good
      | apply bySelection_good | refine keep_ite ?_ ?_ | split

theorem endSafe_good {q : List Instr} {s : State} (h : Good q s) : Good q (endSafe s) := by
  unfold endSafe
  repeat' (with_reducible first | assumption | intro _ | simp only [good_upd] | apply evalFaultN_good)

theorem resetRelease_good {q : List Instr} (a0) (a1) (a2) {s : State} (h : Good q s) :
    Good q (resetRelease a0 a1 a2 s) := by
  unfold resetRelease
  repeat'
    with_reducible first
      | assumption | intro _ | simp only [good_upd] | apply bootRom_good | apply setDomain_good | apply endSafe_good
      | refine keep_ite ?_ ?_ | split

theorem bundleBoot_good {q : List Instr} {s : State} (h : Good q s) : Good q (bundleBoot s) := by
  unfold bundleBoot
  repeat' (with_reducible first | assumption | intro _ | apply launchImage_good | refine keep_ite ?_ ?_ | split)

theorem bundleExpiry_good {q : List Instr} {s : State} (h : Good q s) : Good q (bundleExpiry s) := by
  unfold bundleExpiry; dsimp only
  repeat'
    with_reducible first
      | assumption | intro _ | apply updateDrop_good | apply setUpdate_good | apply launchImage_good
      | apply fallback_good | apply enterDoldrums_good | refine keep_ite ?_ ?_

theorem engineSource_good {q : List Instr} {s : State} (h : Good q s) : Good2 q (engineSource s) := by
  unfold engineSource; dsimp only
  repeat'
    with_reducible first
      | assumption | intro _ | apply logEvent_good | apply good2_mk | refine good2_eq (by assumption) ?_
      | refine keep_ite ?_ ?_ | split

theorem reloadArmed_good {q : List Instr} {s : State} (h : Good q s) : Good q (reloadArmed s) := by
  unfold reloadArmed; dsimp only
  repeat'
    with_reducible first
      | assumption | intro _ | simp only [good_upd] | apply armTables_good | apply good_forRange
      | refine keep_ite ?_ ?_

theorem managementStart_good {q : List Instr} {s : State} (h : Good q s) : Good q (managementStart s) := by
  unfold managementStart; dsimp only
  repeat'
    with_reducible first
      | assumption | intro _ | simp only [good_upd, good_updMe] | apply bootLoad_good | apply applyUnits_good
      | apply engineSource_good | apply logEvent_good | apply reloadArmed_good | apply leaveOn_good
      | apply openMailboxes_good | apply milestoneSix_good | apply good_foldSt | apply good2_mk
      | refine good2_eq (by assumption) ?_ | refine good2_snd (p := engineSource _) ?_ | refine keep_ite ?_ ?_

theorem operational_good {q : List Instr} {s : State} (h : Good q s) : Good q (operational s) := by
  unfold operational; dsimp only
  repeat'
    with_reducible first
      | assumption | intro _ | simp only [good_upd] | apply logEvent_good | refine keep_ite ?_ ?_

theorem startTimeout_good {q : List Instr} {s : State} (h : Good q s) : Good q (startTimeout s) := by
  unfold startTimeout
  repeat' (with_reducible first | assumption | intro _ | apply takeReset_good | refine keep_ite ?_ ?_ | split)

theorem doldrumsExit_good {q : List Instr} {s : State} (h : Good q s) : Good q (doldrumsExit s) := by
  unfold doldrumsExit; dsimp only
  repeat'
    with_reducible first
      | assumption | intro _ | simp only [good_upd] | apply later_good | apply logEvent_good | refine keep_ite ?_ ?_

end Sys2Proof.Machine
end

