-- ==== Sys2Proof/Laws/KeepYusto.lean ====
section
/-!
SUPPORT. Keeping the queue of commands and the canonical form: Yusto, the sideband, and settling.
-/
namespace Sys2Proof.Machine

/-! ### Machine/Yusto.lean -/

theorem setSession_good {q : List Instr} (a0) (a1) {s : State} (h : Good q s) : Good q (setSession a0 a1 s) := by
  unfold setSession
  repeat' (with_reducible first | assumption | intro _ | simp only [good_upd] | split)

theorem sendYusto_good {q : List Instr} (a0) (a1) (a2) (a3) (a4) (a5) (a6) {s : State} (h : Good q s) :
    Good q (sendYusto a0 a1 a2 a3 a4 a5 a6 s) := by
  unfold sendYusto; dsimp only
  repeat'
    with_reducible first
      | assumption | intro _ | apply emit_good | apply injectPacket_good | apply setFn_good | apply raiseVector_good
      | apply good_when | refine keep_ite ?_ ?_ | exact fun _ h => h | split

theorem pushTo_good {q : List Instr} (a0) (a1) (a2) (a3) {s : State} (h : Good q s) :
    Good q (pushTo a0 a1 a2 a3 s) := by
  unfold pushTo; dsimp only
  repeat'
    with_reducible first
      | assumption | intro _ | apply setSession_good | apply sendYusto_good | refine keep_ite ?_ ?_ | split

theorem pushAll_good {q : List Instr} (a0) (a1) (a2) {s : State} (h : Good q s) : Good q (pushAll a0 a1 a2 s) := by
  unfold pushAll; dsimp only
  repeat' (with_reducible first | assumption | intro _ | apply pushTo_good | apply good_foldSt | apply good_when)

theorem refuse_good {q : List Instr} (a0) {s : State} (h : Good q s) : Good2 q (refuse a0 s) := by
  unfold refuse
  repeat' (with_reducible first | assumption | intro _ | apply good2_mk)

theorem checkAccess_good {q : List Instr} (a0) (a1) (a2) (a3) (a4) {s : State} (h : Good q s) {f6} (hf6 : ∀ x0 x1, Good q x1 → Good2 q (f6 x0 x1)) :
    Good2 q (checkAccess a0 a1 a2 a3 a4 s f6) := by
  unfold checkAccess; dsimp only
  repeat'
    with_reducible first
      | assumption | intro _ | apply hf6 | refine good2_snd (p := f6 _ _) ?_ | apply refuse_good
      | apply logEvent_good | apply good2_mk | refine good2_eq (by assumption) ?_
      | refine good2_snd (p := refuse _ _) ?_ | refine keep_ite ?_ ?_ | split

theorem yRead_good {q : List Instr} (a0) (a1) (a2) (a3) {s : State} (h : Good q s) :
    Good2 q (yRead a0 a1 a2 a3 s) := by
  unfold yRead; dsimp only
  repeat'
    with_reducible first
      | assumption | intro _ | apply checkAccess_good | apply setTb_good | apply good2_mk
      | refine good2_eq (by assumption) ?_ | refine good2_snd (p := checkAccess _ _ _ _ _ _ _) ?_
      | refine keep_ite ?_ ?_

theorem rwWrite_good {q : List Instr} (a0) (a1) (a2) (a3) {s : State} (h : Good q s) :
    Good2 q (rwWrite a0 a1 a2 a3 s) := by
  unfold rwWrite; dsimp only
  repeat'
    with_reducible first
      | assumption | intro _ | apply setLive_good | apply setTb_good | apply good_when | apply good2_mk
      | refine good2_eq (by assumption) ?_ | refine keep_ite ?_ ?_ | split

theorem woAction_good {q : List Instr} (a0) (a1) (a2) (a3) (a4) {s : State} (h : Good q s) :
    Good q (woAction a0 a1 a2 a3 a4 s) := by
  unfold woAction
  repeat'
    with_reducible first
      | assumption | intro _ | apply commitCommand_good | apply updateCommand_good | apply domainRestart_good
      | apply departRequest_good | apply later_good | apply doldrumsExit_good | apply clearCommand_good
      | apply takeRaise_good | apply bitSlip_good | apply eyeScan_good | apply retrain_good | apply domCommand_good
      | apply asCommand_good | apply transCommand_good | apply activationCommand_good | refine keep_ite ?_ ?_

theorem written_good {q : List Instr} (a0) (a1) {s : State} (h : Good q s) : Good q (written a0 a1 s) := by
  unfold written
  repeat' (with_reducible first | assumption | intro _ | apply later_good | split)

theorem yWrite_good {q : List Instr} (a0) (a1) (a2) (a3) (a4) (a5) {s : State} (h : Good q s) :
    Good2 q (yWrite a0 a1 a2 a3 a4 a5 s) := by
  unfold yWrite; dsimp only
  repeat'
    with_reducible first
      | assumption | intro _ | apply checkAccess_good | apply rcWrite_good | apply rwWrite_good
      | apply woAction_good | apply written_good | apply good_when | apply good2_mk
      | refine good2_eq (by assumption) ?_ | refine good2_snd (p := checkAccess _ _ _ _ _ _ _) ?_
      | refine good2_snd (p := rcWrite _ _ _ _ _) ?_ | refine good2_snd (p := rwWrite _ _ _ _ _) ?_
      | refine keep_ite ?_ ?_ | split

theorem yShape_good {q : List Instr} (a0) (a1) {s : State} (h : Good q s) : Good2 q (yShape a0 a1 s) := by
  unfold yShape; dsimp only
  repeat'
    with_reducible first
      | assumption | intro _ | apply refuse_good | apply logEvent_good | apply good2_mk
      | refine good2_eq (by assumption) ?_ | refine good2_snd (p := refuse _ _) ?_ | refine keep_ite ?_ ?_ | split

theorem ySegRead_good {q : List Instr} (a0) (a1) (a2) (a3) (a4) (a5) {s : State} (h : Good q s) :
    Good2 q (ySegRead a0 a1 a2 a3 a4 a5 s) := by
  unfold ySegRead; dsimp only
  repeat'
    with_reducible first
      | assumption | intro _ | apply checkAccess_good | apply refuse_good | apply setSession_good | apply good2_mk
      | refine good2_eq (by assumption) ?_ | refine good2_snd (p := checkAccess _ _ _ _ _ _ _) ?_
      | refine good2_snd (p := refuse _ _) ?_ | refine keep_ite ?_ ?_ | split

theorem stageWrite_good {q : List Instr} (a0) (a1) (a2) (a3) {s : State} (h : Good q s) :
    Good2 q (stageWrite a0 a1 a2 a3 s) := by
  unfold stageWrite; dsimp only
  repeat'
    with_reducible first
      | assumption | intro _ | apply updateSegment_good | apply good2_mk | refine good2_eq (by assumption) ?_
      | refine keep_ite ?_ ?_ | split

theorem ySegWrite_good {q : List Instr} (a0) (a1) (a2) (a3) (a4) (a5) (a6) (a7) {s : State} (h : Good q s) :
    Good2 q (ySegWrite a0 a1 a2 a3 a4 a5 a6 a7 s) := by
  unfold ySegWrite; dsimp only
  repeat'
    with_reducible first
      | assumption | intro _ | apply checkAccess_good | apply stageWrite_good | apply segStore_good
      | apply written_good | apply good_when | apply good2_mk | refine good2_eq (by assumption) ?_
      | refine good2_snd (p := checkAccess _ _ _ _ _ _ _) ?_ | refine good2_snd (p := stageWrite _ _ _ _ _) ?_
      | refine good2_snd (p := segStore _ _ _ _ _ _ _) ?_ | refine keep_ite ?_ ?_ | split

theorem yCommit_good {q : List Instr} (a0) (a1) (a2) (a3) (a4) {s : State} (h : Good q s) :
    Good2 q (yCommit a0 a1 a2 a3 a4 s) := by
  unfold yCommit; dsimp only
  repeat'
    with_reducible first
      | assumption | intro _ | apply commitAct_good | apply good2_mk | refine good2_eq (by assumption) ?_
      | refine good2_snd (p := commitAct _ _ _ _ _) ?_

theorem yReport_good {q : List Instr} (a0) (a1) {s : State} (h : Good q s) : Good2 q (yReport a0 a1 s) := by
  unfold yReport; dsimp only
  repeat'
    with_reducible first
      | assumption | intro _ | apply refuse_good | apply good2_mk | refine good2_eq (by assumption) ?_
      | refine good2_snd (p := refuse _ _) ?_ | refine keep_ite ?_ ?_ | split

theorem ySubscribe_good {q : List Instr} (a0) (a1) (a2) (a3) (a4) {s : State} (h : Good q s) :
    Good2 q (ySubscribe a0 a1 a2 a3 a4 s) := by
  unfold ySubscribe; dsimp only
  repeat'
    with_reducible first
      | assumption | intro _ | apply refuse_good | apply setSession_good | apply good2_mk
      | refine good2_eq (by assumption) ?_ | refine good2_snd (p := refuse _ _) ?_ | refine keep_ite ?_ ?_ | split

theorem runBody_good {q : List Instr} (a0) (a1) (a2) {s : State} (h : Good q s) : Good2 q (runBody a0 a1 a2 s) := by
  unfold runBody
  repeat'
    with_reducible first
      | assumption | intro _ | apply yRead_good | apply yWrite_good | apply yShape_good | apply ySegRead_good
      | apply ySegWrite_good | apply yCommit_good | apply yReport_good | apply ySubscribe_good | apply refuse_good
      | apply good2_mk | refine good2_eq (by assumption) ?_ | refine good2_snd (p := yRead _ _ _ _ _) ?_
      | refine good2_snd (p := yWrite _ _ _ _ _ _ _) ?_ | refine good2_snd (p := yShape _ _ _) ?_
      | refine good2_snd (p := ySegRead _ _ _ _ _ _ _) ?_ | refine good2_snd (p := ySegWrite _ _ _ _ _ _ _ _ _) ?_
      | refine good2_snd (p := yCommit _ _ _ _ _ _) ?_ | refine good2_snd (p := yReport _ _ _) ?_
      | refine good2_snd (p := ySubscribe _ _ _ _ _ _) ?_ | refine good2_snd (p := refuse _ _) ?_
      | refine keep_ite ?_ ?_ | split

theorem respond_good {q : List Instr} (a0) (a1) {s : State} (h : Good q s) : Good q (respond a0 a1 s) := by
  unfold respond
  repeat' (with_reducible first | assumption | intro _ | apply sendYusto_good | split)

theorem runNext_good {q : List Instr} (a0) (a1) (a2) {s : State} (h : Good q s) : Good q (runNext a0 a1 a2 s) := by
  unfold runNext; dsimp only
  repeat'
    with_reducible first
      | assumption | intro _ | apply bumpFn_good | apply runBody_good | apply setSession_good | apply respond_good
      | apply good_when | apply good2_mk | refine good2_eq (by assumption) ?_
      | refine good2_snd (p := runBody _ _ _ _) ?_ | refine keep_ite ?_ ?_ | split

theorem runHeld_good {q : List Instr} (a0) (a1) {s : State} (h : Good q s) : Good q (runHeld a0 a1 s) := by
  induction a1 generalizing s a0 with
  | zero => exact h
  | succ n ih =>
    unfold runHeld; try dsimp only
    repeat'
      with_reducible first
        | assumption | apply ih | intro _ | apply runNext_good | refine keep_ite ?_ ?_ | split

theorem inOrder_good {q : List Instr} (a0) (a1) (a2) {s : State} (h : Good q s) : Good q (inOrder a0 a1 a2 s) := by
  unfold inOrder; dsimp only
  repeat'
    with_reducible first
      | assumption | intro _ | apply respond_good | apply runHeld_good | apply runNext_good | apply setSession_good
      | refine keep_ite ?_ ?_ | split

theorem gapExpiry_good {q : List Instr} (a0) {s : State} (h : Good q s) : Good q (gapExpiry a0 s) := by
  unfold gapExpiry; dsimp only
  repeat'
    with_reducible first
      | assumption | intro _ | apply runHeld_good | apply runNext_good | apply setSession_good
      | refine keep_ite ?_ ?_ | apply good_foldl | apply good2_foldl | split

theorem inSession_good {q : List Instr} (a0) (a1) (a2) (a3) {s : State} (h : Good q s) :
    Good q (inSession a0 a1 a2 a3 s) := by
  unfold inSession; dsimp only
  repeat'
    with_reducible first
      | assumption | intro _ | apply setSession_good | apply sendYusto_good | apply inOrder_good
      | refine keep_ite ?_ ?_ | split

theorem fabricSession_good {q : List Instr} (a0) (a1) {s : State} (h : Good q s) :
    Good2 q (fabricSession a0 a1 s) := by
  unfold fabricSession; dsimp only
  repeat'
    with_reducible first
      | assumption | intro _ | apply takeSession_good | apply good2_mk | refine good2_eq (by assumption) ?_
      | refine good2_snd (p := takeSession _ _ _) ?_ | refine keep_ite ?_ ?_ | split

theorem yustoArrive_good {q : List Instr} (a0) (a1) {s : State} (h : Good q s) : Good q (yustoArrive a0 a1 s) := by
  unfold yustoArrive; dsimp only
  repeat'
    with_reducible first
      | assumption | intro _ | simp only [good_upd] | apply inSession_good | apply bump_good
      | apply openMailbox_good | apply fabricSession_good | apply good2_mk | refine good2_eq (by assumption) ?_
      | refine good2_snd (p := fabricSession _ _ _) ?_ | refine keep_ite ?_ ?_ | split

theorem mgmtArrive_good {q : List Instr} (a0) {s : State} (h : Good q s) : Good q (mgmtArrive a0 s) := by
  unfold mgmtArrive; dsimp only
  repeat'
    with_reducible first
      | assumption | intro _ | simp only [good_upd] | apply bump_good | apply yustoArrive_good | apply good_when
      | refine keep_ite ?_ ?_ | split

theorem mailboxSubmit_good {q : List Instr} (a0) (a1) {s : State} (h : Good q s) :
    Good q (mailboxSubmit a0 a1 s) := by
  unfold mailboxSubmit; dsimp only
  repeat'
    with_reducible first
      | assumption | intro _ | apply openMailbox_good | apply setFn_good | apply inSession_good
      | refine keep_ite ?_ ?_

theorem sessionOpen_good {q : List Instr} (a0) (a1) (a2) {s : State} (h : Good q s) :
    Good q (sessionOpen a0 a1 a2 s) := by
  unfold sessionOpen; dsimp only
  repeat'
    with_reducible first
      | assumption | intro _ | apply logEvent_good | apply takeSession_good | apply setSession_good | apply good2_mk
      | refine good2_eq (by assumption) ?_ | refine good2_snd (p := takeSession _ _ _) ?_ | refine keep_ite ?_ ?_

theorem sessionIdle_good {q : List Instr} (a0) {s : State} (h : Good q s) : Good q (sessionIdle a0 s) := by
  unfold sessionIdle
  repeat' (with_reducible first | assumption | intro _ | apply closeSession_good | refine keep_ite ?_ ?_ | split)

/-! ### Machine/Sideband.lean -/

theorem sbCommit_good {q : List Instr} (a0) (a1) (a2) {s : State} (h : Good q s) : Good q (sbCommit a0 a1 a2 s) := by
  unfold sbCommit; dsimp only
  repeat'
    with_reducible first
      | assumption | intro _ | simp only [good_upd] | apply bump_good | apply emit_good | apply good_when

theorem sbRead_good {q : List Instr} (a0) (a1) {s : State} (h : Good q s) : Good q (sbRead a0 a1 s) := by
  unfold sbRead
  repeat' (with_reducible first | assumption | intro _ | apply sbCommit_good | refine keep_ite ?_ ?_ | split)

theorem sbWrite_good {q : List Instr} (a0) (a1) {s : State} (h : Good q s) : Good q (sbWrite a0 a1 s) := by
  unfold sbWrite
  repeat'
    with_reducible first
      | assumption | intro _ | simp only [good_upd] | apply sbCommit_good | refine keep_ite ?_ ?_

theorem sbNop_good {q : List Instr} (a0) (a1) (a2) {s : State} (h : Good q s) : Good q (sbNop a0 a1 a2 s) := by
  unfold sbNop
  repeat' (with_reducible first | assumption | intro _ | apply sbCommit_good | refine keep_ite ?_ ?_ | split)

theorem sbAbort_good {q : List Instr} {s : State} (h : Good q s) : Good q (sbAbort s) := by
  unfold sbAbort
  repeat' (with_reducible first | assumption | intro _ | apply bump_good | refine keep_ite ?_ ?_ | split)

/-! ### Machine/Settle.lean -/

theorem deliverResult_good {q : List Instr} (a0) (a1) {s : State} (h : Good q s) :
    Good q (deliverResult a0 a1 s) := by
  unfold deliverResult
  repeat'
    with_reducible first
      | assumption | intro _ | apply ringRead_good | apply fragRead_good | apply entryWritten_good
      | apply queryWritten_good | apply msgReadDone_good | apply sinkDone_good | apply placeDone_good
      | apply getRead_good | apply atomicDone_good | apply flushRead_good | apply sendPlaced_good
      | apply placingDone_good | apply rgetRead_good | apply memberTable_good | apply contribDone_good
      | apply resultWritten_good | apply engineResult_good | apply fenceRead_good | apply moveHostDone_good
      | apply moveAcked_good | apply laneRead_good | apply lanePlaced_good | refine keep_ite ?_ ?_ | split

theorem shotFires_good {q : List Instr} (a0) {s : State} (h : Good q s) : Good q (shotFires a0 s) := by
  unfold shotFires
  repeat'
    with_reducible first
      | assumption | intro _ | apply applyFires_good | apply activationInstant_good | apply collLaunch_good
      | refine keep_ite ?_ ?_ | split

theorem schedulesFollow_good {q : List Instr} {s : State} (h : Good q s) : Good q (schedulesFollow s) := by
  unfold schedulesFollow
  repeat'
    with_reducible first
      | assumption | intro _ | apply telemetryFrom_good | apply sampleFrom_good | apply gatesRestart_good

theorem originLost_good {q : List Instr} (a0) {s : State} (h : Good q s) : Good q (originLost a0 s) := by
  unfold originLost
  repeat'
    with_reducible first
      | assumption | intro _ | apply sweepTransient_good | apply laneDataLost_good | apply collLost_good
      | apply packetLost_good

theorem originLeft_good {q : List Instr} (a0) {s : State} (h : Good q s) : Good q (originLeft a0 s) := by
  unfold originLeft
  repeat'
    with_reducible first
      | assumption | intro _ | apply sweepTransient_good | apply laneLeft_good | apply packetLeft_good

theorem reachChanged_good {q : List Instr} {s : State} (h : Good q s) : Good q (reachChanged s) := by
  unfold reachChanged; dsimp only
  repeat'
    with_reducible first
      | assumption | intro _ | apply kickReleases_good | apply collUnreachable_good | apply peersUnreachable_good

theorem mtcmpStep_good {q : List Instr} (a0) (a1) {s : State} (h : Good q s) : Good q (mtcmpStep a0 a1 s) := by
  unfold mtcmpStep; dsimp only
  repeat'
    with_reducible first
      | assumption | intro _ | apply setEvent_good | apply setCtx_good | apply bump_good | apply good_forRange
      | refine keep_ite ?_ ?_

theorem handle_good {q : List Instr} (a0) {s : State} (h : Good q s) : Good q (handle a0 s) := by
  unfold handle
  repeat'
    with_reducible first
      | assumption | intro _ | apply eventArrive_good | apply faultRaise_good | apply startAcc_good
      | apply orderGo_good | apply deliverResult_good | apply partEnds_good | apply markDone_good
      | apply reachChanged_good | apply domainLeft_good | apply loseStack_good | apply granulePoisoned_good
      | apply flushRetrain_good | apply linkDown_good | apply lanesFlushed_good | apply engineRemote_good
      | apply remoteDone_good | apply storeLeft_good | apply fenceFlushed_good | apply moveSent_good
      | apply dispatchItems_good | apply serviceEnds_good | apply placingData_good | apply fetchFailed_good
      | apply ackMsg_good | apply flowGo_good | apply walkNext_good | apply zeroRead_good | apply codeword_good
      | apply markerArrive_good | apply orphanParties_good | apply laneOut_good | apply originLost_good
      | apply originLeft_good | apply collUnroutable_good | apply packetUnroutable_good | apply takeReset_good
      | apply withdraw_good | apply pushAll_good | apply closeSession_good | apply mtcmpStep_good
      | apply telemetryStep_good | apply sampleStep_good | apply gatesStep_good | apply peerGone_good
      | apply peersChanged_good | apply mgmtArrive_good | apply schedulesFollow_good | apply shotFires_good
      | apply departStart_good | apply refreshAllLasers_good | refine keep_ite ?_ ?_ | apply good_id | split

theorem drain_good {q : List Instr} (a0) {s : State} (h : Good q s) : Good q (drain a0 s) := by
  induction a0 generalizing s  with
  | zero => exact h
  | succ n ih =>
    unfold drain; try dsimp only
    repeat'
      with_reducible first
        | assumption | apply ih | intro _ | simp only [good_upd] | apply handle_good | refine keep_ite ?_ ?_ | split

theorem settle_good {q : List Instr} {s : State} (h : Good q s) : Good q (settle s) := by
  unfold settle
  repeat' (with_reducible first | assumption | intro _ | apply drain_good | split)

theorem fin_good {q : List Instr} {s : State} (h : Good q s) : GoodO q (fin s) := goodO_next (settle_good h)

theorem finO_good {q : List Instr} {o : Out3} (h : GoodO q o) : GoodO q (finO o) := by
  cases o with
  | next s => exact goodO_next (settle_good (h s rfl))
  | fault f => exact goodO_fault
  | refused r => exact goodO_refused

end Sys2Proof.Machine
end

