-- ==== Sys2Proof/Laws/KeepCommands.lean ====
section
/-!
SUPPORT. Keeping the queue of commands and the canonical form: what the commands share.
-/
namespace Sys2Proof.Machine

/-! ### Machine/CommandBase.lean -/

theorem inDomain_good {q : List Instr} (a0) {f1} (hf1 : ∀ x0, Good q x0 → Good q (f1 x0)) {s : State} (h : Good q s) :
    GoodO q (inDomain a0 f1 s) := by
  unfold inDomain
  repeat'
    with_reducible first
      | assumption | intro _ | apply hf1 | apply fin_good | apply goodO_next | apply goodO_fault
      | apply goodO_refused | refine keep_ite ?_ ?_

theorem inAO_good {q : List Instr} {f0} (hf0 : ∀ x0, Good q x0 → Good q (f0 x0)) {s : State} (h : Good q s) :
    GoodO q (inAO f0 s) := by
  unfold inAO
  repeat' (with_reducible first | assumption | intro _ | apply hf0 | apply inDomain_good)

theorem inCX_good {q : List Instr} {f0} (hf0 : ∀ x0, Good q x0 → Good q (f0 x0)) {s : State} (h : Good q s) :
    GoodO q (inCX f0 s) := by
  unfold inCX
  repeat' (with_reducible first | assumption | intro _ | apply hf0 | apply inDomain_good)

theorem takeDelivered_good {q : List Instr} (a0) {s : State} (h : Good q s) : Good q (takeDelivered a0 s) := by
  unfold takeDelivered; dsimp only
  repeat' (with_reducible first | assumption | intro _ | simp only [good_upd] | split)

theorem packetCommand_good {q : List Instr} (a0) (a1) {f2} (hf2 : ∀ x0 x1, Good q x1 → Good q (f2 x0 x1)) {s : State} (h : Good q s) :
    GoodO q (packetCommand a0 a1 f2 s) := by
  unfold packetCommand
  repeat'
    with_reducible first
      | assumption | intro _ | apply hf2 | apply inCX_good | apply takeDelivered_good | apply goodO_next
      | apply goodO_fault | apply goodO_refused | refine keep_ite ?_ ?_

theorem takeIngress_good {q : List Instr} (a0) (a1) (a2) {s : State} (h : Good q s) :
    Good q (takeIngress a0 a1 a2 s) := by
  unfold takeIngress; dsimp only
  repeat'
    with_reducible first
      | assumption | intro _ | simp only [good_upd] | apply leaveIngress_good | refine keep_ite ?_ ?_

theorem portCommand_good {q : List Instr} (a0) (a1) (a2) (a3) {f4} (hf4 : ∀ x0 x1, Good q x1 → Good q (f4 x0 x1)) {s : State} (h : Good q s) :
    GoodO q (portCommand a0 a1 a2 a3 f4 s) := by
  unfold portCommand
  repeat'
    with_reducible first
      | assumption | intro _ | apply hf4 | apply inCX_good | apply takeIngress_good | apply goodO_next
      | apply goodO_fault | apply goodO_refused | refine keep_ite ?_ ?_

/-! ### Machine/OpticsCommands.lean -/

theorem inLanes_good {q : List Instr} (a0) {f1} (hf1 : ∀ x0, Good q x0 → Good q (f1 x0)) {s : State} (h : Good q s) :
    GoodO q (inLanes a0 f1 s) := by
  unfold inLanes
  repeat'
    with_reducible first
      | assumption | intro _ | apply hf1 | apply fin_good | apply goodO_next | apply goodO_fault
      | apply goodO_refused | refine keep_ite ?_ ?_

theorem trainingTime_good {q : List Instr} (a0) {s : State} (h : Good q s) : Good q (trainingTime a0 s) := by
  unfold trainingTime; dsimp only
  repeat'
    with_reducible first
      | assumption | intro _ | apply refreshLasers_good | apply setLanes_good | apply sendMarker_good
      | refine keep_ite ?_ ?_

theorem cdrLock_good {q : List Instr} (a0) (a1) (a2) (a3) {s : State} (h : Good q s) :
    Good q (cdrLock a0 a1 a2 a3 s) := by
  unfold cdrLock
  repeat' (with_reducible first | assumption | intro _ | apply setLane_good | refine keep_ite ?_ ?_ | split)

theorem codewordArrive_good {q : List Instr} (a0) (a1) (a2) {s : State} (h : Good q s) :
    Good q (codewordArrive a0 a1 a2 s) := by
  unfold codewordArrive; dsimp only
  repeat'
    with_reducible first
      | assumption | intro _ | apply codeword_good | apply lanesLocked_good | apply startDwell_good
      | refine keep_ite ?_ ?_

theorem bringUpTimeout_good {q : List Instr} (a0) {s : State} (h : Good q s) : Good q (bringUpTimeout a0 s) := by
  unfold bringUpTimeout; dsimp only
  repeat'
    with_reducible first
      | assumption | intro _ | apply draw_good | apply setLanes_good | apply bump_good | apply good2_mk
      | refine good2_eq (by assumption) ?_ | refine good2_snd (p := draw _ _) ?_ | refine keep_ite ?_ ?_

theorem bringUpRestart_good {q : List Instr} (a0) {s : State} (h : Good q s) : Good q (bringUpRestart a0 s) := by
  unfold bringUpRestart
  repeat' (with_reducible first | assumption | intro _ | apply startBringUp_good | refine keep_ite ?_ ?_ | split)

theorem lullDwell_good {q : List Instr} (a0) {s : State} (h : Good q s) : Good q (lullDwell a0 s) := by
  unfold lullDwell; dsimp only
  repeat'
    with_reducible first
      | assumption | intro _ | apply startDwell_good | apply changeSet_good | refine keep_ite ?_ ?_

theorem lullDepth_good {q : List Instr} (a0) {s : State} (h : Good q s) : Good q (lullDepth a0 s) := by
  unfold lullDepth; dsimp only
  repeat' (with_reducible first | assumption | intro _ | apply startWidening_good | refine keep_ite ?_ ?_ | split)

theorem laneRestore_good {q : List Instr} (a0) {s : State} (h : Good q s) : Good q (laneRestore a0 s) := by
  unfold laneRestore
  repeat' (with_reducible first | assumption | intro _ | apply startWidening_good | refine keep_ite ?_ ?_ | split)

theorem warmUp_good {q : List Instr} (a0) {s : State} (h : Good q s) : Good q (warmUp a0 s) := by
  unfold warmUp; dsimp only
  repeat' (with_reducible first | assumption | intro _ | apply widenMarkers_good | refine keep_ite ?_ ?_)

theorem wideningTimeout_good {q : List Instr} (a0) {s : State} (h : Good q s) : Good q (wideningTimeout a0 s) := by
  unfold wideningTimeout; dsimp only
  repeat' (with_reducible first | assumption | intro _ | apply endWidening_good | refine keep_ite ?_ ?_)

theorem peakingTrack_good {q : List Instr} (a0) (a1) (a2) {s : State} (h : Good q s) :
    Good q (peakingTrack a0 a1 a2 s) := by
  unfold peakingTrack; dsimp only
  repeat' (with_reducible first | assumption | intro _ | apply setLane_good | refine keep_ite ?_ ?_ | split)

theorem laserLow_good {q : List Instr} (a0) (a1) (a2) {s : State} (h : Good q s) : Good q (laserLow a0 a1 a2 s) := by
  unfold laserLow; dsimp only
  repeat'
    with_reducible first
      | assumption | intro _ | apply setLane_good | apply raiseFault_good | apply refreshLasers_good
      | refine keep_ite ?_ ?_

/-! ### Machine/LockCommands.lean -/

theorem lockResult_good {q : List Instr} (a0) (a1) {s : State} (h : Good q s) : Good q (lockResult a0 a1 s) := by
  unfold lockResult
  repeat' (with_reducible first | assumption | intro _ | apply lockEvent_good | split)

theorem lockCommand_good {q : List Instr} (a0) (a1) (a2) {f3} (hf3 : ∀ x0, Good q x0 → Good q (f3 x0)) {s : State} (h : Good q s) :
    GoodO q (lockCommand a0 a1 a2 f3 s) := by
  unfold lockCommand
  repeat'
    with_reducible first
      | assumption | intro _ | apply hf3 | apply fin_good | apply bump_good | apply lockResult_good
      | apply goodO_next | apply goodO_fault | apply goodO_refused | refine keep_ite ?_ ?_

theorem grantNow_good {q : List Instr} (a0) (a1) {s : State} (h : Good q s) : Good q (grantNow a0 a1 s) := by
  unfold grantNow; dsimp only
  repeat' (with_reducible first | assumption | intro _ | apply takeLock_good | apply lockEvent_good)

theorem execLockAcquire_good {q : List Instr} (a0) (a1) (a2) (a3) (a4) (a5) {s : State} (h : Good q s) :
    GoodO q (execLockAcquire a0 a1 a2 a3 a4 a5 s) := by
  unfold execLockAcquire; dsimp only
  repeat'
    with_reducible first
      | assumption | intro _ | apply lockCommand_good | apply lockResult_good | apply grantNow_good
      | apply bump_good | apply enqueueWaiter_good | apply goodO_next | apply goodO_fault | apply goodO_refused
      | refine keep_ite ?_ ?_

theorem execLockTry_good {q : List Instr} (a0) (a1) (a2) (a3) (a4) (a5) {s : State} (h : Good q s) :
    GoodO q (execLockTry a0 a1 a2 a3 a4 a5 s) := by
  unfold execLockTry; dsimp only
  repeat'
    with_reducible first
      | assumption | intro _ | apply lockCommand_good | apply lockResult_good | apply grantNow_good
      | apply bump_good | apply goodO_next | apply goodO_fault | apply goodO_refused | refine keep_ite ?_ ?_

theorem execLockRelease_good {q : List Instr} (a0) (a1) (a2) (a3) (a4) (a5) {s : State} (h : Good q s) :
    GoodO q (execLockRelease a0 a1 a2 a3 a4 a5 s) := by
  unfold execLockRelease; dsimp only
  repeat'
    with_reducible first
      | assumption | intro _ | apply lockCommand_good | apply giveUp_good | apply lockResult_good | apply goodO_next
      | apply goodO_fault | apply goodO_refused | refine keep_ite ?_ ?_

theorem execLockCancel_good {q : List Instr} (a0) (a1) (a2) (a3) (a4) (a5) {s : State} (h : Good q s) :
    GoodO q (execLockCancel a0 a1 a2 a3 a4 a5 s) := by
  unfold execLockCancel; dsimp only
  repeat'
    with_reducible first
      | assumption | intro _ | apply lockCommand_good | apply lockResult_good | apply removeWaiter_good
      | apply goodO_next | apply goodO_fault | apply goodO_refused | refine keep_ite ?_ ?_

/-! ### Machine/RouteCommands.lean -/

theorem packetRoute_good {q : List Instr} (a0) {s : State} (h : Good q s) : Good q (packetRoute a0 s) := by
  unfold packetRoute; dsimp only
  repeat'
    with_reducible first
      | assumption | intro _ | simp only [good_upd] | apply routePacket_good | refine keep_ite ?_ ?_ | split

theorem singleVcExpiry_good {q : List Instr} (a0) (a1) {s : State} (h : Good q s) :
    Good q (singleVcExpiry a0 a1 s) := by
  unfold singleVcExpiry; dsimp only
  repeat'
    with_reducible first
      | assumption | intro _ | apply assignTags_good | apply bump_good | apply leaveQueued_good | apply setFlow_good
      | refine keep_ite ?_ ?_ | split

theorem healthInterval_good {q : List Instr} {s : State} (h : Good q s) : Good q (healthInterval s) := by
  unfold healthInterval
  repeat'
    with_reducible first
      | assumption | intro _ | simp only [good_upd] | apply healthAll_good | refine keep_ite ?_ ?_

theorem vanePeriod_good {q : List Instr} {s : State} (h : Good q s) : Good q (vanePeriod s) := by
  unfold vanePeriod
  repeat'
    with_reducible first
      | assumption | intro _ | simp only [good_upd] | apply vaneUpdate_good | refine keep_ite ?_ ?_

theorem replicaCheck_good {q : List Instr} (a0) {s : State} (h : Good q s) : Good q (replicaCheck a0 s) := by
  unfold replicaCheck; dsimp only
  repeat'
    with_reducible first
      | assumption | intro _ | apply bumpBy_good | apply raiseFault_good | apply good_forRange
      | refine keep_ite ?_ ?_ | split

/-! ### Machine/EngineSys.lean -/

theorem loadInstr_good {q : List Instr} (a0) (a1) (a2) (a3) (a4) (a5) (a6) {s : State} (h : Good q s) :
    GoodO q (loadInstr a0 a1 a2 a3 a4 a5 a6 s) := by
  unfold loadInstr
  repeat'
    with_reducible first
      | assumption | intro _ | apply meRun_good | apply doLoad_good | apply goodO_next | apply goodO_fault
      | apply goodO_refused | refine keep_ite ?_ ?_ | apply finO_good

theorem storeInstr_good {q : List Instr} (a0) (a1) (a2) (a3) (a4) (a5) {s : State} (h : Good q s) :
    GoodO q (storeInstr a0 a1 a2 a3 a4 a5 s) := by
  unfold storeInstr
  repeat'
    with_reducible first
      | assumption | intro _ | apply meRun_good | apply doStore_good | apply goodO_next | apply goodO_fault
      | apply goodO_refused | refine keep_ite ?_ ?_ | apply finO_good

theorem unitOp_good {q : List Instr} (a0) (a1) (a2) (a3) {f4} (hf4 : ∀ x0, Good q x0 → GoodO q (f4 x0)) {s : State} (h : Good q s) :
    GoodO q (unitOp a0 a1 a2 a3 f4 s) := by
  unfold unitOp
  repeat'
    with_reducible first
      | assumption | intro _ | apply hf4 | apply meRun_good | apply endItem_good | apply goodO_next
      | apply goodO_fault | apply goodO_refused | refine keep_ite ?_ ?_ | apply finO_good

theorem fenceAsk_good {q : List Instr} (a0) (a1) (a2) {s : State} (h : Good q s) : Good q (fenceAsk a0 a1 a2 s) := by
  unfold fenceAsk; dsimp only
  repeat'
    with_reducible first
      | assumption | intro _ | apply later_good | apply engineFlush_good | apply good_foldSt

theorem trapReturn_regs (x : ECtx) : (trapReturn x).regs = x.regs := rfl

theorem writeSpecial_regs (n : Nat) (v : Word64) (pkg : Bool) (x : ECtx) : (writeSpecial n v pkg x).regs = x.regs := by
  unfold writeSpecial; repeat' split
  all_goals rfl

theorem readSpecial_good {q : List Instr} (a0) (a1) (a2) {s : State} (h : Good q s) :
    Good2 q (readSpecial a0 a1 a2 s) := by
  unfold readSpecial; dsimp only
  repeat'
    with_reducible first
      | assumption | intro _ | apply draw_good | apply good2_mk | refine good2_eq (by assumption) ?_
      | refine good2_snd (p := draw _ _) ?_ | refine keep_ite ?_ ?_ | split

theorem startMove_good {q : List Instr} (a0) (a1) (a2) (a3) {s : State} (h : Good q s) :
    Good q (startMove a0 a1 a2 a3 s) := by
  unfold startMove; dsimp only
  repeat'
    with_reducible first
      | assumption | intro _ | apply setCtx_good | apply seeReached_good | apply finish_good

/-! ### Machine/CollCommands.lean -/

theorem collCommand_good {q : List Instr} (a0) (a1) {f2} (hf2 : ∀ x0 x1 x2, Good q x2 → Good q (f2 x0 x1 x2)) {s : State} (h : Good q s) :
    GoodO q (collCommand a0 a1 f2 s) := by
  unfold collCommand
  repeat'
    with_reducible first
      | assumption | intro _ | apply hf2 | apply packetCommand_good | apply collArrive_good | apply goodO_next
      | apply goodO_fault | apply goodO_refused | refine keep_ite ?_ ?_

/-! ### Machine/DictCommands.lean -/

theorem yustoCommand_good {q : List Instr} (a0) (a1) {s : State} (h : Good q s) : GoodO q (yustoCommand a0 a1 s) := by
  unfold yustoCommand; dsimp only
  repeat' (with_reducible first | assumption | intro _ | apply fin_good | apply yustoArrive_good)

/-! ### Machine/FaultCommands.lean -/

theorem breeze_good {q : List Instr} (a0) {s : State} (h : Good q s) : Good q (breeze a0 s) := by
  unfold breeze; dsimp only
  repeat' (with_reducible first | assumption | intro _ | simp only [good_upd] | refine keep_ite ?_ ?_ | split)

/-! ### Machine/FlowCommands.lean -/

theorem markerInterval_good {q : List Instr} (a0) {s : State} (h : Good q s) : Good q (markerInterval a0 s) := by
  unfold markerInterval
  repeat'
    with_reducible first
      | assumption | intro _ | apply setPL_good | apply setFlow_good | refine keep_ite ?_ ?_

/-! ### Machine/HostCommands.lean -/

theorem lockWrite_good {q : List Instr} (a0) (a1) {s : State} (h : Good q s) : GoodO q (lockWrite a0 a1 s) := by
  unfold lockWrite; dsimp only
  repeat'
    with_reducible first
      | assumption | intro _ | apply execLockAcquire_good | apply execLockRelease_good | apply execLockTry_good
      | apply execLockCancel_good | apply fin_good | apply bump_good | apply goodO_next | apply goodO_fault
      | apply goodO_refused | refine keep_ite ?_ ?_

theorem bar2Command_good {q : List Instr} (a0) (a1) (a2) {s : State} (h : Good q s) :
    GoodO q (bar2Command a0 a1 a2 s) := by
  unfold bar2Command
  repeat'
    with_reducible first
      | assumption | intro _ | apply fin_good | apply mailboxSubmit_good | apply lockWrite_good
      | apply bar2Write_good | apply goodO_next | apply goodO_fault | apply goodO_refused | refine keep_ite ?_ ?_

/-! ### Machine/LinkCommands.lean -/

theorem cellCommand_good {q : List Instr} (a0) (a1) {s : State} (h : Good q s) : GoodO q (cellCommand a0 a1 s) := by
  unfold cellCommand
  repeat' (with_reducible first | assumption | intro _ | apply inCX_good | apply receiveCell_good)

/-! ### Machine/MgmtCommands.lean -/

theorem scanLaser_good {q : List Instr} (a0) (a1) (a2) {s : State} (h : Good q s) :
    Good q (scanLaser a0 a1 a2 s) := by
  unfold scanLaser; dsimp only
  repeat'
    with_reducible first
      | assumption | intro _ | apply setLane_good | apply raiseFault_good | apply endCondition_good
      | refine keep_ite ?_ ?_

theorem scanOptical_good {q : List Instr} (a0) (a1) {s : State} (h : Good q s) : Good q (scanOptical a0 a1 s) := by
  unfold scanOptical; dsimp only
  repeat'
    with_reducible first
      | assumption | intro _ | simp only [good_upd] | apply endCondition_good | apply raiseFault_good
      | refine keep_ite ?_ ?_

theorem scanOptics_good {q : List Instr} (a0) {s : State} (h : Good q s) : Good q (scanOptics a0 s) := by
  unfold scanOptics; dsimp only
  repeat'
    with_reducible first
      | assumption | intro _ | apply scanLaser_good | apply setLanes_good | apply signalLost_good
      | apply scanOptical_good | apply good_foldSt | apply good_when

theorem updateServed_good {q : List Instr} {f0} (hf0 : ∀ x0, Good q x0 → Good q (f0 x0)) {s : State} (h : Good q s) :
    GoodO q (updateServed f0 s) := by
  unfold updateServed
  repeat'
    with_reducible first
      | assumption | intro _ | apply hf0 | apply fin_good | apply goodO_next | apply goodO_fault
      | apply goodO_refused | refine keep_ite ?_ ?_ | split

/-! ### Machine/PowerCommands.lean -/

theorem inputGoodAt_good {q : List Instr} (a0) {s : State} (h : Good q s) : Good q (inputGoodAt a0 s) := by
  unfold inputGoodAt; dsimp only
  repeat'
    with_reducible first
      | assumption | intro _ | simp only [good_upd] | apply takeReset_good | refine keep_ite ?_ ?_

/-! ### Machine/QueueCommands.lean -/

theorem nop_good {q : List Instr} (a0) {s : State} (h : Good q s) : Good q (nop a0 s) := by
  unfold nop
  repeat'
    with_reducible first
      | assumption | intro _ | apply complete_good | apply markStarted_good | refine keep_ite ?_ ?_ | split

/-! ### Machine/TransCommands.lean -/

theorem hostReadCompletion_good {q : List Instr} (a0) (a1) (a2) {s : State} (h : Good q s) :
    Good q (hostReadCompletion a0 a1 a2 s) := by
  unfold hostReadCompletion; dsimp only
  repeat'
    with_reducible first
      | assumption | intro _ | simp only [good_upd] | apply pumpReads_good | apply partEnds_good
      | refine keep_ite ?_ ?_ | split

/-! ### Machine/Step.lean -/

theorem idle_good {q : List Instr} {s : State} (h : Good q s) : Good q (idle s) := by
  unfold idle
  repeat' (with_reducible first | assumption | intro _ | apply tick_good | refine keep_ite ?_ ?_ | split)

end Sys2Proof.Machine
end

