-- ==== Sys2Proof/Laws/Outcomes.lean ====
section
/-!
SUPPORT. What the frames of the commands answer: the next state with power, with a well-formed packet or
cell, for an engine that issues; nothing without power, and for what is no such packet or cell.
-/
namespace Sys2Proof.Machine

variable {s t : State} {P : State → Prop} {f : State → State}

/-! ### Settling -/

/-- Nothing was left to the other units. -/
theorem settle_of_no_work (h : s.work = []) : settle s = s := by simp [settle, drain, h]

/-- One piece of work is handled before the rest. -/
theorem drain_cons {n : Nat} {w : Work} {r : List Work} (h : s.work = w :: r) :
    drain (n + 1) s = drain n (handle w { s with work := r }) := by simp [drain, h]

@[simp] theorem fin_eq : fin s = .next (settle s) := rfl
@[simp] theorem finO_next : finO (.next s) = .next (settle s) := rfl
@[simp] theorem finO_fault {x : Fault} : finO (.fault x) = .fault x := rfl
@[simp] theorem finO_refused {x : Refusal} : finO (.refused x) = .refused x := rfl

theorem effect_fin (h : P t) : Effect (fin t) P := ⟨t, rfl, h⟩
theorem effect_finO (h : P t) : Effect (finO (.next t)) P := ⟨t, rfl, h⟩

/-! ### Power -/

theorem inDomain_on {d : Nat} (h : domOn s d = true) : inDomain d f s = fin (f s) := by simp [inDomain, h]
theorem inDomain_off {d : Nat} (h : domOn s d = false) : inDomain d f s = .next s := by simp [inDomain, h]
theorem inCX_on (h : domOn s dCX = true) : inCX f s = fin (f s) := inDomain_on h
theorem inCX_off (h : domOn s dCX = false) : inCX f s = .next s := inDomain_off h
theorem inAO_on (h : domOn s 0 = true) : inAO f s = fin (f s) := inDomain_on h
theorem inAO_off (h : domOn s 0 = false) : inAO f s = .next s := inDomain_off h
theorem inLanes_on {p : Nat} (h1 : domOn s (dSC (p / 8)) = true) (h2 : domOn s (dOE (p / 8)) = true) :
    inLanes p f s = fin (f s) := by simp [inLanes, h1, h2]
theorem inLanes_off {p : Nat} (h : (domOn s (dSC (p / 8)) && domOn s (dOE (p / 8))) = false) :
    inLanes p f s = .next s := by simp [inLanes, h]

theorem effect_inDomain {d : Nat} (h : domOn s d = true) (hp : P (f s)) : Effect (inDomain d f s) P := by
  rw [inDomain_on h]; exact effect_fin hp
theorem effect_inCX (h : domOn s dCX = true) (hp : P (f s)) : Effect (inCX f s) P := effect_inDomain h hp
theorem effect_inAO (h : domOn s 0 = true) (hp : P (f s)) : Effect (inAO f s) P := effect_inDomain h hp
theorem effect_inLanes {p : Nat} (h1 : domOn s (dSC (p / 8)) = true) (h2 : domOn s (dOE (p / 8)) = true)
    (hp : P (f s)) : Effect (inLanes p f s) P := by rw [inLanes_on h1 h2]; exact effect_fin hp

/-! ### Packets and cells -/

variable {g : Packet → State → State} {type : Nat} {p : Packet}

theorem packetCommand_wf (h : isPacket [type] p = true) :
    packetCommand type p g s = inCX (fun s => g p (takeDelivered p s)) s := by simp [packetCommand, h]
theorem packetCommand_other (h : isPacket [type] p = false) :
    packetCommand type p g s = .next s := by simp [packetCommand, h]
theorem effect_packetCommand (h : isPacket [type] p = true) (hd : domOn s dCX = true)
    (hp : P (g p (takeDelivered p s))) : Effect (packetCommand type p g s) P := by
  rw [packetCommand_wf h]; exact effect_inCX hd hp

theorem portCommand_wf {ok : Packet → Bool} {port : Nat} (h : isPacket [type] p = true) (ho : ok p = true) :
    portCommand type ok port p g s = inCX (fun s => g p (takeIngress port p true s)) s := by
  simp [portCommand, h, ho]
theorem portCommand_other {ok : Packet → Bool} {port : Nat} (h : (isPacket [type] p && ok p) = false) :
    portCommand type ok port p g s = .next s := by simp [portCommand, h]
theorem effect_portCommand {ok : Packet → Bool} {port : Nat} (h : isPacket [type] p = true) (ho : ok p = true)
    (hd : domOn s dCX = true) (hp : P (g p (takeIngress port p true s))) :
    Effect (portCommand type ok port p g s) P := by
  rw [portCommand_wf h ho]; exact effect_inCX hd hp

theorem collCommand_kind {kind : Nat} {c : Nat → Packet → State → State} (h : cKIND p = kind) :
    collCommand kind p c s = packetCommand tCOLL p (collArrive kind c) s := by simp [collCommand, h]
theorem collCommand_other {kind : Nat} {c : Nat → Packet → State → State} (h : cKIND p ≠ kind) :
    collCommand kind p c s = .next s := by simp [collCommand, h]

theorem effect_cellCommand {q : Nat} {c : RawCell} (hd : domOn s dCX = true) (hp : P (receiveCell q c none s)) :
    Effect (cellCommand q c s) P := effect_inCX hd hp

/-! ### Engines -/

variable {w : Issue} {word kind : Nat} {body : State → Out3}

/-- An engine that issues does what the instruction's own effect is, on the state `issued`. -/
theorem meRun_issues (h : Issues s w = true) : meRun w word kind body s = body (issued s w word kind) := by
  simp only [Issues, Bool.and_eq_true, Bool.not_eq_true'] at h
  obtain ⟨⟨⟨⟨h1, h2⟩, h3⟩, h4⟩, h5⟩ := h
  simp only [meRun, h1, h2, h3, issued]
  simp only [beq_iff_eq] at h4 h5
  simp [h4, h5]

/-- A context that cannot issue does nothing. -/
theorem meRun_idle (h : canIssue s w.engine w.ctx = false) : meRun w word kind body s = .next s := by
  simp [meRun, h]

theorem effect_meRun (h : Issues s w = true) (hb : body (issued s w word kind) = .next t) (hp : P t) :
    Effect (finO (meRun w word kind body s)) P := by
  rw [meRun_issues h, hb]; exact effect_finO hp

end Sys2Proof.Machine
end

