-- ==== Sys2Proof/Laws/State.lean ====
section
/-!
SUPPORT. What each small update of State leaves as it was: one lemma per field per update, so that no
proof unfolds a record.
-/
namespace Sys2Proof.Machine

/-! ### `bumpBy` -/

section
variable (idx sub n : Nat) (s : State)
@[simp] theorem bumpBy_tb : (bumpBy idx sub n s).tb = s.tb := rfl
@[simp] theorem bumpBy_od : (bumpBy idx sub n s).od = s.od := rfl
@[simp] theorem bumpBy_qm : (bumpBy idx sub n s).qm = s.qm := rfl
@[simp] theorem bumpBy_mu : (bumpBy idx sub n s).mu = s.mu := rfl
@[simp] theorem bumpBy_ra : (bumpBy idx sub n s).ra = s.ra := rfl
@[simp] theorem bumpBy_ce : (bumpBy idx sub n s).ce = s.ce := rfl
@[simp] theorem bumpBy_tu : (bumpBy idx sub n s).tu = s.tu := rfl
@[simp] theorem bumpBy_rt : (bumpBy idx sub n s).rt = s.rt := rfl
@[simp] theorem bumpBy_fs : (bumpBy idx sub n s).fs = s.fs := rfl
@[simp] theorem bumpBy_ll : (bumpBy idx sub n s).ll = s.ll := rfl
@[simp] theorem bumpBy_px : (bumpBy idx sub n s).px = s.px := rfl
@[simp] theorem bumpBy_me : (bumpBy idx sub n s).me = s.me := rfl
@[simp] theorem bumpBy_lk : (bumpBy idx sub n s).lk = s.lk := rfl
@[simp] theorem bumpBy_cm : (bumpBy idx sub n s).cm = s.cm := rfl
@[simp] theorem bumpBy_hl : (bumpBy idx sub n s).hl = s.hl := rfl
@[simp] theorem bumpBy_sb : (bumpBy idx sub n s).sb = s.sb := rfl
@[simp] theorem bumpBy_pr : (bumpBy idx sub n s).pr = s.pr := rfl
@[simp] theorem bumpBy_rs : (bumpBy idx sub n s).rs = s.rs := rfl
@[simp] theorem bumpBy_ms : (bumpBy idx sub n s).ms = s.ms := rfl
@[simp] theorem bumpBy_fc : (bumpBy idx sub n s).fc = s.fc := rfl
@[simp] theorem bumpBy_work : (bumpBy idx sub n s).work = s.work := rfl
@[simp] theorem bumpBy_out : (bumpBy idx sub n s).out = s.out := rfl
@[simp] theorem bumpBy_free : (bumpBy idx sub n s).free = s.free := rfl
@[simp] theorem bumpBy_pending : (bumpBy idx sub n s).pending = s.pending := rfl
end

/-! ### `bump` -/

section
variable (idx sub : Nat) (s : State)
@[simp] theorem bump_tb : (bump idx sub s).tb = s.tb := rfl
@[simp] theorem bump_od : (bump idx sub s).od = s.od := rfl
@[simp] theorem bump_qm : (bump idx sub s).qm = s.qm := rfl
@[simp] theorem bump_mu : (bump idx sub s).mu = s.mu := rfl
@[simp] theorem bump_ra : (bump idx sub s).ra = s.ra := rfl
@[simp] theorem bump_ce : (bump idx sub s).ce = s.ce := rfl
@[simp] theorem bump_tu : (bump idx sub s).tu = s.tu := rfl
@[simp] theorem bump_rt : (bump idx sub s).rt = s.rt := rfl
@[simp] theorem bump_fs : (bump idx sub s).fs = s.fs := rfl
@[simp] theorem bump_ll : (bump idx sub s).ll = s.ll := rfl
@[simp] theorem bump_px : (bump idx sub s).px = s.px := rfl
@[simp] theorem bump_me : (bump idx sub s).me = s.me := rfl
@[simp] theorem bump_lk : (bump idx sub s).lk = s.lk := rfl
@[simp] theorem bump_cm : (bump idx sub s).cm = s.cm := rfl
@[simp] theorem bump_hl : (bump idx sub s).hl = s.hl := rfl
@[simp] theorem bump_sb : (bump idx sub s).sb = s.sb := rfl
@[simp] theorem bump_pr : (bump idx sub s).pr = s.pr := rfl
@[simp] theorem bump_rs : (bump idx sub s).rs = s.rs := rfl
@[simp] theorem bump_ms : (bump idx sub s).ms = s.ms := rfl
@[simp] theorem bump_fc : (bump idx sub s).fc = s.fc := rfl
@[simp] theorem bump_work : (bump idx sub s).work = s.work := rfl
@[simp] theorem bump_out : (bump idx sub s).out = s.out := rfl
@[simp] theorem bump_free : (bump idx sub s).free = s.free := rfl
@[simp] theorem bump_pending : (bump idx sub s).pending = s.pending := rfl
end

/-! ### `later` -/

section
variable (w : Work) (s : State)
@[simp] theorem later_tb : (later w s).tb = s.tb := rfl
@[simp] theorem later_od : (later w s).od = s.od := rfl
@[simp] theorem later_qm : (later w s).qm = s.qm := rfl
@[simp] theorem later_mu : (later w s).mu = s.mu := rfl
@[simp] theorem later_ra : (later w s).ra = s.ra := rfl
@[simp] theorem later_ce : (later w s).ce = s.ce := rfl
@[simp] theorem later_tu : (later w s).tu = s.tu := rfl
@[simp] theorem later_rt : (later w s).rt = s.rt := rfl
@[simp] theorem later_fs : (later w s).fs = s.fs := rfl
@[simp] theorem later_ll : (later w s).ll = s.ll := rfl
@[simp] theorem later_px : (later w s).px = s.px := rfl
@[simp] theorem later_me : (later w s).me = s.me := rfl
@[simp] theorem later_lk : (later w s).lk = s.lk := rfl
@[simp] theorem later_cm : (later w s).cm = s.cm := rfl
@[simp] theorem later_hl : (later w s).hl = s.hl := rfl
@[simp] theorem later_sb : (later w s).sb = s.sb := rfl
@[simp] theorem later_pr : (later w s).pr = s.pr := rfl
@[simp] theorem later_rs : (later w s).rs = s.rs := rfl
@[simp] theorem later_ms : (later w s).ms = s.ms := rfl
@[simp] theorem later_fc : (later w s).fc = s.fc := rfl
@[simp] theorem later_cnt : (later w s).cnt = s.cnt := rfl
@[simp] theorem later_out : (later w s).out = s.out := rfl
@[simp] theorem later_free : (later w s).free = s.free := rfl
@[simp] theorem later_pending : (later w s).pending = s.pending := rfl
end

/-! ### `emit` -/

section
variable (o : Out) (s : State)
@[simp] theorem emit_tb : (emit o s).tb = s.tb := rfl
@[simp] theorem emit_od : (emit o s).od = s.od := rfl
@[simp] theorem emit_qm : (emit o s).qm = s.qm := rfl
@[simp] theorem emit_mu : (emit o s).mu = s.mu := rfl
@[simp] theorem emit_ra : (emit o s).ra = s.ra := rfl
@[simp] theorem emit_ce : (emit o s).ce = s.ce := rfl
@[simp] theorem emit_tu : (emit o s).tu = s.tu := rfl
@[simp] theorem emit_rt : (emit o s).rt = s.rt := rfl
@[simp] theorem emit_fs : (emit o s).fs = s.fs := rfl
@[simp] theorem emit_ll : (emit o s).ll = s.ll := rfl
@[simp] theorem emit_px : (emit o s).px = s.px := rfl
@[simp] theorem emit_me : (emit o s).me = s.me := rfl
@[simp] theorem emit_lk : (emit o s).lk = s.lk := rfl
@[simp] theorem emit_cm : (emit o s).cm = s.cm := rfl
@[simp] theorem emit_hl : (emit o s).hl = s.hl := rfl
@[simp] theorem emit_sb : (emit o s).sb = s.sb := rfl
@[simp] theorem emit_pr : (emit o s).pr = s.pr := rfl
@[simp] theorem emit_rs : (emit o s).rs = s.rs := rfl
@[simp] theorem emit_ms : (emit o s).ms = s.ms := rfl
@[simp] theorem emit_fc : (emit o s).fc = s.fc := rfl
@[simp] theorem emit_cnt : (emit o s).cnt = s.cnt := rfl
@[simp] theorem emit_work : (emit o s).work = s.work := rfl
@[simp] theorem emit_free : (emit o s).free = s.free := rfl
@[simp] theorem emit_pending : (emit o s).pending = s.pending := rfl
end

/-! ### `setTb` -/

section
variable (f : TimeBase → TimeBase) (s : State)
@[simp] theorem setTb_od : (setTb f s).od = s.od := rfl
@[simp] theorem setTb_qm : (setTb f s).qm = s.qm := rfl
@[simp] theorem setTb_mu : (setTb f s).mu = s.mu := rfl
@[simp] theorem setTb_ra : (setTb f s).ra = s.ra := rfl
@[simp] theorem setTb_ce : (setTb f s).ce = s.ce := rfl
@[simp] theorem setTb_tu : (setTb f s).tu = s.tu := rfl
@[simp] theorem setTb_rt : (setTb f s).rt = s.rt := rfl
@[simp] theorem setTb_fs : (setTb f s).fs = s.fs := rfl
@[simp] theorem setTb_ll : (setTb f s).ll = s.ll := rfl
@[simp] theorem setTb_px : (setTb f s).px = s.px := rfl
@[simp] theorem setTb_me : (setTb f s).me = s.me := rfl
@[simp] theorem setTb_lk : (setTb f s).lk = s.lk := rfl
@[simp] theorem setTb_cm : (setTb f s).cm = s.cm := rfl
@[simp] theorem setTb_hl : (setTb f s).hl = s.hl := rfl
@[simp] theorem setTb_sb : (setTb f s).sb = s.sb := rfl
@[simp] theorem setTb_pr : (setTb f s).pr = s.pr := rfl
@[simp] theorem setTb_rs : (setTb f s).rs = s.rs := rfl
@[simp] theorem setTb_ms : (setTb f s).ms = s.ms := rfl
@[simp] theorem setTb_fc : (setTb f s).fc = s.fc := rfl
@[simp] theorem setTb_cnt : (setTb f s).cnt = s.cnt := rfl
@[simp] theorem setTb_work : (setTb f s).work = s.work := rfl
@[simp] theorem setTb_out : (setTb f s).out = s.out := rfl
@[simp] theorem setTb_free : (setTb f s).free = s.free := rfl
@[simp] theorem setTb_pending : (setTb f s).pending = s.pending := rfl
end

/-! ### `setQueue` -/

section
variable (qn : Nat) (f : Queue → Queue) (s : State)
@[simp] theorem setQueue_tb : (setQueue qn f s).tb = s.tb := rfl
@[simp] theorem setQueue_od : (setQueue qn f s).od = s.od := rfl
@[simp] theorem setQueue_mu : (setQueue qn f s).mu = s.mu := rfl
@[simp] theorem setQueue_ra : (setQueue qn f s).ra = s.ra := rfl
@[simp] theorem setQueue_ce : (setQueue qn f s).ce = s.ce := rfl
@[simp] theorem setQueue_tu : (setQueue qn f s).tu = s.tu := rfl
@[simp] theorem setQueue_rt : (setQueue qn f s).rt = s.rt := rfl
@[simp] theorem setQueue_fs : (setQueue qn f s).fs = s.fs := rfl
@[simp] theorem setQueue_ll : (setQueue qn f s).ll = s.ll := rfl
@[simp] theorem setQueue_px : (setQueue qn f s).px = s.px := rfl
@[simp] theorem setQueue_me : (setQueue qn f s).me = s.me := rfl
@[simp] theorem setQueue_lk : (setQueue qn f s).lk = s.lk := rfl
@[simp] theorem setQueue_cm : (setQueue qn f s).cm = s.cm := rfl
@[simp] theorem setQueue_hl : (setQueue qn f s).hl = s.hl := rfl
@[simp] theorem setQueue_sb : (setQueue qn f s).sb = s.sb := rfl
@[simp] theorem setQueue_pr : (setQueue qn f s).pr = s.pr := rfl
@[simp] theorem setQueue_rs : (setQueue qn f s).rs = s.rs := rfl
@[simp] theorem setQueue_ms : (setQueue qn f s).ms = s.ms := rfl
@[simp] theorem setQueue_fc : (setQueue qn f s).fc = s.fc := rfl
@[simp] theorem setQueue_cnt : (setQueue qn f s).cnt = s.cnt := rfl
@[simp] theorem setQueue_work : (setQueue qn f s).work = s.work := rfl
@[simp] theorem setQueue_out : (setQueue qn f s).out = s.out := rfl
@[simp] theorem setQueue_free : (setQueue qn f s).free = s.free := rfl
@[simp] theorem setQueue_pending : (setQueue qn f s).pending = s.pending := rfl
end

/-! ### `setSpace` -/

section
variable (asid : Nat) (f : AddrSpace → AddrSpace) (s : State)
@[simp] theorem setSpace_tb : (setSpace asid f s).tb = s.tb := rfl
@[simp] theorem setSpace_od : (setSpace asid f s).od = s.od := rfl
@[simp] theorem setSpace_qm : (setSpace asid f s).qm = s.qm := rfl
@[simp] theorem setSpace_mu : (setSpace asid f s).mu = s.mu := rfl
@[simp] theorem setSpace_ra : (setSpace asid f s).ra = s.ra := rfl
@[simp] theorem setSpace_ce : (setSpace asid f s).ce = s.ce := rfl
@[simp] theorem setSpace_rt : (setSpace asid f s).rt = s.rt := rfl
@[simp] theorem setSpace_fs : (setSpace asid f s).fs = s.fs := rfl
@[simp] theorem setSpace_ll : (setSpace asid f s).ll = s.ll := rfl
@[simp] theorem setSpace_px : (setSpace asid f s).px = s.px := rfl
@[simp] theorem setSpace_me : (setSpace asid f s).me = s.me := rfl
@[simp] theorem setSpace_lk : (setSpace asid f s).lk = s.lk := rfl
@[simp] theorem setSpace_cm : (setSpace asid f s).cm = s.cm := rfl
@[simp] theorem setSpace_hl : (setSpace asid f s).hl = s.hl := rfl
@[simp] theorem setSpace_sb : (setSpace asid f s).sb = s.sb := rfl
@[simp] theorem setSpace_pr : (setSpace asid f s).pr = s.pr := rfl
@[simp] theorem setSpace_rs : (setSpace asid f s).rs = s.rs := rfl
@[simp] theorem setSpace_ms : (setSpace asid f s).ms = s.ms := rfl
@[simp] theorem setSpace_fc : (setSpace asid f s).fc = s.fc := rfl
@[simp] theorem setSpace_cnt : (setSpace asid f s).cnt = s.cnt := rfl
@[simp] theorem setSpace_work : (setSpace asid f s).work = s.work := rfl
@[simp] theorem setSpace_out : (setSpace asid f s).out = s.out := rfl
@[simp] theorem setSpace_free : (setSpace asid f s).free = s.free := rfl
@[simp] theorem setSpace_pending : (setSpace asid f s).pending = s.pending := rfl
end

/-! ### `setRec` -/

section
variable (k : Nat) (f : FaultRec → FaultRec) (s : State)
@[simp] theorem setRec_tb : (setRec k f s).tb = s.tb := rfl
@[simp] theorem setRec_od : (setRec k f s).od = s.od := rfl
@[simp] theorem setRec_qm : (setRec k f s).qm = s.qm := rfl
@[simp] theorem setRec_mu : (setRec k f s).mu = s.mu := rfl
@[simp] theorem setRec_ra : (setRec k f s).ra = s.ra := rfl
@[simp] theorem setRec_ce : (setRec k f s).ce = s.ce := rfl
@[simp] theorem setRec_rt : (setRec k f s).rt = s.rt := rfl
@[simp] theorem setRec_fs : (setRec k f s).fs = s.fs := rfl
@[simp] theorem setRec_ll : (setRec k f s).ll = s.ll := rfl
@[simp] theorem setRec_px : (setRec k f s).px = s.px := rfl
@[simp] theorem setRec_me : (setRec k f s).me = s.me := rfl
@[simp] theorem setRec_lk : (setRec k f s).lk = s.lk := rfl
@[simp] theorem setRec_cm : (setRec k f s).cm = s.cm := rfl
@[simp] theorem setRec_hl : (setRec k f s).hl = s.hl := rfl
@[simp] theorem setRec_sb : (setRec k f s).sb = s.sb := rfl
@[simp] theorem setRec_pr : (setRec k f s).pr = s.pr := rfl
@[simp] theorem setRec_rs : (setRec k f s).rs = s.rs := rfl
@[simp] theorem setRec_ms : (setRec k f s).ms = s.ms := rfl
@[simp] theorem setRec_fc : (setRec k f s).fc = s.fc := rfl
@[simp] theorem setRec_cnt : (setRec k f s).cnt = s.cnt := rfl
@[simp] theorem setRec_work : (setRec k f s).work = s.work := rfl
@[simp] theorem setRec_out : (setRec k f s).out = s.out := rfl
@[simp] theorem setRec_free : (setRec k f s).free = s.free := rfl
@[simp] theorem setRec_pending : (setRec k f s).pending = s.pending := rfl
end

/-! ### `setGroup` -/

section
variable (g : Nat) (f : Group → Group) (s : State)
@[simp] theorem setGroup_tb : (setGroup g f s).tb = s.tb := rfl
@[simp] theorem setGroup_od : (setGroup g f s).od = s.od := rfl
@[simp] theorem setGroup_qm : (setGroup g f s).qm = s.qm := rfl
@[simp] theorem setGroup_mu : (setGroup g f s).mu = s.mu := rfl
@[simp] theorem setGroup_ra : (setGroup g f s).ra = s.ra := rfl
@[simp] theorem setGroup_tu : (setGroup g f s).tu = s.tu := rfl
@[simp] theorem setGroup_rt : (setGroup g f s).rt = s.rt := rfl
@[simp] theorem setGroup_fs : (setGroup g f s).fs = s.fs := rfl
@[simp] theorem setGroup_ll : (setGroup g f s).ll = s.ll := rfl
@[simp] theorem setGroup_px : (setGroup g f s).px = s.px := rfl
@[simp] theorem setGroup_me : (setGroup g f s).me = s.me := rfl
@[simp] theorem setGroup_lk : (setGroup g f s).lk = s.lk := rfl
@[simp] theorem setGroup_cm : (setGroup g f s).cm = s.cm := rfl
@[simp] theorem setGroup_hl : (setGroup g f s).hl = s.hl := rfl
@[simp] theorem setGroup_sb : (setGroup g f s).sb = s.sb := rfl
@[simp] theorem setGroup_pr : (setGroup g f s).pr = s.pr := rfl
@[simp] theorem setGroup_rs : (setGroup g f s).rs = s.rs := rfl
@[simp] theorem setGroup_ms : (setGroup g f s).ms = s.ms := rfl
@[simp] theorem setGroup_fc : (setGroup g f s).fc = s.fc := rfl
@[simp] theorem setGroup_cnt : (setGroup g f s).cnt = s.cnt := rfl
@[simp] theorem setGroup_work : (setGroup g f s).work = s.work := rfl
@[simp] theorem setGroup_out : (setGroup g f s).out = s.out := rfl
@[simp] theorem setGroup_free : (setGroup g f s).free = s.free := rfl
@[simp] theorem setGroup_pending : (setGroup g f s).pending = s.pending := rfl
end

/-! ### `setSrc` -/

section
variable (f : Nat) (g : FlowSrc → FlowSrc) (s : State)
@[simp] theorem setSrc_tb : (setSrc f g s).tb = s.tb := rfl
@[simp] theorem setSrc_od : (setSrc f g s).od = s.od := rfl
@[simp] theorem setSrc_qm : (setSrc f g s).qm = s.qm := rfl
@[simp] theorem setSrc_mu : (setSrc f g s).mu = s.mu := rfl
@[simp] theorem setSrc_ce : (setSrc f g s).ce = s.ce := rfl
@[simp] theorem setSrc_tu : (setSrc f g s).tu = s.tu := rfl
@[simp] theorem setSrc_rt : (setSrc f g s).rt = s.rt := rfl
@[simp] theorem setSrc_fs : (setSrc f g s).fs = s.fs := rfl
@[simp] theorem setSrc_ll : (setSrc f g s).ll = s.ll := rfl
@[simp] theorem setSrc_px : (setSrc f g s).px = s.px := rfl
@[simp] theorem setSrc_me : (setSrc f g s).me = s.me := rfl
@[simp] theorem setSrc_lk : (setSrc f g s).lk = s.lk := rfl
@[simp] theorem setSrc_cm : (setSrc f g s).cm = s.cm := rfl
@[simp] theorem setSrc_hl : (setSrc f g s).hl = s.hl := rfl
@[simp] theorem setSrc_sb : (setSrc f g s).sb = s.sb := rfl
@[simp] theorem setSrc_pr : (setSrc f g s).pr = s.pr := rfl
@[simp] theorem setSrc_rs : (setSrc f g s).rs = s.rs := rfl
@[simp] theorem setSrc_ms : (setSrc f g s).ms = s.ms := rfl
@[simp] theorem setSrc_fc : (setSrc f g s).fc = s.fc := rfl
@[simp] theorem setSrc_cnt : (setSrc f g s).cnt = s.cnt := rfl
@[simp] theorem setSrc_work : (setSrc f g s).work = s.work := rfl
@[simp] theorem setSrc_out : (setSrc f g s).out = s.out := rfl
@[simp] theorem setSrc_free : (setSrc f g s).free = s.free := rfl
@[simp] theorem setSrc_pending : (setSrc f g s).pending = s.pending := rfl
end

/-! ### `setTgt` -/

section
variable (f : Nat) (g : FlowTgt → FlowTgt) (s : State)
@[simp] theorem setTgt_tb : (setTgt f g s).tb = s.tb := rfl
@[simp] theorem setTgt_od : (setTgt f g s).od = s.od := rfl
@[simp] theorem setTgt_qm : (setTgt f g s).qm = s.qm := rfl
@[simp] theorem setTgt_mu : (setTgt f g s).mu = s.mu := rfl
@[simp] theorem setTgt_ce : (setTgt f g s).ce = s.ce := rfl
@[simp] theorem setTgt_tu : (setTgt f g s).tu = s.tu := rfl
@[simp] theorem setTgt_rt : (setTgt f g s).rt = s.rt := rfl
@[simp] theorem setTgt_fs : (setTgt f g s).fs = s.fs := rfl
@[simp] theorem setTgt_ll : (setTgt f g s).ll = s.ll := rfl
@[simp] theorem setTgt_px : (setTgt f g s).px = s.px := rfl
@[simp] theorem setTgt_me : (setTgt f g s).me = s.me := rfl
@[simp] theorem setTgt_lk : (setTgt f g s).lk = s.lk := rfl
@[simp] theorem setTgt_cm : (setTgt f g s).cm = s.cm := rfl
@[simp] theorem setTgt_hl : (setTgt f g s).hl = s.hl := rfl
@[simp] theorem setTgt_sb : (setTgt f g s).sb = s.sb := rfl
@[simp] theorem setTgt_pr : (setTgt f g s).pr = s.pr := rfl
@[simp] theorem setTgt_rs : (setTgt f g s).rs = s.rs := rfl
@[simp] theorem setTgt_ms : (setTgt f g s).ms = s.ms := rfl
@[simp] theorem setTgt_fc : (setTgt f g s).fc = s.fc := rfl
@[simp] theorem setTgt_cnt : (setTgt f g s).cnt = s.cnt := rfl
@[simp] theorem setTgt_work : (setTgt f g s).work = s.work := rfl
@[simp] theorem setTgt_out : (setTgt f g s).out = s.out := rfl
@[simp] theorem setTgt_free : (setTgt f g s).free = s.free := rfl
@[simp] theorem setTgt_pending : (setTgt f g s).pending = s.pending := rfl
end

/-! ### `setConn` -/

section
variable (c : Nat) (f : Conn → Conn) (s : State)
@[simp] theorem setConn_tb : (setConn c f s).tb = s.tb := rfl
@[simp] theorem setConn_od : (setConn c f s).od = s.od := rfl
@[simp] theorem setConn_qm : (setConn c f s).qm = s.qm := rfl
@[simp] theorem setConn_mu : (setConn c f s).mu = s.mu := rfl
@[simp] theorem setConn_ce : (setConn c f s).ce = s.ce := rfl
@[simp] theorem setConn_tu : (setConn c f s).tu = s.tu := rfl
@[simp] theorem setConn_rt : (setConn c f s).rt = s.rt := rfl
@[simp] theorem setConn_fs : (setConn c f s).fs = s.fs := rfl
@[simp] theorem setConn_ll : (setConn c f s).ll = s.ll := rfl
@[simp] theorem setConn_px : (setConn c f s).px = s.px := rfl
@[simp] theorem setConn_me : (setConn c f s).me = s.me := rfl
@[simp] theorem setConn_lk : (setConn c f s).lk = s.lk := rfl
@[simp] theorem setConn_cm : (setConn c f s).cm = s.cm := rfl
@[simp] theorem setConn_hl : (setConn c f s).hl = s.hl := rfl
@[simp] theorem setConn_sb : (setConn c f s).sb = s.sb := rfl
@[simp] theorem setConn_pr : (setConn c f s).pr = s.pr := rfl
@[simp] theorem setConn_rs : (setConn c f s).rs = s.rs := rfl
@[simp] theorem setConn_ms : (setConn c f s).ms = s.ms := rfl
@[simp] theorem setConn_fc : (setConn c f s).fc = s.fc := rfl
@[simp] theorem setConn_cnt : (setConn c f s).cnt = s.cnt := rfl
@[simp] theorem setConn_work : (setConn c f s).work = s.work := rfl
@[simp] theorem setConn_out : (setConn c f s).out = s.out := rfl
@[simp] theorem setConn_free : (setConn c f s).free = s.free := rfl
@[simp] theorem setConn_pending : (setConn c f s).pending = s.pending := rfl
end

/-! ### `setRegion` -/

section
variable (k : Nat) (f : Region → Region) (s : State)
@[simp] theorem setRegion_tb : (setRegion k f s).tb = s.tb := rfl
@[simp] theorem setRegion_od : (setRegion k f s).od = s.od := rfl
@[simp] theorem setRegion_qm : (setRegion k f s).qm = s.qm := rfl
@[simp] theorem setRegion_mu : (setRegion k f s).mu = s.mu := rfl
@[simp] theorem setRegion_ce : (setRegion k f s).ce = s.ce := rfl
@[simp] theorem setRegion_tu : (setRegion k f s).tu = s.tu := rfl
@[simp] theorem setRegion_rt : (setRegion k f s).rt = s.rt := rfl
@[simp] theorem setRegion_fs : (setRegion k f s).fs = s.fs := rfl
@[simp] theorem setRegion_ll : (setRegion k f s).ll = s.ll := rfl
@[simp] theorem setRegion_px : (setRegion k f s).px = s.px := rfl
@[simp] theorem setRegion_me : (setRegion k f s).me = s.me := rfl
@[simp] theorem setRegion_lk : (setRegion k f s).lk = s.lk := rfl
@[simp] theorem setRegion_cm : (setRegion k f s).cm = s.cm := rfl
@[simp] theorem setRegion_hl : (setRegion k f s).hl = s.hl := rfl
@[simp] theorem setRegion_sb : (setRegion k f s).sb = s.sb := rfl
@[simp] theorem setRegion_pr : (setRegion k f s).pr = s.pr := rfl
@[simp] theorem setRegion_rs : (setRegion k f s).rs = s.rs := rfl
@[simp] theorem setRegion_ms : (setRegion k f s).ms = s.ms := rfl
@[simp] theorem setRegion_fc : (setRegion k f s).fc = s.fc := rfl
@[simp] theorem setRegion_cnt : (setRegion k f s).cnt = s.cnt := rfl
@[simp] theorem setRegion_work : (setRegion k f s).work = s.work := rfl
@[simp] theorem setRegion_out : (setRegion k f s).out = s.out := rfl
@[simp] theorem setRegion_free : (setRegion k f s).free = s.free := rfl
@[simp] theorem setRegion_pending : (setRegion k f s).pending = s.pending := rfl
end

/-! ### `setRecvNext` -/

section
variable (d : Nat) (p : Packet) (n : Nat) (s : State)
@[simp] theorem setRecvNext_tb : (setRecvNext d p n s).tb = s.tb := rfl
@[simp] theorem setRecvNext_od : (setRecvNext d p n s).od = s.od := rfl
@[simp] theorem setRecvNext_qm : (setRecvNext d p n s).qm = s.qm := rfl
@[simp] theorem setRecvNext_ra : (setRecvNext d p n s).ra = s.ra := rfl
@[simp] theorem setRecvNext_ce : (setRecvNext d p n s).ce = s.ce := rfl
@[simp] theorem setRecvNext_tu : (setRecvNext d p n s).tu = s.tu := rfl
@[simp] theorem setRecvNext_rt : (setRecvNext d p n s).rt = s.rt := rfl
@[simp] theorem setRecvNext_fs : (setRecvNext d p n s).fs = s.fs := rfl
@[simp] theorem setRecvNext_ll : (setRecvNext d p n s).ll = s.ll := rfl
@[simp] theorem setRecvNext_px : (setRecvNext d p n s).px = s.px := rfl
@[simp] theorem setRecvNext_me : (setRecvNext d p n s).me = s.me := rfl
@[simp] theorem setRecvNext_lk : (setRecvNext d p n s).lk = s.lk := rfl
@[simp] theorem setRecvNext_cm : (setRecvNext d p n s).cm = s.cm := rfl
@[simp] theorem setRecvNext_hl : (setRecvNext d p n s).hl = s.hl := rfl
@[simp] theorem setRecvNext_sb : (setRecvNext d p n s).sb = s.sb := rfl
@[simp] theorem setRecvNext_pr : (setRecvNext d p n s).pr = s.pr := rfl
@[simp] theorem setRecvNext_rs : (setRecvNext d p n s).rs = s.rs := rfl
@[simp] theorem setRecvNext_ms : (setRecvNext d p n s).ms = s.ms := rfl
@[simp] theorem setRecvNext_fc : (setRecvNext d p n s).fc = s.fc := rfl
@[simp] theorem setRecvNext_cnt : (setRecvNext d p n s).cnt = s.cnt := rfl
@[simp] theorem setRecvNext_work : (setRecvNext d p n s).work = s.work := rfl
@[simp] theorem setRecvNext_out : (setRecvNext d p n s).out = s.out := rfl
@[simp] theorem setRecvNext_free : (setRecvNext d p n s).free = s.free := rfl
@[simp] theorem setRecvNext_pending : (setRecvNext d p n s).pending = s.pending := rfl
end

/-! ### `setDom` -/

section
variable (d : Nat) (f : Domain → Domain) (s : State)
@[simp] theorem setDom_tb : (setDom d f s).tb = s.tb := rfl
@[simp] theorem setDom_od : (setDom d f s).od = s.od := rfl
@[simp] theorem setDom_qm : (setDom d f s).qm = s.qm := rfl
@[simp] theorem setDom_ra : (setDom d f s).ra = s.ra := rfl
@[simp] theorem setDom_ce : (setDom d f s).ce = s.ce := rfl
@[simp] theorem setDom_tu : (setDom d f s).tu = s.tu := rfl
@[simp] theorem setDom_rt : (setDom d f s).rt = s.rt := rfl
@[simp] theorem setDom_fs : (setDom d f s).fs = s.fs := rfl
@[simp] theorem setDom_ll : (setDom d f s).ll = s.ll := rfl
@[simp] theorem setDom_px : (setDom d f s).px = s.px := rfl
@[simp] theorem setDom_me : (setDom d f s).me = s.me := rfl
@[simp] theorem setDom_lk : (setDom d f s).lk = s.lk := rfl
@[simp] theorem setDom_cm : (setDom d f s).cm = s.cm := rfl
@[simp] theorem setDom_hl : (setDom d f s).hl = s.hl := rfl
@[simp] theorem setDom_sb : (setDom d f s).sb = s.sb := rfl
@[simp] theorem setDom_pr : (setDom d f s).pr = s.pr := rfl
@[simp] theorem setDom_rs : (setDom d f s).rs = s.rs := rfl
@[simp] theorem setDom_ms : (setDom d f s).ms = s.ms := rfl
@[simp] theorem setDom_fc : (setDom d f s).fc = s.fc := rfl
@[simp] theorem setDom_cnt : (setDom d f s).cnt = s.cnt := rfl
@[simp] theorem setDom_work : (setDom d f s).work = s.work := rfl
@[simp] theorem setDom_out : (setDom d f s).out = s.out := rfl
@[simp] theorem setDom_free : (setDom d f s).free = s.free := rfl
@[simp] theorem setDom_pending : (setDom d f s).pending = s.pending := rfl
end

/-! ### `setPlacing` -/

section
variable (pid : Nat) (f : Placing → Placing) (s : State)
@[simp] theorem setPlacing_tb : (setPlacing pid f s).tb = s.tb := rfl
@[simp] theorem setPlacing_od : (setPlacing pid f s).od = s.od := rfl
@[simp] theorem setPlacing_qm : (setPlacing pid f s).qm = s.qm := rfl
@[simp] theorem setPlacing_ra : (setPlacing pid f s).ra = s.ra := rfl
@[simp] theorem setPlacing_ce : (setPlacing pid f s).ce = s.ce := rfl
@[simp] theorem setPlacing_tu : (setPlacing pid f s).tu = s.tu := rfl
@[simp] theorem setPlacing_rt : (setPlacing pid f s).rt = s.rt := rfl
@[simp] theorem setPlacing_fs : (setPlacing pid f s).fs = s.fs := rfl
@[simp] theorem setPlacing_ll : (setPlacing pid f s).ll = s.ll := rfl
@[simp] theorem setPlacing_px : (setPlacing pid f s).px = s.px := rfl
@[simp] theorem setPlacing_me : (setPlacing pid f s).me = s.me := rfl
@[simp] theorem setPlacing_lk : (setPlacing pid f s).lk = s.lk := rfl
@[simp] theorem setPlacing_cm : (setPlacing pid f s).cm = s.cm := rfl
@[simp] theorem setPlacing_hl : (setPlacing pid f s).hl = s.hl := rfl
@[simp] theorem setPlacing_sb : (setPlacing pid f s).sb = s.sb := rfl
@[simp] theorem setPlacing_pr : (setPlacing pid f s).pr = s.pr := rfl
@[simp] theorem setPlacing_rs : (setPlacing pid f s).rs = s.rs := rfl
@[simp] theorem setPlacing_ms : (setPlacing pid f s).ms = s.ms := rfl
@[simp] theorem setPlacing_fc : (setPlacing pid f s).fc = s.fc := rfl
@[simp] theorem setPlacing_cnt : (setPlacing pid f s).cnt = s.cnt := rfl
@[simp] theorem setPlacing_work : (setPlacing pid f s).work = s.work := rfl
@[simp] theorem setPlacing_out : (setPlacing pid f s).out = s.out := rfl
@[simp] theorem setPlacing_free : (setPlacing pid f s).free = s.free := rfl
@[simp] theorem setPlacing_pending : (setPlacing pid f s).pending = s.pending := rfl
end

/-! ### `setPort` -/

section
variable (p : Nat) (f : PortRoute → PortRoute) (s : State)
@[simp] theorem setPort_tb : (setPort p f s).tb = s.tb := rfl
@[simp] theorem setPort_od : (setPort p f s).od = s.od := rfl
@[simp] theorem setPort_qm : (setPort p f s).qm = s.qm := rfl
@[simp] theorem setPort_mu : (setPort p f s).mu = s.mu := rfl
@[simp] theorem setPort_ra : (setPort p f s).ra = s.ra := rfl
@[simp] theorem setPort_ce : (setPort p f s).ce = s.ce := rfl
@[simp] theorem setPort_tu : (setPort p f s).tu = s.tu := rfl
@[simp] theorem setPort_fs : (setPort p f s).fs = s.fs := rfl
@[simp] theorem setPort_ll : (setPort p f s).ll = s.ll := rfl
@[simp] theorem setPort_px : (setPort p f s).px = s.px := rfl
@[simp] theorem setPort_me : (setPort p f s).me = s.me := rfl
@[simp] theorem setPort_lk : (setPort p f s).lk = s.lk := rfl
@[simp] theorem setPort_cm : (setPort p f s).cm = s.cm := rfl
@[simp] theorem setPort_hl : (setPort p f s).hl = s.hl := rfl
@[simp] theorem setPort_sb : (setPort p f s).sb = s.sb := rfl
@[simp] theorem setPort_pr : (setPort p f s).pr = s.pr := rfl
@[simp] theorem setPort_rs : (setPort p f s).rs = s.rs := rfl
@[simp] theorem setPort_ms : (setPort p f s).ms = s.ms := rfl
@[simp] theorem setPort_fc : (setPort p f s).fc = s.fc := rfl
@[simp] theorem setPort_cnt : (setPort p f s).cnt = s.cnt := rfl
@[simp] theorem setPort_work : (setPort p f s).work = s.work := rfl
@[simp] theorem setPort_out : (setPort p f s).out = s.out := rfl
@[simp] theorem setPort_free : (setPort p f s).free = s.free := rfl
@[simp] theorem setPort_pending : (setPort p f s).pending = s.pending := rfl
end

/-! ### `setOlane` -/

section
variable (l : Nat) (f : OLane → OLane) (s : State)
@[simp] theorem setOlane_tb : (setOlane l f s).tb = s.tb := rfl
@[simp] theorem setOlane_od : (setOlane l f s).od = s.od := rfl
@[simp] theorem setOlane_qm : (setOlane l f s).qm = s.qm := rfl
@[simp] theorem setOlane_mu : (setOlane l f s).mu = s.mu := rfl
@[simp] theorem setOlane_ra : (setOlane l f s).ra = s.ra := rfl
@[simp] theorem setOlane_ce : (setOlane l f s).ce = s.ce := rfl
@[simp] theorem setOlane_tu : (setOlane l f s).tu = s.tu := rfl
@[simp] theorem setOlane_fs : (setOlane l f s).fs = s.fs := rfl
@[simp] theorem setOlane_ll : (setOlane l f s).ll = s.ll := rfl
@[simp] theorem setOlane_px : (setOlane l f s).px = s.px := rfl
@[simp] theorem setOlane_me : (setOlane l f s).me = s.me := rfl
@[simp] theorem setOlane_lk : (setOlane l f s).lk = s.lk := rfl
@[simp] theorem setOlane_cm : (setOlane l f s).cm = s.cm := rfl
@[simp] theorem setOlane_hl : (setOlane l f s).hl = s.hl := rfl
@[simp] theorem setOlane_sb : (setOlane l f s).sb = s.sb := rfl
@[simp] theorem setOlane_pr : (setOlane l f s).pr = s.pr := rfl
@[simp] theorem setOlane_rs : (setOlane l f s).rs = s.rs := rfl
@[simp] theorem setOlane_ms : (setOlane l f s).ms = s.ms := rfl
@[simp] theorem setOlane_fc : (setOlane l f s).fc = s.fc := rfl
@[simp] theorem setOlane_cnt : (setOlane l f s).cnt = s.cnt := rfl
@[simp] theorem setOlane_work : (setOlane l f s).work = s.work := rfl
@[simp] theorem setOlane_out : (setOlane l f s).out = s.out := rfl
@[simp] theorem setOlane_free : (setOlane l f s).free = s.free := rfl
@[simp] theorem setOlane_pending : (setOlane l f s).pending = s.pending := rfl
end

/-! ### `setLaneEntries` -/

section
variable (f : List LaneEntry → List LaneEntry) (s : State)
@[simp] theorem setLaneEntries_tb : (setLaneEntries f s).tb = s.tb := rfl
@[simp] theorem setLaneEntries_od : (setLaneEntries f s).od = s.od := rfl
@[simp] theorem setLaneEntries_qm : (setLaneEntries f s).qm = s.qm := rfl
@[simp] theorem setLaneEntries_mu : (setLaneEntries f s).mu = s.mu := rfl
@[simp] theorem setLaneEntries_ra : (setLaneEntries f s).ra = s.ra := rfl
@[simp] theorem setLaneEntries_ce : (setLaneEntries f s).ce = s.ce := rfl
@[simp] theorem setLaneEntries_tu : (setLaneEntries f s).tu = s.tu := rfl
@[simp] theorem setLaneEntries_fs : (setLaneEntries f s).fs = s.fs := rfl
@[simp] theorem setLaneEntries_ll : (setLaneEntries f s).ll = s.ll := rfl
@[simp] theorem setLaneEntries_px : (setLaneEntries f s).px = s.px := rfl
@[simp] theorem setLaneEntries_me : (setLaneEntries f s).me = s.me := rfl
@[simp] theorem setLaneEntries_lk : (setLaneEntries f s).lk = s.lk := rfl
@[simp] theorem setLaneEntries_cm : (setLaneEntries f s).cm = s.cm := rfl
@[simp] theorem setLaneEntries_hl : (setLaneEntries f s).hl = s.hl := rfl
@[simp] theorem setLaneEntries_sb : (setLaneEntries f s).sb = s.sb := rfl
@[simp] theorem setLaneEntries_pr : (setLaneEntries f s).pr = s.pr := rfl
@[simp] theorem setLaneEntries_rs : (setLaneEntries f s).rs = s.rs := rfl
@[simp] theorem setLaneEntries_ms : (setLaneEntries f s).ms = s.ms := rfl
@[simp] theorem setLaneEntries_fc : (setLaneEntries f s).fc = s.fc := rfl
@[simp] theorem setLaneEntries_cnt : (setLaneEntries f s).cnt = s.cnt := rfl
@[simp] theorem setLaneEntries_work : (setLaneEntries f s).work = s.work := rfl
@[simp] theorem setLaneEntries_out : (setLaneEntries f s).out = s.out := rfl
@[simp] theorem setLaneEntries_free : (setLaneEntries f s).free = s.free := rfl
@[simp] theorem setLaneEntries_pending : (setLaneEntries f s).pending = s.pending := rfl
end

/-! ### `setFlow` -/

section
variable (p : Nat) (f : PortFlow → PortFlow) (s : State)
@[simp] theorem setFlow_tb : (setFlow p f s).tb = s.tb := rfl
@[simp] theorem setFlow_od : (setFlow p f s).od = s.od := rfl
@[simp] theorem setFlow_qm : (setFlow p f s).qm = s.qm := rfl
@[simp] theorem setFlow_mu : (setFlow p f s).mu = s.mu := rfl
@[simp] theorem setFlow_ra : (setFlow p f s).ra = s.ra := rfl
@[simp] theorem setFlow_ce : (setFlow p f s).ce = s.ce := rfl
@[simp] theorem setFlow_tu : (setFlow p f s).tu = s.tu := rfl
@[simp] theorem setFlow_rt : (setFlow p f s).rt = s.rt := rfl
@[simp] theorem setFlow_ll : (setFlow p f s).ll = s.ll := rfl
@[simp] theorem setFlow_px : (setFlow p f s).px = s.px := rfl
@[simp] theorem setFlow_me : (setFlow p f s).me = s.me := rfl
@[simp] theorem setFlow_lk : (setFlow p f s).lk = s.lk := rfl
@[simp] theorem setFlow_cm : (setFlow p f s).cm = s.cm := rfl
@[simp] theorem setFlow_hl : (setFlow p f s).hl = s.hl := rfl
@[simp] theorem setFlow_sb : (setFlow p f s).sb = s.sb := rfl
@[simp] theorem setFlow_pr : (setFlow p f s).pr = s.pr := rfl
@[simp] theorem setFlow_rs : (setFlow p f s).rs = s.rs := rfl
@[simp] theorem setFlow_ms : (setFlow p f s).ms = s.ms := rfl
@[simp] theorem setFlow_fc : (setFlow p f s).fc = s.fc := rfl
@[simp] theorem setFlow_cnt : (setFlow p f s).cnt = s.cnt := rfl
@[simp] theorem setFlow_work : (setFlow p f s).work = s.work := rfl
@[simp] theorem setFlow_out : (setFlow p f s).out = s.out := rfl
@[simp] theorem setFlow_free : (setFlow p f s).free = s.free := rfl
@[simp] theorem setFlow_pending : (setFlow p f s).pending = s.pending := rfl
end

/-! ### `setPL` -/

section
variable (p : Nat) (f : PortLink → PortLink) (s : State)
@[simp] theorem setPL_tb : (setPL p f s).tb = s.tb := rfl
@[simp] theorem setPL_od : (setPL p f s).od = s.od := rfl
@[simp] theorem setPL_qm : (setPL p f s).qm = s.qm := rfl
@[simp] theorem setPL_mu : (setPL p f s).mu = s.mu := rfl
@[simp] theorem setPL_ra : (setPL p f s).ra = s.ra := rfl
@[simp] theorem setPL_ce : (setPL p f s).ce = s.ce := rfl
@[simp] theorem setPL_tu : (setPL p f s).tu = s.tu := rfl
@[simp] theorem setPL_rt : (setPL p f s).rt = s.rt := rfl
@[simp] theorem setPL_fs : (setPL p f s).fs = s.fs := rfl
@[simp] theorem setPL_px : (setPL p f s).px = s.px := rfl
@[simp] theorem setPL_me : (setPL p f s).me = s.me := rfl
@[simp] theorem setPL_lk : (setPL p f s).lk = s.lk := rfl
@[simp] theorem setPL_cm : (setPL p f s).cm = s.cm := rfl
@[simp] theorem setPL_hl : (setPL p f s).hl = s.hl := rfl
@[simp] theorem setPL_sb : (setPL p f s).sb = s.sb := rfl
@[simp] theorem setPL_pr : (setPL p f s).pr = s.pr := rfl
@[simp] theorem setPL_rs : (setPL p f s).rs = s.rs := rfl
@[simp] theorem setPL_ms : (setPL p f s).ms = s.ms := rfl
@[simp] theorem setPL_fc : (setPL p f s).fc = s.fc := rfl
@[simp] theorem setPL_cnt : (setPL p f s).cnt = s.cnt := rfl
@[simp] theorem setPL_work : (setPL p f s).work = s.work := rfl
@[simp] theorem setPL_out : (setPL p f s).out = s.out := rfl
@[simp] theorem setPL_free : (setPL p f s).free = s.free := rfl
@[simp] theorem setPL_pending : (setPL p f s).pending = s.pending := rfl
end

/-! ### `setLanes` -/

section
variable (p : Nat) (f : PortLanes → PortLanes) (s : State)
@[simp] theorem setLanes_tb : (setLanes p f s).tb = s.tb := rfl
@[simp] theorem setLanes_od : (setLanes p f s).od = s.od := rfl
@[simp] theorem setLanes_qm : (setLanes p f s).qm = s.qm := rfl
@[simp] theorem setLanes_mu : (setLanes p f s).mu = s.mu := rfl
@[simp] theorem setLanes_ra : (setLanes p f s).ra = s.ra := rfl
@[simp] theorem setLanes_ce : (setLanes p f s).ce = s.ce := rfl
@[simp] theorem setLanes_tu : (setLanes p f s).tu = s.tu := rfl
@[simp] theorem setLanes_rt : (setLanes p f s).rt = s.rt := rfl
@[simp] theorem setLanes_fs : (setLanes p f s).fs = s.fs := rfl
@[simp] theorem setLanes_ll : (setLanes p f s).ll = s.ll := rfl
@[simp] theorem setLanes_me : (setLanes p f s).me = s.me := rfl
@[simp] theorem setLanes_lk : (setLanes p f s).lk = s.lk := rfl
@[simp] theorem setLanes_cm : (setLanes p f s).cm = s.cm := rfl
@[simp] theorem setLanes_hl : (setLanes p f s).hl = s.hl := rfl
@[simp] theorem setLanes_sb : (setLanes p f s).sb = s.sb := rfl
@[simp] theorem setLanes_pr : (setLanes p f s).pr = s.pr := rfl
@[simp] theorem setLanes_rs : (setLanes p f s).rs = s.rs := rfl
@[simp] theorem setLanes_ms : (setLanes p f s).ms = s.ms := rfl
@[simp] theorem setLanes_fc : (setLanes p f s).fc = s.fc := rfl
@[simp] theorem setLanes_cnt : (setLanes p f s).cnt = s.cnt := rfl
@[simp] theorem setLanes_work : (setLanes p f s).work = s.work := rfl
@[simp] theorem setLanes_out : (setLanes p f s).out = s.out := rfl
@[simp] theorem setLanes_free : (setLanes p f s).free = s.free := rfl
@[simp] theorem setLanes_pending : (setLanes p f s).pending = s.pending := rfl
end

/-! ### `setScan` -/

section
variable (k : Nat) (f : EyeScan → EyeScan) (s : State)
@[simp] theorem setScan_tb : (setScan k f s).tb = s.tb := rfl
@[simp] theorem setScan_od : (setScan k f s).od = s.od := rfl
@[simp] theorem setScan_qm : (setScan k f s).qm = s.qm := rfl
@[simp] theorem setScan_mu : (setScan k f s).mu = s.mu := rfl
@[simp] theorem setScan_ra : (setScan k f s).ra = s.ra := rfl
@[simp] theorem setScan_ce : (setScan k f s).ce = s.ce := rfl
@[simp] theorem setScan_tu : (setScan k f s).tu = s.tu := rfl
@[simp] theorem setScan_rt : (setScan k f s).rt = s.rt := rfl
@[simp] theorem setScan_fs : (setScan k f s).fs = s.fs := rfl
@[simp] theorem setScan_ll : (setScan k f s).ll = s.ll := rfl
@[simp] theorem setScan_me : (setScan k f s).me = s.me := rfl
@[simp] theorem setScan_lk : (setScan k f s).lk = s.lk := rfl
@[simp] theorem setScan_cm : (setScan k f s).cm = s.cm := rfl
@[simp] theorem setScan_hl : (setScan k f s).hl = s.hl := rfl
@[simp] theorem setScan_sb : (setScan k f s).sb = s.sb := rfl
@[simp] theorem setScan_pr : (setScan k f s).pr = s.pr := rfl
@[simp] theorem setScan_rs : (setScan k f s).rs = s.rs := rfl
@[simp] theorem setScan_ms : (setScan k f s).ms = s.ms := rfl
@[simp] theorem setScan_fc : (setScan k f s).fc = s.fc := rfl
@[simp] theorem setScan_cnt : (setScan k f s).cnt = s.cnt := rfl
@[simp] theorem setScan_work : (setScan k f s).work = s.work := rfl
@[simp] theorem setScan_out : (setScan k f s).out = s.out := rfl
@[simp] theorem setScan_free : (setScan k f s).free = s.free := rfl
@[simp] theorem setScan_pending : (setScan k f s).pending = s.pending := rfl
end

/-! ### `setEngine` -/

section
variable (e : Nat) (f : Engine → Engine) (s : State)
@[simp] theorem setEngine_tb : (setEngine e f s).tb = s.tb := rfl
@[simp] theorem setEngine_od : (setEngine e f s).od = s.od := rfl
@[simp] theorem setEngine_qm : (setEngine e f s).qm = s.qm := rfl
@[simp] theorem setEngine_mu : (setEngine e f s).mu = s.mu := rfl
@[simp] theorem setEngine_ra : (setEngine e f s).ra = s.ra := rfl
@[simp] theorem setEngine_ce : (setEngine e f s).ce = s.ce := rfl
@[simp] theorem setEngine_tu : (setEngine e f s).tu = s.tu := rfl
@[simp] theorem setEngine_rt : (setEngine e f s).rt = s.rt := rfl
@[simp] theorem setEngine_fs : (setEngine e f s).fs = s.fs := rfl
@[simp] theorem setEngine_ll : (setEngine e f s).ll = s.ll := rfl
@[simp] theorem setEngine_px : (setEngine e f s).px = s.px := rfl
@[simp] theorem setEngine_lk : (setEngine e f s).lk = s.lk := rfl
@[simp] theorem setEngine_cm : (setEngine e f s).cm = s.cm := rfl
@[simp] theorem setEngine_hl : (setEngine e f s).hl = s.hl := rfl
@[simp] theorem setEngine_sb : (setEngine e f s).sb = s.sb := rfl
@[simp] theorem setEngine_pr : (setEngine e f s).pr = s.pr := rfl
@[simp] theorem setEngine_rs : (setEngine e f s).rs = s.rs := rfl
@[simp] theorem setEngine_ms : (setEngine e f s).ms = s.ms := rfl
@[simp] theorem setEngine_fc : (setEngine e f s).fc = s.fc := rfl
@[simp] theorem setEngine_cnt : (setEngine e f s).cnt = s.cnt := rfl
@[simp] theorem setEngine_work : (setEngine e f s).work = s.work := rfl
@[simp] theorem setEngine_out : (setEngine e f s).out = s.out := rfl
@[simp] theorem setEngine_free : (setEngine e f s).free = s.free := rfl
@[simp] theorem setEngine_pending : (setEngine e f s).pending = s.pending := rfl
end

/-! ### `setCtx` -/

section
variable (e c : Nat) (f : ECtx → ECtx) (s : State)
@[simp] theorem setCtx_tb : (setCtx e c f s).tb = s.tb := rfl
@[simp] theorem setCtx_od : (setCtx e c f s).od = s.od := rfl
@[simp] theorem setCtx_qm : (setCtx e c f s).qm = s.qm := rfl
@[simp] theorem setCtx_mu : (setCtx e c f s).mu = s.mu := rfl
@[simp] theorem setCtx_ra : (setCtx e c f s).ra = s.ra := rfl
@[simp] theorem setCtx_ce : (setCtx e c f s).ce = s.ce := rfl
@[simp] theorem setCtx_tu : (setCtx e c f s).tu = s.tu := rfl
@[simp] theorem setCtx_rt : (setCtx e c f s).rt = s.rt := rfl
@[simp] theorem setCtx_fs : (setCtx e c f s).fs = s.fs := rfl
@[simp] theorem setCtx_ll : (setCtx e c f s).ll = s.ll := rfl
@[simp] theorem setCtx_px : (setCtx e c f s).px = s.px := rfl
@[simp] theorem setCtx_lk : (setCtx e c f s).lk = s.lk := rfl
@[simp] theorem setCtx_cm : (setCtx e c f s).cm = s.cm := rfl
@[simp] theorem setCtx_hl : (setCtx e c f s).hl = s.hl := rfl
@[simp] theorem setCtx_sb : (setCtx e c f s).sb = s.sb := rfl
@[simp] theorem setCtx_pr : (setCtx e c f s).pr = s.pr := rfl
@[simp] theorem setCtx_rs : (setCtx e c f s).rs = s.rs := rfl
@[simp] theorem setCtx_ms : (setCtx e c f s).ms = s.ms := rfl
@[simp] theorem setCtx_fc : (setCtx e c f s).fc = s.fc := rfl
@[simp] theorem setCtx_cnt : (setCtx e c f s).cnt = s.cnt := rfl
@[simp] theorem setCtx_work : (setCtx e c f s).work = s.work := rfl
@[simp] theorem setCtx_out : (setCtx e c f s).out = s.out := rfl
@[simp] theorem setCtx_free : (setCtx e c f s).free = s.free := rfl
@[simp] theorem setCtx_pending : (setCtx e c f s).pending = s.pending := rfl
end

/-! ### `setReg` -/

section
variable (e c r : Nat) (v : Word64) (s : State)
@[simp] theorem setReg_tb : (setReg e c r v s).tb = s.tb := rfl
@[simp] theorem setReg_od : (setReg e c r v s).od = s.od := rfl
@[simp] theorem setReg_qm : (setReg e c r v s).qm = s.qm := rfl
@[simp] theorem setReg_mu : (setReg e c r v s).mu = s.mu := rfl
@[simp] theorem setReg_ra : (setReg e c r v s).ra = s.ra := rfl
@[simp] theorem setReg_ce : (setReg e c r v s).ce = s.ce := rfl
@[simp] theorem setReg_tu : (setReg e c r v s).tu = s.tu := rfl
@[simp] theorem setReg_rt : (setReg e c r v s).rt = s.rt := rfl
@[simp] theorem setReg_fs : (setReg e c r v s).fs = s.fs := rfl
@[simp] theorem setReg_ll : (setReg e c r v s).ll = s.ll := rfl
@[simp] theorem setReg_px : (setReg e c r v s).px = s.px := rfl
@[simp] theorem setReg_lk : (setReg e c r v s).lk = s.lk := rfl
@[simp] theorem setReg_cm : (setReg e c r v s).cm = s.cm := rfl
@[simp] theorem setReg_hl : (setReg e c r v s).hl = s.hl := rfl
@[simp] theorem setReg_sb : (setReg e c r v s).sb = s.sb := rfl
@[simp] theorem setReg_pr : (setReg e c r v s).pr = s.pr := rfl
@[simp] theorem setReg_rs : (setReg e c r v s).rs = s.rs := rfl
@[simp] theorem setReg_ms : (setReg e c r v s).ms = s.ms := rfl
@[simp] theorem setReg_fc : (setReg e c r v s).fc = s.fc := rfl
@[simp] theorem setReg_cnt : (setReg e c r v s).cnt = s.cnt := rfl
@[simp] theorem setReg_work : (setReg e c r v s).work = s.work := rfl
@[simp] theorem setReg_out : (setReg e c r v s).out = s.out := rfl
@[simp] theorem setReg_free : (setReg e c r v s).free = s.free := rfl
@[simp] theorem setReg_pending : (setReg e c r v s).pending = s.pending := rfl
end

/-! ### `setActStatus` -/

section
variable (f : ActStatus → ActStatus) (s : State)
@[simp] theorem setActStatus_tb : (setActStatus f s).tb = s.tb := rfl
@[simp] theorem setActStatus_od : (setActStatus f s).od = s.od := rfl
@[simp] theorem setActStatus_qm : (setActStatus f s).qm = s.qm := rfl
@[simp] theorem setActStatus_mu : (setActStatus f s).mu = s.mu := rfl
@[simp] theorem setActStatus_ra : (setActStatus f s).ra = s.ra := rfl
@[simp] theorem setActStatus_ce : (setActStatus f s).ce = s.ce := rfl
@[simp] theorem setActStatus_tu : (setActStatus f s).tu = s.tu := rfl
@[simp] theorem setActStatus_rt : (setActStatus f s).rt = s.rt := rfl
@[simp] theorem setActStatus_fs : (setActStatus f s).fs = s.fs := rfl
@[simp] theorem setActStatus_ll : (setActStatus f s).ll = s.ll := rfl
@[simp] theorem setActStatus_px : (setActStatus f s).px = s.px := rfl
@[simp] theorem setActStatus_lk : (setActStatus f s).lk = s.lk := rfl
@[simp] theorem setActStatus_cm : (setActStatus f s).cm = s.cm := rfl
@[simp] theorem setActStatus_hl : (setActStatus f s).hl = s.hl := rfl
@[simp] theorem setActStatus_sb : (setActStatus f s).sb = s.sb := rfl
@[simp] theorem setActStatus_pr : (setActStatus f s).pr = s.pr := rfl
@[simp] theorem setActStatus_rs : (setActStatus f s).rs = s.rs := rfl
@[simp] theorem setActStatus_ms : (setActStatus f s).ms = s.ms := rfl
@[simp] theorem setActStatus_fc : (setActStatus f s).fc = s.fc := rfl
@[simp] theorem setActStatus_cnt : (setActStatus f s).cnt = s.cnt := rfl
@[simp] theorem setActStatus_work : (setActStatus f s).work = s.work := rfl
@[simp] theorem setActStatus_out : (setActStatus f s).out = s.out := rfl
@[simp] theorem setActStatus_free : (setActStatus f s).free = s.free := rfl
@[simp] theorem setActStatus_pending : (setActStatus f s).pending = s.pending := rfl
end

/-! ### `setFar` -/

section
variable (far : Nat) (g : FarLane → FarLane) (s : State)
@[simp] theorem setFar_tb : (setFar far g s).tb = s.tb := rfl
@[simp] theorem setFar_od : (setFar far g s).od = s.od := rfl
@[simp] theorem setFar_qm : (setFar far g s).qm = s.qm := rfl
@[simp] theorem setFar_mu : (setFar far g s).mu = s.mu := rfl
@[simp] theorem setFar_ra : (setFar far g s).ra = s.ra := rfl
@[simp] theorem setFar_ce : (setFar far g s).ce = s.ce := rfl
@[simp] theorem setFar_tu : (setFar far g s).tu = s.tu := rfl
@[simp] theorem setFar_rt : (setFar far g s).rt = s.rt := rfl
@[simp] theorem setFar_fs : (setFar far g s).fs = s.fs := rfl
@[simp] theorem setFar_ll : (setFar far g s).ll = s.ll := rfl
@[simp] theorem setFar_px : (setFar far g s).px = s.px := rfl
@[simp] theorem setFar_lk : (setFar far g s).lk = s.lk := rfl
@[simp] theorem setFar_cm : (setFar far g s).cm = s.cm := rfl
@[simp] theorem setFar_hl : (setFar far g s).hl = s.hl := rfl
@[simp] theorem setFar_sb : (setFar far g s).sb = s.sb := rfl
@[simp] theorem setFar_pr : (setFar far g s).pr = s.pr := rfl
@[simp] theorem setFar_rs : (setFar far g s).rs = s.rs := rfl
@[simp] theorem setFar_ms : (setFar far g s).ms = s.ms := rfl
@[simp] theorem setFar_fc : (setFar far g s).fc = s.fc := rfl
@[simp] theorem setFar_cnt : (setFar far g s).cnt = s.cnt := rfl
@[simp] theorem setFar_work : (setFar far g s).work = s.work := rfl
@[simp] theorem setFar_out : (setFar far g s).out = s.out := rfl
@[simp] theorem setFar_free : (setFar far g s).free = s.free := rfl
@[simp] theorem setFar_pending : (setFar far g s).pending = s.pending := rfl
end

/-! ### `setLock` -/

section
variable (l : Nat) (f : Lock → Lock) (s : State)
@[simp] theorem setLock_tb : (setLock l f s).tb = s.tb := rfl
@[simp] theorem setLock_od : (setLock l f s).od = s.od := rfl
@[simp] theorem setLock_qm : (setLock l f s).qm = s.qm := rfl
@[simp] theorem setLock_mu : (setLock l f s).mu = s.mu := rfl
@[simp] theorem setLock_ra : (setLock l f s).ra = s.ra := rfl
@[simp] theorem setLock_ce : (setLock l f s).ce = s.ce := rfl
@[simp] theorem setLock_tu : (setLock l f s).tu = s.tu := rfl
@[simp] theorem setLock_rt : (setLock l f s).rt = s.rt := rfl
@[simp] theorem setLock_fs : (setLock l f s).fs = s.fs := rfl
@[simp] theorem setLock_ll : (setLock l f s).ll = s.ll := rfl
@[simp] theorem setLock_px : (setLock l f s).px = s.px := rfl
@[simp] theorem setLock_me : (setLock l f s).me = s.me := rfl
@[simp] theorem setLock_cm : (setLock l f s).cm = s.cm := rfl
@[simp] theorem setLock_hl : (setLock l f s).hl = s.hl := rfl
@[simp] theorem setLock_sb : (setLock l f s).sb = s.sb := rfl
@[simp] theorem setLock_pr : (setLock l f s).pr = s.pr := rfl
@[simp] theorem setLock_rs : (setLock l f s).rs = s.rs := rfl
@[simp] theorem setLock_ms : (setLock l f s).ms = s.ms := rfl
@[simp] theorem setLock_fc : (setLock l f s).fc = s.fc := rfl
@[simp] theorem setLock_cnt : (setLock l f s).cnt = s.cnt := rfl
@[simp] theorem setLock_work : (setLock l f s).work = s.work := rfl
@[simp] theorem setLock_out : (setLock l f s).out = s.out := rfl
@[simp] theorem setLock_free : (setLock l f s).free = s.free := rfl
@[simp] theorem setLock_pending : (setLock l f s).pending = s.pending := rfl
end

/-! ### `setStack` -/

section
variable (k : Nat) (f : Stack → Stack) (s : State)
@[simp] theorem setStack_tb : (setStack k f s).tb = s.tb := rfl
@[simp] theorem setStack_od : (setStack k f s).od = s.od := rfl
@[simp] theorem setStack_qm : (setStack k f s).qm = s.qm := rfl
@[simp] theorem setStack_mu : (setStack k f s).mu = s.mu := rfl
@[simp] theorem setStack_ra : (setStack k f s).ra = s.ra := rfl
@[simp] theorem setStack_ce : (setStack k f s).ce = s.ce := rfl
@[simp] theorem setStack_tu : (setStack k f s).tu = s.tu := rfl
@[simp] theorem setStack_rt : (setStack k f s).rt = s.rt := rfl
@[simp] theorem setStack_fs : (setStack k f s).fs = s.fs := rfl
@[simp] theorem setStack_ll : (setStack k f s).ll = s.ll := rfl
@[simp] theorem setStack_px : (setStack k f s).px = s.px := rfl
@[simp] theorem setStack_me : (setStack k f s).me = s.me := rfl
@[simp] theorem setStack_lk : (setStack k f s).lk = s.lk := rfl
@[simp] theorem setStack_hl : (setStack k f s).hl = s.hl := rfl
@[simp] theorem setStack_sb : (setStack k f s).sb = s.sb := rfl
@[simp] theorem setStack_pr : (setStack k f s).pr = s.pr := rfl
@[simp] theorem setStack_rs : (setStack k f s).rs = s.rs := rfl
@[simp] theorem setStack_ms : (setStack k f s).ms = s.ms := rfl
@[simp] theorem setStack_fc : (setStack k f s).fc = s.fc := rfl
@[simp] theorem setStack_cnt : (setStack k f s).cnt = s.cnt := rfl
@[simp] theorem setStack_work : (setStack k f s).work = s.work := rfl
@[simp] theorem setStack_out : (setStack k f s).out = s.out := rfl
@[simp] theorem setStack_free : (setStack k f s).free = s.free := rfl
@[simp] theorem setStack_pending : (setStack k f s).pending = s.pending := rfl
end

/-! ### `setFn` -/

section
variable (fn : Nat) (f : HostFn → HostFn) (s : State)
@[simp] theorem setFn_tb : (setFn fn f s).tb = s.tb := rfl
@[simp] theorem setFn_od : (setFn fn f s).od = s.od := rfl
@[simp] theorem setFn_qm : (setFn fn f s).qm = s.qm := rfl
@[simp] theorem setFn_mu : (setFn fn f s).mu = s.mu := rfl
@[simp] theorem setFn_ra : (setFn fn f s).ra = s.ra := rfl
@[simp] theorem setFn_ce : (setFn fn f s).ce = s.ce := rfl
@[simp] theorem setFn_tu : (setFn fn f s).tu = s.tu := rfl
@[simp] theorem setFn_rt : (setFn fn f s).rt = s.rt := rfl
@[simp] theorem setFn_fs : (setFn fn f s).fs = s.fs := rfl
@[simp] theorem setFn_ll : (setFn fn f s).ll = s.ll := rfl
@[simp] theorem setFn_px : (setFn fn f s).px = s.px := rfl
@[simp] theorem setFn_me : (setFn fn f s).me = s.me := rfl
@[simp] theorem setFn_lk : (setFn fn f s).lk = s.lk := rfl
@[simp] theorem setFn_cm : (setFn fn f s).cm = s.cm := rfl
@[simp] theorem setFn_sb : (setFn fn f s).sb = s.sb := rfl
@[simp] theorem setFn_pr : (setFn fn f s).pr = s.pr := rfl
@[simp] theorem setFn_rs : (setFn fn f s).rs = s.rs := rfl
@[simp] theorem setFn_ms : (setFn fn f s).ms = s.ms := rfl
@[simp] theorem setFn_fc : (setFn fn f s).fc = s.fc := rfl
@[simp] theorem setFn_cnt : (setFn fn f s).cnt = s.cnt := rfl
@[simp] theorem setFn_work : (setFn fn f s).work = s.work := rfl
@[simp] theorem setFn_out : (setFn fn f s).out = s.out := rfl
@[simp] theorem setFn_free : (setFn fn f s).free = s.free := rfl
@[simp] theorem setFn_pending : (setFn fn f s).pending = s.pending := rfl
end

/-! ### `setLink` -/

section
variable (k : Nat) (f : HostLink → HostLink) (s : State)
@[simp] theorem setLink_tb : (setLink k f s).tb = s.tb := rfl
@[simp] theorem setLink_od : (setLink k f s).od = s.od := rfl
@[simp] theorem setLink_qm : (setLink k f s).qm = s.qm := rfl
@[simp] theorem setLink_mu : (setLink k f s).mu = s.mu := rfl
@[simp] theorem setLink_ra : (setLink k f s).ra = s.ra := rfl
@[simp] theorem setLink_ce : (setLink k f s).ce = s.ce := rfl
@[simp] theorem setLink_tu : (setLink k f s).tu = s.tu := rfl
@[simp] theorem setLink_rt : (setLink k f s).rt = s.rt := rfl
@[simp] theorem setLink_fs : (setLink k f s).fs = s.fs := rfl
@[simp] theorem setLink_ll : (setLink k f s).ll = s.ll := rfl
@[simp] theorem setLink_px : (setLink k f s).px = s.px := rfl
@[simp] theorem setLink_me : (setLink k f s).me = s.me := rfl
@[simp] theorem setLink_lk : (setLink k f s).lk = s.lk := rfl
@[simp] theorem setLink_cm : (setLink k f s).cm = s.cm := rfl
@[simp] theorem setLink_sb : (setLink k f s).sb = s.sb := rfl
@[simp] theorem setLink_pr : (setLink k f s).pr = s.pr := rfl
@[simp] theorem setLink_rs : (setLink k f s).rs = s.rs := rfl
@[simp] theorem setLink_ms : (setLink k f s).ms = s.ms := rfl
@[simp] theorem setLink_fc : (setLink k f s).fc = s.fc := rfl
@[simp] theorem setLink_cnt : (setLink k f s).cnt = s.cnt := rfl
@[simp] theorem setLink_work : (setLink k f s).work = s.work := rfl
@[simp] theorem setLink_out : (setLink k f s).out = s.out := rfl
@[simp] theorem setLink_free : (setLink k f s).free = s.free := rfl
@[simp] theorem setLink_pending : (setLink k f s).pending = s.pending := rfl
end

/-! ### `setDomain` -/

section
variable (d : Nat) (v : DomPower) (s : State)
@[simp] theorem setDomain_tb : (setDomain d v s).tb = s.tb := rfl
@[simp] theorem setDomain_od : (setDomain d v s).od = s.od := rfl
@[simp] theorem setDomain_qm : (setDomain d v s).qm = s.qm := rfl
@[simp] theorem setDomain_mu : (setDomain d v s).mu = s.mu := rfl
@[simp] theorem setDomain_ra : (setDomain d v s).ra = s.ra := rfl
@[simp] theorem setDomain_ce : (setDomain d v s).ce = s.ce := rfl
@[simp] theorem setDomain_tu : (setDomain d v s).tu = s.tu := rfl
@[simp] theorem setDomain_rt : (setDomain d v s).rt = s.rt := rfl
@[simp] theorem setDomain_fs : (setDomain d v s).fs = s.fs := rfl
@[simp] theorem setDomain_ll : (setDomain d v s).ll = s.ll := rfl
@[simp] theorem setDomain_px : (setDomain d v s).px = s.px := rfl
@[simp] theorem setDomain_me : (setDomain d v s).me = s.me := rfl
@[simp] theorem setDomain_lk : (setDomain d v s).lk = s.lk := rfl
@[simp] theorem setDomain_cm : (setDomain d v s).cm = s.cm := rfl
@[simp] theorem setDomain_hl : (setDomain d v s).hl = s.hl := rfl
@[simp] theorem setDomain_sb : (setDomain d v s).sb = s.sb := rfl
@[simp] theorem setDomain_rs : (setDomain d v s).rs = s.rs := rfl
@[simp] theorem setDomain_ms : (setDomain d v s).ms = s.ms := rfl
@[simp] theorem setDomain_fc : (setDomain d v s).fc = s.fc := rfl
@[simp] theorem setDomain_cnt : (setDomain d v s).cnt = s.cnt := rfl
@[simp] theorem setDomain_work : (setDomain d v s).work = s.work := rfl
@[simp] theorem setDomain_out : (setDomain d v s).out = s.out := rfl
@[simp] theorem setDomain_free : (setDomain d v s).free = s.free := rfl
@[simp] theorem setDomain_pending : (setDomain d v s).pending = s.pending := rfl
end

/-! ### `setUpdate` -/

section
variable (f : Update → Update) (s : State)
@[simp] theorem setUpdate_tb : (setUpdate f s).tb = s.tb := rfl
@[simp] theorem setUpdate_od : (setUpdate f s).od = s.od := rfl
@[simp] theorem setUpdate_qm : (setUpdate f s).qm = s.qm := rfl
@[simp] theorem setUpdate_mu : (setUpdate f s).mu = s.mu := rfl
@[simp] theorem setUpdate_ra : (setUpdate f s).ra = s.ra := rfl
@[simp] theorem setUpdate_ce : (setUpdate f s).ce = s.ce := rfl
@[simp] theorem setUpdate_tu : (setUpdate f s).tu = s.tu := rfl
@[simp] theorem setUpdate_rt : (setUpdate f s).rt = s.rt := rfl
@[simp] theorem setUpdate_fs : (setUpdate f s).fs = s.fs := rfl
@[simp] theorem setUpdate_ll : (setUpdate f s).ll = s.ll := rfl
@[simp] theorem setUpdate_px : (setUpdate f s).px = s.px := rfl
@[simp] theorem setUpdate_me : (setUpdate f s).me = s.me := rfl
@[simp] theorem setUpdate_lk : (setUpdate f s).lk = s.lk := rfl
@[simp] theorem setUpdate_cm : (setUpdate f s).cm = s.cm := rfl
@[simp] theorem setUpdate_hl : (setUpdate f s).hl = s.hl := rfl
@[simp] theorem setUpdate_sb : (setUpdate f s).sb = s.sb := rfl
@[simp] theorem setUpdate_pr : (setUpdate f s).pr = s.pr := rfl
@[simp] theorem setUpdate_rs : (setUpdate f s).rs = s.rs := rfl
@[simp] theorem setUpdate_fc : (setUpdate f s).fc = s.fc := rfl
@[simp] theorem setUpdate_cnt : (setUpdate f s).cnt = s.cnt := rfl
@[simp] theorem setUpdate_work : (setUpdate f s).work = s.work := rfl
@[simp] theorem setUpdate_out : (setUpdate f s).out = s.out := rfl
@[simp] theorem setUpdate_free : (setUpdate f s).free = s.free := rfl
@[simp] theorem setUpdate_pending : (setUpdate f s).pending = s.pending := rfl
end

/-! ### `setArea` -/

section
variable (t : Nat) (f : ImageArea → ImageArea) (s : State)
@[simp] theorem setArea_tb : (setArea t f s).tb = s.tb := rfl
@[simp] theorem setArea_od : (setArea t f s).od = s.od := rfl
@[simp] theorem setArea_qm : (setArea t f s).qm = s.qm := rfl
@[simp] theorem setArea_mu : (setArea t f s).mu = s.mu := rfl
@[simp] theorem setArea_ra : (setArea t f s).ra = s.ra := rfl
@[simp] theorem setArea_ce : (setArea t f s).ce = s.ce := rfl
@[simp] theorem setArea_tu : (setArea t f s).tu = s.tu := rfl
@[simp] theorem setArea_rt : (setArea t f s).rt = s.rt := rfl
@[simp] theorem setArea_fs : (setArea t f s).fs = s.fs := rfl
@[simp] theorem setArea_ll : (setArea t f s).ll = s.ll := rfl
@[simp] theorem setArea_px : (setArea t f s).px = s.px := rfl
@[simp] theorem setArea_me : (setArea t f s).me = s.me := rfl
@[simp] theorem setArea_lk : (setArea t f s).lk = s.lk := rfl
@[simp] theorem setArea_cm : (setArea t f s).cm = s.cm := rfl
@[simp] theorem setArea_hl : (setArea t f s).hl = s.hl := rfl
@[simp] theorem setArea_sb : (setArea t f s).sb = s.sb := rfl
@[simp] theorem setArea_pr : (setArea t f s).pr = s.pr := rfl
@[simp] theorem setArea_rs : (setArea t f s).rs = s.rs := rfl
@[simp] theorem setArea_fc : (setArea t f s).fc = s.fc := rfl
@[simp] theorem setArea_cnt : (setArea t f s).cnt = s.cnt := rfl
@[simp] theorem setArea_work : (setArea t f s).work = s.work := rfl
@[simp] theorem setArea_out : (setArea t f s).out = s.out := rfl
@[simp] theorem setArea_free : (setArea t f s).free = s.free := rfl
@[simp] theorem setArea_pending : (setArea t f s).pending = s.pending := rfl
end

/-! ### `setSession` -/

section
variable (k : Nat) (f : Session → Session) (s : State)
@[simp] theorem setSession_tb : (setSession k f s).tb = s.tb := rfl
@[simp] theorem setSession_qm : (setSession k f s).qm = s.qm := rfl
@[simp] theorem setSession_mu : (setSession k f s).mu = s.mu := rfl
@[simp] theorem setSession_ra : (setSession k f s).ra = s.ra := rfl
@[simp] theorem setSession_ce : (setSession k f s).ce = s.ce := rfl
@[simp] theorem setSession_tu : (setSession k f s).tu = s.tu := rfl
@[simp] theorem setSession_rt : (setSession k f s).rt = s.rt := rfl
@[simp] theorem setSession_fs : (setSession k f s).fs = s.fs := rfl
@[simp] theorem setSession_ll : (setSession k f s).ll = s.ll := rfl
@[simp] theorem setSession_px : (setSession k f s).px = s.px := rfl
@[simp] theorem setSession_me : (setSession k f s).me = s.me := rfl
@[simp] theorem setSession_lk : (setSession k f s).lk = s.lk := rfl
@[simp] theorem setSession_cm : (setSession k f s).cm = s.cm := rfl
@[simp] theorem setSession_hl : (setSession k f s).hl = s.hl := rfl
@[simp] theorem setSession_sb : (setSession k f s).sb = s.sb := rfl
@[simp] theorem setSession_pr : (setSession k f s).pr = s.pr := rfl
@[simp] theorem setSession_rs : (setSession k f s).rs = s.rs := rfl
@[simp] theorem setSession_ms : (setSession k f s).ms = s.ms := rfl
@[simp] theorem setSession_fc : (setSession k f s).fc = s.fc := rfl
@[simp] theorem setSession_cnt : (setSession k f s).cnt = s.cnt := rfl
@[simp] theorem setSession_work : (setSession k f s).work = s.work := rfl
@[simp] theorem setSession_out : (setSession k f s).out = s.out := rfl
@[simp] theorem setSession_free : (setSession k f s).free = s.free := rfl
@[simp] theorem setSession_pending : (setSession k f s).pending = s.pending := rfl
end

/-! ### `setSet` -/

section
variable (n : Nat) (f : CommitSet → CommitSet) (s : State)
@[simp] theorem setSet_tb : (setSet n f s).tb = s.tb := rfl
@[simp] theorem setSet_qm : (setSet n f s).qm = s.qm := rfl
@[simp] theorem setSet_mu : (setSet n f s).mu = s.mu := rfl
@[simp] theorem setSet_ra : (setSet n f s).ra = s.ra := rfl
@[simp] theorem setSet_ce : (setSet n f s).ce = s.ce := rfl
@[simp] theorem setSet_tu : (setSet n f s).tu = s.tu := rfl
@[simp] theorem setSet_rt : (setSet n f s).rt = s.rt := rfl
@[simp] theorem setSet_fs : (setSet n f s).fs = s.fs := rfl
@[simp] theorem setSet_ll : (setSet n f s).ll = s.ll := rfl
@[simp] theorem setSet_px : (setSet n f s).px = s.px := rfl
@[simp] theorem setSet_me : (setSet n f s).me = s.me := rfl
@[simp] theorem setSet_lk : (setSet n f s).lk = s.lk := rfl
@[simp] theorem setSet_cm : (setSet n f s).cm = s.cm := rfl
@[simp] theorem setSet_hl : (setSet n f s).hl = s.hl := rfl
@[simp] theorem setSet_sb : (setSet n f s).sb = s.sb := rfl
@[simp] theorem setSet_pr : (setSet n f s).pr = s.pr := rfl
@[simp] theorem setSet_rs : (setSet n f s).rs = s.rs := rfl
@[simp] theorem setSet_ms : (setSet n f s).ms = s.ms := rfl
@[simp] theorem setSet_fc : (setSet n f s).fc = s.fc := rfl
@[simp] theorem setSet_cnt : (setSet n f s).cnt = s.cnt := rfl
@[simp] theorem setSet_work : (setSet n f s).work = s.work := rfl
@[simp] theorem setSet_out : (setSet n f s).out = s.out := rfl
@[simp] theorem setSet_free : (setSet n f s).free = s.free := rfl
@[simp] theorem setSet_pending : (setSet n f s).pending = s.pending := rfl
end

/-! ### `endCondition` -/

section
variable (src inst : Nat) (s : State)
@[simp] theorem endCondition_tb : (endCondition src inst s).tb = s.tb := rfl
@[simp] theorem endCondition_od : (endCondition src inst s).od = s.od := rfl
@[simp] theorem endCondition_qm : (endCondition src inst s).qm = s.qm := rfl
@[simp] theorem endCondition_mu : (endCondition src inst s).mu = s.mu := rfl
@[simp] theorem endCondition_ra : (endCondition src inst s).ra = s.ra := rfl
@[simp] theorem endCondition_ce : (endCondition src inst s).ce = s.ce := rfl
@[simp] theorem endCondition_tu : (endCondition src inst s).tu = s.tu := rfl
@[simp] theorem endCondition_rt : (endCondition src inst s).rt = s.rt := rfl
@[simp] theorem endCondition_fs : (endCondition src inst s).fs = s.fs := rfl
@[simp] theorem endCondition_ll : (endCondition src inst s).ll = s.ll := rfl
@[simp] theorem endCondition_px : (endCondition src inst s).px = s.px := rfl
@[simp] theorem endCondition_me : (endCondition src inst s).me = s.me := rfl
@[simp] theorem endCondition_lk : (endCondition src inst s).lk = s.lk := rfl
@[simp] theorem endCondition_cm : (endCondition src inst s).cm = s.cm := rfl
@[simp] theorem endCondition_hl : (endCondition src inst s).hl = s.hl := rfl
@[simp] theorem endCondition_sb : (endCondition src inst s).sb = s.sb := rfl
@[simp] theorem endCondition_pr : (endCondition src inst s).pr = s.pr := rfl
@[simp] theorem endCondition_rs : (endCondition src inst s).rs = s.rs := rfl
@[simp] theorem endCondition_ms : (endCondition src inst s).ms = s.ms := rfl
@[simp] theorem endCondition_cnt : (endCondition src inst s).cnt = s.cnt := rfl
@[simp] theorem endCondition_work : (endCondition src inst s).work = s.work := rfl
@[simp] theorem endCondition_out : (endCondition src inst s).out = s.out := rfl
@[simp] theorem endCondition_free : (endCondition src inst s).free = s.free := rfl
@[simp] theorem endCondition_pending : (endCondition src inst s).pending = s.pending := rfl
end

/-! ### `setStamp` -/

section
variable (e c r n : Nat) (s : State)
@[simp] theorem setStamp_tb : (setStamp e c r n s).tb = s.tb := rfl
@[simp] theorem setStamp_od : (setStamp e c r n s).od = s.od := rfl
@[simp] theorem setStamp_qm : (setStamp e c r n s).qm = s.qm := rfl
@[simp] theorem setStamp_mu : (setStamp e c r n s).mu = s.mu := rfl
@[simp] theorem setStamp_ra : (setStamp e c r n s).ra = s.ra := rfl
@[simp] theorem setStamp_ce : (setStamp e c r n s).ce = s.ce := rfl
@[simp] theorem setStamp_tu : (setStamp e c r n s).tu = s.tu := rfl
@[simp] theorem setStamp_rt : (setStamp e c r n s).rt = s.rt := rfl
@[simp] theorem setStamp_fs : (setStamp e c r n s).fs = s.fs := rfl
@[simp] theorem setStamp_ll : (setStamp e c r n s).ll = s.ll := rfl
@[simp] theorem setStamp_px : (setStamp e c r n s).px = s.px := rfl
@[simp] theorem setStamp_lk : (setStamp e c r n s).lk = s.lk := rfl
@[simp] theorem setStamp_cm : (setStamp e c r n s).cm = s.cm := rfl
@[simp] theorem setStamp_hl : (setStamp e c r n s).hl = s.hl := rfl
@[simp] theorem setStamp_sb : (setStamp e c r n s).sb = s.sb := rfl
@[simp] theorem setStamp_pr : (setStamp e c r n s).pr = s.pr := rfl
@[simp] theorem setStamp_rs : (setStamp e c r n s).rs = s.rs := rfl
@[simp] theorem setStamp_ms : (setStamp e c r n s).ms = s.ms := rfl
@[simp] theorem setStamp_fc : (setStamp e c r n s).fc = s.fc := rfl
@[simp] theorem setStamp_cnt : (setStamp e c r n s).cnt = s.cnt := rfl
@[simp] theorem setStamp_work : (setStamp e c r n s).work = s.work := rfl
@[simp] theorem setStamp_out : (setStamp e c r n s).out = s.out := rfl
@[simp] theorem setStamp_free : (setStamp e c r n s).free = s.free := rfl
@[simp] theorem setStamp_pending : (setStamp e c r n s).pending = s.pending := rfl
end

/-! ### `mirrorPlaced` -/

section
variable (s : State)
@[simp] theorem mirrorPlaced_tb : (mirrorPlaced s).tb = s.tb := rfl
@[simp] theorem mirrorPlaced_od : (mirrorPlaced s).od = s.od := rfl
@[simp] theorem mirrorPlaced_qm : (mirrorPlaced s).qm = s.qm := rfl
@[simp] theorem mirrorPlaced_mu : (mirrorPlaced s).mu = s.mu := rfl
@[simp] theorem mirrorPlaced_ra : (mirrorPlaced s).ra = s.ra := rfl
@[simp] theorem mirrorPlaced_ce : (mirrorPlaced s).ce = s.ce := rfl
@[simp] theorem mirrorPlaced_tu : (mirrorPlaced s).tu = s.tu := rfl
@[simp] theorem mirrorPlaced_rt : (mirrorPlaced s).rt = s.rt := rfl
@[simp] theorem mirrorPlaced_fs : (mirrorPlaced s).fs = s.fs := rfl
@[simp] theorem mirrorPlaced_ll : (mirrorPlaced s).ll = s.ll := rfl
@[simp] theorem mirrorPlaced_px : (mirrorPlaced s).px = s.px := rfl
@[simp] theorem mirrorPlaced_me : (mirrorPlaced s).me = s.me := rfl
@[simp] theorem mirrorPlaced_lk : (mirrorPlaced s).lk = s.lk := rfl
@[simp] theorem mirrorPlaced_hl : (mirrorPlaced s).hl = s.hl := rfl
@[simp] theorem mirrorPlaced_sb : (mirrorPlaced s).sb = s.sb := rfl
@[simp] theorem mirrorPlaced_pr : (mirrorPlaced s).pr = s.pr := rfl
@[simp] theorem mirrorPlaced_rs : (mirrorPlaced s).rs = s.rs := rfl
@[simp] theorem mirrorPlaced_ms : (mirrorPlaced s).ms = s.ms := rfl
@[simp] theorem mirrorPlaced_fc : (mirrorPlaced s).fc = s.fc := rfl
@[simp] theorem mirrorPlaced_cnt : (mirrorPlaced s).cnt = s.cnt := rfl
@[simp] theorem mirrorPlaced_work : (mirrorPlaced s).work = s.work := rfl
@[simp] theorem mirrorPlaced_out : (mirrorPlaced s).out = s.out := rfl
@[simp] theorem mirrorPlaced_free : (mirrorPlaced s).free = s.free := rfl
@[simp] theorem mirrorPlaced_pending : (mirrorPlaced s).pending = s.pending := rfl
end

/-! ### `seeReached` -/

section
variable (o : Nat) (s : State)
@[simp] theorem seeReached_tb : (seeReached o s).tb = s.tb := rfl
@[simp] theorem seeReached_od : (seeReached o s).od = s.od := rfl
@[simp] theorem seeReached_qm : (seeReached o s).qm = s.qm := rfl
@[simp] theorem seeReached_mu : (seeReached o s).mu = s.mu := rfl
@[simp] theorem seeReached_ra : (seeReached o s).ra = s.ra := rfl
@[simp] theorem seeReached_ce : (seeReached o s).ce = s.ce := rfl
@[simp] theorem seeReached_tu : (seeReached o s).tu = s.tu := rfl
@[simp] theorem seeReached_rt : (seeReached o s).rt = s.rt := rfl
@[simp] theorem seeReached_fs : (seeReached o s).fs = s.fs := rfl
@[simp] theorem seeReached_ll : (seeReached o s).ll = s.ll := rfl
@[simp] theorem seeReached_px : (seeReached o s).px = s.px := rfl
@[simp] theorem seeReached_lk : (seeReached o s).lk = s.lk := rfl
@[simp] theorem seeReached_cm : (seeReached o s).cm = s.cm := rfl
@[simp] theorem seeReached_hl : (seeReached o s).hl = s.hl := rfl
@[simp] theorem seeReached_sb : (seeReached o s).sb = s.sb := rfl
@[simp] theorem seeReached_pr : (seeReached o s).pr = s.pr := rfl
@[simp] theorem seeReached_rs : (seeReached o s).rs = s.rs := rfl
@[simp] theorem seeReached_ms : (seeReached o s).ms = s.ms := rfl
@[simp] theorem seeReached_fc : (seeReached o s).fc = s.fc := rfl
@[simp] theorem seeReached_cnt : (seeReached o s).cnt = s.cnt := rfl
@[simp] theorem seeReached_work : (seeReached o s).work = s.work := rfl
@[simp] theorem seeReached_out : (seeReached o s).out = s.out := rfl
@[simp] theorem seeReached_free : (seeReached o s).free = s.free := rfl
@[simp] theorem seeReached_pending : (seeReached o s).pending = s.pending := rfl
end

end Sys2Proof.Machine
end

