-- ==== Sys2Proof/Laws/Visible.lean ====
section
/-!
SUPPORT. What observers see of a range (R401 to R409): with no store in flight to it, every observer reads what
the memory holds, and looking changes nothing.
-/
namespace Sys2Proof.Machine

/-- No store in flight writes a byte of the range. -/
def Quiet (s : State) (cl : Option Nat) (off n : Nat) : Prop := ∀ f ∈ s.me.flights, f.touches cl off n = false

theorem look_quiet {o : Nat} {cl : Option Nat} {off n dep : Nat} {l : List Flight} {s : State}
    (h : ∀ f ∈ l, f.touches cl off n = false) : look o cl off n dep l s = (l, s) := by
  induction l with
  | nil => rfl
  | cons f r ih =>
    unfold look
    rw [if_neg (by simp [h f (by simp)]), ih fun g hg => h g (by simp [hg])]
    simp [h f (by simp)]

/-- What touches one byte of a range touches the range. -/
theorem touches_of_byte {f : Flight} {cl : Option Nat} {off n a : Nat} (h : f.touches cl a 1 = true) (h1 : off ≤ a)
    (h2 : a < off + n) : f.touches cl off n = true := by
  simp only [Flight.touches, Bool.and_eq_true, decide_eq_true_eq] at h ⊢
  exact ⟨⟨h.1.1, by omega⟩, by omega⟩

theorem viewByte_quiet {l : List Flight} {o : Nat} {cl : Option Nat} {a : Nat} {b : Byte}
    (h : ∀ f ∈ l, f.touches cl a 1 = false) : viewByte l o cl a b = b := by
  have e : l.filter (fun f => f.touches cl a 1) = [] := List.filter_eq_nil_iff.2 fun f hf => by simp [h f hf]
  unfold viewByte; rw [e]; rfl

theorem viewBytes_quiet {l : List Flight} {o : Nat} {cl : Option Nat} {bs : List Byte} {off n : Nat}
    (h : ∀ f ∈ l, f.touches cl off n = false) (hn : bs.length ≤ n) : viewBytes l o cl off bs = bs := by
  induction bs generalizing off n with
  | nil => rfl
  | cons b r ih =>
    simp only [List.length_cons] at hn
    have hb : ∀ f ∈ l, f.touches cl off 1 = false := fun f hf => Bool.eq_false_iff.2 fun e =>
      Bool.eq_false_iff.1 (h f hf) (touches_of_byte e (Nat.le_refl _) (by omega))
    have hr : ∀ f ∈ l, f.touches cl (off + 1) (n - 1) = false := fun f hf => Bool.eq_false_iff.2 fun e => by
      have := h f hf
      simp only [Flight.touches, Bool.and_eq_true, decide_eq_true_eq] at e this
      simp only [e.1.1, Bool.true_and, Bool.and_eq_false_iff, decide_eq_false_iff_not] at this
      omega
    unfold viewBytes
    rw [viewByte_quiet hb, ih hr (by omega)]

@[simp] theorem sharedBytes_length {s : State} {cl : Option Nat} (off n : Nat) : (sharedBytes s cl off n).length = n := by
  unfold sharedBytes; split <;> simp

/-- With nothing in flight to the range, an observer reads what the memory holds. -/
theorem observe_quiet {o : Nat} {cl : Option Nat} {off n dep : Nat} {s : State} (h : Quiet s cl off n) :
    observe o cl off n dep s = (sharedBytes s cl off n, s) := by
  unfold observe; rw [look_quiet h]; dsimp only; rw [viewBytes_quiet h (by simp)]

end Sys2Proof.Machine
end

