-- ==== Sys2Proof/Tests/Slice0.lean ====
section
/-!
SUPPORT. Tests: for every statement with hypotheses a state and operands that meet them, clause by
clause, and worked examples of the spec.
-/
namespace Sys2Proof.Tests
set_option Elab.async false
open Sys2Proof Sys2Proof.Machine

/-! ### States for the tests -/

/-- A module that serves: every domain ON, firmware running, both host links up with their VFs, both
functions mastering the bus, both stacks working.  Everything else is as right after reset. -/
def up : State := {
  pr := { domains := (rangeFrom 0 30).map fun d => (d, .on), inputGood := true }
  rs := { phase := .running, milestone := 8 }
  hl := {
    links := [(0, { up := true, perstN := true, vfEnable := true, numVfs := 256 }), (1, { up := true, perstN := true })]
    fns := [(0, { bme := true }), (1, { bme := true })] }
  cm := { hbm := [(0, { state := .working }), (1, { state := .working })] } }

/-- With another time base. -/
def withTb (t : TimeBase) : State := { up with tb := t }

/-! ### 01_machine_time.md -/

/-- A frame of TCODE with a right CRC: NEXT_SECONDS 5, quality 7. -/
def goodFrame : BitVec 96 :=
  let b := 5 * 2 ^ 16 + 7 * 2 ^ 8
  BitVec.ofNat 96 (0xB38F * 2 ^ 80 + b * 2 ^ 32 + crc32c (beBytes 6 b))

/-- A frame is bad (R17). -/
def badFrame (f : BitVec 96) (a b : Nat) : Bool :=
  fld f.toNat 95 80 != 0xB38F || crc32c (beBytes 6 (fld f.toNat 79 32)) != fld f.toNat 31 0 || a < 100 || b < 100

/-- Port 71 trained to node 5, whose depth 13 has been below the source's for 1 s; an exchange is open. -/
def peered : State := { up with
  ll := { ports := [(71, { state := .active })] }
  rt := { ports := [(71, { state := .up, peer := some 5 })] }
  tb := { state := .fabricLocked, count := 2 ^ 32, peers := [(71, { depth := 13, srcNode := 7, openXid := some 9, lowerSince := some 0 })] } }

/-- The same peer, with this module REF_LOCKED. -/
def peeredRef : State := { peered with tb := { peered.tb with state := .refLocked } }

theorem wit_TimeInputsEnd_domains : domOn up 0 = true ∧ internalClock up = false := by decide +kernel
theorem wit_TimeInputsEnd_locked :
    bestPeer (withTb { state := .refLocked }) (fun _ => true) = none ∧
    bestPeer peeredRef (fun _ => true) = some 71 ∧ domOn peeredRef 0 = true ∧ internalClock peeredRef = false := by
  decide +kernel
theorem wit_TimeInputsEnd_peer :
    let s := withTb { state := .fabricLocked, srcPort := some 71 }
    domOn s 0 = true ∧ internalClock s = false ∧ s.tb.srcPort = some 71 ∧ usablePeer s 71 = false := by decide +kernel
theorem wit_EdgesFramesAndHoldDown_edge :
    let s := withTb { haveEdge := true, frameNow := some 0, framePrev := some (2 ^ 32 - 1) }
    domOn s 0 = true ∧ internalClock s = false ∧ s.tb.state = .free ∧ s.tb.haveEdge = true ∧
    99999995 ≤ (99999995 : BitVec 32).toNat ∧ (100000005 : BitVec 32).toNat ≤ 100000005 ∧
    2000 ≤ (2000 : BitVec 16).toNat ∧ 0 = (2 ^ 32 - 1 + 1) % 2 ^ 32 := by
  decide +kernel
theorem wit_EdgesFramesAndHoldDown_frames :
    badFrame 0 100 100 = true ∧ badFrame goodFrame 99 100 = true ∧ badFrame goodFrame 100 99 = true ∧
    badFrame goodFrame 100 100 = false ∧ up.tb.state ≠ .refLocked := by decide +kernel
theorem wit_EdgesFramesAndHoldDown_hold :
    0 ≤ ticks (withTb { state := .holdover, holdDown := some 0 }) ∧
    bestPeer (withTb { state := .holdover, holdDown := some 0 })
      (steadyPeer (withTb { state := .holdover, holdDown := some 0 })) = none := by decide +kernel

/-- A TIME packet of a kind with exchange number 9. -/
def timePkt (kind : Nat) : Packet :=
  { type := tTIME, vc := 19, hops := 1, dest := 0, source := 5 * 4096, th := timeTH 1 2 3 4 7 13 kind 9 }

theorem wit_FabricTimeAndMachineTimeEvents_peers :
    lowerPeer peered 71 = true ∧ bestPeer peered (lowerPeer peered) = some 71 ∧
    domOn peered 0 = true ∧ domOn peered dCX = true ∧ mayExchange peered 71 = true := by decide +kernel
theorem wit_FabricTimeAndMachineTimeEvents_request :
    Instr.wf (.timeRequestArrive 71 (timePkt 0)) = true ∧
    timeFree (notePeer 71 (timePkt 0) (takeIngress 71 (timePkt 0) true peered)) = false := by decide +kernel

/-- After its response: the offset and the delay are stored. -/
def afterResponse : State :=
  let p := timePkt 1
  let out : Int := (tmT2 p : Int) - (tmT1 p : Int)
  let back : Int := (arrivedAt 71 p peeredRef : Int) - (tmT3 p : Int)
  setPeer 71 (fun y => { y with
    offset := some ((out - back) / 2), delay := sat 32 ((out + back) / 2).toNat
    sumDelay := y.sumDelay + ((out + back) / 2).toNat, nDelay := y.nDelay + 1 })
    (notePeer 71 p (setPeer 71 (fun y => { y with openXid := none }) (takeIngress 71 p true peeredRef)))

theorem wit_FabricTimeAndMachineTimeEvents_response :
    Instr.wf (.timeResponseArrive 71 (timePkt 1)) = true ∧
    (peerTime (takeIngress 71 (timePkt 1) true peeredRef) 71).openXid = some (tmXID (timePkt 1)) ∧
    (peerTime (takeIngress 71 (timePkt 1) true peeredRef) 71).nDelay = 0 ∧ afterResponse.tb.state = .refLocked ∧
    (∀ q : Fin 72, (trained afterResponse q && (peerTime afterResponse q).depth == 0) = false) := by decide +kernel

/-- A module in HOLDOVER whose uncertainty is above every limit. -/
def drifted : State := withTb { state := .holdover, holdUncert := 2 ^ 64 - 1 }

theorem wit_FabricTimeAndMachineTimeEvents_limits :
    drifted.tb.state ≠ .free ∧ rc drifted 0x4031 0 < uncertainty drifted ∧ drifted.tb.overLimit = false ∧
    (withTb { residual := 2 ^ 32 - 1 }).tb.residual.natAbs < 2 ^ 32 ∧
    (let s := withTb { medianCount := 1, count := 64 * 2 ^ 32 }; s.tb.medianSince + 64 * 2 ^ 32 ≤ ticks s) ∧
    600 * 2 ^ 32 ≤ (withTb { state := .refLocked, lockTicks := 600 * 2 ^ 32 }).tb.lockTicks ∧
    (withTb { pulseDue := true }).tb.pulseDue = true ∧
    (let s := withTb { timePulse := true, pulseEnd := 7, count := 7 }; s.tb.timePulse = true ∧ s.tb.pulseEnd ≤ ticks s) := by
  decide +kernel

/-! ### 02_object_dictionary.md -/

/-- An open session of the management port, its next request, and the state of its set 1. -/
def session1 (x : Session) (c : CommitSet) : State := { up with od := {
  sessions := [(1, x)], sets := [(1, c)], lastChecked := some 1 } }
def plainSession : Session := { carrier := .mgmt 1, number := 1, next := some 7 }
def req : YHdr := { carrier := .mgmt 1, session := 1, seq := 7 }
def open1 : CommitSet := { state := .opened, owner := some (ownerWord plainSession 1) }
def armed1 : CommitSet := { open1 with state := .armed }
def heard1 : State := heard (session1 plainSession open1) 1

theorem wit_YustoRequestsInTurnAreExecuted_inTurn (c : CommitSet) : InTurn (session1 plainSession c) req 1 plainSession := by
  refine ⟨rfl, rfl, rfl, rfl, rfl, rfl, rfl, rfl⟩
theorem wit_YustoRequestsInTurnAreExecuted_scalars :
    (lookup heard1 0x2101 0).any (fun o => o.ty != .table && o.acc == .rc) = true ∧
    mayRead (carrierPath plainSession.carrier) (carrierFn plainSession.carrier) 0x2101 0 = true ∧
    mayWrite (carrierPath plainSession.carrier) 0x2101 0 = true ∧
    (rcWrite (ownerWord plainSession 1) 1 (okey 0x2101 0) (beBytes 4 9) heard1).1 = yOK ∧
    (objAny 0x2101).any (fun o => o.ty != .table &&
      mayRead (carrierPath plainSession.carrier) (carrierFn plainSession.carrier) 0x2101 o.lo) = true := by
  decide +kernel
theorem wit_YustoRequestsInTurnAreExecuted_tables :
    (lookup heard1 0x6820 71).any (fun o => o.ty == .table && o.acc == .rc) = true ∧
    mayRead (carrierPath plainSession.carrier) (carrierFn plainSession.carrier) 0x6820 71 = true ∧
    mayWrite (carrierPath plainSession.carrier) 0x6820 71 = true ∧
    (segStore (ownerWord plainSession 1) 1 (okey 0x6820 71) 8 0 (beBytes 8 1) heard1).1 = yOK := by decide +kernel
theorem wit_YustoRequestsInTurnAreExecuted_sets :
    (commitSet heard1 1).owner = some (ownerWord plainSession 1) ∧ (commitSet heard1 1).state = .opened ∧
    (commitSet (heard (session1 plainSession armed1) 1) 1).owner = some (ownerWord plainSession 1) ∧
    (commitSet (heard (session1 plainSession armed1) 1) 1).state = .armed := by decide +kernel
theorem wit_YustoRequestsInTurnAreExecuted_subscriptions :
    ((rangeFrom 1 16).find? fun i => !plainSession.subs.any fun u => u.number == i) = some 1 ∧
    (([{ number := 16, mask := 15, lo := 0, hi := 65535 }] : List Subscription).find? fun v =>
      v.lo == 0 && v.hi == 65535).isSome = true := by decide +kernel

/-- A session with one held request that has waited long enough, and set 15 armed and due. -/
def waiting1 : State := { session1 { plainSession with held := [(9, .shape 0x1000, 0)] } open1 with
  tb := { armed := [{ owner := .commitSet 15, instant := 0, late := false }] } }

theorem wit_SessionsCommitsAndCheckWords :
    up.rs.phase = .running ∧ domOn up 0 = true ∧ rc up 0x2100 0 < 2 ^ 16 ∧
    sessionsOpen up isMgmtCarrier < rc up 0x2101 0 ∧
    (session (session1 plainSession open1) 1).any
      (fun x => isMgmtCarrier x.carrier && x.idleAt ≤ ticks (session1 plainSession open1)) = true ∧
    (session waiting1 1).any (fun x => x.next == some 7 && x.held == [(9, .shape 0x1000, 0)]) = true ∧ 0 ≤ ticks waiting1 ∧
    ({ up with od := { up.od with persistDue := true } } : State).od.persistDue = true ∧
    (dueOwners (now waiting1) waiting1.tb.armed).head? = some (.commitSet 15) ∧
    (shotOf waiting1 (.commitSet 15)).isSome = true := by decide +kernel

/-- Live values set to 8-byte numbers. -/
def withRc (l : List (Nat × Nat × Nat)) (s : State) : State :=
  { s with od := { s.od with live := l.foldl (fun m e => mput m (okey e.1 e.2.1) (beBytes 8 e.2.2)) s.od.live } }

/-- A module whose reference of the check word holds some bytes and is fresh. -/
def checked (bs : List Byte) : State :=
  { up with od := { refStale := false, live := [(okey 0x1F20 0, bs)] } }

theorem beNat_surjective (n : Nat) : ∃ bs, beNat bs = n := by
  induction n using Nat.strongRecOn with
  | ind n ih =>
    by_cases h : n = 0
    · exact ⟨[], by simp [beNat, h]⟩
    · obtain ⟨bs, e⟩ := ih (n / 256) (by omega)
      refine ⟨bs ++ [BitVec.ofNat 8 n], ?_⟩
      simp only [beNat, List.foldl_append, List.foldl_cons, List.foldl_nil, BitVec.toNat_ofNat] at e ⊢
      omega

/-- The word does not cover its own reference (R67). -/
theorem checkWord_checked (bs : List Byte) : checkWord (checked bs) = checkWord (checked []) := by
  have g (k : Nat) (h : k ≠ okey 0x1F20 0) (l : List Byte) :
      liveBytes (checked l) (k / 256) (k % 256) = defaultBytes (k / 256) (k % 256) := by
    have e : okey (k / 256) (k % 256) = k := by simp only [okey]; omega
    simp only [liveBytes, e, checked, mget?]
    rw [if_neg fun x => h x.symm]
  have f : (fun k => if k = okey 0x1F20 0 then [] else beBytes 3 k ++ liveBytes (checked bs) (k / 256) (k % 256)) =
      fun k => if k = okey 0x1F20 0 then [] else beBytes 3 k ++ liveBytes (checked []) (k / 256) (k % 256) := by
    funext k
    by_cases h : k = okey 0x1F20 0
    · rw [if_pos h, if_pos h]
    · rw [if_neg h, if_neg h, g k h, g k h]
  unfold checkWord
  rw [f]

theorem wit_SessionsCommitsAndCheckWords_check : ∃ s, s.rs.phase = .running ∧ domOn s 0 = true ∧ s.od.refStale = false ∧
    checkWord s = rc { s with od := { s.od with liveWord := checkWord s, scanComplete := true } } 0x1F20 0 := by
  obtain ⟨bs, e⟩ := beNat_surjective (checkWord (checked []))
  exact ⟨checked bs, rfl, (wit_TimeInputsEnd_domains).1, rfl, (checkWord_checked bs).trans e.symm⟩

/-! ### 03_queues.md -/

/-- Function 0 with 32 queues, 16 endpoints and tenant 5, two address spaces, and its queues. -/
def withQueues (qs : SMap Queue) : State :=
  withRc [(0x7010, 0, 0), (0x7014, 0, 2), (0x7810, 0, 5), (0xA010, 0, 0), (0xA014, 0, 16)] { up with
    qm := { queues := qs }
    tu := { spaces := [(1, { state := .live, tenant := 5, mark := true })] } }

def cq3 : Queue := { state := .ready, type := qCQ, log2 := 4, weight := 1, written := 3, noEq := true }
def eq4 : Queue := { state := .ready, type := qEQ, log2 := 4, weight := 1, noEq := true }
def send2 : Queue := { state := .ready, type := qSEND, log2 := 4, weight := 1, gust := 1, cqn := 3, noEq := true
                       tenant := 5, asid := 1 }
/-- The admin pair of function 0, with one command fetched. -/
def adminPair (d : Nat) : SMap Queue :=
  [(0, { send2 with admin := true, cqn := 1, ops := [{ n := 0, desc := d }] }), (1, { cq3 with admin := true })]
/-- A descriptor of an admin command on queue 2. -/
def adminDesc (op rest : Nat) : Nat := op + 2 * 2 ^ 64 + rest
def withAdmin (op rest : Nat) (q : Queue) : State :=
  withQueues (adminPair (adminDesc op rest) ++ [(2, q), (3, cq3), (4, eq4)])
def adminOp (op rest : Nat) : SendOp := { n := 0, desc := adminDesc op rest }

def rang (qs : SMap Queue) (slot qn : Nat) : Bool :=
  let s := rung (withQueues qs) 0
  barsLive (withQueues qs) 0 && slotQueue s 0 slot == some qn && qExists (queue s qn)

theorem wit_DoorbellsFetchesAndRetirements_doorbells :
    rang [(2, send2), (3, cq3)] 2 2 = true ∧ rang [(2, send2), (3, cq3)] 3 3 = true ∧
    send2.gen = 0 ∧ cq3.gen = 0 ∧ send2.state ≠ .draining ∧ diff32 16 send2.tail < 2 ^ 31 ∧ diff32 16 send2.retired ≤ qSize send2 ∧
    diff32 3 cq3.head ≤ diff32 cq3.written cq3.head ∧ (hostLink up (fnLink 513)).up = true ∧
    barsLive up 0 = true := by decide +kernel

/-- Two entries rung and not fetched, of an admin queue and of another. -/
def rung0 (admin : Bool) : State := withQueues
  [(2, { send2 with tail := 2, admin := admin }), (3, cq3)]

/-- A host read in two requests of 1 B: tag 16383 is outstanding, and of the other its completion has come or not. -/
def askedRead (got : Option HostResult) : State := { up with tu := { reads := [
  (7, { fn := 0, addr := 0, len := 2, purpose := .zero (.query 0 0)
        parts := [{ off := 0, len := 1, tag := some 16383 }, { off := 1, len := 1, tag := some 0, got := got }] })] } }
/-- The requests of that read once the outstanding one is answered. -/
def afterAnswer (got : Option HostResult) (r : HostResult) : List HostPart :=
  ((readOfTag (askedRead got) 0 16383).map fun e =>
    updFirst (fun p => p.tag == some 16383 && p.got.isNone) (fun p => { p with got := some (resultOf p.len r) }) e.2.parts).getD []

/-- The loop of R99 in its first data pass. -/
def atData : State := { rung0 false with qm := { (rung0 false).qm with aturn := none } }

/-- The loop of R99 before FN 0's admin queue. -/
def atAdmin : State := { rung0 true with qm := { (rung0 true).qm with aturn := some 0 } }

theorem wit_DoorbellsFetchesAndRetirements_fetches :
    atAdmin.qm.queues.filter (fun e => eligibleQ atAdmin e.2) = [(2, { send2 with tail := 2, admin := true })] ∧
    atData.qm.aturn = none ∧ (atData.qm.queues.filter fun e => eligibleQ atData e.2 && !e.2.admin).map (·.1) = [2] ∧
    (nextFn (fetchWeight atData) [0] (255 - atData.qm.fpass) atData.qm.fpass atData.qm.fnext).isSome = true ∧
    (nextQueue (fun q => (queue atData q).weight) [2] 256 {}).isSome = true ∧
    (∀ g ∈ [none, some HostResult.error], (readOfTag (askedRead g) 0 16383).map (·.1) = some 7) ∧
    (afterAnswer (some .error) .error).all (fun p => p.got.isSome) = true ∧ afterAnswer (some .error) .error ≠ [] ∧
    (afterAnswer none (.data [0] false)).all (fun p => p.got.isSome) = false := by decide +kernel

/-- Of a read that has all its requests answered the data is joined in order; a completion of another length is
none (R450). -/
theorem test_hostRead_joins :
    joinResults [{ off := 0, len := 1, got := some (.data [1] false) }, { off := 1, len := 1, got := some (.data [2] true) }] =
      .data [1, 2] true ∧
    joinResults (afterAnswer (some (.data [2] false)) (.data [1, 1] false)) = .error := by decide

/-- A SEND queue whose head has its result; a NOP that may start; a queue that is armed. -/
def retiring : State := { (withQueues
  [(2, { send2 with ops := [{ n := 0, desc := 256, done := some { status := stOK } }] }),
    (3, { cq3 with armed := true, sinceArm := 1, modTime := 1, modNow := 7 }), (5, { send2 with ops := [{ n := 0, desc := 0 }] })])
  with tb := { count := 7 } }

/-- An admin queue whose second operation is done. -/
def adminRetiring : State := withQueues [(2, { send2 with
  admin := true, ops := [{ n := 0, desc := 0 }, { n := 1, desc := 0, done := some { status := stOK, quiet := true } }] })]

theorem wit_DoorbellsFetchesAndRetirements_retirements :
    (queue retiring 2).type = qSEND ∧ qExists (queue retiring 2) = true ∧ (queue retiring 2).admin = false ∧
    (queue retiring 2).ops = [{ n := 0, desc := 256, done := some { status := stOK } }] ∧ dSIGNAL 256 = true ∧
    qExists (queue retiring 3) = true ∧ (queue retiring 3).sinceArm ≠ 0 ∧ (queue retiring 3).modAt + (queue retiring 3).modNow ≤ ticks retiring ∧
    (queue retiring 3).modNow ≠ 0 ∧ (queue retiring 3).armed = true ∧ qExists (queue adminRetiring 2) = true ∧
    ((queue adminRetiring 2).ops.find? (fun o => o.done.isSome)).map (·.n) = some 1 ∧
    (startable retiring 5 (fun op => op = 0)).isSome = true := by decide +kernel

/-- CREATE of queue 2: a SEND queue with ring 4096, 16 entries, weight 1, ASID 1, tenant 5, CQN 3, no EQ. -/
def createRest : Nat := 3 * 2 ^ 256 + 4 * 2 ^ 300 + 2 ^ 305 + 2 ^ 319 + 2 ^ 320 + 5 * 2 ^ 336 + 4096 * 2 ^ 192
def creating : State := withQueues (adminPair (adminDesc 0x80 createRest) ++ [(3, cq3), (4, eq4)])

theorem wit_AdminCommandsChangeQueues_create :
    nextAdmin creating 0 = some (adminOp 0x80 createRest) ∧ dOPCODE (adminDesc 0x80 createRest) = 0x80 ∧
    ownsQn creating 0 2 = true ∧ adminQn creating 0 = 0 ∧ qExists (queue creating 2) = false ∧
    createParams creating 0 2 (adminDesc 0x80 createRest) = true ∧ tenantOk creating 0 5 = true ∧
    asidOk creating 0 1 5 = true ∧ endpointOk creating 0 0 = true ∧ stacksWorking creating ≠ 0 ∧
    queuesExisting creating < queueLimit creating ∧ queuesExisting creating < capQueues creating := by decide +kernel

def halted2 : Queue := { send2 with state := .halted, haltReason := 1, skip := (9, 1) }

/-- The premises that an admin command on queue 2 takes (`AdminOn`), as a check. -/
def adminOn (s : State) (op rest : Nat) : Bool :=
  let s1 := adminAt s 0 (adminOp op rest)
  nextAdmin s 0 == some (adminOp op rest) && dOPCODE (adminDesc op rest) == op && ownsQn s1 0 2 &&
    adminQn s 0 == 0 && aTARGET (adminDesc op rest) == 2 && qExists (queue s1 2) &&
    (queue s1 2).destroying.isNone && (queue s1 2).haltReason != hCONTEXTLOST

theorem wit_AdminCommandsChangeQueues_target :
    adminOn (withAdmin 0x81 (4 * 2 ^ 300) halted2) 0x81 (4 * 2 ^ 300) = true ∧ aLOG2 (adminDesc 0x81 (4 * 2 ^ 300)) = 4 ∧
    aADDR (adminDesc 0x81 (4 * 2 ^ 300)) % 4096 = 0 ∧ halted2.tail = halted2.fetched ∧ halted2.writing = false ∧
    adminOn (withAdmin 0x81 (16 * 2 ^ 300) cq3) 0x81 (16 * 2 ^ 300) = true ∧
    max cq3.reserved cq3.entries.length ≤ 2 ^ aLOG2 (adminDesc 0x81 (16 * 2 ^ 300)) ∧
    adminOn (withAdmin 0x82 0 send2) 0x82 0 = true ∧ adminOn (withAdmin 0x83 0 send2) 0x83 0 = true ∧
    adminOn (withAdmin 0x84 0 halted2) 0x84 0 = true ∧ adminOn (withAdmin 0x84 512 halted2) 0x84 512 = true ∧
    resumeReady (withAdmin 0x84 512 halted2) (adminDesc 0x84 512) = true ∧ haltOfEntry halted2 = true ∧
    aOPTION (adminDesc 0x84 512) = true ∧ aOPTION (adminDesc 0x84 0) = false := by decide +kernel
theorem wit_AdminCommandsChangeQueues_destroy :
    adminOn (withAdmin 0x85 0 send2) 0x85 0 = true ∧ adminOn (withAdmin 0x85 0 halted2) 0x85 0 = true ∧
    adminOn (withAdmin 0x85 512 send2) 0x85 512 = true ∧ adminOn (withAdmin 0x85 512 cq3) 0x85 512 = true ∧
    namedByOther (adminAt (withAdmin 0x85 512 cq3) 0 (adminOp 0x85 512)) 2 = false ∧
    aOPTION (adminDesc 0x85 512) = true ∧ aOPTION (adminDesc 0x85 0) = false ∧
    adminOn (withAdmin 0x86 0 send2) 0x86 0 = true ∧ aADDR (adminDesc 0x86 0) % 64 = 0 ∧
    adminOn (withAdmin 0x87 (2 ^ 305 + 2 ^ 319) send2) 0x87 (2 ^ 305 + 2 ^ 319) = true ∧
    aWEIGHT (adminDesc 0x87 (2 ^ 305 + 2 ^ 319)) ≠ 0 ∧ aMODTIME (adminDesc 0x87 (2 ^ 305 + 2 ^ 319)) = 0 ∧
    aMODCOUNT (adminDesc 0x87 (2 ^ 305 + 2 ^ 319)) = 0 ∧ eqnOk (withAdmin 0x87 0 send2) 0 2 qSEND 0 true = true := by
  decide +kernel

/-- A queue whose DRAIN, and one whose DESTROY, is over. -/
def ending : State := withQueues
  [(2, { send2 with state := .draining, drainFor := some (0, 0, false) }),
    (5, { send2 with state := .draining, destroying := some (0, 0, 0), drainFor := some (0, 0, true) })]

theorem wit_AdminCommandsChangeQueues_ends :
    drained (queue ending 2) = true ∧ (queue ending 2).destroying = none ∧
    (queue ending 2).drainFor = some (0, 0, false) ∧ (queue ending 5).ops = [] ∧
    destroyWaits (setQueue 5 (fun q => { q with destroying := some (0 + postedOf ending 5, 0, 0) })
      (removePosted 5 false (groupsOfQueue 5 ending))) 5 = false ∧
    (queue (setQueue 5 (fun q => { q with destroying := some (0 + postedOf ending 5, 0, 0) })
      (removePosted 5 false (groupsOfQueue 5 ending))) 5).drainFor = some (0, 0, true) := by decide +kernel

/-! ### 04_message_matching.md -/

/-- Domain commands at the ends of their fields: domain 65535, EAGER 511, 16384 headers, 8192 MiB. -/
theorem wit_MatchingDomainsReceivesAndMessages_domains :
    domValid (withQueues [(4, eq4)]) ((1 : BitVec 8) ++ (65535 : BitVec 16) ++ (5 : BitVec 16) ++ (4 : BitVec 20) ++
      (511 : BitVec 9) ++ (16384 : BitVec 15) ++ (8192 : BitVec 14) ++ (0 : BitVec 30)).toNat = true ∧
    domValid { up with mu := { domains := [(65535, { state := .opened })] } }
      ((2 : BitVec 8) ++ (65535 : BitVec 16) ++ (0 : BitVec 104)).toNat = true ∧
    domValid up ((1 : BitVec 8) ++ (0 : BitVec 120)).toNat = false ∧ domValid up ((2 : BitVec 8) ++ (0 : BitVec 120)).toNat = false ∧
    (let s : State := { up with mu := { domains := [(65535, { state := .closing })] } };
     (domain s 65535).state = .closing ∧ s.mu.placing.any (fun e => e.2.domain == 65535) = false) ∧
    domOn up dCX = true := by decide +kernel

/-- A request from node 5 endpoint 1 to this module's endpoint 0, in tenant 5. -/
def reqPkt (type : Nat) (payload : List Byte) (mlen w2 w3 w4 : Nat) : Packet :=
  { type := type, tenant := 5, dest := 0, source := 5 * 4096 + 1, th := reqTH 3 0 mlen 0 w2 w3 w4, payload := payload }

def recv2 : Queue := { send2 with type := qRECV }
def post (any : Bool) : SendOp := { n := 0, desc := 1 + (5 * 4096 + 1) * 2 ^ 64 + b2n any * 2 ^ 10 + 9 * 2 ^ 192 }
def eager9 : UMsg := { kind := .eager, packet := reqPkt tTSEND [] 0 0 9 0, flow := 0 }
def posted0 : Recv := recvOf 2 recv2 (post true)

/-- Queue 2 with one descriptor, and domain 0 of tenant 5 as given. -/
def withDomain (q : Queue) (x : Domain) : State :=
  { withQueues [(2, q), (3, cq3)] with mu := { domains := [(0, x)] } }
def opened (u : List UMsg) (r : List Recv) : Domain := { state := .opened, tenant := 5, unexpected := u, posted := r }

theorem wit_MatchingDomainsReceivesAndMessages_receives :
    ((opened [eager9] []).unexpected.find? fun u => accepts posted0 u.packet) = some eager9 ∧
    ((opened [] []).unexpected.find? fun u => accepts posted0 u.packet) = none ∧
    postedAll (withDomain { recv2 with ops := [post true] } (opened [] [])) <
      capPosted (withDomain { recv2 with ops := [post true] } (opened [] [])) ∧
    dOPCODE (post true).desc = 1 ∧ dDOMAIN (post true).desc = 0 ∧
    postedIn (withDomain { recv2 with ops := [{ n := 1, desc := 2 }] } (opened [] [posted0])) 2 0 = some (0, posted0) ∧
    postedIn (withDomain { recv2 with ops := [{ n := 1, desc := 2 }] } (opened [] [])) 2 0 = none ∧
    (domain (withDomain recv2 (opened [] [])) 0).state = .opened ∧
    (domain (withDomain recv2 (opened [] [])) 0).tenant = posted0.tenant ∧ dOPCODE 2 = 2 := by
  decide +kernel

/-- The front of the reliability layer takes a packet as a message's first. -/
def taken (p : Packet) (s : State) : Bool :=
  match front p (takeDelivered p s) with
  | (.take _ true, _) => true
  | _ => false
def past (p : Packet) (s : State) : State := (front p (takeDelivered p s)).2

/-- Domain 0 is open, and both ends of a triple have their sequence contexts. -/
def sequenced : State := { withDomain { send2 with ops := [{ n := 0, desc := 1 + 5 * 4096 * 2 ^ 64 }] } (opened [] []) with
  mu := { domains := [(0, opened [] [])], seqs := [
    { sending := true, source := 0, dest := 5 * 4096, domain := 0, next := 2 ^ 24 - 1 },
    { sending := false, source := 5 * 4096 + 1, dest := 0, domain := 0, next := 2 ^ 24 - 1 }] } }

theorem wit_MatchingDomainsReceivesAndMessages_tsend :
    (startable sequenced 2 (fun op => op = 1)).isSome = true ∧ ownIdentity sequenced 0 = 0 ∧
    (sequenced.mu.seqs.find? (isSendSeq 0 (5 * 4096) 0)).isSome = true ∧
    (domain sequenced 0).state = .opened ∧ (domain sequenced 0).tenant = (queue sequenced 2).tenant ∧
    msgMayStart sequenced { source := 0, dest := 5 * 4096, tenant := 5 } (baseMsg tTSEND 2 (queue sequenced 2)
      { n := 0, desc := 1 + 5 * 4096 * 2 ^ 64 }) = true := by decide +kernel
theorem wit_MatchingDomainsReceivesAndMessages_tsendFirst :
    let o : SendOp := { n := 0, desc := 1 + 5 * 4096 * 2 ^ 64 }
    let s := withDomain { send2 with ops := [o] } (opened [] [])
    startable s 2 (fun op => op = 1) = some o ∧ s.mu.seqs.find? (isSendSeq 0 (5 * 4096) 0) = none ∧
    s.mu.seqs.length < capSeqs s ∧
    msgMayStart s { source := 0, dest := 5 * 4096, tenant := 5 } (baseMsg tTSEND 2 (queue s 2) o) = true ∧
    (let s := withDomain { send2 with ops := [o] } {}
     startable s 2 (fun op => op = 1) = some o ∧ (domain s 0).state ≠ .opened) := by decide +kernel
theorem wit_MatchingDomainsReceivesAndMessages_arrivals : ∀ t ∈ [tTSEND, tRTS, tSKIP],
    let p := reqPkt t [] 0 0 0 (2 ^ 24 - 1)
    taken p sequenced = true ∧ (domain (past p sequenced) (pDOMAIN p)).state = .opened ∧
    (domain (past p sequenced) (pDOMAIN p)).tenant = p.tenant ∧
    recvNext (past p sequenced) (pDOMAIN p) p = some (pMSEQ p) ∧ isPacket [t] p = true := by decide +kernel

/-- A TSEND of 64 B whose handle 6 an RGET names. -/
def handle6 : Handle := {
  qn := 2, entry := 0, source := 0, dest := 5 * 4096 + 1, asid := 1, rights := 0, mlen := 64, laddr := 0, frags := [] }
def handled : State := { up with mu := { handles := [(6, handle6)] } }

theorem wit_MatchingDomainsReceivesAndMessages_rget :
    let p := reqPkt tRGET [] 64 6 0 0
    taken p handled = true ∧ isPacket [tRGET] p = true ∧ mget? (past p handled).mu.handles (pW2 p) = some handle6 ∧
    handle6.dest = p.source ∧ handle6.source = p.dest ∧ pOFFSET p + pMLEN p ≤ handle6.mlen := by decide +kernel
/-! ### 05_remote_access.md -/

/-- A SEND queue whose next operation has an opcode, with connection 5 open. -/
def sending (op : Nat) : State := { withQueues [(2, { send2 with ops := [{ n := 0, desc := op + 5 * 2 ^ 64 }] }), (3, cq3)] with
  ra := { conns := [(5, { state := .opened, tenant := 5, peer := 5 * 4096, peerConn := 7 })] } }

theorem wit_RemoteOperationsStart_go : ∀ op ∈ [2, 3, 4, 8, 9, 10, 11, 12, 0x10, 0x11, 0x12],
    startable (sending op) 2 (fun x => x = op) = some { n := 0, desc := op + 5 * 2 ^ 64 } ∧
    (∀ c ∈ [none, some 5], msgMayStart (sending op) { source := 0, dest := 5, tenant := 5, conn := c }
      (baseMsg tPUT 2 (queue (sending op) 2) { n := 0, desc := op + 5 * 2 ^ 64 }) = true) ∧
    (let c := sget {} (sending op).ra.conns 5
     c.fn = (queue (sending op) 2).fn ∧ c.tenant = (queue (sending op) 2).tenant ∧ c.state = .opened) := by
  decide +kernel

/-- The same operations on a connection in another state. -/
def sendingOn (op : Nat) (c : ConnState) (tenant : Nat) : State := { sending op with
  ra := { conns := [(5, { state := c, tenant := tenant, peer := 5 * 4096, peerConn := 7 })] } }

theorem wit_RemoteOperationsStart_stop : ∀ op ∈ [0x10, 0x11, 0x12],
    (startable (sendingOn op .error 5) 2 (fun x => x = op)).isSome = true ∧
    (sget {} (sendingOn op .error 5).ra.conns 5).tenant = (queue (sendingOn op .error 5) 2).tenant ∧
    (sget {} (sendingOn op .closing 5).ra.conns 5).state = .closing ∧
    (sget {} (sendingOn op .opened 6).ra.conns 5).tenant ≠ (queue (sendingOn op .opened 6) 2).tenant := by decide +kernel

/-- Region 1 of tenant 5 with tag 2 and every right, connection 0 open to the sender. -/
def regional : State := { up with
  hl := { up.hl with links := [(0, { up := true, perstN := true, atomicReq := true })] }
  ra := {
    regions := [(1, { state := .live, tag := 2, tenant := 5, rd := true, wr := true, at_ := true, notify := 2,
                      length := 4096, base := 4096 })]
    conns := [(0, { state := .opened, peer := 5 * 4096 + 1, tenant := 5 })] } }
def keyed (t w3 : Nat) (payload : List Byte) : Packet := reqPkt t payload 8 (2 * 2 ^ 20 + 1) w3 0

/-- The last byte of the region, and the first past it. -/
theorem wit_RequestsReachTheirRegion_put : ∀ t ∈ [tPUT, tPUTIMM, tCPUT],
    let p := keyed t 8191 [1]
    taken p regional = true ∧ regionCheck (past p regional) p = none ∧ connOk (past p regional) p = true ∧
    isPacket [t] p = true ∧ regionCheck (past p regional) (keyed t 8192 [1]) = some rBOUNDS := by decide +kernel
theorem wit_RequestsReachTheirRegion_read : ∀ t ∈ [tGET, tCGET, tFADD64, tSWAP64, tCAS64],
    let p := keyed t 8184 []
    taken p regional = true ∧ regionCheck (past p regional) p = none ∧ connOk (past p regional) p = true ∧
    pMLEN p ≠ 0 ∧ isPacket [t] p = true ∧ regionCheck (past p regional) (keyed t 8185 []) = some rBOUNDS := by
  decide +kernel
theorem wit_RequestsReachTheirRegion_other :
    (let p := keyed tCAS128 8176 []
     taken p regional = true ∧ regionCheck (past p regional) p = none ∧ isPacket [tCAS128] p = true ∧
     (hostLink (past p regional) (fnLink (region (past p regional) (keyRegion (pW2 p))).fn)).atomicReq = true) ∧
    (let p := reqPkt tFLUSH [] 0 0 1 0
     taken p regional = true ∧ isPacket [tFLUSH] p = true) ∧
    (let p := reqPkt tCSEND [1] 1 0 0 0
     taken p regional = true ∧ connOk (past p regional) p = true ∧ isPacket [tCSEND] p = true ∧
     sendOverflow 0 p (past p regional) = false ∧ orderWaits (past p regional) (past p regional).ra.ordered 0 p = false) := by
  decide +kernel

/-- An ORDER packet behind another of its flow that waits. -/
def orderPkt (rsn : Nat) : Packet := { keyed tPUT 8191 [1] with order := true, th := reqTH rsn 0 8 0 (2 * 2 ^ 20 + 1) 8191 0 }
def ordering : State := { regional with ra := { regional.ra with
  ordered := [{ flow := 0, first := true, packet := orderPkt 2 }] } }
/-- The region where its link allows no AtomicOps, with a flow whose connection is closed. -/
def closedConn : State := { regional with
  hl := up.hl
  ra := { regional.ra with
    conns := [(0, { state := .closed })], nextFlow := 1, tgt := [(0, { key := tgtKey (keyed tCSEND 8184 []), upTo := 3 })] } }

theorem wit_RequestsReachTheirRegion_order :
    taken (orderPkt 3) ordering = true ∧
    orderWaits (past (orderPkt 3) ordering) (past (orderPkt 3) ordering).ra.ordered 0 (orderPkt 3) = true ∧
    (∀ t ∈ [tPUT, tPUTIMM, tGET, tFADD64, tCSEND, tCPUT, tCGET],
      isPacket [t] { orderPkt 3 with type := t, payload := if t = tGET || t = tFADD64 || t = tCGET then [] else [1] } = true) ∧
    (∀ t ∈ [tPUT, tGET, tCAS64, tCPUT], orderWaits (past (keyed t 8184 []) regional)
      (past (keyed t 8184 []) regional).ra.ordered 0 (keyed t 8184 []) = false) := by decide +kernel
theorem wit_RequestsReachTheirRegion_refused :
    regionCheck (past (keyed tPUT 8192 [1]) regional) (keyed tPUT 8192 [1]) = some rBOUNDS ∧
    regionCheck (past (keyed tCGET 8185 []) regional) (keyed tCGET 8185 []) = some rBOUNDS ∧
    (∀ t ∈ [tCSEND, tCPUT, tCGET], taken (keyed t 8184 []) closedConn = true ∧
      connOk (past (keyed t 8184 []) closedConn) (keyed t 8184 []) = false) ∧
    (hostLink (past (keyed tCAS64 8184 []) closedConn) 0).atomicReq = false ∧
    regionCheck (past (keyed tCAS64 8184 []) closedConn) (keyed tCAS64 8184 []) = none := by decide +kernel

/-- A flow to the answerer with one message of a type and phase. -/
def awaiting (m : Msg) : State := { up with
  ra := { nextFlow := 1, src := [(0, { key := { source := 0, dest := 5 * 4096 + 1, tenant := 5 }, msgs := [m] })]
          base := [(0xFFFFF, { value := 1, since := 0 })] }
  tb := { count := 2 ^ 40 } }
def msgOf (type : Nat) (owner : MsgOwner) (ph : MsgPhase) : Msg :=
  { type := type, rsn := 3, owner := owner, mlen := 8, phase := ph }
def rspPkt (t : Nat) (payload : List Byte) : Packet :=
  { type := t, tenant := 5, dest := 0, source := 5 * 4096 + 1, th := rspTH 3 0 8 0 0 false false, payload := payload }

theorem wit_AnswersAndIntervalsOfRemoteAccess_arrive :
    answerFlows (awaiting (msgOf tPUT (.desc 2 0) .waiting)) (rspPkt tACK []) endsWithAck = [0] ∧
    (srcMsg (awaiting (msgOf tPUT (.desc 2 0) .waiting)) 0 3).isSome = true ∧
    answerFlows (awaiting (msgOf tPUT (.desc 2 0) .waiting)) (rspPkt tREFUSAL []) (fun _ => true) = [0] ∧
    answerFlows (awaiting (msgOf tGET (.desc 2 0) .waiting)) (rspPkt tGETDATA [0])
      (fun m => m.type == tGET || m.type == tCGET || m.type == tRGET) = [0] ∧
    answerFlows (awaiting (msgOf tCAS128 (.desc 2 0) .waiting)) (rspPkt tATOMRESP [0])
      (fun m => m.type == tFADD64 || m.type == tSWAP64 || m.type == tCAS64 || m.type == tCAS128) = [0] ∧
    (∀ t ∈ [tACK, tREFUSAL, tGETDATA, tATOMRESP, tLOSS], isPacket [t] (rspPkt t []) = true) := by decide +kernel
theorem wit_AnswersAndIntervalsOfRemoteAccess_intervals :
    (let s := awaiting (msgOf tPUT (.desc 2 0) .waiting)
     (srcMsg s 0 3).any (fun m => awaits m && !answered m && m.refusal.isNone && m.sentAt + rc s 0x7830 0 ≤ ticks s && !(m.owner == .skip)) = true) ∧
    (srcMsg (awaiting (msgOf tSKIP .skip .waiting)) 0 3).any (fun m => awaits m && !answered m && m.owner == .skip) = true ∧
    (∀ c ∈ [rRNR, rFLOWCTX, rPAGERETRY, rMURETRY], (srcMsg (awaiting (msgOf tPUT (.desc 2 0) (.retry c))) 0 3).any
      (fun m => m.phase == .retry c && m.due ≤ 2 ^ 40) = true) ∧
    (let s := awaiting (msgOf tPUT (.desc 2 0) .heldRed)
     policerReady s 5 (64 + nextLen (msgOf tPUT (.desc 2 0) .heldRed)) = true ∧
     (mget? s.ra.base 0xFFFFF).any (fun b => decide (b.since + rc s 0x7845 0 ≤ ticks s)) = true) := by decide +kernel

/-- A target flow that has been idle, and an access of a packet that stalls on record 4095. -/
def stalled : State :=
  let p := keyed tPUT 8191 [1]
  { regional with
    ra := { regional.ra with tgt := [(0, {
      key := tgtKey p, upTo := 3, msgs := [{ rsn := 3, packet := p, attempt := 0, offsets := [0] }] })] }
    tb := { count := 2 ^ 62 }
    tu := { recs := [(4095, { kind := 1, waiters := [{
      asid := 1, addr := 8191, len := 1, data := some [1], cls := .region, cont := .place p 0 }] })] } }

theorem wit_AnswersAndIntervalsOfRemoteAccess_stall :
    (let due (a : Acc) : Bool := a.cls == .region && a.deadline ≤ ticks stalled
     (firstDue stalled 4095 due).any (fun a => a.cont == .place (keyed tPUT 8191 [1]) 0) = true ∧
     (liveMsg (takeWaiter 4095 due stalled) (keyed tPUT 8191 [1])).isSome = true) ∧
    (let s := { stalled with ra := { stalled.ra with tgt := [(0, { key := tgtKey (keyed tPUT 8191 [1]), upTo := 3 })] } }
     (tgtFlow s 0).any (fun x => idleTgt x && !connHeld s x.key &&
       x.lastAt + (rc s 0x7831 0 + 2) * rc s 0x7830 0 ≤ ticks s) = true) := by decide +kernel

/-- REMOTE commands of the admin queue of function 0. -/
def srq6 : Queue := { send2 with type := qSRQ }
def remote (rest : Nat) (r : Remote) : State :=
  { withQueues (adminPair (0x88 + rest) ++ [(3, cq3), (4, eq4), (6, srq6)]) with ra := r }
def registerRest : Nat := 2 ^ 508 + 0xFFFFF * 2 ^ 488 + 0xFFF * 2 ^ 476 + 5 * 2 ^ 460 + 2 ^ 444 + 6 * 2 ^ 424 + 4 * 2 ^ 404 +
  2 ^ 48 * 2 ^ 320
def deregRest : Nat := 2 * 2 ^ 508 + 7 * 2 ^ 488 + 9 * 2 ^ 476
def openRest : Nat := 3 * 2 ^ 508 + 0xFFFFFF * 2 ^ 484 + 4096 * 2 ^ 428 + 5 * 2 ^ 412 + 6 * 2 ^ 392 + 4 * 2 ^ 372
def closeRest : Nat := 4 * 2 ^ 508 + 0xFFFFFF * 2 ^ 484

theorem wit_RegionsAndConnectionsOpenAndClose_register :
    let s := remote registerRest {}
    let d := 0x88 + registerRest
    (nextAdmin s 0).isSome = true ∧ rACTION d = 1 ∧ rTENANTOF d = 5 ∧ rLENGTH d = 2 ^ 48 ∧ rBASE d + rLENGTH d ≤ 2 ^ 48 ∧
    isSrq s 0 (rNOTIFY d) = true ∧ isEventQueue s 0 (rEQN d) = true ∧ tenantOk s 0 (rTENANTOF d) = true ∧
    asidOk s 0 (rASID d) (rTENANTOF d) = true ∧ (region s (rREGION d)).state = .free ∧
    regionsUsed s < capRegions s := by decide +kernel
theorem wit_RegionsAndConnectionsOpenAndClose_deregister :
    let s := remote deregRest { regions := [(7, { state := .live, tag := 9 })] }
    let d := 0x88 + deregRest
    (nextAdmin s 0).isSome = true ∧ rACTION d = 2 ∧ fld d 475 256 = 0 ∧ (region s (rREGION d)).state = .live ∧
    (region s (rREGION d)).tag = rTAG d := by decide +kernel
theorem wit_RegionsAndConnectionsOpenAndClose_connections :
    (let s := remote openRest {}
     let d := 0x88 + openRest
     (nextAdmin s 0).isSome = true ∧ rACTION d = 3 ∧ rCTENANT d = 5 ∧ nodeBad s (idNode (rPEER d)) = false ∧
     isSrq s 0 (rSRQN d) = true ∧ isEventQueue s 0 (rCEQN d) = true ∧ tenantOk s 0 (rCTENANT d) = true ∧
     (conn s (rCONN d)).state = .closed ∧ connsOpen s < 16777216 ∧ connsOpen s < 65536 + rc s 0x7821 0) ∧
    (∀ force ∈ [0, 512],
     let s := remote (closeRest + force) { conns := [(0xFFFFFF, { state := .opened })] }
     let d := 0x88 + closeRest + force
     (nextAdmin s 0).isSome = true ∧ rACTION d = 4 ∧ (conn s (rCONN d)).state = .opened ∧
     (conn s (rCONN d)).closeBy = none ∧ connOps s (rCONN d) = []) := by decide +kernel
theorem wit_RegionsAndConnectionsOpenAndClose_ends :
    let s := remote 0 {
      regions := [(0xFFFFF, { state := .draining, dereg := some (0, 0, 3) })]
      conns := [(0xFFFFFF, { state := .closing, closeBy := some (0, 0) })] }
    regionBusy s 0xFFFFF = false ∧ (region s 0xFFFFF).dereg = some (0, 0, 3) ∧ connOps s 0xFFFFFF = [] ∧
    (conn s 0xFFFFFF).closeBy = some (0, 0) := by decide +kernel

/-! ### 06_collectives.md -/

/-- Group 4095 in generation 7 of tenant 5 and queue 2: its parent is node 9, its child node 5. -/
def group1 : Group := { state := .active, gen := 7, tenant := 5, qn := 2, window := 4, kids := [[5]], parent := some 9
                        top := 9, digest := 77 }
def withGroup (x : Group) (q : Queue) : State := { withQueues [(2, q), (3, cq3)] with ce := { groups := [(4095, x)] } }
def collDesc (op : Nat) : SendOp := { n := 0, desc := op + 4095 * 2 ^ 64 + 7 * 2 ^ 76 }
def collOp (op : Nat) (x : Group) : State := withGroup x { send2 with ops := [collDesc op] }

theorem wit_GroupsAndStepsStart_start : ∀ op ∈ [0x40, 0x41, 0x42, 0x43, 0x44],
    startable (collOp op group1) 2 (fun k => k = op) = some (collDesc op) ∧ createsWait (collOp op group1) = false ∧
    gGROUP (collDesc op).desc = 4095 ∧ gGEN (collDesc op).desc = 7 ∧
    group (collOp op group1) 4095 = group1 ∧ (openSteps group1).length < group1.window ∧
    (group (collOp op {}) 4095).state = .free ∧ (group (collOp op { group1 with gen := 8 }) 4095).gen ≠ 7 ∧
    (group (collOp op { group1 with qn := 6 }) 4095).qn ≠ 2 ∧
    (group (collOp op { group1 with state := .broken }) 4095).state = .broken := by decide +kernel

/-- The item of a GROUP_CREATE finds a context. -/
theorem wit_GroupsAndStepsStart_create :
    let s := collOp 0x40 {}
    createsWait s = false ∧ poweredSet s (rc s 0x8410 0) ≠ [] ∧ pickCtx s (rc s 0x8410 0) = some (0, 0) := by
  decide +kernel

/-- A held step of it, whose launch instant is reached. -/
def launching : State := { withGroup { group1 with steps := [{ num := 0xFFFFFFFF, entry := some 0 }] } send2 with
  tb := { armed := [{ owner := .launch 4095 0xFFFFFFFF, instant := 0, late := false }] } }

theorem wit_GroupsAndStepsStart_launch :
    shotDue launching (.launch 4095 0xFFFFFFFF) = true ∧
    dueUpTo (.launch 4095 0xFFFFFFFF) launching = [.launch 4095 0xFFFFFFFF] ∧
    (stepOf (fireShot (.launch 4095 0xFFFFFFFF) launching).2 4095 0xFFFFFFFF).any (fun p => p.state == .held) = true := by
  decide +kernel

/-- A packet of group 4095 from a node. -/
def collPkt (node : Nat) (m : CollMsg) : Packet :=
  { type := tCOLL, tenant := 5, dest := 0, source := node * 4096, th := collTH 4095 7 m, payload := m.payload }
/-- What the group's unit sees of the packet: not stale, from a neighbour, and the group as it stands then. -/
def atGroup (p : Packet) (x : Group) (ok : State → Group → Bool) : Bool :=
  let s0 := takeDelivered p (withGroup x send2)
  let s1 := if p.squall then { s0 with ce := { s0.ce with squallMarks := s0.ce.squallMarks + 1 } } else s0
  let s2 := heardFrom (cGROUP p) (idNode p.source) s1
  isPacket [tCOLL] p && !stale s1 p && (neighbours (group s1 (cGROUP p))).contains (idNode p.source) &&
    ok s2 (group s2 (cGROUP p))
def joining1 : Group := { group1 with state := .joining }
def sig8 : Nat := 0x43 * 2 ^ 112 + 8 * 2 ^ 84
def stepped (st : StepState) : Group := { group1 with steps := [{ num := 3, entry := some 0, state := st, sig := sig8 }] }

/-- The partial results of an EXACT sum, whose element header has a reserved bit set (Table 06-8). -/
def sigSum : Nat := 0x42 * 2 ^ 112 + 4 * 2 ^ 104 + 2 * 2 ^ 102 + 8 * 2 ^ 84
def badExact : List Byte := leBytes 8 1

theorem wit_CollectivePacketsReachTheirGroup_join :
    atGroup (collPkt 5 { kind := kJOIN, arg := 77 }) joining1 (fun _ x =>
      (kidsOf x).contains 5 && x.state == .joining && x.digest == 77 && !x.joined.contains 5) = true ∧
    atGroup (collPkt 9 { kind := kREADY }) joining1 (fun _ x => x.parent == some 9) = true ∧
    atGroup (collPkt 9 { kind := kABANDON }) joining1 (fun _ x => x.state == .joining) = true := by decide +kernel
theorem wit_CollectivePacketsReachTheirGroup_steps :
    atGroup (collPkt 5 { kind := kCONTRIB, step := 3, sig := sig8, payload := List.replicate 8 0 }) (stepped .launched)
      (fun s x => awaitsDecision x && (kidsOf x).contains 5 && (stepOf s 4095 3).any fun st =>
        st.state != .waiting && st.state != .result && st.aborted.isNone && stepOpen st && st.sig == sig8 &&
        st.parts.isEmpty) = true ∧
    contribOk (collPkt 5 { kind := kCONTRIB, step := 3, sig := sig8, payload := List.replicate 8 0 }) = true ∧
    contribOk (collPkt 5 { kind := kCONTRIB, step := 3, sig := sigSum, payload := badExact }) = false ∧
    atGroup (collPkt 5 { kind := kCONTRIB, step := 3, sig := sigSum, payload := badExact }) (stepped .launched)
      (fun _ _ => true) = true ∧
    atGroup { collPkt 5 { kind := kCONTRIB, step := 3, sig := sig8 + 1, payload := [0] } with squall := true }
      { stepped .launched with undecided := true, state := .broken }
      (fun s x => awaitsDecision x && (stepOf s 4095 3).any fun st => stepOpen st && st.sig != sig8 + 1) = true ∧
    atGroup (collPkt 9 { kind := kRESULT, step := 3, payload := List.replicate 8 0 }) (stepped .waiting)
      (fun s x => x.parent == some 9 && (stepOf s 4095 3).any fun st =>
        st.state == .waiting && st.resParts.isEmpty && sgLEN st.sig == 8 && sgOPCODE st.sig != 0x44) = true ∧
    atGroup (collPkt 9 { kind := kRESULT, step := 3, off := 4, payload := List.replicate 4 0 })
      { stepped .waiting with steps := [{ num := 3, state := .waiting, sig := sig8, fetching := true }] }
      (fun s x => x.parent == some 9 && (stepOf s 4095 3).any fun st => st.fetching && sgLEN st.sig > 4) = true ∧
    atGroup (collPkt 9 { kind := kABORT, step := 3 }) (stepped .waiting)
      (fun s x => !isTop s x && x.parent == some 9 && abortNew s 4095 3) = true ∧
    atGroup (collPkt 5 { kind := kABORT, step := 3 }) { stepped .waiting with top := 0, parent := none }
      (fun s x => isTop s x) = true ∧
    atGroup (collPkt 5 { kind := kHEARTBEAT }) group1 (fun _ _ => true) = true := by decide +kernel
theorem wit_CollectivePacketsReachTheirGroup_losses :
    atGroup (collPkt 5 { kind := kDEPART, reason := 32 }) group1 (fun _ x => (neighbours x).contains 5) = true ∧
    atGroup (collPkt 5 { kind := kLOST, arg := 5 }) { group1 with top := 0, parent := none }
      (fun s x => x.state == .active && isTop s x) = true ∧
    atGroup (collPkt 5 { kind := kFETCH, step := 3 }) { group1 with
        top := 0, parent := none
        kept := [{ num := 3, sig := 0, bytes := [1], late := false, overflow := false, poison := false, tclass := 0 }] }
      (fun s x => isTop s x && (x.kept.find? fun k => k.num == 3).any fun k => resultParts k.bytes == [(0, k.bytes)]) =
      true ∧
    atGroup (collPkt 5 { kind := kBROKEN, arg := 2 }) { group1 with lost := some (9, 33) }
      (fun _ x => awaitsDecision x && x.top != 5 && x.lost.any fun l => l.1 == x.top) = true ∧
    (∀ l ∈ [none, some (5, 33)], atGroup (collPkt 5 { kind := kBROKEN, arg := 0xFFFFFFFF })
      { group1 with state := .broken, undecided := true, lost := l }
      (fun _ x => awaitsDecision x && x.top != 5 && !x.lost.any fun l => l.1 == x.top) = true) ∧
    stale (withGroup { group1 with tenant := 6 } send2) (collPkt 5 { kind := kJOIN }) = true ∧
    stale (withGroup {} send2) (collPkt 5 { kind := kJOIN }) = true ∧
    stale (withGroup { group1 with gen := 8 } send2) (collPkt 5 { kind := kREADY }) = true := by decide +kernel

theorem wit_CollectiveIntervalsTakeEffect :
    (let x : Group := { joining1 with joinSent := true }
     x.joinAt ≤ ticks (withGroup x send2) ∧ x.parent = some 9 ∧ x.joinBy ≤ ticks (withGroup x send2)) ∧
    (let x : Group := { stepped .waiting with heard := [(5, 0)] }
     openSteps x ≠ [] ∧ x.beatAt ≤ ticks (withGroup x send2) ∧ (neighbours x).contains 5 = true ∧
     mget? x.heard 5 = some 0) ∧
    (let x : Group := { group1 with top := 0, parent := none, steps := [{ num := 3, entry := some 0, due := 1 }] }
     let s : State := { withGroup x send2 with tb := { count := 1 } }
     (stepOf s 4095 3).any (fun p => p.due != 0 && p.due ≤ ticks s) = true ∧ isTop s (group s 4095) = true) := by
  decide +kernel

/-! ### 07_translation.md -/

/-- Address space 65535 in a state, and the READY event queue 4 of function 0. -/
def withSpace (a : AddrSpace) (t : Trans) : State :=
  { withQueues [(4, eq4)] with tu := { t with spaces := [(65535, a)] } }
def live0 : AddrSpace := { state := .live, tenant := 5 }

theorem wit_AddressSpacesAndFaultRecords_spaces :
    (∀ w ∈ [none, some 0],
      asValid (withSpace {} {}) w (asWord 1 65535 0 5 4 true true 0 7 0 4096 0) = true ∧
      asValid (withSpace live0 {}) w (asWord 3 65535 0 5 4 true true 0 7 0 4096 0) = true ∧
      asValid (withSpace live0 {}) w (asWord 1 65535 0 5 4 true true 0 7 0 4096 0) = false ∧
      asValid (withSpace {} {}) w (asWord 3 65535 0 5 4 true true 0 7 0 4096 0) = false ∧
      asValid (withSpace live0 {}) w ((2 : BitVec 8) ++ (65535 : BitVec 16) ++ (0 : BitVec 10) ++ (0 : BitVec 222)).toNat =
        true) ∧
    asidBusy (withSpace { live0 with state := .closing } {}) 65535 = false := by decide +kernel
theorem wit_AddressSpacesAndFaultRecords_invalidations :
    transValid (withSpace live0 {}) { issuer := 1023, word := ((1 : BitVec 8) ++ (65535 : BitVec 16) ++ (1 : BitVec 16) ++
      BitVec.ofBool true ++ BitVec.ofBool true ++ BitVec.ofBool false ++ BitVec.ofBool false ++ (1 : BitVec 20) ++
      (0 : BitVec 16) ++ (0xFFFFFFFFF : BitVec 36) ++ (0 : BitVec 12)).toNat } = true ∧
    (let s := withSpace live0 { invals := [{ issuer := 1023, asid := 65535, token := 1, waitTags := [7] }] }
     (s.tu.invals.find? fun v => v.issuer == 1023).isSome = true ∧ (mget? s.tu.reads 7).isSome = false ∧
     (space s 65535).state ≠ .free ∧ s.tu.held = []) := by decide +kernel
theorem wit_AddressSpacesAndFaultRecords_records :
    let s := withSpace live0 { recs := [(4095, { seq := 15, asid := 65535, kind := 1, waiters := [{
      asid := 65535, addr := 0, len := 8, data := none, cls := .localBuf, cont := .none }] })] }
    (recOf s 65535 65535).isSome = true ∧ invalsOf s 1023 = [] ∧
    (∀ op ∈ ([2, 3] : List (BitVec 8)), transValid s { issuer := 1023, word := (op ++ (65535 : BitVec 16) ++ (65535 : BitVec 16) ++
      (0 : BitVec 88)).toNat } = true) ∧
    (firstDue s 4095 (fun a => a.cls != .region && a.deadline ≤ ticks s)).isSome = true := by decide +kernel

/-! ### 09_routing.md and 13_message_engines.md, lanes -/

/-- Port 0 leads to coordinate 5 of dimension 0 and port 71 to coordinate 6; the ports named are UP. -/
def routing (upPorts : List Nat) (r : Routing) : State := { up with rt := { r with
  live := { map := { mode := .direct, dim := 0, coord := 5 } :: (List.replicate 70 { mode := .disabled, dim := 0, coord := 0 } ++
    [{ mode := .direct, dim := 0, coord := 6 }]), absent := [8] }
  ports := upPorts.map fun p => (p, { state := .up, peer := some (if p = 0 then 5 else 6) }) } }
/-- A PUT to a node after some hops. -/
def putTo (node hops : Nat) : Packet :=
  { type := tPUT, tenant := 5, dest := node * 4096, source := 6 * 4096, hops := hops, th := reqTH 3 0 0 0 0 0 0 }
def direct0 : Cand := { port := 0, dim := 0, cross := false }
def cross71 : Cand := { port := 71, dim := 0, cross := true }

theorem wit_PacketsAreRoutedAndHealthIsKept_inject :
    (routeOf (routing [0, 71] {}) (putTo 0 0)).1 = .here ∧ (routeOf (routing [0, 71] {}) (putTo 8 0)).1 = .none ∧
    (routeOf (routing [0, 71] {}) (putTo 5 0)).1 = .port direct0 ∧
    (routing [0, 71] { inject := [putTo 5 0] }).pr.departure = .joined := by decide +kernel
theorem wit_PacketsAreRoutedAndHealthIsKept_transit :
    opensOperation (putTo 5 0) = true ∧ isRouted tPUT = true ∧
    (let s := routing [71] { ingress := [{ port := 71, packet := putTo 5 1 }] }
     (s.rt.ingress.find? fun i => i.port == 71 && isRouted i.packet.type).isSome = true) ∧
    (routeOf (routing [71] {}) (putTo 0 1)).1 = .here ∧
    (routeOf (routing [71] {}) { putTo 5 1 with tepoch := 3 }).1 = .stale ∧
    (routeOf (routing [71] {}) (putTo 8 7)).1 = .none ∧ (routeOf (routing [71] {}) (putTo 5 1)).1 = .port cross71 := by
  decide +kernel

/-- A packet in transit that has waited on a single virtual channel. -/
def waitingOn (v : Nat) : State := { up with
  fs := { ports := [(71, { queue := [{
    packet := { putTo 5 2 with vc := v }, flow := 0, cost := 1, since := 0, from_ := some 0, waitTo := some 7 }] })] }
  tb := { count := 7 } }

theorem wit_PacketsAreRoutedAndHealthIsKept_waits : ∀ v ∈ [16, 18],
    ((portFlow (waitingOn v) 71).queue.find? fun q => q.packet.vc == v && 1 < q.packet.hops && !creditOk (waitingOn v) 71 q &&
      q.waitTo.any fun t => t ≤ ticks (waitingOn v)).isSome = true := by decide +kernel
theorem wit_PacketsAreRoutedAndHealthIsKept_health :
    (let p : Packet := { type := tLINKCTL, dest := 0, source := 6 * 4096, th := linkCtlTH 3 (3 * 2 ^ 62) }
     Instr.wf (.healthArrive 71 p) = true ∧
     fld (kARG p) 61 48 = 0 ∧ fld (kARG p) 39 37 = 0 ∧ fld (kARG p) 63 62 < (usedSizes (shape (takeIngress 71 p true (routing [71] {})))).length) ∧
    replicaUsed (routing [71] {}) 0x6010 71 = true ∧
    up.rt.healthAt ≤ ticks up ∧ up.rt.vaneAt ≤ ticks up ∧ up.rt.replicaAt ≤ ticks up := by decide +kernel

/-- A SEND queue whose next operation is a lane service to node 5, with lane 1023 in a state. -/
def laneDesc (op : Nat) : SendOp := { n := 0, desc := op + 5 * 4096 * 2 ^ 64 + 1023 * 2 ^ 384 }
def laning (op : Nat) (ps : List Nat) (x : OLane) : State :=
  { withQueues [(2, { send2 with ops := [laneDesc op] }), (3, cq3)] with
    rt := { (routing ps {}).rt with olanes := if x = {} then [] else [(1023, x)] } }
def lane1 : OLane := { state := .opened, tenant := 5 }
def laneStarts (op : Nat) (s : State) : Bool :=
  startable s 2 (fun k => k = op) == some (laneDesc op) && !(poweredSet s (rc s 0x8410 0)).isEmpty &&
    pickCtx s (rc s 0x8410 0) == some (0, 0)

theorem wit_TradeLanesAtTheirOrigin_open :
    laneStarts 0x30 (laning 0x30 [] {}) = true ∧ laneStarts 0x30 (laning 0x30 [0] {}) = true ∧
    ((lanePath (laning 0x30 [] {}) 5).head?.bind (lanePort (laning 0x30 [] {}))) = none ∧
    ((lanePath (laning 0x30 [0] {}) 5).head?.bind (lanePort (laning 0x30 [0] {}))) = some 0 ∧
    shareReserved (laning 0x30 [0] {}) 0 + 1023 ≤ rc (laning 0x30 [0] {}) 0x6044 0 ∧
    (∀ op ∈ [0x30, 0x31, 0x32],
      let s := laning op [] {}
      let off : State := { s with pr := { s.pr with domains := s.pr.domains.filter fun d => d.1 < 4 } }
      startable off 2 (fun k => k = op) = some (laneDesc op) ∧ poweredSet off (rc off 0x8410 0) = []) := by decide +kernel

/-- With no lane in use, whatever number is drawn is free. -/
theorem freeLnum_unused (s : State) (h : s.rt.olanes = []) : ∃ l, (freeLnum s).1 = some l :=
  ⟨_, by simp [freeLnum, draw, probe, olane, h, sget]; rfl⟩
theorem freeLabel_unused (p : Nat) (s : State) (h : s.rt.olanes = []) (g : s.rt.lanes = []) (r : s.rt.laneRels = []) :
    ∃ b, (freeLabel p s).1 = some b :=
  ⟨_, by simp [freeLabel, draw, probe, labelUsed, h, g, r]; rfl⟩
theorem wit_TradeLanesAtTheirOrigin_numbers :
    let s := startItem 0 0 (.service 2 0) (markStarted 2 0 (laning 0x30 [0] {}))
    (∃ l, (freeLnum s).1 = some l) ∧ ∃ b, (freeLabel 0 (freeLnum s).2).1 = some b :=
  ⟨freeLnum_unused _ rfl, freeLabel_unused 0 _ rfl rfl rfl⟩

theorem wit_TradeLanesAtTheirOrigin_use :
    laneStarts 0x31 (laning 0x31 [0] lane1) = true ∧ laneDenied (laning 0x31 [0] lane1) 2 1023 = none ∧
    (emitting (olane (laning 0x31 [0] lane1) 1023)).isNone = true ∧
    laneDenied (laning 0x31 [0] {}) 2 1023 = some esNOTOPEN ∧ laneDenied (laning 0x32 [0] lane1) 2 1023 = none ∧
    laneStarts 0x32 (laning 0x32 [0] lane1) = true ∧ (olane (laning 0x32 [0] lane1) 1023).sends = [] ∧
    (olane (laning 0 [0] { lane1 with state := .setup }) 1023).deadline ≤ ticks up ∧
    (olane (laning 0 [0] { lane1 with squallHold := true }) 1023).holdUntil ≤ ticks up := by decide +kernel
theorem wit_TradeLanesAtTheirOrigin_notice :
    let p : Packet := { type := tSQUALL, tenant := 5, dest := 0, source := 5 * 4096, th := 1023 * 2 ^ 226 }
    Instr.wf (.squallNoticeArrive p) = true ∧ fld p.th 255 236 = ownNode (laning 0 [0] lane1) ∧
    (olane (takeDelivered p (laning 0 [0] lane1)) (fld p.th 235 226)).state = .opened := by decide +kernel

/-- A lane packet on port 71 under label 9, and a lane table entry for it. -/
def lanePkt (type hops pathLen code origin : Nat) (payload : List Byte) : Packet :=
  { type := type, lane := 9, tenant := 5, hops := hops, dest := 5 * 4096, source := 6 * 4096
    th := laneTH origin 1023 false pathLen code 0 0 0 0 0, payload := payload }
def transit (out : Option (Nat × Nat)) (tentative : Bool) : LaneEntry :=
  { inPort := 71, inLabel := 9, origin := 6, lnum := 1023, tenant := 5, share := 0, tclass := 0, out := out
    tentative := tentative }
/-- The path of a setup: this node, then node 5 × 2^5 in the next dimension, which port 0 leads to. -/
def hopping (entries : List LaneEntry) (up0 : Bool) : State := { up with rt := {
  lanes := entries
  live := { map := { mode := .direct, dim := 1, coord := 5 } :: (List.replicate 70 { mode := .disabled, dim := 0, coord := 0 } ++
    [{ mode := .direct, dim := 0, coord := 6 }]) }
  ports := if up0 then [(0, { state := .up, peer := some 160 })] else [] } }
def setupPkt : Packet := lanePkt tLANESETUP 1 2 0 6 (leBytes 4 0 ++ leBytes 4 160 ++ List.replicate 24 0)

theorem wit_TradeLanesAtTheirHops_setup :
    Instr.wf (.laneSetupArrive 71 setupPkt) = true ∧
    (setupCheck 71 { setupPkt with hops := 3 } (takeIngress 71 setupPkt true (hopping [] true))).1 ≠ 0 := by decide +kernel
theorem wit_TradeLanesAtTheirHops_setup_passes : ∃ q b,
    (setupCheck 71 setupPkt (takeIngress 71 setupPkt true (hopping [] true))).1 = 0 ∧
    (setupCheck 71 setupPkt (takeIngress 71 setupPkt true (hopping [] true))).2.1 = some (q, b) := by
  have e : takeIngress 71 setupPkt true (hopping [] true) = hopping [] true := rfl
  obtain ⟨b, h⟩ := freeLabel_unused 0 (hopping [] true) rfl rfl rfl
  have p : lanePort (hopping [] true) 160 = some 0 := by decide +kernel
  refine ⟨0, b, ?_⟩
  have a : leAt setupPkt.payload 0 4 = ownNode (hopping [] true) := by decide +kernel
  have n : leAt setupPkt.payload 4 4 = 160 := by decide +kernel
  have d : peerDim (hopping [] true) 160 = some 1 := by decide +kernel
  have i : (liveEntry (hopping [] true) 71).dim = 0 := by decide +kernel
  have len : lPATHLEN setupPkt = 2 := by decide +kernel
  have sh : lSHARE setupPkt = 0 := by decide +kernel
  have hp : setupPkt.hops = 1 := rfl
  have l0 : (hopping [] true).rt.lanes = [] := rfl
  rw [e]
  simp [setupCheck, a, n, d, i, len, sh, hp, l0, p, h]

theorem wit_TradeLanesAtTheirHops_use :
    (let p := lanePkt tLANEREPLY 1 2 0 6 []
     Instr.wf (.laneReplyArrive 0 p) = true ∧ lORIGIN p ≠ ownNode up ∧ lCODE p = 0 ∧
     lORIGIN { p with th := 0 } = ownNode up ∧
     ((hopping [transit (some (0, 9)) true] true).rt.lanes.find? fun e =>
       e.out == some (0, p.lane) && e.tentative && !e.gone && e.origin == lORIGIN p && e.lnum == lLNUM p).isSome = true) ∧
    (let p := lanePkt tLANEDATA 1 2 0 6 [1]
     Instr.wf (.laneDataArrive 71 p) = true ∧ laneEntry (takeIngress 71 p false (hopping [] true)) 71 p.lane = none ∧
     heldAt 71 p (hopping [] true) = false ∧
     laneEntry (takeIngress 71 p false (hopping [transit (some (0, 9)) false] true)) 71 p.lane =
       some (transit (some (0, 9)) false)) ∧
    (let p := lanePkt tLANEREL 1 2 0 6 []
     Instr.wf (.laneReleaseArrive 71 p) = true ∧
     carries (hopping [transit (some (0, 9)) false] true) 0 = true ∧
     carries (hopping [transit (some (0, 9)) false] false) 0 = false) ∧
    (hopping [transit none true] true).rt.olanes.all (fun e => !e.2.lastSent) = true ∧
    laneEntry (hopping [transit none true] true) 71 9 = some (transit none true) := by decide +kernel

/-! ### 10_flow_and_scheduling.md, 11_link_layer.md -/

/-- Port 71 with a link, lanes and flow. -/
def port71 (x : PortLink) (y : PortLanes) (f : PortFlow) : State := { up with
  ll := { ports := [(71, x)] }, px := { ports := [(71, y)] }, fs := { ports := [(71, f)] } }
def queued : State := port71 { state := .active } { bringUp := .locked } {
  queue := [{ packet := putTo 5 1, flow := 0, cost := 1, since := 0, from_ := none }], vc := [(0, { credit := 1 })] }

theorem wit_PortsSendPacketsAndCells_start :
    let s1 := settleTags 71 queued
    (pickStart s1 71).any (fun q => mayStartPacket s1 71 q.cost) = true := by decide +kernel
theorem wit_PortsSendPacketsAndCells_sample :
    let s : State := withRc [(0x6860, 0, 42950)] { up with tb := { state := .refLocked, mt := 42950 } }
    rc s 0x6860 0 = 42950 ∧ timeFree s = false ∧ s.fs.nextSample ≤ now s / 42950 := by decide +kernel
theorem wit_PortsSendPacketsAndCells_cells :
    (∀ st ∈ [LinkState.active, .off, .exchange],
      let s := port71 { state := st } { bringUp := .locked } {}
      (portLink s 71).state ≠ .resuming ∧ framed s 71 = true ∧
      allLanes.any (fun l => (laneOf (portLanes s 71) l).drop == .load) = false ∧ testFramed s 71 = false) ∧
    exchanging (port71 { state := .exchange, sinceTrain := 254 } { bringUp := .locked } {}) 71 = true ∧
    exchanging (port71 {} { bringUp := .locked } {}) 71 = false := by decide +kernel
theorem wit_PortsSendPacketsAndCells_timers :
    (let s : State := { port71 { state := .active, replay := [{ kind := 1, seq := 0, payload := [], timeoutAt := 7, allowed := 1 }], silentAt := 7 } {} {} with
       tb := { count := 7 } }
     (portLink s 71).replay.any (fun c => c.timeoutAt ≤ ticks s && !c.due) = true ∧ (portLink s 71).silentAt ≤ ticks s ∧
     (portFlow s 71).markerAt ≤ ticks s) ∧
    (∀ st ∈ [LinkState.resuming, .held], (portLink (port71 { state := st } {} {}) 71).deadline ≤ ticks up) ∧
    (∀ b ∈ [BringUp.locked, .off],
      (portLanes (flush 71 (portFlushed 71 (port71 { state := .resuming } { bringUp := b } {}))) 71).bringUp = b) ∧
    (let s : State := { port71 { state := .active, sampleAt := 7 } {} {} with tb := { count := 7 } }
     (portLink s 71).state = .active ∧ (portLink s 71).sampleAt ≤ ticks s) := by decide +kernel

/-! A cell's CRC fits its field. -/

theorem crcBit_lt (poly c : Nat) (hp : poly < 2 ^ 32) (hc : c < 2 ^ 32) : crcBit poly c < 2 ^ 32 := by
  unfold crcBit
  split
  · exact Nat.xor_lt_two_pow (by omega) hp
  · omega
theorem crcBits_lt (poly : Nat) (hp : poly < 2 ^ 32) : ∀ n c, c < 2 ^ 32 → crcBits poly n c < 2 ^ 32
  | 0, _, hc => hc
  | n + 1, c, hc => crcBits_lt poly hp n _ (crcBit_lt poly c hp hc)
theorem crcRun_lt (poly : Nat) (hp : poly < 2 ^ 32) : ∀ (bs : List Byte) c, c < 2 ^ 32 → crcRun poly bs c < 2 ^ 32
  | [], _, hc => hc
  | b :: r, _, hc => crcRun_lt poly hp r _ (crcBits_lt poly hp 8 _ (Nat.xor_lt_two_pow hc (by omega)))
theorem cellCrc_lt (h : Nat) (payload : List Byte) : cellCrc h payload < 2 ^ 32 :=
  Nat.xor_lt_two_pow (crcRun_lt _ (by decide) _ _ (by decide)) (by decide)

/-- The header of a cell of a kind. -/
def hdrOf (kind : Nat) : Nat := cellHdr kind 19 true true 0xFFFF 0xFFFF 0 (19, 0) (19, 0)
/-- A cell of a kind with its CRC, or with every bit of the CRC inverted. -/
def cellOf (kind : Nat) (payload : List Byte) (good : Bool) : RawCell :=
  let crc := BitVec.ofNat 32 (cellCrc (hdrOf kind) payload)
  { hdr := BitVec.ofNat 96 (hdrOf kind), payload := payload, crc := if good then crc else ~~~crc }
def zeros : List Byte := List.replicate 256 0
/-- A TRAIN payload whose time echo is 1. -/
def train : List Byte := beBytes 256 (2 ^ 1792)

theorem hdrOf_toNat : ∀ k ∈ [0, 1, 2, 3, 4, 5, 6], (BitVec.ofNat 96 (hdrOf k)).toNat = hdrOf k := by decide +kernel
theorem wit_ReceivedCellsTakeEffect_crc (payload : List Byte) (k : Nat) (h : k ∈ [0, 1, 2, 3, 4, 5, 6]) :
    (let c := cellOf k payload true; cellCrc c.hdr.toNat c.payload = c.crc.toNat) ∧
    (let c := cellOf k payload false; cellCrc c.hdr.toNat c.payload ≠ c.crc.toNat) := by
  have l := cellCrc_lt (hdrOf k) payload
  constructor
  · simp [cellOf, hdrOf_toNat k h]
    omega
  · simp [cellOf, hdrOf_toNat k h, Nat.mod_eq_of_lt l]
    omega
theorem wit_ReceivedCellsTakeEffect_kinds : ∀ k ∈ [0, 1, 2, 3, 4, 5, 6],
    let s := port71 { state := .active } { bringUp := .locked } {}
    zeros.length = 256 ∧ train.length = 256 ∧ fld (hdrOf k) 95 92 = k ∧ (k < 6 → formatBad (hdrOf k) = false) ∧
    domOn s dCX = true ∧ framed s 71 = true ∧ (rateMatch 71 0 (k == 0) none s).1 = false ∧
    (let s0 := (rateMatch 71 0 (k == 0) none s).2
     (portLink (setPL 71 (fun x => { x with silentAt := ticks s0 + rc s0 0x5812 0 }) (bump 0x5821 71 s0)) 71).state =
       .active) := by
  decide +kernel
/-- A crossing at a depth, in compensation mode: the peer is not syntonized. -/
def crossed (depth : Nat) : State := port71 {} { bringUp := .locked, crossing := depth } {}
theorem wit_ReceivedCellsTakeEffect_crossing :
    (rateMatch 71 (BitVec.ofInt 9 (-3)) false none (crossed 2)).1 = true ∧
    (rateMatch 71 1 false none (crossed 128)).1 = true ∧ (rateMatch 71 1 true none (crossed 128)).1 = true ∧
    (rateMatch 71 0 true (some true) (crossed 65)).1 = true ∧ crossingGoal (crossed 65) 71 = 64 ∧
    compensating (crossed 63) 71 = true ∧ formatBad (hdrOf 0) = false ∧ fld (hdrOf 0) 95 92 = 0 ∧
    (portLink (crossed 63) 71).state ≠ .active := by decide +kernel
theorem wit_ReceivedCellsTakeEffect_train :
    let s := { port71 { state := .exchange } { bringUp := .locked } {} with tb := { mt := 1 } }
    let m := beNat train
    (rateMatch 71 0 false none s).1 = false ∧ exchanging (bump 0x5821 71 s) 71 = true ∧ fld m 2002 2000 = 0 ∧ fld m 1759 0 = 0 ∧ fld m 1855 1792 ≠ 0 ∧
    fld m 1855 1792 + fld m 1791 1760 ≤ now s := by decide +kernel

/-! ### 12_lanes_and_optics.md -/

/-- A marker with its SYNC and its CRC. -/
def goodMarker : BitVec 128 :=
  let m := 0x5B2CE8719A0D * 2 ^ 80
  BitVec.ofNat 128 (m + markerCrc m 112)

theorem wit_LanesComeUpAndAreLost :
    markerValid 0 = false ∧ markerValid goodMarker.toNat = true ∧ domOn up (dSC 8) = true ∧ domOn up (dOE 8) = true ∧
    (let s : State := { port71 {} { bringUp := .prbs, stepAt := 7, limitAt := 7 } {} with tb := { count := 7 } }
     (portLanes s 71).bringUp ≠ .off ∧ (portLanes s 71).stepAt ≤ ticks s ∧ (portLanes s 71).limitAt ≤ ticks s ∧
     (portLanes s 71).restartAt = none) ∧
    (portLanes up 71).bringUp = .off ∧
    (portLanes (port71 {} { restartAt := some 0 } {}) 71).restartAt = some 0 ∧
    fixedPeaking up 71 3 = none ∧ (laneOf { lanes := [(3, { cdr := true, laser := true })] } 3).cdr = true ∧
    (laneOf { lanes := [(3, { cdr := true, laser := true })] } 3).laser = true ∧
    (let s := port71 { state := .off } { bringUp := .framed, goodCodewords := 7, rxGood := 15, peerTxSet := 15 } {}
     fecReady (codeword 71 [15, 0, 0, 0] 0 s) 71 = true ∧ fecReady (codeword 71 [16, 0, 0, 0] 0 s) 71 = false) ∧
    (let s := port71 {} { bringUp := .prbs, lanes := [(3, { cdr := true })] } {}
     receiving s 71 = true ∧ receiving up 71 = false ∧ nearLoop s 71 = false ∧
     rcInt s 0x5064 0 < (0x7FFFFFFF : BitVec 32).toInt ∧ (0x80000000 : BitVec 32).toInt < rcInt s 0x5064 0 ∧
     (laneOf (portLanes s 71) 3).trackAt ≤ ticks s) := by
  decide +kernel
theorem wit_LaneSetsAndEyeScans_sets :
    (let s : State := { withRc [(0x5010, 71, 2), (0x5013, 0, 0), (0x5011, 0, 100)]
         (port71 {} { bringUp := .locked, txSet := 15, peerRxGood := 15, dwellEnd := 7 } {}) with tb := { count := 7 } }
     rc s 0x5010 71 = 2 ∧ (portLanes s 71).bringUp = .locked ∧ (portLanes s 71).widenTo = none ∧
     (portLanes s 71).dwellEnd ≤ ticks s ∧ payloadLow s 71 = true ∧
     1 < lanesIn (portLanes s 71).txSet ∧ rc s 0x5013 0 ≤ vcDepth s 71 19) ∧
    (rc (withRc [(0x5010, 71, 1)] (port71 {} { bringUp := .locked } {})) 0x5010 71 ≠ 0) ∧
    (let s : State := { port71 {} { widenTo := some 15, stepAt := 7, limitAt := 7 } {} with tb := { count := 7 } }
     (portLanes s 71).widenTo ≠ none ∧ (portLanes s 71).warm = false ∧
     (portLanes s 71).stepAt ≤ ticks s ∧ (portLanes s 71).limitAt ≤ ticks s) := by decide +kernel
theorem wit_LaneSetsAndEyeScans_scans :
    (sget ({} : EyeScan) { up with px := { scans := [(8, { status := 1 })] } }.px.scans 8).status = 1 ∧
    (71 : BitVec 7).toNat < 72 ∧ domOn up dCX = true ∧ domOn up (dSC 8) = true := by decide +kernel

/-! ### 13_message_engines.md, 14_ordering_and_locks.md -/

/-- A context with an internal item; on the engine and context named. -/
def working : ECtx := { item := some { kind := .internal } }
def engaged (e c : Nat) (x : ECtx) : State := { up with me := {
  engines := [(e, { cur := c, ctxs := [(c, x)] })]
  fwSlot := 0 } }
def at00 : Issue := { engine := 0, ctx := 0 }
def at95 : Issue := { engine := 95, ctx := 3 }
/-- Register 31 of context 3 of engine 95 holds a number. -/
def holding (v : Nat) (x : ECtx) : State := engaged 95 3 { x with regs := sset 0 [] 31 (BitVec.ofNat 64 v) }

theorem wit_EngineRegisterOperationsGiveTheirResult :
    Issues (engaged 0 0 working) at00 = true ∧ Issues (engaged 95 3 working) at95 = true ∧
    (∀ v ∈ [0, 2 ^ 64 - 1], Issues (holding v working) at95 = true) ∧ at95.data = .clean := by decide +kernel

theorem wit_EngineImmediateOperationsGiveTheirResult : Issues (holding 7 working) at95 = true := by decide +kernel
theorem wit_EngineMultipliesDividesAndCounts : Issues (holding 0 working) at95 = true := by decide +kernel

/-- The same value in two registers, and different ones: each branch is taken and not taken. -/
theorem wit_EngineBranchesAndJumps :
    let s1 := issued (holding (2 ^ 64 - 1) working) at95 0 4
    reg s1 95 3 0 = reg s1 95 3 1 ∧ reg s1 95 3 0 ≠ reg s1 95 3 31 ∧
    (reg s1 95 3 31).toInt < (reg s1 95 3 0).toInt ∧ reg s1 95 3 0 < reg s1 95 3 31 := by decide +kernel

/-- The address that a load or store at `imm` 0 of register 31 makes. -/
def addr31 (s1 : State) : Nat := (reg s1 95 3 31 + (0 : BitVec 16).signExtend 64).toNat
/-- The state that a load of a word starts from, with an address in register 31. -/
def access (a : Nat) : State := issued (holding a working) at95 (wordI 0x16 0 31 0) 1
def pairAccess (a : Nat) : State := issued (holding a working) at95 (wordI 0x17 0 31 0) 3

/-- The last granule of context memory. -/
def lastCtx : Nat := 0x10000000000 + 2 * stackBytes - 8
/-- The last 16 bytes of each array. -/
def arrays : List (Nat × EPlace) := [
  (0x20000 - 16, .ldm 0x1FFF0), (0x1000000 + 12 * 0x200000 - 16, .cmem 11 (0x200000 - 16)),
  (lastCtx - 8, .context (2 * stackBytes - 16))]
/-- The ends of the places outside the engine. -/
def outside : List (Nat × EPlace) := [
  (2 ^ 62 + 2 ^ 48 - 16, .host (2 ^ 48 - 16)), (2 ^ 63 + 3 * 2 ^ 61 + 2 ^ 48 - 16, .remote 3 (2 ^ 48 - 16)),
  (0x20000000000, .unit 0)]
def sizes : List Nat := [1, 2, 4, 8, 16]

/-- Every array may be read and written, at each size, and a pair of words as one access. -/
theorem wit_EngineLoadsReadTheArrays : ∀ p ∈ arrays, ∀ n ∈ sizes,
    let s1 := access p.1
    let s2 := sampleAccess 95 3 p.2 p.1 s1
    Issues (holding p.1 working) at95 = true ∧ addr31 s1 = p.1 ∧ p.1 % n = 0 ∧ placeOf p.1 n = p.2 ∧
    mayReach s1 95 3 n p.2 = true ∧ at95.data ≠ .uncorrectable ∧ clusterOn s2 11 = true ∧
    (cmRead (2 * stackBytes - 16) n [at95.data] s2).2.1 = false := by decide +kernel
theorem wit_EngineLoadsReadTheArrays_pair : ∀ p ∈ arrays,
    (0 : Fin 32).val % 2 = 0 ∧ (30 : Fin 32).val % 2 = 0 ∧ addr31 (pairAccess p.1) = p.1 ∧ p.1 % 16 = 0 ∧
    inArray (placeOf p.1 8) = true ∧ placeOf p.1 16 = p.2 ∧ mayReach (pairAccess p.1) 95 3 16 p.2 = true := by
  decide +kernel
/-- A pair of words of which the first is the last of cluster 0's memory. -/
def spanning : Nat := 0x1000000 + 0x200000 - 8
theorem wit_EngineLoadsReadTheArrays_spanning :
    let s1 := pairAccess spanning
    Issues (holding spanning working) at95 = true ∧ addr31 s1 = spanning ∧ spanning % 16 = 8 ∧
    placeOf spanning 8 = .cmem 0 0x1FFFF8 ∧ placeOf (spanning + 8) 8 = .cmem 1 0 ∧
    mayReach s1 95 3 8 (.cmem 0 0x1FFFF8) = true ∧ mayReach s1 95 3 8 (.cmem 1 0) = true ∧
    clusterOn s1 0 = true ∧ clusterOn s1 1 = true ∧ at95.data2 = .clean := by decide +kernel
theorem wit_EngineStoresWriteTheArrays : ∀ p ∈ arrays, ∀ n ∈ sizes,
    let s1 := issued (holding p.1 working) at95 (wordI 0x1B 0 31 0) 2
    addr31 s1 = p.1 ∧ p.1 % n = 0 ∧ placeOf p.1 n = p.2 ∧ mayReach s1 95 3 n p.2 = true ∧
    clusterOn (sampleAccess 95 3 p.2 p.1 s1) 11 = true := by decide +kernel
theorem wit_EngineStoresWriteTheArrays_pair :
    (∀ p ∈ arrays, p.1 % 16 = 0 ∧ inArray (placeOf p.1 8) = true ∧ (30 : Fin 32).val % 2 = 0) ∧
    (let s1 := issued (holding spanning working) at95 (wordI 0x1C 0 31 0) 3
     addr31 s1 = spanning ∧ mayReach s1 95 3 8 (placeOf spanning 8) = true ∧
       mayReach s1 95 3 8 (placeOf (spanning + 8) 8) = true ∧ clusterOn s1 0 = true ∧ clusterOn s1 1 = true) := by
  decide +kernel

/-- Each place outside, at each size and as a pair in two parts; nothing reaches past context memory. -/
theorem wit_EngineAccessesLeaveOrTrap : ∀ p ∈ outside, ∀ n ∈ sizes, ∀ pair : Bool,
    Issues (holding p.1 working) at95 = true ∧ addr31 (access p.1) = p.1 ∧ p.1 % n = 0 ∧ placeOf p.1 n = p.2 ∧
    (parts p.1 n false).all (fun q => mayReach (access p.1) 95 3 q.2 (placeOf q.1 q.2)) = true ∧
    (parts p.1 16 pair).all (fun q => mayReach (access p.1) 95 3 q.2 (placeOf q.1 q.2)) = true ∧
    isAbandoned (sampleAccess 95 3 p.2 p.1 (access p.1)) 95 3 = false := by decide +kernel
theorem wit_EngineAccessesLeaveOrTrap_traps :
    addr31 (access 1) % 2 ≠ 0 ∧ addr31 (pairAccess 4) % 8 ≠ 0 ∧
    (∀ n ∈ sizes, addr31 (access (lastCtx + 8)) % n = 0 ∧
      (parts (lastCtx + 8) n false).any (fun q => !mayReach (access (lastCtx + 8)) 95 3 q.2 (placeOf q.1 q.2)) = true) ∧
    (31 : Fin 32).val % 2 = 1 := by decide +kernel
theorem wit_EngineAccessesLeaveOrTrap_context :
    let s := poisonGranule (2 * stackBytes / 32 - 1) 1 (holding lastCtx working)
    let s2 := sampleAccess 95 3 (.context (2 * stackBytes - 8)) lastCtx (issued s at95 (wordI 0x16 0 31 0) 1)
    Issues s at95 = true ∧ placeOf lastCtx 8 = .context (2 * stackBytes - 8) ∧
    (cmRead (2 * stackBytes - 8) 8 [at95.data] s2).2.1 = true := by decide +kernel
theorem wit_EngineAccessesLeaveOrTrap_arrays :
    let w : Issue := { at95 with data := .uncorrectable }
    let s := { holding 0x1000000 working with pr := { up.pr with domains := mput up.pr.domains (dEC 0) .off } }
    Issues (holding 0 working) w = true ∧ placeOf 0 8 = .ldm 0 ∧ w.data = .uncorrectable ∧
    Issues s at95 = true ∧ placeOf 0x1000000 8 = .cmem 0 0 ∧
    clusterOn (sampleAccess 95 3 (.cmem 0 0) 0x1000000 (issued s at95 (wordI 0x16 0 31 0) 1)) 0 = false := by
  decide +kernel

/-- The last granules of cluster memory and of context memory, reserved and not. -/
def shared : List (Nat × EPlace × Granule) := [
  (0x1000000 + 12 * 0x200000 - 8, .cmem 11 (0x200000 - 8), { cluster := some 11, index := 0x200000 / 128 - 1 }),
  (lastCtx, .context (2 * stackBytes - 8), { cluster := none, index := 2 * stackBytes / 128 - 1 })]
theorem wit_EngineLoadReserveAndStoreConditional : ∀ p ∈ shared,
    let s := holding p.1 { working with resv := some p.2.2 }
    let s1 := issued s at95 (wordR 0x1E 0 31 0 0) 3
    Issues s at95 = true ∧ at95.data = .clean ∧ addr31 s1 = p.1 ∧ p.1 % 8 = 0 ∧ placeOf p.1 8 = p.2.1 ∧
    granuleOf p.2.1 = some p.2.2 ∧ mayReach s1 95 3 8 p.2.1 = true ∧ clusterOn s1 11 = true ∧
    (cmRead (2 * stackBytes - 8) 8 [.clean] s1).2.1 = false ∧ (ectx s1 95 3).resv = some p.2.2 ∧
    (ectx (issued (holding p.1 working) at95 (wordR 0x1E 0 31 0 0) 3) 95 3).resv ≠ some p.2.2 := by decide +kernel
theorem wit_EngineLoadReserveAndStoreConditional_traps :
    addr31 (access 4) % 8 ≠ 0 ∧ addr31 (access (lastCtx + 8)) % 8 = 0 ∧
    mayReach (access (lastCtx + 8)) 95 3 8 (placeOf (lastCtx + 8) 8) = false ∧ addr31 (access 0) % 8 = 0 ∧
    granuleOf (placeOf 0 8) = none := by decide +kernel
theorem wit_EngineSystemInstructions_registers :
    let s1 := issued (engaged 95 3 working) at95 0 0
    inPackage s1 95 3 = false ∧ Nat.land (fld (reg s1 95 3 0).toNat 4 0) (pendingBits (ectx s1 95 3)) = 0 ∧
    ([(0, 1), (18, 2)].lookup (0 : BitVec 12).toNat).isSome = true ∧
    ([(0, 1), (18, 2)].lookup (18 : BitVec 12).toNat).isSome = true ∧
    legalWord 0xFFFFFFFF = false := by decide +kernel
/-- A handler of the package in slot 0, which holds all of the engine's instruction memory. -/
def packaged : State :=
  let x : ECtx := { item := some { kind := .package 0 2 0 }, status := 0x100 }
  let s := engaged 95 3 x
  { s with me := { s.me with slots := [(0, { state := .active, mask := 0xFFF, codeSize := 0x10000 })] } }
theorem wit_EngineSystemInstructions_package :
    Issues packaged at95 = true ∧ inPackage (issued packaged at95 0 0) 95 3 = true ∧
    isAbandoned (issued packaged at95 0 0) 95 3 = false := by decide +kernel
theorem wit_EngineSystemInstructions_events :
    (let s := holding 31 { working with pending := 31 }
     let s1 := issued s at95 (wordX 0x30 0 31 5 0) 0
     Issues s at95 = true ∧ Nat.land (fld (reg s1 95 3 31).toNat 4 0) (pendingBits (ectx s1 95 3)) ≠ 0) ∧
    (let s1 := issued (holding (0x20000 - 32) working) at95 (wordX 0x34 0 31 0 2) 5
     isAbandoned s1 95 3 = false ∧ (reg s1 95 3 31).toNat + 32 = 0x20000 ∧ placeOf (0x20000 - 32) 32 = .ldm (0x20000 - 32) ∧
       mayReach s1 95 3 32 (.ldm (0x20000 - 32)) = true ∧
       Issues (holding (0x20000 - 32) working) { at95 with data := .uncorrectable } = true) ∧
    placeOf 0x1000000 32 = .cmem 0 0 ∧ mayReach (issued packaged at95 0 5) 95 3 32 (placeOf 0 32) = false ∧
    (let s := holding 7 { working with moves := [{ tag := 7, desc := [], done := some 9 }] }
     let s1 := setEngine 95 (fun g => { g with offer := true }) (issued s at95 (wordX 0x34 0 31 0 3) 5)
     Issues s at95 = true ∧ (reg s1 95 3 31).toNat = 7 ∧
       ((ectx s1 95 3).moves.find? fun m => m.tag == 7) = some { tag := 7, desc := [], done := some 9 }) ∧
    ((ectx (issued (holding 7 { working with moves := [{ tag := 7, desc := [] }] }) at95 0 5) 95 3).moves.find?
      fun m => m.tag == 7) = some { tag := 7, desc := [] } ∧
    (let s1 := issued (holding (3 * 2 ^ 8 + 95) working) at95 (wordX 0x34 0 31 0 4) 5
     (reg s1 95 3 31).toNat % 2 ^ 7 = 95 ∧ engineRuns s1 95 = true) := by decide +kernel

/-- Lock 4095 in some state, with its number in register 31. -/
def locking (l : Lock) : State := { holding 4095 working with lk := [(4095, l)] }
def held (p : Party) : Lock := { holder := some { party := p, own := 3, eff := 3 } }
def me95 : Party := .engine (95 * 4 + 3)

theorem wit_EngineLockInstructions : ∀ l ∈ [({} : Lock), held me95, held (.engine 0)],
    let s1 := issued (locking l) at95 0 5
    Issues (locking l) at95 = true ∧ (reg s1 95 3 31).toNat = 4095 ∧ inPackage s1 95 3 = false ∧
    (ectx s1 95 3).granted = none ∧ isAbandoned s1 95 3 = false ∧ (lockOf s1 4095).holder = l.holder ∧
    waitsFor s1 me95 = none := by decide +kernel
theorem wit_EngineLockInstructions_held :
    holderIs (issued (locking (held me95)) at95 0 5) 4095 me95 = true ∧
    holderIs (issued (locking (held (.engine 0))) at95 0 5) 4095 me95 = false ∧
    (held (.engine 0)).holder.any (fun h => h.party != me95) = true ∧
    (reg (issued (holding 4096 working) at95 0 5) 95 3 31).toNat = 4096 := by decide +kernel

/-- A call of handler 0 of slot 0 waits in queue 2; the slot is bound to every cluster. -/
def calling (g : PkgSlot) : State :=
  { withQueues [(2, { send2 with ops := [{ n := 0, desc := 0x38 }] }), (3, cq3)] with me := { slots := [(0, g)] } }
def slot0 : PkgSlot := { state := .active, tenant := 5, mask := 0xFFF, handlers := [64] }

theorem wit_WorkItemsAndTheirEvents_calls : ∀ g ∈ [({} : PkgSlot), { slot0 with tenant := 6 }, { slot0 with handlers := [] },
      { slot0 with mask := 0 }, slot0],
    startable (calling g) 2 (fun o => 0x38 ≤ o && o ≤ 0x3F) = some { n := 0, desc := 0x38 } ∧ g.state ≠ .quiescing ∧
    (poweredSet (calling g) g.mask).any (quiescing (calling g)) = false ∧ pkgSlot (calling g) 0 = g ∧
    (queue (calling g) 2).tenant = 5 ∧ (g.mask = 0 → poweredSet (calling g) g.mask = []) ∧
    fld (dOP0 0x38) 7 0 = 0 := by decide +kernel
/-- Every engine of cluster 0, the only one for handlers, has every context busy. -/
def full : State := { withRc [(0x8410, 0, 1)] up with me := {
  engines := (rangeFrom 0 8).map fun e => (e, { ctxs := (rangeFrom 0 4).map fun c => (c, working) }) } }

theorem wit_WorkItemsAndTheirEvents_contexts :
    pickCtx (calling slot0) 0xFFF = some (0, 0) ∧ poweredSet (calling slot0) 0xFFF ≠ [] ∧
    pickCtx up (rc up 0x8410 0) = some (0, 0) ∧
    (let s := engaged 95 3 { working with budget := 1, status := 0x1F01000, pending := 31, mtcmp := 1 }
     let x := ectx { s with tb := { mt := 1 } } 95 3
     engineRuns s 95 = true ∧ x.item ≠ none ∧ atBoundary x.wait = true ∧ x.budget ≠ 0 ∧ x.status.getLsbD 12 = true ∧
       Nat.land (intMask x) (pendingBits x) ≠ 0 ∧ x.mtcmpDone = false ∧
       x.mtcmp.toNat ≤ now { s with tb := { mt := 1 } }) ∧
    (let x := ectx (engaged 95 3 working) 95 3
     x.mtcmp = 0 ∧ x.mtcmpDone = false ∧ x.mtcmp.toNat ≤ now (engaged 95 3 working)) := by
  decide +kernel
theorem wit_WorkItemsAndTheirEvents_items :
    up.me.items = [] ∧ poweredSet up (rc up 0x8410 0) ≠ [] ∧ pickCtx up (rc up 0x8410 0) = some (0, 0) ∧
    pickCtx full (rc full 0x8410 0) = none ∧ poweredSet full (rc full 0x8410 0) ≠ [] ∧ full.me.items = [] ∧
    poweredSet State.reset (rc State.reset 0x8410 0) = [] ∧
    (∀ slot ∈ [0, 7], (calling slot0).me.acts.any (fun a => (a.target == 0 || a.target == slot + 1) && a.state != .armed) = false) := by
  decide +kernel

/-- A context with a move of tag 7; a permitted one, from nowhere and from local data memory. -/
def moving (m : Move) : State := engaged 95 3 { working with moves := [m] }
def move7 : Move := { tag := 7, desc := [], permitted := true }
theorem wit_WorkItemsAndTheirEvents_moves : ∀ m ∈ [move7, { move7 with permitted := false }],
    ((ectx (moving m) 95 3).moves.find? fun m => m.tag == (7 : BitVec 64).toNat && m.done.isNone && !m.writing) = some m ∧
    engineRuns (moving m) 95 = true := by decide +kernel
theorem wit_WorkItemsAndTheirEvents_read :
    (moveRead 95 8 (placeOf 0 8) { source := [.uncorrectable] } (moving move7)).2.2.1 = true ∧
    (moveRead 95 8 (placeOf 0 8) {} (moving move7)).2.2.1 = false ∧
    clusterOn (moving move7) 11 = true ∧ clusterOn State.reset 11 = false := by decide +kernel
/-- Where a descriptor names a place (its layout is left open, assumption 4), every place is one. -/
theorem wit_WorkItemsAndTheirEvents_places (desc : List Byte) (p : Nat × EPlace) (h : p ∈ arrays ++ outside ++ [(lastCtx + 8, .none)])
    (d : Config.moveDest desc = p.1) (l : Config.moveLength desc = 16) :
    placeOf (Config.moveDest desc) (Config.moveLength desc) = p.2 := by
  rw [d, l]
  exact (by decide +kernel : ∀ p ∈ arrays ++ outside ++ [(lastCtx + 8, EPlace.none)], placeOf p.1 16 = p.2) p h

/-! ### 13_message_engines.md R393 to R395, host locks, context memory -/

/-- An activation of a scope. -/
def activating (a : Activation) (x : ECtx) : State := { engaged 0 0 x with
  me := { (engaged 0 0 x).me with acts := [a] }
  tb := { state := .holdover, armed := [{ owner := .activation a.target, instant := 0, late := false }] } }

theorem wit_ActivationsAndPackages_start : ∀ target ∈ [0, 8],
    activateCheck up target 16 = 1 ∧ timeFree (withTb { state := .refLocked }) = false ∧
    activateCheck (withTb { state := .refLocked }) target 16 = 1 ∧ now (withTb { state := .refLocked }) ≤ 2 ^ 64 - 1 ∧
    1 < now (withTb { state := .refLocked, mt := 2 ^ 40 }) ∧ timeFree up = true ∧ up.tb.armed.length < 16384 ∧
    16384 ≤ (withTb { state := .refLocked, armed := List.replicate 16384 {
      owner := .activation 9, instant := 0, late := false } }).tb.armed.length := by decide +kernel

/-- A package of one handler in source 0, and anchor 1 of KEY_ID 0 that permits packages. -/
def package : List Byte :=
  beBytes 64 (0x48504B47 * 2 ^ 480 + 2 ^ 392) ++ beBytes 4 0 ++ beBytes 104 0x5349474E
def anchored : State := { up with
  ms := { areas := [(16, { valid := true, bytes := package })] }
  od := { live := [(okey 0x2330 1, beBytes 104 (2 ^ 825))] } }
/-- Where signatures verify, it passes every check: the part of a signature that the model leaves open
(assumption 3) is a premise. -/
theorem wit_ActivationsAndPackages_passes (h : ∀ k l r t, Config.signatureOk k l r t = true) : activateCheck anchored 1 0 = 0 := by
  have a : area anchored 16 = { valid := true, bytes := package } := rfl
  have sig : signatureGood anchored true package = true := by
    have l : package.length = 172 := by decide +kernel
    have m : beAt (package.drop 68) 100 4 = 0x5349474E := by decide +kernel
    have k : (fld (anchor anchored 1) 807 776 == beAt (package.drop 68) 0 4 && anchorPermits anchored 1 true) = true := by
      decide +kernel
    simp only [signatureGood, l, h, Bool.and_true, Bool.and_eq_true, List.any_eq_true, decide_eq_true_eq, beq_iff_eq]
    exact ⟨⟨by omega, m⟩, 1, by decide, by simpa using k⟩
  have p : packageOk package = true ∧ (packageOf package).ifEpoch = anchored.ms.engineFw.engineIfEpoch ∧
      (packageFit anchored 0 (fld (rc anchored 0x8430 0) 11 0) (packageOf package)).isNone = false ∧
      (findAct anchored 1).isSome = false := by decide +kernel
  simp [activateCheck, sourceArea, a, sig, p.1, p.2.1, p.2.2.1, p.2.2.2]

theorem wit_ActivationsAndPackages_remove :
    (let s : State := { up with me := { slots := [(7, slot0)] } }
     (pkgSlot s ((8 : BitVec 8).toNat - 1)).state ≠ .empty ∧ findAct s 8 = none ∧
     (findAct { s with me := { s.me with acts := [{ target := 8, state := .armed }] } } 8).isSome = true) ∧
    (∀ target ∈ [0, 8],
      let s := activating { target := target, state := .armed } working
      findAct s target = some { target := target, state := .armed } ∧ shotDue s (.activation target) = true ∧
        dueUpTo (.activation target) s = [.activation target]) ∧
    (∀ target ∈ [0, 8],
      let s := activating { target := target, state := .quiescing } {}
      findAct s target = some { target := target, state := .quiescing } ∧ scopeQuiet s { target := target, state := .quiescing } = true ∧
      ticks s ≤ 0 ∧ loadFits { target := target, state := .quiescing } s = true) ∧
    (let a : Activation := { target := 0, state := .quiescing, mask := 1 }
     findAct (activating a working) 0 = some a ∧ scopeQuiet (activating a working) a = false ∧
       a.since + a.limit ≤ ticks (activating a working)) := by decide +kernel

/-- A lock command of function 0 for lock 4095, which tenant 5 uses; queue 4 is an event queue. -/
def hostLocks (l : Lock) : State :=
  let s := withQueues [(4, eq4)]
  { s with lk := [(4095, l)], od := { s.od with
    live := mput s.od.live (okey 0x8610 0) ((List.replicate 4095 [0, 0, 0, 0]).flatten ++ [0, 5, 0, 0]) } }
def host9 : Party := .host 0 9
def word9 (rsvd : Nat) : LockWord := ⟨0, 9, 4, rsvd, 4095⟩
def waitingFor (p q : Party) : Lock := { held p with waiters := [{ party := q, own := 3, eff := 3 }] }

theorem wit_HostLocksAndContextMemory_words :
    barsLive (hostLocks {}) 0 = true ∧ lockWordOk (hostLocks {}) 0 (word9 1) true = false ∧
    lockWordOk (hostLocks {}) 0 (word9 1) false = false ∧ lockWordOk (hostLocks {}) 0 (word9 0) true = true ∧
    lockWordOk (hostLocks {}) 0 (word9 0) false = true := by decide +kernel
theorem wit_HostLocksAndContextMemory_tenant :
    tenantOk (hostLocks {}) 0 (lockTenant (hostLocks {}) 4095) = true ∧
    tenantOk (withQueues [(4, eq4)]) 0 (lockTenant (withQueues [(4, eq4)]) 4095) = false ∧
    lockWordOk (withQueues [(4, eq4)]) 0 (word9 0) true = true ∧ lockWordOk (withQueues [(4, eq4)]) 0 (word9 0) false = true := by
  decide +kernel
theorem wit_HostLocksAndContextMemory_use :
    waitsFor (hostLocks (held me95)) host9 = none ∧ (waitsFor (hostLocks (waitingFor me95 host9)) host9).isSome = true ∧ (lockOf (hostLocks {}) 4095).holder = none ∧
    (lockOf (hostLocks (held me95)) 4095).holder.any (fun h => h.party != host9) = true ∧
    hostWaiters (hostLocks (held me95)) < 8192 - 384 ∧ partyHolds (hostLocks (held host9)) 4095 host9 = true ∧
    partyHolds (hostLocks (held me95)) 4095 host9 = false ∧
    (lockOf (hostLocks (waitingFor me95 host9)) 4095).waiters.any (fun v => v.party == host9) = true ∧
    (lockOf (hostLocks (held me95)) 4095).waiters.any (fun v => v.party == host9) = false := by decide +kernel

/-- The pool full of host waiters, and a lock of a host holder with as many as leave only the contexts' entries. -/
def crowd (n : Nat) : List Waiter := List.replicate n { party := .host 1 1, own := 0, eff := 0 }
theorem wit_HostLocksAndContextMemory_full :
    (let s := hostLocks { held me95 with waiters := crowd (8192 - 384) }
     8192 - 384 ≤ hostWaiters s ∧ waitsFor s host9 = none ∧ partyHolds s 4095 host9 = false) ∧
    (let s := hostLocks { held (.host 0 8) with waiters := crowd (8191 - 384) }
     (lockOf s 4095).holder.isSome = true ∧ partyHolds s 4095 host9 = false ∧ waitsFor s host9 = none ∧
       8191 - 384 ≤ ((lockOf s 4095).waiters.filter fun v => match v.party with
         | .host _ _ => true
         | _ => false).length ∧ hostWaiters s < 8192 - 384) := by
  simp [hostLocks, hostWaiters, waitsFor, partyHolds, lockOf, sget, sumBy, held, me95, host9, crowd,
    List.filter_replicate, List.any_replicate, -List.reduceReplicate]

theorem wit_HostLocksAndContextMemory_stacks : ∀ k ∈ [0, 1],
    let g := k * (stackBytes / 32) + (stack up k).scrub
    stackWorks up k = true ∧ scrubDue up (stack up k) = true ∧ isPoisoned up g = false ∧
    isPoisoned (poisonGranule g 1 up) g = true ∧ scrubDue (poisonGranule g 1 up) (stack (poisonGranule g 1 up) k) = true ∧
    domOn up (dHB k) = true ∧
    (stack { up with cm := { hbm := [(k, { state := .training })] } } k).state = .training ∧
    stackWorks { up with cm := { hbm := [(k, { state := .training })] } } 0 = false := by decide +kernel

/-! ### 16_register_window.md, 17_module_and_connectors.md -/

/-- Function 0 with its admin and translation groups, and queues. -/
def hosting (qs : SMap Queue) (f : HostFn) : State :=
  let s := withQueues qs
  { s with hl := { s.hl with fns := [(0, f)] } }
/-- ENABLE with sizes at both ends of their range, vector 2047, ASID 1. -/
def aqConfig (log2 : Nat) : Nat := 2 ^ 48 + 2047 * 2 ^ 29 + log2 * 2 ^ 24 + log2 * 2 ^ 16

theorem wit_HostRegistersTakeEffect_mailbox :
    (let s1 := openMailbox 0 (withRc [(0x2104, 0, 1)] up)
     rcOn s1 0x2104 0 = true ∧ serves s1 (mailboxOf 0) = true ∧ (hostFn s1 0).mb.pending = false) ∧
    (hostFn (openMailbox 0 (hosting [] { mb := { pending := true } })) 0).mb.pending = true ∧
    barsLive (withRc [(0x2104, 0, 1)] up) 0 = true ∧ barsLive up 513 = false ∧ barsLive up 257 = true := by decide +kernel
theorem wit_HostRegistersTakeEffect_enable : ∀ n ∈ [4, 16],
    let s := hosting [] { adm := { config := aqConfig n } }
    let a := (hostFn s 0).adm
    barsLive s 0 = true ∧ admBusy s 0 = false ∧ (queueRange s 0).2 ≠ 0 ∧ adminExists s 0 = false ∧
    fld a.config 20 16 = n ∧ fld a.config 28 24 = n ∧ fld a.config 39 29 < msixSize 0 ∧
    (space s (fld a.config 63 48)).state = .live ∧ (space s (fld a.config 63 48)).fn = 0 ∧ stacksWorking s ≠ 0 ∧
    queuesExisting s + 2 ≤ queueLimit s ∧ queuesExisting s + 2 ≤ capQueues s := by decide +kernel
theorem wit_HostRegistersTakeEffect_pair :
    (let s := hosting (adminPair 0) {}
     admBusy s 0 = false ∧ qExists (queue s 0) = true ∧ dying (queue s 0) = false ∧ adminExists s 0 = true ∧
     qExists (queue s 1) = true ∧ dying (queue s 1) = false ∧ cqFree s (queue s 0) ≠ 0 ∧
     (queue s 1).writing = false ∧ qExists (queue s 1) = true) ∧
    (∀ full : Bool,
      let s := hosting [(0, { halted2 with admin := true, cqn := 1 }), (1, { cq3 with admin := true, written := if full then 16 else 0 })] {}
      admBusy s 0 = false ∧ (queue s 0).state = .halted ∧ (queue s 0).destroying = none ∧ haltOfEntry (queue s 0) = true ∧
      (cqFree s (queue s 0) = 0 ↔ full = true)) ∧
    (∀ n ∈ [4, 16],
      let s := hosting (adminPair 0) { adm := { config := aqConfig n } }
      fld (hostFn s 0).adm.config 28 24 = n ∧ (queue s 1).reserved ≤ 2 ^ n) ∧
    admBusy (hosting [] { adm := { busy := some (0x1028, 4) } }) 0 = true := by decide +kernel
theorem wit_HostRegistersTakeEffect_groups :
    (∀ reg ∈ [0x1008, 0x1010], (hostFn (hosting [] { adm := { busy := some (reg, 4097) } }) 0).adm.busy = some (reg, 4097)) ∧
    (hostFn (hosting [] { tr := { busy := some (0x1108, 1) } }) 0).tr.busy = some (0x1108, 1) := by decide +kernel

theorem wit_LinksFunctionsAndSideband_links : ∀ k ∈ [0, 1],
    (let s : State := { up with hl := { links := [(k, { perstN := true, training := true })] } }
     (hostLink s k).perstN = true ∧ (hostLink s k).training = true ∧ (hostLink s k).up = false ∧ domOn s (dHL k) = true) ∧
    linkTrains 16 5 false = true ∧ linkTrains 4 6 true = true ∧
    (hostLink up k).up = true ∧ fnEnabled up 257 = true ∧ (hostFn up 257).flr = false ∧
    (let s : State := { up with hl := { fns := [(513, { flr := true })] } }
     (hostFn s 513).flr = true ∧ fnQuiet s 513 = true) := by decide +kernel
theorem wit_LinksFunctionsAndSideband_sideband :
    sbServes up = true ∧ sbRegister up 0 = some 0x5744 ∧ (sbRegister up 0x030).isSome = true ∧
    sbRegister up 0xFFF = none ∧ sbServes State.reset = false := by decide +kernel

/-! ### 18_power_and_hotplug.md to 21_faults.md -/

/-- The power domains in some states, the others ON. -/
def powered (l : List (Nat × DomPower)) (p : Power) : State := { up with
  pr := { p with domains := (rangeFrom 0 30).map fun d => (d, (l.lookup d).getD .on) } }

theorem wit_InputDomainsAndDeparture_input :
    domOn State.reset 0 = false ∧ domOn up 0 = true ∧ up.pr.shed = false ∧
    (powered [] { shed := true }).pr.shed = true ∧ domOn (powered [] { shed := true }) 0 = true := by decide +kernel
theorem wit_InputDomainsAndDeparture_domains :
    nextStart (powered [(29, .off)] {}) = some 29 ∧ startSpaced (powered [(29, .off)] {}) = true ∧
    (let s := powered [(29, .ramping)] { kept := [29] }
     s.pr.kept.contains 29 = true ∧
     startOrder.find? (fun x => s.pr.kept.contains x && parentOn s x && mayStart s x) = some 29) ∧
    (let s : State := { powered [(29, .ramping)] { rampAt := [(29, 1)] } with tb := { count := 1 + ticksOf 5 1000 } }
     s.pr.kept.contains 29 = false ∧ sget 0 s.pr.rampAt 29 + ticksOf 5 1000 ≤ ticks s) ∧
    (∀ d ∈ [1, 29],
      let s := powered [(d, .ramping)] {}
      domOn s 0 = true ∧ domState s d = .ramping ∧ parentOn s d = true ∧ mayStart s d = true ∧
        s.pr.kept.contains d = false) ∧
    (∀ d ∈ [1, 29], domState (powered [(d, .isolated)] {}) d = .isolated) ∧ up.rs.phase = .running := by decide +kernel
theorem wit_InputDomainsAndDeparture_departure :
    fullService up = true ∧ up.pr.departure = .joined ∧ fabricQuiet up = true ∧
    (powered [] { departure := .draining }).pr.departure = .draining ∧
    (rangeFrom 0 72).all (portDrained (powered [] { departure := .departing })) = true ∧
    (powered [] { departure := .departing }).pr.drainAt ≤ ticks up ∧ domOn up dCX = true ∧
    (∀ k ∈ [1, 2],
      let p : Packet := { type := tLINKCTL, dest := 0, source := 6 * 4096, th := linkCtlTH k 0 }
      Instr.wf (if k = 1 then .linkCtlDepartArrive 71 p else .departDoneArrive 71 p) = true) := by decide +kernel

/-- The module in some phase of its start. -/
def starting (r : Boot) (bootSel : Nat) : State := { up with rs := r, sb := { up.sb with bootSel := bootSel } }

theorem wit_ResetsAreTaken :
    (let s : State := { State.reset with pr := { inputGood := true } }; s.rs.phase = .off ∧ s.pr.inputGood = true) ∧
    (∀ ph ∈ [BootPhase.running, .waiting, .doldrums, .resetWarm, .resetCold],
      let s : State := { starting { phase := ph, timerRunning := true, startLimit := 7, cause := 9 } 0 with
        fc := { holdRunning := true, holdAt := 7 }, tb := { count := 7 } }
      s.rs.phase = ph ∧ s.rs.timerRunning = true ∧ s.rs.startLimit ≤ ticks s ∧ 8 < s.rs.cause % 256 ∧ ¬ 9 < s.rs.cause % 256 ∧
      s.fc.holdRunning = true ∧ s.fc.holdAt ≤ ticks s) ∧
    (let s := starting { phase := .resetCold, cause := 2 } 0
     s.rs.phase = .resetCold ∧ s.rs.cause % 256 = 2 ∧ s.pr.inputGood = true) ∧
    processorRuns up = true ∧ resetServed up = true := by decide +kernel
theorem wit_StartsGoThroughTheirMilestones :
    (∀ sel ∈ [0, 2],
      let s := starting { phase := .resetWarm } sel
      s.rs.phase = .resetWarm ∧ s.rs.updateBoot = none ∧ s.ms.bootOnce = none ∧ startsSpent s = false ∧ s.sb.bootSel = sel) ∧
    (let s : State := { starting { phase := .resetWarm, assertedAt := 1 } 0 with tb := { count := 1 + ticksOf 60 1000000 } }
     s.rs.assertedAt + ticksOf 60 1000000 ≤ ticks s) ∧
    startsSpent (starting { phase := .resetWarm, failedStarts := 255 } 0) = true ∧
    slotGood (starting {} 0) 0 = false ∧ slotGood (starting {} 0) 1 = false ∧
    (starting { updateBoot := some 0 } 0).rs.updateBoot = some 0 ∧
    (starting { phase := .resetCold } 0).rs.phase = .resetCold ∧
    (starting { phase := .waiting } 2).rs.waitUntil ≤ ticks up ∧ (starting { phase := .verified } 0).rs.phase = .verified ∧
    (starting { phase := .running, milestone := 6 } 0).rs.milestone = 6 ∧
    (starting { phase := .doldrums } 0).rs.phase = .doldrums := by decide +kernel

/-- A bundle of two sections of 1 KiB for every stepping, and anchor 1 of KEY_ID 0 that permits bundles. -/
def bundle : List Byte :=
  beBytes 64 (0x45444742 * 2 ^ 480 + 2 ^ 472 + 2 ^ 464 + 255 * 2 ^ 440 + 2 ^ 272 + 2 ^ 248) ++ List.replicate 2048 0 ++
    beBytes 104 0x5349474E
def bundled : State := { up with
  ms := { areas := [(0, { valid := true, bytes := bundle })] }
  od := { live := [(okey 0x2330 1, beBytes 104 (2 ^ 824))] } }
/-- Where signatures verify, a slot is good: the part of a signature that the model leaves open
(assumption 3) is a premise. -/
theorem wit_StartsGoThroughTheirMilestones_verified (h : ∀ k l r t, Config.signatureOk k l r t = true) : slotGood bundled 0 = true := by
  have a : area bundled 0 = { valid := true, bytes := bundle } := rfl
  have l : bundle.length = 2216 := by decide +kernel
  have sig : signatureGood bundled false bundle = true := by
    have m : beAt (bundle.drop 2112) 100 4 = 0x5349474E := by decide +kernel
    have k : (fld (anchor bundled 1) 807 776 == beAt (bundle.drop 2112) 0 4 && anchorPermits bundled 1 false) = true := by
      decide +kernel
    simp only [signatureGood, l, h, Bool.and_true, Bool.and_eq_true, List.any_eq_true, decide_eq_true_eq, beq_iff_eq]
    exact ⟨⟨by omega, m⟩, 1, by decide, by simpa using k⟩
  have p : bundleOk bundle = true ∧ (bundleOf bundle).stepMin = 0 ∧ (bundleOf bundle).stepMax = 255 := by decide +kernel
  have b := Config.stepping.isLt
  have c : verifyImage bundled false bundle = 0 := by
    simp [verifyImage, p.1, p.2.1, p.2.2, sig]
    omega
  simp [slotGood, a, c]
/-! ### 20_management.md, 21_faults.md -/

/-- An update machine. -/
def updating (u : Update) : State := { up with ms := { update := u, areas := [(0, { valid := true }), (1, { valid := true })] } }

theorem wit_SensorsLogAndUpdates_samples :
    let s := withTb { mt := 2 ^ 40 }
    fullService s = true ∧ scanDue s = true ∧ s.ms.nextSample ≤ now s / rc s 0x2010 0 ∧
    (let b : LogBurst := { cls := 1, source := 0, code := 1, severity := 3, second := 0, written := 16, omitted := 1 }
     let t : State := { s with ms := { s.ms with bursts := [b] } }
     (t.ms.bursts.find? fun b => b.second < now t / 2 ^ 32 && b.omitted != 0) = some b) := by decide +kernel
theorem wit_SensorsLogAndUpdates_updates :
    (updating {}).ms.update.state = .idle ∧ up.rs.phase = .running ∧
    (∀ t ∈ [0, 1, 16, 31], isTarget t = true ∧ areaSize t % 4 = 0 ∧ areaSize t ≠ 0 ∧ inUse (updating {}) t = false ∧
      intoRam (updating {}) t = false) ∧
    (∀ t ∈ [2, 15, 32, 255], isTarget t = false) ∧
    (∀ st ∈ [UpdState.receiving, .verifying], (updating { state := st, owner := 9 }).ms.update.state = st) ∧
    (let s : State := { updating {} with me := { acts := [{ target := 8, state := .armed, source := 15 }] } }
     inUse s 31 = true ∧ intoRam s 31 = false) ∧
    (let s : State := { updating {} with rs := { phase := .waiting } }
     intoRam s 0 = true ∧ isTarget 0 = true) ∧
    (updating { state := .receiving, owner := 9 }).ms.update.owner = (9 : BitVec 30).toNat ∧
    (∀ v ∈ [0, 4], (updating { state := .verifying, verdict := v }).ms.update.verdict = v) ∧
    (area (updating {}) 0).valid = true ∧ (area up 0).valid = false ∧ (area (updating {}) 1).valid = true := by
  decide +kernel
theorem wit_SensorsLogAndUpdates_copies : verifyImage (updating {}) false (area (updating {}) 0).bytes ≠ 0 := by
  decide +kernel

theorem wit_FaultsAndBreeze :
    isCondition 5 = false ∧ isCondition 2 = false ∧ isCondition 21 = false ∧
    (∃ n : Fin 64, isCondition n = true) ∧ domOn up 0 = true ∧ fullService up = true ∧
    (let s : State := { up with
       fc := { keepalive := true, keepaliveAt := 0, boundaryAt := some 0 }, tb := { count := ticksOf 2 1000 } }
     ticks s ≤ s.fc.keepaliveAt + ticksOf 2 1000 ∧ 0 + ticksOf 475 1000000 ≤ ticks s ∧ s.fc.safe = false) ∧
    (let s : State := { up with fc := { boundaryAt := some 0 }, tb := { count := ticksOf 475 1000000 - 1 } }
     ticks s < 0 + ticksOf 475 1000000) ∧
    (let s : State := { up with fc := { keepalive := true }, tb := { count := ticksOf 2 1000 + 1 } }
     s.fc.keepaliveAt + ticksOf 2 1000 < ticks s) := by decide +kernel

/-! ### The machine statements -/

/-- The bits of the default NaN and of another NaN of each format. -/
theorem wit_EveryNanResultIsCanonical :
    (∀ e ∈ [(4, 0x7FC00000, 0xFF800001), (5, 0x7FF8000000000000, 0xFFF0000000000001), (6, 0x7FC0, 0xFF81)],
      (fmtOf e.1).isNan e.2.1 = true ∧ (fmtOf e.1).isNan e.2.2 = true ∧
      (fmtOf e.1).isNan ((fmtOf e.1).add e.2.2 0) = true ∧ (fmtOf e.1).isNan (extreme true e.1 e.2.2 0) = true ∧
      (let r : Red := { op := 0, ty := e.1, mode := 0, sat := false }
       (fmtOf e.1).isNan (leNat ((r.final (.elem e.2.1 false)).1.take (typeSize e.1))) = true)) ∧
    (∀ i : Int, Part.elem 0 false ≠ .sum i) := by
  refine ⟨by decide +kernel, fun _ h => nomatch h⟩
theorem wit_IntegerSumsAreExact : ∀ ty ∈ [0, 3], ∀ sat : Bool,
    ({ op := 0, ty := ty, mode := 0, sat := sat } : Red).op = 0 ∧ ty ≤ 3 ∧ [(1 : Int), 2].Perm [2, 1] := by
  decide +kernel
theorem wit_PartialResultsAreReadBackWhole :
    let sums : Red := { op := 0, ty := 0, mode := 0, sat := false }
    let exact : Red := { op := 0, ty := 5, mode := 2, sat := false }
    sums.op = 0 ∧ isInt sums.ty = true ∧ (-2 ^ 127 ≤ -(2 : Int) ^ 127 ∧ (2 : Int) ^ 127 - 1 < 2 ^ 127) ∧
    isInt 6 = false ∧ 0xFFFF < 2 ^ (8 * typeSize 6) ∧ 2 ^ 64 - 1 < 2 ^ (8 * typeSize 1) ∧ 2 ^ 32 - 1 < 2 ^ 32 ∧
    isInt exact.ty = false ∧ (-2 ^ 2559 ≤ -(2 : Int) ^ 2559 ∧ (2 : Int) ^ 2559 - 1 < 2 ^ 2559) := by decide +kernel
theorem wit_PacketHeadersAreReadBackWhole :
    packetWf (putTo 5 0) = true ∧
    packetWf { type := 255, vc := 31, hops := 15, detour := 15, tepoch := 3, order := true, poison := true,
               squall := true, solicit := true, tclass := 7, colour := 3, lane := 2 ^ 16 - 1, tenant := 2 ^ 16 - 1,
               dest := 2 ^ 32 - 1, source := 2 ^ 32 - 1, attempt := 15, rsvd := 2 ^ 48 - 1, stamp := 2 ^ 64 - 1,
               th := 2 ^ 256 - 1, payload := List.replicate 4032 0 } = true := by
  refine ⟨by decide +kernel, ?_⟩
  simp [packetWf, -List.reduceReplicate]
theorem wit_UnitsWithoutPowerTakeNoPacket : domOn State.reset dCX = false := by decide +kernel
theorem wit_EngineRegistersKeepWhatIsWritten : (holding 5 working).canon = true ∧ reg (holding 5 working) 95 3 31 = 5 := by decide +kernel
theorem wit_EveryStepKeepsTheCanonicalForm :
    (holding 5 working).canon = true ∧ ∃ t, step (holding 5 working) = .next t :=
  ⟨by decide +kernel, idle (holding 5 working), rfl⟩
theorem wit_StepsTakeCommandsInOrder : ∃ t, step { up with pending := [.sbFrameAbort, .empty] } = .next t := ⟨_, rfl⟩
theorem wit_PastInstantsFireAtOnce :
    now (withTb { state := .refLocked, mt := 2 }) = 2 ∧ timeFree (withTb { state := .refLocked, mt := 2 }) = false := by
  decide +kernel
theorem wit_FabricRequestsOfOtherTenantsAreDiscarded :
    up.rs.phase = .running ∧ rcOn (withRc [(0x2103, 0, 1)] up) 0x2103 0 = true ∧
    (List.replicate 1096 (0 : Byte)).length ≤ 1096 := by decide +kernel
theorem wit_TenantZeroIsRefused : ∀ ty ∈ [tPUT, tPUTIMM, tGET, tFADD64, tSWAP64, tCAS64, tCAS128, tFLUSH, tCSEND, tCPUT, tCGET,
      tTSEND, tRTS, tSKIP],
    domOn up dCX = true ∧ packetWf { putTo 5 1 with type := ty, tenant := 0 } = true := by decide +kernel
theorem wit_ReservationsAreForSharedMemory :
    (let a := 0x1000000 + 12 * 0x200000 - 8
     let s1 := issued (holding a working) at95 (wordI 0x1D 0 31 0) 3
     (reg s1 95 3 31 + (0 : BitVec 16).signExtend 64).toNat = a ∧ a % 8 = 0 ∧ placeOf a 8 = .cmem 11 0x1FFFF8 ∧
       inPackage s1 95 3 = false ∧ clusterOn s1 11 = true) ∧
    placeOf lastCtx 8 = .context (2 * stackBytes - 8) ∧ placeOf 0 8 = .ldm 0 := by decide +kernel
theorem wit_TimeSourceIsTheBestUsablePeer :
    bestPeer peered (fun _ => true) = some 71 ∧ bestPeer up (fun _ => true) = none ∧ usablePeer peered 71 = true := by
  decide +kernel
theorem wit_StepRunsTheCommandAtTheFront :
    ({ up with pending := [.empty] } : State).pending = [.empty] ∧ up.pending = [] ∧ domOn up 0 = true ∧
    domOn State.reset 0 = false := by decide +kernel

/-! ### Worked examples of the spec -/

/-- What a command leaves of something, where it answers a next state. -/
def after {α : Type} (f : State → α) (o : Host.Outcome State Fault Refusal) : Option α :=
  match o with
  | .next t => some (f t)
  | _ => none

/-- R7: 1 ms is 4 294 967 ticks. -/
theorem test_millisecond : ticksOf 1 1000 = 4294967 := by decide +kernel

/-- Table 08-11: the header of packet 0 as received. -/
def packet0 : Packet := {
  type := 0x10, hops := 1, tepoch := 1, tclass := 2, tenant := 0x0A01, dest := 0x49483020, source := 0x31483010
  stamp := 0x4B000000508, th := reqTH 0x11 0 0x10000 0 0x5A712340 0x0000600000100000 0
  payload := List.replicate 4032 0 }
theorem test_packet0 : hdrBits packet0 =
    0x1000820800000A014948302031483010FC00000000000000000004B000000508000011000000000001000000000000 * 2 ^ 136 +
    0x5A71234000006000001000000000000000 := by decide +kernel

/-- Table 06-11: the sum of 2^53, 1, 1 and -2^53, in the ways of its three modes. -/
def sum4 (mode : Nat) : Red := { op := 0, ty := 5, mode := mode, sat := false }
def f64s (mode : Nat) : List Part :=
  [0x4340000000000000, 0x3FF0000000000000, 0x3FF0000000000000, 0xC340000000000000].map fun w =>
    (sum4 mode).ofElem (leBytes 8 w)
def sumBytes (mode : Nat) (p : Part) : Nat := leNat ((sum4 mode).final p).1
theorem test_sum_ordered :
    (let r := sum4 1
     match f64s 1 with
     | [a, b, c, d] => sumBytes 1 (r.combine (r.combine a b) (r.combine c d))
     | _ => 0) = 0x3FF0000000000000 := by decide +kernel
/-- The top root A with its child B of level 1 and C of level 2, whose parts have arrived in an order: its fold. -/
def rootSum (mode : Nat) (order : List Nat) : List Nat :=
  let part (k : Nat) : ChildPart :=
    { child := k, complete := true, parts := [(0, leBytes 8 (if k = 1 then 0x3FF0000000000000 else 0xC33FFFFFFFFFFFFF))] }
  let sig := 0x42 * 2 ^ 112 + 5 * 2 ^ 104 + mode * 2 ^ 102 + 8 * 2 ^ 84
  (foldReduce { kids := [[1], [2]] } {
    num := 1, sig := sig, own := leBytes 8 0x4340000000000000, parts := order.map part }).map (sumBytes mode)
theorem test_sum_fast :
    rootSum 0 [1, 2] = [0x3FF0000000000000] ∧ rootSum 0 [2, 1] = [0x4000000000000000] ∧
    rootSum 1 [2, 1] = [0x3FF0000000000000] := by decide +kernel
theorem test_sum_exact :
    (let r := sum4 2
     match f64s 2 with
     | [a, b, c, d] => (leNat (r.wire (r.combine (r.combine a b) (r.combine c d))),
         sumBytes 2 (r.combine (r.combine a b) (r.combine c d)))
     | _ => (0, 0)) = (0x0008000000000000 * 2 ^ 64 + 0x4010000000000000, 0x4000000000000000) := by decide +kernel

/-- Table 17-10: READ STRAP_ECHO, then MOD_STATUS, of a module in slot 45 whose HL0 is up. -/
def strapped : State := { withTb { state := .refLocked } with
  sb := { slotId := 45 }, hl := { links := [(0, { up := true })] } }
theorem test_strap_echo : after (fun t => t.sb.response) (exec (.sbRead 0x008 0) strapped) = some 0xA008002D := by
  decide +kernel
theorem test_mod_status : after (fun t => t.sb.response) (exec (.sbRead 0x009 0) strapped) = some 0xA0090141 := by
  decide +kernel

/-- Table 16-12: AQ_CONFIG 0x0A20_0100_0606_0000 and the ENABLE of it, with ASID 0x0A20 LIVE. -/
def bringUp : State :=
  let s := hosting [] { adm := { config := 0x0A20010006060000, mod_ := 0x0001000000000000 } }
  { s with tu := { spaces := [(0x0A20, { state := .live, tenant := 5 })] } }
theorem test_admin_bring_up : 
    after (fun t => [(queue t 0).state, (queue t 1).state]) (exec (.aqEnable 0) bringUp) = some [.ready, .ready] ∧
    after (fun t => [(hostFn t 0).adm.result, (queue t 0).log2, (queue t 1).log2, (queue t 0).gen, (queue t 1).modCount])
      (exec (.aqEnable 0) bringUp) = some [0, 6, 6, 1, 1] := by decide +kernel

/-- Table 14-8: a host holder of lock 17 raised by a host waiter and an engine waiter, and the handoff. -/
def lock17 : State := takeLock 17 (.host 0 0x42) 2 4 up
def lock17w : State := enqueueWaiter 17 (.engine 21) 9 0 (enqueueWaiter 17 (.host 0 0x43) 4 4 lock17)
theorem test_lock_inherits :
    ((lockOf lock17w 17).holder.map fun h => (h.own, h.eff)) = some (2, 9) ∧
    ((lockOf (enqueueWaiter 17 (.host 0 0x43) 4 4 lock17) 17).holder.map fun h => h.eff) = some 4 ∧
    (let s := giveUp 17 (.host 0 0x42) false lock17w
     ((lockOf s 17).holder.map fun h => (h.party, h.own, h.eff)) = some (.engine 21, 9, 9) ∧
     (lockOf s 17).waiters.length = 1 ∧
     ((lockOf (giveUp 17 (.engine 21) false s) 17).holder.map fun h => h.party) = some (.host 0 0x43)) := by decide +kernel

/-- Table 15-5: a partial write of a granule that reads uncorrectable poisons it; a whole one clears it. -/
def partialWrite : State := cmWrite 0x40000128 (leBytes 8 1) [.uncorrectable] up
theorem test_partial_write :
    isPoisoned partialWrite 0x02000009 = true ∧ count partialWrite 0x8841 0 = 1 ∧
    (stack partialWrite 0).poisoned.length = 1 ∧ (cmRead 0x40000128 8 [.clean] partialWrite).2.1 = true ∧
    isPoisoned (cmWrite 0x40000120 (List.replicate 32 7) [.clean] partialWrite) 0x02000009 = false := by decide +kernel

/-- Table 21-7, steps 3 to 6: source 4 with its severity 6 shows 0x0407 in 0x3804:00. -/
theorem test_safe_state : after collectorState (exec (.faultRaise 4 17 845) (withTb { state := .refLocked })) = some 0x0407 := by
  decide +kernel

/-- Table 13-5: an exact sum past 2^63 - 1 sets OV; a division by 0 sets DZ with quotient 0. -/
theorem test_add_overflows :
    after (fun t => (reg t 95 3 1, (ectx t 95 3).status)) (exec (.add at95 1 31 31) (holding (2 ^ 63 - 1) working)) =
      some (0xFFFFFFFFFFFFFFFE, 1) := by decide +kernel
theorem test_divide_by_zero :
    after (fun t => (reg t 95 3 1, reg t 95 3 2, (ectx t 95 3).status)) (exec (.quos at95 1 31 0) (holding 7 working)) =
      some (0, 0, 2) := by decide +kernel
theorem test_shift_past_width :
    after (fun t => reg t 95 3 1) (exec (.sar at95 1 31 31) (holding (2 ^ 64 - 1) working)) = some 0xFFFFFFFFFFFFFFFF := by
  decide +kernel

/-! ### Well-formedness and the table's words -/

/-- A packet of another type, of another kind, or with a field outside its width is refused. -/
theorem test_ill_formed :
    (Instr.putArrive (putTo 5 0)).wf = true ∧ (Instr.putArrive { putTo 5 0 with type := tGET }).wf = false ∧
    (Instr.putArrive { putTo 5 0 with tenant := 2 ^ 16 }).wf = false ∧
    (Instr.collJoin (collPkt 5 { kind := kREADY })).wf = false ∧ (Instr.collReady (collPkt 5 { kind := kREADY })).wf = true ∧
    (Instr.timeRequestArrive 71 (timePkt 1)).wf = false ∧ (Instr.timeResponseArrive 71 (timePkt 1)).wf = true ∧
    (Instr.healthArrive 71 { putTo 5 0 with type := tLINKCTL, th := linkCtlTH 1 0 }).wf = false ∧
    (Instr.linkCtlDepartArrive 71 { putTo 5 0 with type := tLINKCTL, th := linkCtlTH 2 0 }).wf = false := by decide +kernel
/-- The table gives its rows no bits. -/
theorem test_no_words : decodeTableWord 32 0 = none ∧ State.reset.withFetchWord 32 0 = State.reset := ⟨rfl, rfl⟩

end Sys2Proof.Tests
end

section
/-!
SUPPORT. Machine time (01_machine_time.md): the choice of the source, the time inputs, the commands of fabric
time transfer, one-shot events, the step and the state after reset.
-/
namespace Sys2Proof.Machine

/-! ### Ranges of ports -/

section
variable {s : State}

theorem rangeFrom_eq_range' (lo n : Nat) : rangeFrom lo n = List.range' lo n := by
  induction n generalizing lo with
  | zero => rfl
  | succ n ih => rw [rangeFrom, ih, List.range'_succ]

@[simp] theorem mem_rangeFrom {lo n k : Nat} : k ∈ rangeFrom lo n ↔ lo ≤ k ∧ k < lo + n := by
  rw [rangeFrom_eq_range', List.mem_range'_1]

theorem pairwise_lt_rangeFrom (lo n : Nat) : (rangeFrom lo n).Pairwise (· < ·) := by
  rw [rangeFrom_eq_range']; exact List.pairwise_lt_range'

/-! ### The best of some ports (R26) -/

/-- The order in which R26 chooses: depth, then mean path delay, then port. -/
def ChosenBefore (s : State) (p q : Nat) : Prop :=
  (peerTime s p).depth < (peerTime s q).depth ∨
    ((peerTime s p).depth = (peerTime s q).depth ∧
      ((peerTime s p).delay < (peerTime s q).delay ∨ ((peerTime s p).delay = (peerTime s q).delay ∧ p < q)))

/-- One port further in `bestPeer`: it takes the place of the best so far where its depth is lower, or its
delay at the same depth. -/
def betterOf (s : State) (b : Option Nat) (p : Nat) : Option Nat :=
  match b with
  | none => some p
  | some q =>
    let x := peerTime s p
    let y := peerTime s q
    if x.depth < y.depth || (x.depth == y.depth && decide (x.delay < y.delay)) then some p else some q

theorem bestPeer_eq_foldl (s : State) (ok : Nat → Bool) :
    bestPeer s ok = ((rangeFrom 0 72).filter fun p => usablePeer s p && ok p).foldl (betterOf s) none := rfl

theorem ChosenBefore.trans {p q r : Nat} (h : ChosenBefore s p q) (h' : ChosenBefore s q r) : ChosenBefore s p r := by
  unfold ChosenBefore at *; omega

/-- Of the best so far and a port of a higher number, one is taken, and it comes before the other. -/
theorem betterOf_some {p q : Nat} (h : q < p) :
    (betterOf s (some q) p = some p ∧ ChosenBefore s p q) ∨
      (betterOf s (some q) p = some q ∧ ChosenBefore s q p) := by
  unfold ChosenBefore
  by_cases c : (peerTime s p).depth < (peerTime s q).depth ∨
      ((peerTime s p).depth = (peerTime s q).depth ∧ (peerTime s p).delay < (peerTime s q).delay)
  · exact .inl ⟨by simp [betterOf, c], by omega⟩
  · exact .inr ⟨by simp [betterOf, c], by omega⟩

/-- `b` is the first of the ports of a list in the order of R26; of no ports there is none. -/
def IsFirst (s : State) (l : List Nat) (b : Option Nat) : Prop :=
  match b with
  | none => l = []
  | some p => p ∈ l ∧ ∀ q ∈ l, q ≠ p → ChosenBefore s p q

/-- Over ports of rising number, what `bestPeer` folds is the first of them. -/
theorem isFirst_foldl (l : List Nat) (h : l.Pairwise (· < ·)) : IsFirst s l (l.foldl (betterOf s) none) := by
  induction l using List.reverseRecOn with
  | nil => rfl
  | append_singleton l p ih =>
    obtain ⟨hl, -, hp⟩ := List.pairwise_append.1 h
    specialize ih hl
    rw [List.foldl_append]
    cases hb : l.foldl (betterOf s) none with
    | none =>
      rw [hb] at ih
      obtain rfl : l = [] := ih
      exact ⟨by simp, by simp⟩
    | some b =>
      rw [hb] at ih
      obtain ⟨hm, hf⟩ := ih
      obtain ⟨e, hc⟩ | ⟨e, hc⟩ := betterOf_some (s := s) (hp b hm p (by simp))
      · rw [List.foldl_cons, e]
        refine ⟨by simp, fun q hq hne => ?_⟩
        by_cases hqb : q = b
        · exact hqb ▸ hc
        · exact hc.trans (hf q (by simpa [hne] using hq) hqb)
      · rw [List.foldl_cons, e]
        refine ⟨by simp [hm], fun q hq hne => ?_⟩
        obtain hq | rfl := by simpa using hq
        · exact hf q hq hne
        · exact hc

/-- `bestPeer` answers the first, in the order of R26, of the usable ports that qualify. -/
theorem isFirst_bestPeer (s : State) (ok : Nat → Bool) :
    IsFirst s ((rangeFrom 0 72).filter fun p => usablePeer s p && ok p) (bestPeer s ok) :=
  isFirst_foldl _ ((pairwise_lt_rangeFrom 0 72).filter _)

theorem usablePeer_iff {p : Nat} : usablePeer s p = true ↔
    rcOn s 0x4021 0 = true ∧ trained s p = true ∧ firstOfBond s p = true ∧ (peerTime s p).depth < 14 ∧
      (peerTime s p).srcNode ≠ ownNode s := by
  simp [usablePeer, and_assoc]

/-- Settles O51: the fold of `bestPeer` over ports of rising number keeps the first of those passed. -/
theorem timeSourceIsTheBestUsablePeer : Obligations.TimeSourceIsTheBestUsablePeer := by
  intro s
  have hfirst := isFirst_bestPeer s fun _ => true
  simp only [Bool.and_true] at hfirst
  constructor
  · intro p hp
    rw [hp] at hfirst
    obtain ⟨hmem, hbefore⟩ := hfirst
    obtain ⟨hrange, husable⟩ := List.mem_filter.1 hmem
    obtain ⟨-, -, hbond, -, hsrc⟩ := usablePeer_iff.1 husable
    exact ⟨by simpa using hrange, husable, hsrc, hbond, fun q hq hu hne => hbefore q (by simp [hq, hu]) hne⟩
  · intro hn q hq
    rw [hn] at hfirst
    have := List.filter_eq_nil_iff.1 hfirst q (by simp [hq])
    simpa using this

/-! ### The commands of TB: in PD_AO, those that use VC19 in PD_CX -/

theorem exec_refClkLost : exec .refClkLost s = inAO refClkLost s := rfl
theorem exec_epochEdge {spacing : BitVec 32} {refMs : BitVec 16} :
    exec (.epochEdge spacing refMs) s = inAO (epochEdge spacing.toNat refMs.toNat) s := rfl
theorem exec_epochLost : exec .epochLost s = inAO (fun s => if internalClock s then s else epochLost s) s := rfl
theorem exec_tcodeFrame {frame : BitVec 96} {a b : BitVec 32} :
    exec (.tcodeFrame frame a b) s = inAO (tcodeFrame frame.toNat a.toNat b.toNat) s := rfl
theorem exec_tcodeLost : exec .tcodeLost s = inAO tcodeLost s := rfl
theorem exec_usablePeerAdvertised {p : Fin 72} :
    exec (.usablePeerAdvertised p) s = inAO (usableAdvertised p) s := rfl
theorem exec_holdDownExpiry : exec .holdDownExpiry s = inAO holdDownOver s := rfl
theorem exec_timeExchangeStart {p : Fin 72} : exec (.timeExchangeStart p) s = inCX (timeExchange p) s := rfl
theorem exec_timeRequestArrive {port : Fin 72} {p : Packet} : exec (.timeRequestArrive port p) s =
    portCommand tTIME (fun p => tmKIND p == 0) port p (timeRequest port (arrivedAt port p s)) s := rfl
theorem wf_timeRequestArrive {port : Fin 72} {p : Packet} :
    Instr.wf (.timeRequestArrive port p) = (isPacket [tTIME] p && tmKIND p == 0) := rfl
theorem exec_timeResponseArrive {port : Fin 72} {p : Packet} : exec (.timeResponseArrive port p) s =
    portCommand tTIME (fun p => tmKIND p == 1) port p (timeResponse port (arrivedAt port p s)) s := rfl
theorem wf_timeResponseArrive {port : Fin 72} {p : Packet} :
    Instr.wf (.timeResponseArrive port p) = (isPacket [tTIME] p && tmKIND p == 1) := rfl
theorem exec_measuredDelayUpdate : exec .measuredDelayUpdate s = inAO measuredUpdate s := rfl
theorem exec_calibrationComplete {ppb : BitVec 32} : exec (.calibrationComplete ppb) s = inAO (fun s =>
    if s.tb.state == .refLocked && (s.tb.calibrated || 600 * 2 ^ 32 ≤ s.tb.lockTicks) then
      setTb (fun t => { t with calibrated := true, oscOffset := ppb.toNat }) s
    else s) s := rfl
theorem exec_uncertaintyLimitCrossed : exec .uncertaintyLimitCrossed s = inAO judgeUncertainty s := rfl
theorem exec_slewEnd : exec .slewEnd s = inAO (fun s =>
    if s.tb.residual.natAbs < 2 ^ 32 then setTb (fun t => { t with residual := 0 }) s else s) s := rfl
theorem exec_timePulse : exec .timePulse s = inAO timePulse s := rfl
theorem exec_timePulseEnd : exec .timePulseEnd s = inAO timePulseEnd s := rfl

/-- SOURCE_PEER_LOST where the peer that TB follows is no longer usable. -/
theorem exec_sourcePeerLost {p : Nat} (hd : domOn s 0 = true) (h : s.tb.srcPort = some p)
    (hu : usablePeer s p = false) :
    exec .sourcePeerLost s = fin (loseSource s) := by
  show execSourcePeerLost s = _
  simp only [execSourcePeerLost, inAO_on hd, h, hu, Bool.false_eq_true, if_false]

/-! ### Losing the time inputs and the source (R14, R19, R23, R28) -/

/-- Table 01-3 where REF_CLK or EPOCH is lost: in REF_LOCKED TB follows the best usable peer, or holds over. -/
theorem effect_loseReference {f : State → State} {s1 : State} (hd : domOn s 0 = true) (hf : f s = loseReference s1)
    (hs : s1.tb.state = s.tb.state) :
    Effect (inAO f s) (fun t =>
      (s.tb.state ≠ .refLocked → t = s1) ∧
      (s.tb.state = .refLocked → bestPeer s1 (fun _ => true) = none → t = enterState .holdover s1) ∧
      (∀ p, s.tb.state = .refLocked → bestPeer s1 (fun _ => true) = some p → t = followPeer p s1)) := by
  refine effect_inAO hd ⟨fun h => ?_, fun h hb => ?_, fun p h hb => ?_⟩
  · simp [hf, loseReference, hs, h]
  · simp [hf, loseReference, hs, h, hb]
  · simp [hf, loseReference, hs, h, hb]

theorem refClkLost_of_machineClock (h : internalClock s = false) :
    refClkLost s = loseReference { s with tb := { s.tb with
      refClkValid := false, qualified := false, haveEdge := false, framePrev := none, frameNow := none } } := by
  simp [refClkLost, h, setTb]

theorem tcodeLost_of_machineClock (h : internalClock s = false) :
    tcodeLost s = { s with tb := { s.tb with
      tcodeValid := false, frameNow := none, framePrev := none,
      secondsUnconfirmed := s.tb.secondsUnconfirmed || (s.tb.refClkValid && s.tb.epochValid) } } := by
  simp [tcodeLost, h, setTb]

theorem loseSource_of_fabricLocked (h : s.tb.state = .fabricLocked) :
    loseSource s = enterState .holdover { s with tb := { s.tb with
      srcPort := none, holdDown := some (s.tb.count + 2 ^ 32) } } := by
  simp [loseSource, h, setTb]

/-- Settles O1: both losses of the reference go by `loseReference`, that of the source by `loseSource`. -/
theorem timeInputsEnd : Obligations.TimeInputsEnd := by
  intro s hd hc
  refine ⟨?refClk, ?epoch, ?tcode, fun p hs hp hu => ?source⟩
  case refClk =>
    rw [exec_refClkLost]
    exact effect_loseReference hd (refClkLost_of_machineClock hc) rfl
  case epoch =>
    rw [exec_epochLost]
    exact effect_loseReference hd (if_neg (by simp [hc])) rfl
  case tcode =>
    rw [exec_tcodeLost]
    exact effect_inAO hd (tcodeLost_of_machineClock hc)
  case source =>
    rw [exec_sourcePeerLost hd hp hu]
    exact effect_fin (loseSource_of_fabricLocked hs)

/-! ### Edges, frames and the hold-down (R15, R18, R24, R28) -/

@[simp] theorem setTb_tb (f : TimeBase → TimeBase) (s : State) : (setTb f s).tb = f s.tb := rfl
@[simp] theorem rc_setTb (f : TimeBase → TimeBase) (s : State) : rc (setTb f s) = rc s := rfl
@[simp] theorem trained_setTb (f : TimeBase → TimeBase) (s : State) : trained (setTb f s) = trained s := rfl

theorem peerTime_setTb {f : TimeBase → TimeBase} (h : (f s.tb).peers = s.tb.peers) :
    peerTime (setTb f s) = peerTime s := by
  funext p; simp [peerTime, h]

/-- The cable delay rests on the configuration, the ports and the averages of fabric time transfer only. -/
theorem cableDelay_setTb {f : TimeBase → TimeBase} (hp : (f s.tb).peers = s.tb.peers)
    (hm : (f s.tb).measuredOk = s.tb.measuredOk) (hd : (f s.tb).measuredDelay = s.tb.measuredDelay) :
    cableDelay (setTb f s) = cableDelay s := by
  simp only [cableDelay, rc_setTb, trained_setTb, peerTime_setTb hp, setTb_tb, hm, hd]
  rfl

/-- An accepted edge in FREE that qualifies sets MT from the last frame and locks TB (R24, Table 01-3). -/
theorem acceptedEdge_free {refMs n m : Nat} (hs : s.tb.state = .free) (hr : 2000 ≤ refMs)
    (hn : s.tb.frameNow = some n) (hm : s.tb.framePrev = some m) (hc : n = (m + 1) % 2 ^ 32) :
    acceptedEdge refMs s = enterState .refLocked (setMt (n * 2 ^ 32 + cableDelay s) (setTb (fun t => { t with
      missed := 0, epochValid := true, haveEdge := true, qualified := true, framePrev := some n, frameNow := none
      adopt := none, delayHeld := cableDelay s }) s)) := by
  have hq : (n == (m + 1) % 2 ^ 32) = true := by simp [hc]
  simp only [acceptedEdge, hn, hm, hq, hs, decide_eq_true hr, Bool.and_self, if_true, Option.getD_some]
  rw [cableDelay_setTb rfl rfl rfl]
  simp only [setMt, setTb, hn]

/-- Outside REF_LOCKED an edge a second after the one before is accepted (R15). -/
theorem epochEdge_in_spacing {spacing refMs : Nat} (hc : internalClock s = false) (hs : s.tb.state ≠ .refLocked)
    (hlo : 99999995 ≤ spacing) (hhi : spacing ≤ 100000005) :
    epochEdge spacing refMs s = acceptedEdge refMs (setTb (fun t => { t with refClkValid := refMs != 0 }) s) := by
  simp [epochEdge, hc, hs, hlo, hhi]

/-- A frame fails a check of R17: SYNC, CRC, or its place between the edges in µs. -/
def FrameFails (frame a b : Nat) : Prop :=
  fld frame 95 80 ≠ 0xB38F ∨ crc32c (beBytes 6 (fld frame 79 32)) ≠ fld frame 31 0 ∨ a < 100 ∨ b < 100

theorem tcodeFrame_discarded {frame a b : Nat} (hc : internalClock s = false)
    (h : FrameFails frame a b) :
    tcodeFrame frame a b s = bump 0x4062 0 s := by
  rw [tcodeFrame, if_neg (by simp [hc]), if_pos (by simpa [FrameFails, or_assoc] using h)]

theorem tcodeFrame_noted {frame a b : Nat} (hc : internalClock s = false) (hs : s.tb.state ≠ .refLocked)
    (h : ¬FrameFails frame a b) :
    tcodeFrame frame a b s = { s with tb := { s.tb with
      tcodeValid := true, quality := fld frame 47 40, frameNow := some (fld frame 79 48) } } := by
  rw [tcodeFrame, if_neg (by simp [hc]), if_neg (by simpa [FrameFails, or_assoc] using h)]
  exact if_neg (by simp [hs])

/-- Which peers are usable, and since when, does not rest on the hold-down. -/
theorem bestPeer_steady_holdDown (h : Option Nat) :
    bestPeer (setTb (fun t => { t with holdDown := h }) s) (steadyPeer (setTb (fun t => { t with holdDown := h }) s)) =
      bestPeer s (steadyPeer s) := rfl

/-- The hold-down ends; with no peer advertised for 1 s, HOLDOVER goes on (R28). -/
theorem holdDownOver_unfollowed {at_ : Nat} (h : s.tb.holdDown = some at_) (ht : at_ ≤ ticks s)
    (hb : bestPeer s (steadyPeer s) = none) :
    holdDownOver s = { s with tb := { s.tb with holdDown := none } } := by
  have hchoose : chooseSource (setTb (fun t => { t with holdDown := none }) s) =
      setTb (fun t => { t with holdDown := none }) s := by
    rw [chooseSource, bestPeer_steady_holdDown, hb]
    exact ite_self _
  simp only [holdDownOver, h, ht, if_true]
  exact hchoose

/-- Settles O2: an edge by `acceptedEdge`, a frame by the four checks of R17, the hold-down by `chooseSource`. -/
theorem edgesFramesAndHoldDown : Obligations.EdgesFramesAndHoldDown := by
  intro s hd hc
  refine ⟨fun spacing refMs n m hs he hlo hhi hr hn hm hnm => ?edge,
    fun frame a b => ⟨fun hbad => ?bad, fun hgood hs => ?good⟩, fun at_ hh ht _ hb => ?holdDown⟩
  case edge =>
    have hvalid : (refMs.toNat != 0) = true := by simp; omega
    rw [exec_epochEdge]
    refine effect_inAO hd ?_
    rw [epochEdge_in_spacing hc (by simp [hs]) hlo hhi, hvalid,
      acceptedEdge_free (s := setTb (fun t => { t with refClkValid := true }) s) hs hr hn hm hnm,
      cableDelay_setTb rfl rfl rfl]
    simp only [setMt, setTb, he]
  case bad =>
    rw [exec_tcodeFrame]
    exact effect_inAO hd (tcodeFrame_discarded hc hbad)
  case good =>
    rw [exec_tcodeFrame]
    exact effect_inAO hd (tcodeFrame_noted hc hs hgood)
  case holdDown =>
    rw [exec_holdDownExpiry]
    exact effect_inAO hd (holdDownOver_unfollowed hh ht hb)

/-! ### Fabric time transfer, averages and limits, and the pulse (R20, R28, R29, R31 to R33, R37) -/

/-- A usable peer below the source's depth for 1 s: TB follows the best of them (R28). -/
theorem usableAdvertised_lower {p q : Nat} (hs : s.tb.state = .fabricLocked) (hp : lowerPeer s p = true)
    (hq : bestPeer s (lowerPeer s) = some q) : usableAdvertised p s = followPeer q s := by
  simp only [usableAdvertised, hs, hp, hq, if_true]

/-- An exchange that may start does (R29). -/
theorem timeExchange_started {p : Nat} (h : mayExchange s p = true) :
    timeExchange p s =
      let s1 := setPeer p (fun x => { x with
        openXid := some x.nextXid, nextXid := (x.nextXid + 1) % 64, nextStart := ticks s + rc s 0x4020 0 }) s
      enqueue p 0 none (timePacket s1 p 0 0 0 (peerTime s p).nextXid) s1 := by
  simp only [timeExchange, h, if_true]

/-- Outside FREE a request is answered with the MT at which it arrived (R29). -/
theorem timeRequest_answered {p at_ : Nat} {pk : Packet} (h : timeFree (notePeer p pk s) = false) :
    timeRequest p at_ pk s =
      enqueue p 0 none (timePacket (notePeer p pk s) p (tmT1 pk) at_ 1 (tmXID pk)) (notePeer p pk s) := by
  simp only [timeRequest, h, Bool.false_eq_true, if_false]

/-- The median of R20 takes nothing from ports that are not trained to a peer at depth 0. -/
theorem filterMap_depth_zero_eq_nil (h : ∀ q < 72, (trained s q && (peerTime s q).depth == 0) = false) :
    ((rangeFrom 0 72).filterMap fun q =>
      if trained s q && (peerTime s q).depth == 0 then (peerTime s q).offset else none) = [] := by
  rw [List.filterMap_eq_nil_iff]
  intro q hq
  rw [if_neg (by simp [h q (by simpa using hq)])]

/-- The first exchange of a port, complete in REF_LOCKED with no peer at depth 0, leaves its offset and delay
and nothing else (R29). -/
theorem timeResponse_first {p at_ : Nat} {pk : Packet} :
    let out : Int := (tmT2 pk : Int) - (tmT1 pk : Int)
    let back : Int := (at_ : Int) - (tmT3 pk : Int)
    let s2 := setPeer p (fun y => { y with
      offset := some ((out - back) / 2), delay := sat 32 ((out + back) / 2).toNat
      sumDelay := y.sumDelay + ((out + back) / 2).toNat, nDelay := y.nDelay + 1 })
      (notePeer p pk (setPeer p (fun y => { y with openXid := none }) s))
    (peerTime s p).openXid = some (tmXID pk) → (peerTime s p).nDelay = 0 → s2.tb.state = .refLocked →
    (∀ q < 72, (trained s2 q && (peerTime s2 q).depth == 0) = false) → timeResponse p at_ pk s = s2 := by
  intro out back s2 hx hn hs hz
  have hzero := filterMap_depth_zero_eq_nil hz
  simp only [timeResponse, hx, hn, ne_eq, not_true_eq_false, decide_false, Bool.false_and, Bool.false_eq_true, if_false]
  simp only [s2, out, back] at hzero hs ⊢
  rw [hzero]
  simp only [List.isEmpty_nil, if_true, hs]

/-- The average of 64 s is complete (R20). -/
theorem measuredUpdate_complete (hc : s.tb.medianCount ≠ 0) (ht : s.tb.medianSince + 64 * 2 ^ 32 ≤ ticks s) :
    measuredUpdate s = judgeDelay { s with tb := { s.tb with
      measuredDelay := sat 32 (s.tb.medianSum / (s.tb.medianCount : Int)).toNat, measuredOk := true,
      medianSum := 0, medianCount := 0 } } := by
  rw [measuredUpdate, if_neg (by simp [hc]; omega)]
  rfl

/-- A crossing of the limit that is not yet raised (R32). -/
theorem judgeUncertainty_crossed (hs : s.tb.state ≠ .free) (hu : rc s 0x4031 0 < uncertainty s)
    (ho : s.tb.overLimit = false) :
    judgeUncertainty s = { s with tb := { s.tb with overLimit := true },
                                  work := s.work ++ [.fault 10 0 (uncertainty s % 2 ^ 32)] } := by
  simp only [judgeUncertainty, beq_eq_false_iff_ne.2 hs, hu, ho, Bool.false_eq_true, if_false, if_true]
  rfl

/-- The pulse of a whole second lasts 10 µs: 42 950 ticks (R7, R33). -/
theorem timePulse_due (h : s.tb.pulseDue = true) :
    timePulse s = { s with tb := { s.tb with
      pulseDue := false, timePulse := s.tb.state != .free && rcOn s 0x4050 0, pulseEnd := s.tb.count + 42950 } } := by
  simp only [timePulse, h, if_true]
  rfl

theorem timePulseEnd_over (h : s.tb.timePulse = true) (ht : s.tb.pulseEnd ≤ ticks s) :
    timePulseEnd s = { s with tb := { s.tb with timePulse := false } } := by
  simp only [timePulseEnd, h, ht, decide_true, Bool.and_self, if_true]
  rfl

/-- Settles O3, command by command. -/
theorem fabricTimeAndMachineTimeEvents : Obligations.FabricTimeAndMachineTimeEvents := by
  intro s hd
  refine ⟨fun p q hs hp hq => ?peer, fun p hx hm => ?start,
    fun port p hx hw => ?request, fun port p hx hw => ?response, fun hc ht => ?average, fun ppb hs hl => ?calibration,
    fun hs hu ho => ?limit, fun hr => ?slew, fun hp => ?pulse, fun hp ht => ?pulseEnd⟩
  case peer =>
    rw [exec_usablePeerAdvertised]
    exact effect_inAO hd (usableAdvertised_lower hs hp hq)
  case start =>
    rw [exec_timeExchangeStart]
    exact effect_inCX hx (timeExchange_started hm)
  case request =>
    intro s1 hf
    rw [wf_timeRequestArrive, Bool.and_eq_true] at hw
    obtain ⟨ht, hk⟩ := hw
    rw [exec_timeRequestArrive]
    exact effect_portCommand ht hk hx (timeRequest_answered hf)
  case response =>
    intro s0 out back s1 s2 ho hn hs hz
    rw [wf_timeResponseArrive, Bool.and_eq_true] at hw
    obtain ⟨ht, hk⟩ := hw
    rw [exec_timeResponseArrive]
    exact effect_portCommand ht hk hx (timeResponse_first ho hn hs hz)
  case average =>
    rw [exec_measuredDelayUpdate]
    exact effect_inAO hd (measuredUpdate_complete hc ht)
  case calibration =>
    rw [exec_calibrationComplete]
    exact effect_inAO hd (if_pos (by rw [hs, decide_eq_true hl, Bool.or_true]; rfl))
  case limit =>
    rw [exec_uncertaintyLimitCrossed]
    exact effect_inAO hd (judgeUncertainty_crossed hs hu ho)
  case slew =>
    rw [exec_slewEnd]
    exact effect_inAO hd (if_pos hr)
  case pulse =>
    rw [exec_timePulse]
    exact effect_inAO hd (timePulse_due hp)
  case pulseEnd =>
    rw [exec_timePulseEnd]
    exact effect_inAO hd (timePulseEnd_over hp ht)

/-! ### One-shot events, the step and reset (R13, R35) -/

theorem armShot_now (owner : ShotOwner) (s : State) : armShot owner 0 s = .atOnce false := if_pos rfl

theorem armShot_past (owner : ShotOwner) {instant : Nat} (h0 : instant ≠ 0) (hp : instant < now s)
    (hf : timeFree s = false) : armShot owner instant s = .atOnce true := by
  simp [armShot, h0, hf, hp]

/-- Settles O47: neither request comes to the slots. -/
theorem pastInstantsFireAtOnce : Obligations.PastInstantsFireAtOnce := fun owner s =>
  ⟨armShot_now owner s, fun _ h0 hp hf => armShot_past owner h0 hp hf⟩

theorem step_cons {c : Instr} {r : List Instr} (h : s.pending = c :: r) : step s = exec c { s with pending := r } := by
  simp only [step, h]

theorem step_nil (h : s.pending = []) : step s = .next (if domOn s 0 then tick s else s) := by
  simp only [step, h, idle]

/-- Settles O44, by what waits in the queue. -/
theorem stepRunsTheCommandAtTheFront : Obligations.StepRunsTheCommandAtTheFront :=
  ⟨fun _ _ => step_cons rfl, fun _ _ _ h => step_cons h, fun _ h =>
    ⟨fun hd => by rw [step_nil h, if_pos hd], fun hd => by rw [step_nil h, if_neg (by simp [hd])]⟩⟩

/-- Settles O45: in the state after reset every map is empty, so what is read of one is its default. -/
theorem resetLeavesTheModuleUnpowered : Obligations.ResetLeavesTheModuleUnpowered :=
  ⟨fun _ => rfl, rfl, rfl, rfl, rfl, fun _ _ => ⟨rfl, rfl⟩, fun _ => rfl, rfl, fun _ => rfl, fun _ => rfl,
    fun _ _ _ => ⟨rfl, rfl⟩, fun _ _ => ⟨rfl, rfl⟩, fun _ => rfl, fun _ _ => rfl, fun _ _ => rfl, rfl, rfl⟩

end
end Sys2Proof.Machine
end

section
/-!
SUPPORT. The object dictionary (02_object_dictionary.md): requests of a session in turn and their effect,
requests of the fabric path, sessions, commit sets, persistence and the check word.
-/
namespace Sys2Proof.Machine

section
variable {s : State} {h : YHdr}

/-! ### The commands that carry a request -/

theorem exec_yustoRead {idx : BitVec 16} {sub : BitVec 8} {shadow : Bool} :
    exec (.yustoRead h idx sub shadow) s = yustoCommand h (.read idx sub shadow) s := rfl
theorem exec_yustoWrite {idx : BitVec 16} {sub set : BitVec 8} {value : List Byte} :
    exec (.yustoWrite h idx sub set value) s = yustoCommand h (.write idx sub set value) s := rfl
theorem exec_yustoShape {idx : BitVec 16} : exec (.yustoShape h idx) s = yustoCommand h (.shape idx) s := rfl
theorem exec_segRead {idx : BitVec 16} {sub : BitVec 8} {off : BitVec 32} {len : BitVec 16} :
    exec (.segRead h idx sub off len) s = yustoCommand h (.segRead idx sub off len) s := rfl
theorem exec_segWrite {idx : BitVec 16} {sub set : BitVec 8} {total off : BitVec 32} {data : List Byte} :
    exec (.segWrite h idx sub set total off data) s = yustoCommand h (.segWrite idx sub set total off data) s := rfl
theorem exec_commit {set : BitVec 8} {mt : BitVec 64} :
    exec (.commit h set mt) s = yustoCommand h (.commit set mt) s := rfl
theorem exec_commitCancel {set : BitVec 8} : exec (.commitCancel h set) s = yustoCommand h (.cancel set) s := rfl
theorem exec_commitDiscard {set : BitVec 8} : exec (.commitDiscard h set) s = yustoCommand h (.discard set) s := rfl
theorem exec_report {set : BitVec 8} {first : BitVec 16} :
    exec (.report h set first) s = yustoCommand h (.report set first) s := rfl
theorem exec_subscribe {mask : BitVec 32} {lo hi : BitVec 16} :
    exec (.subscribe h mask lo hi) s = yustoCommand h (.subscribe mask lo hi) s := rfl
theorem exec_subscribeCancel {lo hi : BitVec 16} :
    exec (.subscribeCancel h lo hi) s = yustoCommand h (.subscribe 0 lo hi) s := rfl

/-- The bytes of a body as far as they can pass the limit of 1 100 B: only a value or a segment can. -/
def bodySize : YBody → Nat
  | .write _ _ _ v => 4 + v.length
  | .segWrite _ _ _ _ _ d => 12 + d.length
  | _ => 0

theorem yustoCommand_eq (b : YBody) : yustoCommand h b s =
    fin (yustoArrive h (if h.ok && bodySize b ≤ 1100 then b else .malformed (BitVec.ofNat 8 (yOp b))) s) := by
  cases b <;> rfl

/-- A request whose header parses, and whose body is within its limit, arrives as it is (R52). -/
theorem yustoCommand_parsed (b : YBody) (ho : h.ok = true) (hn : bodySize b ≤ 1100) :
    yustoCommand h b s = fin (yustoArrive h b s) := by
  rw [yustoCommand_eq, if_pos (by simp [ho, hn])]

/-! ### Requests of another tenant (R49) -/

theorem serves_running (hp : s.rs.phase = .running) (c : Carrier) : serves s c = true := by
  simp [serves, hp]

/-- On the enabled fabric path a request of a tenant other than 0 is taken from those delivered and counted. -/
theorem yustoArrive_otherTenant {source : BitVec 32} {tenant : BitVec 16} (hc : h.carrier = .fabric source tenant)
    (hp : s.rs.phase = .running) (hf : rcOn s 0x2103 0 = true) (ht : tenant ≠ 0) (b : YBody) :
    yustoArrive h b s = bump 0x2111 0 { s with rt := { s.rt with
      delivered := eraseFirst (fun p => p.type == tMGMT && p.source == source.toNat &&
        p.tenant == tenant.toNat && parseYusto p.payload == (h.session.toNat, h.seq.toNat, b)) s.rt.delivered } } := by
  have ht' : tenant.toNat ≠ 0 := BitVec.toNat_ne.1 ht
  simp only [yustoArrive, serves_running hp, hc, Bool.not_true, Bool.false_eq_true, if_false]
  rw [if_neg (by simpa [rcOn, rc] using hf), if_pos ht']

end

/-- Settles O48: what becomes of such a request does not rest on its operation. -/
theorem fabricRequestsOfOtherTenantsAreDiscarded : Obligations.FabricRequestsOfOtherTenantsAreDiscarded := by
  intro s source tenant session seq ht hp hf h gone
  have hgone {i : Instr} {b : YBody} (hi : exec i s = yustoCommand h b s) (hn : bodySize b ≤ 1100) : gone i b := by
    show Effect (exec i s) _
    rw [hi, yustoCommand_parsed b rfl hn]
    exact effect_fin (yustoArrive_otherTenant rfl hp hf ht b)
  exact ⟨fun _ _ _ => hgone exec_yustoRead (Nat.zero_le _),
    fun _ _ _ _ hv => hgone exec_yustoWrite (by simp only [bodySize]; omega),
    fun _ => hgone exec_yustoShape (Nat.zero_le _),
    fun _ _ _ _ => hgone exec_segRead (Nat.zero_le _),
    fun _ _ _ _ _ _ hd => hgone exec_segWrite (by simp only [bodySize]; omega),
    fun _ _ => hgone exec_commit (Nat.zero_le _),
    fun _ => hgone exec_commitCancel (Nat.zero_le _),
    fun _ => hgone exec_commitDiscard (Nat.zero_le _),
    fun _ _ => hgone exec_report (Nat.zero_le _),
    fun _ _ _ => hgone exec_subscribe (Nat.zero_le _),
    fun _ _ => hgone exec_subscribeCancel (Nat.zero_le _)⟩

/-! ### The next request of a session (R51, R54) -/

section
variable {s t : State} {h : YHdr} {n : BitVec 30} {x : Session} {b : YBody}

theorem session_setSession {k : Nat} (f : Session → Session) (hx : session s k = some x) :
    session (setSession k f s) k = some (f x) := by
  rw [session] at hx
  simp [session, setSession, hx]

/-! What a request in turn finds of its session.  The four fields are first read with any idle instant, so that no
check compares the record `awake s x` with `x`, and with it an arithmetic term with a field. -/

theorem Session.withIdleAt_carrier (v : Nat) : ({ x with idleAt := v } : Session).carrier = x.carrier := rfl
theorem Session.withIdleAt_next (v : Nat) : ({ x with idleAt := v } : Session).next = x.next := rfl
theorem Session.withIdleAt_kept (v : Nat) : ({ x with idleAt := v } : Session).kept = x.kept := rfl
theorem Session.withIdleAt_subs (v : Nat) : ({ x with idleAt := v } : Session).subs = x.subs := rfl

@[simp] theorem awake_carrier : (awake s x).carrier = x.carrier := Session.withIdleAt_carrier _
@[simp] theorem awake_next : (awake s x).next = x.next := Session.withIdleAt_next _
@[simp] theorem awake_kept : (awake s x).kept = x.kept := Session.withIdleAt_kept _
@[simp] theorem awake_subs : (awake s x).subs = x.subs := Session.withIdleAt_subs _

@[simp] theorem ownerWord_awake (k : Nat) : ownerWord (awake s x) k = ownerWord x k := by
  rw [ownerWord, awake_carrier, ownerWord]

theorem setSession_gen (k : Nat) (f : Session → Session) : (setSession k f s).od.gen = s.od.gen := rfl
@[simp] theorem heard_gen : (heard s n).od.gen = s.od.gen := setSession_gen _ _

theorem session_heard (hx : session s n.toNat = some x) : session (heard s n) n.toNat = some (awake s x) :=
  session_setSession _ hx

theorem fullService_heard (hT : InTurn s h n x) : fullService (heard s n) = true := by
  obtain ⟨-, -, hp, -⟩ := hT
  simp [fullService, heard, hp]

@[simp] theorem diff32_self (a : Nat) : diff32 a a = 0 := by
  unfold diff32; omega

/-- A request with the expected SEQ, of which no response is kept, is executed at once (R54). -/
theorem inOrder_next {k seq : Nat} (hx : session s k = some x) (hk : x.kept.all (fun r => r.seq != seq) = true)
    (hn : x.next = some seq) : inOrder k seq b s = runHeld k 32 (runNext k seq b s) := by
  have hfresh : (x.kept.find? fun r => r.seq == seq) = none := by simpa using hk
  simp [inOrder, hx, hfresh, hn]

/-- The session's own SESSION number: the request is judged by its SEQ (R51). -/
theorem inSession_own {seq : Nat} (hx : session s n.toNat = some x) :
    inSession n.toNat x.number seq b s = inOrder n.toNat seq b (heard s n) := by
  rw [inSession, hx]
  exact if_neg (not_not_intro rfl)

/-- A request in turn passes its carrier, its session and the order of requests (R51, R54). -/
theorem yustoArrive_inTurn (hT : InTurn s h n x) :
    yustoArrive h b s = runHeld n.toNat 32 (runNext n.toNat h.seq.toNat b (heard s n)) := by
  obtain ⟨hc, -, hp, hx, hm, hnum, hk, hn⟩ := hT
  simp only [yustoArrive, serves_running hp, hc, hx, hm, hnum, Bool.not_true, Bool.false_eq_true, if_false, if_true]
  rw [inSession_own hx]
  exact inOrder_next (session_heard hx) (by rwa [awake_kept]) (by rwa [awake_next])

theorem not_mailbox_of_mgmt {c : Carrier} (hm : isMgmtCarrier c = true) : isMailboxCarrier c = false := by
  cases c <;> simp_all [isMgmtCarrier, isMailboxCarrier]

/-- The request with SEQ = NEXT: what the operation answers is kept and sent, and NEXT advances (R54). -/
theorem runNext_answered {k seq : Nat} {a : Answer} (hx : session s k = some x)
    (hm : isMailboxCarrier x.carrier = false) (ha : runBody k x b s = (a, t)) :
    runNext k seq b s =
      let r : YResponse := { seq := seq, op := yOp b, status := a.1, body := a.2 }
      respond x r (setSession k (fun y => { y with
        next := some ((seq + 1) % 2 ^ 32)
        held := y.held.filter fun g => g.1 != seq
        kept := (y.kept ++ [r]).drop (y.kept.length - 31) }) t) := by
  simp only [runNext, hx, hm, when_, Bool.false_eq_true, if_false, ha]

/-- What the operation answers to a request in turn is the response, given in the state that it leaves. -/
theorem effect_inTurn {st : Nat} {body : List Byte} (hT : InTurn s h n x) (hb : bodySize b ≤ 1100)
    (ha : runBody n.toNat (awake s x) b (heard s n) = ((st, body), t)) :
    Effect (yustoCommand h b s) (fun u => u = reply n (awake s x) h (yOp b) st body t) := by
  have harrive := yustoArrive_inTurn (b := b) hT
  obtain ⟨-, hok, -, hx, hm, -⟩ := hT
  rw [yustoCommand_parsed b hok hb]
  refine effect_fin (harrive.trans ?_)
  rw [runNext_answered (session_heard hx) (by rw [awake_carrier, not_mailbox_of_mgmt hm]) ha]
  rfl

end

/-! ### The operations of a service that runs in full (R53, R56 to R58) -/

section
variable {s : State} {x : Session} {k w idx sub : Nat} {o : ObjDef}
variable (hf : fullService s = true)
include hf

/-- A read of what is there, of the right kind, by a path that may read it, passes the checks of R585. -/
theorem checkAccess_read {table : Bool} {go : ObjDef → State → Answer × State} (hl : lookup s idx sub = some o)
    (ht : (o.ty == .table) = table)
    (hr : mayRead (carrierPath x.carrier) (carrierFn x.carrier) idx sub = true) :
    checkAccess x idx sub (some table) false s go = go o s := by
  simp [checkAccess, offered, hf, hl, ht, hr]

/-- A write of an RC object by a path that may write it passes them likewise. -/
theorem checkAccess_write {table : Bool} {go : ObjDef → State → Answer × State} (hl : lookup s idx sub = some o)
    (ht : (o.ty == .table) = table) (hc : o.acc = .rc) (hw : mayWrite (carrierPath x.carrier) idx sub = true) :
    checkAccess x idx sub (some table) true s go = go o s := by
  simp [checkAccess, offered, hf, hl, ht, hc, hw]

theorem yRead_granted {shadow : Bool} (hl : lookup s idx sub = some o) (ht : o.ty ≠ .table)
    (hr : mayRead (carrierPath x.carrier) (carrierFn x.carrier) idx sub = true) (hi : idx ≠ 0x4003) :
    yRead x idx sub shadow s = ((yOK, beBytes 1 o.ty.code ++
      (if shadow && o.acc == .rc then shadowBytes s idx sub else objBytes s o idx sub)), s) := by
  rw [yRead, checkAccess_read hf hl (beq_eq_false_iff_ne.2 ht) hr, if_neg hi]

/-- A WRITE of an RC object that its set takes tells the subscribers (R58, R60). -/
theorem yWrite_shadowed {set : Nat} {bs : List Byte} (ho : ownerWord x k = w) (hl : lookup s idx sub = some o)
    (hc : o.acc = .rc) (ht : o.ty ≠ .table) (hw : mayWrite (carrierPath x.carrier) idx sub = true)
    (hok : (rcWrite w set (okey idx sub) bs s).1 = yOK) :
    yWrite x k idx sub set bs s = ((yOK, []), written idx sub (rcWrite w set (okey idx sub) bs s).2) := by
  rw [yWrite, checkAccess_write hf hl (beq_eq_false_iff_ne.2 ht) hc hw]
  simp [hc, ho, hok, when_]

theorem yShape_scalar (ho : objAny idx = some o) (ht : o.ty ≠ .table)
    (hr : mayRead (carrierPath x.carrier) (carrierFn x.carrier) idx o.lo = true) :
    yShape x idx s = ((yOK, beBytes 1 o.ty.code ++ beBytes 4 (shapeOf s idx) ++ beBytes 2 0), s) := by
  simp [yShape, offered, hf, ho, ht, hr]

/-- A SEG-READ from offset 0 starts a pass: it is not stale, and the generation is noted (R56). -/
theorem ySegRead_first {len g : Nat} (hg : s.od.gen = g) (hl : lookup s idx sub = some o) (ht : o.ty = .table)
    (hn : len ≤ 1024) (hr : mayRead (carrierPath x.carrier) (carrierFn x.carrier) idx sub = true) :
    ySegRead x k idx sub 0 len s = ((yOK, beBytes 8 g ++
        beBytes 4 ((tableView s idx sub).count * (tableView s idx sub).size) ++ tableBytes (tableView s idx sub) 0 len),
      setSession k (fun y => { y with passes := mput y.passes (okey idx sub) g }) s) := by
  rw [ySegRead, checkAccess_read hf hl (beq_iff_eq.2 ht) hr, if_neg (by omega)]
  simp [setSession, hg]

/-- A SEG-WRITE to an RC table that its set takes tells the subscribers (R57, R58). -/
theorem ySegWrite_shadowed {set total off : Nat} {bs : List Byte} (ho : ownerWord x k = w)
    (hl : lookup s idx sub = some o) (hc : o.acc = .rc) (ht : o.ty = .table) (hn : bs.length ≤ 1024)
    (hi : idx ≠ 0x2302) (hw : mayWrite (carrierPath x.carrier) idx sub = true)
    (hok : (segStore w set (okey idx sub) total off bs s).1 = yOK) :
    ySegWrite x k idx sub set total off bs s =
      ((yOK, []), written idx sub (segStore w set (okey idx sub) total off bs s).2) := by
  rw [ySegWrite, checkAccess_write hf hl (beq_iff_eq.2 ht) hc hw]
  simp [ho, hok, when_, hi, Nat.not_lt.2 hn]

/-- SUBSCRIBE takes the lowest number that the session has free (R58). -/
theorem ySubscribe_new {mask lo hi m : Nat} (h0 : mask ≠ 0) (h16 : mask < 16)
    (hm : ((rangeFrom 1 16).find? fun i => !x.subs.any fun u => u.number == i) = some m) :
    ySubscribe x k mask lo hi s = ((yOK, beBytes 1 m),
      setSession k (fun y => { y with subs := y.subs ++ [{ number := m, mask := mask, lo := lo, hi := hi }] }) s) := by
  simp [ySubscribe, hf, h0, Nat.not_le.2 h16, hm]

/-- With mask 0 the subscription of the same range ends (R58). -/
theorem ySubscribe_cancel {lo hi : Nat} {u : Subscription}
    (hu : (x.subs.find? fun v => v.lo == lo && v.hi == hi) = some u) :
    ySubscribe x k 0 lo hi s = ((yOK, beBytes 1 u.number),
      setSession k (fun y => { y with subs := y.subs.filter fun v => v.number != u.number }) s) := by
  simp [ySubscribe, hf, hu]

end

/-! ### COMMIT on a set that the session owns, and REPORT (R59, R62, R65) -/

section
variable {s : State} {n w : Nat}

theorem yReport_set {first : Nat} (h15 : n ≤ 15) : yReport n first s =
    ((yOK, shownBytes n s ++ beBytes 4 (commitSet s n).report.count ++
      (((commitSet s n).report.entries.drop first).take 40).flatMap fun e => beBytes 24 (reportBits e)), s) := by
  rw [yReport, if_neg (by omega)]

/-- COMMIT answers the outcome of its action and the set as it is then. -/
theorem yCommit_of_act {x : Session} {k action mt : Nat} {r : Nat × State} (ho : ownerWord x k = w)
    (hr : commitAct w n action mt s = r) :
    yCommit x k n action mt s = ((r.1, shownBytes n r.2), r.2) := by
  rw [yCommit, ho, hr]

/-! The owner's action is not barred, so that it does what the state of the set gives it. -/

variable (h0 : n ≠ 0) (h15 : n ≤ 15) (hw : (commitSet s n).owner = some w)
include h0 h15 hw

theorem commitAct_go (mt : Nat) (hs : (commitSet s n).state = .opened) :
    commitAct w n 0 mt s = commitGo n mt s := by
  simp [commitAct, h0, Nat.not_lt.2 h15, hw, hs]

theorem commitAct_discard (hs : (commitSet s n).state = .opened) :
    commitAct w n 2 0 s = commitResult n yOK (setState n .closed (setSet n (fun y => { y with
      owner := none, shadow := [], checked := [] }) s)) := by
  simp [commitAct, h0, Nat.not_lt.2 h15, hw, hs]

theorem commitAct_cancel (hs : (commitSet s n).state = .armed) :
    commitAct w n 1 0 s = commitResult n yOK (setState n .opened (setSet n (fun y => { y with owner := some w })
      (dropTables n (releaseShot (.commitSet n) s)))) := by
  simp [commitAct, h0, Nat.not_lt.2 h15, hw, hs]

end

/-- Settles O4: a request in turn answers what its operation does (`effect_inTurn`), operation by operation. -/
theorem yustoRequestsInTurnAreExecuted : Obligations.YustoRequestsInTurnAreExecuted := by
  intro s h n x hT s1 x1 w
  have hf : fullService s1 = true := fullService_heard hT
  refine ⟨fun idx sub shadow o hl ht hr hi => ?read, fun idx sub set value o hl hc ht hv hw hok => ?write,
    fun idx o ho ht hr => ?shape, fun idx sub len o hl ht hn hr => ?segRead,
    fun idx sub set total off data o hl hc ht hn hi hw hok => ?segWrite,
    fun set h0 h15 hw => ⟨fun hs => ⟨fun mt => ?commit, ?discard⟩, fun hs => ?cancel⟩,
    fun set first h15 => ?report, fun mask lo hi m h0 h16 hm => ?subscribe, fun lo hi u hu => ?unsubscribe⟩
  case read =>
    rw [exec_yustoRead]
    exact effect_inTurn hT (Nat.zero_le _) (yRead_granted hf hl ht (by rwa [awake_carrier]) (BitVec.toNat_ne.1 hi))
  case write =>
    rw [exec_yustoWrite]
    exact effect_inTurn hT (by simp only [bodySize]; omega)
      (yWrite_shadowed hf (ownerWord_awake _) hl hc ht (by rwa [awake_carrier]) hok)
  case shape =>
    rw [exec_yustoShape]
    exact effect_inTurn hT (Nat.zero_le _) (yShape_scalar hf ho ht (by rwa [awake_carrier]))
  case segRead =>
    rw [exec_segRead]
    exact effect_inTurn hT (Nat.zero_le _) (ySegRead_first hf heard_gen hl ht hn (by rwa [awake_carrier]))
  case segWrite =>
    rw [exec_segWrite]
    exact effect_inTurn hT (by simp only [bodySize]; omega)
      (ySegWrite_shadowed hf (ownerWord_awake _) hl hc ht hn (BitVec.toNat_ne.1 hi) (by rwa [awake_carrier]) hok)
  case commit =>
    rw [exec_commit]
    exact effect_inTurn hT (Nat.zero_le _) (yCommit_of_act (ownerWord_awake _)
      (commitAct_go (BitVec.toNat_ne.1 h0) h15 hw mt.toNat hs))
  case discard =>
    rw [exec_commitDiscard]
    exact effect_inTurn hT (Nat.zero_le _) (yCommit_of_act (ownerWord_awake _)
      (commitAct_discard (BitVec.toNat_ne.1 h0) h15 hw hs))
  case cancel =>
    rw [exec_commitCancel]
    exact effect_inTurn hT (Nat.zero_le _) (yCommit_of_act (ownerWord_awake _)
      (commitAct_cancel (BitVec.toNat_ne.1 h0) h15 hw hs))
  case report =>
    rw [exec_report]
    exact effect_inTurn hT (Nat.zero_le _) (yReport_set h15)
  case subscribe =>
    rw [exec_subscribe]
    exact effect_inTurn hT (Nat.zero_le _) (ySubscribe_new hf (BitVec.toNat_ne.1 h0) h16 (by rwa [awake_subs]))
  case unsubscribe =>
    rw [exec_subscribeCancel]
    exact effect_inTurn hT (Nat.zero_le _) (ySubscribe_cancel hf (by rwa [awake_subs]))

/-! ### Sessions of the management port, the held request, the apply, persistence and the check word -/

section
variable {s : State}

theorem exec_sessionOpen {accepted : Bool} {a : UdpAddress} :
    exec (.sessionOpen accepted a) s = inAO (sessionOpen accepted a.port.toNat a.address.toNat) s := rfl
theorem exec_sessionIdleTimeout {n : BitVec 30} :
    exec (.sessionIdleTimeout n) s = inAO (sessionIdle n.toNat) s := rfl
theorem exec_seqGapWaitExpiry {n : BitVec 30} :
    exec (.seqGapWaitExpiry n) s = inAO (gapExpiry n.toNat) s := rfl
theorem exec_datagramOutsideSession (hp : s.rs.phase = .running) :
    exec .datagramOutsideSession s = fin (bump 0x2110 0 s) := if_pos (serves_running hp _)
theorem exec_apply {set : Fin 16} (hp : s.rs.phase = .running) :
    exec (.apply set) s = fin (applyDue set s) := if_pos (serves_running hp _)
theorem exec_persistComplete (hp : s.rs.phase = .running) :
    exec .persistComplete s = fin (persistComplete s) := if_pos (serves_running hp _)
theorem exec_checkWordScan (hp : s.rs.phase = .running) :
    exec .checkWordScan s = fin (checkScan s) := if_pos (by simp [fullService, hp])

/-- An accepted handshake at the configured port takes the next session while there is room (R51). -/
theorem sessionOpen_accepted {port address : Nat} (hp : s.rs.phase = .running) (he : port = rc s 0x2100 0)
    (hr : sessionsOpen s isMgmtCarrier < rc s 0x2101 0) :
    sessionOpen true port address s =
      let k := s.od.nextSession
      { s with od := { s.od with
        nextSession := if 2 ^ 30 ≤ k + 1 then 1 else k + 1
        sessions := mmod (mput s.od.sessions k { carrier := .mgmt (BitVec.ofNat 30 k), number := k }) k
          (fun x => { x with port := port, idleAt := ticks s + rc s 0x2102 0 * 2 ^ 32 }) } } := by
  rw [sessionOpen, if_neg (by simp [serves_running hp, he]), if_neg (by decide), if_neg (by omega)]
  rfl

theorem sessionIdle_over {k : Nat} {x : Session} (hx : session s k = some x) (hm : isMgmtCarrier x.carrier = true)
    (ht : x.idleAt ≤ ticks s) : sessionIdle k s = closeSession k s := by
  simp [sessionIdle, hx, hm, ht]

/-- The one held request, once it has waited, is the next: the SEQ values below it are passed over (R55). -/
theorem gapExpiry_one {k e q at_ : Nat} {x : Session} {b : YBody} (hx : session s k = some x) (hn : x.next = some e)
    (hh : x.held = [(q, b, at_)]) (ht : at_ ≤ ticks s) :
    gapExpiry k s = runHeld k 32 (runNext k q b (setSession k (fun y => { y with next := some q }) s)) := by
  simp [gapExpiry, hx, hn, hh, ht]

/-- Before the first event that is due there is none (R36). -/
theorem dueUpTo_first {o : ShotOwner} (h : (dueOwners (now s) s.tb.armed).head? = some o) : dueUpTo o s = [o] := by
  obtain ⟨l, hl⟩ := List.head?_eq_some_iff.1 h
  simp [dueUpTo, hl]

theorem instantReached_first {o : ShotOwner} (fire : State → State)
    (h : (dueOwners (now s) s.tb.armed).head? = some o) : instantReached o fire s = fire s := by
  rw [instantReached, dueUpTo_first h]

theorem applyFires_armed {n : Nat} {o : OneShot} (h : shotOf s (.commitSet n) = some o) :
    applyFires n s = applySet n o.late (when_ o.late (bump 0x4006 0) (releaseShot (.commitSet n) s)) := by
  rw [applyFires, fireShot, h]

/-- Both copies take the live values under the next generation (R69). -/
theorem persistComplete_due (h : s.od.persistDue = true) :
    persistComplete s =
      let g := max s.od.copyA.gen s.od.copyB.gen + 1
      let c := newCopy g (rcKeys.map fun k => (k, liveBytes s (k / 256) (k % 256)))
      { s with od := { s.od with
        copyA := c, copyB := c, persistGen := g, persisted := true, persistDue := false } } := by
  rw [persistComplete, if_neg (by simp [h])]
  rfl

/-- A scan that finds the fresh reference word ends the drift (R67, R68). -/
theorem checkScan_equal (hs : s.od.refStale = false) :
    let s1 := { s with od := { s.od with liveWord := checkWord s, scanComplete := true } }
    checkWord s = rc s1 0x1F20 0 →
    checkScan s = endCondition 7 0 { s1 with od := { s1.od with drift := false, lastDiffered := false } } := by
  intro s1 he
  rw [checkScan, if_neg (by simp [hs]), if_pos he]

end

/-- Settles O5, command by command. -/
theorem sessionsCommitsAndCheckWords : Obligations.SessionsCommitsAndCheckWords := by
  intro s hp hd
  refine ⟨fun port address he hr => ?opened, fun n x hx hm ht => ?idle, ?outside,
    fun n x e q b at_ hx hn hh ht => ?gap, fun set o hdue ho => ?apply, fun hdue => ?persist, fun hs => ?scan⟩
  case opened =>
    rw [exec_sessionOpen]
    exact effect_inAO hd (sessionOpen_accepted hp he hr)
  case idle =>
    rw [exec_sessionIdleTimeout]
    exact effect_inAO hd (sessionIdle_over hx hm ht)
  case outside =>
    rw [exec_datagramOutsideSession hp]
    exact effect_fin rfl
  case gap =>
    rw [exec_seqGapWaitExpiry]
    exact effect_inAO hd (gapExpiry_one hx hn hh ht)
  case apply =>
    rw [exec_apply hp]
    exact effect_fin ((instantReached_first _ hdue).trans (applyFires_armed ho))
  case persist =>
    rw [exec_persistComplete hp]
    exact effect_fin (persistComplete_due hdue)
  case scan =>
    intro s1 he
    rw [exec_checkWordScan hp]
    exact effect_fin (checkScan_equal hs he)

end Sys2Proof.Machine
end

section
/-!
SUPPORT. Queues (03_queues.md): doorbells, fetch visits, completions of host reads, and retirement.
-/
namespace Sys2Proof.Machine

section
variable {s : State} {qn : Nat}

/-! ### Doorbells and register writes (R82, R84, R96, R232, R456) -/

section
variable {fn : Fin 514} {slot : BitVec 20} {gen : BitVec 8} {index : BitVec 32}

theorem exec_doorbellTail : exec (.doorbellTail fn slot 0 gen 0 index) s =
    fin (atSlot fn slot.toNat (doorbellTail fn gen.toNat 0 index.toNat) s) := rfl
theorem exec_doorbellHead : exec (.doorbellHead fn slot 0 gen 0 index) s =
    fin (atSlot fn slot.toNat (doorbellHead fn gen.toNat 0 index.toNat false) s) := rfl
theorem exec_doorbellHeadArm : exec (.doorbellHeadArm fn slot 0 gen 0 index) s =
    fin (atSlot fn slot.toNat (doorbellHead fn gen.toNat 0 index.toNat true) s) := rfl
theorem exec_keyRightsWrite {rights : BitVec 32} : exec (.keyRightsWrite fn slot 0 gen 0 rights) s =
    fin (atSlot fn slot.toNat (keyRightsWrite fn gen.toNat 0 rights.toNat) s) := rfl
theorem exec_registerWrite_config {r : CfgReg} :
    exec (.registerWrite fn (.config r) [] false) s = fin (configWrite fn r s) := rfl
theorem exec_registerWrite_bar0 {off : BitVec 26} {b : Byte} {data : List Byte} {poisoned : Bool}
    (h : barsLive s fn = true) : exec (.registerWrite fn (.bar0 off) (b :: data) poisoned) s =
      if poisoned then fin (poisonedWrite fn s) else fin (bar0Write fn off.toNat (b :: data) s) := by
  show execRegisterWrite fn (.bar0 off) (b :: data) poisoned s = _
  simp [execRegisterWrite, h]

end

/-- The doorbell of an existing queue of the function comes to that queue. -/
theorem atSlot_rings {fn slot : Nat} {f : Nat → State → State} (h : Rings s fn slot qn) :
    atSlot fn slot f s = f qn (rung s fn) := by
  obtain ⟨hlive, hslot, hexists⟩ := h
  simp only [rung] at hslot hexists ⊢
  simp only [atSlot, hlive, hslot, hexists, Bool.not_true, Bool.false_eq_true, if_false, if_true]

theorem doorbellTail_inRing {fn index : Nat} (ht : (queue s qn).type ≤ qSRQ)
    (h31 : diff32 index (queue s qn).tail < 2 ^ 31)
    (hr : diff32 index (if (queue s qn).type = qSEND then (queue s qn).retired else (queue s qn).fetched) ≤
      qSize (queue s qn)) (hs : (queue s qn).state ≠ .draining) :
    doorbellTail fn (queue s qn).gen 0 index qn s = setQueue qn (fun q => { q with tail := index }) (bumpFn fn 0 s) := by
  simp [doorbellTail, Nat.not_lt.2 ht, Nat.not_le.2 h31, Nat.not_lt.2 hr, hs, -Nat.reducePow]

/-- KIND 1 and 2: HEAD advances, and with KIND 2 the queue arms. -/
theorem doorbellHead_inRing {fn index : Nat} (arm : Bool) (ht : qCQ ≤ (queue s qn).type)
    (hs : (queue s qn).state ≠ .draining)
    (hr : diff32 index (queue s qn).head ≤ diff32 (queue s qn).written (queue s qn).head) :
    doorbellHead fn (queue s qn).gen 0 index arm qn s =
      if arm then
        let s2 := setQueue qn (fun q => { q with armed := true, sinceArm := 0 }) (headTo qn index (bumpFn fn 0 s))
        if (queue s2 qn).written ≠ index then raiseQueue qn s2 else s2
      else headTo qn index (bumpFn fn 0 s) := by
  cases arm <;> simp [doorbellHead, Nat.not_lt.2 ht, hs, Nat.not_lt.2 hr]

theorem keyRightsWrite_taken {fn rights : Nat} (ht : (queue s qn).type ≤ qSRQ) :
    keyRightsWrite fn (queue s qn).gen 0 rights qn s = setQueue qn (fun q => { q with rights := rights }) s := by
  simp [keyRightsWrite, Nat.not_lt.2 ht]

theorem configWrite_busMaster {fn : Nat} {v : Bool} (hu : (hostLink s (fnLink fn)).up = true)
    (hf : (hostFn s fn).flr = false) :
    configWrite fn (.busMaster v) s = setFn fn (fun f => { f with bme := v }) s := by
  simp [configWrite, hu, hf]

/-! ### The turn of the admin queues (R99) -/

/-- One queue further in `nextAdminFn`: an admin queue from `f0` on takes the place of one of a higher FN. -/
def lowerAdmin (f0 : Nat) (b : Option (Nat × Nat)) (e : Nat × Queue) : Option (Nat × Nat) :=
  if e.2.admin && f0 ≤ e.2.fn && (match b with | some (f, _) => e.2.fn < f | none => true) then
    some (e.2.fn, e.1) else b

theorem nextAdminFn_eq_foldl (el : SMap Queue) (f0 : Nat) :
    nextAdminFn el f0 = el.foldl (lowerAdmin f0) none := rfl

section
variable {f0 : Nat} {q : Queue} {b : Option (Nat × Nat)} {e : Nat × Queue}

/-- An admin queue from `f0` on is `q` itself or one of a higher FN. -/
def FirstAdmin (f0 qn : Nat) (q : Queue) (e : Nat × Queue) : Prop :=
  e.2.admin = true → f0 ≤ e.2.fn → e = (qn, q) ∨ q.fn < e.2.fn

theorem lowerAdmin_takes (ha : q.admin = true) (hf : f0 ≤ q.fn) (hb : ∀ x ∈ b, q.fn < x.1) :
    lowerAdmin f0 b (qn, q) = some (q.fn, qn) := by
  cases b with
  | none => simp [lowerAdmin, ha, hf]
  | some x => simp [lowerAdmin, ha, hf, hb x rfl]

theorem lowerAdmin_keeps (he : FirstAdmin f0 qn q e) :
    lowerAdmin f0 (some (q.fn, qn)) e = some (q.fn, qn) := by
  refine if_neg fun h => ?_
  simp only [Bool.and_eq_true, decide_eq_true_eq] at h
  obtain ⟨⟨ha, hf⟩, hlt⟩ := h
  obtain rfl | hgt := he ha hf
  · exact absurd hlt (Nat.lt_irrefl _)
  · omega

theorem lowerAdmin_above (he : FirstAdmin f0 qn q e) (hne : e ≠ (qn, q)) (hb : ∀ x ∈ b, q.fn < x.1) :
    ∀ x ∈ lowerAdmin f0 b e, q.fn < x.1 := by
  by_cases h : e.2.admin = true ∧ f0 ≤ e.2.fn
  · obtain ⟨ha, hf⟩ := h
    obtain htaken | hkept : lowerAdmin f0 b e = some (e.2.fn, e.1) ∨ lowerAdmin f0 b e = b := ite_eq_or_eq _ _ _
    · rw [htaken]
      simpa using (he ha hf).resolve_left hne
    · rwa [hkept]
  · have hkept : lowerAdmin f0 b e = b := if_neg fun hc => h (by
      simp only [Bool.and_eq_true, decide_eq_true_eq] at hc
      exact hc.1)
    rwa [hkept]

theorem foldl_lowerAdmin_keeps {l : SMap Queue} (hl : ∀ e ∈ l, FirstAdmin f0 qn q e) :
    l.foldl (lowerAdmin f0) (some (q.fn, qn)) = some (q.fn, qn) := by
  induction l with
  | nil => rfl
  | cons e r ih =>
    rw [List.forall_mem_cons] at hl
    obtain ⟨he, hr⟩ := hl
    rw [List.foldl_cons, lowerAdmin_keeps he, ih hr]

theorem foldl_lowerAdmin_takes {l : SMap Queue} (ha : q.admin = true) (hf : f0 ≤ q.fn)
    (hl : ∀ e ∈ l, FirstAdmin f0 qn q e) (hm : (qn, q) ∈ l) (hb : ∀ x ∈ b, q.fn < x.1) :
    l.foldl (lowerAdmin f0) b = some (q.fn, qn) := by
  induction l generalizing b with
  | nil => simp at hm
  | cons e r ih =>
    rw [List.forall_mem_cons] at hl
    obtain ⟨he, hr⟩ := hl
    rw [List.foldl_cons]
    by_cases hne : e = (qn, q)
    · rw [hne, lowerAdmin_takes ha hf hb, foldl_lowerAdmin_keeps hr]
    · exact ih hr ((List.mem_cons.1 hm).resolve_left (Ne.symm hne)) (lowerAdmin_above he hne hb)

/-- The admin queue of the lowest FN from `f0` on is the next. -/
theorem nextAdminFn_first {el : SMap Queue} (hm : (qn, q) ∈ el) (ha : q.admin = true) (hf : f0 ≤ q.fn)
    (hl : ∀ e ∈ el, FirstAdmin f0 qn q e) : nextAdminFn el f0 = some (q.fn, qn) := by
  rw [nextAdminFn_eq_foldl]
  exact foldl_lowerAdmin_takes ha hf hl hm (by simp)

end

theorem fetchVisit_adminTurn {f0 f : Nat} (ht : s.qm.aturn = some f0)
    (hn : nextAdminFn (s.qm.queues.filter fun e => eligibleQ s e.2) f0 = some (f, qn)) :
    fetchVisit s = visit qn { s with qm := { s.qm with aturn := some (f + 1) } } := by
  simp only [fetchVisit, ht, hn, Option.map_some, Option.some_or]

/-! ### The data passes (R99) -/

theorem nextData_next {el es : SMap Queue} {pass f0 pass' f : Nat} {p : FetchPos}
    (he : el.filter (fun e => !e.2.admin) = es)
    (hf : nextFn (fetchWeight s) (es.foldl (fun l e => insertNat e.2.fn l) []) (255 - pass) pass f0 = some (pass', f))
    (hq : nextQueue (fun q => (queue s q).weight) ((es.filter fun e => e.2.fn == f).map fun e => e.1) 256
      (sget {} s.qm.pos f) = some (qn, p)) :
    nextData s el pass f0 = some (qn, { s with qm := { s.qm with
      aturn := none, fpass := pass', fnext := f + 1, pos := sset {} s.qm.pos f p } }) := by
  simp only [nextData, he, hf, hq]

theorem fetchVisit_dataPass {t : State} (ht : s.qm.aturn = none)
    (hn : nextData s (s.qm.queues.filter fun e => eligibleQ s e.2) s.qm.fpass s.qm.fnext = some (qn, t)) :
    fetchVisit s = visit qn t := by
  simp only [fetchVisit, ht, hn, Option.some_or]

/-! ### The completion of a host read (R450) -/

/-- A read whose requests stand as given. -/
def withParts (key : Nat) (h : HostRead) (parts : List HostPart) (s : State) : State :=
  { s with tu := { s.tu with reads := mput s.tu.reads key { h with parts := parts } } }

section
variable {link tag key : Nat} {r : HostResult} {h : HostRead} {parts : List HostPart}
variable (hk : readOfTag s link tag = some (key, h))
variable (hp : updFirst (fun p => p.tag == some tag && p.got.isNone)
  (fun p => { p with got := some (resultOf p.len r) }) h.parts = parts)
include hk hp

/-- With the last of its requests a read ends. -/
theorem hostReadCompletion_last (hall : parts.all (fun p => p.got.isSome) = true) :
    hostReadCompletion link tag r s =
      pumpReads link (readCompletion key (joinResults parts) (withParts key h parts s)) := by
  simp only [hostReadCompletion, hk, hp, partEnds, mget?_mput_eq, hall, if_true, withParts]

theorem hostReadCompletion_notLast (hall : parts.all (fun p => p.got.isSome) = false) :
    hostReadCompletion link tag r s = pumpReads link (withParts key h parts s) := by
  simp only [hostReadCompletion, hk, hp, partEnds, mget?_mput_eq, hall, Bool.false_eq_true, if_false, withParts]

end

/-! ### Retirement, moderation and NOP (R86, R88, R96, R100) -/

/-- RETIRED once an operation of a queue has left it: past it, or, of an admin queue, at the oldest that stays. -/
def retiredPast (q : Queue) (o : SendOp) : Nat :=
  if q.admin then
    match (q.ops.filter fun x => x.n != o.n).head? with
    | some h => h.n
    | none => q.fetched
  else inc 32 o.n

/-- An operation has left its queue, and its handle with it. -/
def withdrawn (qn : Nat) (o : SendOp) (s : State) : State :=
  let q := queue s qn
  dropHandles qn (fun n => n == o.n) (setQueue qn (fun x => { x with
    ops := q.ops.filter fun x => x.n != o.n, retired := retiredPast q o }) s)

/-- The operation that retires next: the first one done of an admin queue, or else the head. -/
def nextRetiring (q : Queue) : Option SendOp :=
  if q.admin then q.ops.find? (fun o => o.done.isSome) else q.ops.head?

theorem retireOne_done {o : SendOp} {c : Comp} (ht : (queue s qn).type = qSEND) (he : qExists (queue s qn) = true)
    (ho : nextRetiring (queue s qn) = some o) (hd : o.done = some c) :
    retireOne qn s =
      let q := queue s qn
      if c.quiet then releaseSlots q.cqn 1 (withdrawn qn o s)
      else if q.admin || dSIGNAL o.desc || c.status ≠ stOK then
        writeCompletion q.cqn (dUSER o.desc) (dOPCODE o.desc) o.n qn (retiredPast q o)
          { c with peer := peerOf q o.desc c } none none (withdrawn qn o s)
      else releaseSlots q.cqn 1 (withdrawn qn o s) := by
  rw [nextRetiring] at ho
  simp only [retireOne, ht, he, ho, hd]
  rfl

theorem moderationTimeout_over (he : qExists (queue s qn) = true) (ha : (queue s qn).armed = true)
    (hn : (queue s qn).sinceArm ≠ 0) (hm : (queue s qn).modNow ≠ 0)
    (ht : (queue s qn).modAt + (queue s qn).modNow ≤ ticks s) : moderationTimeout qn s = raiseQueue qn s := by
  simp [moderationTimeout, he, ha, hn, hm, ht]

theorem nop_next {o : SendOp} (h : startable s qn (fun op => op = 0) = some o) :
    nop qn s = complete qn o.n { status := stOK } (markStarted qn o.n s) := by
  simp only [nop, h]

end

/-- Settles O6, command by command. -/
theorem doorbellsFetchesAndRetirements : Obligations.DoorbellsFetchesAndRetirements := by
  intro s
  refine ⟨fun fn slot gen index qn hring => ?doorbells, fun fn v hu hf => ?busMaster,
    fun fn off b data hlive => ⟨?poisoned, ?written⟩, fun f0 qn q => ?adminTurn, fun f pass qn p => ?dataPass,
    fun tag r key h hk => ?hostRead, fun qn o c => ?retire, fun qn => ?moderation, fun qn o ho => ?nop⟩
  case doorbells =>
    intro s1 q hgen
    refine ⟨fun ht h31 hr hs => ?tail, fun ht hs hr => ⟨?head, ?arm⟩, fun rights ht => ?rights⟩
    case tail =>
      rw [exec_doorbellTail, atSlot_rings hring, hgen]
      exact effect_fin (doorbellTail_inRing ht h31 hr hs)
    case head =>
      rw [exec_doorbellHead, atSlot_rings hring, hgen]
      exact effect_fin (doorbellHead_inRing false ht hs hr)
    case arm =>
      rw [exec_doorbellHeadArm, atSlot_rings hring, hgen]
      exact effect_fin (doorbellHead_inRing true ht hs hr)
    case rights =>
      rw [exec_keyRightsWrite, atSlot_rings hring, hgen]
      exact effect_fin (keyRightsWrite_taken ht)
  case busMaster =>
    rw [exec_registerWrite_config]
    exact effect_fin (configWrite_busMaster hu hf)
  case poisoned =>
    rw [exec_registerWrite_bar0 hlive]
    exact effect_fin rfl
  case written =>
    rw [exec_registerWrite_bar0 hlive]
    exact effect_fin rfl
  case adminTurn =>
    intro el ht hm ha hf hl
    exact effect_fin (fetchVisit_adminTurn ht (nextAdminFn_first hm ha hf hl))
  case dataPass =>
    intro el ht hf hq
    have hel : (s.qm.queues.filter fun e => eligibleQ s e.2).filter (fun e => !e.2.admin) = el := by
      simp [el, List.filter_filter, Bool.and_comm]
    exact effect_fin (fetchVisit_dataPass ht (nextData_next hel hf hq))
  case hostRead =>
    intro parts s1
    exact ⟨fun hall => effect_fin (hostReadCompletion_last hk rfl hall),
      fun hall => effect_fin (hostReadCompletion_notLast hk rfl hall)⟩
  case retire =>
    intro q ht he ho hd
    have hretire := retireOne_done ht he ho hd
    refine effect_fin ⟨fun hreleased => hretire.trans ?released, fun hquiet hshown => hretire.trans ?completed⟩
    case released =>
      obtain hquiet | ⟨ha, hsig, hst⟩ := hreleased
      · exact if_pos hquiet
      · simp only [q] at ha
        simp only [ha, hsig, hst, Bool.or_self, ne_eq, not_true_eq_false, decide_false, Bool.false_eq_true, if_false, ite_self]
        rfl
    case completed =>
      have hany : ((queue s qn.toNat).admin || dSIGNAL o.desc || decide (c.status ≠ stOK)) = true := by
        simpa [or_assoc] using hshown
      simp only [hquiet, hany, Bool.false_eq_true, if_false, if_true]
      rfl
  case moderation =>
    intro q he ha hn hm ht
    exact effect_fin (moderationTimeout_over he ha hn hm ht)
  case nop => exact effect_fin (nop_next ho)

end Sys2Proof.Machine
end

section
/-!
SUPPORT. Admin commands on a queue (R100 to R109), and the ends of DRAIN and DESTROY.
-/
namespace Sys2Proof.Machine

section
variable {s : State} {fn : Nat} {o : SendOp}

/-! ### The next admin command, and its target (R100) -/

theorem adminStart_next {p : Nat → Bool} {f : Nat → SendOp → State → State} (h : nextAdmin s fn = some o)
    (hp : p o.desc = true) : adminStart fn p f s = f (adminQn s fn) o (adminAt s fn o) := by
  simp only [adminStart, h, hp, if_true, adminAt]

section
variable {last : Bool} {opcode : Nat}

theorem AdminOn.nextAdmin_eq (h : AdminOn s fn o last opcode) : nextAdmin s fn = some o := by
  obtain ⟨hnext, -⟩ := h
  exact hnext

theorem AdminOn.dOPCODE_eq (h : AdminOn s fn o last opcode) : dOPCODE o.desc = opcode := by
  obtain ⟨-, hop, -⟩ := h
  exact hop

theorem AdminOn.intact (h : AdminOn s fn o false opcode) :
    (queue (adminAt s fn o) (aTARGET o.desc)).destroying = none ∧
      (queue (adminAt s fn o) (aTARGET o.desc)).haltReason ≠ hCONTEXTLOST := by
  obtain ⟨-, -, -, -, -, -, hopen⟩ := h
  exact hopen.resolve_left Bool.false_ne_true

/-- A target in the range passes the checks of R100; one that a DESTROY has taken, or whose context is lost, for the
commands of `last` only. -/
theorem onTarget_passed {onLost onEnd : Bool} {f : Nat → Queue → State → State} (h : AdminOn s fn o last opcode)
    (hl : last = true → onLost = true ∧ onEnd = true) :
    onTarget fn (adminQn s fn) o onLost onEnd f (adminAt s fn o) =
      f (aTARGET o.desc) (queue (adminAt s fn o) (aTARGET o.desc)) (adminAt s fn o) := by
  obtain ⟨-, -, hown, hsq, hcq, hexists, hopen⟩ := h
  obtain hlast | ⟨hd, hr⟩ := hopen
  · obtain ⟨rfl, rfl⟩ := hl hlast
    simp [onTarget, hown, hsq, hcq, hexists]
  · simp [onTarget, hown, hsq, hcq, hexists, hd, hr]

/-- The command on its target `qn`, in the state `s1` in which it has started. -/
theorem adminStart_onTarget {qn : Nat} {q : Queue} {s1 : State} {p : Nat → Bool} {onLost onEnd : Bool}
    {f : Nat → SendOp → Nat → Queue → State → State} (h1 : adminAt s fn o = s1) (hqn : aTARGET o.desc = qn)
    (hq : queue s1 qn = q) (h : AdminOn s fn o last opcode) (hp : p o.desc = true)
    (hl : last = true → onLost = true ∧ onEnd = true) :
    adminStart fn p (fun aqn o s => onTarget fn aqn o onLost onEnd (f aqn o) s) s = f (adminQn s fn) o qn q s1 := by
  rw [adminStart_next h.nextAdmin_eq hp, onTarget_passed h hl, h1, hqn, hq]

end

/-! ### CREATE (R75, R102) -/

theorem queueCreate_granted (h : nextAdmin s fn = some o) (hop : dOPCODE o.desc = 0x80) :
    let aqn := adminQn s fn
    let s1 := adminAt s fn o
    let d := o.desc
    let qn := aTARGET d
    ownsQn s1 fn qn = true → qn ≠ aqn → qn ≠ aqn + 1 → qExists (queue s1 qn) = false →
    createParams s1 fn qn d = true → tenantOk s1 fn (aTENANT d) = true → asidOk s1 fn (aASID d) (aTENANT d) = true →
    (aTYPE d ≤ qSRQ → endpointOk s1 fn (aENDPOINT d) = true) →
    stacksWorking s1 ≠ 0 → queuesExisting s1 < queueLimit s1 →
    queueCreate fn s =
      let r := placeStack s1
      adminDone aqn o.n { status := stOK } (setQueue qn (fun _ => {
        state := .ready, type := aTYPE d, fn := fn, base := aADDR d, log2 := aLOG2 d, gen := aGEN d,
        weight := aWEIGHT d, gust := aGUST d, vector := aVECTOR d, tenant := aTENANT d, asid := aASID d,
        endpoint := aENDPOINT d, cqn := aCQN d, eqn := aEQN d, noEq := aNOEQ d, modCount := aMODCOUNT d,
        modTime := aMODTIME d, stack := r.1 }) r.2) := by
  intro aqn s1 d qn hown hsq hcq hnew hparams htenant hasid hendpoint hstacks hroom
  have hpermitted : (!tenantOk s1 fn (aTENANT d) || !asidOk s1 fn (aASID d) (aTENANT d) ||
      (decide (aTYPE d ≤ qSRQ) && !endpointOk s1 fn (aENDPOINT d))) = false := by
    simpa [htenant, hasid] using hendpoint
  have hfree : (decide (stacksWorking s1 = 0) || decide (queueLimit s1 ≤ queuesExisting s1)) = false := by
    simp [hstacks, hroom]
  rw [queueCreate, adminStart_next h (by simp [hop])]
  simp only [aqn, s1, d, qn] at *
  simp only [hown, hsq, hcq, hnew, hparams, hpermitted, hfree, Bool.not_true, decide_false, Bool.or_self,
    Bool.false_eq_true, if_false]

/-! ### RESIZE, HALT, DRAIN, RESUME, DESTROY, QUERY and MODIFY of the target -/

section
variable {qn : Nat} {q : Queue} {s1 : State}
variable (h1 : adminAt s fn o = s1) (hqn : aTARGET o.desc = qn) (hq : queue s1 qn = q)
include h1 hqn hq

section
variable (h : AdminOn s fn o false 0x81) (hw : (queue s qn).writing = false)
variable (hlo : 4 ≤ aLOG2 o.desc) (hhi : aLOG2 o.desc ≤ 16) (hb : aADDR o.desc % 4096 = 0)
include h hw hlo hhi hb

/-- RESIZE of a ring that is fetched to its end, and whose entries fit. -/
theorem queueResize_ring (ht : q.type ≤ qSRQ) (hs : q.state = .halted) (hf : q.tail = q.fetched)
    (hr : q.type = qSEND → diff32 q.tail q.retired ≤ 2 ^ aLOG2 o.desc) :
    queueResize fn s = adminDone (adminQn s fn) o.n { status := stOK }
      (setQueue qn (fun q => { q with base := aADDR o.desc, log2 := aLOG2 o.desc }) s1) := by
  have hroom : (decide (q.type = qSEND) && decide (2 ^ aLOG2 o.desc < diff32 q.tail q.retired)) = false := by
    simpa using hr
  rw [queueResize, adminStart_onTarget h1 hqn hq h (by simp [h.dOPCODE_eq, hqn, hw]) (by simp)]
  simp only [ht, hs, hf, Nat.not_lt.2 hlo, Nat.not_lt.2 hhi, hb] at hroom ⊢
  simp [hroom]

theorem queueResize_entries (ht : qCQ ≤ q.type) (hr : max q.reserved q.entries.length ≤ 2 ^ aLOG2 o.desc) :
    queueResize fn s = adminDone (adminQn s fn) o.n { status := stOK, imm := q.written }
      (pump qn (setQueue qn (fun q => { q with written := 0, head := 0 })
        (setQueue qn (fun q => { q with base := aADDR o.desc, log2 := aLOG2 o.desc }) s1))) := by
  have ht' : ¬q.type ≤ qSRQ := Nat.not_le.2 ht
  rw [queueResize, adminStart_onTarget h1 hqn hq h (by simp [h.dOPCODE_eq, hqn, hw]) (by simp)]
  simp [ht', Nat.not_lt.2 hlo, Nat.not_lt.2 hhi, hb, Nat.not_lt.2 hr]

end

theorem queueHalt_ready (h : AdminOn s fn o false 0x82) (hs : q.state = .ready) :
    queueHalt fn s = adminDone (adminQn s fn) o.n { status := stOK, imm := q.fetched }
      (haltQueue qn hHOSTHALT 0 q.fetched s1) := by
  rw [queueHalt, adminStart_onTarget h1 hqn hq h (by simp [h.dOPCODE_eq]) (by simp)]
  simp [hs]

theorem queueDrain_ready (h : AdminOn s fn o false 0x83) (hs : q.state = .ready) :
    queueDrain fn s = setQueue qn (fun q => { q with
      state := .draining, drainMark := q.tail, drainFor := some (adminQn s fn, o.n, false) }) s1 := by
  rw [queueDrain, adminStart_onTarget h1 hqn hq h (by simp [h.dOPCODE_eq]) (by simp)]
  simp [hs]

/-- RESUME does what `resume` says, once a completion slot is there for the entry it skips. -/
theorem queueResume_halted {skip : Bool} (h : AdminOn s fn o false 0x84) (ho : aOPTION o.desc = skip)
    (hr : resumeReady s o.desc = true) (hs : q.state = .halted) :
    queueResume fn skip s = adminDone (adminQn s fn) o.n {
      status := stOK, imm := (queue (resume qn skip s1) qn).fetched } (resume qn skip s1) := by
  rw [queueResume, adminStart_onTarget h1 hqn hq h (by simp [h.dOPCODE_eq, ho, hr]) (by simp)]
  simp [hs]

/-- DESTROY with FORCE of a queue that no other one names. -/
theorem queueDestroy_force (h : AdminOn s fn o true 0x85) (ho : aOPTION o.desc = true)
    (hn : qCQ ≤ q.type → namedByOther s1 qn = false) :
    queueDestroy fn true s = destroyForce qn (some (adminQn s fn, o.n)) s1 := by
  have hfree : (decide (qCQ ≤ q.type) && namedByOther s1 qn) = false := by simpa using hn
  rw [queueDestroy, adminStart_onTarget h1 hqn hq h (by simp [h.dOPCODE_eq, ho]) (by simp)]
  simp [hfree]

section
variable (h : AdminOn s fn o false 0x85) (ho : aOPTION o.desc = false)
variable (hn : qCQ ≤ q.type → namedByOther s1 qn = false)
include h ho hn

/-- DESTROY of a queue that no DRAIN goes on of: READY it drains first, HALTED it goes on to its end. -/
theorem queueDestroy_plain (hs : q.state ≠ .draining) :
    queueDestroy fn false s =
      if q.state = .halted then setQueue qn (fun q => { q with
        entries := if qCQ ≤ q.type then [] else q.entries
        destroying := some (0, destroyCount q, diff32 q.tail q.fetched)
        drainFor := some (adminQn s fn, o.n, true) }) s1
      else setQueue qn (fun q => { q with
        state := .draining, drainMark := q.tail, drainFor := some (adminQn s fn, o.n, true) }) s1 := by
  have hfree : (decide (qCQ ≤ q.type) && namedByOther s1 qn) = false := by simpa using hn
  obtain ⟨hd, hr⟩ : q.destroying = none ∧ q.haltReason ≠ hCONTEXTLOST := by
    rw [← hq, ← hqn, ← h1]
    exact h.intact
  rw [queueDestroy, adminStart_onTarget h1 hqn hq h (by simp [h.dOPCODE_eq, ho]) (by simp)]
  simp [hfree, hs, hd, hr]

theorem queueDestroy_ready (hs : q.state = .ready) :
    queueDestroy fn false s = setQueue qn (fun q => { q with
      state := .draining, drainMark := q.tail, drainFor := some (adminQn s fn, o.n, true) }) s1 :=
  (queueDestroy_plain h1 hqn hq h ho hn (by simp [hs])).trans (if_neg (by simp [hs]))

theorem queueDestroy_halted (hs : q.state = .halted) :
    queueDestroy fn false s = setQueue qn (fun q => { q with
      entries := if qCQ ≤ q.type then [] else q.entries
      destroying := some (0, destroyCount q, diff32 q.tail q.fetched)
      drainFor := some (adminQn s fn, o.n, true) }) s1 :=
  (queueDestroy_plain h1 hqn hq h ho hn (by simp [hs])).trans (if_pos hs)

end

omit hq in
theorem queueQuery_aligned (h : AdminOn s fn o true 0x86) (ha : aADDR o.desc % 64 = 0) :
    queueQuery fn s = later (.access {
      asid := (queue s1 (adminQn s fn)).asid, addr := aADDR o.desc, len := 64
      data := some (leBytes 64 (queryBits s1 qn)), cls := .adminResult
      qn := some (adminQn s fn), cont := .query (adminQn s fn) o.n }) s1 := by
  rw [queueQuery, adminStart_onTarget h1 hqn rfl h (by simp [h.dOPCODE_eq]) (by simp)]
  simp [ha]

theorem queueModify_permitted (h : AdminOn s fn o false 0x87) (hw : aWEIGHT o.desc ≠ 0)
    (hm : q.type ≠ qCQ → q.type ≠ qEQ → aMODCOUNT o.desc = 0 ∧ aMODTIME o.desc = 0)
    (he : eqnOk s1 fn qn q.type (aEQN o.desc) (aNOEQ o.desc) = true) :
    queueModify fn s = adminDone (adminQn s fn) o.n { status := stOK } (setQueue qn (fun q => { q with
      weight := aWEIGHT o.desc, gust := aGUST o.desc, eqn := aEQN o.desc, noEq := aNOEQ o.desc
      modCount := aMODCOUNT o.desc, modTime := aMODTIME o.desc }) s1) := by
  have hmod : ((q.type == qCQ || q.type == qEQ) || (aMODCOUNT o.desc == 0 && aMODTIME o.desc == 0)) = true := by
    simp only [Bool.or_eq_true, Bool.and_eq_true, beq_iff_eq]
    tauto
  rw [queueModify, adminStart_onTarget h1 hqn hq h (by simp [h.dOPCODE_eq]) (by simp)]
  simp [hw, hmod, he]

end

/-! ### RESUME (R106), and the ends of DRAIN and DESTROY (R80, R109) -/

variable {qn : Nat}

theorem resumeReady_plain {d : Nat} (h : aOPTION d = false) : resumeReady s d = true := by
  simp [resumeReady, h]

theorem resume_plain : resume qn false s = pump qn (setQueue qn toReady s) := rfl

/-- RESUME with SKIP passes the entry of the halt, which ends with DESC_ERROR. -/
theorem resume_skip {q : Queue} (hq : queue s qn = q) (hh : haltOfEntry q = true) :
    resume qn true s =
      let s2 := setQueue qn (fun x => { toReady x with fetched := inc 32 q.fetched })
        (setQueue q.cqn (fun c => { c with reserved := c.reserved + 1 }) s)
      let e : SendOp := {
        n := q.fetched, desc := q.skip.1 * 2 ^ 128 + q.skip.2, started := true
        done := some { status := stDESCERROR } }
      if q.type = qSEND then setQueue qn (fun x => { x with ops := x.ops ++ [e] }) s2
      else recvDone qn q.fetched q.skip.1 q.skip.2 { status := stDESCERROR } none s2 := by
  simp only [resume, hq, hh, Bool.and_self, if_true]

section
variable {aqn n : Nat} {q : Queue} (hq : queue s qn = q) (hs : q.state = .draining) (hd : drained q = true)
variable (hn : q.destroying = none)
include hq hs hd hn

theorem drainComplete_drain (hf : q.drainFor = some (aqn, n, false)) :
    drainComplete qn s = adminDone aqn n { status := stOK, imm := drainCount q }
      (haltQueue qn hDRAINED 0 q.fetched (setQueue qn (fun q => { q with drainFor := none }) s)) := by
  simp [drainComplete, drainEnd, hq, hs, hd, hn, hf]

theorem drainComplete_destroy (hf : q.drainFor = some (aqn, n, true)) :
    drainComplete qn s = setQueue qn (fun q => { q with
      destroying := some (0, destroyCount q, diff32 q.tail q.drainMark) }) s := by
  simp [drainComplete, hq, hs, hd, hn, hf]

end

/-- The last step of a DESTROY of which nothing goes on. -/
theorem destroyComplete_over {n retired unf aqn e : Nat} {b : Bool} {s1 : State}
    (hd : (queue s qn).destroying = some (n, retired, unf)) (ho : (queue s qn).ops = [])
    (h1 : setQueue qn (fun q => { q with destroying := some (n + postedOf s qn, retired, unf) })
      (removePosted qn false (groupsOfQueue qn s)) = s1)
    (hw : destroyWaits s1 qn = false) (hf : (queue s1 qn).drainFor = some (aqn, e, b)) :
    destroyComplete qn s = adminDone aqn e {
        status := stOK, length := n + postedOf s qn
        imm := if (queue s1 qn).forced then retired else destroyCount (queue s1 qn), peer := unf }
      (closeDying (setQueue qn (fun _ => { state := .destroyed }) s1)) := by
  simp [destroyComplete, hd, ho, h1, hw, hf]

end

/-- Settles O7, command by command: each finds its target as `adminStart_onTarget` says. -/
theorem adminCommandsChangeQueues : Obligations.AdminCommandsChangeQueues := by
  intro s
  refine ⟨fun fn o h hop => ?create, fun fn o => ?target, fun qn aqn n b => ?drained,
    fun qn n retired unf aqn e b hd ho => ?destroyed⟩
  case create =>
    intro aqn s1 d qn hown hsq hcq hnew hparams htenant hasid hendpoint hstacks hroom
    exact effect_fin (queueCreate_granted h hop hown hsq hcq hnew hparams htenant hasid hendpoint hstacks hroom)
  case target =>
    intro aqn s1 d qn q sized
    refine ⟨fun h hw hz => ?resize, fun h hs => ?halt, fun h hs => ?drain,
      fun h hs => ⟨fun ho => ?resume, fun ho hr hh => ?resumeSkip⟩,
      fun hn => ⟨fun h ho => ?force, fun h ho => ⟨fun hs => ?destroyReady, fun hs => ?destroyHalted⟩⟩,
      fun h ha => ?query, fun h hw hm he => ?modify⟩
    case resize =>
      obtain ⟨hlo, hhi, hb⟩ := hz
      exact ⟨fun ht hs hf hr => effect_fin (queueResize_ring rfl rfl rfl h hw hlo hhi hb ht hs hf hr),
        fun ht hr => effect_fin (queueResize_entries rfl rfl rfl h hw hlo hhi hb ht hr)⟩
    case halt => exact effect_fin (queueHalt_ready rfl rfl rfl h hs)
    case drain => exact effect_fin (queueDrain_ready rfl rfl rfl h hs)
    case resume => exact effect_fin (queueResume_halted rfl rfl rfl h ho (resumeReady_plain ho) hs)
    case resumeSkip =>
      have hskip := queueResume_halted rfl rfl rfl h ho hr hs
      rw [resume_skip rfl hh] at hskip
      exact effect_fin hskip
    case force => exact effect_fin (queueDestroy_force rfl rfl rfl h ho hn)
    case destroyReady => exact effect_fin (queueDestroy_ready rfl rfl rfl h ho hn hs)
    case destroyHalted => exact effect_fin (queueDestroy_halted rfl rfl rfl h ho hn hs)
    case query => exact effect_fin (queueQuery_aligned rfl rfl h ha)
    case modify => exact effect_fin (queueModify_permitted rfl rfl rfl h hw hm he)
  case drained =>
    intro q hs hd hn hf
    refine effect_fin ⟨fun hb => ?drain, fun hb => ?destroy⟩
    case drain => exact drainComplete_drain rfl hs hd hn (hb ▸ hf)
    case destroy => exact drainComplete_destroy rfl hs hd hn (hb ▸ hf)
  case destroyed =>
    intro k s1 q hw hf
    exact effect_fin (destroyComplete_over hd ho rfl hw hf)

end Sys2Proof.Machine
end

section
/-!
SUPPORT. Message matching (04_message_matching.md): domain commands, receives at the front of their queue, the next
TSEND, and the packets that the reliability layer takes.
-/
namespace Sys2Proof.Machine

/-- A field above the low part of two words put together is a field of the high one (R6). -/
theorem fld_toNat_append {w n hi lo : Nat} (x : BitVec w) (y : BitVec n) (hn : n ≤ lo) (hl : lo ≤ hi) :
    fld (x ++ y).toNat hi lo = fld x.toNat (hi - n) (lo - n) := by
  have hhigh : (x ++ y).toNat / 2 ^ n = x.toNat := by
    rw [BitVec.toNat_append, ← Nat.shiftRight_eq_div_pow, Nat.shiftRight_or_distrib, Nat.shiftLeft_shiftRight,
      Nat.shiftRight_eq_zero _ _ y.isLt, Nat.or_zero]
  have hlo : 2 ^ lo = 2 ^ n * 2 ^ (lo - n) := by rw [← Nat.pow_add, Nat.add_sub_cancel' hn]
  rw [fld, hlo, ← Nat.div_div_eq_div_mul, hhigh, fld, show hi + 1 - lo = hi - n + 1 - (lo - n) by omega]

section
variable {s : State}

/-! ### Domain commands (R115, R116, R141) -/

section
variable {d : BitVec 16}

theorem exec_domainOpen {tenant : BitVec 16} {eqn : BitVec 20} {eager : BitVec 9} {h : BitVec 15} {m : BitVec 14}
    {z : BitVec 30} : exec (.domainOpen d tenant eqn eager h m z) s =
      inCX (domCommand ((1 : BitVec 8) ++ d ++ tenant ++ eqn ++ eager ++ h ++ m ++ z).toNat) s := rfl
theorem exec_domainClose {z : BitVec 104} :
    exec (.domainClose d z) s = inCX (domCommand ((2 : BitVec 8) ++ d ++ z).toNat) s := rfl
theorem exec_domainCloseComplete : exec (.domainCloseComplete d) s = inCX (domCloseComplete d.toNat) s := rfl

/-- ACTION of the word that DOMAIN_OPEN writes (Table 04-1). -/
theorem action_domainOpen {tenant : BitVec 16} {eqn : BitVec 20} {eager : BitVec 9} {h : BitVec 15} {m : BitVec 14}
    {z : BitVec 30} : fld ((1 : BitVec 8) ++ d ++ tenant ++ eqn ++ eager ++ h ++ m ++ z).toNat 127 120 = 1 := by
  simp only [fld_toNat_append, Nat.reduceLeDiff, Nat.reduceSub, Nat.le_refl]
  rfl

theorem action_domainClose {z : BitVec 104} : fld ((2 : BitVec 8) ++ d ++ z).toNat 127 120 = 2 := by
  simp only [fld_toNat_append, Nat.reduceLeDiff, Nat.reduceSub, Nat.le_refl]
  rfl

end

section
variable {v : Nat}

theorem domCommand_invalid (h : domValid s v = false) : domCommand v s = bump 0x7422 0 s := by
  simp [domCommand, h]

theorem domCommand_open (h : domValid s v = true) (ha : fld v 127 120 = 1) : domCommand v s = domOpen v s := by
  simp [domCommand, h, ha]

theorem domCommand_close (h : domValid s v = true) (ha : fld v 127 120 = 2) :
    domCommand v s = domClose (fld v 119 104) (fun _ => false) s := by
  simp [domCommand, h, ha]

end

/-- CLOSING ends once nothing of the domain is being placed: its event carries the counts of the close (R141). -/
theorem domCloseComplete_placed {d : Nat} (hs : (domain s d).state = .closing)
    (hp : s.mu.placing.any (fun e => e.2.domain == d) = false) :
    domCloseComplete d s =
      postEvent (domain s d).eqn 0x0500 d 0 ((domain s d).discarded * 2 ^ 32 + (domain s d).cancelled)
        (setDom d (fun x => { lastEvent := x.lastEvent }) s) := by
  simp [domCloseComplete, hs, hp]

/-! ### POST and CANCEL (R121, R136) -/

section
variable {qn : Nat} {o : SendOp}

/-- The front entry of a RECV or SRQ queue leaves it and takes effect. -/
theorem takeRecvOp_front {p : Nat → Bool} {f : SendOp → State → State} {rest : List SendOp}
    (ho : (queue s qn).ops = o :: rest) (ht : (queue s qn).type = qRECV ∨ (queue s qn).type = qSRQ)
    (hp : p (dOPCODE o.desc) = true) :
    takeRecvOp qn p f s = f o (setQueue qn (fun q => { q with ops := q.ops.drop 1 }) s) := by
  simp [takeRecvOp, ho, ht, hp]

section
variable {d : Nat} {r : Recv} (hs : (domain s d).state = .opened) (ht : (domain s d).tenant = r.tenant)
include hs ht

/-- A POST binds the first unexpected message that it accepts. -/
theorem post_binds {u : UMsg} (hu : ((domain s d).unexpected.find? fun u => accepts r u.packet) = some u) :
    post d r s = bind d r u true true (bump 0x7431 0
      (setDom d (fun x => { x with unexpected := eraseFirst (fun v => v == u) x.unexpected }) s)) := by
  simp [post, hs, ht, hu]

/-- A POST that accepts no unexpected message enters the posted list where there is room. -/
theorem post_enters (hu : ((domain s d).unexpected.find? fun u => accepts r u.packet) = none)
    (hr : postedAll s < capPosted s) :
    post d r s = setDom d (fun x => { x with posted := x.posted ++ [r] }) (listWrote d s) := by
  simp only [post, hs, ht, hu, bne_self_eq_false, ne_eq, not_true_eq_false, decide_false, Bool.or_self,
    Bool.false_eq_true, if_false, if_neg (Nat.not_le.2 hr)]

end

theorem cancel_posted {d : Nat} {r : Recv} (h : postedIn s qn (fld o.desc 415 384) = some (d, r)) :
    cancel qn o s =
      let s2 := recvGone r stCANCELLED
        (setDom d (fun x => { x with posted := eraseFirst (fun y => y == r) x.posted }) s)
      if dSIGNAL o.desc then recvDone qn o.n (dUSER o.desc) 2 { status := stOK } none s2
      else releaseSlots (queue s qn).cqn 1 s2 := by
  simp only [cancel, h]

theorem cancel_matched (h : postedIn s qn (fld o.desc 415 384) = none) :
    cancel qn o s = recvDone qn o.n (dUSER o.desc) 2 { status := stALREADY } none (bump 0x7438 0 s) := by
  simp only [cancel, h]

end

/-! ### TSEND (R125, R132) -/

section
variable {qn : Nat} {o : SendOp}

/-- The flow of a TSEND: from the queue's own identity to the destination, in the queue's tenant. -/
def tsendKey (s : State) (qn : Nat) (o : SendOp) : FlowKey where
  source := ownIdentity s (queue s qn).endpoint
  dest := dDEST o.desc
  tenant := (queue s qn).tenant

/-- The message of a TSEND with sequence number `n`: eager up to the threshold, else a request to send. -/
def tsendMsg (s : State) (qn : Nat) (o : SendOp) (n : Nat) : Msg :=
  let d := dDOMAIN o.desc
  { baseMsg (if dLENGTH o.desc ≤ eagerLimit s d || dLENGTH o.desc = 0 then tTSEND else tRTS) qn (queue s qn) o with
    key := 0, raddr := 0, imm := dIMM o.desc, solicit := dSOLICIT o.desc, domain := d, mseq := n
    matchBits := dTARGET o.desc, handle := s.mu.nextHandle }

/-- The sending context of a TSEND's triple. -/
def tsendSeq (s : State) (qn : Nat) (o : SendOp) : SeqCtx → Bool :=
  isSendSeq (ownIdentity s (queue s qn).endpoint) (dDEST o.desc) (dDOMAIN o.desc)

/-- A TSEND starts with sequence number `n`, which leaves the contexts of the triples as `seqs`. -/
def tsendStarted (s : State) (qn : Nat) (o : SendOp) (n : Nat) (seqs : List SeqCtx) : State :=
  startIn (tsendKey s qn o) (tsendMsg s qn o n) (markStarted qn o.n { s with mu := { s.mu with
    seqs := seqs, nextHandle := inc 32 s.mu.nextHandle } })

variable (ho : startable s qn (fun op => op = 1) = some o)
include ho

theorem tsend_outside (h : (domain s (dDOMAIN o.desc)).state ≠ .opened ∨
      (domain s (dDOMAIN o.desc)).tenant ≠ (queue s qn).tenant) :
    tsend qn s = complete qn o.n { status := stCANCELLED } (markStarted qn o.n s) := by
  simp [tsend, ho, h]

section
variable (hs : (domain s (dDOMAIN o.desc)).state = .opened)
variable (ht : (domain s (dDOMAIN o.desc)).tenant = (queue s qn).tenant)
include hs ht

/-- The triple has a context: the TSEND takes its next sequence number. -/
theorem tsend_known {c : SeqCtx} (hc : s.mu.seqs.find? (tsendSeq s qn o) = some c)
    (hm : msgMayStart s (tsendKey s qn o) (tsendMsg s qn o c.next) = true) :
    tsend qn s = tsendStarted s qn o c.next
      (updFirst (tsendSeq s qn o) (fun y => { y with next := inc 24 c.next }) s.mu.seqs) := by
  have hgo : ¬(!msgMayStart s (tsendKey s qn o) (tsendMsg s qn o c.next)) = true := by simp [hm]
  rw [tsendSeq] at hc
  simp only [tsend, ho, hs, ht, hc, bne_self_eq_false, ne_eq, not_true_eq_false, decide_false, Bool.or_self,
    Option.isNone_some, Bool.false_and, Bool.false_eq_true, if_false]
  exact if_neg hgo

/-- The first TSEND of a triple has sequence number 0. -/
theorem tsend_first (hc : s.mu.seqs.find? (tsendSeq s qn o) = none) (hr : s.mu.seqs.length < capSeqs s)
    (hm : msgMayStart s (tsendKey s qn o) (tsendMsg s qn o 0) = true) :
    tsend qn s = tsendStarted s qn o 0 (s.mu.seqs ++ [{
      sending := true, source := ownIdentity s (queue s qn).endpoint, dest := dDEST o.desc
      domain := dDOMAIN o.desc, next := 1 }]) := by
  have hgo : ¬(!msgMayStart s (tsendKey s qn o) (tsendMsg s qn o 0)) = true := by simp [hm]
  rw [tsendSeq] at hc
  simp only [tsend, ho, hs, ht, hc, bne_self_eq_false, ne_eq, not_true_eq_false, decide_false, Bool.or_self,
    decide_eq_false (Nat.not_le.2 hr), Bool.and_false, Bool.false_eq_true, if_false]
  exact if_neg hgo

end
end

/-! ### Packets of matching that the reliability layer takes (R131, R133, R168) -/

section
variable {p : Packet} {f : Nat} {s1 : State}

/-- A request that the reliability layer takes, and that no ORDER holds, goes to its unit. -/
theorem requestArrive_taken {first : Bool} (h : front p s = (.take f first, s1))
    (ho : orderWaits s1 s1.ra.ordered f p = false) : requestArrive p s = takeRequest f first p s1 := by
  simp [requestArrive, h, ho]

/-- No packet of matching waits for those that an ORDER packet covers (R168). -/
theorem orderWaits_matching {held : List HeldOrder} (ht : p.type ∈ [tTSEND, tRTS, tSKIP, tRGET]) :
    orderWaits s held f p = false := by
  simp only [List.mem_cons, List.not_mem_nil, or_false] at ht
  obtain h | h | h | h := ht <;> simp [orderWaits, h]

theorem type_eq_of_isPacket {t : Nat} (h : isPacket [t] p = true) : p.type = t := by
  simp only [isPacket, Bool.and_eq_true, List.contains_eq_mem, decide_eq_true_eq, List.mem_singleton] at h
  exact h.1

theorem takeRequest_tsend (ht : p.type = tTSEND) : takeRequest f true p s = ordered .eager f p s := by
  simp [takeRequest, ht]
theorem takeRequest_rts {first : Bool} (ht : p.type = tRTS) : takeRequest f first p s = ordered .rts f p s := by
  simp [takeRequest, ht, tRTS, tTSEND]
theorem takeRequest_skip {first : Bool} (ht : p.type = tSKIP) : takeRequest f first p s = ordered .skip f p s := by
  simp [takeRequest, ht, tSKIP, tRTS, tTSEND]
theorem takeRequest_rget {first : Bool} (ht : p.type = tRGET) : takeRequest f first p s = rgetArrive f p s := by
  simp [takeRequest, ht, tRGET, tSKIP, tRTS, tTSEND]

/-- A packet of matching that the reliability layer takes has the effect that its unit gives it. -/
theorem effect_matchingArrive {t : Nat} {first : Bool} {t1 : State} (hw : isPacket [t] p = true)
    (hd : domOn s dCX = true) (hf : front p (takeDelivered p s) = (.take f first, s1))
    (ht : t ∈ [tTSEND, tRTS, tSKIP, tRGET]) (he : p.type = t → takeRequest f first p s1 = t1) :
    Effect (packetCommand t p requestArrive s) (fun u => u = t1) := by
  have htype := type_eq_of_isPacket hw
  exact effect_packetCommand hw hd
    ((requestArrive_taken hf (orderWaits_matching (htype ▸ ht))).trans (he htype))

/-- The message, or skip notice, of its first packet. -/
def enteringMsg (kind : UKind) (f : Nat) (p : Packet) : UMsg where
  kind := kind
  packet := p
  flow := f
  got := p.payload.length
  store := if kind == .eager && !p.payload.isEmpty then
    [{ off := pOFFSET p, data := p.payload, poison := p.poison }] else []

/-- Next in the known triple of an open domain of its tenant, a message takes its turn, and what waited behind it
follows (R133). -/
theorem ordered_next {kind : UKind} (hs : (domain s (pDOMAIN p)).state = .opened)
    (ht : (domain s (pDOMAIN p)).tenant = p.tenant) (hn : recvNext s (pDOMAIN p) p = some (pMSEQ p)) :
    ordered kind f p s =
      let s2 := atTurn (pDOMAIN p) (enteringMsg kind f p) false (setRecvNext (pDOMAIN p) p (inc 24 (pMSEQ p)) s)
      releaseSeq (pDOMAIN p) p ((domain s2 (pDOMAIN p)).reorder.length + 1) s2 := by
  have hdiff : (pMSEQ p + 2 ^ 24 - pMSEQ p) % 2 ^ 24 = 0 := by omega
  simp only [ordered, hs, ht, hn, hdiff, bne_self_eq_false, ne_eq, not_true_eq_false, decide_false, Bool.or_self,
    Option.isSome_some, Option.getD_some, Bool.not_true, Bool.false_and, Bool.false_eq_true, if_false, if_true]
  rfl

/-- An RGET whose handle names a message of that size between the same two identities (R131). -/
theorem rgetArrive_named {h : Handle} (hh : mget? s.mu.handles (pW2 p) = some h) (hd : h.dest = p.source)
    (hs : h.source = p.dest) (hl : pOFFSET p + pMLEN p ≤ h.mlen) :
    rgetArrive f p s = if pMLEN p = 0 then ackMsg f (pRSN p) 0 stOK s else rgetNext p 0 [] false s := by
  simp [rgetArrive, hh, hd, hs, hl]

end

end

/-- Settles O8, command by command: what a packet of matching does is said once (`effect_matchingArrive`). -/
theorem matchingDomainsReceivesAndMessages : Obligations.MatchingDomainsReceivesAndMessages := by
  intro s
  refine ⟨fun hd => ⟨fun d tenant eqn eager h m z => ?opens, fun d z => ?closes, fun d hs hp => ?closed⟩,
    fun qn o rest ho ht => ⟨fun hop hs hten => ?post, fun hop d r hr => ?cancelled, fun hop hr => ?matched⟩,
    fun qn o ho => ⟨fun hout => ?outside, fun hs ht => ⟨fun c hc hm => ?known, fun hc hr hm => ?first⟩⟩,
    fun hd p f s1 hf => ⟨fun hs ht hn => ⟨fun hw => ?tsendPacket, fun hw => ?rtsPacket, fun hw => ?skipPacket⟩,
      fun hw h hh hdest hsrc hl => ?rgetPacket⟩⟩
  case opens =>
    rw [exec_domainOpen]
    exact effect_inCX hd ⟨domCommand_invalid, fun hv => domCommand_open hv action_domainOpen⟩
  case closes =>
    rw [exec_domainClose]
    exact effect_inCX hd ⟨domCommand_invalid, fun hv => domCommand_close hv action_domainClose⟩
  case closed =>
    rw [exec_domainCloseComplete]
    exact effect_inCX hd (domCloseComplete_placed hs hp)
  case post =>
    have hfront := takeRecvOp_front (p := fun op => op = 1)
      (f := fun o s => post (dDOMAIN o.desc) (recvOf qn.toNat (queue s qn.toNat) o) s) ho ht (by simp [hop])
    exact ⟨fun u hu => effect_fin (hfront.trans (post_binds hs hten hu)),
      fun hu hr => effect_fin (hfront.trans (post_enters hs hten hu hr))⟩
  case cancelled =>
    exact effect_fin ((takeRecvOp_front ho ht (by simp [hop])).trans (cancel_posted hr))
  case matched =>
    exact effect_fin ((takeRecvOp_front ho ht (by simp [hop])).trans (cancel_matched hr))
  case outside => exact effect_fin (tsend_outside ho hout)
  case known => exact effect_fin (tsend_known ho hs ht hc hm)
  case first => exact effect_fin (tsend_first ho hs ht hc hr hm)
  case tsendPacket =>
    exact effect_matchingArrive hw hd hf (by simp) fun h => (takeRequest_tsend h).trans (ordered_next hs ht hn)
  case rtsPacket =>
    exact effect_matchingArrive hw hd hf (by simp) fun h => (takeRequest_rts h).trans (ordered_next hs ht hn)
  case skipPacket =>
    exact effect_matchingArrive hw hd hf (by simp) fun h => (takeRequest_skip h).trans (ordered_next hs ht hn)
  case rgetPacket =>
    exact effect_matchingArrive hw hd hf (by simp) fun h =>
      (takeRequest_rget h).trans (rgetArrive_named hh hdest hsrc hl)

end Sys2Proof.Machine
end

section
/-!
SUPPORT. Answers that arrive at the source of a message, and the intervals of matching, remote access and the
policer (04_message_matching.md, 05_remote_access.md, R315).
-/
namespace Sys2Proof.Machine

section
variable {s : State}

/-! ### Answers (R166, R171, R246, R247) -/

section
variable {p : Packet} {g : Nat}

theorem exec_lossNoticeArrive : exec (.lossNoticeArrive p) s =
    packetCommand tLOSS p (fun p s => originLost (packetOfBits (beNat p.payload) []) s) s := rfl

/-- An answer whose message is that of one flow comes to that message. -/
theorem answerArrive_one {ok : Msg → Bool} {f : Nat → State → State} (h : answerFlows s p ok = [g]) :
    answerArrive p ok f s = f g s := by
  simp only [answerArrive, h]

theorem ackArrive_one {m : Msg} (h : answerFlows s p endsWithAck = [g]) (hm : srcMsg s g (pRSN p) = some m) :
    ackArrive p s = endMsg g (pRSN p) (pCODE p) (pCOUNT p)
      (windowUpdate g (pDELAY p) (pCOUNT p) (pSQSEEN p) m.sentAt s) := by
  simp only [ackArrive, answerArrive_one h, hm]

end

/-! ### Intervals of a message at its source (R134, R140, R160, R166, R167, R169, R315) -/

section
variable {f rsn : Nat} {m : Msg} (hm : srcMsg s f rsn = some m)
include hm

/-- A message that has waited its loss interval is retransmitted, by the command for its kind. -/
theorem lossInterval_over {skips : Bool} (hk : (m.owner == .skip) = skips) (hw : awaits m = true)
    (ha : answered m = false) (hr : m.refusal = none) (ht : m.sentAt + rc s 0x7830 0 ≤ ticks s) :
    lossInterval f rsn skips s = retransmit f rsn s := by
  simp [lossInterval, hm, hk, hw, ha, hr, ht]

/-- A skip notice is repeated without limit (R134). -/
theorem retransmit_skip (hk : (m.owner == .skip) = true) : retransmit f rsn s = resendMsg f rsn s := by
  simp only [retransmit, hm, hk, if_true]

/-- A retry interval that is over sends the message again, by the command for the code of its refusal. -/
theorem retryInterval_over {c : Nat} (hp : m.phase = .retry c) (ht : m.due ≤ ticks s) :
    retryInterval [c] f rsn s = resendMsg f rsn s := by
  simp [retryInterval, hm, hp, ht]

theorem reevaluate_ready {x : FlowSrc} (hx : srcFlow s f = some x) (hp : m.phase = .heldRed)
    (hr : policerReady s x.key.tenant (64 + nextLen m) = true) :
    reevaluate f rsn s = tryInject f rsn (setMsg f rsn (fun m => { m with phase := .sending }) s) := by
  simp [reevaluate, hm, hx, hp, hr]

end

/-! ### Intervals of a context, of a base delay and of a stalled packet (R167, R168, R171) -/

theorem flowExpiry_idle {f : Nat} {x : FlowTgt} (hx : tgtFlow s f = some x) (hi : idleTgt x = true)
    (hc : connHeld s x.key = false) (ht : x.lastAt + (rc s 0x7831 0 + 2) * rc s 0x7830 0 ≤ ticks s) :
    flowExpiry f s = kickWaiting { s with ra := { s.ra with tgt := mdel s.ra.tgt f } } := by
  simp [flowExpiry, hx, hi, hc, ht]

theorem baseReset_over {node : Nat} {b : BaseDelay} (hb : mget? s.ra.base node = some b)
    (ht : b.since + rc s 0x7845 0 ≤ ticks s) :
    baseReset node s = { s with ra := { s.ra with base := mdel s.ra.base node } } := by
  simp only [baseReset, hb, ht, if_true]

/-- A region access that has reached its limit. -/
def stalledOut (s : State) (a : Acc) : Bool := a.cls == .region && a.deadline ≤ ticks s

/-- A stalled packet of a message that goes on is refused (R168). -/
theorem stallExpiry_live {k f pos : Nat} {a : Acc} {p : Packet} {m : RMsg}
    (ha : firstDue s k (stalledOut s) = some a)
    (hc : a.cont = .place p pos ∨ a.cont = .atomic p ∨ ∃ off buf bad, a.cont = .getRead p off buf bad)
    (hl : liveMsg (takeWaiter k (stalledOut s) s) p = some (f, m)) :
    stallExpiry k s = refuseMsg f (pRSN p) rSTALL 0 (takeWaiter k (stalledOut s) s) := by
  unfold stalledOut at ha hl ⊢
  obtain hc | hc | ⟨off, buf, bad, hc⟩ := hc <;> simp only [stallExpiry, ha, hc, hl]

end

/-- Settles O11, command by command. -/
theorem answersAndIntervalsOfRemoteAccess : Obligations.AnswersAndIntervalsOfRemoteAccess := by
  intro s
  refine ⟨fun hd p g => ⟨fun hw hg m hm => ?ack, fun hw hg => ?refusal, fun hw hg => ?getData,
      fun hw hg => ?atomicResp, fun hw => ?lossNotice⟩,
    fun f rsn m hm => ⟨fun hw ha hr ht => ⟨fun hk => ?lost, fun hk => ?skipAgain⟩, fun c hp ht => ?retries,
      fun x hx hp hr => ?policer⟩,
    fun f x hx hi hc ht => ?flow, fun node b hb ht => ?base, fun slot a p f m pos => ?stall⟩
  case ack => exact effect_packetCommand hw hd (ackArrive_one hg hm)
  case refusal => exact effect_packetCommand hw hd (answerArrive_one hg)
  case getData => exact effect_packetCommand hw hd (answerArrive_one hg)
  case atomicResp => exact effect_packetCommand hw hd (answerArrive_one hg)
  case lossNotice =>
    rw [exec_lossNoticeArrive]
    exact effect_packetCommand hw hd rfl
  case lost => exact effect_fin (lossInterval_over hm hk hw ha hr ht)
  case skipAgain => exact effect_fin ((lossInterval_over hm hk hw ha hr ht).trans (retransmit_skip hm hk))
  case retries =>
    have hresent := retryInterval_over hm hp ht
    refine ⟨?rnr, ?flowContext, ?page, ?mu⟩ <;> rintro rfl <;> exact effect_fin hresent
  case policer => exact effect_fin (reevaluate_ready hm hx hp hr)
  case flow => exact effect_fin (flowExpiry_idle hx hi hc ht)
  case base => exact effect_fin (baseReset_over hb ht)
  case stall =>
    intro due s1 ha hc hl
    exact effect_fin (stallExpiry_live ha hc hl)

end Sys2Proof.Machine
end

section
/-!
SUPPORT. Remote access (05_remote_access.md): the operations of a SEND queue that start, the requests that arrive,
regions and connections.
-/
namespace Sys2Proof.Machine

section
variable {s : State}

/-! ### Operations start (R146, R155, R159, R165, R176) -/

/-- A connected operation ends at once. -/
def connStopped (s : State) (qn : Nat) (o : SendOp) (status : Nat) : State :=
  complete qn o.n { status := status } (markStarted qn o.n s)

/-- The one flow of a connection to its peer (R177). -/
def connKey (s : State) (qn : Nat) (o : SendOp) : FlowKey where
  source := ownIdentity s 0
  dest := (conn s (dDEST o.desc)).peer
  tenant := (queue s qn).tenant
  conn := some (dDEST o.desc)

/-- The message of a connected operation: it names the peer's connection and the queue's endpoint. -/
def connMsg (s : State) (qn : Nat) (o : SendOp) (m : Msg) : Msg :=
  { m with dconn := (conn s (dDEST o.desc)).peerConn, endpoint := (queue s qn).endpoint }

section
variable {qn : Nat} {o : SendOp} {p : Nat → Bool} (mk : Queue → SendOp → Msg)
variable (ho : startable s qn p = some o)
include ho

/-- A plain operation that is next starts in the flow of its queue's endpoint, as a TSEND does. -/
theorem startPlain_go (hm : msgMayStart s (tsendKey s qn o) (mk (queue s qn) o) = true) :
    startPlain qn p mk s = startIn (tsendKey s qn o) (mk (queue s qn) o) (markStarted qn o.n s) := by
  simp only [startPlain, ho]
  exact if_pos hm

theorem startConn_foreign (h : (conn s (dDEST o.desc)).fn ≠ (queue s qn).fn ∨
      (conn s (dDEST o.desc)).tenant ≠ (queue s qn).tenant) :
    startConn qn p mk s = connStopped s qn o stCANCELLED := by
  rw [conn] at h
  simp only [startConn, ho]
  exact if_pos (by simpa using h)

section
variable (hf : (conn s (dDEST o.desc)).fn = (queue s qn).fn)
variable (ht : (conn s (dDEST o.desc)).tenant = (queue s qn).tenant)
include hf ht

theorem startConn_error (hs : (conn s (dDEST o.desc)).state = .error) :
    startConn qn p mk s = connStopped s qn o stLOSS := by
  rw [conn] at hf ht hs
  simp [startConn, ho, hf, ht, hs, connStopped]

theorem startConn_closed (hs : (conn s (dDEST o.desc)).state = .closed ∨ (conn s (dDEST o.desc)).state = .closing) :
    startConn qn p mk s = connStopped s qn o stCANCELLED := by
  rw [conn] at hf ht hs
  obtain hs | hs := hs <;> simp [startConn, ho, hf, ht, hs, connStopped]

theorem startConn_go (hs : (conn s (dDEST o.desc)).state = .opened)
    (hm : msgMayStart s (connKey s qn o) (connMsg s qn o (mk (queue s qn) o)) = true) :
    startConn qn p mk s = startIn (connKey s qn o) (connMsg s qn o (mk (queue s qn) o)) (markStarted qn o.n s) := by
  rw [conn] at hf ht hs
  simp only [startConn, ho, hf, ht, hs, ne_eq, not_true_eq_false, decide_false, Bool.or_self, Bool.false_eq_true,
    if_false]
  exact if_pos hm

end
end

/-- Settles O9: each operation is `startPlain` or `startConn` with a message of its own. -/
theorem remoteOperationsStart : Obligations.RemoteOperationsStart := by
  intro s qn o q k base plain connected
  have hplain {i : Instr} {op : Nat} {mk : Queue → SendOp → Msg} {m : Msg}
      (hi : exec i s = fin (startPlain qn.toNat (fun x => x = op) mk s)) (hmk : mk q o = m) : plain i op m := by
    subst hmk
    intro ho hm
    rw [hi]
    exact effect_fin (startPlain_go mk ho hm)
  have hconnected {i : Instr} {op : Nat} {mk : Queue → SendOp → Msg} {m : Msg}
      (hi : exec i s = fin (startConn qn.toNat (fun x => x = op) mk s)) (hmk : mk q o = m) : connected i op m := by
    subst hmk
    intro ho
    rw [hi]
    refine ⟨fun hf ht hs hm => effect_fin (startConn_go mk ho hf ht hs hm),
      fun hf ht hs => effect_fin (startConn_error mk ho hf ht hs), fun hc => effect_fin ?_⟩
    by_cases hown : (conn s (dDEST o.desc)).fn = q.fn ∧ (conn s (dDEST o.desc)).tenant = q.tenant
    · obtain ⟨hf, ht⟩ := hown
      exact startConn_closed mk ho hf ht ((hc.resolve_left (not_not_intro hf)).resolve_left (not_not_intro ht))
    · exact startConn_foreign mk ho (not_and_or.1 hown)
  exact ⟨hplain rfl rfl, hplain rfl rfl, hplain rfl rfl, hplain rfl rfl, hplain rfl rfl, hplain rfl rfl, hplain rfl rfl,
    hplain rfl rfl, hconnected rfl rfl, hconnected rfl rfl, hconnected rfl rfl⟩

/-! ### Requests arrive (R149, R154, R155, R159, R164, R165, R176, R177) -/

section
variable {p : Packet} {i : Instr} {t : Nat}

/-- The command `i` brings the request packet `p` of type `t`. -/
def BringsRequest (i : Instr) (p : Packet) (t : Nat) : Prop :=
  i.wf = isPacket [t] p ∧ ∀ s, exec i s = packetCommand t p requestArrive s

theorem brings_put : BringsRequest (.putArrive p) p tPUT := ⟨rfl, fun _ => rfl⟩
theorem brings_putImm : BringsRequest (.putImmArrive p) p tPUTIMM := ⟨rfl, fun _ => rfl⟩
theorem brings_get : BringsRequest (.getArrive p) p tGET := ⟨rfl, fun _ => rfl⟩
theorem brings_fadd64 : BringsRequest (.fadd64Arrive p) p tFADD64 := ⟨rfl, fun _ => rfl⟩
theorem brings_swap64 : BringsRequest (.swap64Arrive p) p tSWAP64 := ⟨rfl, fun _ => rfl⟩
theorem brings_cas64 : BringsRequest (.cas64Arrive p) p tCAS64 := ⟨rfl, fun _ => rfl⟩
theorem brings_cas128 : BringsRequest (.cas128Arrive p) p tCAS128 := ⟨rfl, fun _ => rfl⟩
theorem brings_flush : BringsRequest (.flushArrive p) p tFLUSH := ⟨rfl, fun _ => rfl⟩
theorem brings_csend : BringsRequest (.csendArrive p) p tCSEND := ⟨rfl, fun _ => rfl⟩
theorem brings_cput : BringsRequest (.cputArrive p) p tCPUT := ⟨rfl, fun _ => rfl⟩
theorem brings_cget : BringsRequest (.cgetArrive p) p tCGET := ⟨rfl, fun _ => rfl⟩
theorem brings_tsend : BringsRequest (.tsendArrive p) p tTSEND := ⟨rfl, fun _ => rfl⟩
theorem brings_rts : BringsRequest (.rtsArrive p) p tRTS := ⟨rfl, fun _ => rfl⟩
theorem brings_skip : BringsRequest (.skipArrive p) p tSKIP := ⟨rfl, fun _ => rfl⟩

/-- A well-formed request has the effect that `requestArrive` gives packets of its type. -/
theorem BringsRequest.effect {t1 : State} (h : BringsRequest i p t) (hw : i.wf = true) (hd : domOn s dCX = true)
    (hr : p.type = t → requestArrive p (takeDelivered p s) = t1) : Effect (exec i s) (fun u => u = t1) := by
  obtain ⟨hwf, hexec⟩ := h
  rw [hwf] at hw
  rw [hexec]
  exact effect_packetCommand hw hd (hr (type_eq_of_isPacket hw))

theorem BringsRequest.wf_eq_true (h : BringsRequest i p t) (ht : p.type = t) (hw : packetWf p = true) :
    i.wf = true := by
  obtain ⟨hwf, -⟩ := h
  simp [hwf, isPacket, ht, hw]

/-! #### Tenant 0 (R149) -/

theorem front_tenantZero (h : p.tenant = 0) :
    front p s = (.over_, (sendRefusal p rTENANT 0 (bump 0x7867 0 s)).2) := if_pos h

theorem requestArrive_tenantZero (h : p.tenant = 0) :
    requestArrive p s = (sendRefusal p rTENANT 0 (bump 0x7867 0 s)).2 := by
  simp only [requestArrive, front_tenantZero h]

/-- Settles O49: the reliability layer is done with such a packet before its type matters. -/
theorem tenantZeroIsRefused : Obligations.TenantZeroIsRefused := by
  intro s p hd hw h0 refused
  have hone {i : Instr} {t : Nat} (hi : BringsRequest i p t) (ht : p.type = t) : Effect (exec i s) refused :=
    hi.effect (hi.wf_eq_true ht hw) hd fun _ => requestArrive_tenantZero h0
  exact ⟨hone brings_put, hone brings_putImm, hone brings_get, hone brings_fadd64, hone brings_swap64,
    hone brings_cas64, hone brings_cas128, hone brings_flush, hone brings_csend, hone brings_cput, hone brings_cget,
    hone brings_tsend, hone brings_rts, hone brings_skip⟩

/-! #### What a request that is taken does, by its type (R154, R155, R159, R165, R176, R177) -/

section
variable {f : Nat} {first : Bool}

theorem takeRequest_flush (ht : p.type = tFLUSH) : takeRequest f first p s = flushArrive f p s := by
  simp [takeRequest, ht, tFLUSH, tRGET, tSKIP, tRTS, tTSEND]

/-- A connected request that its connection does not carry is refused (R176). -/
theorem takeRequest_unconnected (ht : p.type ∈ [tCSEND, tCPUT, tCGET]) (hc : connOk s p = false) :
    takeRequest f first p s = refuseMsg f (pRSN p) rCONNECTION 0 s := by
  simp only [List.mem_cons, List.not_mem_nil, or_false] at ht
  obtain h | h | h := ht <;>
    simp [takeRequest, h, hc, isConnected, tCSEND, tCPUT, tCGET, tFLUSH, tRGET, tSKIP, tRTS, tTSEND]

/-- A CSEND on its open connection, for which the fault buffer has room, queues its data (R177). -/
theorem takeRequest_csend (ht : p.type = tCSEND) (hc : connOk s p = true) (ho : sendOverflow f p s = false) :
    takeRequest f first p s = later (.flowGo f) (sendGo f (pRSN p) (setRMsg f (pRSN p) (fun m => { m with
      waitQ := m.waitQ ++ [{ off := pOFFSET p, data := p.payload, poison := p.poison }] }) s)) := by
  simp [takeRequest, ht, hc, ho, tCSEND, tFLUSH, tRGET, tSKIP, tRTS, tTSEND]

/-! A request for a region: one that the connection, if it is connected, carries. -/

section
variable (hc : isConnected p.type = true → connOk s p = true)
include hc

theorem takeRequest_refused {reason : Nat} (hr : regionCheck s p = some reason)
    (ht : p.type ∈ [tPUT, tPUTIMM, tGET, tFADD64, tSWAP64, tCAS64, tCAS128, tCPUT, tCGET]) :
    takeRequest f first p s = refuseMsg f (pRSN p) reason 0 s := by
  simp only [List.mem_cons, List.not_mem_nil, or_false] at ht
  obtain h | h | h | h | h | h | h | h | h := ht <;>
    simp [takeRequest, h, hc, hr, isConnected, tPUT, tPUTIMM, tGET, tFADD64, tSWAP64, tCAS64, tCAS128, tCPUT, tCGET, tCSEND,
      tFLUSH, tRGET, tSKIP, tRTS, tTSEND]

variable (hr : regionCheck s p = none)
include hr

theorem takeRequest_place (ht : p.type ∈ [tPUT, tPUTIMM, tCPUT]) (hd : p.payload ≠ []) :
    takeRequest f first p s = placeNext f p 0 s := by
  simp only [List.mem_cons, List.not_mem_nil, or_false] at ht
  obtain h | h | h := ht <;>
    simp [takeRequest, h, hc, hr, hd, isConnected, tPUT, tPUTIMM, tGET, tCPUT, tCGET, tCSEND, tFLUSH, tRGET, tSKIP, tRTS,
      tTSEND]

theorem takeRequest_read (ht : p.type ∈ [tGET, tCGET]) :
    takeRequest f first p s = if pMLEN p = 0 then ackMsg f (pRSN p) 0 stOK s else getNext p 0 [] false s := by
  simp only [List.mem_cons, List.not_mem_nil, or_false] at ht
  obtain h | h := ht <;>
    simp [takeRequest, h, hc, hr, isConnected, tGET, tCPUT, tCGET, tCSEND, tFLUSH, tRGET, tSKIP, tRTS, tTSEND]

omit hc in
/-- An atomic is issued where the link of its region allows AtomicOps (R155, R449). -/
theorem takeRequest_atomic (ht : p.type ∈ [tFADD64, tSWAP64, tCAS64, tCAS128]) :
    takeRequest f first p s =
      if (hostLink s (fnLink (region s (keyRegion (pW2 p))).fn)).atomicReq = true ∧ domOn s dCX = true then
        later (.access { regionAcc s p (pW3 p) (spanOf p).2 (.atomic p) with atomic := some (atomicOf p) }) s
      else refuseMsg f (pRSN p) rHOSTERROR 0 s := by
  have hgo : takeRequest f first p s = atomicGo f p s := by
    simp only [List.mem_cons, List.not_mem_nil, or_false] at ht
    obtain h | h | h | h := ht <;>
      simp [takeRequest, h, hr, isConnected, tFADD64, tSWAP64, tCAS64, tCAS128, tPUT, tPUTIMM, tGET, tCPUT, tCGET, tCSEND,
        tFLUSH, tRGET, tSKIP, tRTS, tTSEND]
  rw [hgo, atomicGo, ← ite_not]
  exact if_congr (by simp [Decidable.or_iff_not_imp_left]) rfl rfl

end
end

/-- A request with ORDER waits while a packet that it covers is neither placed nor refused (R168). -/
theorem requestArrive_waits {f : Nat} {first : Bool} {s1 : State} (h : front p s = (.take f first, s1))
    (ho : orderWaits s1 s1.ra.ordered f p = true) :
    requestArrive p s = { s1 with ra := { s1.ra with
      ordered := s1.ra.ordered ++ [{ flow := f, first := first, packet := p }] } } := by
  simp [requestArrive, h, ho]

end

/-- Settles O10: a request that does not wait is judged by `takeRequest`, by its type. -/
theorem requestsReachTheirRegion : Obligations.RequestsReachTheirRegion := by
  intro s p f first s1 hd hf effect
  refine ⟨fun ho => ?waits, fun ho => ?goes⟩
  case waits =>
    have hwait {i : Instr} {t : Nat} (hi : BringsRequest i p t) : effect i { s1 with ra := { s1.ra with
        ordered := s1.ra.ordered ++ [{ flow := f, first := first, packet := p }] } } := fun hw =>
      hi.effect hw hd fun _ => requestArrive_waits hf ho
    simp only [List.forall_mem_cons, List.not_mem_nil, false_imp_iff, implies_true, and_true]
    exact ⟨hwait brings_put, hwait brings_putImm, hwait brings_get, hwait brings_fadd64, hwait brings_swap64,
      hwait brings_cas64, hwait brings_cas128, hwait brings_csend, hwait brings_cput, hwait brings_cget⟩
  case goes =>
    have htake {i : Instr} {t : Nat} {t1 : State} (hi : BringsRequest i p t)
        (he : p.type = t → takeRequest f first p s1 = t1) : effect i t1 := fun hw =>
      hi.effect hw hd fun ht => (requestArrive_taken hf ho).trans (he ht)
    -- a plain request needs no connection
    have plain {t : Nat} (h : isConnected t = false) : isConnected t = true → connOk s1 p = true := fun ht =>
      absurd ht (by simp [h])
    refine ⟨fun hr => ⟨fun hp => ?place, ?read, ?atomic⟩, fun reason hr => ?refused, fun hc => ?unconnected,
      htake brings_flush takeRequest_flush, fun hc hv => htake brings_csend fun ht => takeRequest_csend ht hc hv⟩
    case place =>
      have hplace {i : Instr} {t : Nat} (hi : BringsRequest i p t) (hm : t ∈ [tPUT, tPUTIMM, tCPUT])
          (hc : isConnected t = true → connOk s1 p = true) : effect i (placeNext f p 0 s1) :=
        htake hi fun ht => takeRequest_place (ht ▸ hc) hr (ht ▸ hm) hp
      exact ⟨hplace brings_put (by simp) (plain rfl), hplace brings_putImm (by simp) (plain rfl),
        fun hc => hplace brings_cput (by simp) fun _ => hc⟩
    case read =>
      have hread {i : Instr} {t : Nat} (hi : BringsRequest i p t) (hm : t ∈ [tGET, tCGET])
          (hc : isConnected t = true → connOk s1 p = true) :
          effect i (if pMLEN p = 0 then ackMsg f (pRSN p) 0 stOK s1 else getNext p 0 [] false s1) :=
        htake hi fun ht => takeRequest_read (ht ▸ hc) hr (ht ▸ hm)
      exact ⟨hread brings_get (by simp) (plain rfl), fun hc => hread brings_cget (by simp) fun _ => hc⟩
    case atomic =>
      intro t1
      have hatomic {i : Instr} {t : Nat} (hi : BringsRequest i p t) (hm : t ∈ [tFADD64, tSWAP64, tCAS64, tCAS128]) :
          effect i t1 := htake hi fun ht => takeRequest_atomic hr (ht ▸ hm)
      exact ⟨hatomic brings_fadd64 (by simp), hatomic brings_swap64 (by simp), hatomic brings_cas64 (by simp),
        hatomic brings_cas128 (by simp)⟩
    case refused =>
      have hrefused {i : Instr} {t : Nat} (hi : BringsRequest i p t)
          (hm : t ∈ [tPUT, tPUTIMM, tGET, tFADD64, tSWAP64, tCAS64, tCAS128, tCPUT, tCGET])
          (hc : isConnected t = true → connOk s1 p = true) : effect i (refuseMsg f (pRSN p) reason 0 s1) :=
        htake hi fun ht => takeRequest_refused (ht ▸ hc) hr (ht ▸ hm)
      simp only [List.forall_mem_cons, List.not_mem_nil, false_imp_iff, implies_true, and_true]
      exact ⟨⟨hrefused brings_put (by simp) (plain rfl), hrefused brings_putImm (by simp) (plain rfl),
          hrefused brings_get (by simp) (plain rfl), hrefused brings_fadd64 (by simp) (plain rfl),
          hrefused brings_swap64 (by simp) (plain rfl), hrefused brings_cas64 (by simp) (plain rfl),
          hrefused brings_cas128 (by simp) (plain rfl)⟩,
        fun hc => ⟨hrefused brings_cput (by simp) fun _ => hc, hrefused brings_cget (by simp) fun _ => hc⟩⟩
    case unconnected =>
      have hcut {i : Instr} {t : Nat} (hi : BringsRequest i p t) (hm : t ∈ [tCSEND, tCPUT, tCGET]) :
          effect i (refuseMsg f (pRSN p) rCONNECTION 0 s1) := htake hi fun ht => takeRequest_unconnected (ht ▸ hm) hc
      simp only [List.forall_mem_cons, List.not_mem_nil, false_imp_iff, implies_true, and_true]
      exact ⟨hcut brings_csend (by simp), hcut brings_cput (by simp), hcut brings_cget (by simp)⟩

/-! ### Regions and connections (R151 to R153, R174, R175) -/

/-- A CLOSE_CONN that waited for the close of a connection ends INTERRUPTED (R175). -/
def closeInterrupted (x : Conn) (s : State) : State :=
  match x.closeBy with
  | some (a, n) => adminDone a n { status := asINTERRUPTED } s
  | none => s

section
variable {fn : Nat} {o : SendOp}

section
variable (h : nextAdmin s fn = some o) (hop : dOPCODE o.desc = 0x88)
include h hop

theorem registerRegion_granted :
    let s1 := adminAt s fn o
    let d := o.desc
    rACTION d = 1 → rTENANTOF d ≠ 0 → rLENGTH d ≠ 0 → rLENGTH d ≤ 2 ^ 48 → rBASE d + rLENGTH d ≤ 2 ^ 48 →
    (rNOTIFY d ≠ 0 → isSrq s1 fn (rNOTIFY d) = true) → isEventQueue s1 fn (rEQN d) = true →
    tenantOk s1 fn (rTENANTOF d) = true → asidOk s1 fn (rASID d) (rTENANTOF d) = true →
    (bit d 401 = true → (hostLink s1 (fnLink fn)).atomicReq = true) →
    (region s1 (rREGION d)).state = .free → regionsUsed s1 < capRegions s1 →
    registerRegion fn s =
      let r := placeStack s1
      adminDone (adminQn s fn) o.n { status := stOK } (setRegion (rREGION d) (fun _ => {
        state := .live, fn := fn, tag := rTAG d, tenant := rTENANTOF d, asid := rASID d, notify := rNOTIFY d
        eqn := rEQN d, rd := bit d 403, wr := bit d 402, at_ := bit d 401, resend := bit d 400
        length := rLENGTH d, base := rBASE d, stack := r.1 }) r.2) := by
  intro s1 d ha hten hlen hmax hend hnotify heqn htenant hasid hatomic hfree hroom
  have hparams : (decide (rACTION d ≠ 1) || decide (rTENANTOF d = 0) || decide (rLENGTH d = 0) ||
      decide (2 ^ 48 < rLENGTH d) || decide (2 ^ 48 < rBASE d + rLENGTH d) ||
      (decide (rNOTIFY d ≠ 0) && !isSrq s1 fn (rNOTIFY d)) || !isEventQueue s1 fn (rEQN d)) = false := by
    simpa [ha, hten, hlen, Nat.not_lt.2 hmax, Nat.not_lt.2 hend, heqn, -Nat.reducePow] using hnotify
  have hpermitted : (!tenantOk s1 fn (rTENANTOF d) || !asidOk s1 fn (rASID d) (rTENANTOF d) ||
      (bit d 401 && !(hostLink s1 (fnLink fn)).atomicReq)) = false := by
    simpa [htenant, hasid] using hatomic
  rw [registerRegion, adminStart_next h (by simp [hop, d, ha])]
  simp only [s1, d] at *
  simp only [hparams, hpermitted, hfree, if_neg (Nat.not_le.2 hroom), Bool.false_eq_true, if_false, bne_self_eq_false]

variable {s1 : State} (h1 : adminAt s fn o = s1)
include h1

theorem deregister_live (ha : rACTION o.desc = 2) (hz : fld o.desc 475 256 = 0)
    (hs : (region s1 (rREGION o.desc)).state = .live) (hf : (region s1 (rREGION o.desc)).fn = fn)
    (ht : (region s1 (rREGION o.desc)).tag = rTAG o.desc) :
    deregister fn s = drainRegion (rREGION o.desc) (some (adminQn s fn, o.n)) s1 := by
  rw [deregister, adminStart_next h (by simp [hop, ha]), h1]
  simp [hz, hs, hf, ht]

theorem openConn_granted (ha : rACTION o.desc = 3) (hten : rCTENANT o.desc ≠ 0)
    (hn : nodeBad s1 (idNode (rPEER o.desc)) = false) (hsrq : isSrq s1 fn (rSRQN o.desc) = true)
    (heqn : isEventQueue s1 fn (rCEQN o.desc) = true) (ht : tenantOk s1 fn (rCTENANT o.desc) = true)
    (hs : (conn s1 (rCONN o.desc)).state = .closed) (hall : connsOpen s1 < 16777216)
    (hroom : connsOpen s1 < 65536 + rc s1 0x7821 0) :
    openConn fn s = adminDone (adminQn s fn) o.n { status := stOK } (setConn (rCONN o.desc) (fun _ => {
      state := .opened, fn := fn, peerConn := rPEERCONN o.desc, peer := rPEER o.desc, tenant := rCTENANT o.desc
      srqn := rSRQN o.desc, eqn := rCEQN o.desc }) s1) := by
  have hbelow : ¬min 16777216 (65536 + rc s1 0x7821 0) ≤ connsOpen s1 := Nat.not_le.2 (Nat.lt_min.2 ⟨hall, hroom⟩)
  rw [openConn, adminStart_next h (by simp [hop, ha]), h1]
  simp only [hten, hn, hsrq, heqn, ht, hs, if_neg hbelow, Bool.not_true, decide_false, Bool.or_self, Bool.false_eq_true,
    if_false, bne_self_eq_false]

variable (ha : rACTION o.desc = 4) (hf : (conn s1 (rCONN o.desc)).fn = fn)
include ha hf

theorem closeConn_open (hp : aOPTION o.desc = false)
    (hs : (conn s1 (rCONN o.desc)).state = .opened ∨ (conn s1 (rCONN o.desc)).state = .error) :
    closeConn fn s = setConn (rCONN o.desc) (fun x => { x with
      state := .closing, closeBy := some (adminQn s fn, o.n) }) s1 := by
  rw [closeConn, adminStart_next h (by simp [hop, ha, hp]), h1]
  obtain hs | hs := hs <;> simp [hf, hs]

theorem closeConnForce_taken (hp : aOPTION o.desc = true) (hs : (conn s1 (rCONN o.desc)).state ≠ .closed) :
    closeConnForce fn s =
      let ops := connOps s1 (rCONN o.desc)
      let s0 := foldSt (fun (k : Nat × Nat) s => abandonAt k.1 k.2 s) (connMsgs s1 (rCONN o.desc)) s1
      let s2 := foldSt (fun (k : Nat × Nat) s =>
        complete k.1 k.2 { status := stOK, quiet := true } (abandonMsg k.1 k.2 s)) ops s0
      adminDone (adminQn s fn) o.n { status := stOK, length := ops.length }
        (freeConn (rCONN o.desc) (closeInterrupted (conn s1 (rCONN o.desc)) s2)) := by
  rw [closeConnForce, adminStart_next h (by simp [hop, ha, hp]), h1]
  exact (if_neg (by simp [hf])).trans (if_neg (by simp [hs]))

end

/-- Nothing accesses a DRAINING region any more: it is FREE (R153). -/
theorem regionDrained_over {k aqn n c : Nat} (hs : (region s k).state = .draining) (hb : regionBusy s k = false)
    (hd : (region s k).dereg = some (aqn, n, c)) :
    regionDrained k s = adminDone aqn n { status := stOK, length := c } (closeDying (setRegion k (fun _ => {}) s)) := by
  simp [regionDrained, hs, hb, hd]

/-- Every started operation of a CLOSING connection has retired: it is CLOSED (R175). -/
theorem connClosed_over {c aqn n : Nat} (hs : (conn s c).state = .closing) (ho : connOps s c = [])
    (hb : (conn s c).closeBy = some (aqn, n)) :
    connClosed c s = adminDone aqn n { status := stOK } (freeConn c s) := by
  simp [connClosed, hs, ho, hb]

end

/-- Settles O12, command by command. -/
theorem regionsAndConnectionsOpenAndClose : Obligations.RegionsAndConnectionsOpenAndClose := by
  intro s
  refine ⟨fun fn o h hop => ?admin, fun k aqn n c hs hb hd => effect_fin (regionDrained_over hs hb hd),
    fun c aqn n hs ho hb => effect_fin (connClosed_over hs ho hb)⟩
  intro aqn s1 d
  refine ⟨fun ha hten hlen hmax hend hnotify heqn ht hasid hatomic hfree hroom => ?register,
    fun ha hz hs hf ht => ?deregister, fun ha hten hn hsrq heqn ht hs hall hroom => ?opens,
    fun ha hf => ⟨fun hp hs => ?closes, fun hp hs => ?forced⟩⟩
  case register =>
    exact effect_fin (registerRegion_granted h hop ha hten hlen hmax hend hnotify heqn ht hasid hatomic hfree hroom)
  case deregister => exact effect_fin (deregister_live h hop rfl ha hz hs hf ht)
  case opens => exact effect_fin (openConn_granted h hop rfl ha hten hn hsrq heqn ht hs hall hroom)
  case closes => exact effect_fin (closeConn_open h hop rfl ha hf hp hs)
  case forced => exact effect_fin (closeConnForce_taken h hop rfl ha hf hp hs)

end
end Sys2Proof.Machine
end

section
/-!
SUPPORT. Loads and stores of an engine that leave it or trap (13_message_engines.md, R373, R376, R378, R381, R415).
-/
namespace Sys2Proof.Machine

section
variable {s : State} {e c a n size k off : Nat} {pair : Bool} {p : EPlace}

/-! ### The checks of an access (R376, R378) -/

/-- An access of `n` bytes at `a`, aligned and within the reach of the context's mode, goes to the place `p`. -/
structure GoesTo (s : State) (e c a n : Nat) (pair : Bool) (p : EPlace) : Prop where
  aligned : a % (if pair then 8 else n) = 0
  reached : (parts a n pair).all (fun q => mayReach s e c q.2 (placeOf q.1 q.2)) = true
  place : placeOf a (if pair then 8 else n) = p

theorem GoesTo.place_word (hg : GoesTo s e c a n pair p) (hw : pair = false) : placeOf a n = p := by
  subst hw
  exact hg.place

/-- A pair has 16 B, so that a length which has this already stands. -/
theorem pairLen_eq (hn : pair = true → n = 16) : (if pair then 16 else n) = n :=
  ite_eq_right_iff.2 fun h => (hn h).symm

section
variable (hn : (if pair then 16 else size) = n)
include hn

theorem accessTrap_misaligned (ha : a % (if pair then 8 else n) ≠ 0) :
    accessTrap s e c a size pair = some cALIGN := by
  subst hn
  cases pair <;> exact if_pos ha

theorem accessTrap_unreachable (ha : a % (if pair then 8 else n) = 0)
    (hr : (parts a n pair).any (fun q => !mayReach s e c q.2 (placeOf q.1 q.2)) = true) :
    accessTrap s e c a size pair = some cACCESS := by
  subst hn
  cases pair <;> exact (if_neg (not_not_intro ha)).trans (if_pos hr)

theorem GoesTo.accessTrap_eq_none (hg : GoesTo s e c a n pair p) : accessTrap s e c a size pair = none := by
  obtain ⟨ha, hr, -⟩ := hg
  have hany : ¬(parts a n pair).any (fun q => !mayReach s e c q.2 (placeOf q.1 q.2)) = true := by
    simpa using hr
  subst hn
  cases pair <;> exact (if_neg (not_not_intro ha)).trans (if_neg hany)

end

/-- An access of 16 B that is aligned to 16 B lies in one cluster memory with its first half. -/
theorem placeOf_cmem_pair (h : placeOf a 8 = .cmem k off) (ha : a % 16 = 0) : placeOf a 16 = .cmem k off := by
  unfold placeOf at h ⊢
  split_ifs at h with h1 h2
  simp only [Bool.and_eq_true, decide_eq_true_eq, beq_iff_eq] at h2
  rw [if_neg (by omega), if_pos (by simp only [Bool.and_eq_true, decide_eq_true_eq, beq_iff_eq]; omega), h]

/-- The first part of an access in a cluster memory lies there (R415). -/
theorem parts_cmem (hn : pair = true → n = 16) (h : placeOf a (if pair then 8 else n) = .cmem k off) :
    ∃ m, placeOf a m = .cmem k off ∧ (parts a n pair = [(a, m)] ∨ ∃ b, parts a n pair = [(a, m), b]) := by
  cases pair with
  | false => exact ⟨n, h, .inl rfl⟩
  | true =>
    obtain rfl := hn rfl
    have hfirst : placeOf a 8 = .cmem k off := h
    by_cases ha : a % 16 = 0
    · exact ⟨16, placeOf_cmem_pair hfirst ha, .inl (if_neg (by simp [ha, hfirst, inArray]))⟩
    · exact ⟨8, hfirst, .inr ⟨_, if_pos (by simp [ha])⟩⟩

/-- Outside the arrays an access begins with one word of its size, and a pair is of words of 8 B (R415). -/
theorem firstPart_eq (hs : pair = true → size = 8) : (if pair then 8 else if pair then 16 else size) = size := by
  cases pair with
  | false => rfl
  | true => exact (hs rfl).symm

/-! ### Loads -/

section
variable {w : Issue} {rd dep : Nat} {signed : Bool} {done : List Byte → State → State}

theorem localLoad_clusterOff {ecc : Ecc} (hp : placeOf a n = .cmem k off) (hk : clusterOn s k = false) :
    localLoad w ecc dep a n done s = trapHere w.engine w.ctx cBUS a s := by
  simp [localLoad, hp, hk]

theorem localLoad_parity (hp : placeOf a n = .ldm off) :
    localLoad w .uncorrectable dep a n done s = trapHere w.engine w.ctx cPARITY a s := by
  simp [localLoad, hp, sramRead]

theorem localLoad_poison {ecc : Ecc} (hp : placeOf a n = .context off) (hb : (cmRead off n [ecc] s).2.1 = true) :
    localLoad w ecc dep a n done s = trapHere w.engine w.ctx cPOISON a
      (observe (ctxObserver w.engine w.ctx) none off n dep (cmRead off n [ecc] s).2.2).2 := by
  simp [localLoad, hp, hb]

theorem loadParts_clusterOff (hn : pair = true → n = 16) (hp : placeOf a (if pair then 8 else n) = .cmem k off)
    (hk : clusterOn s k = false) :
    loadParts w dep (parts a n pair) done s = trapHere w.engine w.ctx cBUS a s := by
  obtain ⟨m, hm, hparts | ⟨b, hparts⟩⟩ := parts_cmem hn hp <;> rw [hparts] <;> exact localLoad_clusterOff hm hk

theorem doLoad_trap {cause : Nat} (h : accessTrap s w.engine w.ctx a size pair = some cause) :
    doLoad w rd size signed pair dep a s = .next (trapHere w.engine w.ctx cause a s) := by
  simp only [doLoad, h]

section
variable (hn : (if pair then 16 else size) = n) (hg : GoesTo s w.engine w.ctx a n pair p)
include hn hg

theorem doLoad_array (hp : inArray p = true) :
    doLoad w rd size signed pair dep a s = .next (loadParts w dep (parts a n pair)
      (loadDone w.engine w.ctx rd size signed pair) (sampleAccess w.engine w.ctx p a s)) := by
  have ht := hg.accessTrap_eq_none hn
  have hplace := hg.place
  subst hn
  cases p with
  | ldm _ | cmem _ _ | context _ => simp only [doLoad, ht, hplace]
  | _ => exact absurd hp Bool.false_ne_true

theorem doLoad_clusterOff (hp : p = .cmem k off) (hk : clusterOn (sampleAccess w.engine w.ctx p a s) k = false) :
    doLoad w rd size signed pair dep a s =
      .next (trapHere w.engine w.ctx cBUS a (sampleAccess w.engine w.ctx p a s)) := by
  have hpair : pair = true → n = 16 := fun h => by rw [← hn, if_pos h]
  rw [doLoad_array hn hg (by rw [hp]; rfl), loadParts_clusterOff hpair (hp ▸ hg.place) hk]

/-- Of a word, the one part is the whole access. -/
theorem doLoad_word (hw : pair = false) (hp : inArray p = true) :
    doLoad w rd size signed pair dep a s = .next (localLoad w w.data dep a n
      (loadDone w.engine w.ctx rd size signed pair) (sampleAccess w.engine w.ctx p a s)) := by
  rw [doLoad_array hn hg hp]
  subst hw
  rfl

theorem doLoad_poison (hw : pair = false) (hp : p = .context off)
    (hb : (cmRead off n [w.data] (sampleAccess w.engine w.ctx p a s)).2.1 = true) :
    doLoad w rd size signed pair dep a s = .next (trapHere w.engine w.ctx cPOISON a
      (observe (ctxObserver w.engine w.ctx) none off n dep
        (cmRead off n [w.data] (sampleAccess w.engine w.ctx p a s)).2.2).2) := by
  rw [doLoad_word hn hg hw (by rw [hp]; rfl), localLoad_poison (hp ▸ hg.place_word hw) hb]

theorem doLoad_parity (hw : pair = false) (hp : p = .ldm off) (hd : w.data = .uncorrectable) :
    doLoad w rd size signed pair dep a s =
      .next (trapHere w.engine w.ctx cPARITY a (sampleAccess w.engine w.ctx p a s)) := by
  rw [doLoad_word hn hg hw (by rw [hp]; rfl), hd, localLoad_parity (hp ▸ hg.place_word hw)]

variable (hl : isAbandoned (sampleAccess w.engine w.ctx p a s) w.engine w.ctx = false)
include hl

theorem doLoad_unit (hp : p = .unit off) :
    doLoad w rd size signed pair dep a s =
      let d := draw (2 ^ (8 * n)) (sampleAccess w.engine w.ctx p a s)
      .next (loadDone w.engine w.ctx rd size signed pair (leBytes n d.1) d.2) := by
  have ht := hg.accessTrap_eq_none hn
  subst hn hp
  simp only [doLoad, ht, hg.place, hl, Bool.false_eq_true, if_false]

variable (hs : pair = true → size = 8)
include hs

theorem doLoad_host {h : Nat} (hp : p = .host h) :
    doLoad w rd size signed pair dep a s = .next (hostAccess w.engine w.ctx h size none false
      (block w.engine w.ctx (.access a (.load rd size signed pair [])) (sampleAccess w.engine w.ctx p a s))) := by
  have ht := hg.accessTrap_eq_none hn
  subst hn hp
  simp only [doLoad, ht, hg.place, hl, Bool.false_eq_true, if_false]
  rw [firstPart_eq hs]

theorem doLoad_remote {h : Nat} (hp : p = .remote k h) :
    doLoad w rd size signed pair dep a s = .next (remoteAccess w.engine w.ctx k a h size none []
      (block w.engine w.ctx (.access a (.load rd size signed pair [])) (sampleAccess w.engine w.ctx p a s))) := by
  have ht := hg.accessTrap_eq_none hn
  subst hn hp
  simp only [doLoad, ht, hg.place, hl, Bool.false_eq_true, if_false]
  rw [firstPart_eq hs]

end
end

/-! ### Stores -/

@[simp] theorem length_leBytes (m v : Nat) : (leBytes m v).length = m := by
  induction m generalizing v with
  | zero => rfl
  | succ m ih => rw [leBytes, List.length_cons, ih]

section
variable {w : Issue} {bs : List Byte} (hb : bs.length = n)
include hb

theorem doStore_trap {cause : Nat} (h : accessTrap s w.engine w.ctx a n pair = some cause) :
    doStore w bs pair a s = .next (trapHere w.engine w.ctx cause a s) := by
  subst hb
  simp only [doStore, h]

variable (hn : pair = true → n = 16) (hg : GoesTo s w.engine w.ctx a n pair p)
include hn hg

theorem doStore_clusterOff (hp : p = .cmem k off) (hk : clusterOn (sampleAccess w.engine w.ctx p a s) k = false) :
    doStore w bs pair a s = .next (trapHere w.engine w.ctx cBUS a (sampleAccess w.engine w.ctx p a s)) := by
  subst hb hp
  have ht := hg.accessTrap_eq_none (pairLen_eq hn)
  obtain ⟨m, hm, hparts⟩ := parts_cmem hn hg.place
  have hfirst : (parts a bs.length pair).find? (fun q => clusterOff (sampleAccess w.engine w.ctx (.cmem k off) a s)
      (placeOf q.1 q.2)) = some (a, m) := by
    obtain hparts | ⟨b, hparts⟩ := hparts <;> simp [hparts, hm, clusterOff, hk]
  simp only [doStore, ht, hg.place, hfirst]

variable (hl : isAbandoned (sampleAccess w.engine w.ctx p a s) w.engine w.ctx = false)
include hl

theorem doStore_host {h : Nat} (hp : p = .host h) :
    doStore w bs pair a s = .next (if pair then
        hostAccess w.engine w.ctx h 8 (some (bs.take 8)) true
          (block w.engine w.ctx (.access a (.pairStore bs 0)) (sampleAccess w.engine w.ctx p a s))
      else hostAccess w.engine w.ctx h n (some bs) false
        (block w.engine w.ctx (.access a (.store [] none)) (sampleAccess w.engine w.ctx p a s))) := by
  subst hb hp
  have ht := hg.accessTrap_eq_none (pairLen_eq hn)
  simp only [doStore, ht, hg.place, hl, Bool.false_eq_true, if_false]
  cases pair <;> rfl

theorem doStore_remote {h : Nat} (hp : p = .remote k h) :
    doStore w bs pair a s = .next (if pair then
        remoteStore w.engine w.ctx k a h (bs.take 8) (bs.drop 8) (sampleAccess w.engine w.ctx p a s)
      else remoteStore w.engine w.ctx k a h bs [] (sampleAccess w.engine w.ctx p a s)) := by
  subst hb hp
  have ht := hg.accessTrap_eq_none (pairLen_eq hn)
  simp only [doStore, ht, hg.place, hl, Bool.false_eq_true, if_false]
  cases pair <;> rfl

theorem doStore_unit (hp : p = .unit off) :
    doStore w bs pair a s = .next (nextPc w.engine w.ctx (if pair then
        emit (.unitStore (off + 8) (bs.drop 8)) (emit (.unitStore off (bs.take 8)) (sampleAccess w.engine w.ctx p a s))
      else emit (.unitStore off bs) (sampleAccess w.engine w.ctx p a s))) := by
  subst hb hp
  have ht := hg.accessTrap_eq_none (pairLen_eq hn)
  simp only [doStore, ht, hg.place, hl, Bool.false_eq_true, if_false]
  cases pair <;> rfl

end

/-! ### The instructions -/

section
variable {w : Issue} {rd ra : Fin 32} {imm : BitVec 16}

/-- The address of an access: ra + sext(imm). -/
def accessAt (s : State) (w : Issue) (ra : Fin 32) (imm : BitVec 16) : Nat :=
  (reg s w.engine w.ctx ra + imm.signExtend 64).toNat

/-- An instruction of an engine completes as its body does. -/
theorem effect_of_finO {x o : Out3} {t : State} (hx : x = finO o) (ho : o = .next t) :
    Effect x (fun u => u = t) := by
  rw [hx, ho]
  exact effect_finO rfl

variable (hi : Issues s w = true)
include hi

theorem loadInstr_issues {major size : Nat} {signed : Bool} :
    let s1 := issued s w (wordI major rd ra imm) 1
    loadInstr w major rd ra imm size signed s =
      finO (doLoad w rd size signed false (stampOf s1 w.engine w.ctx ra) (accessAt s1 w ra imm) s1) := by
  intro s1
  rw [loadInstr, meRun_issues hi]
  rfl

theorem storeInstr_issues {major size : Nat} :
    let s1 := issued s w (wordI major rd ra imm) 2
    storeInstr w major rd ra imm size s =
      finO (doStore w (leBytes size (reg s1 w.engine w.ctx rd).toNat) false (accessAt s1 w ra imm) s1) := by
  intro s1
  rw [storeInstr, meRun_issues hi]
  rfl

theorem execLd2w_odd (h : rd.val % 2 = 1) :
    execLd2w w rd ra imm s =
      finO (.next (trapHere w.engine w.ctx cILLEGAL 0 (issued s w (wordI 0x17 rd ra imm) 3))) := by
  rw [execLd2w, meRun_issues hi, if_pos h]

theorem execSt2w_odd (h : rd.val % 2 = 1) :
    execSt2w w rd ra imm s =
      finO (.next (trapHere w.engine w.ctx cILLEGAL 0 (issued s w (wordI 0x1C rd ra imm) 3))) := by
  rw [execSt2w, meRun_issues hi]
  exact congrArg finO (if_pos h)

theorem execLd2w_even (h : rd.val % 2 = 0) :
    let s1 := issued s w (wordI 0x17 rd ra imm) 3
    execLd2w w rd ra imm s =
      finO (doLoad w rd 8 false true (stampOf s1 w.engine w.ctx ra) (accessAt s1 w ra imm) s1) := by
  intro s1
  rw [execLd2w, meRun_issues hi]
  exact congrArg finO (if_neg (by omega))

/-- The bytes of a pair of registers. -/
def pairBytes (s : State) (w : Issue) (rd : Fin 32) : List Byte :=
  leBytes 8 (reg s w.engine w.ctx rd).toNat ++ leBytes 8 (reg s w.engine w.ctx (rd + 1)).toNat

theorem execSt2w_even (h : rd.val % 2 = 0) :
    let s1 := issued s w (wordI 0x1C rd ra imm) 3
    execSt2w w rd ra imm s = finO (doStore w (pairBytes s1 w rd) true (accessAt s1 w ra imm) s1) := by
  intro s1
  rw [execSt2w, meRun_issues hi]
  exact congrArg finO (if_neg (by omega))

end

/-- Settles O30: every load is a `doLoad`, every store a `doStore`, and what those do goes by the place. -/
theorem engineAccessesLeaveOrTrap : Obligations.EngineAccessesLeaveOrTrap := by
  intro s w rd ra imm hi e c ea isPair st traps checked goes load store
  have hgoes {major kind n : Nat} {p : EPlace} {s2 : State} (hg : goes major kind n p s2) :
      GoesTo (st major kind) e c (ea (st major kind)) n (isPair major) p ∧
        s2 = sampleAccess e c p (ea (st major kind)) (st major kind) := by
    obtain ⟨ha, hr, hp, hs2⟩ := hg
    exact ⟨⟨ha, hr, hp⟩, hs2⟩
  have hload {i : Instr} {major kind size : Nat} {signed : Bool} (hs : isPair major = true → size = 8)
      (hx : exec i s = finO (doLoad w rd size signed (isPair major) (stampOf (st major kind) e c ra)
        (ea (st major kind)) (st major kind))) : load i major kind size signed := by
    refine ⟨⟨fun ha => effect_of_finO hx (doLoad_trap (accessTrap_misaligned rfl ha)),
        fun ha hr => effect_of_finO hx (doLoad_trap (accessTrap_unreachable rfl ha hr))⟩,
      fun h s2 hg hl => ?host, fun k h s2 hg hl => ?remote, fun off s2 hg hl => ?unit,
      fun hw off s2 hg hb => ?poison, fun hw off s2 hg hd => ?parity, fun k off s2 hg hk => ?clusterOff⟩
    all_goals obtain ⟨hto, rfl⟩ := hgoes hg
    case host => exact effect_of_finO hx (doLoad_host rfl hto hl hs rfl)
    case remote => exact effect_of_finO hx (doLoad_remote rfl hto hl hs rfl)
    case unit => exact effect_of_finO hx (doLoad_unit rfl hto hl rfl)
    case poison => exact effect_of_finO hx (doLoad_poison rfl hto hw rfl hb)
    case parity => exact effect_of_finO hx (doLoad_parity rfl hto hw rfl hd)
    case clusterOff => exact effect_of_finO hx (doLoad_clusterOff rfl hto rfl hk)
  have hstore {i : Instr} {major kind size : Nat} {bs : List Byte}
      (hb : bs = if isPair major then pairBytes (st major kind) w rd
        else leBytes size (reg (st major kind) e c rd).toNat)
      (hx : exec i s = finO (doStore w bs (isPair major) (ea (st major kind)) (st major kind))) :
      store i major kind size := by
    subst hb
    have hpair (h : isPair major = true) : (if isPair major then 16 else size) = 16 := if_pos h
    have hlen : (if isPair major then pairBytes (st major kind) w rd
        else leBytes size (reg (st major kind) e c rd).toNat).length = if isPair major then 16 else size := by
      split <;> simp [pairBytes]
    refine ⟨⟨fun ha => effect_of_finO hx (doStore_trap hlen (accessTrap_misaligned (pairLen_eq hpair) ha)),
        fun ha hr => effect_of_finO hx (doStore_trap hlen (accessTrap_unreachable (pairLen_eq hpair) ha hr))⟩,
      fun h s2 hg hl => ?host, fun k h s2 hg hl => ?remote, fun off s2 hg hl => ?unit,
      fun k off s2 hg hk => ?clusterOff⟩
    all_goals obtain ⟨hto, rfl⟩ := hgoes hg
    case host => exact effect_of_finO hx (doStore_host hlen hpair hto hl rfl)
    case remote => exact effect_of_finO hx (doStore_remote hlen hpair hto hl rfl)
    case unit => exact effect_of_finO hx (doStore_unit hlen hpair hto hl rfl)
    case clusterOff => exact effect_of_finO hx (doStore_clusterOff hlen hpair hto rfl hk)
  have word {major : Nat} (h : isPair major = false) {size : Nat} : isPair major = true → size = 8 := fun ht =>
    absurd ht (by simp [h])
  refine ⟨hload (word rfl) (loadInstr_issues hi), hload (word rfl) (loadInstr_issues hi),
    hload (word rfl) (loadInstr_issues hi), hload (word rfl) (loadInstr_issues hi),
    hload (word rfl) (loadInstr_issues hi), hload (word rfl) (loadInstr_issues hi),
    hload (word rfl) (loadInstr_issues hi), fun h => hload (fun _ => rfl) (execLd2w_even hi h),
    hstore rfl (storeInstr_issues hi), hstore rfl (storeInstr_issues hi), hstore rfl (storeInstr_issues hi),
    hstore rfl (storeInstr_issues hi), fun h => hstore rfl (execSt2w_even hi h),
    fun h => ⟨?ld2w, ?st2w⟩⟩
  case ld2w => exact effect_of_finO (execLd2w_odd hi h) rfl
  case st2w => exact effect_of_finO (execSt2w_odd hi h) rfl

end
end Sys2Proof.Machine
end

section
/-!
SUPPORT. The arithmetic of collectives (06_collectives.md, R194 to R197): integer sums and their final values,
and the NaNs of floating-point results.
-/
namespace Sys2Proof.Machine

/-! ### Numbers as bytes -/

theorem leNat_take_leBytes_append {k m : Nat} (h : m ≤ k) (n : Nat) (l : List Byte) :
    leNat ((leBytes k n ++ l).take m) = n % 256 ^ m := by
  induction m generalizing k n with
  | zero => simp [leNat, Nat.mod_one]
  | succ m ih =>
    obtain ⟨k, rfl⟩ : ∃ j, k = j + 1 := ⟨k - 1, by omega⟩
    simp [leBytes, leNat, ih (Nat.le_of_succ_le_succ h), Nat.pow_succ', Nat.mod_mul]

theorem leNat_take_leBytes {k m : Nat} (h : m ≤ k) (n : Nat) : leNat ((leBytes k n).take m) = n % 256 ^ m := by
  simpa using leNat_take_leBytes_append h n []

theorem leNat_leBytes (k n : Nat) : leNat (leBytes k n) = n % 256 ^ k := by
  have h := leNat_take_leBytes (Nat.le_refl k) n
  rwa [List.take_of_length_le (length_leBytes k n).le] at h

/-- Two's complement spelling, read as an unsigned number. -/
theorem leNat_leBytes_ofSigned (k : Nat) (i : Int) :
    (leNat (leBytes k (ofSigned (8 * k) i)) : Int) = i % 2 ^ (8 * k) := by
  have hpos : (0 : Int) < 2 ^ (8 * k) := by positivity
  have hpow : (256 : Int) ^ k = 2 ^ (8 * k) := by rw [pow_mul]; rfl
  rw [leNat_leBytes, ofSigned]
  push_cast
  rw [Int.toNat_of_nonneg (Int.emod_nonneg i hpos.ne'), hpow, Int.emod_emod]

/-! ### Integer sums (R194) -/

/-- Partial sums add up exactly. -/
theorem foldl_combine_sum (r : Red) (a : Int) (l : List Int) :
    l.foldl (fun p i => r.combine p (.sum i)) (.sum a) = .sum (a + l.sum) := by
  induction l generalizing a with
  | nil => simp
  | cons i l ih => rw [List.foldl_cons, List.sum_cons, ← add_assoc]; exact ih (a + i)

/-- The final value of an integer sum: OVERFLOW outside the range, and its bytes, saturated with SAT 1. -/
theorem final_sum {r : Red} {lo hi : Int} (hr : intRange r.ty = (lo, hi)) (i : Int) :
    r.final (.sum i) = (leBytes (typeSize r.ty) (ofSigned (8 * typeSize r.ty)
      (if r.sat then max lo (min hi i) else i)), decide (i < lo ∨ hi < i)) := by
  simp only [Red.final, hr, Bool.decide_or]

/-- Saturation takes the value of the range nearest to the sum. -/
theorem max_min_eq_ite {lo hi i : Int} (h : lo ≤ hi) :
    max lo (min hi i) = if i < lo then lo else if hi < i then hi else i := by
  split_ifs <;> omega

/-- Settles O52: partial sums add up exactly, and the final value is that sum, wrapped or saturated. -/
theorem integerSumsAreExact : Obligations.IntegerSumsAreExact := by
  intro r _ hty bits lo hi
  have hcases : r.ty = 0 ∨ r.ty = 1 ∨ r.ty = 2 ∨ r.ty = 3 := by omega
  have hbits : bits = 8 * typeSize r.ty := by
    obtain h | h | h | h := hcases <;> simp [bits, h, typeSize]
  have hrange : intRange r.ty = (lo, hi) ∧ lo ≤ hi := by
    obtain h | h | h | h := hcases <;> simp [intRange, lo, hi, bits, h, typeSize]
  obtain ⟨hrange, hle⟩ := hrange
  have hsize : bits / 8 = typeSize r.ty := by omega
  have hvalue (i : Int) := leNat_leBytes_ofSigned (typeSize r.ty) i
  rw [← hbits] at hvalue
  refine ⟨fun a l m hp => ⟨foldl_combine_sum r a l, ?order⟩, fun i => ?final,
    fun i => ⟨length_leBytes _ _, leNat_leBytes_ofSigned 16 i⟩⟩
  case order => rw [foldl_combine_sum, foldl_combine_sum, hp.sum_eq]
  case final =>
    rw [final_sum hrange, ← hbits]
    refine ⟨rfl, by rw [length_leBytes, hsize], fun hs => ?wrap, fun hs => ?saturate⟩
    case wrap => simpa [hs] using hvalue i
    case saturate => simpa [hs, max_min_eq_ite hle] using hvalue (max lo (min hi i))

/-! ### NaNs (R195 to R197) -/

section
variable {f : Fmt}

/-- A value that is a NaN only as the canonical one. -/
def Fmt.OneNan (f : Fmt) (w : Nat) : Prop := f.isNan w = true → w = f.nan

theorem oneNan_nan : f.OneNan f.nan := fun _ => rfl
theorem oneNan_of_number {w : Nat} (h : f.isNan w = false) : f.OneNan w := fun hn => absurd hn (by simp [h])

theorem expo_mul_add_mant (w : Nat) : f.expo w * 2 ^ f.mbits + f.mant w = f.mag w := by
  have hmant : f.mag w % 2 ^ f.mbits = f.mant w :=
    Nat.mod_mod_of_dvd w (Nat.pow_dvd_pow 2 (Nat.le_add_left _ _))
  rw [← hmant]
  exact Nat.div_add_mod' _ _

theorem expo_le (w : Nat) : f.expo w ≤ f.expMax := by
  have hlt : f.mag w < (f.expMax + 1) * 2 ^ f.mbits := by
    rw [Fmt.expMax, Nat.sub_add_cancel Nat.one_le_two_pow, ← Nat.pow_add]
    exact Nat.mod_lt _ (Nat.two_pow_pos _)
  exact Nat.le_of_lt_succ ((Nat.div_lt_iff_lt_mul (Nat.two_pow_pos _)).2 hlt)

/-- A NaN is above the infinities in magnitude. -/
theorem isNan_iff {w : Nat} : f.isNan w = true ↔ f.expMax * 2 ^ f.mbits < f.mag w := by
  have hmag := expo_mul_add_mant (f := f) w
  simp only [Fmt.isNan, Bool.and_eq_true, beq_iff_eq, bne_iff_ne]
  constructor
  · rintro ⟨he, hm⟩
    rw [← hmag, he]
    omega
  · intro h
    have he : f.expo w = f.expMax :=
      Nat.le_antisymm (expo_le w) ((Nat.le_div_iff_mul_le (Nat.two_pow_pos _)).2 h.le)
    rw [← hmag, he] at h
    exact ⟨he, by omega⟩

theorem isNan_eq_false_of_mag_le {w : Nat} (h : f.mag w ≤ f.expMax * 2 ^ f.mbits) : f.isNan w = false :=
  Bool.eq_false_iff.2 fun hn => absurd (isNan_iff.1 hn) (Nat.not_lt.2 h)

/-- A magnitude up to the infinities, below a sign bit that is a whole number of ranges. -/
theorem isNan_signed_add {v : Nat} (c : Nat) (h : v ≤ f.expMax * 2 ^ f.mbits) :
    f.isNan (c * 2 ^ (f.ebits + f.mbits) + v) = false := by
  refine isNan_eq_false_of_mag_le ?_
  rw [Fmt.mag, Nat.mul_add_mod']
  exact (Nat.mod_le _ _).trans h

theorem isNan_inf (neg : Bool) : f.isNan (f.inf neg) = false := isNan_signed_add _ le_rfl
theorem isNan_negZero : f.isNan f.negZero = false := by
  simpa [Fmt.negZero] using isNan_signed_add (f := f) (v := 0) 1 (Nat.zero_le _)
theorem isNan_zero : f.isNan 0 = false := isNan_eq_false_of_mag_le (by simp [Fmt.mag])

section
variable (he : 2 ≤ f.ebits)
include he

/-- Rounding stops at the infinity. -/
theorem ofMag_le (n : Nat) : f.ofMag n ≤ f.expMax * 2 ^ f.mbits := by
  have hmax : 2 ≤ f.expMax := Nat.le_sub_one_of_lt (lt_of_lt_of_le (by decide) (Nat.pow_le_pow_right two_pos he))
  rw [Fmt.ofMag]
  split
  · have := Nat.mul_le_mul_right (2 ^ f.mbits) hmax
    omega
  · exact Nat.min_le_right _ _

theorem isNan_ofUnits (i : Int) : f.isNan (f.ofUnits i) = false := by
  rw [Fmt.ofUnits]
  split
  · simpa [Fmt.negZero] using isNan_signed_add 1 (ofMag_le he i.natAbs)
  · simpa using isNan_signed_add 0 (ofMag_le he i.natAbs)

theorem oneNan_add (a b : Nat) : f.OneNan (f.add a b) := by
  simp only [Fmt.add]
  split_ifs
  · exact oneNan_nan
  · exact oneNan_nan
  · exact oneNan_of_number (isNan_inf _)
  · exact oneNan_of_number (isNan_inf _)
  · exact oneNan_of_number isNan_negZero
  · exact oneNan_of_number isNan_zero
  · exact oneNan_of_number (isNan_ofUnits he _)

end

theorem isNan_mod {k : Nat} (h : f.ebits + f.mbits ≤ k) (w : Nat) : f.isNan (w % 2 ^ k) = f.isNan w := by
  have hmag : f.mag (w % 2 ^ k) = f.mag w := Nat.mod_mod_of_dvd w (Nat.pow_dvd_pow 2 h)
  rw [Bool.eq_iff_iff, isNan_iff, isNan_iff, hmag]

end

section
variable {ty : Nat} (ht : ty = 4 ∨ ty = 5 ∨ ty = 6)
include ht

theorem isNanV_float (w : Nat) : isNanV ty w = (fmtOf ty).isNan w := by
  obtain rfl | rfl | rfl := ht <;> rfl

/-- Minimum and maximum give a NaN for a NaN, and one of two numbers. -/
theorem oneNan_extreme (isMin : Bool) (a b : Nat) : (fmtOf ty).OneNan (extreme isMin ty a b) := by
  rw [extreme, isNanV_float ht, isNanV_float ht]
  split
  · exact oneNan_nan
  · rename_i h
    obtain ⟨ha, hb⟩ : (fmtOf ty).isNan a = false ∧ (fmtOf ty).isNan b = false := by simpa using h
    dsimp only
    split
    · exact oneNan_of_number ha
    · exact oneNan_of_number hb

theorem two_le_ebits : 2 ≤ (fmtOf ty).ebits := by
  obtain rfl | rfl | rfl := ht <;> decide

theorem width_eq : (256 : Nat) ^ typeSize ty = 2 ^ ((fmtOf ty).ebits + (fmtOf ty).mbits + 1) := by
  obtain rfl | rfl | rfl := ht <;> rfl

end

/-- The final value of an element that is no integer sum spells a number or the canonical NaN. -/
theorem final_oneNan {r : Red} (ht : r.ty = 4 ∨ r.ty = 5 ∨ r.ty = 6) {p : Part} (hp : ∀ i, p ≠ .sum i) :
    ∃ w, (fmtOf r.ty).OneNan w ∧ leNat ((r.final p).1.take (typeSize r.ty)) = w % 256 ^ typeSize r.ty := by
  have hvalue (w : Nat) := leNat_take_leBytes (Nat.le_refl (typeSize r.ty)) w
  have hquiet (w : Nat) : (fmtOf r.ty).OneNan (if isNanV r.ty w then (fmtOf r.ty).nan else w) := by
    rw [isNanV_float ht]
    split
    · exact oneNan_nan
    · exact oneNan_of_number (Bool.eq_false_iff.2 ‹_›)
  cases p with
  | sum i => exact absurd rfl (hp i)
  | elem w o => exact ⟨_, hquiet w, hvalue _⟩
  | loc v l =>
    have hsize : typeSize r.ty ≤ 8 := by obtain h | h | h := ht <;> simp [h, typeSize]
    refine ⟨_, hquiet v, ?_⟩
    simp only [Red.final, List.append_assoc]
    exact leNat_take_leBytes_append hsize _ _
  | exact i nan pinf ninf z =>
    simp only [Red.final]
    split_ifs
    · exact ⟨_, oneNan_nan, hvalue _⟩
    · exact ⟨_, oneNan_of_number (isNan_inf _), hvalue _⟩
    · exact ⟨_, oneNan_of_number (isNan_inf _), hvalue _⟩
    · exact ⟨_, oneNan_of_number isNan_negZero, hvalue _⟩
    · exact ⟨_, oneNan_of_number isNan_zero, hvalue _⟩
    · exact ⟨_, oneNan_of_number (isNan_ofUnits (two_le_ebits ht) i), hvalue _⟩

/-- Settles O53: what a step gives and what each operation gives is a number or the canonical NaN. -/
theorem everyNanResultIsCanonical : Obligations.EveryNanResultIsCanonical := by
  intro r ht f canonical
  have hcanonical : f.nan = canonical ∧ canonical < 256 ^ typeSize r.ty := by
    obtain h | h | h := ht <;> simp [f, canonical, h] <;> decide
  obtain ⟨hnan, hlt⟩ := hcanonical
  rw [← hnan] at hlt ⊢
  refine ⟨fun p hp => ?final, oneNan_add (two_le_ebits ht), oneNan_extreme ht,
    fun a b hab => ⟨by simp [Fmt.add, hab], fun isMin => by simp [extreme, isNanV_float ht, hab, f]⟩⟩
  case final =>
    intro v hv
    obtain ⟨w, hw, hspelt⟩ := final_oneNan ht hp
    have hw : w = f.nan := hw (by rwa [← isNan_mod (Nat.le_succ _), ← width_eq ht, ← hspelt])
    rw [← Nat.mod_eq_of_lt hlt, ← hw]
    exact hspelt

end Sys2Proof.Machine
end

section
/-!
SUPPORT. Groups and steps of the collectives (06_collectives.md): how they start, what the packets of a group do
there, and the intervals of groups and steps (R183 to R205).
-/
namespace Sys2Proof.Machine

section
variable {s : State}

/-! ### Groups and steps start (R187, R189, R190, R199, R200) -/

section
variable {qn op : Nat} {o : SendOp}

/-- What a GROUP_CREATE keeps of its descriptor while it reads its member table (R187). -/
def createOf (s : State) (qn : Nat) (o : SendOp) : Create where
  qn := qn
  entry := o.n
  desc := o.desc
  frags := o.frags
  rights := o.rights
  joinBy := ticks s + (if cgTIMEOUT o.desc = 0 then rc s 0x7C14 0 else cgTIMEOUT o.desc)

theorem startCreate_takes {e k : Nat} (ho : startable s qn (fun x => x == 0x40) = some o) (hw : createsWait s = false)
    (hp : poweredSet s (rc s 0x8410 0) ≠ []) (hk : pickCtx s (rc s 0x8410 0) = some (e, k)) :
    startCreate qn s = createRead (createOf s qn o) (startItem e k (.service qn o.n)
      (markStarted qn o.n { s with ce := { s.ce with creates := s.ce.creates ++ [createOf s qn o] } })) := by
  rw [← List.isEmpty_eq_false_iff] at hp
  simp only [startCreate, ho, hw, serviceItem, hp, hk]
  rfl

section
variable {x : Group} (hx : group s (gGROUP o.desc) = x)
include hx

/-! A descriptor names a group that is FREE or of another generation, or one of another queue, or its own. -/

section
variable (ho : startable s qn (fun k => k == 0x41) = some o)
include ho

theorem startGroupDestroy_gone (h : x.state = .free ∨ x.gen ≠ gGEN o.desc) :
    startGroupDestroy qn s =
      complete qn o.n (collFail stCANCELLED 0 1 (ownNode s)) (markStarted qn o.n s) := by
  simp only [startGroupDestroy, ho, hx]
  exact if_pos (by simpa using h)

variable (hg : x.gen = gGEN o.desc)
include hg

theorem startGroupDestroy_foreign (hs : x.state ≠ .free) (hq : x.qn ≠ qn) :
    startGroupDestroy qn s =
      complete qn o.n (collFail stCANCELLED 0 2 (ownNode s)) (markStarted qn o.n s) := by
  simp [startGroupDestroy, ho, hx, hg, hs, hq, failStart, reasonStatus]

theorem startGroupDestroy_own (hs : x.state ≠ .free) (hq : x.qn = qn) :
    startGroupDestroy qn s = complete qn o.n { status := stOK, peer := x.top * 4096 }
      (endGroup (gGROUP o.desc) false (markStarted qn o.n s)) := by
  simp [startGroupDestroy, ho, hx, hg, hs, hq]

end

section
variable (ho : startable s qn (fun k => k == op) = some o)
include ho

theorem startStep_gone (h : x.state = .free ∨ x.gen ≠ gGEN o.desc) :
    startStep qn op s = complete qn o.n (collFail stCANCELLED 0 1 (ownNode s)) (markStarted qn o.n s) := by
  simp only [startStep, ho, hx]
  exact if_pos (by simpa using h)

variable (hg : x.gen = gGEN o.desc)
include hg

theorem startStep_foreign (hs : x.state ≠ .free) (hq : x.qn ≠ qn) :
    startStep qn op s = complete qn o.n (collFail stCANCELLED 0 2 (ownNode s)) (markStarted qn o.n s) := by
  simp [startStep, ho, hx, hg, hs, hq, failStart, reasonStatus]

theorem startStep_active (hs : x.state = .active) (hq : x.qn = qn) (hw : (openSteps x).length < x.window) :
    startStep qn op s = openStep (gGROUP o.desc) qn op o s := by
  simp [startStep, ho, hx, hg, hs, hq, Nat.not_le.2 hw]

theorem startStep_broken (hs : x.state = .broken) (hq : x.qn = qn) :
    startStep qn op s = complete qn o.n (collFail stMEMBERLOST x.nextStep (lostOf x).2 (lostOf x).1)
      (tellBroken (gGROUP o.desc) (markStarted qn o.n s)) := by
  simp [startStep, ho, hx, hg, hs, hq]

end
end
end

/-- A held step is launched at its instant. -/
theorem collLaunch_held {g n : Nat} {p : Step} (hd : shotDue s (.launch g n) = true)
    (hp : stepOf (fireShot (.launch g n) s).2 g n = some p) (hs : p.state = .held) :
    let f := fireShot (.launch g n) s
    collLaunch g n s =
      tryCombine g n (setStep g n (fun p => { p with state := .launched, late := p.late || f.1 }) f.2) := by
  simp [collLaunch, hd, launchStep, hp, hs]

/-- Settles O13: each start goes by the group that its descriptor names. -/
theorem groupsAndStepsStart : Obligations.GroupsAndStepsStart := by
  intro s
  refine ⟨fun qn o => ?starts, fun g n p => ?launch⟩
  case launch =>
    intro shot f hd hdue hp hs
    refine effect_fin ?_
    rw [instantReached, hdue]
    exact collLaunch_held hd hp hs
  case starts =>
    intro g x s1 starts refused step
    have hstep {i : Instr} {op : Nat} (hi : exec i s = fin (startStep qn.toNat op s)) : step i op := by
      intro ho
      have hstart {t : State} (h : startStep qn.toNat op s = t) : Effect (exec i s) (fun u => u = t) :=
        hi ▸ effect_fin h
      refine ⟨⟨fun h => ?gone, fun hs hg hq => ?foreign⟩, fun hg hq => ⟨fun hs hw => ?active, fun hs => ?broken⟩⟩
      case gone => exact hstart (startStep_gone rfl ho h)
      case foreign => exact hstart (startStep_foreign rfl ho hg hs hq)
      case active => exact hstart (startStep_active rfl ho hg hs hq hw)
      case broken => exact hstart (startStep_broken rfl ho hg hs hq)
    refine ⟨fun ho hw hp e k hk => effect_fin (startCreate_takes ho hw hp hk), fun ho => ?destroy, hstep rfl, hstep rfl,
      hstep rfl⟩
    case destroy =>
      refine ⟨⟨fun h => ?gone, fun hs hg hq => ?foreign⟩, fun hs hg hq => ?own⟩
      case gone => exact effect_fin (startGroupDestroy_gone rfl ho h)
      case foreign => exact effect_fin (startGroupDestroy_foreign rfl ho hg hs hq)
      case own => exact effect_fin (startGroupDestroy_own rfl ho hg hs hq)

/-! ### Packets reach their group (R183) -/

section
variable {p : Packet} {i : Instr} {kind : Nat} {f : Nat → Packet → State → State}

/-- The command brings the collective packet `p` of a kind, which `f` takes to its group. -/
def BringsColl (i : Instr) (p : Packet) (kind : Nat) (f : Nat → Packet → State → State) : Prop :=
  i.wf = (isPacket [tCOLL] p && cKIND p == kind) ∧ ∀ s, exec i s = collCommand kind p f s

theorem brings_collJoin : BringsColl (.collJoin p) p kJOIN joinArrive := ⟨rfl, fun _ => rfl⟩
theorem brings_collReady : BringsColl (.collReady p) p kREADY readyArrive := ⟨rfl, fun _ => rfl⟩
theorem brings_collAbandon : BringsColl (.collAbandon p) p kABANDON abandonArrive := ⟨rfl, fun _ => rfl⟩
theorem brings_collContrib : BringsColl (.collContrib p) p kCONTRIB contribArrive := ⟨rfl, fun _ => rfl⟩
theorem brings_collResult : BringsColl (.collResult p) p kRESULT resultArrive := ⟨rfl, fun _ => rfl⟩
theorem brings_collAbort : BringsColl (.collAbort p) p kABORT abortArrive := ⟨rfl, fun _ => rfl⟩
theorem brings_collHeartbeat : BringsColl (.collHeartbeat p) p kHEARTBEAT (fun _ _ s => s) := ⟨rfl, fun _ => rfl⟩
theorem brings_collDepart : BringsColl (.collDepart p) p kDEPART departArrive := ⟨rfl, fun _ => rfl⟩
theorem brings_collLost : BringsColl (.collLost p) p kLOST lostArrive := ⟨rfl, fun _ => rfl⟩
theorem brings_collBroken : BringsColl (.collBroken p) p kBROKEN brokenArrive := ⟨rfl, fun _ => rfl⟩
theorem brings_collFetch : BringsColl (.collFetch p) p kFETCH fetchArrive := ⟨rfl, fun _ => rfl⟩

/-- The packet has been taken, and its squall mark counted (R248). -/
def collTaken (p : Packet) (s : State) : State :=
  let s0 := takeDelivered p s
  if p.squall then { s0 with ce := { s0.ce with squallMarks := s0.ce.squallMarks + 1 } } else s0

/-- The liveness of its sender has been renewed (R204). -/
def collHeard (p : Packet) (s : State) : State := heardFrom (cGROUP p) (idNode p.source) (collTaken p s)

/-- A packet of the kind that its command names is counted as stale, or goes to its group. -/
theorem collArrive_kind (hk : cKIND p = kind) : collArrive kind f p (takeDelivered p s) =
    let s1 := collTaken p s
    let g := cGROUP p
    if stale s1 p then
      if kind = kJOIN && (group s1 g).state == .free then bump 0x7C36 0 s1 else bump 0x7C35 0 s1
    else
      f g p (when_ ((neighbours (group s1 g)).contains (idNode p.source)) (heardFrom g (idNode p.source)) s1) :=
  if_neg (not_not_intro hk)

section
variable {t1 : State} (h : BringsColl i p kind f) (hw : i.wf = true) (hd : domOn s dCX = true)
include h hw hd

theorem BringsColl.effect (hf : cKIND p = kind → collArrive kind f p (takeDelivered p s) = t1) :
    Effect (exec i s) (fun t => t = t1) := by
  obtain ⟨hwf, hexec⟩ := h
  obtain ⟨hp, hk⟩ : isPacket [tCOLL] p = true ∧ cKIND p = kind := by simpa [hwf] using hw
  rw [hexec, collCommand_kind hk]
  exact effect_packetCommand hp hd (hf hk)

theorem BringsColl.effect_fresh (hs : stale (collTaken p s) p = false)
    (hn : (neighbours (group (collTaken p s) (cGROUP p))).contains (idNode p.source) = true)
    (hf : f (cGROUP p) p (collHeard p s) = t1) : Effect (exec i s) (fun t => t = t1) :=
  h.effect hw hd fun hk => by simp only [collArrive_kind hk, hs, hn, Bool.false_eq_true, if_false, ← hf]; rfl

theorem BringsColl.effect_staleJoin (hj : kind = kJOIN) (hs : stale (collTaken p s) p = true) :
    Effect (exec i s) (fun t => t = if (group (collTaken p s) (cGROUP p)).state = .free
      then bump 0x7C36 0 (collTaken p s) else bump 0x7C35 0 (collTaken p s)) :=
  h.effect hw hd fun hk => by subst hj; simp [collArrive_kind hk, hs]

theorem BringsColl.effect_stale (hj : kind ≠ kJOIN) (hs : stale (collTaken p s) p = true) :
    Effect (exec i s) (fun t => t = bump 0x7C35 0 (collTaken p s)) :=
  h.effect hw hd fun hk => by simp [collArrive_kind hk, hs, hj]

end
end

/-! ### What the packets of a group do there (R188, R192, R201, R204, R205) -/

section
variable {g : Nat} {p : Packet} {x : Group} (hx : group s g = x)
include hx

/-- A child joins a group that is joining, with the same digest (R188). -/
theorem joinArrive_child (hk : (kidsOf x).contains (idNode p.source) = true) (hs : x.state = .joining)
    (ha : cARG p = x.digest) (hj : x.joined.contains (idNode p.source) = false) :
    joinArrive g p s = joinUp g (setGroup g (fun x => { x with joined := x.joined ++ [idNode p.source] }) s) := by
  simp only [joinArrive, hx, hk, hs, ha, hj, Bool.not_true, Bool.false_eq_true, if_false]
  simp

theorem readyArrive_parent (hs : x.state = .joining) (hp : x.parent = some (idNode p.source)) :
    readyArrive g p s = activateGroup g s := by
  simp [readyArrive, hx, hs, hp]

theorem abandonArrive_joining (hs : x.state = .joining) :
    abandonArrive g p s = abandonGroup g (cREASON p) (cARG p) (some (idNode p.source)) s := by
  simp [abandonArrive, hx, hs]

omit hx in
theorem contribArrive_malformed (hc : contribOk p = false) : contribArrive g p s = s := by
  simp [contribArrive, hc]

/-- A child's part of a step that has neither result nor abort (R192). -/
theorem contribArrive_part {st : Step} (hw : awaitsDecision x = true)
    (hk : (kidsOf x).contains (idNode p.source) = true) (hc : contribOk p = true)
    (hst : stepOf s g (cSTEP p) = some st) (hs : st.state ≠ .waiting) (hr : st.state ≠ .result)
    (ha : st.aborted = none) :
    contribArrive g p s =
      let n := cSTEP p
      let child := idNode p.source
      let late := x.deadline != 0 && sgLAUNCH (cSIG p) != 0 && sgLAUNCH (cSIG p) + x.deadline < now s
      let old : ChildPart := (st.parts.find? fun c => c.child == child).getD { child := child }
      let s1 := setStep g n (fun q => { q with
        parts := if old.complete then st.parts
          else (st.parts.filter fun c => c.child != child) ++ [addPart old p late] })
        (poolWrote x.stack 3 p.payload.length s)
      if stepOpen st = true ∧ cSIG p ≠ st.sig then raiseAbort g n 5 s1 else tryCombine g n s1 := by
  simp only [contribArrive, hx, hw, hk, hc, hst, Option.isSome_some, Bool.not_true, Bool.true_or, Bool.or_self,
    Bool.false_eq_true, if_false, if_true]
  rw [if_neg (by simp [hs, hr, ha])]
  simp only [Bool.and_eq_true, decide_eq_true_eq]

/-- A packet of the result from the parent, new to a waiting step (R192). -/
theorem resultArrive_parent {st : Step} (hst : stepOf s g (cSTEP p) = some st) (hs : st.state = .waiting)
    (hp : x.parent = some (idNode p.source)) (hnew : ∀ c ∈ st.resParts, c.1 ≠ cOFFSET p) :
    resultArrive g p s =
      let n := cSTEP p
      let parts := st.resParts ++ [(cOFFSET p, p.payload)]
      let s1 := setStep g n (fun st => { st with
        resParts := parts
        late := st.late || cLATE p
        overflow := st.overflow || cOVERFLOW p
        poison := st.poison || p.poison }) s
      let need := if sgOPCODE st.sig = 0x44 then 0 else sgLEN st.sig
      if need ≤ sumBy (fun c => c.2.length) parts then
        haveResult g n (joinParts parts) (if st.fetching then [] else kidsOf x) s1
      else s1 := by
  have hnew' : (st.resParts.any fun c => c.1 == cOFFSET p) = false := by simpa using hnew
  simp only [resultArrive, hx, hst, hs, hp, hnew', bne_self_eq_false, beq_self_eq_true, Bool.true_or, Bool.not_true,
    Bool.or_self, Bool.false_eq_true, if_false]

theorem abortArrive_top (ht : isTop s x = true) :
    abortArrive g p s = topAbort g (cSTEP p) (cREASON p) (cARG p) (cSIG p) s := by
  simp only [abortArrive, hx, ht, if_true]

/-- An ABORT that is news goes down the tree and ends the step (R201). -/
theorem abortArrive_parent (ht : isTop s x = false) (hp : x.parent = some (idNode p.source))
    (hn : abortNew s g (cSTEP p) = true) :
    abortArrive g p s = takeAbort g (cSTEP p) (cREASON p) (cARG p)
      (sendCollAll g p.tclass {
        kind := kABORT, step := cSTEP p, reason := cREASON p, arg := cARG p, sig := cSIG p } (kidsOf x) s) := by
  simp [abortArrive, hx, ht, hp, hn]

theorem departArrive_neighbour (hn : (neighbours x).contains (idNode p.source) = true) :
    departArrive g p s = declareLost g (idNode p.source) (cREASON p) s := by
  simp only [departArrive, hx, hn, if_true]

theorem lostArrive_top (hs : x.state = .active) (ht : isTop s x = true) :
    lostArrive g p s = decideLoss g (cARG p) (cREASON p) s := by
  simp [lostArrive, hx, hs, ht]

/-- The top root returns a result that it keeps (R205 point 3). -/
theorem fetchArrive_kept {k : KeptResult} (ht : isTop s x = true)
    (hk : (x.kept.find? fun k => k.num == cSTEP p) = some k) :
    fetchArrive g p s = foldSt (fun c s => sendColl g k.tclass (idNode p.source) {
      kind := kRESULT, step := k.num, late := k.late, over_ := k.overflow, poison := k.poison
      off := c.1, sig := k.sig, payload := c.2 } s) (resultParts k.bytes) s := by
  simp [fetchArrive, hx, ht, hk]

/-- Another member's word that the top root is lost breaks the group, with a free reason where this member
knows none (R205 point 4). -/
theorem brokenArrive_member (hw : awaitsDecision x = true) (hn : idNode p.source ≠ x.top) :
    brokenArrive g p s =
      let r := draw 4 s
      let known := match x.lost with
        | some l => if l.1 = x.top then l else (x.top, 32 + r.1)
        | none => (x.top, 32 + r.1)
      breakGroup g (cARG p) (cARG p != 0xFFFFFFFF) (setGroup g (fun x => { x with lost := some known }) r.2) := by
  have hn' : (idNode p.source == x.top) = false := by simpa using hn
  simp only [brokenArrive, hx, hw, hn', Bool.not_true, Bool.false_or, Bool.false_eq_true, if_false, beq_iff_eq]
    <;> rfl

end

/-- Settles O14: the arrival of each kind at its group, and the count of stale packets. -/
theorem collectivePacketsReachTheirGroup : Obligations.CollectivePacketsReachTheirGroup := by
  intro s p hd g came s0 s1 s2 x n
  refine ⟨fun hs hn => ?fresh, fun hs => ⟨fun i hi hw => ?stale, fun hw => brings_collJoin.effect_staleJoin hw hd rfl hs⟩⟩
  case fresh =>
    have hfresh {i : Instr} {kind : Nat} {f : Nat → Packet → State → State} {t1 : State} (h : BringsColl i p kind f)
        (hw : i.wf = true) (hf : f g p s2 = t1) : Effect (exec i s) (fun t => t = t1) := h.effect_fresh hw hd hs hn hf
    exact ⟨fun hw hk hj ha hnew => hfresh brings_collJoin hw (joinArrive_child rfl hk hj ha hnew),
      fun hw hj hp => hfresh brings_collReady hw (readyArrive_parent rfl hj hp),
      fun hw hj => hfresh brings_collAbandon hw (abandonArrive_joining rfl hj),
      fun hw hc => hfresh brings_collContrib hw (contribArrive_malformed hc),
      fun st hw ha hk hc hst hwait hres hab =>
        hfresh brings_collContrib hw (contribArrive_part rfl ha hk hc hst hwait hres hab),
      fun st hw hst hwait hp hnew => hfresh brings_collResult hw (resultArrive_parent rfl hst hwait hp hnew),
      fun hw => ⟨fun ht => hfresh brings_collAbort hw (abortArrive_top rfl ht),
        fun ht hp hnew => hfresh brings_collAbort hw (abortArrive_parent rfl ht hp hnew)⟩,
      fun hw => hfresh brings_collHeartbeat hw rfl,
      fun hw hnb => hfresh brings_collDepart hw (departArrive_neighbour rfl hnb),
      fun hw ha ht => hfresh brings_collLost hw (lostArrive_top rfl ha ht),
      fun k hw ht hk => hfresh brings_collFetch hw (fetchArrive_kept rfl ht hk),
      fun hw ha hne => hfresh brings_collBroken hw (brokenArrive_member rfl ha hne)⟩
  case stale =>
    have hstale {kind : Nat} {f : Nat → Packet → State → State} (hj : kind ≠ kJOIN) (h : BringsColl i p kind f) :
        Effect (exec i s) (fun t => t = bump 0x7C35 0 s1) := h.effect_stale hw hd hj hs
    simp only [List.mem_cons, List.not_mem_nil, or_false] at hi
    obtain rfl | rfl | rfl | rfl | rfl | rfl | rfl | rfl | rfl | rfl := hi
    exacts [hstale (by decide) brings_collReady, hstale (by decide) brings_collAbandon,
      hstale (by decide) brings_collContrib, hstale (by decide) brings_collResult,
      hstale (by decide) brings_collAbort, hstale (by decide) brings_collHeartbeat,
      hstale (by decide) brings_collDepart, hstale (by decide) brings_collLost,
      hstale (by decide) brings_collFetch, hstale (by decide) brings_collBroken]

/-! ### Intervals of groups and steps (R188, R202, R204) -/

section
variable {g : Nat} {x : Group} (hx : group s g = x)
include hx

/-- A JOIN that was sent counts as refused and is sent again (R188, log entry 120). -/
theorem joinRetry_over {par : Nat} (hs : x.state = .joining) (hj : x.joinSent = true) (ht : x.joinAt ≤ ticks s)
    (hp : x.parent = some par) :
    joinRetry g s = sendColl g x.tclass par { kind := kJOIN, arg := x.digest } (setGroup g (fun x => { x with
      joinSent := true, joinAt := ticks s + rc s 0x7C10 0 }) (bump 0x7C36 0 s)) := by
  have hb : group (bump 0x7C36 0 s) g = x := hx
  simp only [joinRetry, hx, hs, hj, ht, sendJoin, hb, hp]
  rfl

theorem joinTimeout_over (hs : x.state = .joining) (ht : x.joinBy ≤ ticks s) :
    joinTimeout g s = abandonGroup g 16 (ownNode s) none s := by
  simp [joinTimeout, hx, hs, ht]

section
variable (ho : openSteps x ≠ [])
include ho

theorem heartbeat_over (ht : x.beatAt ≤ ticks s) :
    heartbeat g s = sendCollAll g x.tclass { kind := kHEARTBEAT } (neighbours x)
      (setGroup g (fun x => { x with beatAt := ticks s + rc s 0x7C11 0 }) s) := by
  simp [heartbeat, hx, ho, Nat.not_lt.2 ht]

/-- A neighbour that has been silent for the liveness timeout is lost (R204). -/
theorem livenessTimeout_silent {node due : Nat} (hn : (neighbours x).contains node = true)
    (hh : mget? x.heard node = some due) (ht : due ≤ ticks s) :
    livenessTimeout g node s = declareLost g node 33 s := by
  simp only [livenessTimeout, hx, hn, hh, ht]
  simp [ho]

end

theorem stepTimeout_over {n : Nat} {p : Step} (hp : stepOf s g n = some p) (hs : x.state = .active)
    (htop : isTop s x = true) (hd : p.due ≠ 0) (ht : p.due ≤ ticks s) :
    stepTimeout g n s = topAbort g n 10 (ownNode s) p.sig s := by
  simp [stepTimeout, hx, hp, hs, htop, hd, ht]

end

/-- Settles O15: each interval, once it is over, has its effect on the group. -/
theorem collectiveIntervalsTakeEffect : Obligations.CollectiveIntervalsTakeEffect := by
  intro s g x
  exact ⟨fun par hs hj ht hp => effect_fin (joinRetry_over rfl hs hj ht hp),
    fun hs ht => effect_fin (joinTimeout_over rfl hs ht),
    fun ho => ⟨fun ht => effect_fin (heartbeat_over rfl ho ht),
      fun node due hn hh ht => effect_fin (livenessTimeout_silent rfl ho hn hh ht)⟩,
    fun n p hp hs htop hd ht => effect_fin (stepTimeout_over rfl hp hs htop hd ht)⟩

end
end Sys2Proof.Machine
end

section
/-!
SUPPORT. Translation (07_translation.md): the words of the address-space and translation commands field by field,
what these commands do, the end of an INVALIDATE, and a local access that has waited its limit.
-/
namespace Sys2Proof.Machine

/-! ### Fields of a word put together from parts (R6) -/

section
variable {w n : Nat} (x : BitVec w) (y : BitVec n)

theorem fld_toNat_whole (z : BitVec (n + 1)) : fld z.toNat n 0 = z.toNat := by
  rw [fld, Nat.pow_zero, Nat.div_one, Nat.sub_zero, Nat.mod_eq_of_lt z.isLt]

theorem fld_toNat_append_low (z : BitVec (n + 1)) : fld (x ++ z).toNat n 0 = z.toNat := by
  rw [fld, Nat.pow_zero, Nat.div_one, Nat.sub_zero, ← BitVec.toNat_setWidth, BitVec.setWidth_append_eq_right]

theorem bit_eq_fld (k i : Nat) : bit k i = (fld k i i == 1) := by
  rw [bit, fld, Nat.add_sub_cancel_left, Nat.pow_one]

theorem bit_toNat_append {i : Nat} (h : n ≤ i) : bit (x ++ y).toNat i = bit x.toNat (i - n) := by
  rw [bit_eq_fld, bit_eq_fld, fld_toNat_append x y h (Nat.le_refl i)]

theorem bit_toNat_append_ofBool (b : Bool) : bit (x ++ BitVec.ofBool b).toNat 0 = b := by
  rw [bit_eq_fld, fld_toNat_append_low]
  cases b <;> rfl

end

section
variable {s : State}

/-! ### The address-space command (R212 to R215, Table 07-1) -/

/-- The fields of a command word that CREATE and MODIFY give an address space. -/
def asFields (v : Nat) (a : AddrSpace) : AddrSpace :=
  { a with
    eqn := fld v 205 186, failPolicy := bit v 185, mark := bit v 184, rights := fld v 159 128, root := fld v 119 64 }

/-- The issuer of the invalidation of a root change: the mailbox of a function, or the management port (log entry
119). -/
def rootIssuer : Option Nat → Nat
  | some f => 1024 + f
  | none => 1023

section
variable {writer : Option Nat} {v : Nat}

theorem asCommand_invalid (h : asValid s writer v = false) : asCommand writer v s = bump 0x8011 0 s := by
  simp only [asCommand, h, Bool.not_false, if_true]

variable (h : asValid s writer v = true)
include h

theorem asCommand_create (ha : fld v 255 248 = 1) :
    asCommand writer v s =
      setSpace (fld v 247 232)
        (fun _ => asFields v { state := .live, fn := fld v 231 222, tenant := fld v 221 206 })
        (discardCaches (fld v 247 232) s) := by
  simp only [asCommand, h, ha, Bool.not_true, Bool.false_eq_true, if_false]
  rfl

/-- MODIFY invalidates everything where it moves the root (R214, log entry 119). -/
theorem asCommand_modify (ha : fld v 255 248 = 3) :
    asCommand writer v s =
      let t := setSpace (fld v 247 232) (asFields v) s
      if (space s (fld v 247 232)).root = fld v 119 64 then t
      else invalidate (rootIssuer writer) (fld v 247 232) 0xFFFF true true true 0 0 t := by
  simp only [asCommand, h, ha, Bool.not_true, Bool.false_eq_true, if_false, bne_iff_ne, ne_eq, ite_not]
  rfl

theorem asCommand_destroy (ha : fld v 255 248 = 2) :
    asCommand writer v s = closeSpace (fld v 247 232) s := by
  simp only [asCommand, h, ha, Bool.not_true, Bool.false_eq_true, if_false]

end

/-! ### The word of CREATE and MODIFY, field by field -/

section
variable (a : BitVec 8) (asid : BitVec 16) (fn : BitVec 10) (tenant : BitVec 16) (eqn : BitVec 20) (pol mark : Bool)
  (v2 : BitVec 24) (rights : BitVec 32) (v1 : BitVec 8) (root : BitVec 56) (v0 : BitVec 64)

theorem action_asWord : fld (asWord a asid fn tenant eqn pol mark v2 rights v1 root v0) 255 248 = a.toNat := by
  simp only [asWord, fld_toNat_append, fld_toNat_whole, Nat.reduceLeDiff, Nat.reduceSub, Nat.le_refl]

theorem asid_asWord : fld (asWord a asid fn tenant eqn pol mark v2 rights v1 root v0) 247 232 = asid.toNat := by
  simp only [asWord, fld_toNat_append, fld_toNat_append_low, Nat.reduceLeDiff, Nat.reduceSub, Nat.le_refl]

theorem fn_asWord : fld (asWord a asid fn tenant eqn pol mark v2 rights v1 root v0) 231 222 = fn.toNat := by
  simp only [asWord, fld_toNat_append, fld_toNat_append_low, Nat.reduceLeDiff, Nat.reduceSub, Nat.le_refl]

theorem tenant_asWord : fld (asWord a asid fn tenant eqn pol mark v2 rights v1 root v0) 221 206 = tenant.toNat := by
  simp only [asWord, fld_toNat_append, fld_toNat_append_low, Nat.reduceLeDiff, Nat.reduceSub, Nat.le_refl]

theorem root_asWord : fld (asWord a asid fn tenant eqn pol mark v2 rights v1 root v0) 119 64 = root.toNat := by
  simp only [asWord, fld_toNat_append, fld_toNat_append_low, Nat.reduceLeDiff, Nat.reduceSub, Nat.le_refl]

/-- What AS_CREATE and AS_MODIFY set in an address space. -/
def asSet (x : AddrSpace) : AddrSpace :=
  { x with eqn := eqn.toNat, failPolicy := pol, mark := mark, rights := rights.toNat, root := root.toNat }

theorem asFields_asWord :
    asFields (asWord a asid fn tenant eqn pol mark v2 rights v1 root v0) = asSet eqn pol mark rights root := by
  funext x
  simp only [asFields, root_asWord, asSet]
  simp only [asWord, fld_toNat_append, fld_toNat_append_low, bit_toNat_append, bit_toNat_append_ofBool,
    Nat.reduceLeDiff, Nat.reduceSub, Nat.le_refl]

end

/-! ### Translation commands (R223 to R225) -/

section
variable {c : TransCmd}

theorem transReady_invalidate (ho : tcOP c.word = 1) (hn : (invalsOf s c.issuer).length < 16) :
    transReady s c = true := by
  simp [transReady, ho, hn]

/-- RESUME and FAIL wait for the INVALIDATEs of their issuer (R225). -/
theorem transReady_none (h : invalsOf s c.issuer = []) : transReady s c = true := by
  simp [transReady, h]

end

section
variable {i w : Nat}

theorem transCommand_invalid (h : transValid s { issuer := i, word := w } = false) :
    transCommand i w s = bump 0x8021 0 s := by
  simp only [transCommand, h, Bool.not_false, if_true]

/-- A valid command that has nothing of its issuer before it takes effect at once. -/
theorem transCommand_ready (h : transValid s { issuer := i, word := w } = true)
    (hf : s.tu.held.any (fun c => c.issuer == i) = false) (hr : transReady s { issuer := i, word := w } = true) :
    transCommand i w s = transEffect { issuer := i, word := w } s := by
  simp only [transCommand, h, hf, hr, Bool.not_true, Bool.or_self, Bool.false_eq_true, if_false]

end

/-! ### The words of the translation commands (Table 07-7) -/

section
variable (asid tok : BitVec 16) (tlb walk all v3 : Bool) (pages : BitVec 20) (v2 : BitVec 16) (page : BitVec 36)
  (v0 : BitVec 12)

/-- The word of an INVALIDATE. -/
def invalidateWord : Nat :=
  ((1 : BitVec 8) ++ asid ++ tok ++ BitVec.ofBool tlb ++ BitVec.ofBool walk ++ BitVec.ofBool all
    ++ BitVec.ofBool v3 ++ pages ++ v2 ++ page ++ v0).toNat

theorem op_invalidateWord : tcOP (invalidateWord asid tok tlb walk all v3 pages v2 page v0) = 1 := by
  have hop : tcOP (invalidateWord asid tok tlb walk all v3 pages v2 page v0) = (1 : BitVec 8).toNat := by
    simp only [invalidateWord, tcOP, fld_toNat_append, fld_toNat_whole, Nat.reduceLeDiff, Nat.reduceSub, Nat.le_refl]
  exact hop

theorem transEffect_invalidateWord (i : Nat) :
    transEffect { issuer := i, word := invalidateWord asid tok tlb walk all v3 pages v2 page v0 } s =
      invalidate i asid.toNat tok.toNat tlb walk all pages.toNat page.toNat s := by
  simp only [transEffect, op_invalidateWord, if_true]
  simp only [invalidateWord, tcASID, tcTOKEN, tcPAGES, tcADDR, fld_toNat_append, fld_toNat_append_low, bit_toNat_append,
    bit_toNat_append_ofBool, Nat.reduceLeDiff, Nat.reduceSub, Nat.le_refl]

end

section
variable (op : BitVec 8) (asid id : BitVec 16) (z : BitVec 88)

/-- The word of a command about a fault record: RESUME has OP 2, FAIL has OP 3. -/
def recordWord : Nat := (op ++ asid ++ id ++ z).toNat

theorem op_recordWord : tcOP (recordWord op asid id z) = op.toNat := by
  simp only [recordWord, tcOP, fld_toNat_append, fld_toNat_whole, Nat.reduceLeDiff, Nat.reduceSub, Nat.le_refl]

theorem asid_recordWord : tcASID (recordWord op asid id z) = asid.toNat := by
  simp only [recordWord, tcASID, fld_toNat_append, fld_toNat_append_low, Nat.reduceLeDiff, Nat.reduceSub,
    Nat.le_refl]

theorem token_recordWord : tcTOKEN (recordWord op asid id z) = id.toNat := by
  simp only [recordWord, tcTOKEN, fld_toNat_append, fld_toNat_append_low, Nat.reduceLeDiff, Nat.reduceSub,
    Nat.le_refl]

theorem transEffect_resume (i : Nat) :
    transEffect { issuer := i, word := recordWord 2 asid id z } s = faultResume asid.toNat id.toNat s := by
  simp [transEffect, op_recordWord, asid_recordWord, token_recordWord]

theorem transEffect_fail (i : Nat) :
    transEffect { issuer := i, word := recordWord 3 asid id z } s = faultFail asid.toNat id.toNat s := by
  simp [transEffect, op_recordWord, asid_recordWord, token_recordWord]

end

/-! ### Fault records (R227, R230) -/

section
variable {asid id : Nat}

theorem faultResume_none (h : recOf s asid id = none) : faultResume asid id s = bump 0x8054 0 s := by
  simp only [faultResume, h]

theorem faultFail_none (h : recOf s asid id = none) : faultFail asid id s = bump 0x8054 0 s := by
  simp only [faultFail, h]

variable {k : Nat} {r : FaultRec} (h : recOf s asid id = some (k, r))
include h

/-- RESUME takes the page's slot, releases the record, and walks afresh for every waiter that is no packet; the
packets are then translated one after the other, as a new chain (R230, log entry 196). -/
theorem faultResume_record :
    faultResume asid id s =
      let packets := r.waiters.filter fun a => a.cls == .region
      let c := s.tu.nextChain
      let s1 := foldSt freshWalk (r.waiters.filter fun a => a.cls != .region) (releaseRec k
        { s with tu := { s.tu with tlb := smod [] s.tu.tlb (tlbSlice asid r.page) (fun l =>
            l.filter fun e => !slotCovers asid r.page e) } })
      if packets = [] then s1
      else walkNext c { s1 with tu := { s1.tu with nextChain := c + 1, chains := mput s1.tu.chains c packets } } := by
  simp only [faultResume, h, List.isEmpty_iff]

theorem faultFail_record :
    faultFail asid id s =
      foldSt (fun (a : Acc) s => later (.result a.cont (.fault r.kind)) s) r.waiters (releaseRec k s) := by
  simp only [faultFail, h]

end

theorem localWaitExpiry_due {k : Nat} {a : Acc}
    (h : firstDue s k (fun a => a.cls != .region && a.deadline ≤ ticks s) = some a) :
    localWaitExpiry k s = later (.result a.cont (.fault (sget {} s.tu.recs k).kind))
      (takeWaiter k (fun a => a.cls != .region && a.deadline ≤ ticks s) s) := by
  simp only [localWaitExpiry, h]

/-! ### What ends (R214, R224) -/

theorem asCloseComplete_unused {asid : Nat} (hs : (space s asid).state = .closing) (hb : asidBusy s asid = false) :
    asCloseComplete asid s = setSpace asid (fun _ => {}) s := by
  simp [asCloseComplete, hs, hb]

/-- The oldest INVALIDATE of an issuer whose reads are over (R224). -/
theorem invalidateDone_over {issuer : Nat} {v : Inval}
    (hv : (s.tu.invals.find? fun v => v.issuer == issuer) = some v)
    (hr : v.waitTags.any (fun t => (mget? s.tu.reads t).isSome) = false) :
    invalidateDone issuer s =
      let s1 := bump 0x8056 0
        { s with tu := { s.tu with invals := eraseFirst (fun v => v.issuer == issuer) s.tu.invals } }
      let s2 := if (space s v.asid).state = .free then s1
        else postEvent (space s v.asid).eqn 0x0101 (v.asid * 65536 + v.token) 0 0 s1
      releaseHeld issuer s2.tu.held.length s2 := by
  simp only [invalidateDone, hv, hr, Bool.false_eq_true, if_false, beq_iff_eq]
  rfl

/-! ### What the address-space commands do, in their operands (R214) -/

section
variable {writer : Option (Fin 514)} {asid : BitVec 16} {fn : BitVec 10} {tenant : BitVec 16} {eqn : BitVec 20}
  {pol mark : Bool} {v2 : BitVec 24} {rights : BitVec 32} {v1 : BitVec 8} {root : BitVec 56} {v0 : BitVec 64}

theorem asCommand_createWord
    (h : asValid s (writer.map Fin.val) (asWord 1 asid fn tenant eqn pol mark v2 rights v1 root v0) = true) :
    asCommand (writer.map Fin.val) (asWord 1 asid fn tenant eqn pol mark v2 rights v1 root v0) s =
      setSpace asid.toNat
        (fun _ => asSet eqn pol mark rights root { state := .live, fn := fn.toNat, tenant := tenant.toNat })
        (discardCaches asid.toNat s) := by
  rw [asCommand_create h (action_asWord ..), asid_asWord, fn_asWord, tenant_asWord, asFields_asWord]

theorem asCommand_modifyWord
    (h : asValid s (writer.map Fin.val) (asWord 3 asid fn tenant eqn pol mark v2 rights v1 root v0) = true) :
    asCommand (writer.map Fin.val) (asWord 3 asid fn tenant eqn pol mark v2 rights v1 root v0) s =
      let t := setSpace asid.toNat (asSet eqn pol mark rights root) s
      if (space s asid.toNat).root = root.toNat then t
      else invalidate (rootIssuer (writer.map Fin.val)) asid.toNat 0xFFFF true true true 0 0 t := by
  rw [asCommand_modify h (action_asWord ..), asid_asWord, root_asWord, asFields_asWord]

theorem action_destroyWord (a : BitVec 8) (v : BitVec 222) : fld (a ++ asid ++ fn ++ v).toNat 255 248 = a.toNat := by
  simp only [fld_toNat_append, fld_toNat_whole, Nat.reduceLeDiff, Nat.reduceSub, Nat.le_refl]

theorem asid_destroyWord (a : BitVec 8) (v : BitVec 222) : fld (a ++ asid ++ fn ++ v).toNat 247 232 = asid.toNat := by
  simp only [fld_toNat_append, fld_toNat_append_low, Nat.reduceLeDiff, Nat.reduceSub, Nat.le_refl]

end

/-- Settles O16: each command by the equation of its word or of its effect. -/
theorem addressSpacesAndFaultRecords : Obligations.AddressSpacesAndFaultRecords := by
  intro s
  refine ⟨fun hd => ⟨?space, ?destroy, ?command⟩, fun _ hs hb => effect_fin (asCloseComplete_unused hs hb),
    fun _ _ hv hr => effect_fin (invalidateDone_over hv hr), fun _ _ h => effect_fin (localWaitExpiry_due h)⟩
  case space =>
    intro writer asid fn tenant eqn pol mark v2 rights v1 root v0 w set create modify
    have hissuer : rootIssuer (writer.map Fin.val) = match writer with | some f => 1024 + f | none => 1023 := by
      cases writer <;> rfl
    have hmodify (h : asValid s (writer.map Fin.val) (w 3) = true) := asCommand_modifyWord h
    rw [hissuer] at hmodify
    exact ⟨fun h => effect_inCX hd (asCommand_createWord h), fun h => effect_inCX hd (hmodify h),
      fun h => effect_inCX hd (asCommand_invalid h), fun h => effect_inCX hd (asCommand_invalid h)⟩
  case destroy =>
    intro writer asid fn v ok
    refine effect_inCX hd ⟨fun h => ?_, fun h => asCommand_invalid h⟩
    rw [asCommand_destroy h (action_destroyWord 2 v), asid_destroyWord, closeSpace]
  case command =>
    intro who asid tok tlb walk all v3 pages v2 page v0 v free inv cmd
    have hcmd (op : BitVec 8) (hv : transValid s (cmd op) = true) (hf : free) (hn : invalsOf s who.code = []) :
        transCommand who.code (recordWord op asid tok v) s = transEffect (cmd op) s :=
      transCommand_ready hv hf (transReady_none hn)
    have hresume (hv : transValid s (cmd 2) = true) (hf : free) (hn : invalsOf s who.code = []) :
        transCommand who.code (recordWord 2 asid tok v) s = faultResume asid.toNat tok.toNat s :=
      (hcmd 2 hv hf hn).trans (transEffect_resume asid tok v who.code)
    have hfail (hv : transValid s (cmd 3) = true) (hf : free) (hn : invalsOf s who.code = []) :
        transCommand who.code (recordWord 3 asid tok v) s = faultFail asid.toNat tok.toNat s :=
      (hcmd 3 hv hf hn).trans (transEffect_fail asid tok v who.code)
    refine ⟨fun hv hf hn => effect_inCX hd ?invalidate, fun hv => effect_inCX hd (transCommand_invalid hv),
      fun hv => effect_inCX hd (transCommand_invalid hv), fun hv => effect_inCX hd (transCommand_invalid hv),
      fun hf hn hr => ⟨fun hv => effect_inCX hd ((hresume hv hf hn).trans (faultResume_none hr)),
        fun hv => effect_inCX hd ((hfail hv hf hn).trans (faultFail_none hr))⟩,
      fun k r hr hf hn => ⟨fun hv => effect_inCX hd ?resume,
        fun hv => effect_inCX hd ((hfail hv hf hn).trans (faultFail_record hr))⟩⟩
    case invalidate =>
      exact (transCommand_ready hv hf (transReady_invalidate (op_invalidateWord ..) hn)).trans
        (transEffect_invalidateWord ..)
    case resume =>
      have h := (hresume hv hf hn).trans (faultResume_record hr)
      exact ⟨fun hp => h.trans (if_pos hp), fun hp => h.trans (if_neg hp)⟩

end
end Sys2Proof.Machine
end

section
/-!
SUPPORT. Packets on the wire (08_packet_format.md): words put together from fields, the 512-bit header field by field,
and the partial results of a CONTRIB payload.
-/
namespace Sys2Proof.Machine

/-! ### Words put together from fields (R6) -/

/-- The number that values spell in fields of the given widths, the highest first. -/
def spell : List Nat → List Nat → Nat
  | w :: ws, v :: vs => v % 2 ^ w * 2 ^ ws.sum + spell ws vs
  | _, _ => 0

theorem spell_lt (ws vs : List Nat) : spell ws vs < 2 ^ ws.sum := by
  induction ws generalizing vs with
  | nil => exact Nat.one_pos
  | cons w ws ih =>
    cases vs with
    | nil => exact Nat.two_pow_pos _
    | cons v vs =>
      have hv : v % 2 ^ w + 1 ≤ 2 ^ w := Nat.mod_lt _ (Nat.two_pow_pos w)
      calc v % 2 ^ w * 2 ^ ws.sum + spell ws vs
          < (v % 2 ^ w + 1) * 2 ^ ws.sum := by rw [Nat.succ_mul]; exact Nat.add_lt_add_left (ih vs) _
        _ ≤ 2 ^ w * 2 ^ ws.sum := Nat.mul_le_mul_right _ hv
        _ = 2 ^ (w :: ws).sum := by rw [List.sum_cons, Nat.pow_add]

section
variable {ws vs : List Nat} {k w lo : Nat}

/-- A field and the fields below it lie within the word. -/
theorem sum_drop_add_le (hw : ws[k]? = some w) : (ws.drop (k + 1)).sum + w ≤ ws.sum := by
  obtain ⟨hk, rfl⟩ := List.getElem?_eq_some_iff.1 hw
  have h := List.sum_take_add_sum_drop ws k
  rw [List.drop_eq_getElem_cons hk, List.sum_cons] at h
  omega

/-- A field stands above the fields that follow it. -/
theorem fld_spell {v hi : Nat} (hw : ws[k]? = some w) (hv : vs[k]? = some v) (hlo : (ws.drop (k + 1)).sum = lo)
    (hhi : hi + 1 = lo + w) : fld (spell ws vs) hi lo = v % 2 ^ w := by
  rw [fld, show hi + 1 - lo = w by omega]
  induction ws generalizing k vs with
  | nil => cases hw
  | cons w' ws ih =>
    cases vs with
    | nil => cases hv
    | cons v' vs =>
      cases k with
      | zero =>
        obtain rfl : w' = w := Option.some.inj hw
        obtain rfl : v' = v := Option.some.inj hv
        obtain rfl : ws.sum = lo := hlo
        rw [spell, Nat.mul_comm, Nat.mul_add_div (Nat.two_pow_pos _), Nat.div_eq_of_lt (spell_lt ws vs),
          Nat.add_zero, Nat.mod_mod]
      | succ k =>
        obtain ⟨d, hd⟩ := Nat.exists_eq_add_of_le (hlo ▸ sum_drop_add_le (ws := ws) hw)
        have habove : v' % 2 ^ w' * 2 ^ ws.sum = 2 ^ lo * (2 ^ w * (2 ^ d * (v' % 2 ^ w'))) := by
          rw [hd, Nat.pow_add, Nat.pow_add]
          ring
        rw [← ih hw hv hlo, spell, habove, Nat.mul_add_div (Nat.two_pow_pos _), Nat.mul_add_mod]

theorem fld_spell_of_lt {v hi : Nat} (h : v < 2 ^ w) (hw : ws[k]? = some w) (hv : vs[k]? = some v)
    (hlo : (ws.drop (k + 1)).sum = lo) (hhi : hi + 1 = lo + w) : fld (spell ws vs) hi lo = v := by
  rw [fld_spell hw hv hlo hhi, Nat.mod_eq_of_lt h]

theorem bit_spell {b : Bool} (hw : ws[k]? = some 1) (hv : vs[k]? = some (b2n b))
    (hlo : (ws.drop (k + 1)).sum = lo) : bit (spell ws vs) lo = b := by
  rw [bit_eq_fld, fld_spell hw hv hlo rfl]
  cases b <;> rfl

end

theorem b2n_mod_two (b : Bool) : b2n b % 2 ^ 1 = b2n b := by cases b <;> rfl

/-! ### The header of a packet (R235, R236) -/

/-- The widths of the fields of Table 08-1, highest first. -/
def hdrWidths : List Nat := [8, 5, 4, 4, 2, 1, 1, 1, 1, 3, 2, 16, 16, 32, 32, 12, 4, 48, 64, 256]

/-- What a packet holds in the fields of Table 08-1. -/
def hdrValues (p : Packet) : List Nat :=
  [p.type, p.vc, p.hops, p.detour, p.tepoch, b2n p.order, b2n p.poison, b2n p.squall, b2n p.solicit, p.tclass,
    p.colour, p.lane, p.tenant, p.dest, p.source, p.payload.length, p.attempt, p.rsvd, p.stamp, p.th]

section
variable (p : Packet)

theorem hdrBits_eq_spell : hdrBits p = spell hdrWidths (hdrValues p) := by
  simp only [hdrBits, hdrWidths, hdrValues, spell, List.sum_cons, List.sum_nil, b2n_mod_two, Nat.add_assoc,
    Nat.reduceAdd, Nat.add_zero, Nat.pow_zero, Nat.mul_one]

theorem hdrBits_lt : hdrBits p < 2 ^ 512 := by
  rw [hdrBits_eq_spell, show 512 = hdrWidths.sum from rfl]
  exact spell_lt hdrWidths (hdrValues p)

variable {p} {k lo : Nat}

theorem fld_hdrBits {w v hi : Nat} (h : v < 2 ^ w) (hw : hdrWidths[k]? = some w := by rfl)
    (hv : (hdrValues p)[k]? = some v := by rfl) (hlo : (hdrWidths.drop (k + 1)).sum = lo := by rfl)
    (hhi : hi + 1 = lo + w := by rfl) : fld (hdrBits p) hi lo = v := by
  rw [hdrBits_eq_spell, fld_spell_of_lt h hw hv hlo hhi]

theorem bit_hdrBits {b : Bool} (hw : hdrWidths[k]? = some 1 := by rfl)
    (hv : (hdrValues p)[k]? = some (b2n b) := by rfl) (hlo : (hdrWidths.drop (k + 1)).sum = lo := by rfl) :
    bit (hdrBits p) lo = b := by
  rw [hdrBits_eq_spell, bit_spell hw hv hlo]

end

/-- Settles O55: each field of the header stands at its place in `hdrWidths`. -/
theorem packetHeadersAreReadBackWhole : Obligations.PacketHeadersAreReadBackWhole := by
  intro p hp
  simp only [packetWf, Bool.and_eq_true, decide_eq_true_eq, and_assoc] at hp
  obtain ⟨htype, hvc, hhops, hdetour, htepoch, htclass, hcolour, hlane, htenant, hdest, hsource, hattempt, hrsvd,
    hstamp, hth, hlength⟩ := hp
  refine ⟨?readBack, hdrBits_lt p, fld_hdrBits (k := 15) (w := 12) (by omega)⟩
  case readBack =>
    cases p
    simp only [packetOfBits, Packet.mk.injEq]
    exact ⟨fld_hdrBits (k := 0) htype, fld_hdrBits (k := 1) hvc, fld_hdrBits (k := 2) hhops,
      fld_hdrBits (k := 3) hdetour, fld_hdrBits (k := 4) htepoch, bit_hdrBits (k := 5), bit_hdrBits (k := 6),
      bit_hdrBits (k := 7), bit_hdrBits (k := 8), fld_hdrBits (k := 9) htclass, fld_hdrBits (k := 10) hcolour,
      fld_hdrBits (k := 11) hlane, fld_hdrBits (k := 12) htenant, fld_hdrBits (k := 13) hdest,
      fld_hdrBits (k := 14) hsource, fld_hdrBits (k := 16) hattempt, fld_hdrBits (k := 17) hrsvd,
      fld_hdrBits (k := 18) hstamp, fld_hdrBits (k := 19) hth, trivial⟩

/-! ### Two's complement -/

theorem ofSigned_lt (w : Nat) (i : Int) : ofSigned w i < 2 ^ w := by
  have hpos : (0 : Int) < (2 ^ w : Nat) := by positivity
  have hlt := Int.emod_lt_of_pos i hpos
  rw [ofSigned]
  omega

theorem toSigned_ofSigned {w : Nat} {i : Int} (hlo : -2 ^ w ≤ i) (hhi : i < 2 ^ w) :
    toSigned (w + 1) (ofSigned (w + 1) i) = i := by
  have hpos : (0 : Int) < (2 ^ (w + 1) : Nat) := by positivity
  have hval : (ofSigned (w + 1) i : Int) = i % (2 ^ (w + 1) : Nat) :=
    Int.toNat_of_nonneg (Int.emod_nonneg i hpos.ne')
  have hhalf : (2 ^ (w + 1) : Nat) = 2 * 2 ^ w := Nat.pow_succ'
  have hbmod : toSigned (w + 1) (ofSigned (w + 1) i) = i.bmod (2 ^ (w + 1)) := by
    rw [toSigned, Nat.mod_eq_of_lt (ofSigned_lt _ i), hval, Int.bmod_def, ← hval]
    simp only [Nat.add_sub_cancel]
    congr 1
    rw [hhalf, eq_iff_iff]
    omega
  rw [hbmod]
  apply Int.bmod_eq_of_le <;> push_cast [hhalf] <;> omega

/-! ### The limbs of an EXACT sum (R198) -/

theorem limbsInt_cons {r : List Nat} (l : Nat) (hr : r ≠ []) : limbsInt (l :: r) = l + (2 ^ 64 : Nat) * limbsInt r := by
  cases r with
  | nil => exact absurd rfl hr
  | cons => rfl

theorem limbsInt_zero_cons (r : List Nat) : limbsInt (0 :: r) = (2 ^ 64 : Nat) * limbsInt r := by
  cases r with
  | nil => rfl
  | cons => rw [limbsInt_cons 0 (List.cons_ne_nil _ _), Nat.cast_zero, zero_add]

theorem limbsInt_replicate_append (k : Nat) (r : List Nat) :
    limbsInt (List.replicate k 0 ++ r) = limbsInt r * (2 ^ (64 * k) : Nat) := by
  induction k with
  | zero => simp
  | succ k ih =>
    rw [List.replicate_succ, List.cons_append, limbsInt_zero_cons, ih]
    push_cast
    ring

theorem limbsOf_ne_nil (n : Nat) (i : Int) : limbsOf (n + 1) i ≠ [] := by
  simp only [limbsOf]
  split <;> exact List.cons_ne_nil _ _

theorem limbsInt_limbsOf {n : Nat} {i : Int} (hlo : -2 ^ (64 * n + 63) ≤ i) (hhi : i < 2 ^ (64 * n + 63)) :
    limbsInt (limbsOf (n + 1) i) = i := by
  induction n generalizing i with
  | zero => rw [limbsOf, if_pos (toSigned_ofSigned hlo hhi), limbsInt, toSigned_ofSigned hlo hhi]
  | succ n ih =>
    rw [limbsOf]
    split
    next h => exact h
    next =>
      have hpos : (0 : Int) < (2 ^ 64 : Nat) := by positivity
      have hpow : (2 : Int) ^ (64 * (n + 1) + 63) = 2 ^ (64 * n + 63) * (2 ^ 64 : Nat) := by push_cast; ring
      have hrest : limbsInt (limbsOf (n + 1) (i / (2 ^ 64 : Nat))) = i / (2 ^ 64 : Nat) :=
        ih ((Int.le_ediv_iff_mul_le hpos).2 (by rw [neg_mul, ← hpow]; exact hlo))
          ((Int.ediv_lt_iff_lt_mul hpos).2 (by rw [← hpow]; exact hhi))
      rw [limbsInt_cons _ (limbsOf_ne_nil n _), hrest, ofSigned, Int.toNat_of_nonneg (Int.emod_nonneg i hpos.ne'),
        Int.emod_add_mul_ediv]

theorem length_limbsOf_le (n : Nat) (i : Int) : (limbsOf n i).length ≤ n := by
  induction n generalizing i with
  | zero => exact Nat.le_refl 0
  | succ n ih =>
    simp only [limbsOf]
    split
    · exact Nat.le_add_left 1 n
    · exact Nat.succ_le_succ (ih _)

theorem lt_of_mem_limbsOf {n l : Nat} {i : Int} (h : l ∈ limbsOf n i) : l < 2 ^ 64 := by
  induction n generalizing i with
  | zero => cases h
  | succ n ih =>
    simp only [limbsOf] at h
    split at h
    next => exact List.mem_singleton.1 h ▸ ofSigned_lt 64 i
    next =>
      obtain rfl | h := List.mem_cons.1 h
      · exact ofSigned_lt 64 i
      · exact ih h

/-- The limbs that are dropped are those of 0 at the front. -/
theorem replicate_append_dropZeros (l : List Nat) :
    List.replicate (dropZeros l).1 0 ++ (dropZeros l).2 = l := by
  induction l with
  | nil => rfl
  | cons a r ih =>
    rw [dropZeros]
    split
    next h => rw [List.replicate_succ, List.cons_append, ih, h]
    next => rfl

theorem words8_flatMap {ls : List Nat} (h : ∀ l ∈ ls, l < 2 ^ 64) (bs : List Byte) :
    words8 ls.length (ls.flatMap (leBytes 8) ++ bs) = ls := by
  induction ls with
  | nil => rfl
  | cons l r ih =>
    obtain ⟨hl, hr⟩ := List.forall_mem_cons.1 h
    rw [List.length_cons, words8, List.flatMap_cons, List.append_assoc, leNat_take_leBytes_append (Nat.le_refl 8),
      show 256 ^ 8 = 2 ^ 64 from rfl, Nat.mod_eq_of_lt hl, List.drop_left' (length_leBytes 8 l), ih hr]

/-! ### The EXACT header (R250, Table 06-8) -/

/-- The widths of LOW, COUNT, the four flags and Reserved, highest first. -/
def exactWidths : List Nat := [6, 6, 1, 1, 1, 1, 48]

/-- The header of an EXACT element. -/
def exactHeader (low count : Nat) (nan pinf ninf negZero : Bool) : Nat :=
  spell exactWidths [low, count, b2n nan, b2n pinf, b2n ninf, b2n negZero, 0]

section
variable {low count : Nat} (nan pinf ninf negZero : Bool)

theorem exactHeader_eq (hl : low < 2 ^ 6) (hc : count < 2 ^ 6) :
    exactHeader low count nan pinf ninf negZero = low * 2 ^ 58 + count * 2 ^ 52 +
      (b2n nan * 2 ^ 51 + b2n pinf * 2 ^ 50 + b2n ninf * 2 ^ 49 + b2n negZero * 2 ^ 48) := by
  simp only [exactHeader, exactWidths, spell, List.sum_cons, List.sum_nil, b2n_mod_two, Nat.mod_eq_of_lt hl,
    Nat.mod_eq_of_lt hc, Nat.add_assoc, Nat.reduceAdd, Nat.add_zero, Nat.zero_mod, Nat.zero_mul]

/-- An EXACT element is a header and limbs that spell its integer above LOW limbs of 0. -/
theorem exactBytes_eq {i : Int} (hlo : -2 ^ 2559 ≤ i) (hhi : i < 2 ^ 2559) :
    ∃ low ls, low < 2 ^ 6 ∧ ls.length < 2 ^ 6 ∧ (∀ l ∈ ls, l < 2 ^ 64) ∧
      limbsInt ls * (2 ^ (64 * low) : Nat) = i ∧
      exactBytes i nan pinf ninf negZero =
        leBytes 8 (exactHeader low ls.length nan pinf ninf negZero) ++ ls.flatMap (leBytes 8) := by
  obtain rfl | hi := eq_or_ne i 0
  · refine ⟨0, [], by decide, by decide, by simp, by simp [limbsInt], ?_⟩
    rw [exactHeader_eq _ _ _ _ (by decide) (by decide)]
    simp [exactBytes]
  · have hsplit := replicate_append_dropZeros (limbsOf 40 i)
    have hlength := length_limbsOf_le 40 i
    have hvalue := limbsInt_limbsOf (n := 39) hlo hhi
    have hlimbs : ∀ l ∈ limbsOf 40 i, l < 2 ^ 64 := fun l => lt_of_mem_limbsOf
    rw [← hsplit, limbsInt_replicate_append] at hvalue
    rw [← hsplit, List.length_append, List.length_replicate] at hlength
    rw [← hsplit] at hlimbs
    have hlow : (dropZeros (limbsOf 40 i)).1 < 2 ^ 6 := by omega
    have hcount : (dropZeros (limbsOf 40 i)).2.length < 2 ^ 6 := by omega
    refine ⟨_, _, hlow, hcount, fun l hl => hlimbs l (List.mem_append_right _ hl), hvalue, ?_⟩
    rw [exactHeader_eq _ _ _ _ hlow hcount, exactBytes, if_neg hi]

theorem leNat_exactHeader (bs : List Byte) :
    leNat ((leBytes 8 (exactHeader low count nan pinf ninf negZero) ++ bs).take 8) =
      exactHeader low count nan pinf ninf negZero := by
  rw [leNat_take_leBytes_append (Nat.le_refl 8)]
  exact Nat.mod_eq_of_lt (spell_lt exactWidths _)

theorem low_exactHeader (hl : low < 2 ^ 6) : fld (exactHeader low count nan pinf ninf negZero) 63 58 = low :=
  fld_spell_of_lt (k := 0) hl rfl rfl rfl rfl

theorem count_exactHeader (hc : count < 2 ^ 6) : fld (exactHeader low count nan pinf ninf negZero) 57 52 = count :=
  fld_spell_of_lt (k := 1) hc rfl rfl rfl rfl

theorem nan_exactHeader : bit (exactHeader low count nan pinf ninf negZero) 51 = nan := bit_spell (k := 2) rfl rfl rfl

theorem pinf_exactHeader : bit (exactHeader low count nan pinf ninf negZero) 50 = pinf :=
  bit_spell (k := 3) rfl rfl rfl

theorem ninf_exactHeader : bit (exactHeader low count nan pinf ninf negZero) 49 = ninf :=
  bit_spell (k := 4) rfl rfl rfl

theorem negZero_exactHeader : bit (exactHeader low count nan pinf ninf negZero) 48 = negZero :=
  bit_spell (k := 5) rfl rfl rfl

end

/-! ### Reading the first element of a payload (R250) -/

theorem typeSize_pos (ty : Nat) : 0 < typeSize ty := by
  unfold typeSize
  split <;> decide

theorem typeSize_le (ty : Nat) : typeSize ty ≤ 8 := by
  unfold typeSize
  split <;> decide

theorem pow_typeSize (ty : Nat) : 256 ^ typeSize ty = 2 ^ (8 * typeSize ty) := by rw [Nat.pow_mul]

section
variable {r : Red} (marked : Bool) (n : Nat) (bs : List Byte)

theorem parse_sum {i : Int} (hop : r.op = 0) (hty : isInt r.ty = true) (hlo : -2 ^ 127 ≤ i) (hhi : i < 2 ^ 127) :
    r.parse marked (n + 1) (r.wire (.sum i) ++ bs) = .sum i :: r.parse marked n bs := by
  have hread : toSigned 128 (leNat ((leBytes 16 (ofSigned 128 i) ++ bs).take 16)) = i := by
    rw [leNat_take_leBytes_append (Nat.le_refl 16), show 256 ^ 16 = 2 ^ 128 from rfl,
      Nat.mod_eq_of_lt (ofSigned_lt 128 i), toSigned_ofSigned hlo hhi]
  have hne : (leBytes 16 (ofSigned 128 i) ++ bs).isEmpty = false := rfl
  rw [Red.parse, Red.wire]
  simp only [hne, hop, hty, hread, List.drop_left' (length_leBytes 16 _)]
  rfl

theorem parse_elem {w : Nat} {mark : Bool} (hop : r.op < 6) (hsum : r.op = 0 → isInt r.ty = false ∧ r.mode ≠ 2)
    (hw : w < 2 ^ (8 * typeSize r.ty)) (hmark : mark = (marked && r.op == 0 && (fmtOf r.ty).isInf w)) :
    r.parse marked (n + 1) (r.wire (.elem w mark) ++ bs) = .elem w mark :: r.parse marked n bs := by
  have hread : leNat ((leBytes (typeSize r.ty) w ++ bs).take (typeSize r.ty)) = w := by
    rw [leNat_take_leBytes_append (Nat.le_refl _), pow_typeSize, Nat.mod_eq_of_lt hw]
  have hne : (leBytes (typeSize r.ty) w ++ bs).isEmpty = false := by
    obtain ⟨k, hk⟩ := Nat.exists_eq_add_of_lt (typeSize_pos r.ty)
    rw [hk]
    rfl
  have hloc : (r.op = 6 || r.op = 7) = false := by
    simp only [Bool.or_eq_false_iff, decide_eq_false_iff_not]
    omega
  have hint : (r.op = 0 && isInt r.ty) = false := by simpa using fun h => (hsum h).1
  have hexact : (r.op = 0 && r.mode = 2) = false := by simpa using fun h => (hsum h).2
  rw [Red.parse, Red.wire]
  simp only [hne, hloc, hint, hexact, hread, List.drop_left' (length_leBytes _ w), hmark]
  rfl

theorem parse_loc {v k : Nat} (hop : r.op = 6 ∨ r.op = 7) (hv : v < 2 ^ (8 * typeSize r.ty)) (hk : k < 2 ^ 32) :
    r.parse marked (n + 1) (r.wire (.loc v k) ++ bs) = .loc v k :: r.parse marked n bs := by
  have hread : leNat ((leBytes 8 v ++ (leBytes 4 k ++ (leBytes 4 0 ++ bs))).take (typeSize r.ty)) = v := by
    rw [leNat_take_leBytes_append (typeSize_le r.ty), pow_typeSize, Nat.mod_eq_of_lt hv]
  have hat : leAt (leBytes 8 v ++ (leBytes 4 k ++ (leBytes 4 0 ++ bs))) 8 4 = k := by
    rw [leAt, slice, List.drop_left' (length_leBytes 8 v), leNat_take_leBytes_append (Nat.le_refl 4)]
    exact Nat.mod_eq_of_lt hk
  have hrest : (leBytes 8 v ++ (leBytes 4 k ++ (leBytes 4 0 ++ bs))).drop 16 = bs := rfl
  have hne : (leBytes 8 v ++ (leBytes 4 k ++ (leBytes 4 0 ++ bs))).isEmpty = false := rfl
  have hloc : (r.op = 6 || r.op = 7) = true := by simpa using hop
  rw [Red.parse, Red.wire, List.append_assoc, List.append_assoc]
  simp only [hne, hloc, hread, hat, hrest]
  rfl

theorem parse_exact {i : Int} (nan pinf ninf negZero : Bool) (hop : r.op = 0) (hty : isInt r.ty = false)
    (hmode : r.mode = 2) (hlo : -2 ^ 2559 ≤ i) (hhi : i < 2 ^ 2559) :
    r.parse marked (n + 1) (r.wire (.exact i nan pinf ninf negZero) ++ bs) =
      .exact i nan pinf ninf negZero :: r.parse marked n bs := by
  obtain ⟨low, ls, hlow, hcount, hlimbs, hvalue, hbytes⟩ := exactBytes_eq nan pinf ninf negZero hlo hhi
  have hrest (h : Nat) : (leBytes 8 h ++ (ls.flatMap (leBytes 8) ++ bs)).drop (8 + 8 * ls.length) = bs := by
    rw [← List.append_assoc]
    exact List.drop_left' (by simp [List.length_flatMap, Nat.mul_comm])
  have hne (h : Nat) : (leBytes 8 h ++ (ls.flatMap (leBytes 8) ++ bs)).isEmpty = false := rfl
  rw [Red.parse, Red.wire, hbytes, List.append_assoc]
  simp only [hne, hop, hty, hmode, leNat_exactHeader, low_exactHeader _ _ _ _ hlow, count_exactHeader _ _ _ _ hcount,
    nan_exactHeader, pinf_exactHeader, ninf_exactHeader, negZero_exactHeader, hrest,
    List.drop_left' (length_leBytes 8 _), words8_flatMap hlimbs, hvalue]
  rfl

end

/-- Settles O54, by induction on the list: the first element reads back, and the rest of the bytes spells the others. -/
theorem partialResultsAreReadBackWhole : Obligations.PartialResultsAreReadBackWhole := by
  intro r l marked hl n hn
  induction l generalizing n with
  | nil => cases n <;> rfl
  | cons p l ih =>
    obtain ⟨hp, hl⟩ := List.forall_mem_cons.1 hl
    obtain ⟨n, rfl⟩ : ∃ m, n = m + 1 := ⟨n - 1, by rw [List.length_cons] at hn; omega⟩
    have hrest := ih hl n (Nat.le_of_succ_le_succ hn)
    rw [List.flatMap_cons]
    cases p with
    | sum i =>
      obtain ⟨hop, hty, hlo, hhi⟩ := hp
      rw [parse_sum marked n _ hop hty hlo hhi, hrest]
    | elem w mark =>
      obtain ⟨hop, hsum, hw, hmark⟩ := hp
      rw [parse_elem marked n _ hop hsum hw hmark, hrest]
    | loc v k =>
      obtain ⟨hop, hv, hk⟩ := hp
      rw [parse_loc marked n _ hop hv hk, hrest]
    | exact i nan pinf ninf negZero =>
      obtain ⟨hop, hty, hmode, hlo, hhi⟩ := hp
      rw [parse_exact marked n _ nan pinf ninf negZero hop hty hmode hlo hhi, hrest]

end Sys2Proof.Machine
end

section
/-!
SUPPORT. Routing (09_routing.md): the lookup of one packet, at injection and in transit, and what the health, vane,
wait and replica intervals do (R266 to R277, R283).
-/
namespace Sys2Proof.Machine

section
variable {s : State}

/-! ### The lookup of one packet (R268, R269, R274, R277) -/

/-- The exceptions that a lookup applied or ignored are counted (R274). -/
def lookupCounted (pk : Packet) (s : State) : State :=
  bumpBy 0x6064 0 (routeOf s pk).2.1 (bumpBy 0x6065 0 (routeOf s pk).2.2 s)

/-- A crosswind is counted, of the module and of its port. -/
def crossCounted (c : Cand) (s : State) : State :=
  if c.cross then bumpPort c.port 13 1 (bump 0x6060 0 s) else s

/-- The packet as it goes out on the port taken: HOPS, VC and detour bit of its next link. -/
def onNextLink (c : Cand) (pk : Packet) : Packet :=
  { pk with
    hops := pk.hops + 1, vc := nextVC pk, detour := if c.cross then Nat.lor pk.detour (2 ^ c.dim) else pk.detour }

/-- A packet of this module carries the epoch of the live tables. -/
def inLiveEpoch (s : State) (pk : Packet) : Packet := { pk with tepoch := s.rt.live.epoch }

section
variable {pk : Packet} (hh : pk.hops = 0)
include hh

theorem routePacket_inject_here (hr : (routeOf s (inLiveEpoch s pk)).1 = .here) :
    routePacket none pk s = later (.left (inLiveEpoch s pk))
      (deliver (inLiveEpoch s pk) (lookupCounted (inLiveEpoch s pk) s)) := by
  simp only [inLiveEpoch, hh] at hr
  simp [routePacket, hh, hr, lookupCounted, inLiveEpoch, leaveIngress]

theorem routePacket_inject_none (hr : (routeOf s (inLiveEpoch s pk)).1 = .none) :
    routePacket none pk s =
      if pk.type = tLOSS then bump 0x6069 0 (lookupCounted (inLiveEpoch s pk) s)
      else later (.noRoute (inLiveEpoch s pk)) (bump 0x606A 0 (lookupCounted (inLiveEpoch s pk) s)) := by
  simp only [inLiveEpoch, hh] at hr
  simp [routePacket, hh, hr, lookupCounted, inLiveEpoch, leaveIngress, unroutable]

theorem routePacket_inject_port {c : Cand} (hr : (routeOf s (inLiveEpoch s pk)).1 = .port c) :
    routePacket none pk s =
      if s.pr.departure ≠ .joined ∧ opensOperation (inLiveEpoch s pk) = true then
        later (.noRoute (inLiveEpoch s pk)) (bump 0x606A 0 (lookupCounted (inLiveEpoch s pk) s))
      else enqueue c.port pk.tclass none (onNextLink c (inLiveEpoch s pk))
        (crossCounted c (lookupCounted (inLiveEpoch s pk) s)) := by
  simp only [inLiveEpoch, hh] at hr
  simp [routePacket, hh, hr, lookupCounted, inLiveEpoch, onNextLink, crossCounted, when_]

end

section
variable {pk : Packet} {from_ : Option Nat} (hh : 0 < pk.hops)
include hh

theorem routePacket_transit_here (hr : (routeOf s pk).1 = .here) :
    routePacket from_ pk s = deliver pk (leaveIngress from_ pk (lookupCounted pk s)) := by
  simp [routePacket, hh.ne', hr, lookupCounted]

theorem routePacket_transit_stale (hr : (routeOf s pk).1 = .stale) :
    routePacket from_ pk s = bump 0x6062 0 (leaveIngress from_ pk (lookupCounted pk s)) := by
  simp [routePacket, hh.ne', hr, lookupCounted]

theorem routePacket_transit_none (hr : (routeOf s pk).1 = .none) :
    routePacket from_ pk s = bump 0x6061 0 (leaveIngress from_ pk (lookupCounted pk s)) := by
  simp [routePacket, hh.ne', hr, lookupCounted, unroutable]

theorem routePacket_transit_port {c : Cand} (hr : (routeOf s pk).1 = .port c) :
    routePacket from_ pk s =
      enqueue c.port pk.tclass from_ (onNextLink c pk) (bumpG15 8 1 (crossCounted c (lookupCounted pk s))) := by
  simp [routePacket, hh.ne', hr, lookupCounted, onNextLink, crossCounted, when_]

end

/-! ### The first packet that waits for a lookup (R269) -/

theorem packetRoute_inject {pk : Packet} {r : List Packet} (h : s.rt.inject = pk :: r) :
    packetRoute none s = routePacket none pk { s with rt := { s.rt with inject := r } } := by
  simp only [packetRoute, h]

/-- Does a received packet wait for a lookup on a port? -/
def awaitsRoute (port : Fin 72) (i : Ingress) : Bool := i.port == port.val && isRouted i.packet.type

theorem packetRoute_transit {port : Fin 72} {i : Ingress} (h : s.rt.ingress.find? (awaitsRoute port) = some i) :
    packetRoute (some port) s = routePacket (if i.held then some port.val else none) i.packet
      { s with rt := { s.rt with ingress := eraseFirst (awaitsRoute port) s.rt.ingress } } := by
  unfold awaitsRoute at h ⊢
  simp only [packetRoute, h]

/-! ### Waits and intervals (R266, R268, R271, R283) -/

/-- Has a packet in transit waited its limit for credit of a single virtual channel (R268)? -/
def waitedOut (s : State) (p v : Nat) (q : QPkt) : Bool :=
  q.packet.vc == v && 1 < q.packet.hops && !creditOk s p q && q.waitTo.any fun t => t ≤ ticks s

theorem singleVcExpiry_due {p v : Nat} {q : QPkt} (h : (portFlow s p).queue.find? (waitedOut s p v) = some q) :
    singleVcExpiry p v s = assignTags p (bump 0x6063 0 (leaveQueued q
      (setFlow p (fun x => { x with queue := eraseFirst (waitedOut s p v) x.queue }) s))) := by
  unfold waitedOut at h ⊢
  simp only [singleVcExpiry, h]

/-- HEALTH goes out on the ports that are UP or DEPARTING. -/
theorem healthAll_eq (s : State) : healthAll s = forRange 0 72 (fun p s =>
    if (portRoute s p).state = .up ∨ (portRoute s p).state = .departing then sendHealth p s else s) s := by
  rw [healthAll]
  congr 1
  funext p s
  cases (portRoute s p).state <;> simp

theorem healthInterval_over (h : s.rt.healthAt ≤ ticks s) :
    healthInterval s = healthAll { s with rt := { s.rt with healthAt := ticks s + rc s 0x6036 0 } } := if_pos h

theorem exec_healthArrive {port : Fin 72} {p : Packet} : exec (.healthArrive port p) s =
    portCommand tLINKCTL (fun p => kKIND p == 3) port p (fun p s => healthArrive port (kARG p) s) s := rfl

/-- A report without a reserved bit, about a dimension in use, renews the peer's mask (R266). -/
theorem healthArrive_mask {p arg : Nat} (h1 : fld arg 61 48 = 0) (h2 : fld arg 39 37 = 0)
    (hd : fld arg 63 62 < (usedSizes (shape s)).length) :
    healthArrive p arg s =
      later .reach (setPort p (fun x => { x with masks := mput x.masks (fld arg 63 62) arg }) s) := by
  simp [healthArrive, h1, h2, Nat.not_le.2 hd]

theorem vanePeriod_over (h : s.rt.vaneAt ≤ ticks s) :
    vanePeriod s =
      vaneUpdate { s with rt := { s.rt with vaneAt := ticks s + ticksOf (rc s 0x6032 0) 1600000000 } } := if_pos h

end

/-- Settles O17: a lookup goes by what `routeOf` answers, and each interval, once it is over, has its effect. -/
theorem packetsAreRoutedAndHealthIsKept : Obligations.PacketsAreRoutedAndHealthIsKept := by
  intro s hd
  refine ⟨fun pk r hq hh => ?inject, fun port i => ?transit, fun p vc18 q => ?wait, fun ht => ?health,
    fun port p hw => ?arrive, fun ht => ?vanes, fun diffs ht => ?replicas⟩
  case inject =>
    have hroute := packetRoute_inject hq
    refine ⟨fun hr => effect_inCX hd ?_, fun hr => effect_inCX hd ?_, fun c hr => effect_inCX hd ?_⟩
    · exact hroute.trans (routePacket_inject_here hh hr)
    · exact hroute.trans (routePacket_inject_none hh hr)
    · rw [hroute, routePacket_inject_port hh hr, onNextLink, inLiveEpoch, hh]
      rfl
  case transit =>
    intro mine hf hh
    have hroute := packetRoute_transit hf
    exact ⟨fun hr => effect_inCX hd (hroute.trans (routePacket_transit_here hh hr)),
      fun hr => effect_inCX hd (hroute.trans (routePacket_transit_stale hh hr)),
      fun hr => effect_inCX hd (hroute.trans (routePacket_transit_none hh hr)),
      fun c hr => effect_inCX hd (hroute.trans (routePacket_transit_port hh hr))⟩
  case wait => exact fun hf => effect_inCX hd (singleVcExpiry_due hf)
  case health => exact effect_inCX hd ((healthInterval_over ht).trans (healthAll_eq _))
  case arrive =>
    obtain ⟨hp, hk⟩ := Bool.and_eq_true_iff.1 hw
    rw [exec_healthArrive]
    exact fun h1 h2 hdim => effect_portCommand hp hk hd (healthArrive_mask h1 h2 hdim)
  case vanes => exact effect_inCX hd (vanePeriod_over ht)
  case replicas => exact effect_inCX hd (if_pos ht)

end Sys2Proof.Machine
end

section
/-!
SUPPORT. Trade lanes (09_routing.md, R385 to R388): their services, setup timeout and squall hold at the origin, and
what their packets do at the hops and at the far end.
-/
namespace Sys2Proof.Machine

section
variable {s : State}

/-! ### The services of a lane (R284, R290, R385 to R387) -/

section
variable {qn op : Nat} {o : SendOp} (f : SendOp → (State → State) → State → State)
variable (ho : startable s qn (fun k => k = op) = some o)
include ho

theorem laneService_noEngine (hp : poweredSet s (rc s 0x8410 0) = []) :
    laneService qn op f s = complete qn o.n (cancelled esNOENGINE 0) (markStarted qn o.n s) := by
  rw [← List.isEmpty_iff] at hp
  simp only [laneService, beq_eq_decide, ho, serviceItem, hp, if_true]

/-- The work item takes the context that is free. -/
theorem laneService_takes {e c : Nat} (hp : poweredSet s (rc s 0x8410 0) ≠ [])
    (hc : pickCtx s (rc s 0x8410 0) = some (e, c)) :
    laneService qn op f s = f o (fun s => startItem e c (.service qn o.n) (markStarted qn o.n s)) s := by
  rw [← List.isEmpty_eq_false_iff] at hp
  simp only [laneService, beq_eq_decide, ho, serviceItem, hp, hc, Bool.false_eq_true, if_false]

end

/-- The work item of a service has taken its context. -/
def itemTaken (qn : Nat) (o : SendOp) (e c : Nat) (s : State) : State :=
  startItem e c (.service qn o.n) (markStarted qn o.n s)

/-- The lane that a LANE_OPEN sets up, with the number, port and label found when the state is `s2`. -/
def laneSetUp (s s2 : State) (qn : Nat) (o : SendOp) (l p b : Nat) : OLane :=
  let far := idNode (dDEST o.desc)
  { olane s2 l with
    state := .setup, far := far, share := fld (dOP0 o.desc) 15 0, path := lanePath s far, sent := 0
    port := p, label := b, qn := qn, entry := o.n, fn := (queue s qn).fn, tenant := (queue s qn).tenant
    tclass := dTCLASS o.desc, deadline := ticks s2 + rc s2 0x6045 0 }

/-- Its LANE_SETUP carries the nodes of the path, little-endian (R286, log entry 172). -/
def setupPacket (s : State) (l : Nat) (x : OLane) : Packet :=
  lanePacket s tLANESETUP x.far x.tenant x.tclass (laneTH (ownNode s) l false x.path.length 0 0 x.share 0 0 0)
    ((x.path ++ List.replicate (8 - x.path.length) 0).flatMap (leBytes 4))

/-- What a LANE_SEND adds to its lane. -/
def sendOf (s : State) (qn : Nat) (o : SendOp) : LaneSend where
  qn := qn
  entry := o.n
  key := dKEY o.desc
  addr := dTARGET o.desc
  laddr := dLOCAL o.desc
  frags := o.frags
  length := dLENGTH o.desc
  rights := o.rights
  asid := (queue s qn).asid
  last := bit (dOP0 o.desc) 16
  notify := bit (dOP0 o.desc) 17

section
variable {qn e c : Nat} {o : SendOp} {s1 : State}
variable (hpow : poweredSet s (rc s 0x8410 0) ≠ []) (hc : pickCtx s (rc s 0x8410 0) = some (e, c))
variable (hs : itemTaken qn o e c s = s1)
include hpow hc hs

section
variable (ho : startable s qn (fun k => k = 0x30) = some o)
include ho

/-- No usable port leads to the first node of the path (R284). -/
theorem laneOpen_unreached (hp : (lanePath s (idNode (dDEST o.desc))).head?.bind (lanePort s1) = none) :
    laneOpen qn s = complete qn o.n (cancelled (32 + 10) 0) (bump 0x6068 10 s1) := by
  rw [← hs, itemTaken] at hp ⊢
  rw [laneOpen, laneService_takes _ ho hpow hc]
  simp only [hp]
  rfl

theorem laneOpen_setup {p l b : Nat} (hp : (lanePath s (idNode (dDEST o.desc))).head?.bind (lanePort s1) = some p)
    (hl : (freeLnum s1).1 = some l) (hb : (freeLabel p (freeLnum s1).2).1 = some b) :
    let s2 := (freeLabel p (freeLnum s1).2).2
    let x := laneSetUp s s2 qn o l p b
    (x.share ≠ 0 → shareReserved s2 p + x.share ≤ rc s2 0x6044 0) →
    laneOpen qn s = laneSend p b (laneFlow x.share b x.tclass) none (setupPacket (settleTags p s2) l x)
      (countInjected 32 (setOlane l (fun _ => x) (settleTags p s2))) := by
  intro s2 x hshare
  have hfits : ¬(x.share ≠ 0 && rc s2 0x6044 0 < shareReserved s2 p + x.share) = true := by
    simpa using hshare
  subst hs
  rw [itemTaken] at hp hl hb
  rw [laneOpen, laneService_takes _ ho hpow hc]
  simp only [hp, hl, hb]
  exact if_neg hfits

end

/-! A LANE_SEND or LANE_CLOSE names its lane in OP0. -/

section
variable {l : Nat} (hl : fld (dOP0 o.desc) 9 0 = l)
include hl

section
variable (ho : startable s qn (fun k => k = 0x31) = some o)
include ho

/-- On a lane that the queue may use, where nothing is being sent, the data is gathered at once (R387). -/
theorem laneSendStart_gathers (hd : laneDenied s1 qn l = none) (hi : (emitting (olane s1 l)).isNone = true) :
    laneSendStart qn s =
      laneGather l (setOlane l (fun x => { x with sends := x.sends ++ [sendOf s qn o] }) s1) := by
  rw [← hs, itemTaken] at hd hi ⊢
  rw [laneSendStart, laneService_takes _ ho hpow hc]
  simp only [hl, hd, hi, if_true]
  rfl

theorem laneSendStart_denied {reason : Nat} (hd : laneDenied s1 qn l = some reason) :
    laneSendStart qn s = complete qn o.n (cancelled reason 0) s1 := by
  rw [← hs, itemTaken] at hd ⊢
  rw [laneSendStart, laneService_takes _ ho hpow hc]
  simp only [hl, hd]

end

section
variable (ho : startable s qn (fun k => k = 0x32) = some o)
include ho

theorem laneClose_closes (hd : laneDenied s qn l = none) (hn : (olane s l).sends = []) :
    laneClose qn s = complete qn o.n { status := stOK } (originRelease l (olane s l) false (freeLane l s1)) := by
  rw [laneClose, laneService_takes _ ho hpow hc, ← hs, itemTaken]
  simp only [hl, hd, hn, List.isEmpty_nil, Bool.not_true, Bool.false_eq_true, if_false]

theorem laneClose_denied {reason : Nat} (hd : laneDenied s qn l = some reason) :
    laneClose qn s = complete qn o.n (cancelled reason 0) s1 := by
  rw [laneClose, laneService_takes _ ho hpow hc, ← hs, itemTaken]
  simp only [hl, hd]

end
end
end

/-! ### Timeouts and squall at the origin (R288, R290) -/

/-- A setup without a reply at its deadline is refused with CODE 8 (R290). -/
theorem setupTimeout_due {l : Nat} (hx : (olane s l).state = .setup) (ht : (olane s l).deadline ≤ ticks s) :
    setupTimeout l s = complete (olane s l).qn (olane s l).entry (cancelled (32 + 8) 0)
      (originRelease l (olane s l) false
        (freeLane l (setOlane l (fun x => { x with code := 8 }) (bump 0x6068 8 s)))) := by
  simp only [setupTimeout, hx, ht, beq_self_eq_true, decide_true, Bool.and_self, if_true, openRefused]

theorem squallExpiry_due {l : Nat} (hx : (olane s l).squallHold = true) (ht : (olane s l).holdUntil ≤ ticks s) :
    squallExpiry l s = setOlane l (fun x => { x with squallHold := false }) s := by
  simp only [squallExpiry, hx, ht, decide_true, Bool.and_self, if_true]

/-- A squall notice for an OPEN lane of this module starts the hold (R288). -/
theorem squallArrive_open {p : Packet} (ho : fld p.th 255 236 = ownNode s)
    (hx : (olane s (fld p.th 235 226)).state = .opened) :
    squallArrive p s = setOlane (fld p.th 235 226)
      (fun x => { x with squallHold := true, holdUntil := ticks s + rc s 0x6046 0 }) s := by
  simp only [squallArrive, ho, hx, beq_self_eq_true, decide_true, Bool.and_self, if_true]

/-- Settles O18: each service by what it finds of its path or lane, and the intervals once they are over. -/
theorem tradeLanesAtTheirOrigin : Obligations.TradeLanesAtTheirOrigin := by
  intro s
  refine ⟨fun qn o => ?service, fun l => ⟨fun hx ht => ?timeout, fun hx ht => ?hold⟩, fun p hd hw => ?notice⟩
  case service =>
    intro q l next
    refine ⟨fun hpow => ?noEngine, fun e c hpow hc => ⟨
      fun ho => ⟨fun hp => ?unreached, fun p b n hp hl hb => ?setup⟩,
      fun ho => ⟨fun hd hi => ?gathers, fun reason hd => ?sendDenied⟩,
      fun ho => ⟨fun hd hn => ?closes, fun reason hd => ?closeDenied⟩⟩⟩
    case noEngine =>
      simp only [List.forall_mem_cons, List.not_mem_nil, false_implies, implies_true, and_true]
      exact ⟨fun ho => effect_fin (laneService_noEngine _ ho hpow),
        fun ho => effect_fin (laneService_noEngine _ ho hpow), fun ho => effect_fin (laneService_noEngine _ ho hpow)⟩
    case unreached => exact effect_fin (laneOpen_unreached hpow hc rfl ho hp)
    case setup => exact fun hshare => effect_fin (laneOpen_setup hpow hc rfl ho hp hl hb hshare)
    case gathers => exact effect_fin (laneSendStart_gathers hpow hc rfl rfl ho hd hi)
    case sendDenied => exact effect_fin (laneSendStart_denied hpow hc rfl rfl ho hd)
    case closes => exact effect_fin (laneClose_closes hpow hc rfl rfl ho hd hn)
    case closeDenied => exact effect_fin (laneClose_denied hpow hc rfl rfl ho hd)
  case timeout => exact effect_fin (setupTimeout_due hx ht)
  case hold => exact effect_fin (squallExpiry_due hx ht)
  case notice => exact fun hown hx => effect_packetCommand hw hd (squallArrive_open hown hx)

/-! ### A setup passes a hop (R286) -/

section
variable {port : Nat} {p : Packet}

/-- A hop that refuses a setup answers the CODE and counts it. -/
theorem setupArrive_refused (hc : (setupCheck port p s).1 ≠ 0) :
    setupArrive port p s =
      sendReply port p.lane p.tclass p.tenant (lORIGIN p) (lLNUM p) (setupCheck port p s).1 (p.hops - 1)
        (bump 0x6068 (setupCheck port p s).1 (setupCheck port p s).2.2) := by
  simp only [setupArrive]
  exact if_pos hc

/-- The entry of a setup that passes in the state `s1`: tentative where it goes on. -/
def setupEntry (port : Nat) (p : Packet) (out : Option (Nat × Nat)) (s1 : State) : LaneEntry where
  inPort := port
  inLabel := p.lane
  origin := lORIGIN p
  lnum := lLNUM p
  tenant := p.tenant
  share := lSHARE p
  tclass := p.tclass
  out := out
  tentative := out.isSome
  deadline := ticks s1 + 2 * rc s1 0x6045 0

section
variable {s1 : State} {out : Option (Nat × Nat)} (hr : setupCheck port p s = (0, out, s1))
include hr

theorem setupArrive_goesOn {q b : Nat} (ho : out = some (q, b)) :
    setupArrive port p s = laneSend q b (laneFlow (lSHARE p) b p.tclass) none p
      (setLaneEntries (fun l => l ++ [setupEntry port p out s1]) (settleTags q s1)) := by
  subst ho
  simp only [setupArrive, hr]
  rfl

/-- At the far end the lane is known from its setup on, with the event queue of its tenant (R286, R388). -/
theorem setupArrive_farEnd (ho : out = none) :
    setupArrive port p s =
      let s2 := setLaneEntries (fun l => l ++ [setupEntry port p out s1]) s1
      let eqn := fld (rc s2 0x8438 ((acceptance s2 p.tenant).getD 0)) 47 28
      sendReply port p.lane p.tclass p.tenant (lORIGIN p) (lLNUM p) 0 (p.hops - 1)
        { s2 with me := { s2.me with
          farLanes := s2.me.farLanes ++ [{ id := s2.me.nextFar, origin := lORIGIN p, lnum := lLNUM p, eqn := eqn }]
          nextFar := s2.me.nextFar + 1 } } := by
  subst ho
  simp only [setupArrive, hr]
  rfl

end

/-! ### Replies, data and releases (R285, R286, R289 to R291, R388) -/

theorem replyArrive_own (ho : lORIGIN p = ownNode s) : replyArrive port p s = replyAtOrigin p s := if_pos ho

/-- Is a lane table entry the tentative one that a reply on its egress port answers? -/
def answeredBy (port : Nat) (p : Packet) (e : LaneEntry) : Bool :=
  e.out == some (port, p.lane) && e.tentative && !e.gone && e.origin == lORIGIN p && e.lnum == lLNUM p

theorem replyArrive_transit {e : LaneEntry} (ho : lORIGIN p ≠ ownNode s)
    (he : s.rt.lanes.find? (answeredBy port p) = some e) :
    replyArrive port p s = laneSend e.inPort e.inLabel e.tclass none p
      (if lCODE p = 0 then setLaneEntries (updFirst (answeredBy port p) fun e => { e with tentative := false }) s
       else setLaneEntries (eraseFirst (answeredBy port p)) (settleTags port s)) := by
  unfold answeredBy at he ⊢
  simp only [replyArrive, ho, he, if_false]

section
variable {held : Bool}

theorem dataArrive_unknown (he : laneEntry s port p.lane = none) :
    dataArrive port held p s = bump 0x6067 0 (if held then leaveIngress (some port) p s else s) := by
  simp only [dataArrive, he, when_]

variable {e : LaneEntry} (he : laneEntry s port p.lane = some e)
include he

theorem dataArrive_farEnd (ho : e.out = none) :
    dataArrive port held p s = farArrive port p e (if held then leaveIngress (some port) p s else s) := by
  simp only [dataArrive, he, ho, when_]

/-- In transit the packet stays in the receive buffer, and its LAST ends the entry (R289). -/
theorem dataArrive_goesOn {q b : Nat} (ho : e.out = some (q, b)) :
    dataArrive port held p s = laneSend q b (laneFlow e.share b e.tclass) (if held then some port else none) p
      (if lLAST p then endLaneEntry port p.lane (bumpG15 8 1 s) else bumpG15 8 1 s) := by
  simp only [dataArrive, he, ho, when_]

end

section
variable {e : LaneEntry} (he : laneEntry s port p.lane = some e)
include he

/-- A release goes on where the egress port carries it, and else drops the entry (R289, R291). -/
theorem releaseArrive_goesOn {q b : Nat} (ho : e.out = some (q, b)) :
    releaseArrive port p s =
      if carries s q then laneSend q b (laneFlow e.share b e.tclass) none p (endLaneEntry port p.lane s)
      else dropLaneEntry port p.lane s := by
  simp only [releaseArrive, he, ho]

theorem releaseArrive_farEnd (ho : e.out = none) :
    releaseArrive port p s = farReport (farEnd e.origin e.lnum false (dropLaneEntry port p.lane s)) := by
  simp only [releaseArrive, he, ho]

end

theorem tentativeTimeout_due {label : Nat} {e : LaneEntry} (he : laneEntry s port label = some e)
    (ht : e.tentative = true) (hd : e.deadline ≤ ticks s) :
    tentativeTimeout port label s = dropLaneEntry port label s := by
  simp only [tentativeTimeout, he, ht, hd, decide_true, Bool.and_self, if_true]

end

/-! ### The commands that bring a lane packet on its port -/

section
variable {port : Fin 72} {p : Packet}

theorem exec_laneSetupArrive : exec (.laneSetupArrive port p) s =
    portCommand tLANESETUP (fun _ => true) port p (setupArrive port) s := rfl
theorem exec_laneReplyArrive : exec (.laneReplyArrive port p) s =
    portCommand tLANEREPLY (fun _ => true) port p (replyArrive port) s := rfl
theorem exec_laneReleaseArrive : exec (.laneReleaseArrive port p) s =
    portCommand tLANEREL (fun _ => true) port p (releaseArrive port) s := rfl

/-- LANE_DATA is taken without its cells (R285). -/
theorem effect_laneDataArrive {t1 : State} (hw : (Instr.laneDataArrive port p).wf = true) (hd : domOn s dCX = true)
    (h : dataArrive port (heldAt port p s) p (takeIngress port p false s) = t1) :
    Effect (exec (.laneDataArrive port p) s) (fun t => t = t1) := by
  have hexec : exec (.laneDataArrive port p) s =
      inCX (fun s => dataArrive port (heldAt port p s) p (takeIngress port p false s)) s := if_pos hw
  rw [hexec]
  exact effect_inCX hd h

end

/-- Settles O19: each packet by what its hop finds, a setup by its checks, the others by the entry they name. -/
theorem tradeLanesAtTheirHops : Obligations.TradeLanesAtTheirHops := by
  intro s
  refine ⟨fun hd port p => ?packets, fun port label => ⟨effect_fin rfl,
    fun e he ht hdue => effect_fin (tentativeTimeout_due he ht hdue)⟩⟩
  case packets =>
    refine ⟨fun hw => ?setup, fun hw => ?reply, fun hw => ?data, fun hw e he => ?release⟩
    case setup =>
      rw [exec_laneSetupArrive]
      refine ⟨fun hc => effect_portCommand hw rfl hd (setupArrive_refused hc),
        fun hc => effect_portCommand hw rfl hd ⟨fun q b ho => ?goesOn, fun ho => ?farEnd⟩⟩
      case goesOn => exact setupArrive_goesOn (Prod.ext hc rfl) ho
      case farEnd => exact setupArrive_farEnd (Prod.ext hc rfl) ho
    case reply =>
      rw [exec_laneReplyArrive]
      exact ⟨fun ho => effect_portCommand hw rfl hd (replyArrive_own ho),
        fun e ho he => effect_portCommand hw rfl hd (replyArrive_transit ho he)⟩
    case data =>
      exact ⟨fun he => effect_laneDataArrive hw hd (dataArrive_unknown he),
        fun e he ho => effect_laneDataArrive hw hd (dataArrive_farEnd he ho),
        fun e q b he ho => effect_laneDataArrive hw hd (dataArrive_goesOn he ho)⟩
    case release =>
      rw [exec_laneReleaseArrive]
      exact ⟨fun q b ho => effect_portCommand hw rfl hd (releaseArrive_goesOn he ho),
        fun ho => effect_portCommand hw rfl hd (releaseArrive_farEnd he ho)⟩

end
end Sys2Proof.Machine
end

section
/-!
SUPPORT. Flow control and the link layer at the sender (10_flow_and_scheduling.md R298 to R316, 11_link_layer.md R327
to R342): the start of a packet, gates, samples and markers, a cell slot, and the timers of a link.
-/
namespace Sys2Proof.Machine

section
variable {s : State} {p : Nat}

/-! ### Packets, gates, samples and markers (R298, R302, R303, R307, R316) -/

/-- The packet that egress selection picks starts where the link may start one of its cost. -/
theorem packetStart_picked {q : QPkt} (hq : pickStart (settleTags p s) p = some q)
    (hm : mayStartPacket (settleTags p s) p q.cost = true) :
    packetStart p s = assignTags p (setPL p
      (fun x => { x with current := some { packet := q.packet, cells := packetCells q.packet } })
      (bumpPortVc p q.packet.vc 0 1 (chargeStart p q (settleTags p s)))) := by
  simp only [packetStart, hq, hm, if_true]

theorem exec_gateBoundary {p : Fin 72} :
    exec (.gateBoundary p) s = inCX (fun s => assignTags p.val (refreshGates p.val s)) s := rfl

/-- A sample instant that has come outside FREE is passed over once: sampled, or its skip counted. -/
theorem sampleDue_reached {n : Nat} (skip : Bool) (hn : rc s 0x6860 0 = n) (h0 : n ≠ 0) (hf : timeFree s = false)
    (hk : s.fs.nextSample ≤ now s / n) :
    sampleDue skip s =
      let s1 := { s with fs := { s.fs with nextSample := now s / n + 1 } }
      if skip then bump 0x6866 0 s1 else sample (now s / n * n) false s1 := by
  subst hn
  simp only [sampleDue, h0, hf, hk, decide_false, Bool.or_self, Bool.false_eq_true, if_true, if_false]

theorem markerInterval_over (hx : (portLink s p).state = .active) (ht : (portFlow s p).markerAt ≤ ticks s) :
    markerInterval p s = setPL p (fun x => { x with markDue := true })
      (setFlow p (fun x => { x with markerAt := ticks s + rc s 0x6803 0 }) s) := by
  simp only [markerInterval, hx, ht, beq_self_eq_true, decide_true, Bool.and_self, if_true]

/-! ### A cell slot (R329, R339) -/

/-- A framed port that drops no lane by load, sends no test stream and is not RESUMING gives its slot to the link. -/
theorem cellSlot_link (hr : (portLink s p).state ≠ .resuming) (hf : framed s p = true)
    (hl : allLanes.any (fun l => (laneOf (portLanes s p) l).drop == .load) = false) (ht : testFramed s p = false) :
    cellSlot p s =
      if (portLink s p).state = .active then activeSlot p (countHeld p s)
      else if exchanging s p = true then exchangeSlot p s else sendIdle p s := by
  have hstate : ((portLink s p).state == .resuming) = false := beq_eq_false_iff_ne.2 hr
  simp only [cellSlot, when_, hl, hstate, hf, ht, Bool.not_true, Bool.false_eq_true, if_false, beq_iff_eq]

theorem exchangeSlot_idle (h : (portLink s p).sinceTrain + 1 < 256) :
    exchangeSlot p s = sendIdle p (setPL p (fun x => { x with sinceTrain := x.sinceTrain + 1 }) s) :=
  if_neg (Nat.not_le.2 h)

theorem exchangeSlot_train (h : 256 ≤ (portLink s p).sinceTrain + 1) :
    exchangeSlot p s = exchangeDone p (sendCell p kTRAIN 0 false false 0 (0, 0) (0, 0)
      (beBytes 256 (trainRecord s p))
      (setPL p (fun x => { x with sinceTrain := 0, sentSeen := x.sentSeen || x.peerRec.isSome }) s)) :=
  if_pos h

/-! ### The timers of a link (R332, R339, R341, R342) -/

/-- A replay timeout that has run out: every cell in replay is due, and it is counted. -/
def replayTimedOut (p : Nat) (s : State) : State :=
  bump 0x5824 p (setPL p (fun x => { x with timeouts := x.timeouts + 1 }) (replayAll p s))

/-- Timeout and limit are those of the oldest cell in replay, fixed when it was sent (R332, log entry 201). -/
theorem replayTimeout_over {c : SCell} {r : List SCell} (hx : (portLink s p).state = .active)
    (hc : (portLink s p).replay = c :: r) (ht : c.timeoutAt ≤ ticks s) (hd : c.due = false) :
    replayTimeout p s =
      if c.allowed ≤ (portLink (replayTimedOut p s) p).timeouts then linkDown p (replayTimedOut p s)
      else replayTimedOut p s := by
  simp only [replayTimeout, hc, List.head?_cons, hx, ht, hd, beq_self_eq_true, decide_true, Bool.not_false,
    Bool.and_self, if_true]
  rfl

theorem silence_over (hx : (portLink s p).state = .active) (ht : (portLink s p).silentAt ≤ ticks s) :
    silence p s = linkDown p s := by
  simp only [silence, hx, ht, beq_self_eq_true, decide_true, Bool.and_self, if_true]

/-- The end of the grace period: with the lanes locked the exchange goes on, else bring-up starts. -/
theorem graceExpiry_over (hx : (portLink s p).state = .resuming) (ht : (portLink s p).deadline ≤ ticks s) :
    graceExpiry p s =
      let s1 := flush p (portFlushed p s)
      if (portLanes s1 p).bringUp = .locked then setPL p (fun x => { x with state := .exchange }) s1
      else startBringUp p (setPL p (fun x => { x with state := .lanes }) s1) := by
  simp only [graceExpiry, hx, ht, beq_self_eq_true, decide_true, Bool.and_self, if_true, beq_eq_decide,
    decide_eq_true_eq]

theorem leaveHeld_held (hx : (portLink s p).state = .held) :
    leaveHeld p s = endCondition 12 p (endCondition 13 p (setPL p (fun x => { x with holdReason := 0 }) s)) := by
  simp only [leaveHeld, hx, beq_self_eq_true, if_true]

theorem heldRetry_over (hx : (portLink s p).state = .held) (ht : (portLink s p).deadline ≤ ticks s) :
    heldRetry p s = beginExchange p (setPL p (fun x => { x with state := .exchange }) (leaveHeld p s)) := by
  simp only [heldRetry, hx, ht, beq_self_eq_true, decide_true, Bool.and_self, if_true]

theorem retrain_up (hx : (portLink s p).state = .active ∨ (portLink s p).state = .resuming) :
    retrain p s = flushRetrain p s := by
  obtain hx | hx := hx <;> simp only [retrain, hx]

/-- A sample taken a second after the one before it enters the mean of the last sixteen. -/
theorem roundTrip_due {sample : Nat} (hx : (portLink s p).state = .active) (ht : (portLink s p).sampleAt ≤ ticks s) :
    roundTrip p sample s =
      let l := ((portLink s p).samples ++ [sample]).drop ((portLink s p).samples.length + 1 - 16)
      setPL p (fun x => { x with samples := l, rtt := mean l, sampleAt := ticks s + 2 ^ 32 }) s := by
  simp only [roundTrip, hx, ht, beq_self_eq_true, decide_true, Bool.and_self, if_true]

end

/-- Settles O20: a start by what selection picks, a cell slot by the state of the link, and each instant and timer,
once it has come, by its effect. -/
theorem portsSendPacketsAndCells : Obligations.PortsSendPacketsAndCells := by
  intro s p hd x
  refine ⟨fun q => ?start, ?gates, fun n hn h0 hf hk => ⟨?sampled, ?skipped⟩, fun hx ht => ?marker,
    fun hr hf hl ht => ?slot, fun c r hx hc ht hdue => ?replay, fun hx ht => ?silence, fun hx ht => ?grace,
    fun hx ht => ?held, fun hx => ?retrain, fun sample hx ht => ?roundTrip⟩
  case start =>
    intro s1 hq hm
    exact effect_inCX hd (packetStart_picked hq hm)
  case gates =>
    rw [exec_gateBoundary]
    exact effect_inCX hd rfl
  case sampled => exact effect_inCX hd (sampleDue_reached false hn h0 hf hk)
  case skipped => exact effect_inCX hd (sampleDue_reached true hn h0 hf hk)
  case marker => exact effect_inCX hd (markerInterval_over hx ht)
  case slot =>
    have hslot := cellSlot_link hr hf hl ht
    refine ⟨fun hx => effect_inCX hd (hslot.trans (if_pos hx)), fun hx he => effect_inCX hd ?_,
      fun hx he => effect_inCX hd ?_⟩
    · rw [hslot, if_neg hx, if_pos he]
      exact ⟨exchangeSlot_idle, exchangeSlot_train⟩
    · rw [hslot, if_neg hx, he]
      exact if_neg Bool.false_ne_true
  case replay => exact effect_inCX hd (replayTimeout_over hx hc ht hdue)
  case silence => exact effect_inCX hd (silence_over hx ht)
  case grace =>
    have hgrace := graceExpiry_over hx ht
    exact effect_inCX hd ⟨fun hb => hgrace.trans (if_pos hb), fun hb => hgrace.trans (if_neg hb)⟩
  case held => exact effect_inCX hd ((heldRetry_over hx ht).trans (by rw [leaveHeld_held hx]))
  case retrain => exact effect_inCX hd (retrain_up hx)
  case roundTrip => exact effect_inCX hd (roundTrip_due hx ht)

end Sys2Proof.Machine
end

section
/-!
SUPPORT. Cells at the receiver (11_link_layer.md R324, R325, R330, R331, R339; 12_lanes_and_optics.md R358): the receive
crossing, the checks of a cell, and what a cell that passes them does by its own KIND.
-/
namespace Sys2Proof.Machine

section
variable {s : State} {p : Nat} {c : RawCell} {matched : Option Bool}

/-! ### The receive crossing (R358) -/

/-- The depth of the receive crossing once the clocks have drifted by `drift` cells. -/
def driftedDepth (p : Nat) (drift : BitVec 9) (s : State) : Int :=
  (portLanes s p).crossing + (if compensating s p then drift.toInt else 0)

/-- Rate matching deletes an IDLE cell. -/
def idleDeleted (p : Nat) (drift : BitVec 9) (s : State) : State :=
  setLanes p (fun x => { x with
    crossing := min 128 (driftedDepth p drift s - 1).toNat, compDeleted := x.compDeleted + 1 }) s

/-- Rate matching inserts an IDLE cell beside the one that passes. -/
def idleInserted (p : Nat) (drift : BitVec 9) (s : State) : State :=
  setLanes p (fun x => { x with
    crossing := min 128 (driftedDepth p drift s + 1).toNat, compInserted := x.compInserted + 1 }) s

/-- What the crossing does with an IDLE cell, by its depth and its goal. -/
theorem rateMatch_idle {drift : BitVec 9} :
    rateMatch p drift true matched s =
      let d := driftedDepth p drift s
      let goal : Int := crossingGoal s p
      if decide (goal < d) && (matched == some true || decide (128 < d) || !compensating s p) then
        (true, idleDeleted p drift s)
      else if decide (d < goal) && compensating s p && (matched == some false || decide (d < 0)) then
        (false, idleInserted p drift s)
      else (decide (d < 0) || decide (128 < d), setLanes p (fun x => { x with crossing := min 128 d.toNat }) s) := rfl

/-- Above the goal an IDLE cell that rate matching is to delete is deleted. -/
theorem rateMatch_deletes {drift : BitVec 9} (hd : (crossingGoal s p : Int) < driftedDepth p drift s) :
    rateMatch p drift true (some true) s = (true, idleDeleted p drift s) := by
  simp [rateMatch_idle, hd]

/-- Below the goal, in compensation mode, an IDLE cell passes and another one is inserted beside it. -/
theorem rateMatch_inserts {drift : BitVec 9} (hd : driftedDepth p drift s < (crossingGoal s p : Int))
    (hcomp : compensating s p = true) :
    rateMatch p drift true (some false) s = (false, idleInserted p drift s) := by
  simp [rateMatch_idle, hd, not_lt_of_gt hd, hcomp]

/-! ### The checks of a cell (R324) -/

/-- The cell as it was sent: its CRC matches. -/
abbrev crcMatches (c : RawCell) : Prop := cellCrc c.hdr.toNat c.payload = c.crc.toNat

/-- What rate matching takes for an IDLE cell. -/
def isIdleCell (c : RawCell) : Bool :=
  cellCrc c.hdr.toNat c.payload = c.crc.toNat && fld c.hdr.toNat 95 92 = kIDLE

/-- The cell at the receive crossing: whether it is lost or deleted there, and the state that the crossing leaves. -/
def atCrossing (p : Nat) (c : RawCell) (matched : Option Bool) (s : State) : Bool × State :=
  rateMatch p c.drift (isIdleCell c) matched s

theorem isIdleCell_of_kind (hc : crcMatches c) (hk : fld c.hdr.toNat 95 92 = kIDLE) : isIdleCell c = true := by
  simp only [isIdleCell, hc, hk, decide_true, Bool.and_self]

theorem atCrossing_deletes (hc : crcMatches c) (hk : fld c.hdr.toNat 95 92 = kIDLE)
    (hd : (crossingGoal s p : Int) < driftedDepth p c.drift s) :
    atCrossing p c (some true) s = (true, idleDeleted p c.drift s) := by
  rw [atCrossing, isIdleCell_of_kind hc hk, rateMatch_deletes hd]

theorem atCrossing_inserts (hc : crcMatches c) (hk : fld c.hdr.toNat 95 92 = kIDLE)
    (hd : driftedDepth p c.drift s < (crossingGoal s p : Int)) (hcomp : compensating s p = true) :
    atCrossing p c (some false) s = (false, idleInserted p c.drift s) := by
  rw [atCrossing, isIdleCell_of_kind hc hk, rateMatch_inserts hd hcomp]

/-- A cell that passed R324 is counted and starts the silence limit anew (R342). -/
def cellHeard (p : Nat) (s : State) : State :=
  setPL p (fun x => { x with silentAt := silentFrom s }) (bump 0x5821 p s)

/-- The ACK and the NAK_MAP of a header are taken (R325, R331). -/
def ackNak (p h : Nat) (s : State) : State :=
  nakTo p (fld h 68 53) (fld h 52 37) (ackTo p (fld h 68 53) s)

/-- A sequenced cell as the receiver stores it at `t` (R330). -/
def receivedCell (c : RawCell) (t : Nat) : RCell :=
  let h := c.hdr.toNat
  { seq := fld h 84 69, kind := fld h 95 92, vc := fld h 91 87, sop := bit h 86, eop := bit h 85
    cra := (fld h 36 32, fld h 31 26), crb := (fld h 25 21, fld h 20 15), payload := c.payload, arrived := t }

/-- What a cell that passed R324 does by its own KIND (R322). -/
def cellByKind (p : Nat) (c : RawCell) (s : State) : State :=
  let kind := fld c.hdr.toNat 95 92
  let active := (portLink s p).state == .active
  let s := if active && kind ≠ kTRAIN then ackNak p c.hdr.toNat s else s
  if kind = kTRAIN then receiveTrain p c.payload s
  else if kind = kIDLE || !active then s
  else receiveSeq p (receivedCell c (now s)) s

/-- A framed port takes a cell through the crossing, the CRC check and the format check, in this order. -/
theorem receiveCell_framed (hf : framed s p = true) :
    receiveCell p c matched s =
      let s0 := (atCrossing p c matched s).2
      if (atCrossing p c matched s).1 = true then s0
      else if ¬ crcMatches c then bump 0x5822 p s0
      else if formatBad c.hdr.toNat = true then bump 0x5826 p s0
      else cellByKind p c (cellHeard p s0) := by
  have hguard : ¬ (!framed s p) = true := by rw [hf]; decide
  exact if_neg hguard

theorem receiveCell_lost (hf : framed s p = true) (hl : (atCrossing p c matched s).1 = true) :
    receiveCell p c matched s = (atCrossing p c matched s).2 :=
  (receiveCell_framed hf).trans (if_pos hl)

theorem receiveCell_badCrc (hf : framed s p = true) (hl : (atCrossing p c matched s).1 = false)
    (hc : ¬ crcMatches c) : receiveCell p c matched s = bump 0x5822 p (atCrossing p c matched s).2 := by
  rw [receiveCell_framed hf, hl]
  exact if_pos hc

theorem receiveCell_badFormat (hf : framed s p = true) (hl : (atCrossing p c matched s).1 = false)
    (hc : crcMatches c) (hb : formatBad c.hdr.toNat = true) :
    receiveCell p c matched s = bump 0x5826 p (atCrossing p c matched s).2 := by
  rw [receiveCell_framed hf, hl, hb]
  exact if_neg (not_not_intro hc)

theorem receiveCell_taken (hf : framed s p = true) (hl : (atCrossing p c matched s).1 = false)
    (hc : crcMatches c) (hb : formatBad c.hdr.toNat = false) :
    receiveCell p c matched s = cellByKind p c (cellHeard p (atCrossing p c matched s).2) := by
  rw [receiveCell_framed hf, hl, hb]
  exact if_neg (not_not_intro hc)

/-! ### The record of a TRAIN cell (R339, R342) -/

/-- A TRAIN cell takes an ACTIVE link down (R342). -/
theorem receiveTrain_active {payload : List Byte} (hx : (portLink s p).state = .active) :
    receiveTrain p payload s = later (.linkDown p) s := by
  simp only [receiveTrain, hx, beq_self_eq_true, if_true]

/-- A round-trip sample is taken where the record echoes a time, unless it would be negative. -/
theorem append_sample (l : List Nat) (echo hold t : Nat) :
    (l ++ if (decide (echo = 0) || decide (t < echo + hold)) = true then [] else [t - echo - hold]) =
      if echo = 0 ∨ t < echo + hold then l else l ++ [t - (echo + hold)] := by
  by_cases h : echo = 0 ∨ t < echo + hold <;> simp [h, Nat.sub_sub]

/-- In an exchange a valid record is kept, and one that echoes a time gives a round-trip sample, unless a negative
one (R339). -/
theorem receiveTrain_valid {payload : List Byte} (hx : (portLink s p).state ≠ .active)
    (he : exchanging s p = true) (hr : fld (beNat payload) 2002 2000 = 0) (hr' : fld (beNat payload) 1759 0 = 0) :
    receiveTrain p payload s =
      let m := beNat payload
      let back := fld m 1855 1792 + fld m 1791 1760
      exchangeDone p (setPL p (fun x => { x with
        peerRec := some m
        peerRecAt := ticks s
        peerSeen := x.peerSeen || bit m 2004
        samples := if fld m 1855 1792 = 0 ∨ now s < back then x.samples
          else x.samples ++ [now s - back] }) s) := by
  have hstate : ((portLink s p).state == .active) = false := beq_eq_false_iff_ne.2 hx
  simp only [receiveTrain, hstate, he, hr, hr', Bool.not_true, ne_eq, not_true_eq_false, decide_false, Bool.or_self,
    Bool.false_eq_true, if_false, append_sample]

/-! ### A cell by its own KIND (R322, R325, R330, R331) -/

/-- On an ACTIVE link a cell other than a TRAIN cell gives its ACK and NAK_MAP. -/
theorem cellByKind_active (hx : (portLink s p).state = .active) (hk : fld c.hdr.toNat 95 92 ≠ kTRAIN) :
    cellByKind p c s =
      let s2 := ackNak p c.hdr.toNat s
      if fld c.hdr.toNat 95 92 = kIDLE then s2 else receiveSeq p (receivedCell c (now s2)) s2 := by
  simp only [cellByKind, hx, hk, beq_self_eq_true, ne_eq, not_false_eq_true, decide_true, Bool.and_self, if_true,
    if_false, Bool.not_true, Bool.or_false, decide_eq_true_eq]

/-- In another state a cell other than a TRAIN cell does nothing more. -/
theorem cellByKind_inactive (hx : (portLink s p).state ≠ .active) (hk : fld c.hdr.toNat 95 92 ≠ kTRAIN) :
    cellByKind p c s = s := by
  have hstate : ((portLink s p).state == .active) = false := beq_eq_false_iff_ne.2 hx
  simp only [cellByKind, hstate, hk, Bool.false_and, Bool.not_false, Bool.or_true, Bool.false_eq_true, if_false,
    if_true]

theorem cellByKind_train (hk : fld c.hdr.toNat 95 92 = kTRAIN) : cellByKind p c s = receiveTrain p c.payload s := by
  simp only [cellByKind, hk, ne_eq, not_true_eq_false, decide_false, Bool.and_false, Bool.false_eq_true, if_false,
    if_true]

end

/-! ### The six commands that bring a cell -/

/-- The commands that bring the cell `c` to the port `p`, each with what it tells rate matching. -/
def cellCommands (p : Fin 72) (c : RawCell) (m : Option Bool) : List (Instr × Option Bool) :=
  [(.dataCellReceive p c, none), (.creditCellReceive p c, none), (.syncMarkReceive p c, none),
    (.syncReplyReceive p c, none), (.trainCellReceive p c, none), (.idleCellReceive p c m, m)]

/-- Whichever command brings it, a cell is received alike. -/
theorem exec_cellCommands {p : Fin 72} {c : RawCell} {m : Option Bool} {x : Instr × Option Bool} {s : State}
    (hx : x ∈ cellCommands p c m) : exec x.1 s = inCX (receiveCell p.val c x.2) s := by
  simp only [cellCommands, List.mem_cons, List.not_mem_nil, or_false] at hx
  obtain rfl | rfl | rfl | rfl | rfl | rfl := hx <;> rfl

theorem effect_cellCommands {p : Fin 72} {c : RawCell} {m : Option Bool} {x : Instr × Option Bool} {s : State}
    {P : State → Prop} (hd : domOn s dCX = true) (hx : x ∈ cellCommands p c m)
    (hp : P (receiveCell p.val c x.2 s)) : Effect (exec x.1 s) P := by
  rw [exec_cellCommands hx]
  exact effect_inCX hd hp

/-- Settles O21: the six commands receive a cell alike, by the crossing, the checks and then its own KIND; rate
matching deletes an IDLE cell above the goal and inserts one below it. -/
theorem receivedCellsTakeEffect : Obligations.ReceivedCellsTakeEffect := by
  intro s p c hd hf h kind good idle
  refine ⟨fun m x hx => ?alike, fun hc hk => ⟨fun hgoal => ?deletes, fun hgoal hcomp => ?inserts⟩⟩
  case alike =>
    refine ⟨fun hl => effect_cellCommands hd hx (receiveCell_lost hf hl),
      fun hl hc => effect_cellCommands hd hx (receiveCell_badCrc hf hl hc), fun hl hc =>
      ⟨fun hb => effect_cellCommands hd hx (receiveCell_badFormat hf hl hc hb), fun hb => ?_⟩⟩
    have htaken := receiveCell_taken hf hl hc hb
    refine ⟨fun hactive => effect_cellCommands hd hx ⟨fun hk => ?sequenced, fun hk => ?idle, fun hk => ?down⟩,
      fun hother => effect_cellCommands hd hx ⟨fun hk => ?nothing, fun hk he hr hr' => ?record⟩⟩
    case sequenced =>
      have htrain : kind ≠ kTRAIN := by unfold kTRAIN; omega
      have hidle : kind ≠ kIDLE := by unfold kIDLE; omega
      exact htaken.trans ((cellByKind_active hactive htrain).trans (if_neg hidle))
    case idle =>
      have htrain : kind ≠ kTRAIN := by unfold kTRAIN; omega
      exact htaken.trans ((cellByKind_active hactive htrain).trans (if_pos hk))
    case down => exact htaken.trans ((cellByKind_train hk).trans (receiveTrain_active hactive))
    case nothing => exact htaken.trans (cellByKind_inactive hother hk)
    case record => exact htaken.trans ((cellByKind_train hk).trans (receiveTrain_valid hother he hr hr'))
  case deletes =>
    have hr := atCrossing_deletes hc hk hgoal
    exact effect_inCX hd ((receiveCell_lost hf (congrArg Prod.fst hr)).trans (congrArg Prod.snd hr))
  case inserts =>
    intro s0 s1 hb hother
    have hr : atCrossing p.val c (some false) s = (false, s0) := atCrossing_inserts hc hk hgoal hcomp
    have htrain : kind ≠ kTRAIN := by unfold kTRAIN; omega
    refine effect_inCX hd ((receiveCell_taken hf (congrArg Prod.fst hr) hc hb).trans ?_)
    rw [hr]
    exact cellByKind_inactive hother htrain

end Sys2Proof.Machine
end

section
/-!
SUPPORT. The canonical form of the byte memories and the register files (13_message_engines.md R373, R374,
15_context_memory.md R432, 16_register_window.md R464): every command of the table keeps it, and so does a step.
-/
namespace Sys2Proof.Machine

/-! ### Conditions, and updates of a context that leave its registers -/

section
variable {q : List Instr} {s : State}

theorem good_ite {c : Prop} [Decidable c] {t : State} (h1 : Good q s) (h2 : Good q t) :
    Good q (if c then s else t) := keep_ite h1 h2

theorem goodO_ite {c : Prop} [Decidable c] {o1 o2 : Out3} (h1 : GoodO q o1) (h2 : GoodO q o2) :
    GoodO q (if c then o1 else o2) := keep_ite h1 h2

theorem setCtx_good_of_regs {e c : Nat} {f : ECtx → ECtx} (h : Good q s)
    (hf : ∀ x, (f x).regs = x.regs := by exact fun _ => rfl) : Good q (setCtx e c f s) :=
  setCtx_good e c f (fun x hx => (hf x).symm ▸ hx) h

end

/-! ### Commands whose meaning is written out in their arm -/

section
variable {q : List Instr} {s : State}

theorem execEpochLost_good (h : Good q s) : GoodO q (execEpochLost s) :=
  inAO_good (fun _ h => good_ite h (epochLost_good h)) h

theorem execSlewEnd_good (h : Good q s) : GoodO q (execSlewEnd s) :=
  inAO_good (fun _ h => good_ite (setTb_good _ h) h) h

theorem execSourcePeerLost_good (h : Good q s) : GoodO q (execSourcePeerLost s) :=
  inAO_good (fun s h => by cases hp : s.tb.srcPort <;> simp only; exacts [h, good_ite h (loseSource_good h)]) h

theorem execCalibrationComplete_good {ppb : BitVec 32} (h : Good q s) : GoodO q (execCalibrationComplete ppb s) :=
  inAO_good (fun _ h => good_ite (setTb_good _ h) h) h

/-- A write of a host to one of the registers of a function: discarded, poisoned, or taken by its BAR. -/
theorem execRegisterWrite_good {fn : Fin 514} {loc : RegLoc} {data : List Byte} {poisoned : Bool} (h : Good q s) :
    GoodO q (execRegisterWrite fn loc data poisoned s) := by
  have hpoisoned := fin_good (poisonedWrite_good fn.val h)
  cases loc with
  | config r => exact fin_good (configWrite_good _ _ h)
  | bar0 off => exact goodO_ite (goodO_next h) (goodO_ite hpoisoned (fin_good (bar0Write_good _ _ _ h)))
  | bar2 off => exact goodO_ite (goodO_next h) (goodO_ite hpoisoned (bar2Command_good _ _ _ h))
  | bar4 off => exact goodO_ite (goodO_next h) (goodO_ite hpoisoned (goodO_next h))

theorem execReplicaCheck_good {diffs : List (Fin 9 × BitVec 16 × Nat)} (h : Good q s) :
    GoodO q (execReplicaCheck diffs s) :=
  inCX_good (fun _ h => good_ite (replicaCheck_good _ (Good.mkS h)) h) h

theorem execLaneDataArrive_good {port : Fin 72} {p : Packet} (h : Good q s) : GoodO q (execLaneDataArrive port p s) :=
  goodO_ite (inCX_good (fun _ h => dataArrive_good _ _ _ (takeIngress_good _ _ _ h)) h) (goodO_next h)

theorem execWorkItemDispatch_good {control : Bool} (h : Good q s) : GoodO q (execWorkItemDispatch control s) :=
  fin_good (dispatchItems_good _ (Good.mkMe h meOk_mk))

theorem execDmaMoveComplete_good {e : Fin 96} {c : Fin 4} {tag : BitVec 64} {given : MoveInput} {st : BitVec 8}
    (h : Good q s) : GoodO q (execDmaMoveComplete e c tag given st s) := by
  unfold execDmaMoveComplete
  split
  · exact goodO_next h
  · exact goodO_ite (goodO_next h) (fin_good (moveGo_good _ _ _ _ _ h))

theorem execScrubRead_good {k : Fin 2} {ecc : Ecc} (h : Good q s) : GoodO q (execScrubRead k ecc s) := by
  refine goodO_ite (goodO_next h) ?_
  have hread := bumpStack_good k 6 1 (setStack_good k (fun t => { t with
    scrub := (t.scrub + 1) % (stackBytes / 32)
    passAt := if t.scrub = 0 then ticks s else t.passAt
    passTicks := if t.scrub = 0 then rc s 0x8830 0 * 2 ^ 32 else t.passTicks }) h)
  refine goodO_ite (fin_good hread) ?_
  cases ecc with
  | clean => exact fin_good hread
  | correctable => exact fin_good (cmRecord_good _ _ _ _ (bump_good _ _ hread))
  | uncorrectable => exact fin_good (poisonGranule_good _ _ hread)

theorem execSensorScan_good {x : Scan} (h : Good q s) : GoodO q (execSensorScan x s) :=
  goodO_ite (fin_good (scanOptics_good _ (scanSensors_good _ (Good.mkS h)))) (goodO_next h)

theorem execBreezeKeepaliveExpiry_good (h : Good q s) : GoodO q (execBreezeKeepaliveExpiry s) :=
  inAO_good (fun _ h => good_ite h (Good.mkS h)) h

theorem execStackTrainingComplete_good {k : Fin 2} {ok : Bool} (h : Good q s) :
    GoodO q (execStackTrainingComplete k ok s) :=
  goodO_ite (fin_good (good_when (fun _ => mirrorPlaced_good) (setStack_good _ _ h))) (goodO_next h)

/-! ### The instructions of the engines that are no operations over registers -/

variable {w : Issue} {rd ra rb : Fin 32} {imm : BitVec 16} {sel : BitVec 12}

theorem execLd2w_good (h : Good q s) : GoodO q (execLd2w w rd ra imm s) :=
  finO_good (meRun_good _ _ _ (fun _ h => goodO_ite (goodO_next (trapHere_good _ _ _ _ h))
    (doLoad_good _ _ _ _ _ _ _ h)) h)

theorem execSt2w_good (h : Good q s) : GoodO q (execSt2w w rd ra imm s) :=
  finO_good (meRun_good _ _ _ (fun _ h => goodO_ite (goodO_next (trapHere_good _ _ _ _ h))
    (doStore_good _ _ _ _ h)) h)

theorem execLrsv_good (h : Good q s) : GoodO q (execLrsv w rd ra imm s) := by
  refine finO_good (meRun_good _ _ _ (fun s h => ?_) h)
  dsimp only
  split
  · exact goodO_next (trapHere_good _ _ _ _ h)
  · exact goodO_next (trapHere_good _ _ _ _ h)
  · exact goodO_next (localLoad_good _ _ _ _ _
      (fun _ _ h => setCtx_good_of_regs (loadDone_good _ _ _ _ _ _ _ h))
      (seeRange_good _ _ _ _ (sampleAccess_good _ _ _ _ h)))

theorem execScnd_good (h : Good q s) : GoodO q (execScnd w rd ra rb s) := by
  refine finO_good (meRun_good _ _ _ (fun s h => ?_) h)
  dsimp only
  split
  · exact goodO_next (trapHere_good _ _ _ _ h)
  · exact goodO_next (trapHere_good _ _ _ _ h)
  · have hended := sampleAccess_good w.engine w.ctx (placeOf (reg s w.engine w.ctx ra).toNat 8)
      (reg s w.engine w.ctx ra).toNat
      (setCtx_good_of_regs (e := w.engine) (c := w.ctx) (f := fun x => { x with resv := none }) h)
    refine goodO_ite (goodO_next (finish_good _ _ _ _ (bump_good _ _ ?_)))
      (goodO_next (finish_good _ _ _ _ (bump_good _ _ hended)))
    split
    · exact cmemStore_good _ _ _ _ _ hended
    · exact contextStore_good _ _ _ _ _ hended
    · exact hended

theorem execFenceO_good (h : Good q s) : GoodO q (execFenceO w s) :=
  finO_good (meRun_good _ _ _ (fun _ h => goodO_next (nextPc_good _ _ (fenceCluster_good _ _ h))) h)

theorem execFenceP_good (h : Good q s) : GoodO q (execFenceP w s) :=
  finO_good (meRun_good _ _ _ (fun _ h => goodO_next (fenceCheck_good _ _ (fenceAsk_good _ _ _
    (block_good _ _ _ (setCtx_good_of_regs h))))) h)

theorem execCall_good {off : BitVec 26} (h : Good q s) : GoodO q (execCall w off s) :=
  finO_good (meRun_good _ _ _ (fun _ h => goodO_next (retire_good _ _ (setPc_good _ _ _ (setReg_good _ _ _ _ h)))) h)

theorem execJump_good {off : BitVec 26} (h : Good q s) : GoodO q (execJump w off s) :=
  finO_good (meRun_good _ _ _ (fun _ h => goodO_next (retire_good _ _ (setPc_good _ _ _ h))) h)

theorem execCallr_good (h : Good q s) : GoodO q (execCallr w rd ra imm s) :=
  finO_good (meRun_good _ _ _ (fun _ h => goodO_next (retire_good _ _ (setPc_good _ _ _ (setReg_good _ _ _ _ h)))) h)

theorem execRds_good (h : Good q s) : GoodO q (execRds w rd ra sel s) :=
  finO_good (meRun_good _ _ _ (fun _ h => goodO_ite (goodO_next (trapHere_good _ _ _ _ h))
    (goodO_ite (goodO_next (trapHere_good _ _ _ _ h))
      (goodO_next (finish_good _ _ _ _ (good2_snd (readSpecial_good _ _ _ h)))))) h)

theorem execWrs_good (h : Good q s) : GoodO q (execWrs w rd ra sel s) :=
  finO_good (meRun_good _ _ _ (fun _ h => goodO_ite (goodO_next (trapHere_good _ _ _ _ h))
    (goodO_ite (goodO_next (trapHere_good _ _ _ _ h))
      (goodO_next (nextPc_good _ _ (setCtx_good _ _ _
        (fun x hx => (writeSpecial_regs _ _ _ x).symm ▸ hx) h))))) h)

theorem execTrap_good (h : Good q s) : GoodO q (execTrap w rd ra sel s) :=
  finO_good (meRun_good _ _ _ (fun _ h => goodO_next (trapHere_good _ _ _ _ h)) h)

theorem execBrk_good (h : Good q s) : GoodO q (execBrk w rd ra sel s) :=
  finO_good (meRun_good _ _ _ (fun _ h => goodO_next (trapHere_good _ _ _ _ h)) h)

theorem execRet_good (h : Good q s) : GoodO q (execRet w rd ra sel s) :=
  finO_good (meRun_good _ _ _ (fun _ h => goodO_ite (goodO_next (trapHere_good _ _ _ _ h))
    (goodO_next (retire_good _ _ (setCtx_good_of_regs h)))) h)

/-- The engine offers a switch. -/
theorem offer_good {e : Nat} (h : Good q s) : Good q (setEngine e (fun g => { g with offer := true }) s) :=
  setEngine_good _ _ (fun _ hg => engOk_mk hg) h

theorem execWait_good (h : Good q s) : GoodO q (execWait w rd ra sel s) :=
  finO_good (meRun_good _ _ _ (fun _ h => goodO_ite (goodO_next (block_good _ _ _ h))
    (goodO_next (finish_good _ _ _ _ (offer_good (setCtx_good_of_regs h))))) h)

theorem execYield_good (h : Good q s) : GoodO q (execYield w rd ra sel s) :=
  finO_good (meRun_good _ _ _ (fun _ h => goodO_next (nextPc_good _ _ (offer_good h))) h)

theorem execDoneItem_good (h : Good q s) : GoodO q (execDoneItem w rd ra sel s) :=
  finO_good (meRun_good _ _ _ (fun _ h => goodO_next (packageEnd_good _ _ (nextPc_good _ _ h))) h)

theorem execMtread_good (h : Good q s) : GoodO q (execMtread w rd ra s) :=
  unitOp_good _ _ _ _ (fun _ h => goodO_next (finish_good _ _ _ _ h)) h

theorem execDma_good (h : Good q s) : GoodO q (execDma w rd ra s) := by
  refine unitOp_good _ _ _ _ (fun s h => ?_) h
  dsimp only
  split
  · exact goodO_ite (goodO_next (trapHere_good _ _ _ _ h))
      (goodO_next (localLoad_good _ _ _ _ _ (fun _ _ => startMove_good _ _ _ _) h))
  · exact goodO_next (trapHere_good _ _ _ _ h)

theorem execDmawait_good (h : Good q s) : GoodO q (execDmawait w rd ra s) := by
  refine unitOp_good _ _ _ _ (fun s h => ?_) h
  dsimp only
  split
  · exact goodO_next (finish_good _ _ _ _ (good2_snd (draw_good _ (offer_good h))))
  · split
    · exact goodO_next (block_good _ _ _ (offer_good h))
    · exact goodO_next (finish_good _ _ _ _ (setCtx_good_of_regs (offer_good h)))

theorem execWake_good (h : Good q s) : GoodO q (execWake w rd ra s) :=
  unitOp_good _ _ _ _ (fun _ h => goodO_next (nextPc_good _ _ (good_ite (setEvent_good _ _ _ h) h))) h

theorem execAcquire_good (h : Good q s) : GoodO q (execAcquire w rd ra s) := by
  refine unitOp_good _ _ _ _ (fun s h => ?_) h
  have hgives {v : Nat} {s : State} (h : Good q s) :
      GoodO q (.next (finish w.engine w.ctx rd (BitVec.ofNat 64 v) s)) := goodO_next (finish_good _ _ _ _ h)
  dsimp only
  split
  · exact hgives h
  · refine goodO_ite ?_ (goodO_ite (hgives (takeLock_good _ _ _ _ (bump_good _ _ h)))
      (goodO_ite (goodO_next (block_good _ _ _ h)) (goodO_next (block_good _ _ _ (enqueueWaiter_good _ _ _ _
        (bump_good _ _ ?_))))))
    · split
      · exact goodO_ite (hgives (setCtx_good_of_regs h)) (hgives h)
      · exact hgives h
    · split
      · exact removeWaiter_good _ _ h
      · exact h

theorem execRelease_good (h : Good q s) : GoodO q (execRelease w rd ra s) := by
  refine unitOp_good _ _ _ _ (fun s h => ?_) h
  dsimp only
  split
  · exact goodO_next (finish_good _ _ _ _ h)
  · exact goodO_ite (goodO_next (finish_good _ _ _ _ (giveUp_good _ _ _ h))) (goodO_next (finish_good _ _ _ _ h))

theorem execTryLock_good (h : Good q s) : GoodO q (execTryLock w rd ra s) := by
  refine unitOp_good _ _ _ _ (fun s h => ?_) h
  dsimp only
  split
  · exact goodO_next (finish_good _ _ _ _ h)
  · exact goodO_ite (goodO_next (finish_good _ _ _ _ h))
      (goodO_ite (goodO_next (finish_good _ _ _ _ (takeLock_good _ _ _ _ h)))
        (goodO_next (finish_good _ _ _ _ (bump_good _ _ h))))

theorem execIllegalInstruction_good {word : BitVec 32} (h : Good q s) : GoodO q (execIllegalInstruction w word s) :=
  goodO_ite (goodO_next h) (finO_good (meRun_good _ _ _ (fun _ h => goodO_next (trapHere_good _ _ _ _ h)) h))

end

/-! ### Every command, every step -/

/-- Every command keeps the queue of commands and the canonical form: by the operations that its arm runs. -/
theorem exec_good {q : List Instr} {s : State} (i : Instr) (h : Good q s) : GoodO q (exec i s) := by
  cases i with
  | refClkLost => exact inAO_good (fun _ => refClkLost_good) h
  | epochEdge => exact inAO_good (fun _ => epochEdge_good _ _) h
  | epochLost => exact execEpochLost_good h
  | tcodeFrame => exact inAO_good (fun _ => tcodeFrame_good _ _ _) h
  | tcodeLost => exact inAO_good (fun _ => tcodeLost_good) h
  | slewEnd => exact execSlewEnd_good h
  | usablePeerAdvertised => exact inAO_good (fun _ => usableAdvertised_good _) h
  | sourcePeerLost => exact execSourcePeerLost_good h
  | holdDownExpiry => exact inAO_good (fun _ => holdDownOver_good) h
  | timeExchangeStart => exact inCX_good (fun _ => timeExchange_good _) h
  | timeRequestArrive =>
    dsimp only [exec]
    exact portCommand_good _ _ _ _ (f4 := timeRequest _ _) (fun _ _ => timeRequest_good _ _ _) h
  | timeResponseArrive =>
    dsimp only [exec]
    exact portCommand_good _ _ _ _ (f4 := timeResponse _ _) (fun _ _ => timeResponse_good _ _ _) h
  | measuredDelayUpdate => exact inAO_good (fun _ => measuredUpdate_good) h
  | calibrationComplete => exact execCalibrationComplete_good h
  | uncertaintyLimitCrossed => exact inAO_good (fun _ => judgeUncertainty_good) h
  | timePulse => exact inAO_good (fun _ => timePulse_good) h
  | timePulseEnd => exact inAO_good (fun _ => timePulseEnd_good) h
  | sessionOpen => exact inAO_good (fun _ => sessionOpen_good _ _ _) h
  | sessionIdleTimeout => exact inAO_good (fun _ => sessionIdle_good _) h
  | datagramOutsideSession => exact goodO_ite (fin_good (bump_good _ _ h)) (goodO_next h)
  | yustoRead | yustoWrite | yustoShape | segRead | segWrite | commit | commitCancel | commitDiscard | report
    | subscribe | subscribeCancel =>
    dsimp only [exec]
    exact yustoCommand_good _ _ h
  | seqGapWaitExpiry => exact inAO_good (fun _ => gapExpiry_good _) h
  | apply => exact goodO_ite (fin_good (applyDue_good _ h)) (goodO_next h)
  | persistComplete => exact goodO_ite (fin_good (persistComplete_good h)) (goodO_next h)
  | checkWordScan => exact goodO_ite (fin_good (checkScan_good h)) (goodO_next h)
  | doorbellTail => exact fin_good (atSlot_good _ _ (fun _ _ => doorbellTail_good _ _ _ _ _) h)
  | doorbellHead | doorbellHeadArm => exact fin_good (atSlot_good _ _ (fun _ _ => doorbellHead_good _ _ _ _ _ _) h)
  | keyRightsWrite => exact fin_good (atSlot_good _ _ (fun _ _ => keyRightsWrite_good _ _ _ _ _) h)
  | registerWrite => exact execRegisterWrite_good h
  | fetchVisit => exact fin_good (fetchVisit_good h)
  | hostReadCompletion => exact fin_good (hostReadCompletion_good _ _ _ h)
  | descriptorRetire => exact fin_good (retireOne_good _ h)
  | moderationTimeout => exact fin_good (moderationTimeout_good _ h)
  | nop => exact fin_good (nop_good _ h)
  | queueCreate => exact fin_good (queueCreate_good _ h)
  | queueResize => exact fin_good (queueResize_good _ h)
  | queueHalt => exact fin_good (queueHalt_good _ h)
  | queueDrain => exact fin_good (queueDrain_good _ h)
  | drainComplete => exact fin_good (drainComplete_good _ h)
  | queueResume | queueResumeSkip => exact fin_good (queueResume_good _ _ h)
  | queueDestroy | queueDestroyForce => exact fin_good (queueDestroy_good _ _ h)
  | destroyComplete => exact fin_good (destroyComplete_good _ h)
  | queueQuery => exact fin_good (queueQuery_good _ h)
  | queueModify => exact fin_good (queueModify_good _ h)
  | domainOpen | domainClose => exact inCX_good (fun _ => domCommand_good _) h
  | domainCloseComplete => exact inCX_good (fun _ => domCloseComplete_good _) h
  | recvPost => exact fin_good (recvPost_good _ h)
  | recvCancel => exact fin_good (recvCancel_good _ h)
  | tsend => exact fin_good (tsend_good _ h)
  | tsendArrive | rtsArrive | skipArrive | rgetArrive | putArrive | putImmArrive | getArrive | fadd64Arrive
    | swap64Arrive | cas64Arrive | cas128Arrive | flushArrive | csendArrive | cputArrive | cgetArrive =>
    exact packetCommand_good _ _ (fun _ _ => requestArrive_good _) h
  | skipNoticeResend | lossIntervalExpiry => exact fin_good (lossInterval_good _ _ _ h)
  | muRetryResend | rnrRetry | flowContextRetry | pageRetryResend => exact fin_good (retryInterval_good _ _ _ h)
  | put => exact fin_good (startPut_good _ h)
  | putImm => exact fin_good (startPutImm_good _ h)
  | get => exact fin_good (startGet_good _ h)
  | fadd64 => exact fin_good (startFadd_good _ h)
  | swap64 => exact fin_good (startSwap_good _ h)
  | cas64 => exact fin_good (startCas64_good _ h)
  | cas128 => exact fin_good (startCas128_good _ h)
  | flush => exact fin_good (startFlush_good _ h)
  | csend => exact fin_good (startCsend_good _ h)
  | cput => exact fin_good (startCput_good _ h)
  | cget => exact fin_good (startCget_good _ h)
  | ackArrive => exact packetCommand_good _ _ (fun _ _ => ackArrive_good _) h
  | refusalArrive => exact packetCommand_good _ _ (fun _ _ => refusalArrive_good _) h
  | getDataArrive => exact packetCommand_good _ _ (fun _ _ => getDataArrive_good _) h
  | atomicRespArrive => exact packetCommand_good _ _ (fun _ _ => atomicRespArrive_good _) h
  | lossNoticeArrive => exact packetCommand_good _ _ (fun _ _ => originLost_good _) h
  | flowContextExpiry => exact fin_good (flowExpiry_good _ h)
  | baseDelayReset => exact fin_good (baseReset_good _ h)
  | stallExpiry => exact fin_good (stallExpiry_good _ h)
  | policerReevaluate => exact fin_good (reevaluate_good _ _ h)
  | registerRegion => exact fin_good (registerRegion_good _ h)
  | deregister => exact fin_good (deregister_good _ h)
  | regionDrainComplete => exact fin_good (regionDrained_good _ h)
  | openConn => exact fin_good (openConn_good _ h)
  | closeConn => exact fin_good (closeConn_good _ h)
  | closeConnForce => exact fin_good (closeConnForce_good _ h)
  | connCloseComplete => exact fin_good (connClosed_good _ h)
  | groupCreate => exact fin_good (startCreate_good _ h)
  | groupDestroy => exact fin_good (startGroupDestroy_good _ h)
  | allreduce | broadcast | barrier => exact fin_good (startStep_good _ _ h)
  | collectiveLaunch => exact fin_good (instantReached_good _ (fun _ => collLaunch_good _ _) h)
  | collJoin => exact collCommand_good _ _ (fun _ _ _ => joinArrive_good _ _) h
  | collReady => exact collCommand_good _ _ (fun _ _ _ => readyArrive_good _ _) h
  | collAbandon => exact collCommand_good _ _ (fun _ _ _ => abandonArrive_good _ _) h
  | collContrib => exact collCommand_good _ _ (fun _ _ _ => contribArrive_good _ _) h
  | collResult => exact collCommand_good _ _ (fun _ _ _ => resultArrive_good _ _) h
  | collAbort => exact collCommand_good _ _ (fun _ _ _ => abortArrive_good _ _) h
  | collHeartbeat => exact collCommand_good _ _ (fun _ _ _ h => h) h
  | collDepart => exact collCommand_good _ _ (fun _ _ _ => departArrive_good _ _) h
  | collLost => exact collCommand_good _ _ (fun _ _ _ => lostArrive_good _ _) h
  | collBroken => exact collCommand_good _ _ (fun _ _ _ => brokenArrive_good _ _) h
  | collFetch => exact collCommand_good _ _ (fun _ _ _ => fetchArrive_good _ _) h
  | joinRetry => exact fin_good (joinRetry_good _ h)
  | joinTimeoutExpiry => exact fin_good (joinTimeout_good _ h)
  | heartbeatInterval => exact fin_good (heartbeat_good _ h)
  | livenessTimeout => exact fin_good (livenessTimeout_good _ _ h)
  | stepTimeoutExpiry => exact fin_good (stepTimeout_good _ _ h)
  | asCreate | asModify | asDestroy => exact inCX_good (fun _ => asCommand_good _ _) h
  | asCloseComplete => exact fin_good (asCloseComplete_good _ h)
  | translationInvalidate | faultResume | faultFail => exact inCX_good (fun _ => transCommand_good _ _) h
  | invalidateDone => exact fin_good (invalidateDone_good _ h)
  | localWaitExpiry => exact fin_good (localWaitExpiry_good _ h)
  | packetRoute => exact inCX_good (fun _ => packetRoute_good _) h
  | packetStart => exact inCX_good (fun _ => packetStart_good _) h
  | singleVcWaitExpiry => exact inCX_good (fun _ => singleVcExpiry_good _ _) h
  | healthInterval => exact inCX_good (fun _ => healthInterval_good) h
  | healthArrive =>
    dsimp only [exec]
    exact portCommand_good _ _ _ _ (fun _ _ h => (healthArrive_good _ _ h)) h
  | vaneUpdate => exact inCX_good (fun _ => vanePeriod_good) h
  | replicaCheck => exact execReplicaCheck_good h
  | laneOpen => exact fin_good (laneOpen_good _ h)
  | laneSend => exact fin_good (laneSendStart_good _ h)
  | laneClose => exact fin_good (laneClose_good _ h)
  | laneSetupArrive =>
    dsimp only [exec]
    exact portCommand_good _ _ _ _ (f4 := setupArrive _) (fun _ _ => setupArrive_good _ _) h
  | laneReplyArrive =>
    dsimp only [exec]
    exact portCommand_good _ _ _ _ (f4 := replyArrive _) (fun _ _ => replyArrive_good _ _) h
  | laneDataArrive => exact execLaneDataArrive_good h
  | laneReleaseArrive =>
    dsimp only [exec]
    exact portCommand_good _ _ _ _ (f4 := releaseArrive _) (fun _ _ => releaseArrive_good _ _) h
  | laneLastDepart => exact fin_good (lastDepart_good _ _ h)
  | laneSetupTimeout => exact fin_good (setupTimeout_good _ h)
  | tentativeLaneTimeout => exact fin_good (tentativeTimeout_good _ _ h)
  | squallNoticeArrive => exact packetCommand_good _ _ (fun _ _ => squallArrive_good _) h
  | squallHoldExpiry => exact fin_good (squallExpiry_good _ h)
  | gateBoundary => exact inCX_good (fun _ h => (assignTags_good _ (refreshGates_good _ h))) h
  | queueSample => exact inCX_good (fun _ => sampleDue_good _) h
  | syncMarkerInterval => exact inCX_good (fun _ => markerInterval_good _) h
  | cellTransmit => exact inCX_good (fun _ => cellSlot_good _) h
  | dataCellReceive | creditCellReceive | syncMarkReceive | syncReplyReceive | trainCellReceive =>
    exact cellCommand_good _ _ h
  | idleCellReceive => exact inCX_good (fun _ => receiveCell_good _ _ _) h
  | replayTimeout => exact inCX_good (fun _ => replayTimeout_good _) h
  | silenceLimitExpiry => exact inCX_good (fun _ => silence_good _) h
  | graceExpiry => exact inCX_good (fun _ => graceExpiry_good _) h
  | heldRetryExpiry => exact inCX_good (fun _ => heldRetry_good _) h
  | retrain => exact inCX_good (fun _ => retrain_good _) h
  | trainingTimeExpiry => exact inLanes_good _ (fun _ => trainingTime_good _) h
  | alignmentMarkerReceive => exact inLanes_good _ (fun _ => markerArrive_good _ _ _ _ _ _) h
  | codewordDecode => exact inLanes_good _ (fun _ => codewordArrive_good _ _ _) h
  | laneLockLoss => exact inLanes_good _ (fun _ => laneLost_good _ _ _) h
  | lossOfSignal => exact inLanes_good _ (fun _ => signalLost_good _ _ _) h
  | bringUpTimeout => exact inLanes_good _ (fun _ => bringUpTimeout_good _) h
  | bringUpRestart => exact inLanes_good _ (fun _ => bringUpRestart_good _) h
  | lullDwellExpiry => exact inLanes_good _ (fun _ => lullDwell_good _) h
  | lullExitDepth => exact inLanes_good _ (fun _ => lullDepth_good _) h
  | laneRestoreHoldExpiry => exact inLanes_good _ (fun _ => laneRestore_good _) h
  | warmUpExpiry => exact inLanes_good _ (fun _ => warmUp_good _) h
  | wideningTimeout => exact inLanes_good _ (fun _ => wideningTimeout_good _) h
  | peakingTrack => exact inLanes_good _ (fun _ => peakingTrack_good _ _ _) h
  | bitSlip => exact inLanes_good _ (fun _ => bitSlip_good _ _) h
  | eyeScan => exact inCX_good (fun _ => eyeScan_good _) h
  | eyeScanComplete => exact inDomain_good _ (fun _ => eyeScanDone_good _ _) h
  | laserOutputLowExpiry => exact inDomain_good _ (fun _ => laserLow_good _ _ _) h
  | workItemDispatch => exact execWorkItemDispatch_good h
  | packageCall => exact fin_good (packageCall_good _ h)
  | budgetExhausted => exact goodO_ite (fin_good (trapHere_good _ _ _ _ (setCtx_good_of_regs h))) (goodO_next h)
  | interruptTaken => exact goodO_ite (fin_good (takeInterrupt_good _ _ h)) (goodO_next h)
  | dmaMoveComplete => exact execDmaMoveComplete_good h
  | mtcmpReached => exact goodO_ite (fin_good (setEvent_good _ _ _ (setCtx_good_of_regs h))) (goodO_next h)
  | add | sub | and | or | xor | andn | cmplt | cmpltu | min | max | minu | maxu | shl | shr | sar | rotl
    | rotr | add32 | sub32 | shl32 | shr32 | sar32 | rotl32 | rotr32 | mullo | mulhs | mulhu | mulhm | quos
    | quou | rmds | rmdu | mullo32 | quos32 | quou32 | rmds32 | rmdu32 | crc =>
    exact finO_good (aluRR_good _ _ _ _ _ _ h)
  | neg | neg32 | addk | addk32 | andk | ork | xork | cmpltk | cmpltuk | shkShl | shkShr | shkSar | shkRotl
    | shkRotr | shkShl32 | shkShr32 | shkSar32 | shkRotl32 | shkRotr32 | kshor | clz | ctz | popc | bswap
    | clz32 | ctz32 | popc32 => exact finO_good (aluR_good _ _ _ _ _ h)
  | khi => exact finO_good (aluK_good _ _ _ _ h)
  | ld8 | ld8u | ld16 | ld16u | ld32 | ld32u | ld64 => exact loadInstr_good _ _ _ _ _ _ _ h
  | ld2w => exact execLd2w_good h
  | st8 | st16 | st32 | st64 => exact storeInstr_good _ _ _ _ _ _ h
  | st2w => exact execSt2w_good h
  | lrsv => exact execLrsv_good h
  | scnd => exact execScnd_good h
  | fenceO => exact execFenceO_good h
  | fenceP => exact execFenceP_good h
  | brEq | brNe | brLt | brGe | brLtu | brGeu => exact finO_good (branch_good _ _ _ _ _ _ h)
  | call => exact execCall_good h
  | jump => exact execJump_good h
  | callr => exact execCallr_good h
  | rds => exact execRds_good h
  | wrs => exact execWrs_good h
  | trap => exact execTrap_good h
  | brk => exact execBrk_good h
  | ret => exact execRet_good h
  | wait => exact execWait_good h
  | yield => exact execYield_good h
  | doneItem => exact execDoneItem_good h
  | mtread => exact execMtread_good h
  | dma => exact execDma_good h
  | dmawait => exact execDmawait_good h
  | wake => exact execWake_good h
  | acquire => exact execAcquire_good h
  | release => exact execRelease_good h
  | tryLock => exact execTryLock_good h
  | illegalInstruction => exact execIllegalInstruction_good h
  | activate => exact fin_good (activate_good _ _ _ h)
  | activationCancel => exact fin_good (activationCancel_good _ h)
  | packageRemove => exact fin_good (packageRemove_good _ h)
  | activationInstant => exact fin_good (instantReached_good _ (fun _ => activationInstant_good _) h)
  | quiesceComplete => exact fin_good (quiesceComplete_good _ h)
  | quiesceTimeout => exact fin_good (quiesceTimeout_good _ h)
  | lockAcquire => exact execLockAcquire_good _ _ _ _ _ _ h
  | lockRelease => exact execLockRelease_good _ _ _ _ _ _ h
  | lockTry => exact execLockTry_good _ _ _ _ _ _ h
  | lockCancel => exact execLockCancel_good _ _ _ _ _ _ h
  | scrubRead => exact execScrubRead_good h
  | stackLost => exact goodO_ite (fin_good (later_good _ h)) (goodO_next h)
  | mailboxSubmit => exact fin_good (mailboxSubmit_good _ _ h)
  | aqEnable | aqDisable | aqResume | aqResumeSkip | aqResizeCq => exact fin_good (aqControl_good _ _ h)
  | groupWriteTakesEffect => exact fin_good (groupTakesEffect_good _ _ h)
  | functionLevelReset => exact fin_good (functionReset_good _ h)
  | flrComplete => exact fin_good (functionResetDone_good _ h)
  | hostLinkDown => exact fin_good (hostLinkDown_good _ h)
  | perstAssert => exact fin_good (perstLow_good _ h)
  | sbRead => exact fin_good (sbRead_good _ _ h)
  | sbWrite => exact fin_good (sbWrite_good _ _ h)
  | sbNop =>
    exact goodO_ite (fin_good (sbRead_good _ _ h))
      (goodO_ite (fin_good (sbWrite_good _ _ h)) (fin_good (sbNop_good _ _ _ h)))
  | sbFrameAbort => exact fin_good (sbAbort_good h)
  | inputGood => exact fin_good (inputGoodAt_good _ h)
  | inputLoss => exact inAO_good (fun _ h => good_ite (shed_good _ _ h) h) h
  | inputOvervoltage =>
    exact inAO_good (fun _ h => good_ite (raiseFault_good _ _ _ (good_ite h (shed_good _ _ h))) h) h
  | domainStart => exact inAO_good (fun _ => domainStart_good _) h
  | domainPowerGood => exact inAO_good (fun _ => domainGood_good _) h
  | domainRampTimeout => exact inAO_good (fun _ => domainRampTimeout_good _) h
  | domainRestart => exact inAO_good (fun _ => domainRestart_good _) h
  | departRequest => exact goodO_ite (fin_good (departRequest_good h)) (goodO_next h)
  | departQuiesceComplete => exact inAO_good (fun _ => departQuiet_good) h
  | departDrainComplete => exact inAO_good (fun _ => departDrained_good) h
  | drainLimitExpiry => exact inAO_good (fun _ => drainLimit_good) h
  | linkCtlDepartArrive =>
    dsimp only [exec]
    exact portCommand_good _ _ _ _ (fun _ _ h => (portDepart_good _ h)) h
  | departDoneArrive =>
    dsimp only [exec]
    exact portCommand_good _ _ _ _ (fun _ _ h => (portDepartDone_good _ h)) h
  | powerOnReset | watchdogExpiry | resetRequestWarm | resetRequestCold | lockup | resetHoldExpiry =>
    exact goodO_ite (fin_good (takeReset_good _ _ _ h)) (goodO_next h)
  | brownOutReset | pinReset | resetWarm | resetCold | clockFailure => exact fin_good (takeReset_good _ _ _ h)
  | startTimeout => exact fin_good (startTimeout_good h)
  | resetRelease => exact fin_good (resetRelease_good _ _ _ h)
  | bundleWaitExpiry => exact fin_good (bundleExpiry_good h)
  | managementFirmwareStart => exact fin_good (managementStart_good h)
  | operationalMilestone => exact fin_good (operational_good h)
  | doldrumsExit => exact fin_good (doldrumsExit_good h)
  | sensorScan => exact execSensorScan_good h
  | telemetrySample => exact goodO_ite (fin_good (telemetryDue_good h)) (goodO_next h)
  | logCoalesceFlush => exact inAO_good (fun _ => logFlush_good) h
  | updateBegin => exact updateServed_good (fun _ => updateBegin_good _ _ _) h
  | updateFinish => exact updateServed_good (fun _ => updateFinish_good _) h
  | updateVerifyComplete => exact updateServed_good (fun _ h => bundleBoot_good (updateVerify_good h)) h
  | updateAbort => exact updateServed_good (fun _ => updateAbort_good _) h
  | updateCopy => exact updateServed_good (fun _ => updateCopy_good _ _) h
  | bootOnce => exact updateServed_good (fun _ => bootOnce_good _) h
  | updateErase => exact updateServed_good (fun _ => updateErase_good _) h
  | faultRaise => exact inAO_good (fun _ => faultRaise_good _ _ _) h
  | clearSource => exact goodO_ite (fin_good (clearSource_good _ h)) (goodO_next h)
  | clearAll => exact goodO_ite (fin_good (clearAll_good h)) (goodO_next h)
  | unfreeze => exact goodO_ite (fin_good (unfreeze_good h)) (goodO_next h)
  | empty => exact goodO_ite (fin_good (emptyHistory_good h)) (goodO_next h)
  | faultInjection => exact goodO_ite (fin_good (takeRaise_good _ _ _ h)) (goodO_next h)
  | breezeToggle => exact inAO_good (fun _ => breeze_good _) h
  | breezeKeepaliveExpiry => exact execBreezeKeepaliveExpiry_good h
  | cdrLockAcquired => exact inLanes_good _ (fun _ h => (refreshGood_good _ (cdrLock_good _ _ _ _ h))) h
  | stackTrainingComplete => exact execStackTrainingComplete_good h
  | hostLinkUp => exact fin_good (hostLinkUp_good _ _ _ _ h)
  | perstDeassert => exact fin_good (perstHigh_good _ _ h)
  | roundTripSample => exact inCX_good (fun _ => roundTrip_good _ _) h

/-- A step keeps the canonical form, and leaves the rest of the queue. -/
theorem step_good {s t : State} (hc : s.canon = true) (ht : step s = .next t) : Good s.pending.tail t := by
  obtain ⟨-, hme, hcm, hhl⟩ : Good s.pending s := good_iff.2 ⟨rfl, hc⟩
  cases hp : s.pending with
  | nil =>
    simp only [step, hp] at ht
    exact goodO_next (idle_good ⟨hp, hme, hcm, hhl⟩) t ht
  | cons i r =>
    rw [step_cons hp] at ht
    have hfront : Good r { s with pending := r } := ⟨rfl, hme, hcm, hhl⟩
    exact exec_good i hfront t ht

/-- Settles O60: every command and the idle cycle keep it, by `step_good`. -/
theorem everyStepKeepsTheCanonicalForm : Obligations.EveryStepKeepsTheCanonicalForm :=
  fun _ _ hc ht => (good_iff.1 (step_good hc ht)).2

/-- Settles O46: at reset no memory and no register file lists anything. -/
theorem resetIsInCanonicalForm : Obligations.ResetIsInCanonicalForm := ⟨rfl, rfl, rfl⟩

end Sys2Proof.Machine
end

section
/-!
SUPPORT. The operations of the engines over registers and immediates, and their branches (13_message_engines.md,
R378, R379, Tables 13-3 and 13-5): each result and flag as exact arithmetic gives it.
-/
namespace Sys2Proof.Machine

/-! ### Results that do not fit (R379) -/

section
variable {n : Nat} {a b : BitVec (n + 1)}

theorem not_fitsSigned (i : Int) : (!fitsSigned (n + 1) i) = (decide (i < -2 ^ n) || decide (2 ^ n ≤ i)) := by
  rw [Bool.eq_iff_iff]
  simp only [fitsSigned, Nat.add_sub_cancel, Bool.not_eq_true', decide_eq_false_iff_not, Bool.or_eq_true,
    decide_eq_true_eq]
  omega

theorem eq_intMin_iff : a = BitVec.intMin (n + 1) ↔ a.toInt = -2 ^ n := by
  have hlt : 2 ^ n % 2 ^ (n + 1) = 2 ^ n := Nat.mod_eq_of_lt (Nat.pow_lt_pow_right (by omega) (by omega))
  rw [← BitVec.toInt_inj, BitVec.toInt_intMin, Nat.add_sub_cancel, hlt]
  simp

theorem eq_neg_one_iff : a = -1 ↔ a.toInt = -1 := by
  have hones : (-1 : BitVec (n + 1)) = BitVec.allOnes (n + 1) := BitVec.neg_one_eq_allOnes
  rw [← BitVec.toInt_inj, hones, BitVec.toInt_allOnes, if_pos (by omega)]

theorem toInt_range (a : BitVec (n + 1)) : -2 ^ n ≤ a.toInt ∧ a.toInt < 2 ^ n := by
  have hlo := BitVec.le_toInt a
  have hhi := BitVec.toInt_lt (x := a)
  simpa using And.intro hlo hhi

/-- Of the negations only that of the most negative number does not fit. -/
theorem not_fitsSigned_neg : (!fitsSigned (n + 1) (-a.toInt)) = (a == BitVec.intMin (n + 1)) := by
  obtain ⟨hlo, hhi⟩ := toInt_range a
  rw [not_fitsSigned, Bool.eq_iff_iff, Bool.or_eq_true, decide_eq_true_eq, decide_eq_true_eq, beq_iff_eq, eq_intMin_iff]
  omega

/-- Of the truncated quotients only that of the most negative number by -1 does not fit. -/
theorem tdiv_outside_iff {m i j : Int} (hlo : -m ≤ i) (hhi : i < m) (hj : j ≠ 0) :
    i.tdiv j < -m ∨ m ≤ i.tdiv j ↔ i = -m ∧ j = -1 := by
  by_cases h1 : j = 1
  · subst h1
    rw [Int.tdiv_one]
    omega
  by_cases h2 : j = -1
  · subst h2
    rw [Int.tdiv_neg, Int.tdiv_one]
    omega
  have hhalf : (i.tdiv j).natAbs ≤ i.natAbs / 2 := by
    rw [Int.natAbs_tdiv]
    exact Nat.div_le_div_left (by omega) (by omega)
  omega

theorem not_fitsSigned_tdiv (hb : b ≠ 0) :
    (!fitsSigned (n + 1) (a.toInt.tdiv b.toInt)) = (a == BitVec.intMin (n + 1) && b == -1) := by
  obtain ⟨hlo, hhi⟩ := toInt_range a
  have hzero : b.toInt ≠ 0 := fun h => hb (BitVec.toInt_inj.1 (h.trans BitVec.toInt_zero.symm))
  rw [not_fitsSigned, Bool.eq_iff_iff, Bool.or_eq_true, decide_eq_true_eq, decide_eq_true_eq,
    tdiv_outside_iff hlo hhi hzero, Bool.and_eq_true, beq_iff_eq, beq_iff_eq, eq_intMin_iff, eq_neg_one_iff]

end

section
variable {a b : Word64} {m : Nat}

/-! ### Sums, differences and products -/

theorem fAdd_eq : fAdd a b = {
    val := a + b, ov := a.toInt + b.toInt < -(2 ^ 63) || 2 ^ 63 ≤ a.toInt + b.toInt, dz := false } := by
  rw [fAdd, not_fitsSigned (n := 63)]

theorem fSub_eq : fSub a b = {
    val := a - b, ov := a.toInt - b.toInt < -(2 ^ 63) || 2 ^ 63 ≤ a.toInt - b.toInt, dz := false } := by
  rw [fSub, not_fitsSigned (n := 63)]

theorem fAdd32_eq : fAdd32 a b = {
    val := sext32 (lo32 a + lo32 b)
    ov := (lo32 a).toInt + (lo32 b).toInt < -(2 ^ 31) || 2 ^ 31 ≤ (lo32 a).toInt + (lo32 b).toInt
    dz := false } := by
  rw [fAdd32, not_fitsSigned (n := 31)]

theorem fSub32_eq : fSub32 a b = {
    val := sext32 (lo32 a - lo32 b)
    ov := (lo32 a).toInt - (lo32 b).toInt < -(2 ^ 31) || 2 ^ 31 ≤ (lo32 a).toInt - (lo32 b).toInt
    dz := false } := by
  rw [fSub32, not_fitsSigned (n := 31)]

theorem fMullo_eq : fMullo a b = {
    val := a * b, ov := a.toInt * b.toInt < -(2 ^ 63) || 2 ^ 63 ≤ a.toInt * b.toInt, dz := false } := by
  rw [fMullo, not_fitsSigned (n := 63)]

theorem fMullo32_eq : fMullo32 a b = {
    val := sext32 (lo32 a * lo32 b)
    ov := (lo32 a).toInt * (lo32 b).toInt < -(2 ^ 31) || 2 ^ 31 ≤ (lo32 a).toInt * (lo32 b).toInt
    dz := false } := by
  rw [fMullo32, not_fitsSigned (n := 31)]

theorem fNeg_eq : fNeg a = { val := -a, ov := a == BitVec.intMin 64, dz := false } := by
  rw [fNeg, not_fitsSigned_neg (n := 63)]

theorem fNeg32_eq : fNeg32 a = { val := sext32 (-lo32 a), ov := lo32 a == BitVec.intMin 32, dz := false } := by
  rw [fNeg32, not_fitsSigned_neg (n := 31)]

/-! ### Comparisons -/

theorem boolW_decide {p : Prop} [Decidable p] : boolW (decide p) = if p then 1 else 0 := by
  by_cases h : p <;> simp [boolW, h]

theorem boolW_fLt : boolW (fLt a b) = if a.slt b then 1 else 0 := rfl

theorem boolW_fLtu : boolW (fLtu a b) = if a < b then 1 else 0 := boolW_decide

theorem not_fLt_iff : (!fLt a b) = true ↔ b.toInt ≤ a.toInt := by simp [fLt]
theorem fLtu_iff : fLtu a b = true ↔ a < b := decide_eq_true_iff
theorem not_fLtu_iff : (!fLtu a b) = true ↔ b ≤ a := by simp [fLtu, BitVec.le_def]

theorem ite_fLt : (if fLt b a then x else y : Word64) = if a.toInt ≤ b.toInt then y else x := by
  unfold fLt
  by_cases h : b.toInt < a.toInt
  · rw [if_pos (by simpa using h), if_neg (by omega)]
  · rw [if_neg (by simpa using h), if_pos (by omega)]

theorem ite_fLtu : (if fLtu b a then x else y : Word64) = if a ≤ b then y else x := by
  unfold fLtu
  by_cases h : b.toNat < a.toNat
  · rw [if_pos (by simpa using h), if_neg (by rw [BitVec.le_def]; omega)]
  · rw [if_neg (by simpa using h), if_pos (by rw [BitVec.le_def]; omega)]

theorem ite_fLt_max : (if fLt a b then b else a) = if a.toInt ≤ b.toInt then b else a := by
  unfold fLt
  rcases lt_trichotomy a.toInt b.toInt with h | h | h
  · rw [if_pos (by simpa using h), if_pos h.le]
  · rw [BitVec.toInt_inj.1 h, ite_self, ite_self]
  · rw [if_neg (by simpa using h.le), if_neg (by omega)]

theorem ite_fLtu_max : (if fLtu a b then b else a) = if a ≤ b then b else a := by
  unfold fLtu
  rcases lt_trichotomy a.toNat b.toNat with h | h | h
  · rw [if_pos (by simpa using h), if_pos (BitVec.le_def.2 h.le)]
  · rw [BitVec.eq_of_toNat_eq h, ite_self, ite_self]
  · rw [if_neg (by simpa using h.le), if_neg (by rw [BitVec.le_def]; omega)]

/-! ### Shifts and rotations by any amount (Table 13-5) -/

theorem fShl_eq : fShl a m = a <<< m := by
  unfold fShl
  split
  · next h => exact (BitVec.shiftLeft_eq_zero h).symm
  · rfl

theorem fShr_eq : fShr a m = a >>> m := by
  unfold fShr
  split
  · next h => exact (BitVec.ushiftRight_eq_zero h).symm
  · rfl

theorem fShl32_eq : fShl32 a m = sext32 (lo32 a <<< m) := by
  unfold fShl32
  split
  · next h => rw [BitVec.shiftLeft_eq_zero h]; rfl
  · rfl

theorem fShr32_eq : fShr32 a m = sext32 (lo32 a >>> m) := by
  unfold fShr32
  split
  · next h => rw [BitVec.ushiftRight_eq_zero h]; rfl
  · rfl

/-- An arithmetic shift by more than the place of the sign is one by that place. -/
theorem sshiftRight_min {n : Nat} (x : BitVec (n + 1)) : x.sshiftRight (min m n) = x.sshiftRight m := by
  apply BitVec.eq_of_getLsbD_eq
  intro i hi
  rw [BitVec.getLsbD_sshiftRight, BitVec.getLsbD_sshiftRight]
  by_cases hm : m ≤ n
  · rw [Nat.min_eq_left hm]
  rw [Nat.min_eq_right (by omega), if_neg (show ¬m + i < n + 1 by omega)]
  by_cases h0 : i = 0
  · subst h0
    rw [if_pos (by omega), BitVec.msb_eq_getLsbD_last]
    rfl
  · rw [if_neg (by omega)]

theorem fSar_eq : fSar a m = a.sshiftRight m := sshiftRight_min a
theorem fSar32_eq : fSar32 a m = sext32 ((lo32 a).sshiftRight m) := congrArg sext32 (sshiftRight_min (lo32 a))
theorem fRotl_eq : fRotl a m = a.rotateLeft m := BitVec.rotateLeft_mod_eq_rotateLeft
theorem fRotr_eq : fRotr a m = a.rotateRight m := BitVec.rotateRight_mod_eq_rotateRight
theorem fRotl32_eq : fRotl32 a m = sext32 ((lo32 a).rotateLeft m) := congrArg sext32 BitVec.rotateLeft_mod_eq_rotateLeft
theorem fRotr32_eq : fRotr32 a m = sext32 ((lo32 a).rotateRight m) :=
  congrArg sext32 BitVec.rotateRight_mod_eq_rotateRight

/-! ### Quotients and remainders (R379) -/

section
variable {n : Nat} (x y : BitVec n)

theorem ofInt_tdiv : BitVec.ofInt n (x.toInt.tdiv y.toInt) = x.sdiv y := by
  rw [← BitVec.toInt_inj, BitVec.toInt_ofInt, BitVec.toInt_sdiv]

theorem ofInt_tmod : BitVec.ofInt n (x.toInt.tmod y.toInt) = x.srem y := by
  rw [← BitVec.toInt_srem, BitVec.ofInt_toInt]

theorem ofNat_div : BitVec.ofNat n (x.toNat / y.toNat) = x / y := by
  rw [← BitVec.toNat_udiv, BitVec.ofNat_toNat, BitVec.setWidth_eq]

theorem ofNat_mod : BitVec.ofNat n (x.toNat % y.toNat) = x % y := by
  rw [← BitVec.toNat_umod, BitVec.ofNat_toNat, BitVec.setWidth_eq]

end

theorem fQuos_eq : fQuos a b = { val := a.sdiv b, ov := a == BitVec.intMin 64 && b == -1, dz := b == 0 } := by
  unfold fQuos
  split
  · next h => subst h; simp
  · next h => rw [ofInt_tdiv, not_fitsSigned_tdiv (n := 63) h, beq_eq_false_iff_ne.2 h]

theorem fQuou_eq : fQuou a b = { val := a / b, ov := false, dz := b == 0 } := by
  unfold fQuou
  split
  · next h => subst h; simp
  · next h => rw [ofNat_div, beq_eq_false_iff_ne.2 h]

theorem fRmds_eq : fRmds a b = { val := a.srem b, ov := false, dz := b == 0 } := by
  unfold fRmds
  split
  · next h => subst h; simp
  · next h => rw [ofInt_tmod, beq_eq_false_iff_ne.2 h]

theorem fRmdu_eq : fRmdu a b = { val := a % b, ov := false, dz := b == 0 } := by
  unfold fRmdu
  split
  · next h => subst h; simp
  · next h => rw [ofNat_mod, beq_eq_false_iff_ne.2 h]

theorem fQuos32_eq : fQuos32 a b = {
    val := sext32 ((lo32 a).sdiv (lo32 b)), ov := lo32 a == BitVec.intMin 32 && lo32 b == -1, dz := lo32 b == 0 } := by
  unfold fQuos32
  split
  · next h => rw [h]; simp; rfl
  · next h => rw [ofInt_tdiv, not_fitsSigned_tdiv (n := 31) h, beq_eq_false_iff_ne.2 h]

theorem fQuou32_eq : fQuou32 a b = { val := sext32 (lo32 a / lo32 b), ov := false, dz := lo32 b == 0 } := by
  unfold fQuou32
  split
  · next h => rw [h]; simp; rfl
  · next h => rw [ofNat_div, beq_eq_false_iff_ne.2 h]

theorem fRmds32_eq : fRmds32 a b = { val := sext32 ((lo32 a).srem (lo32 b)), ov := false, dz := lo32 b == 0 } := by
  unfold fRmds32
  split
  · next h => rw [h]; simp
  · next h => rw [ofInt_tmod, beq_eq_false_iff_ne.2 h]

theorem fRmdu32_eq : fRmdu32 a b = { val := sext32 (lo32 a % lo32 b), ov := false, dz := lo32 b == 0 } := by
  unfold fRmdu32
  split
  · next h => rw [h]; simp
  · next h => rw [ofNat_mod, beq_eq_false_iff_ne.2 h]

/-! ### Bytes reversed, and the CRC -/

theorem leBytes_8_eq : leBytes 8 a.toNat = [a.extractLsb' 0 8, a.extractLsb' 8 8, a.extractLsb' 16 8,
    a.extractLsb' 24 8,
    a.extractLsb' 32 8, a.extractLsb' 40 8, a.extractLsb' 48 8, a.extractLsb' 56 8] := by
  simp [leBytes, BitVec.extractLsb', Nat.shiftRight_eq_div_pow, Nat.div_div_eq_div_mul]

theorem toNat_append_byte {n : Nat} (x : BitVec n) (y : Byte) : (x ++ y).toNat = x.toNat * 256 + y.toNat := by
  rw [BitVec.toNat_append, ← Nat.shiftLeft_add_eq_or_of_lt y.isLt, Nat.shiftLeft_eq]

theorem fBswap_eq : fBswap a = a.extractLsb' 0 8 ++ a.extractLsb' 8 8 ++ a.extractLsb' 16 8 ++
    a.extractLsb' 24 8 ++ a.extractLsb' 32 8 ++ a.extractLsb' 40 8 ++ a.extractLsb' 48 8 ++ a.extractLsb' 56 8 := by
  rw [fBswap, leBytes_8_eq]
  simp only [beNat, List.foldl, Nat.zero_mul, Nat.zero_add, ← toNat_append_byte]
  exact (BitVec.ofNat_toNat ..).trans (BitVec.setWidth_eq _)

theorem fCrc_eq : fCrc a b = BitVec.ofNat 64 (crcRun 0x82F63B78 (leBytes 8 b.toNat) (a.toNat % 2 ^ 32)) := by
  rw [fCrc, lo32, BitVec.truncate, BitVec.toNat_setWidth]

/-- The low half of a sum is the sum of the low halves. -/
theorem lo32_add : lo32 a + lo32 b = lo32 (a + b) := (BitVec.setWidth_add a b (by omega)).symm

end

/-! ### Instructions that issue -/

theorem wordI_shk {rd ra : Fin 32} {selector : Nat} (hs : selector < 256) (n : BitVec 8) :
    wordI 0x09 rd ra (BitVec.ofNat 16 (selector * 256 + n.toNat)) =
      0x09 * 2 ^ 26 + rd * 2 ^ 21 + ra * 2 ^ 16 + selector * 2 ^ 8 + n.toNat := by
  have hn := n.isLt
  rw [wordI, BitVec.toNat_ofNat, Nat.mod_eq_of_lt (by omega)]
  omega

section
variable {s : State} {w : Issue} {rd ra rb : Fin 32} {word : Nat} {i : Instr}
variable (hi : Issues s w = true)
include hi

theorem effect_aluRR {f g : Word64 → Word64 → AluOut} (hx : exec i s = finO (aluRR w word rd ra rb f s))
    (hf : ∀ a b, f a b = g a b) :
    let s1 := issued s w word 0
    Effect (exec i s) (fun t => t = aluDone w.engine w.ctx rd
      (max (stampOf s1 w.engine w.ctx ra) (stampOf s1 w.engine w.ctx rb))
      (g (reg s1 w.engine w.ctx ra) (reg s1 w.engine w.ctx rb)) s1) := by
  rw [hx, aluRR, meRun_issues hi, hf]
  exact effect_finO rfl

theorem effect_aluR {f g : Word64 → AluOut} (hx : exec i s = finO (aluR w word rd ra f s)) (hf : ∀ a, f a = g a) :
    let s1 := issued s w word 0
    Effect (exec i s) (fun t => t = aluDone w.engine w.ctx rd (stampOf s1 w.engine w.ctx ra)
      (g (reg s1 w.engine w.ctx ra)) s1) := by
  rw [hx, aluR, meRun_issues hi, hf]
  exact effect_finO rfl

theorem effect_aluK {v : Word64} (hx : exec i s = finO (aluK w word rd v s)) :
    Effect (exec i s) (fun t => t = aluDone w.engine w.ctx rd 0 { val := v, ov := false, dz := false }
      (issued s w word 0)) := by
  rw [hx, aluK, meRun_issues hi]
  exact effect_finO rfl

theorem effect_aluRR_plain {f g : Word64 → Word64 → Word64}
    (hx : exec i s = finO (aluRR w word rd ra rb (fun a b => plain (f a b)) s)) (hf : ∀ a b, f a b = g a b) :
    let s1 := issued s w word 0
    Effect (exec i s) (fun t => t = aluDone w.engine w.ctx rd
      (max (stampOf s1 w.engine w.ctx ra) (stampOf s1 w.engine w.ctx rb))
      { val := g (reg s1 w.engine w.ctx ra) (reg s1 w.engine w.ctx rb), ov := false, dz := false } s1) :=
  effect_aluRR (g := fun a b => plain (g a b)) hi hx fun a b => congrArg plain (hf a b)

theorem effect_aluR_plain {f g : Word64 → Word64} (hx : exec i s = finO (aluR w word rd ra (fun a => plain (f a)) s))
    (hf : ∀ a, f a = g a) :
    let s1 := issued s w word 0
    Effect (exec i s) (fun t => t = aluDone w.engine w.ctx rd (stampOf s1 w.engine w.ctx ra)
      { val := g (reg s1 w.engine w.ctx ra), ov := false, dz := false } s1) :=
  effect_aluR (g := fun a => plain (g a)) hi hx fun a => congrArg plain (hf a)

theorem effect_shk {selector : Nat} {n : BitVec 8} {f g : Word64 → Word64} (hs : selector < 256)
    (hx : exec i s = finO (aluR w (wordI 0x09 rd ra (BitVec.ofNat 16 (selector * 256 + n.toNat))) rd ra
      (fun a => plain (f a)) s))
    (hf : ∀ a, f a = g a) :
    let s1 := issued s w (0x09 * 2 ^ 26 + rd * 2 ^ 21 + ra * 2 ^ 16 + selector * 2 ^ 8 + n.toNat) 0
    Effect (exec i s) (fun t => t = aluDone w.engine w.ctx rd (stampOf s1 w.engine w.ctx ra)
      { val := g (reg s1 w.engine w.ctx ra), ov := false, dz := false } s1) := by
  rw [wordI_shk hs] at hx
  exact effect_aluR_plain hi hx hf

theorem effect_branch {off : BitVec 16} {p : Word64 → Word64 → Bool} {holds : Word64 → Word64 → Prop}
    (hx : exec i s = finO (branch w word ra rb off p s)) (hp : ∀ a b, p a b = true ↔ holds a b) :
    let e := w.engine.val
    let c := w.ctx.val
    let s1 := issued s w word 4
    (holds (reg s1 e c ra) (reg s1 e c rb) → Effect (exec i s) (fun t =>
      t = retire e c (setPc e c (pcOf s1 e c + 4 * off.signExtend 64) s1))) ∧
    (¬ holds (reg s1 e c ra) (reg s1 e c rb) → Effect (exec i s) (fun t =>
      t = retire e c (setPc e c (pcOf s1 e c + 4) s1))) := by
  intro e c s1
  rw [hx, branch, meRun_issues hi]
  constructor
  · intro h
    exact effect_finO (by rw [if_pos ((hp _ _).2 h), sext16, BitVec.mul_comm])
  · intro h
    exact effect_finO (by rw [if_neg fun hb => h ((hp _ _).1 hb)])
end

/-- Settles O24: each operation by the lemma on its result. -/
theorem engineRegisterOperationsGiveTheirResult : Obligations.EngineRegisterOperationsGiveTheirResult := by
  intro s w rd ra rb hi
  exact ⟨(effect_aluRR hi (i := .add w rd ra rb) rfl fun _ _ => fAdd_eq :),
    (effect_aluRR hi (i := .sub w rd ra rb) rfl fun _ _ => fSub_eq :),
    (effect_aluR hi (i := .neg w rd ra) rfl fun _ => fNeg_eq :),
    (effect_aluRR_plain hi (i := .and w rd ra rb) rfl fun _ _ => rfl :),
    (effect_aluRR_plain hi (i := .or w rd ra rb) rfl fun _ _ => rfl :),
    (effect_aluRR_plain hi (i := .xor w rd ra rb) rfl fun _ _ => rfl :),
    (effect_aluRR_plain hi (i := .andn w rd ra rb) rfl fun _ _ => rfl :),
    (effect_aluRR_plain hi (i := .cmplt w rd ra rb) rfl fun _ _ => boolW_fLt :),
    (effect_aluRR_plain hi (i := .cmpltu w rd ra rb) rfl fun _ _ => boolW_fLtu :),
    (effect_aluRR_plain hi (i := .min w rd ra rb) rfl fun _ _ => ite_fLt :),
    (effect_aluRR_plain hi (i := .max w rd ra rb) rfl fun _ _ => ite_fLt_max :),
    (effect_aluRR_plain hi (i := .minu w rd ra rb) rfl fun _ _ => ite_fLtu :),
    (effect_aluRR_plain hi (i := .maxu w rd ra rb) rfl fun _ _ => ite_fLtu_max :),
    (effect_aluRR_plain hi (i := .shl w rd ra rb) rfl fun _ _ => fShl_eq :),
    (effect_aluRR_plain hi (i := .shr w rd ra rb) rfl fun _ _ => fShr_eq :),
    (effect_aluRR_plain hi (i := .sar w rd ra rb) rfl fun _ _ => fSar_eq :),
    (effect_aluRR_plain hi (i := .rotl w rd ra rb) rfl fun _ _ => fRotl_eq :),
    (effect_aluRR_plain hi (i := .rotr w rd ra rb) rfl fun _ _ => fRotr_eq :),
    (effect_aluRR hi (i := .add32 w rd ra rb) rfl fun _ _ => fAdd32_eq :),
    (effect_aluRR hi (i := .sub32 w rd ra rb) rfl fun _ _ => fSub32_eq :),
    (effect_aluR hi (i := .neg32 w rd ra) rfl fun _ => fNeg32_eq :),
    (effect_aluRR_plain hi (i := .shl32 w rd ra rb) rfl fun _ _ => fShl32_eq :),
    (effect_aluRR_plain hi (i := .shr32 w rd ra rb) rfl fun _ _ => fShr32_eq :),
    (effect_aluRR_plain hi (i := .sar32 w rd ra rb) rfl fun _ _ => fSar32_eq :),
    (effect_aluRR_plain hi (i := .rotl32 w rd ra rb) rfl fun _ _ => fRotl32_eq :),
    (effect_aluRR_plain hi (i := .rotr32 w rd ra rb) rfl fun _ _ => fRotr32_eq :)⟩

/-- Settles O25: each operation by the lemma on its result. -/
theorem engineImmediateOperationsGiveTheirResult : Obligations.EngineImmediateOperationsGiveTheirResult := by
  intro s w rd ra imm n hi
  exact ⟨(effect_aluR_plain hi (i := .addk w rd ra imm) rfl fun _ => rfl :),
    (effect_aluR_plain hi (i := .addk32 w rd ra imm) rfl fun _ => congrArg sext32 lo32_add :),
    (effect_aluR_plain hi (i := .andk w rd ra imm) rfl fun _ => rfl :),
    (effect_aluR_plain hi (i := .ork w rd ra imm) rfl fun _ => rfl :),
    (effect_aluR_plain hi (i := .xork w rd ra imm) rfl fun _ => rfl :),
    (effect_aluR_plain hi (i := .cmpltk w rd ra imm) rfl fun _ => boolW_fLt :),
    (effect_aluR_plain hi (i := .cmpltuk w rd ra imm) rfl fun _ => boolW_fLtu :),
    (effect_shk hi (i := .shkShl w rd ra n) (selector := 0x00) (by decide) rfl fun _ => fShl_eq :),
    (effect_shk hi (i := .shkShr w rd ra n) (selector := 0x01) (by decide) rfl fun _ => fShr_eq :),
    (effect_shk hi (i := .shkSar w rd ra n) (selector := 0x02) (by decide) rfl fun _ => fSar_eq :),
    (effect_shk hi (i := .shkRotl w rd ra n) (selector := 0x03) (by decide) rfl fun _ => fRotl_eq :),
    (effect_shk hi (i := .shkRotr w rd ra n) (selector := 0x04) (by decide) rfl fun _ => fRotr_eq :),
    (effect_shk hi (i := .shkShl32 w rd ra n) (selector := 0x10) (by decide) rfl fun _ => fShl32_eq :),
    (effect_shk hi (i := .shkShr32 w rd ra n) (selector := 0x11) (by decide) rfl fun _ => fShr32_eq :),
    (effect_shk hi (i := .shkSar32 w rd ra n) (selector := 0x12) (by decide) rfl fun _ => fSar32_eq :),
    (effect_shk hi (i := .shkRotl32 w rd ra n) (selector := 0x13) (by decide) rfl fun _ => fRotl32_eq :),
    (effect_shk hi (i := .shkRotr32 w rd ra n) (selector := 0x14) (by decide) rfl fun _ => fRotr32_eq :),
    (effect_aluK hi (i := .khi w rd imm) rfl :),
    (effect_aluR_plain hi (i := .kshor w rd ra imm) rfl fun _ => rfl :)⟩

/-- Settles O26: each operation by the lemma on its result. -/
theorem engineMultipliesDividesAndCounts : Obligations.EngineMultipliesDividesAndCounts := by
  intro s w rd ra rb hi
  exact ⟨(effect_aluRR hi (i := .mullo w rd ra rb) rfl fun _ _ => fMullo_eq :),
    (effect_aluRR_plain hi (i := .mulhs w rd ra rb) rfl fun _ _ => rfl :),
    (effect_aluRR_plain hi (i := .mulhu w rd ra rb) rfl fun _ _ => rfl :),
    (effect_aluRR_plain hi (i := .mulhm w rd ra rb) rfl fun _ _ => rfl :),
    (effect_aluRR hi (i := .quos w rd ra rb) rfl fun _ _ => fQuos_eq :),
    (effect_aluRR hi (i := .quou w rd ra rb) rfl fun _ _ => fQuou_eq :),
    (effect_aluRR hi (i := .rmds w rd ra rb) rfl fun _ _ => fRmds_eq :),
    (effect_aluRR hi (i := .rmdu w rd ra rb) rfl fun _ _ => fRmdu_eq :),
    (effect_aluRR hi (i := .mullo32 w rd ra rb) rfl fun _ _ => fMullo32_eq :),
    (effect_aluRR hi (i := .quos32 w rd ra rb) rfl fun _ _ => fQuos32_eq :),
    (effect_aluRR hi (i := .quou32 w rd ra rb) rfl fun _ _ => fQuou32_eq :),
    (effect_aluRR hi (i := .rmds32 w rd ra rb) rfl fun _ _ => fRmds32_eq :),
    (effect_aluRR hi (i := .rmdu32 w rd ra rb) rfl fun _ _ => fRmdu32_eq :),
    (effect_aluR_plain hi (i := .clz w rd ra rb) rfl fun _ => rfl :),
    (effect_aluR_plain hi (i := .ctz w rd ra rb) rfl fun _ => rfl :),
    (effect_aluR_plain hi (i := .popc w rd ra rb) rfl fun _ => rfl :),
    (effect_aluR_plain hi (i := .bswap w rd ra rb) rfl fun _ => fBswap_eq :),
    (effect_aluRR_plain hi (i := .crc w rd ra rb) rfl fun _ _ => fCrc_eq :),
    (effect_aluR_plain hi (i := .clz32 w rd ra rb) rfl fun _ => rfl :),
    (effect_aluR_plain hi (i := .ctz32 w rd ra rb) rfl fun _ => rfl :),
    (effect_aluR_plain hi (i := .popc32 w rd ra rb) rfl fun _ => rfl :)⟩

/-! ### Targets of jumps -/

theorem and_not_eq_sub {n : Nat} (x y : BitVec n) : x &&& ~~~y = x - (x &&& y) := by
  have hzero : x &&& ~~~y &&& (x &&& y) = 0#n := by
    ext i hi
    cases hy : y[i] <;> simp [hy]
  have hsum : (x &&& ~~~y) + (x &&& y) = x := by
    rw [BitVec.add_eq_or_of_and_eq_zero _ _ hzero, ← BitVec.and_or_distrib_left]
    ext i hi
    cases y[i] <;> simp
  exact eq_sub_of_add_eq hsum

/-- An address with its two lowest bits cleared. -/
theorem and_not_three (x : Word64) : x &&& ~~~(3 : Word64) = x - BitVec.ofNat 64 (x.toNat % 4) := by
  have hlow : x &&& 3 = BitVec.ofNat 64 (x.toNat % 4) := by
    apply BitVec.eq_of_toNat_eq
    rw [BitVec.toNat_and, BitVec.toNat_ofNat, Nat.mod_eq_of_lt (show x.toNat % 4 < 2 ^ 64 by omega)]
    exact Nat.and_two_pow_sub_one_eq_mod x.toNat 2
  rw [and_not_eq_sub, hlow]
/-- Settles O27: a branch by its comparison, and each jump by its target. -/
theorem engineBranchesAndJumps : Obligations.EngineBranchesAndJumps := by
  intro s w ra rb rd off imm off26 hi
  refine ⟨(effect_branch hi (i := .brEq w ra rb off) rfl fun _ _ => beq_iff_eq :),
    (effect_branch hi (i := .brNe w ra rb off) rfl fun _ _ => bne_iff_ne :),
    (effect_branch hi (i := .brLt w ra rb off) rfl fun _ _ => decide_eq_true_iff :),
    (effect_branch hi (i := .brGe w ra rb off) rfl fun _ _ => not_fLt_iff :),
    (effect_branch hi (i := .brLtu w ra rb off) rfl fun _ _ => fLtu_iff :),
    (effect_branch hi (i := .brGeu w ra rb off) rfl fun _ _ => not_fLtu_iff :), ?call, ?jump, ?callr⟩
  case call => exact effect_meRun hi rfl (by rw [BitVec.mul_comm])
  case jump => exact effect_meRun hi rfl (by rw [BitVec.mul_comm])
  case callr => exact effect_meRun hi rfl (by rw [and_not_three, sext16])

end Sys2Proof.Machine
end

section
/-!
SUPPORT. Loads, stores and reservations of an engine in the arrays: local data memory, cluster memory and context
memory (13_message_engines.md, R376, R378; 14_ordering_and_locks.md, R402 to R405, R412 to R415).
-/
namespace Sys2Proof.Machine

section
variable {s : State} {w : Issue} {e c a n size k off dep : Nat} {ecc : Ecc} {p : EPlace} {signed : Bool}
variable {done : List Byte → State → State}

/-! ### Loads (R376) -/

/-- An error that the code corrects is counted (R373). -/
def countCorrected (ecc : Ecc) (k : Nat) (s : State) : State := if ecc = .correctable then bump 0x8403 k s else s

/-- What a load of `n` bytes of an array reads, and the state that it leaves. -/
def readArray (w : Issue) (ecc : Ecc) (dep a n : Nat) (s : State) : List Byte × State :=
  let o := ctxObserver w.engine w.ctx
  match placeOf a n with
  | .ldm off => (memRead (engine s w.engine).ldm off n, countCorrected ecc (clusterOf w.engine) s)
  | .cmem k off => ((observe o (some k) off n dep s).1, countCorrected ecc k (observe o (some k) off n dep s).2)
  | .context off => observe o none off n dep (cmRead off n [ecc] s).2.2
  | _ => ([], s)

/-- A load of `n` bytes finds the array there, with data that its code can give. -/
def Readable (ecc : Ecc) (a n : Nat) (s : State) : Prop :=
  match placeOf a n with
  | .ldm _ => ecc ≠ .uncorrectable
  | .cmem k _ => clusterOn s k = true ∧ ecc ≠ .uncorrectable
  | .context off => (cmRead off n [ecc] s).2.1 = false
  | _ => False

theorem Readable.inArray (h : Readable ecc a n s) : inArray (placeOf a n) = true := by
  unfold Readable at h
  cases hp : placeOf a n <;> simp [hp, Machine.inArray] at h ⊢

theorem sramRead_of_correctable {bs : List Byte} (h : ecc ≠ .uncorrectable) :
    sramRead w ecc k a bs done s = done bs (countCorrected ecc k s) := by
  cases ecc with
  | uncorrectable => exact absurd rfl h
  | correctable | clean => rfl

theorem localLoad_readable (h : Readable ecc a n s) :
    localLoad w ecc dep a n done s = done (readArray w ecc dep a n s).1 (readArray w ecc dep a n s).2 := by
  unfold Readable at h
  unfold localLoad readArray
  cases hp : placeOf a n <;> simp only [hp] at h ⊢
  case ldm => exact sramRead_of_correctable h
  case cmem =>
    obtain ⟨hon, hecc⟩ := h
    simp only [hon, Bool.not_true, Bool.false_eq_true, if_false]
    exact sramRead_of_correctable hecc
  case context => simp only [h, Bool.false_eq_true, if_false]

theorem toSigned_eq_toInt {m v : Nat} (hm : 0 < m) : toSigned m v = (BitVec.ofNat m v).toInt := by
  obtain ⟨j, rfl⟩ : ∃ j, m = j + 1 := ⟨m - 1, by omega⟩
  rw [toSigned, BitVec.toInt_eq_toNat_cond, BitVec.toNat_ofNat, Nat.add_sub_cancel, Nat.pow_succ]
  split_ifs <;> omega

theorem extend_signed {size : Nat} {bs : List Byte} (hs : 0 < size) :
    extend size true bs = (BitVec.ofNat (8 * size) (leNat bs)).signExtend 64 := by
  rw [extend, if_pos rfl, toSigned_eq_toInt (by omega)]
  rfl

/-! ### The parts of an access (R415) -/

theorem GoesTo.of_word (ha : a % n = 0) (hr : mayReach s e c n (placeOf a n) = true) :
    GoesTo s e c a n false (placeOf a n) :=
  ⟨ha, by simpa [parts] using hr, rfl⟩

theorem parts_whole (harr : inArray (placeOf a 8) = true) (ha : a % 16 = 0) : parts a 16 true = [(a, 16)] :=
  if_neg (by simp [ha, harr])

theorem parts_halves (ha : a % 16 = 8) : parts a 16 true = [(a, 8), (a + 8, 8)] :=
  if_pos (by simp [ha])

theorem GoesTo.of_whole (harr : Machine.inArray (placeOf a 8) = true) (ha : a % 16 = 0)
    (hr : mayReach s e c 16 (placeOf a 16) = true) : GoesTo s e c a 16 true (placeOf a 8) :=
  ⟨by simp only [if_true]; omega, by simpa [parts_whole harr ha] using hr, rfl⟩

theorem GoesTo.of_halves (ha : a % 16 = 8) (hlo : mayReach s e c 8 (placeOf a 8) = true)
    (hhi : mayReach s e c 8 (placeOf (a + 8) 8) = true) : GoesTo s e c a 16 true (placeOf a 8) :=
  ⟨by simp only [if_true]; omega, by simp [parts_halves ha, hlo, hhi], rfl⟩

/-- The pair of registers that LD2W leaves. -/
def pairLoaded (w : Issue) (rd : Fin 32) (bs : List Byte) (s : State) : State :=
  let e := w.engine.val
  let c := w.ctx.val
  let s1 := setStamp e c rd s.me.fences (setReg e c rd (BitVec.ofNat 64 (leNat (bs.take 8))) s)
  nextPc e c (setStamp e c (rd.val + 1) s1.me.fences
    (setReg e c (rd.val + 1) (BitVec.ofNat 64 (leNat (bs.drop 8))) s1))

theorem loadDone_pair {rd : Fin 32} {bs : List Byte} :
    loadDone w.engine w.ctx rd 8 false true bs s = pairLoaded w rd bs s := rfl

theorem doLoad_readable {rd size : Nat}
    (ha : a % size = 0) (hr : mayReach s w.engine w.ctx size (placeOf a size) = true)
    (h : Readable w.data a size (sampleAccess w.engine w.ctx (placeOf a size) a s)) :
    let r := readArray w w.data dep a size (sampleAccess w.engine w.ctx (placeOf a size) a s)
    doLoad w rd size signed false dep a s = .next (loadDone w.engine w.ctx rd size signed false r.1 r.2) := by
  intro r
  rw [doLoad_word (n := size) rfl (GoesTo.of_word ha hr) rfl h.inArray, localLoad_readable h]

theorem doLoad_whole {rd : Fin 32} (harr : inArray (placeOf a 8) = true) (ha : a % 16 = 0)
    (hr : mayReach s w.engine w.ctx 16 (placeOf a 16) = true)
    (h : Readable w.data a 16 (sampleAccess w.engine w.ctx (placeOf a 8) a s)) :
    let r := readArray w w.data dep a 16 (sampleAccess w.engine w.ctx (placeOf a 8) a s)
    doLoad w rd 8 false true dep a s = .next (pairLoaded w rd r.1 r.2) := by
  intro r
  rw [doLoad_array (n := 16) rfl (GoesTo.of_whole harr ha hr) harr, parts_whole harr ha]
  exact congrArg Host.Outcome.next ((localLoad_readable h).trans loadDone_pair)

theorem doLoad_halves {rd : Fin 32} (harr : inArray (placeOf a 8) = true) (ha : a % 16 = 8)
    (hlo : mayReach s w.engine w.ctx 8 (placeOf a 8) = true)
    (hhi : mayReach s w.engine w.ctx 8 (placeOf (a + 8) 8) = true) :
    let r := readArray w w.data dep a 8 (sampleAccess w.engine w.ctx (placeOf a 8) a s)
    let q := readArray w w.data2 dep (a + 8) 8 r.2
    Readable w.data a 8 (sampleAccess w.engine w.ctx (placeOf a 8) a s) → Readable w.data2 (a + 8) 8 r.2 →
    doLoad w rd 8 false true dep a s = .next (pairLoaded w rd (r.1 ++ q.1) q.2) := by
  intro r q h1 h2
  rw [doLoad_array (n := 16) rfl (GoesTo.of_halves ha hlo hhi) harr, parts_halves ha]
  exact congrArg Host.Outcome.next ((localLoad_readable h1).trans ((localLoad_readable h2).trans loadDone_pair))

/-! ### Stores (R403, R405) -/

/-- A store of `n` bytes finds the array there. -/
def Writable (a n : Nat) (s : State) : Prop :=
  match placeOf a n with
  | .ldm _ | .context _ => True
  | .cmem k _ => clusterOn s k = true
  | _ => False

theorem Writable.inArray (h : Writable a n s) : inArray (placeOf a n) = true := by
  unfold Writable at h
  cases hp : placeOf a n <;> simp [hp, Machine.inArray] at h ⊢

theorem Writable.clusterOff_eq_false (h : Writable a n s) : clusterOff s (placeOf a n) = false := by
  unfold Writable at h
  cases hp : placeOf a n <;> simp [hp, clusterOff] at h ⊢
  exact h

/-- A store to an array completes where no part of it lies in a cluster that is off. -/
theorem doStore_array {bs : List Byte} {pair : Bool} (hb : bs.length = n) (hn : pair = true → n = 16)
    (hg : GoesTo s w.engine w.ctx a n pair p) (hp : inArray p = true)
    (hon : ∀ q ∈ parts a n pair, clusterOff (sampleAccess w.engine w.ctx p a s) (placeOf q.1 q.2) = false) :
    doStore w bs pair a s = .next (nextPc w.engine w.ctx
      (storeParts w (parts a n pair) bs (sampleAccess w.engine w.ctx p a s))) := by
  have ht := hg.accessTrap_eq_none (pairLen_eq hn)
  have hplace := hg.place
  have hfind : (parts a n pair).find? (fun q => clusterOff (sampleAccess w.engine w.ctx p a s) (placeOf q.1 q.2)) =
      none := List.find?_eq_none.2 fun q hq => by simp [hon q hq]
  subst hb
  cases p with
  | ldm _ | cmem _ _ | context _ => simp only [doStore, ht, hplace, hfind]
  | _ => exact absurd hp Bool.false_ne_true

theorem doStore_writable {bs : List Byte} (hb : bs.length = n) (ha : a % n = 0)
    (hr : mayReach s w.engine w.ctx n (placeOf a n) = true)
    (h : Writable a n (sampleAccess w.engine w.ctx (placeOf a n) a s)) :
    doStore w bs false a s = .next (nextPc w.engine w.ctx
      (arrayStore w.engine w.ctx a bs w.data (sampleAccess w.engine w.ctx (placeOf a n) a s))) :=
  doStore_array hb nofun (GoesTo.of_word ha hr) h.inArray (by simpa [parts] using h.clusterOff_eq_false)

theorem doStore_whole {bs : List Byte} (hb : bs.length = 16) (harr : inArray (placeOf a 8) = true) (ha : a % 16 = 0)
    (hr : mayReach s w.engine w.ctx 16 (placeOf a 16) = true)
    (h : Writable a 16 (sampleAccess w.engine w.ctx (placeOf a 8) a s)) :
    doStore w bs true a s = .next (nextPc w.engine w.ctx
      (arrayStore w.engine w.ctx a bs w.data (sampleAccess w.engine w.ctx (placeOf a 8) a s))) := by
  rw [doStore_array hb (fun _ => rfl) (GoesTo.of_whole harr ha hr) harr, parts_whole harr ha]
  · rfl
  · simpa [parts_whole harr ha] using h.clusterOff_eq_false

theorem doStore_halves {lo hi : List Byte} (hlen : lo.length = 8) (hlen' : hi.length = 8)
    (harr : inArray (placeOf a 8) = true) (ha : a % 16 = 8)
    (hlo : mayReach s w.engine w.ctx 8 (placeOf a 8) = true)
    (hhi : mayReach s w.engine w.ctx 8 (placeOf (a + 8) 8) = true)
    (h1 : Writable a 8 (sampleAccess w.engine w.ctx (placeOf a 8) a s))
    (h2 : Writable (a + 8) 8 (sampleAccess w.engine w.ctx (placeOf a 8) a s)) :
    doStore w (lo ++ hi) true a s = .next (nextPc w.engine w.ctx (arrayStore w.engine w.ctx (a + 8) hi w.data2
      (arrayStore w.engine w.ctx a lo w.data (sampleAccess w.engine w.ctx (placeOf a 8) a s)))) := by
  rw [doStore_array (by simp [hlen, hlen']) (fun _ => rfl) (GoesTo.of_halves ha hlo hhi) harr, parts_halves ha]
  · simp [storeParts, ← hlen]
  · simp [parts_halves ha, h1.clusterOff_eq_false, h2.clusterOff_eq_false]

end

/-! ### The instructions -/

section
variable {s : State} {w : Issue} {rd ra : Fin 32} {imm : BitVec 16} {i : Instr} {major size : Nat}
variable (hi : Issues s w = true)
include hi

theorem effect_load {signed : Bool} {value : List Byte → Word64}
    (hx : exec i s = loadInstr w major rd ra imm size signed s) (hv : ∀ bs, extend size signed bs = value bs) :
    let e := w.engine.val
    let c := w.ctx.val
    let s1 := issued s w (wordI major rd ra imm) 1
    let a := (reg s1 e c ra + imm.signExtend 64).toNat
    let s2 := sampleAccess e c (placeOf a size) a s1
    let r := readArray w w.data (stampOf s1 e c ra) a size s2
    a % size = 0 → mayReach s1 e c size (placeOf a size) = true → Readable w.data a size s2 →
      Effect (exec i s) (fun t =>
        t = nextPc e c (setStamp e c rd r.2.me.fences (setReg e c rd (value r.1) r.2))) := by
  intro e c s1 a s2 r ha hr h
  rw [← hv]
  exact effect_of_finO (hx.trans (loadInstr_issues hi)) (doLoad_readable ha hr h)

theorem effect_store (hx : exec i s = storeInstr w major rd ra imm size s) :
    let e := w.engine.val
    let c := w.ctx.val
    let s1 := issued s w (wordI major rd ra imm) 2
    let a := (reg s1 e c ra + imm.signExtend 64).toNat
    let s2 := sampleAccess e c (placeOf a size) a s1
    a % size = 0 → mayReach s1 e c size (placeOf a size) = true → Writable a size s2 → Effect (exec i s) (fun t =>
      t = nextPc e c (arrayStore e c a (leBytes size (reg s1 e c rd).toNat) w.data s2)) := by
  intro e c s1 a s2 ha hr h
  exact effect_of_finO (hx.trans (storeInstr_issues hi)) (doStore_writable (length_leBytes ..) ha hr h)

theorem effect_ld2w :
    let e := w.engine.val
    let c := w.ctx.val
    let s1 := issued s w (wordI 0x17 rd ra imm) 3
    let a := (reg s1 e c ra + imm.signExtend 64).toNat
    let dep := stampOf s1 e c ra
    let s2 := sampleAccess e c (placeOf a 8) a s1
    rd.val % 2 = 0 → inArray (placeOf a 8) = true →
      (a % 16 = 0 → mayReach s1 e c 16 (placeOf a 16) = true → Readable w.data a 16 s2 →
        Effect (exec (.ld2w w rd ra imm) s) (fun t =>
          let r := readArray w w.data dep a 16 s2
          t = pairLoaded w rd r.1 r.2)) ∧
      (a % 16 = 8 → mayReach s1 e c 8 (placeOf a 8) = true → mayReach s1 e c 8 (placeOf (a + 8) 8) = true →
        let r := readArray w w.data dep a 8 s2
        Readable w.data a 8 s2 → Readable w.data2 (a + 8) 8 r.2 → Effect (exec (.ld2w w rd ra imm) s) (fun t =>
          let q := readArray w w.data2 dep (a + 8) 8 r.2
          t = pairLoaded w rd (r.1 ++ q.1) q.2)) := by
  intro e c s1 a dep s2 heven harr
  refine ⟨fun ha hr h => ?whole, fun ha hlo hhi h1 h2 => ?halves⟩
  case whole => exact effect_of_finO (execLd2w_even hi heven) (doLoad_whole harr ha hr h)
  case halves => exact effect_of_finO (execLd2w_even hi heven) (doLoad_halves harr ha hlo hhi h1 h2)

theorem effect_st2w :
    let e := w.engine.val
    let c := w.ctx.val
    let s1 := issued s w (wordI 0x1C rd ra imm) 3
    let a := (reg s1 e c ra + imm.signExtend 64).toNat
    let s2 := sampleAccess e c (placeOf a 8) a s1
    let lo := leBytes 8 (reg s1 e c rd).toNat
    let hi := leBytes 8 (reg s1 e c (rd + 1)).toNat
    rd.val % 2 = 0 → inArray (placeOf a 8) = true →
      (a % 16 = 0 → mayReach s1 e c 16 (placeOf a 16) = true → Writable a 16 s2 →
        Effect (exec (.st2w w rd ra imm) s) (fun t => t = nextPc e c (arrayStore e c a (lo ++ hi) w.data s2))) ∧
      (a % 16 = 8 → mayReach s1 e c 8 (placeOf a 8) = true → mayReach s1 e c 8 (placeOf (a + 8) 8) = true →
        Writable a 8 s2 → Writable (a + 8) 8 s2 → Effect (exec (.st2w w rd ra imm) s) (fun t =>
          t = nextPc e c (arrayStore e c (a + 8) hi w.data2 (arrayStore e c a lo w.data s2)))) := by
  intro e c s1 a s2 lo hi' heven harr
  have hlen {r : Nat} : (leBytes 8 (reg s1 e c r).toNat).length = 8 := length_leBytes ..
  refine ⟨fun ha hr h => ?whole, fun ha hlo hhi h1 h2 => ?halves⟩
  case whole =>
    have hboth : (lo ++ hi').length = 16 := by rw [List.length_append, length_leBytes, length_leBytes]
    exact effect_of_finO (execSt2w_even hi heven) (doStore_whole hboth harr ha hr h)
  case halves => exact effect_of_finO (execSt2w_even hi heven) (doStore_halves hlen hlen harr ha hlo hhi h1 h2)

end

/-- Settles O28: a word by `doLoad_readable`, a pair by its whole or its halves. -/
theorem engineLoadsReadTheArrays : Obligations.EngineLoadsReadTheArrays := by
  intro s w rd ra imm hi
  exact ⟨(effect_load hi (i := .ld8 w rd ra imm) rfl fun _ => extend_signed (by decide) :),
    (effect_load hi (i := .ld8u w rd ra imm) rfl fun _ => rfl :),
    (effect_load hi (i := .ld16 w rd ra imm) rfl fun _ => extend_signed (by decide) :),
    (effect_load hi (i := .ld16u w rd ra imm) rfl fun _ => rfl :),
    (effect_load hi (i := .ld32 w rd ra imm) rfl fun _ => extend_signed (by decide) :),
    (effect_load hi (i := .ld32u w rd ra imm) rfl fun _ => rfl :),
    (effect_load hi (i := .ld64 w rd ra imm) rfl fun _ => rfl :), (effect_ld2w hi :)⟩

/-- Settles O29: a word by `doStore_writable`, a pair by its whole or its halves. -/
theorem engineStoresWriteTheArrays : Obligations.EngineStoresWriteTheArrays := by
  intro s w rs ra imm hi
  exact ⟨(effect_store hi (i := .st8 w rs ra imm) rfl :), (effect_store hi (i := .st16 w rs ra imm) rfl :),
    (effect_store hi (i := .st32 w rs ra imm) rfl :), (effect_store hi (i := .st64 w rs ra imm) rfl :),
    (effect_st2w hi :)⟩

end Sys2Proof.Machine
end

section
/-!
SUPPORT. LRSV and SCND (14_ordering_and_locks.md, R412 to R414).
-/
namespace Sys2Proof.Machine

section
variable {s : State} {e c a n k off : Nat}

theorem accessTrap_word_reached (ha : a % 8 = 0) (hr : mayReach s e c 8 (placeOf a 8) = true) :
    accessTrap s e c a 8 false = none :=
  (GoesTo.of_word ha hr).accessTrap_eq_none rfl

/-- An aligned access is permitted or traps ACCESS. -/
theorem accessTrap_aligned (ha : a % n = 0) :
    accessTrap s e c a n false = some cACCESS ∨ accessTrap s e c a n false = none := by
  cases hr : mayReach s e c n (placeOf a n) with
  | false => exact .inl (accessTrap_unreachable (n := n) rfl ha (by simp [parts, hr]))
  | true => exact .inr ((GoesTo.of_word ha hr).accessTrap_eq_none rfl)

theorem accessTrap_word_misaligned (ha : a % 8 ≠ 0) : accessTrap s e c a 8 false = some cALIGN :=
  accessTrap_misaligned (n := 8) rfl ha

theorem accessTrap_word_unreachable (ha : a % 8 = 0) (hr : mayReach s e c 8 (placeOf a 8) = false) :
    accessTrap s e c a 8 false = some cACCESS :=
  accessTrap_unreachable (n := 8) rfl ha (by simp [parts, hr])

theorem granuleOf_eq_none {p : EPlace} (hcmem : ∀ k off, p ≠ .cmem k off) (hctx : ∀ off, p ≠ .context off) :
    granuleOf p = none := by
  cases p with
  | cmem k off => exact absurd rfl (hcmem k off)
  | context off => exact absurd rfl (hctx off)
  | _ => rfl

@[simp] theorem clusterOn_sampleAccess {p : EPlace} : clusterOn (sampleAccess e c p a s) k = clusterOn s k := rfl
@[simp] theorem clusterOn_seeRange {cl : Option Nat} : clusterOn (seeRange n cl off a s) k = clusterOn s k := rfl

end

/-! ### LRSV (R412) -/

section
variable {s : State} {w : Issue} {rd ra : Fin 32} {imm : BitVec 16} {k : Nat}

/-- The state in which an LRSV makes its access, and its address. -/
def lrsvState (s : State) (w : Issue) (rd ra : Fin 32) (imm : BitVec 16) : State := issued s w (wordI 0x1D rd ra imm) 3
def lrsvAddr (s : State) (w : Issue) (rd ra : Fin 32) (imm : BitVec 16) : Nat :=
  accessAt (lrsvState s w rd ra imm) w ra imm

/-- An LRSV has its 8 bytes, in the state that they leave, and reserves the granule. -/
def reserved (w : Issue) (rd : Fin 32) (g : Granule) (r : List Byte × State) : State :=
  let e := w.engine.val
  let c := w.ctx.val
  setCtx e c (fun x => { x with resv := some g })
    (nextPc e c (setStamp e c rd r.2.me.fences (setReg e c rd (BitVec.ofNat 64 (leNat r.1)) r.2)))

/-- What an LRSV of an array does with the 8 bytes that it has. -/
theorem localLoad_reserve {g : Granule} {ecc : Ecc} {a dep : Nat} {t : State} (h : Readable ecc a 8 t) :
    localLoad w ecc dep a 8 (fun bs s => setCtx w.engine w.ctx (fun x => { x with resv := some g })
      (loadDone w.engine w.ctx rd 8 false false bs s)) t = reserved w rd g (readArray w ecc dep a 8 t) :=
  localLoad_readable h

variable (hi : Issues s w = true) 
include hi

theorem effect_lrsv_trap {cause : Nat}
    (h : accessTrap (lrsvState s w rd ra imm) w.engine w.ctx (lrsvAddr s w rd ra imm) 8 false = some cause) :
    Effect (exec (.lrsv w rd ra imm) s) (fun t =>
      t = trapHere w.engine w.ctx cause (lrsvAddr s w rd ra imm) (lrsvState s w rd ra imm)) := by
  refine effect_meRun hi ?_ rfl
  simp only [lrsvState, lrsvAddr, accessAt] at h
  simp only [sext16, h]
  rfl

/-- Of a place that is no shared memory, LRSV traps ACCESS. -/
theorem effect_lrsv_elsewhere (ha : lrsvAddr s w rd ra imm % 8 = 0)
    (hg : granuleOf (placeOf (lrsvAddr s w rd ra imm) 8) = none) :
    Effect (exec (.lrsv w rd ra imm) s) (fun t =>
      t = trapHere w.engine w.ctx cACCESS (lrsvAddr s w rd ra imm) (lrsvState s w rd ra imm)) := by
  obtain h | h := accessTrap_aligned (s := lrsvState s w rd ra imm) (e := w.engine) (c := w.ctx) ha
  · exact effect_lrsv_trap hi h
  · refine effect_meRun hi ?_ rfl
    simp only [lrsvState, lrsvAddr, accessAt] at h hg
    simp only [sext16, h, hg]
    rfl

section
variable (hd : w.data = .clean) (ha : lrsvAddr s w rd ra imm % 8 = 0)
include hd ha

theorem effect_lrsv_cmem {off : Nat} (hp : placeOf (lrsvAddr s w rd ra imm) 8 = .cmem k off)
    (hr : mayReach (lrsvState s w rd ra imm) w.engine w.ctx 8 (.cmem k off) = true)
    (hon : clusterOn (lrsvState s w rd ra imm) k = true) :
    let s1 := lrsvState s w rd ra imm
    let o := ctxObserver w.engine w.ctx
    let s2 := seeRange o (some k) off 8 (sampleAccess w.engine w.ctx (.cmem k off) (lrsvAddr s w rd ra imm) s1)
    Effect (exec (.lrsv w rd ra imm) s) (fun t =>
      t = reserved w rd { cluster := some k, index := off / 128 } (observe o (some k) off 8 s1.me.fences s2)) := by
  intro s1 o s2
  have ht := accessTrap_word_reached ha (hp ▸ hr)
  have hread : Readable w.data (lrsvAddr s w rd ra imm) 8 s2 := by
    simp only [Readable, hp, hd, s2, clusterOn_seeRange, clusterOn_sampleAccess]
    exact ⟨hon, nofun⟩
  have hload := localLoad_reserve (w := w) (rd := rd) (g := { cluster := some k, index := off / 128 })
    (dep := s1.me.fences) hread
  simp only [readArray, hp, hd] at hload
  refine effect_meRun hi ?_ rfl
  simp only [lrsvState, lrsvAddr, accessAt, s1, s2, o] at ht hp hload ⊢
  simp only [sext16, ht, hp, hd, granuleOf]
  exact congrArg Host.Outcome.next hload

theorem effect_lrsv_context {off : Nat} (hp : placeOf (lrsvAddr s w rd ra imm) 8 = .context off)
    (hr : mayReach (lrsvState s w rd ra imm) w.engine w.ctx 8 (.context off) = true) :
    let s1 := lrsvState s w rd ra imm
    let o := ctxObserver w.engine w.ctx
    let r := cmRead off 8 [.clean]
      (seeRange o none off 8 (sampleAccess w.engine w.ctx (.context off) (lrsvAddr s w rd ra imm) s1))
    r.2.1 = false → Effect (exec (.lrsv w rd ra imm) s) (fun t =>
      t = reserved w rd { cluster := none, index := off / 128 } (observe o none off 8 s1.me.fences r.2.2)) := by
  intro s1 o r hb
  have ht := accessTrap_word_reached ha (hp ▸ hr)
  have hread : Readable w.data (lrsvAddr s w rd ra imm) 8
      (seeRange o none off 8 (sampleAccess w.engine w.ctx (.context off) (lrsvAddr s w rd ra imm) s1)) := by
    simp only [Readable, hp, hd]
    exact hb
  have hload := localLoad_reserve (w := w) (rd := rd) (g := { cluster := none, index := off / 128 })
    (dep := s1.me.fences) hread
  simp only [readArray, hp, hd] at hload
  refine effect_meRun hi ?_ rfl
  simp only [lrsvState, lrsvAddr, accessAt, s1, o, r] at ht hp hload ⊢
  simp only [sext16, ht, hp, hd, granuleOf]
  exact congrArg Host.Outcome.next hload

end
end

/-! ### SCND (R412, R414) -/

section
variable {s : State} {w : Issue} {rd ra rb : Fin 32}

/-- The state in which an SCND makes its access, its address, and the state in which it ends the reservation. -/
def scndState (s : State) (w : Issue) (rd ra rb : Fin 32) : State := issued s w (wordR 0x1E rd ra rb 0) 3
def scndAddr (s : State) (w : Issue) (rd ra rb : Fin 32) : Nat :=
  (reg (scndState s w rd ra rb) w.engine w.ctx ra).toNat
def scndUnreserved (s : State) (w : Issue) (rd ra rb : Fin 32) : State :=
  sampleAccess w.engine w.ctx (placeOf (scndAddr s w rd ra rb) 8) (scndAddr s w rd ra rb)
    (setCtx w.engine w.ctx (fun x => { x with resv := none }) (scndState s w rd ra rb))

variable (hi : Issues s w = true)
include hi

theorem effect_scnd_trap {cause : Nat}
    (h : accessTrap (scndState s w rd ra rb) w.engine w.ctx (scndAddr s w rd ra rb) 8 false = some cause) :
    Effect (exec (.scnd w rd ra rb) s) (fun t =>
      t = trapHere w.engine w.ctx cause (scndAddr s w rd ra rb) (scndState s w rd ra rb)) := by
  refine effect_meRun hi ?_ rfl
  simp only [scndState, scndAddr] at h
  simp only [h]
  rfl

theorem effect_scnd_elsewhere (ha : scndAddr s w rd ra rb % 8 = 0)
    (hg : granuleOf (placeOf (scndAddr s w rd ra rb) 8) = none) :
    Effect (exec (.scnd w rd ra rb) s) (fun t =>
      t = trapHere w.engine w.ctx cACCESS (scndAddr s w rd ra rb) (scndState s w rd ra rb)) := by
  obtain h | h := accessTrap_aligned (s := scndState s w rd ra rb) (e := w.engine) (c := w.ctx) ha
  · exact effect_scnd_trap hi h
  · refine effect_meRun hi ?_ rfl
    simp only [scndState, scndAddr] at h hg
    simp only [h, hg]
    rfl

section
variable (ha : scndAddr s w rd ra rb % 8 = 0)
  (hr : mayReach (scndState s w rd ra rb) w.engine w.ctx 8 (placeOf (scndAddr s w rd ra rb) 8) = true)
include ha hr

theorem effect_scnd_lost {g : Granule} (hg : granuleOf (placeOf (scndAddr s w rd ra rb) 8) = some g)
    (hlost : (ectx (scndState s w rd ra rb) w.engine w.ctx).resv ≠ some g) :
    Effect (exec (.scnd w rd ra rb) s) (fun t =>
      t = finish w.engine w.ctx rd 1 (bump 0x8637 0 (scndUnreserved s w rd ra rb))) := by
  have ht := accessTrap_word_reached ha hr
  refine effect_meRun hi ?_ rfl
  have hheld : ((ectx (scndState s w rd ra rb) w.engine w.ctx).resv == some g) = false := beq_eq_false_iff_ne.2 hlost
  simp only [scndState, scndAddr] at ht hg hheld
  simp only [ht, hg, hheld, Bool.false_eq_true, if_false]
  rfl

theorem effect_scnd_cmem {k off : Nat} (hp : placeOf (scndAddr s w rd ra rb) 8 = .cmem k off)
    (hheld : (ectx (scndState s w rd ra rb) w.engine w.ctx).resv = some { cluster := some k, index := off / 128 }) :
    Effect (exec (.scnd w rd ra rb) s) (fun t => t = finish w.engine w.ctx rd 0 (bump 0x8638 0
      (cmemStore w.engine w.ctx k off (leBytes 8 (reg (scndState s w rd ra rb) w.engine w.ctx rb).toNat)
        (scndUnreserved s w rd ra rb)))) := by
  have ht := accessTrap_word_reached ha hr
  refine effect_meRun hi ?_ rfl
  simp only [scndUnreserved, scndState, scndAddr] at ht hp hheld ⊢
  simp only [ht, hp, granuleOf, hheld, beq_self_eq_true, if_true]

theorem effect_scnd_context {off : Nat} (hp : placeOf (scndAddr s w rd ra rb) 8 = .context off)
    (hheld : (ectx (scndState s w rd ra rb) w.engine w.ctx).resv = some { cluster := none, index := off / 128 }) :
    Effect (exec (.scnd w rd ra rb) s) (fun t => t = finish w.engine w.ctx rd 0 (bump 0x8638 0
      (contextStore w.engine w.ctx off (leBytes 8 (reg (scndState s w rd ra rb) w.engine w.ctx rb).toNat) w.data
        (scndUnreserved s w rd ra rb)))) := by
  have ht := accessTrap_word_reached ha hr
  refine effect_meRun hi ?_ rfl
  simp only [scndUnreserved, scndState, scndAddr] at ht hp hheld ⊢
  simp only [ht, hp, granuleOf, hheld, beq_self_eq_true, if_true]

end
end

/-- Settles O31, by the kind of the place. -/
theorem engineLoadReserveAndStoreConditional : Obligations.EngineLoadReserveAndStoreConditional := by
  intro s w rd ra rb imm hi hd
  refine ⟨⟨⟨fun ha => (effect_lrsv_trap hi (accessTrap_word_misaligned ha) :),
      fun ha hr => (effect_lrsv_trap hi (accessTrap_word_unreachable ha hr) :),
      fun ha hg => (effect_lrsv_elsewhere hi ha hg :)⟩, fun ha hr => ⟨fun k off hp hon => ?cmem, ?context⟩⟩,
    ⟨⟨fun ha => (effect_scnd_trap hi (accessTrap_word_misaligned ha) :),
      fun ha hr => (effect_scnd_trap hi (accessTrap_word_unreachable ha hr) :),
      fun ha hg => (effect_scnd_elsewhere hi ha hg :)⟩,
    fun ha hr => ⟨fun k off hp hheld => (effect_scnd_cmem hi ha hr hp hheld :),
      fun off hp hheld => ?stored,
      fun g hg hlost => (effect_scnd_lost hi ha hr hg hlost :)⟩⟩⟩
  case stored =>
    have hstore := effect_scnd_context hi ha hr hp hheld
    rw [hd] at hstore
    exact hstore
  case cmem =>
    rw [clusterOn_sampleAccess] at hon
    rw [hp] at hr ⊢
    exact (effect_lrsv_cmem hi hd ha hp hr hon :)
  case context =>
    intro off hp
    rw [hp] at hr ⊢
    exact (effect_lrsv_context hi hd ha hp hr :)

/-- Settles O50, by the lemmas of O31. -/
theorem reservationsAreForSharedMemory : Obligations.ReservationsAreForSharedMemory := by
  intro s w rd ra rb imm hi hd
  exact ⟨fun ha => ⟨fun k off hp hr hon => (effect_lrsv_cmem hi hd ha hp hr hon :),
      fun off hp hr => (effect_lrsv_context hi hd ha hp hr :),
      fun hcmem hctx => (effect_lrsv_elsewhere hi ha (granuleOf_eq_none hcmem hctx) :)⟩,
    fun ha hcmem hctx => (effect_scnd_elsewhere hi ha (granuleOf_eq_none hcmem hctx) :)⟩

end Sys2Proof.Machine
end

section
/-!
SUPPORT. The registers of the engines' contexts: what a write and a finished instruction leave (13_message_engines.md,
R374, R378).
-/
namespace Sys2Proof.Machine

section
variable {q : List Instr} {s : State} {e c e2 c2 : Nat}

theorem Good.engine (h : Good q s) (e : Nat) : EngOk (engine s e) := by
  have hall : s.me.engines.all (fun x => x.2.sorted && x.2.memWf) = true :=
    List.all_eq_true.2 fun x hx => EngOk.of_engine.1 (h.me.engines.each x hx)
  exact EngOk.of_engine.2 (all_sget (p := fun g : Engine => g.sorted && g.memWf) e hall rfl)

theorem Good.mwf_regs (h : Good q s) (e c : Nat) : mwf (ectx s e c).regs = true :=
  all_sget (p := fun x : ECtx => mwf x.regs) c (h.engine e).regs rfl

/-! ### One context of one engine -/

theorem engine_setEngine (h : Good q s) (f : Engine → Engine) :
    engine (setEngine e f s) e2 = if e2 = e then f (engine s e) else engine s e2 :=
  sget_smod (d := ({} : Engine)) e e2 f h.me.engines.keys

theorem ectx_setCtx (h : Good q s) (f : ECtx → ECtx) :
    ectx (setCtx e c f s) e2 c2 = if e2 = e ∧ c2 = c then f (ectx s e c) else ectx s e2 c2 := by
  rw [ectx, setCtx, engine_setEngine h]
  by_cases he : e2 = e
  · subst he
    simp only [if_true, true_and]
    exact sget_smod (d := ({} : ECtx)) c c2 f (h.engine e2).ctxs
  · rw [if_neg he, if_neg fun hb => he hb.1]
    rfl

theorem engine_setCtx_memories (h : Good q s) (f : ECtx → ECtx) :
    (engine (setCtx e c f s) e2).ldm = (engine s e2).ldm ∧
      (engine (setCtx e c f s) e2).imem = (engine s e2).imem := by
  rw [setCtx, engine_setEngine h]
  by_cases he : e2 = e
  · subst he
    rw [if_pos rfl]
    exact ⟨rfl, rfl⟩
  · rw [if_neg he]
    exact ⟨rfl, rfl⟩

/-! ### What stays -/

/-- The memories of the engines and clusters and context memory are as before. -/
structure KeepsMemories (s t : State) : Prop where
  engines : ∀ e, (engine t e).ldm = (engine s e).ldm ∧ (engine t e).imem = (engine s e).imem
  clusters : t.me.cmem = s.me.cmem
  context : t.cm = s.cm

theorem KeepsMemories.trans {t u : State} (h : KeepsMemories s t) (g : KeepsMemories t u) : KeepsMemories s u where
  engines e := ⟨(g.engines e).1.trans (h.engines e).1, (g.engines e).2.trans (h.engines e).2⟩
  clusters := g.clusters.trans h.clusters
  context := g.context.trans h.context

theorem keepsMemories_setCtx (h : Good q s) (f : ECtx → ECtx) : KeepsMemories s (setCtx e c f s) :=
  ⟨fun _ => engine_setCtx_memories h f, rfl, rfl⟩

theorem KeepsMemories.of_eq {t : State} (hm : t.me.engines = s.me.engines) (hk : t.me.cmem = s.me.cmem)
    (hc : t.cm = s.cm) : KeepsMemories s t :=
  ⟨fun e => by simp only [Machine.engine, hm, and_self], hk, hc⟩

/-- A sample is recorded beside the engines. -/
theorem sampleWrite_engines (r : Nat × Nat × Nat × Nat × Nat) :
    (sampleWrite e c r s).me.engines = s.me.engines ∧ (sampleWrite e c r s).me.cmem = s.me.cmem ∧
      (sampleWrite e c r s).cm = s.cm := by
  unfold sampleWrite
  simp only
  split_ifs <;> exact ⟨rfl, rfl, rfl⟩

/-- What a context has of its program: its registers and its pc. -/
def programOf (s : State) (e c : Nat) : SMap Word64 × Word64 := ((ectx s e c).regs, (ectx s e c).pc)

theorem programOf_setCtx (h : Good q s) (f : ECtx → ECtx) :
    programOf (setCtx e c f s) e2 c2 =
      if e2 = e ∧ c2 = c then ((f (ectx s e c)).regs, (f (ectx s e c)).pc) else programOf s e2 c2 := by
  rw [programOf, ectx_setCtx h]
  split_ifs <;> rfl

theorem programOf_setCtx_same (h : Good q s) {f : ECtx → ECtx} (hregs : ∀ x, (f x).regs = x.regs)
    (hpc : ∀ x, (f x).pc = x.pc) : programOf (setCtx e c f s) e2 c2 = programOf s e2 c2 := by
  rw [programOf_setCtx h, hregs, hpc]
  split_ifs with hb
  · obtain ⟨rfl, rfl⟩ := hb
    rfl
  · rfl

theorem programOf_of_engines {t : State} (hm : t.me.engines = s.me.engines) :
    programOf t e2 c2 = programOf s e2 c2 := by
  simp only [programOf, ectx, Machine.engine, hm]

/-- An instruction that retires leaves the programs and the memories. -/
theorem retire_keeps (h : Good q s) :
    (∀ e2 c2, programOf (retire e c s) e2 c2 = programOf s e2 c2) ∧ KeepsMemories s (retire e c s) := by
  have hcount : (bumpEngine e 0 1 s).me.engines = s.me.engines := rfl
  have hkeeps : KeepsMemories s (bumpEngine e 0 1 s) := .of_eq rfl rfl rfl
  unfold retire
  simp only
  split
  · exact ⟨fun _ _ => programOf_of_engines hcount, hkeeps⟩
  · next r _ =>
    obtain ⟨hengines, hcmem, hcm⟩ := sampleWrite_engines (s := bumpEngine e 0 1 s) (e := e) (c := c) r
    have hgood := sampleWrite_good e c r (bumpEngine_good e 0 1 h)
    refine ⟨fun e2 c2 => Eq.trans ?_ (programOf_of_engines hengines),
      hkeeps.trans ((KeepsMemories.of_eq hengines hcmem hcm).trans (keepsMemories_setCtx hgood _))⟩
    exact programOf_setCtx_same hgood (fun _ => rfl) fun _ => rfl

/-! ### A result -/

theorem reg_eq_programOf {r : Nat} : reg s e c r = sget 0 (programOf s e c).1 r := rfl
theorem pcOf_eq_programOf : pcOf s e c = (programOf s e c).2 := rfl

theorem reg_setReg (h : Good q s) {r r2 : Nat} {v : Word64} :
    reg (setReg e c r v s) e2 c2 r2 = if e2 = e ∧ c2 = c ∧ r2 = r then v else reg s e2 c2 r2 := by
  rw [reg_eq_programOf, setReg, programOf_setCtx h]
  by_cases hctx : e2 = e ∧ c2 = c
  · obtain ⟨rfl, rfl⟩ := hctx
    simp only [and_self, if_true, true_and]
    exact sget_sset r r2 v (h.mwf_regs e2 c2)
  · rw [if_neg hctx, if_neg fun hb => hctx ⟨hb.1, hb.2.1⟩]
    rfl

theorem pcOf_setReg (h : Good q s) {r : Nat} {v : Word64} : pcOf (setReg e c r v s) e2 c2 = pcOf s e2 c2 := by
  rw [pcOf_eq_programOf, setReg, programOf_setCtx h]
  split_ifs with hb
  · obtain ⟨rfl, rfl⟩ := hb
    rfl
  · rfl

theorem programOf_setPc (h : Good q s) {v : Word64} :
    programOf (setPc e c v s) e2 c2 = ((programOf s e2 c2).1, if e2 = e ∧ c2 = c then v else pcOf s e2 c2) := by
  rw [setPc, programOf_setCtx h]
  split_ifs with hb
  · obtain ⟨rfl, rfl⟩ := hb
    rfl
  · rfl

theorem programOf_nextPc (h : Good q s) :
    programOf (nextPc e c s) e2 c2 =
      ((programOf s e2 c2).1, if e2 = e ∧ c2 = c then pcOf s e c + 4 else pcOf s e2 c2) := by
  rw [nextPc, (retire_keeps (setPc_good e c _ h)).1, programOf_setPc h]

theorem nextPc_keepsMemories (h : Good q s) : KeepsMemories s (nextPc e c s) :=
  (keepsMemories_setCtx h _).trans (retire_keeps (setPc_good e c _ h)).2

end

/-- Settles O58: the result in its register, then the pc; retiring touches neither. -/
theorem engineRegistersKeepWhatIsWritten : Obligations.EngineRegistersKeepWhatIsWritten := by
  intro s e c r v hcanon
  have h : Good s.pending s := good_iff.2 ⟨rfl, hcanon⟩
  have hreg := setReg_good e c r v h
  have hkeeps : KeepsMemories s (finish e c r v s) := (keepsMemories_setCtx h _).trans (nextPc_keepsMemories hreg)
  refine ⟨fun _ _ _ => reg_setReg h, fun _ _ => pcOf_setReg h, fun e2 c2 r2 => ?reg, fun e2 c2 => ?pc,
    fun e2 a => ?engines, fun k a => ?clusters, fun a => ?context⟩
  case reg =>
    rw [reg_eq_programOf, finish, programOf_nextPc hreg]
    exact reg_setReg h
  case pc =>
    rw [pcOf_eq_programOf, finish, programOf_nextPc hreg, pcOf_setReg h, pcOf_setReg h]
  case engines =>
    obtain ⟨hldm, himem⟩ := hkeeps.engines e2
    rw [hldm, himem]
    exact ⟨rfl, rfl⟩
  case clusters => rw [cmem, hkeeps.clusters, cmem]
  case context => rw [hkeeps.context]

end Sys2Proof.Machine
end

section
/-!
SUPPORT. ACQUIRE, RELEASE and TRY of the engines (14_ordering_and_locks.md, R416, R419, R424, R425).
-/
namespace Sys2Proof.Machine

/-! ### Unit operations -/

section
variable {s : State} {w : Issue} {rd ra : Fin 32} {selector : Nat} {i : Instr} {body : State → Out3} {t : State}

/-- The state in which a unit operation has its effect. -/
def unitState (s : State) (w : Issue) (rd ra : Fin 32) (selector : Nat) : State :=
  issued s w (wordX 0x34 rd ra 0 selector) 5

/-- A unit operation of a context whose item is not abandoned has its own effect (R396). -/
theorem effect_unitOp (hi : Issues s w = true) (hx : exec i s = unitOp w rd ra selector body s)
    (hl : isAbandoned (unitState s w rd ra selector) w.engine w.ctx = false)
    (hb : body (unitState s w rd ra selector) = .next t) : Effect (exec i s) (fun u => u = t) := by
  rw [hx, unitOp]
  refine effect_meRun hi ?_ rfl
  unfold unitState at hl hb
  simp only [hl, Bool.false_eq_true, if_false]
  exact hb

end

/-! ### Checks -/

section
variable {s : State} {e c l : Nat}

theorem lockCheck_firmware (hl : l < 4096) (hp : inPackage s e c = false) : lockCheck s e c l = none := by
  simp [lockCheck, hp, Nat.not_le.2 hl]

theorem lockCheck_badLock (hl : 4096 ≤ l) : lockCheck s e c l = some 12 := if_pos hl

theorem holderIs_of_free {p : Party} (h : (lockOf s l).holder = none) : holderIs s l p = false := by
  simp only [holderIs, h]

theorem holderIs_of_held {p : Party} {h : Holder} (hh : (lockOf s l).holder = some h) :
    holderIs s l p = (h.party == p) := by
  simp only [holderIs, hh]

theorem fld_priority (n : Nat) : fld n 3 0 = n % 16 := by simp [fld]

end

/-! ### The instructions -/

section
variable {s : State} {w : Issue} {rd ra : Fin 32}
variable (hi : Issues s w = true)

/-- The lock that the instruction names, and the result that ends it. -/
def lockNamed (s1 : State) (w : Issue) (ra : Fin 32) : Nat := (reg s1 w.engine w.ctx ra).toNat
def lockEnds (w : Issue) (rd : Fin 32) (v : Nat) (s1 : State) : State :=
  finish w.engine w.ctx rd (BitVec.ofNat 64 v) s1

/-- The context may use the lock that it names, in firmware mode. -/
structure MayUse (s1 : State) (w : Issue) (ra : Fin 32) : Prop where
  number : lockNamed s1 w ra < 4096
  firmware : inPackage s1 w.engine w.ctx = false
  kept : isAbandoned s1 w.engine w.ctx = false

theorem MayUse.lockCheck {s1 : State} (h : MayUse s1 w ra) :
    lockCheck s1 w.engine w.ctx (reg s1 w.engine w.ctx ra).toNat = none :=
  lockCheck_firmware h.number h.firmware

include hi

section
variable {h : Holder} (hm : MayUse (unitState s w rd ra 0x10) w ra)
include hm

theorem effect_acquire_free
    (hf : (lockOf (unitState s w rd ra 0x10) (lockNamed (unitState s w rd ra 0x10) w ra)).holder = none) :
    let s1 := unitState s w rd ra 0x10
    let x := ectx s1 w.engine w.ctx
    Effect (exec (.acquire w rd ra) s) (fun t => t = lockEnds w rd 0
      (takeLock (lockNamed s1 w ra) (ctxParty w.engine w.ctx) (x.priority.toNat % 16) 0 (bump 0x8630 0 s1))) := by
  intro s1 x
  refine effect_unitOp hi rfl hm.kept ?_
  have hcheck := hm.lockCheck
  unfold lockNamed at hf
  simp only [hcheck, holderIs_of_free hf, hf, Option.isNone_none, Bool.false_eq_true, if_false, if_true, fld_priority]
  rfl

variable (hh : (lockOf (unitState s w rd ra 0x10) (lockNamed (unitState s w rd ra 0x10) w ra)).holder = some h)
include hh

theorem effect_acquire_own (hg : (ectx (unitState s w rd ra 0x10) w.engine w.ctx).granted = none)
    (hp : h.party = ctxParty w.engine w.ctx) :
    Effect (exec (.acquire w rd ra) s) (fun t => t = lockEnds w rd 4 (unitState s w rd ra 0x10)) := by
  refine effect_unitOp hi rfl hm.kept ?_
  have hcheck := hm.lockCheck
  unfold lockNamed at hh
  simp only [hcheck, holderIs_of_held hh, hp, beq_self_eq_true, if_true, hg]
  rfl

theorem effect_acquire_queued (hp : h.party ≠ ctxParty w.engine w.ctx)
    (hw : waitsFor (unitState s w rd ra 0x10) (ctxParty w.engine w.ctx) = none) :
    let s1 := unitState s w rd ra 0x10
    let x := ectx s1 w.engine w.ctx
    let l := lockNamed s1 w ra
    Effect (exec (.acquire w rd ra) s) (fun t => t = block w.engine w.ctx (.lock l rd)
      (enqueueWaiter l (ctxParty w.engine w.ctx) (x.priority.toNat % 16) 0 (bump 0x8630 0 s1))) := by
  intro s1 x l
  refine effect_unitOp hi rfl hm.kept ?_
  have hcheck := hm.lockCheck
  unfold lockNamed at hh
  simp only [hcheck, holderIs_of_held hh, beq_eq_false_iff_ne.2 hp, hh, hw, Option.isNone_some, Bool.false_eq_true,
    if_false, fld_priority, reduceCtorEq, beq_iff_eq]
  rfl

end

section
variable (hm : MayUse (unitState s w rd ra 0x11) w ra)
include hm

theorem effect_release_held
    (hb : holderIs (unitState s w rd ra 0x11) (lockNamed (unitState s w rd ra 0x11) w ra)
      (ctxParty w.engine w.ctx) = true) :
    let s1 := unitState s w rd ra 0x11
    Effect (exec (.release w rd ra) s) (fun t =>
      t = lockEnds w rd 0 (giveUp (lockNamed s1 w ra) (ctxParty w.engine w.ctx) false s1)) := by
  intro s1
  refine effect_unitOp hi rfl hm.kept ?_
  have hcheck := hm.lockCheck
  unfold lockNamed at hb
  simp only [hcheck, hb, if_true]
  rfl

theorem effect_release_other
    (hb : holderIs (unitState s w rd ra 0x11) (lockNamed (unitState s w rd ra 0x11) w ra)
      (ctxParty w.engine w.ctx) = false) :
    Effect (exec (.release w rd ra) s) (fun t => t = lockEnds w rd 3 (unitState s w rd ra 0x11)) := by
  refine effect_unitOp hi rfl hm.kept ?_
  have hcheck := hm.lockCheck
  unfold lockNamed at hb
  simp only [hcheck, hb, Bool.false_eq_true, if_false]
  rfl

end

section
variable {h : Holder} (hm : MayUse (unitState s w rd ra 0x12) w ra)
include hm

theorem effect_tryLock_free
    (hf : (lockOf (unitState s w rd ra 0x12) (lockNamed (unitState s w rd ra 0x12) w ra)).holder = none) :
    let s1 := unitState s w rd ra 0x12
    let x := ectx s1 w.engine w.ctx
    Effect (exec (.tryLock w rd ra) s) (fun t => t = lockEnds w rd 0
      (takeLock (lockNamed s1 w ra) (ctxParty w.engine w.ctx) (x.priority.toNat % 16) 0 s1)) := by
  intro s1 x
  refine effect_unitOp hi rfl hm.kept ?_
  have hcheck := hm.lockCheck
  unfold lockNamed at hf
  simp only [hcheck, holderIs_of_free hf, hf, Option.isNone_none, Bool.false_eq_true, if_false, if_true, fld_priority]
  rfl

variable (hh : (lockOf (unitState s w rd ra 0x12) (lockNamed (unitState s w rd ra 0x12) w ra)).holder = some h)
include hh

theorem effect_tryLock_own (hp : h.party = ctxParty w.engine w.ctx) :
    Effect (exec (.tryLock w rd ra) s) (fun t => t = lockEnds w rd 4 (unitState s w rd ra 0x12)) := by
  refine effect_unitOp hi rfl hm.kept ?_
  have hcheck := hm.lockCheck
  unfold lockNamed at hh
  simp only [hcheck, holderIs_of_held hh, hp, beq_self_eq_true, if_true]
  rfl

theorem effect_tryLock_other (hp : h.party ≠ ctxParty w.engine w.ctx) :
    Effect (exec (.tryLock w rd ra) s) (fun t =>
      t = lockEnds w rd 1 (bump 0x8633 0 (unitState s w rd ra 0x12))) := by
  refine effect_unitOp hi rfl hm.kept ?_
  have hcheck := hm.lockCheck
  unfold lockNamed at hh
  simp only [hcheck, holderIs_of_held hh, beq_eq_false_iff_ne.2 hp, hh, Option.isNone_some, Bool.false_eq_true,
    if_false]
  rfl

end

/-- A lock number that names none ends the three instructions alike. -/
theorem effect_badLock {i : Instr} {selector : Nat} {body : State → Out3}
    (hx : exec i s = unitOp w rd ra selector body s)
    (hbody : ∀ s1, lockCheck s1 w.engine w.ctx (lockNamed s1 w ra) = some 12 →
      body s1 = .next (lockEnds w rd 12 s1))
    (hk : isAbandoned (unitState s w rd ra selector) w.engine w.ctx = false)
    (hl : 4096 ≤ lockNamed (unitState s w rd ra selector) w ra) :
    Effect (exec i s) (fun t => t = lockEnds w rd 12 (unitState s w rd ra selector)) :=
  effect_unitOp hi hx hk (hbody _ (lockCheck_badLock hl))

end

/-- Settles O33, by who holds the lock. -/
theorem engineLockInstructions : Obligations.EngineLockInstructions := by
  intro s w rd ra hi
  have hmay (selector : Nat) (h : lockNamed (unitState s w rd ra selector) w ra < 4096 ∧
      inPackage (unitState s w rd ra selector) w.engine w.ctx = false ∧
      isAbandoned (unitState s w rd ra selector) w.engine w.ctx = false) :
      MayUse (unitState s w rd ra selector) w ra := ⟨h.1, h.2.1, h.2.2⟩
  refine ⟨fun h hm hg => ⟨fun hf => (effect_acquire_free hi (hmay 0x10 hm) hf :),
      fun hh hp => (effect_acquire_own hi (hmay 0x10 hm) hh hg hp :),
      fun hh hp hw => (effect_acquire_queued hi (hmay 0x10 hm) hh hp hw :)⟩,
    fun hm => ⟨fun hb => (effect_release_held hi (hmay 0x11 hm) hb :),
      fun hb => (effect_release_other hi (hmay 0x11 hm) hb :)⟩,
    fun h hm => ⟨fun hf => (effect_tryLock_free hi (hmay 0x12 hm) hf :),
      fun hh hp => (effect_tryLock_own hi (hmay 0x12 hm) hh hp :),
      fun hh hp => (effect_tryLock_other hi (hmay 0x12 hm) hh hp :)⟩,
    (effect_badLock hi (i := .acquire w rd ra) rfl ?_ :), (effect_badLock hi (i := .release w rd ra) rfl ?_ :),
    (effect_badLock hi (i := .tryLock w rd ra) rfl ?_ :)⟩
  all_goals
    intro s1 h
    simp only [lockNamed] at h
    simp only [h]
    rfl

end Sys2Proof.Machine
end

section
/-!
SUPPORT. System instructions of the engines: special registers, traps and waits, fences, moves (13_message_engines.md,
R380 to R384, R390; 14_ordering_and_locks.md, R406 to R408).
-/
namespace Sys2Proof.Machine

/-! ### A context that has been written -/

/-- What was written is read there, where it is listed. -/
theorem sget_sset_of_ne_default {α : Type} [DecidableEq α] {d v : α} (m : SMap α) (k : Nat) (h : v ≠ d) :
    sget d (sset d m k v) k = v := by
  induction m with
  | nil => simp [sset, h, sget]
  | cons x r ih =>
    obtain ⟨j, u⟩ := x
    rcases Nat.lt_trichotomy k j with hk | hk | hk
    · simp [sset, hk, h, sget]
    · simp [sset, hk, h, sget]
    · simp [sset, Nat.not_lt.2 hk.le, hk.ne', sget, hk.ne, ih]

theorem ectx_setCtx_of_ne_default {s : State} {e c : Nat} {f : ECtx → ECtx} (h : f (ectx s e c) ≠ {}) :
    ectx (setCtx e c f s) e c = f (ectx s e c) := by
  have hctx : sget {} (smod {} (engine s e).ctxs c f) c = f (ectx s e c) := sget_sset_of_ne_default _ c h
  have hengine : engine (setCtx e c f s) e = { engine s e with ctxs := smod {} (engine s e).ctxs c f } := by
    refine sget_sset_of_ne_default _ e fun hdefault => h ?_
    have hnone : smod {} (engine s e).ctxs c f = [] := congrArg Engine.ctxs hdefault
    rw [← hctx, hnone]
    rfl
  rw [ectx, hengine]
  exact hctx

/-! ### Special registers (R380, Table 13-6) -/

theorem mem_of_lookup {β : Type} {l : List (Nat × β)} {n : Nat} {b : β} (h : l.lookup n = some b) : (n, b) ∈ l := by
  obtain ⟨l1, l2, rfl, -⟩ := List.lookup_eq_some_iff.1 h
  simp

section
variable {s : State} {w : Issue} {rd ra : Fin 32} {sel : BitVec 12} {v : Word64} {e c n : Nat}

/-- The special registers that hold a value, with it (Table 13-6). -/
def specialValues (s : State) (e c : Nat) : List (Nat × Word64) :=
  let r := ectx s e c
  [(0, r.status), (1, r.cause), (2, r.vector), (3, r.priority), (4, r.resume), (5, r.faultaddr),
    (6, BitVec.ofNat 64 (c * 256 + e)), (7, r.asid), (8, r.tenant), (10, sget 0 r.rwin 0), (11, sget 0 r.rwin 1),
    (12, sget 0 r.rwin 2), (13, sget 0 r.rwin 3), (15, r.scratch), (16, r.mtcmp), (17, r.pending), (18, r.pbase)]

/-- The special registers that firmware writes, with what a write does (Table 13-6). -/
def specialWrites : List (Nat × (Word64 → ECtx → ECtx)) :=
  [(0, fun v x => { x with status := v &&& statusMask }), (1, fun v x => { x with cause := v }),
    (2, fun v x => { x with vector := v }), (3, fun v x => { x with priority := v &&& 0xF }),
    (4, fun v x => { x with resume := v }), (5, fun v x => { x with faultaddr := v }),
    (7, fun v x => { x with asid := v &&& 0xFFFF }), (8, fun v x => { x with tenant := v &&& 0xFFFF }),
    (10, fun v x => { x with rwin := sset 0 x.rwin 0 v }), (11, fun v x => { x with rwin := sset 0 x.rwin 1 v }),
    (12, fun v x => { x with rwin := sset 0 x.rwin 2 v }), (13, fun v x => { x with rwin := sset 0 x.rwin 3 v }),
    (15, fun v x => { x with scratch := v }), (16, fun v x => { x with mtcmp := v, mtcmpDone := false }),
    (17, fun v x => { x with pending := x.pending &&& ~~~v })]

theorem readSpecial_value (h : (specialValues s e c).lookup n = some v) : n ≤ 18 ∧ readSpecial e c n s = (v, s) := by
  have hmem := mem_of_lookup h
  simp only [specialValues, List.mem_cons, Prod.mk.injEq, List.not_mem_nil, or_false] at hmem
  rcases hmem with ⟨rfl, rfl⟩ | ⟨rfl, rfl⟩ | ⟨rfl, rfl⟩ | ⟨rfl, rfl⟩ | ⟨rfl, rfl⟩ | ⟨rfl, rfl⟩ | ⟨rfl, rfl⟩ |
    ⟨rfl, rfl⟩ | ⟨rfl, rfl⟩ | ⟨rfl, rfl⟩ | ⟨rfl, rfl⟩ | ⟨rfl, rfl⟩ | ⟨rfl, rfl⟩ | ⟨rfl, rfl⟩ | ⟨rfl, rfl⟩ |
    ⟨rfl, rfl⟩ | ⟨rfl, rfl⟩ <;> exact ⟨by decide, rfl⟩

theorem writeSpecial_write {write : Word64 → ECtx → ECtx} (h : specialWrites.lookup n = some write) :
    (18 < n || neverWritten n) = false ∧ writeSpecial n v false = write v := by
  have hmem := mem_of_lookup h
  simp only [specialWrites, List.mem_cons, Prod.mk.injEq, List.not_mem_nil, or_false] at hmem
  rcases hmem with ⟨rfl, rfl⟩ | ⟨rfl, rfl⟩ | ⟨rfl, rfl⟩ | ⟨rfl, rfl⟩ | ⟨rfl, rfl⟩ | ⟨rfl, rfl⟩ | ⟨rfl, rfl⟩ |
    ⟨rfl, rfl⟩ | ⟨rfl, rfl⟩ | ⟨rfl, rfl⟩ | ⟨rfl, rfl⟩ | ⟨rfl, rfl⟩ | ⟨rfl, rfl⟩ | ⟨rfl, rfl⟩ | ⟨rfl, rfl⟩ <;>
    exact ⟨by decide, rfl⟩

/-- The registers that no write changes (Table 13-6). -/
theorem unwritable_iff (n : Nat) :
    (18 < n || neverWritten n) = true ↔ 18 < n ∨ n = 6 ∨ n = 9 ∨ n = 14 ∨ n = 18 := by
  simp [neverWritten, or_assoc]

/-- The state in which an instruction of major 0x30 has its effect. -/
def systemState (s : State) (w : Issue) (rd ra : Fin 32) (function selector : Nat) : State :=
  issued s w (wordX 0x30 rd ra function selector) 0

variable (hi : Issues s w = true)
include hi

theorem effect_rds (hn : sel.toNat ≤ 18)
    (hp : inPackage (systemState s w rd ra 1 sel.toNat) w.engine w.ctx = false) :
    let r := readSpecial w.engine w.ctx sel.toNat (systemState s w rd ra 1 sel.toNat)
    Effect (exec (.rds w rd ra sel) s) (fun t => t = finish w.engine w.ctx rd r.1 r.2) := by
  intro r
  refine effect_meRun hi ?_ rfl
  unfold systemState at hp
  simp only [hp, Nat.not_lt.2 hn, if_false, Bool.false_and, Bool.false_eq_true]
  rfl

theorem effect_rds_value (hp : inPackage (systemState s w rd ra 1 sel.toNat) w.engine w.ctx = false)
    (h : (specialValues (systemState s w rd ra 1 sel.toNat) w.engine w.ctx).lookup sel.toNat = some v) :
    Effect (exec (.rds w rd ra sel) s) (fun t =>
      t = finish w.engine w.ctx rd v (systemState s w rd ra 1 sel.toNat)) := by
  obtain ⟨hn, hread⟩ := readSpecial_value h
  have hrds := effect_rds hi hn hp
  rwa [hread] at hrds

theorem effect_rds_cycle (hn : sel.toNat = 9)
    (hp : inPackage (systemState s w rd ra 1 sel.toNat) w.engine w.ctx = false) :
    let r := draw (2 ^ 64) (systemState s w rd ra 1 sel.toNat)
    Effect (exec (.rds w rd ra sel) s) (fun t => t = finish w.engine w.ctx rd (BitVec.ofNat 64 r.1) r.2) := by
  intro r
  have hrds := effect_rds hi (by omega) hp
  simp only [readSpecial, hn] at hrds
  rwa [← hn] at hrds

theorem effect_rds_budget (hn : sel.toNat = 14)
    (hp : inPackage (systemState s w rd ra 1 sel.toNat) w.engine w.ctx = false) :
    let s1 := systemState s w rd ra 1 sel.toNat
    let r := draw ((ectx s1 w.engine w.ctx).budget.toNat + 1) s1
    Effect (exec (.rds w rd ra sel) s) (fun t => t = finish w.engine w.ctx rd (BitVec.ofNat 64 r.1) r.2) := by
  intro s1 r
  have hrds := effect_rds hi (by omega) hp
  simp only [readSpecial, hn] at hrds
  rwa [← hn] at hrds

theorem effect_rds_undefined (hn : 18 < sel.toNat) :
    Effect (exec (.rds w rd ra sel) s) (fun t =>
      t = trapHere w.engine w.ctx cILLEGAL 0 (systemState s w rd ra 1 sel.toNat)) :=
  effect_meRun hi (if_pos hn) rfl

theorem effect_rds_barred (hp : inPackage (systemState s w rd ra 1 sel.toNat) w.engine w.ctx = true)
    (hn : sel.toNat = 2 ∨ sel.toNat = 4) :
    Effect (exec (.rds w rd ra sel) s) (fun t =>
      t = trapHere w.engine w.ctx cACCESS 0 (systemState s w rd ra 1 sel.toNat)) := by
  refine effect_meRun hi ?_ rfl
  have hread : pkgReads sel.toNat = false := by obtain h | h := hn <;> rw [h] <;> rfl
  unfold systemState at hp
  simp only [hp, hread, show ¬18 < sel.toNat by omega, if_false, Bool.not_false, Bool.and_self, if_true]
  rfl

theorem effect_wrs_value {write : Word64 → ECtx → ECtx}
    (hp : inPackage (systemState s w rd ra 2 sel.toNat) w.engine w.ctx = false)
    (h : specialWrites.lookup sel.toNat = some write) :
    let s1 := systemState s w rd ra 2 sel.toNat
    Effect (exec (.wrs w rd ra sel) s) (fun t =>
      t = nextPc w.engine w.ctx (setCtx w.engine w.ctx (write (reg s1 w.engine w.ctx ra)) s1)) := by
  intro s1
  obtain ⟨hlegal, hwrite⟩ := writeSpecial_write (v := reg s1 w.engine w.ctx ra) h
  refine effect_meRun hi ?_ rfl
  unfold systemState at hp
  simp only [s1, systemState] at hwrite ⊢
  simp only [hp, hlegal, hwrite, Bool.false_and, Bool.false_eq_true, if_false]

theorem effect_wrs_illegal (h : (18 < sel.toNat || neverWritten sel.toNat) = true) :
    Effect (exec (.wrs w rd ra sel) s) (fun t =>
      t = trapHere w.engine w.ctx cILLEGAL 0 (systemState s w rd ra 2 sel.toNat)) :=
  effect_meRun hi (if_pos h) rfl

theorem effect_wrs_barred (hp : inPackage (systemState s w rd ra 2 sel.toNat) w.engine w.ctx = true)
    (hn : sel.toNat ∈ [1, 2, 3, 4, 5, 7, 8, 17]) :
    Effect (exec (.wrs w rd ra sel) s) (fun t =>
      t = trapHere w.engine w.ctx cACCESS 0 (systemState s w rd ra 2 sel.toNat)) := by
  refine effect_meRun hi ?_ rfl
  have hbarred : (18 < sel.toNat || neverWritten sel.toNat) = false ∧ pkgWrites sel.toNat = false := by
    revert hn
    generalize sel.toNat = n
    intro hn
    simp only [List.mem_cons, List.not_mem_nil, or_false] at hn
    rcases hn with rfl | rfl | rfl | rfl | rfl | rfl | rfl | rfl <;> decide
  obtain ⟨hlegal, hwrites⟩ := hbarred
  unfold systemState at hp
  simp only [hp, hlegal, hwrites, Bool.false_eq_true, if_false, Bool.not_false, Bool.and_self, if_true]
  rfl

/-! ### RETURN and WAIT (R382, R384) -/

theorem effect_ret_firmware (hp : inPackage (systemState s w rd ra 4 sel.toNat) w.engine w.ctx = false) :
    Effect (exec (.ret w rd ra sel) s) (fun t => t = retire w.engine w.ctx
      (setCtx w.engine w.ctx trapReturn (systemState s w rd ra 4 sel.toNat))) :=
  effect_meRun hi (if_neg (by simpa [systemState] using hp)) rfl

theorem effect_ret_package (hp : inPackage (systemState s w rd ra 4 sel.toNat) w.engine w.ctx = true) :
    Effect (exec (.ret w rd ra sel) s) (fun t =>
      t = trapHere w.engine w.ctx cILLEGAL 0 (systemState s w rd ra 4 sel.toNat)) :=
  effect_meRun hi (if_pos hp) rfl

/-- The events of its mask that a WAIT finds pending. -/
def waitTakes (s1 : State) (w : Issue) (ra : Fin 32) : Nat :=
  Nat.land (fld (reg s1 w.engine w.ctx ra).toNat 4 0) (pendingBits (ectx s1 w.engine w.ctx))

theorem effect_wait_blocks (h : waitTakes (systemState s w rd ra 5 sel.toNat) w ra = 0) :
    let s1 := systemState s w rd ra 5 sel.toNat
    Effect (exec (.wait w rd ra sel) s) (fun t =>
      t = block w.engine w.ctx (.event (fld (reg s1 w.engine w.ctx ra).toNat 4 0) rd) s1) :=
  effect_meRun hi (if_pos h) rfl

theorem effect_wait_takes (h : waitTakes (systemState s w rd ra 5 sel.toNat) w ra ≠ 0) :
    let s1 := systemState s w rd ra 5 sel.toNat
    let took := waitTakes s1 w ra
    Effect (exec (.wait w rd ra sel) s) (fun t =>
      t = finish w.engine w.ctx rd (BitVec.ofNat 64 took) (setEngine w.engine (fun g => { g with offer := true })
        (setCtx w.engine w.ctx (fun x => { x with pending := x.pending &&& ~~~(BitVec.ofNat 64 took) }) s1))) :=
  effect_meRun hi (if_neg h) rfl

/-! ### Fences (R406, R407) -/

omit hi in
/-- A FENCE.P awaits what its context had outstanding when it began. -/
theorem ectx_fence {no left : Nat} (h : no ≠ 0) :
    ectx (block e c (.fence no left) (setCtx e c (fun x => { x with fenceNo := no }) s)) e c =
      { ectx s e c with fenceNo := no, wait := .fence no left } := by
  have hno : ectx (setCtx e c (fun x => { x with fenceNo := no }) s) e c = { ectx s e c with fenceNo := no } :=
    ectx_setCtx_of_ne_default fun hd => h (congrArg ECtx.fenceNo hd)
  rw [block, ectx_setCtx_of_ne_default, hno]
  · rfl
  · exact fun hd => EWait.noConfusion (congrArg ECtx.wait hd)

theorem effect_fenceP :
    let s1 := issued s w (wordI 0x1F 0 0 2) 0
    let x := ectx s1 w.engine w.ctx
    let no := x.fenceNo + 1
    let s2 := block w.engine w.ctx (.fence no (x.wrote.length + x.flows.length))
      (setCtx w.engine w.ctx (fun x => { x with fenceNo := no }) s1)
    let s3 := foldSt (fun (l : Nat × Nat) s => later (.zeroRead l.1 (.fence w.engine w.ctx no l.1 l.2)) s) x.wrote s2
    Effect (exec (.fenceP w) s) (fun t => t = fenceCheck w.engine w.ctx
      (foldSt (fun (f : Nat × Nat × Nat) s => engineFlush (.fence w.engine w.ctx no f.2.2) f.1 f.2.1 s) x.flows s3)) := by
  intro s1 x no s2 s3
  refine effect_meRun hi (t := fenceCheck w.engine w.ctx (fenceAsk w.engine w.ctx no s2)) rfl ?_
  have hctx : ectx s2 w.engine w.ctx = _ := ectx_fence (Nat.succ_ne_zero _)
  rw [fenceAsk, hctx]

/-! ### Moves (R408) -/

omit hi in
theorem setCtx_congr {f g : ECtx → ECtx} (h : f (ectx s e c) = g (ectx s e c)) : setCtx e c f s = setCtx e c g s := by
  have hctxs : smod {} (engine s e).ctxs c f = smod {} (engine s e).ctxs c g := congrArg (sset _ _ c) h
  have hengine : ({ engine s e with ctxs := smod {} (engine s e).ctxs c f } : Engine) =
      { engine s e with ctxs := smod {} (engine s e).ctxs c g } := by rw [hctxs]
  exact congrArg (fun m : SMap Engine => { s with me := { s.me with engines := m } }) (congrArg (sset _ _ e) hengine)

/-- The state of a context whose DMA starts the move of a descriptor (R408). -/
def moveStarted (w : Issue) (rd : Fin 32) (desc : List Byte) (s1 : State) : State :=
  let e := w.engine.val
  let c := w.ctx.val
  let n := Config.moveLength desc
  let tag := (ectx s1 e c).nextTag
  finish e c rd (BitVec.ofNat 64 tag) (setCtx e c (fun x => { x with
    moves := x.moves ++ [{
      tag := tag, desc := desc, asid := (ectx s1 e c).asid.toNat % 2 ^ 16
      tenant := (ectx s1 e c).tenant.toNat, rwin := (ectx s1 e c).rwin
      permitted := mayReach s1 e c n (placeOf (Config.moveSource desc) n) &&
        mayReach s1 e c n (placeOf (Config.moveDest desc) n) }]
    nextTag := tag + 1 }) (seeReached (moveObserver (clusterOf e)) s1))

omit hi in
theorem startMove_eq {desc : List Byte} : startMove w.engine w.ctx rd desc s = moveStarted w rd desc s :=
  congrArg (finish _ _ _ _) (setCtx_congr rfl)

section
variable (hk : isAbandoned (unitState s w rd ra 2) w.engine w.ctx = false)
include hk

/-- The address of the descriptor. -/
def descriptorAt (s1 : State) (w : Issue) (ra : Fin 32) : Nat := (reg s1 w.engine w.ctx ra).toNat

theorem effect_dma_starts (hp : placeOf (descriptorAt (unitState s w rd ra 2) w ra) 32 =
      .ldm (descriptorAt (unitState s w rd ra 2) w ra))
    (hr : mayReach (unitState s w rd ra 2) w.engine w.ctx 32 (.ldm (descriptorAt (unitState s w rd ra 2) w ra)) = true)
    (hd : w.data = .clean) :
    let s1 := unitState s w rd ra 2
    Effect (exec (.dma w rd ra) s) (fun t =>
      t = moveStarted w rd (memRead (engine s1 w.engine).ldm (descriptorAt s1 w ra) 32) s1) := by
  intro s1
  refine effect_unitOp hi rfl hk ?_
  unfold descriptorAt at hp hr
  simp only [hp, hr, localLoad, hd, sramRead, startMove_eq, Bool.not_true, Bool.false_eq_true, if_false]
  rfl

theorem effect_dma_parity (hp : placeOf (descriptorAt (unitState s w rd ra 2) w ra) 32 =
      .ldm (descriptorAt (unitState s w rd ra 2) w ra))
    (hr : mayReach (unitState s w rd ra 2) w.engine w.ctx 32 (.ldm (descriptorAt (unitState s w rd ra 2) w ra)) = true)
    (hd : w.data = .uncorrectable) :
    let s1 := unitState s w rd ra 2
    Effect (exec (.dma w rd ra) s) (fun t => t = trapHere w.engine w.ctx cPARITY (descriptorAt s1 w ra) s1) := by
  intro s1
  refine effect_unitOp hi rfl hk ?_
  unfold descriptorAt at hp hr
  simp only [hp, hr, localLoad, hd, sramRead, Bool.not_true, Bool.false_eq_true, if_false]
  rfl

theorem effect_dma_access (h : (∀ off, placeOf (descriptorAt (unitState s w rd ra 2) w ra) 32 ≠ .ldm off) ∨
      mayReach (unitState s w rd ra 2) w.engine w.ctx 32
        (placeOf (descriptorAt (unitState s w rd ra 2) w ra) 32) = false) :
    let s1 := unitState s w rd ra 2
    Effect (exec (.dma w rd ra) s) (fun t => t = trapHere w.engine w.ctx cACCESS (descriptorAt s1 w ra) s1) := by
  intro s1
  refine effect_unitOp hi rfl hk ?_
  unfold descriptorAt at h
  cases hp : placeOf (reg (unitState s w rd ra 2) w.engine w.ctx ra).toNat 32 with
  | ldm off =>
    have hr : mayReach (unitState s w rd ra 2) w.engine w.ctx 32 (.ldm off) = false := by
      obtain h | h := h
      · exact absurd hp (h off)
      · rwa [hp] at h
    simp only [hp, hr, Bool.not_false, if_true]
    rfl
  | _ => simp only [hp]; rfl

end

/-- The state in which DMAWAIT looks for its move: it offers a switch. -/
def dmawaitState (s : State) (w : Issue) (rd ra : Fin 32) : State :=
  setEngine w.engine (fun g => { g with offer := true }) (unitState s w rd ra 3)

section
variable {m : Move} (hk : isAbandoned (unitState s w rd ra 3) w.engine w.ctx = false)
  (hm : ((ectx (dmawaitState s w rd ra) w.engine w.ctx).moves.find?
    fun m => m.tag == (reg (unitState s w rd ra 3) w.engine w.ctx ra).toNat) = some m)
include hk hm

theorem effect_dmawait_done {st : Nat} (hdone : m.done = some st) :
    let tag := (reg (unitState s w rd ra 3) w.engine w.ctx ra).toNat
    Effect (exec (.dmawait w rd ra) s) (fun t => t = finish w.engine w.ctx rd (BitVec.ofNat 64 st)
      (setCtx w.engine w.ctx (fun x => { x with moves := x.moves.filter fun k => k.tag != tag })
        (dmawaitState s w rd ra))) := by
  intro tag
  refine effect_unitOp hi rfl hk ?_
  unfold dmawaitState at hm
  simp only [hm, hdone]
  rfl

theorem effect_dmawait_blocks (hdone : m.done = none) :
    Effect (exec (.dmawait w rd ra) s) (fun t => t = block w.engine w.ctx
      (.dma (reg (unitState s w rd ra 3) w.engine w.ctx ra).toNat rd) (dmawaitState s w rd ra)) := by
  refine effect_unitOp hi rfl hk ?_
  unfold dmawaitState at hm
  simp only [hm, hdone]
  rfl

end

/-! ### WAKE and undefined words -/

theorem effect_wake (hk : isAbandoned (unitState s w rd ra 4) w.engine w.ctx = false) :
    let s1 := unitState s w rd ra 4
    let v := (reg s1 w.engine w.ctx ra).toNat
    v % 2 ^ 7 < 96 → engineRuns s1 (v % 2 ^ 7) = true → Effect (exec (.wake w rd ra) s) (fun t =>
      t = nextPc w.engine w.ctx (setEvent (v % 2 ^ 7) (v / 2 ^ 8 % 4) 3 s1)) := by
  intro s1 v ht hr
  have htarget (n : Nat) : fld n 6 0 = n % 2 ^ 7 := by simp [fld]
  have hctx (n : Nat) : fld n 9 8 = n / 2 ^ 8 % 4 := by simp [fld]
  refine effect_unitOp hi rfl hk ?_
  simp only [v, s1] at ht hr
  simp only [htarget, hctx, ht, hr, decide_true, Bool.and_self, if_true]
  rfl

theorem effect_illegalInstruction {word : BitVec 32} (h : legalWord word.toNat = false) :
    Effect (exec (.illegalInstruction w word) s) (fun t =>
      t = trapHere w.engine w.ctx cILLEGAL 0 (issued s w word.toNat 0)) := by
  have hx : exec (.illegalInstruction w word) s = execIllegalInstruction w word s := rfl
  rw [hx, execIllegalInstruction, h]
  exact effect_meRun hi rfl rfl

end

/-- Settles O32, instruction by instruction. -/
theorem engineSystemInstructions : Obligations.EngineSystemInstructions := by
  intro s w rd ra hi
  refine ⟨fun sel v hp h => (effect_rds_value hi hp h :), fun sel write hp h => (effect_wrs_value hi hp h :),
    fun sel => ⟨fun hn hp => (effect_rds_cycle hi hn hp :), fun hn hp => (effect_rds_budget hi hn hp :),
      fun hn => (effect_rds_undefined hi hn :), fun hn => (effect_wrs_illegal hi ((unwritable_iff _).2 hn) :),
      fun hp hn => (effect_rds_barred hi hp hn :), fun hp hn => (effect_wrs_barred hi hp hn :)⟩,
    fun sel => ⟨effect_meRun hi rfl rfl, effect_meRun hi rfl rfl, fun hp => (effect_ret_firmware hi hp :),
      fun hp => (effect_ret_package hi hp :),
      ⟨fun h => (effect_wait_blocks hi h :), fun h => (effect_wait_takes hi h :)⟩, effect_meRun hi rfl rfl,
      effect_meRun hi rfl rfl⟩,
    fun hk => effect_unitOp hi rfl hk rfl, effect_meRun hi rfl rfl, (effect_fenceP hi :),
    fun hk => ⟨fun hp hr => ⟨fun hd => (effect_dma_starts hi hk hp hr hd :),
      fun hd => (effect_dma_parity hi hk hp hr hd :)⟩, fun h => (effect_dma_access hi hk h :)⟩,
    fun m st hk hm => ⟨fun hdone => (effect_dmawait_done hi hk hm hdone :),
      fun hdone => (effect_dmawait_blocks hi hk hm hdone :)⟩,
    fun hk ht hr => (effect_wake hi hk ht hr :), fun word h => (effect_illegalInstruction hi h :)⟩

end Sys2Proof.Machine
end

section
/-!
SUPPORT. Work items, package calls, events of contexts and moves (13_message_engines.md, R384 to R386, R390;
14_ordering_and_locks.md, R408).
-/
namespace Sys2Proof.Machine

/-! ### Dispatch (R385) -/

section
variable {s : State} {e c mask : Nat} {k : ItemKind}

theorem poweredSet_isEmpty_of_ne (h : poweredSet s mask ≠ []) : (poweredSet s mask).isEmpty = false :=
  List.isEmpty_eq_false_iff.2 h

/-- The state in which one item waits. -/
def itemWaits (k : ItemKind) (s : State) : State := { s with me := { s.me with items := [k] } }

theorem dispatchOne_taken (h : s.me.items = []) (hs : poweredSet s (rc s 0x8410 0) ≠ [])
    (hp : pickCtx s (rc s 0x8410 0) = some (e, c)) : dispatchItems 1 (itemWaits k s) = startItem e c k s := by
  have hnone : ({ s with me := { s.me with items := [] } } : State) = s := by
    rw [← h]
  have hset : (poweredSet (itemWaits k s) (rc (itemWaits k s) 0x8410 0)).isEmpty = false := poweredSet_isEmpty_of_ne hs
  have hpick : pickCtx (itemWaits k s) (rc (itemWaits k s) 0x8410 0) = some (e, c) := hp
  rw [dispatchItems]
  simp only [hset, hpick, Bool.false_eq_true, if_false]
  exact congrArg (startItem e c k) hnone

theorem dispatchOne_waits (hs : poweredSet s (rc s 0x8410 0) ≠ []) (hp : pickCtx s (rc s 0x8410 0) = none) :
    dispatchItems 1 (itemWaits k s) = itemWaits k s := by
  have hset : (poweredSet (itemWaits k s) (rc (itemWaits k s) 0x8410 0)).isEmpty = false := poweredSet_isEmpty_of_ne hs
  have hpick : pickCtx (itemWaits k s) (rc (itemWaits k s) 0x8410 0) = none := hp
  rw [dispatchItems]
  simp only [hset, hpick, Bool.false_eq_true, if_false]
  rfl

theorem dispatchOne_gone (h : s.me.items = []) (hs : poweredSet s (rc s 0x8410 0) = []) :
    dispatchItems 1 (itemWaits k s) = s := by
  have hnone : ({ s with me := { s.me with items := [] } } : State) = s := by
    rw [← h]
  have hset : (poweredSet (itemWaits k s) (rc (itemWaits k s) 0x8410 0)).isEmpty = true := by
    have hsame : poweredSet (itemWaits k s) (rc (itemWaits k s) 0x8410 0) = [] := hs
    rw [hsame]
    rfl
  rw [dispatchItems]
  simp only [hset, if_true]
  exact hnone

/-- The item of a WORK_ITEM_DISPATCH. -/
def builtinItem (control : Bool) : ItemKind := if control then .control else .internal

theorem exec_workItemDispatch {control : Bool} (h : s.me.items = []) :
    exec (.workItemDispatch control) s = fin (dispatchItems 1 (itemWaits (builtinItem control) s)) := by
  have hx : exec (.workItemDispatch control) s = execWorkItemDispatch control s := rfl
  rw [hx, execWorkItemDispatch, h]
  rfl

end

/-! ### Package calls (R386, R390) -/

section
variable {s : State} {qn : Nat} {op : SendOp}

/-- A package call of the queue is next, its slot is not quiescing, and no activation of firmware or of the slot is
under way. -/
structure CallStarts (s : State) (qn : Nat) (op : SendOp) : Prop where
  next : startable s qn (fun o => 0x38 ≤ o && o ≤ 0x3F) = some op
  steady : (pkgSlot s (dOPCODE op.desc - 0x38)).state ≠ .quiescing
  quiet : s.me.acts.any (fun a =>
    (a.target == 0 || a.target == dOPCODE op.desc - 0x38 + 1) && a.state != .armed) = false

/-- A package call that is refused is counted and completes CANCELLED with its reason. -/
def callRefused (qn : Nat) (op : SendOp) (reason : Nat) (s : State) : State :=
  bump 0x8451 0 (complete qn op.n (cancelled reason 0) (markStarted qn op.n s))

variable (h : CallStarts s qn op)
include h

theorem CallStarts.waits : ((pkgSlot s (dOPCODE op.desc - 0x38)).state == .quiescing || s.me.acts.any (fun a =>
    (a.target == 0 || a.target == dOPCODE op.desc - 0x38 + 1) && a.state != .armed)) = false := by
  rw [h.quiet, Bool.or_false]
  exact beq_eq_false_iff_ne.2 h.steady

/-- What is judged of a package call, in its order. -/
theorem packageCall_starts :
    packageCall qn s =
      let g := pkgSlot s (dOPCODE op.desc - 0x38)
      if g.state != .active then callRefused qn op esNOPACKAGE s
      else if (queue s qn).tenant != g.tenant then callRefused qn op esNOTPERMITTED s
      else match g.handlers[fld (dOP0 op.desc) 7 0]? with
        | none => callRefused qn op esBADHANDLER s
        | some entry =>
          if (poweredSet s g.mask).isEmpty then callRefused qn op esNOENGINE s
          else match pickCtx s g.mask with
            | none => s
            | some (e, c) =>
              enterPackage e c (dOPCODE op.desc - 0x38) qn (queue s qn) op entry (markStarted qn op.n s) := by
  simp only [packageCall, h.next, h.waits, Bool.false_eq_true, if_false]
  rfl

theorem packageCall_noPackage (ha : (pkgSlot s (dOPCODE op.desc - 0x38)).state ≠ .active) :
    packageCall qn s = callRefused qn op esNOPACKAGE s := by
  rw [packageCall_starts h]
  exact if_pos (bne_iff_ne.2 ha)

section
variable (ha : (pkgSlot s (dOPCODE op.desc - 0x38)).state = .active)
include ha

theorem packageCall_notPermitted (ht : (queue s qn).tenant ≠ (pkgSlot s (dOPCODE op.desc - 0x38)).tenant) :
    packageCall qn s = callRefused qn op esNOTPERMITTED s := by
  simp [packageCall_starts h, ha, ht]

variable (ht : (queue s qn).tenant = (pkgSlot s (dOPCODE op.desc - 0x38)).tenant)
include ht

theorem packageCall_badHandler
    (hh : (pkgSlot s (dOPCODE op.desc - 0x38)).handlers[fld (dOP0 op.desc) 7 0]? = none) :
    packageCall qn s = callRefused qn op esBADHANDLER s := by
  simp only [packageCall_starts h, ha, ht, hh, bne_self_eq_false, Bool.false_eq_true, if_false]

variable {entry : Nat}
variable (hh : (pkgSlot s (dOPCODE op.desc - 0x38)).handlers[fld (dOP0 op.desc) 7 0]? = some entry)
include hh

theorem packageCall_noEngine (hs : poweredSet s (pkgSlot s (dOPCODE op.desc - 0x38)).mask = []) :
    packageCall qn s = callRefused qn op esNOENGINE s := by
  simp only [packageCall_starts h, ha, ht, hh, hs, bne_self_eq_false, Bool.false_eq_true, if_false, List.isEmpty_nil,
    if_true]

theorem packageCall_enters {e c : Nat} (hs : poweredSet s (pkgSlot s (dOPCODE op.desc - 0x38)).mask ≠ [])
    (hp : pickCtx s (pkgSlot s (dOPCODE op.desc - 0x38)).mask = some (e, c)) :
    packageCall qn s =
      enterPackage e c (dOPCODE op.desc - 0x38) qn (queue s qn) op entry (markStarted qn op.n s) := by
  simp only [packageCall_starts h, ha, ht, hh, poweredSet_isEmpty_of_ne hs, hp, bne_self_eq_false, Bool.false_eq_true,
    if_false]

end
end

/-! ### Events (R384, R385) -/

section
variable {s : State} {engine : Fin 96} {ctx : Fin 4}
variable (hr : engineRuns s engine = true)
include hr

section
variable (hitem : (ectx s engine ctx).item ≠ none) (hb : atBoundary (ectx s engine ctx).wait = true)
include hitem hb

theorem effect_budgetExhausted (h : (ectx s engine ctx).budget ≠ 0) :
    Effect (exec (.budgetExhausted engine ctx) s) (fun t =>
      t = trapHere engine ctx cBUDGET 0 (setCtx engine ctx (fun x => { x with budget := 0 }) s)) := by
  have hx : exec (.budgetExhausted engine ctx) s = execBudgetExhausted engine ctx s := rfl
  rw [hx, execBudgetExhausted]
  simp only [hr, Option.isSome_iff_ne_none.2 hitem, hb, bne_iff_ne.2 h, Bool.and_self, if_true]
  exact effect_fin rfl

theorem effect_interruptTaken (hie : (ectx s engine ctx).status.getLsbD 12 = true)
    (h : Nat.land (intMask (ectx s engine ctx)) (pendingBits (ectx s engine ctx)) ≠ 0) :
    Effect (exec (.interruptTaken engine ctx) s) (fun t =>
      t = takeTrap engine ctx cINTERRUPT (Nat.land (intMask (ectx s engine ctx)) (pendingBits (ectx s engine ctx)))
        (ectx s engine ctx).pc s) := by
  have hdue : intDue s engine ctx = true := by
    rw [intDue, statusBit, hie, Bool.true_and]
    exact bne_iff_ne.2 h
  have hx : exec (.interruptTaken engine ctx) s = execInterruptTaken engine ctx s := rfl
  rw [hx, execInterruptTaken]
  simp only [hr, Option.isSome_iff_ne_none.2 hitem, hb, hdue, Bool.and_self, if_true]
  exact effect_fin rfl

end

theorem effect_mtcmpReached (hd : (ectx s engine ctx).mtcmpDone = false)
    (h : (ectx s engine ctx).mtcmp.toNat ≤ now s) :
    Effect (exec (.mtcmpReached engine ctx) s) (fun t =>
      t = setEvent engine ctx 2 (setCtx engine ctx (fun x => { x with mtcmpDone := true }) s)) := by
  have hx : exec (.mtcmpReached engine ctx) s = execMtcmpReached engine ctx s := rfl
  rw [hx, execMtcmpReached]
  simp only [hr, hd, h, Bool.not_false, decide_true, Bool.and_self, if_true]
  exact effect_fin rfl

/-! ### Moves (R408) -/

theorem exec_dmaMoveComplete {tag : BitVec 64} {given : MoveInput} {st : BitVec 8} {m : Move}
    (hm : ((ectx s engine ctx).moves.find? fun m => m.tag == tag.toNat && m.done.isNone && !m.writing) = some m) :
    exec (.dmaMoveComplete engine ctx tag given st) s = fin (moveGo engine ctx m given st.toNat s) := by
  have hx : exec (.dmaMoveComplete engine ctx tag given st) s = execDmaMoveComplete engine ctx tag given st s := rfl
  rw [hx, execDmaMoveComplete]
  simp only [hm, hr, Bool.not_true, Bool.false_eq_true, if_false]

end

section
variable {s s1 : State} {e c st : Nat} {m : Move} {given : MoveInput} {bs : List Byte} {bad : Bool} {ecc : List Ecc}

theorem moveGo_notPermitted (hp : m.permitted = false) :
    moveGo e c m given st s = moveOver e c m.tag stLOCALFAULT s := by simp [moveGo, hp]

theorem moveGo_status (hp : m.permitted = true) (hs : st ≠ 0) :
    moveGo e c m given st s = moveOver e c m.tag st s := by simp [moveGo, hp, hs]

section
variable (hp : m.permitted = true)
include hp

theorem moveGo_unread
    (hr : moveRead e (Config.moveLength m.desc)
      (placeOf (Config.moveSource m.desc) (Config.moveLength m.desc)) given s = (bs, bad, true, s1)) : moveGo e c m given 0 s = moveOver e c m.tag stLOCALFAULT s1 := by
  simp [moveGo, hp, hr]

theorem moveGo_written
    (hr : moveRead e (Config.moveLength m.desc)
      (placeOf (Config.moveSource m.desc) (Config.moveLength m.desc)) given s = (bs, bad, false, s1)) :
    moveGo e c m given 0 s =
      moveWrite e c m (placeOf (Config.moveDest m.desc) (Config.moveLength m.desc)) bs bad given.dest s1 := by
  simp [moveGo, hp, hr]

end

theorem moveWrite_clusterOff {k off : Nat} (h : clusterOn s k = false) :
    moveWrite e c m (.cmem k off) bs bad ecc s = moveOver e c m.tag stLOCALFAULT s := by simp [moveWrite, h]

theorem moveWrite_cluster {k off : Nat} (h : clusterOn s k = true) :
    moveWrite e c m (.cmem k off) bs bad ecc s = moveOver e c m.tag (movedStatus bad)
      (if bad then s else cmemWrite k off bs (performRange (some k) off bs.length s)) := by simp [moveWrite, h]

end

/-- Settles O34, command by command. -/
theorem workItemsAndTheirEvents : Obligations.WorkItemsAndTheirEvents := by
  intro s
  refine ⟨fun control hnone => ?dispatch, fun qn op hnext hsteady hquiet => ?call, fun engine ctx hr => ⟨fun hitem hb =>
      ⟨fun h => effect_budgetExhausted hr hitem hb h, fun hie h => effect_interruptTaken hr hitem hb hie h⟩,
      fun hd h => effect_mtcmpReached hr hd h, fun tag given st m hm => ?move⟩⟩
  case dispatch =>
    have hx := exec_workItemDispatch (control := control) hnone
    exact ⟨fun e c hs hp => hx ▸ effect_fin (dispatchOne_taken hnone hs hp),
      fun hs hp => hx ▸ effect_fin (dispatchOne_waits hs hp), fun hs => hx ▸ effect_fin (dispatchOne_gone hnone hs)⟩
  case call =>
    have h : CallStarts s qn op := ⟨hnext, hsteady, hquiet⟩
    exact ⟨fun ha => effect_fin (packageCall_noPackage h ha),
      fun ha ht => effect_fin (packageCall_notPermitted h ha ht),
      fun ha ht => ⟨fun hh => effect_fin (packageCall_badHandler h ha ht hh),
        fun entry hh => ⟨fun hs => effect_fin (packageCall_noEngine h ha ht hh hs),
          fun e c hs hp => effect_fin (packageCall_enters h ha ht hh hs hp)⟩⟩⟩
  case move =>
    intro n gives ends dest
    rcases hread : moveRead engine n (placeOf (Config.moveSource m.desc) n) given s with ⟨bs, bad, unread, s1⟩
    have hgives {t : State} (h : moveGo engine ctx m given st.toNat s = t) : gives t := by
      unfold gives
      rw [exec_dmaMoveComplete hr hm]
      exact effect_fin h
    refine ⟨fun hp => hgives (moveGo_notPermitted hp),
      fun hp hs => hgives (moveGo_status hp fun h0 => hs (BitVec.eq_of_toNat_eq h0)), fun hp hs => ?started⟩
    case started =>
      have hzero : st.toNat = 0 := by rw [hs]; rfl
      rw [hzero] at hgives
      refine ⟨fun hu => ?unread, fun hu => ?written⟩
      all_goals rw [hu] at hread
      case unread => exact hgives (moveGo_unread hp hread)
      case written =>
        have hgo := moveGo_written (c := ctx) hp hread
        refine ⟨fun hd => ?none, fun off hd => ?ldm, fun k off hd hk => ?clusterOff, fun k off hd hk => ?cluster,
          fun off hd => ?context, fun off hd => ?unit, fun _ => hgives hgo⟩
        all_goals rw [show placeOf (Config.moveDest m.desc) (Config.moveLength m.desc) = _ from hd] at hgo
        case clusterOff => exact hgives (hgo.trans (moveWrite_clusterOff hk))
        case cluster => exact hgives (hgo.trans (moveWrite_cluster hk))
        all_goals exact hgives hgo

end Sys2Proof.Machine
end

section
/-!
SUPPORT. Activations of firmware and packages (13_message_engines.md, R393 to R395; 01_machine_time.md, R34, R35).
-/
namespace Sys2Proof.Machine

section
variable {s : State} {owner : ShotOwner} {i : Nat}

/-! ### One-shots (R34) -/

theorem armShot_timeFree (h0 : i ≠ 0) (h : timeFree s = true) : armShot owner i s = .timeInvalid := by
  simp [armShot, h0, h]

theorem armShot_full (h0 : i ≠ 0) (hf : timeFree s = false) (hn : now s ≤ i) (h : 16384 ≤ s.tb.armed.length) :
    armShot owner i s = .full := by
  simp [armShot, h0, hf, Nat.not_lt.2 hn, h]

theorem armShot_armed (h0 : i ≠ 0) (hf : timeFree s = false) (hn : now s ≤ i) (h : s.tb.armed.length < 16384) :
    armShot owner i s = .armed { s with tb := { s.tb with
      armed := s.tb.armed ++ [{ owner := owner, instant := i, late := false }] } } := by
  simp [armShot, h0, hf, Nat.not_lt.2 hn, Nat.not_le.2 h]

end

section
variable {s : State} {target source i : Nat} {a : Activation}

/-! ### ACTIVATE (R393) -/

theorem activate_refused (ht : target < 9) (h0 : activateCheck s target source ≠ 0)
    (h2 : activateCheck s target source ≠ 2) :
    activate target source i s = actRefuse target (activateCheck s target source) i s := by
  simp only [activate, Nat.not_le.2 ht, h0, h2, if_false, ne_eq, not_false_eq_true, if_true]

theorem activate_startDecision (ht : target < 9) (h2 : activateCheck s target source = 2) :
    activate target source i s = actRefuse target 2 i
      (logEvent 5 0 0x10 3 (beBytes 4 s.ms.mgmtFw.mgmtVersion ++
        beBytes 4 (bundleOf (area s source).bytes).engineVersion) s) := by
  simp [activate, Nat.not_le.2 ht, h2]

section
variable (ht : target < 9) (h0 : activateCheck s target source = 0)
include ht h0

theorem activate_atOnce : activate target source 0 s = beginQuiesce target source 0 false s := by
  simp [activate, Nat.not_le.2 ht, h0, armShot_now, when_]

theorem activate_late (hi : i ≠ 0) (hp : i < now s) (hf : timeFree s = false) :
    activate target source i s = beginQuiesce target source i false (bump 0x4006 0 s) := by
  simp [activate, Nat.not_le.2 ht, h0, armShot_past _ hi hp hf, when_]

theorem activate_timeFree (hi : i ≠ 0) (hf : timeFree s = true) :
    activate target source i s = actRefuse target 7 i s := by
  simp [activate, Nat.not_le.2 ht, h0, armShot_timeFree hi hf]

theorem activate_full (hi : i ≠ 0) (hf : timeFree s = false) (hn : now s ≤ i) (h : 16384 ≤ s.tb.armed.length) :
    activate target source i s = actRefuse target 6 i s := by
  simp [activate, Nat.not_le.2 ht, h0, armShot_full hi hf hn h]

theorem activate_armed (hi : i ≠ 0) (hf : timeFree s = false) (hn : now s ≤ i) (h : s.tb.armed.length < 16384) :
    activate target source i s =
      setActStatus (fun _ => { state := 1, target := target, instant := i }) { s with
        tb := { s.tb with armed := s.tb.armed ++ [{ owner := .activation target, instant := i, late := false }] }
        me := { s.me with acts := s.me.acts ++ [{
          target := target, state := .armed, source := source, instant := i }] } } := by
  simp only [activate, Nat.not_le.2 ht, h0, armShot_armed hi hf hn h, if_false, ne_eq, not_true_eq_false]

end

/-! ### REMOVE (R394) -/

section
variable (h0 : target ≠ 0) (ht : target < 9) (hs : (pkgSlot s (target - 1)).state ≠ .empty)
include h0 ht hs

theorem packageRemove_inUse :
    packageRemove target s =
      if (findAct s target).isSome then actRefuse target 8 0 s else beginQuiesce target 0 0 true s := by
  have huse : (decide (target = 0) || decide (9 ≤ target) || (pkgSlot s (target - 1)).state == .empty) = false := by
    rw [decide_eq_false h0, decide_eq_false (Nat.not_le.2 ht), beq_eq_false_iff_ne.2 hs]
    rfl
  rw [packageRemove, huse]
  rfl

end

/-! ### What becomes of an activation (R394, R395) -/

section
variable (ha : findAct s target = some a)
include ha

theorem activationCancel_armed (h : a.state = .armed) :
    activationCancel target s = setActStatus (fun _ => { state := 0, target := target })
      (dropAct target (releaseShot (.activation target) s)) := by
  simp [activationCancel, ha, h]

theorem activationInstant_due (h : a.state = .armed) (hd : shotDue s (.activation target) = true) :
    activationInstant target s =
      beginQuiesce target a.source a.instant a.remove (fireShot (.activation target) s).2 := by
  simp only [activationInstant, ha, h, hd, beq_self_eq_true, Bool.and_self, if_true]

section
variable (h : a.state = .quiescing)
include h

theorem quiesceComplete_quiet (hq : scopeQuiet s a = true) (hl : ticks s ≤ a.since + a.limit) :
    quiesceComplete target s =
      if loadFits a s then
        setActStatus (fun _ => { state := 4, target := target, instant := a.instant, quiesce := ticks s - a.since })
          (later .dispatch (dropAct target (loadImage a s)))
      else actRefuse target 9 a.instant (resumeOld target s) := by
  simp only [quiesceComplete, ha, h, hq, hl, beq_self_eq_true, decide_true, Bool.and_self, if_true]

theorem quiesceTimeout_over
    (ho : (scopeQuiet s a = false ∧ a.since + a.limit ≤ ticks s) ∨ a.since + a.limit < ticks s) :
    quiesceTimeout target s =
      logEvent 4 0 0x10 3 (beBytes 1 target ++ beBytes 1 5 ++ beBytes 8 (ticks s - a.since))
        (setActStatus (fun _ => {
          state := 5, target := target, reason := 5, instant := a.instant, quiesce := ticks s - a.since })
          (resumeOld target s)) := by
  have hover : (a.state == .quiescing && decide (a.since + a.limit ≤ ticks s) &&
      (!scopeQuiet s a || decide (a.since + a.limit < ticks s))) = true := by
    rw [h]
    obtain ⟨hq, hle⟩ | hlt := ho
    · simp [hq, hle]
    · simp [hlt, hlt.le]
  simp only [quiesceTimeout, ha, hover, if_true]

end
end
end

/-- Settles O35, command by command. -/
theorem activationsAndPackages : Obligations.ActivationsAndPackages := by
  intro s
  have hpos {x : BitVec 64} (h : x ≠ 0) : x.toNat ≠ 0 := fun h0 => h (BitVec.eq_of_toNat_eq h0)
  refine ⟨fun target source instant ht => ⟨fun h0 h2 => effect_fin (activate_refused ht h0 h2),
      fun h2 => effect_fin (activate_startDecision ht h2), fun h0 => ⟨fun hi => ?atOnce,
        fun hi hf => effect_fin (activate_timeFree ht h0 (hpos hi) hf),
        fun hf hi hp => effect_fin (activate_late ht h0 hi.ne' hp hf),
        fun hf hi hn => ⟨fun h => effect_fin (activate_full ht h0 (hpos hi) hf hn h),
          fun h => effect_fin (activate_armed ht h0 (hpos hi) hf hn h)⟩⟩⟩,
    fun target h0 ht hs => ?remove, fun target a ha => ⟨fun h => ⟨effect_fin (activationCancel_armed ha h), ?instant⟩,
      fun h => ⟨?complete, fun ho => effect_fin (quiesceTimeout_over ha h ho)⟩⟩⟩
  case atOnce =>
    subst hi
    exact effect_fin (activate_atOnce ht h0)
  case remove =>
    have hx := packageRemove_inUse (fun h => h0 (BitVec.eq_of_toNat_eq h)) ht hs
    refine ⟨fun hnone => effect_fin ?_, fun hsome => effect_fin ?_⟩
    · rw [hx, hnone]
      rfl
    · rw [hx, hsome]
      rfl
  case instant =>
    intro hdue hshot
    refine effect_fin ?_
    rw [instantReached, hdue]
    exact activationInstant_due ha h hshot
  case complete =>
    intro hq hl
    have hx := quiesceComplete_quiet ha h hq hl
    refine ⟨fun hfits => effect_fin ?_, fun hfits => effect_fin ?_⟩
    · rw [hx, hfits]
      rfl
    · rw [hx, hfits]
      rfl

end Sys2Proof.Machine
end

section
/-!
SUPPORT. The commands of the lanes and optics (12_lanes_and_optics.md, R352 to R368).
-/
namespace Sys2Proof.Machine

section
variable {s : State} {p l : Nat}

/-! ### Bring-up and losses (R356, R359, R360, R364, R365, R368) -/

theorem cdrLock_signal {step : Nat} {power : Int} (hr : receiving s p = true)
    (hp : nearLoop s p = true ∨ rcInt s 0x5064 0 < power) :
    cdrLock p l step power s =
      setLane p l (fun n => { n with cdr := true, peaking := (fixedPeaking s p l).getD step }) s := by
  have hsignal : hasSignal s p power = true := by simpa [hasSignal] using hp
  simp [cdrLock, hr, hsignal]

theorem markerArrive_ignored {m bips skew : Nat} {scheduled : Bool}
    (h : markerValid m = false ∨ receiving s p = false) : markerArrive p l m scheduled bips skew s = s := by
  refine if_pos ?_
  obtain h | h := h <;> simp [h]

theorem trainingTime_over (hb : (portLanes s p).bringUp = .prbs) (ht : (portLanes s p).stepAt ≤ ticks s) :
    trainingTime p s =
      let s1 := refreshLasers p (setLanes p (fun x => { x with
        bringUp := .framed, waiting := 0, waitingLen := 0, codewords := 0 }) s)
      sendMarker p (portLanes s1 p).txSet s1 := by
  simp only [trainingTime, hb, ht, beq_self_eq_true, decide_true, Bool.and_self, if_true]

theorem bringUpTimeout_over (hb : (portLanes s p).bringUp = .prbs ∨ (portLanes s p).bringUp = .framed)
    (hr : (portLanes s p).restartAt = none) (hl : (portLanes s p).limitAt ≤ ticks s) :
    bringUpTimeout p s =
      let d := draw (ticksOf 10 1000 + 1) s
      setLanes p (fun x => { x with restartAt := some (ticks d.2 + d.1) }) (bump 0x5019 p d.2) := by
  have hup : ((portLanes s p).bringUp == .prbs || (portLanes s p).bringUp == .framed) = true := by simpa using hb
  simp only [bringUpTimeout, hup, hr, hl, Option.isNone_none, decide_true, Bool.and_self, if_true]

theorem bringUpRestart_due {t : Nat} (hr : (portLanes s p).restartAt = some t) (ht : t ≤ ticks s) :
    bringUpRestart p s = startBringUp p s := by
  simp only [bringUpRestart, hr, ht, if_true]

theorem signalLost_low {power : Int} (hn : nearLoop s p = false) (h : power < rcInt s 0x5064 0) :
    signalLost p l power s = laneLost p l true s := by
  simp [signalLost, hn, h, when_]

theorem bitSlip_locked (h : (laneOf (portLanes s p) l).cdr = true) : bitSlip p l s = laneLost p l false s := if_pos h

/-! ### Tracking and lasers (R356, R368) -/

/-- A change of one key is told by the value that it gives there. -/
theorem smod_congr {α : Type} [DecidableEq α] {d : α} {m : SMap α} {k : Nat} {f g : α → α}
    (h : f (sget d m k) = g (sget d m k)) : smod d m k f = smod d m k g := congrArg (sset d m k) h

theorem setLane_congr {f g : Lane → Lane} (h : f (laneOf (portLanes s p) l) = g (laneOf (portLanes s p) l)) :
    setLane p l f s = setLane p l g s := by
  have hlanes : smod {} (portLanes s p).lanes l f = smod {} (portLanes s p).lanes l g := smod_congr h
  have hports : smod {} s.px.ports p (fun x => { x with lanes := smod {} x.lanes l f }) =
      smod {} s.px.ports p (fun x => { x with lanes := smod {} x.lanes l g }) :=
    smod_congr (congrArg (fun m => { portLanes s p with lanes := m }) hlanes)
  exact congrArg (fun m => { s with px := { s.px with ports := m } }) hports

section
variable (hf : fixedPeaking s p l = none) (hc : (laneOf (portLanes s p) l).cdr = true)
  (ht : (laneOf (portLanes s p) l).trackAt ≤ ticks s)
include hf hc ht

theorem peakingTrack_up :
    peakingTrack p l (some true) s = setLane p l (fun n => { n with
      peaking := min 15 (n.peaking + 1), trackAt := ticks s + ticksOf 1 1000 }) s := by
  simp only [peakingTrack, hf, hc, Nat.not_lt.2 ht, Option.isSome_none, Bool.not_true, Bool.or_self, decide_false,
    Bool.false_eq_true, if_false, if_true]
  exact setLane_congr rfl

theorem peakingTrack_down :
    peakingTrack p l (some false) s = setLane p l (fun n => { n with
      peaking := n.peaking - 1, trackAt := ticks s + ticksOf 1 1000 }) s := by
  simp only [peakingTrack, hf, hc, Nat.not_lt.2 ht, Option.isSome_none, Bool.not_true, Bool.or_self, decide_false,
    Bool.false_eq_true, if_false]
  exact setLane_congr rfl

end

theorem laserLow_on {output : Nat} (h : (laneOf (portLanes s p) l).laser = true) :
    laserLow p l output s = raiseFault 16 (p * 4 + l) output (refreshLasers p (setLane p l (fun n => { n with
      laserFault := true, outputScan := toSigned 32 output }) s)) := if_pos h

end

/-- Settles O22, command by command. -/
theorem lanesComeUpAndAreLost : Obligations.LanesComeUpAndAreLost := by
  intro s p l h1 h2
  refine ⟨fun power step hr hp => ?cdr, fun m sched bips skew => ⟨fun h => ?ignored, fun _ _ => ?marker⟩,
    fun e0 e1 e2 e3 cells => ?codeword, fun hb ht => ?training, fun hb hr hl => ?timeout, fun t hr ht => ?restart,
    ?cdrLoss, ?markerLoss, fun power hn h => ?signal, fun h => ?slip, fun hf hc ht => ⟨?up, ?down⟩,
    fun output h => ?laser⟩
  case laser => exact effect_inDomain h2 (laserLow_on h)
  case cdr =>
    have hx : exec (.cdrLockAcquired p { lane := l, power := power } step) s =
        inLanes p (fun s => refreshGood p (cdrLock p l step power.toInt s)) s := rfl
    rw [hx]
    exact effect_inLanes h1 h2 (congrArg (refreshGood p) (cdrLock_signal hr hp))
  all_goals refine effect_inLanes h1 h2 ?_
  case ignored => exact markerArrive_ignored h
  case training => exact trainingTime_over hb ht
  case timeout => exact bringUpTimeout_over hb hr hl
  case restart => exact bringUpRestart_due hr ht
  case signal => exact signalLost_low hn h
  case slip => exact bitSlip_locked h
  case up => exact peakingTrack_up hf hc ht
  case down => exact peakingTrack_down hf hc ht
  all_goals rfl

end Sys2Proof.Machine
end

section
/-!
SUPPORT. Sets of lanes, widening and eye scans (12_lanes_and_optics.md, R361 to R363, R367).
-/
namespace Sys2Proof.Machine

section
variable {s : State} {p : Nat}

/-! ### Dwells and widening -/

theorem lullDwell_over (hb : (portLanes s p).bringUp = .locked) (he : (portLanes s p).dwellEnd ≤ ticks s) :
    lullDwell p s =
      let x := portLanes s p
      let s1 := startDwell p s
      if rc s 0x5010 p = 2 ∧ payloadLow s p = true ∧ x.widenTo = none ∧ 1 < lanesIn x.txSet then
        changeSet p (laneSet x.peerRxGood (lanesIn x.txSet / 2)) .load s1
      else s1 := by
  have hover : ((portLanes s p).bringUp != .locked || decide (ticks s < (portLanes s p).dwellEnd)) = false := by
    simp [hb, he]
  have hrc : rc (startDwell p s) 0x5010 p = rc s 0x5010 p := rfl
  simp only [lullDwell, hover, hrc, Bool.false_eq_true, if_false]
  exact if_congr (by simp [and_assoc]) rfl rfl

theorem lullDepth_deep {v : Nat} (h2 : rc s 0x5010 p = 2) (hb : (portLanes s p).bringUp = .locked) (hv : v < 20)
    (hd : rc s 0x5013 0 ≤ vcDepth s p v) :
    lullDepth p s = startWidening p (laneSet (widerGood s p) 4) s := by
  have hdeep : ((rangeFrom 0 20).any fun v => rc s 0x5013 0 ≤ vcDepth s p v) = true :=
    List.any_eq_true.2 ⟨v, mem_rangeFrom.2 ⟨v.zero_le, by omega⟩, by simpa using hd⟩
  simp only [lullDepth, h2, hb, hdeep, beq_self_eq_true, decide_true, Bool.and_self, if_true]

theorem laneRestore_held (h : rc s 0x5010 p ≠ 0) (hb : (portLanes s p).bringUp = .locked) :
    laneRestore p s = startWidening p (laneSet (heldGood s p) 4) s := by
  simp [laneRestore, h, hb]

theorem warmUp_over (hw : (portLanes s p).widenTo ≠ none) (h : (portLanes s p).warm = false)
    (ht : (portLanes s p).stepAt ≤ ticks s) : warmUp p s = widenMarkers p s := by
  simp only [warmUp, Option.isSome_iff_ne_none.2 hw, h, ht, Bool.not_false, decide_true, Bool.and_self, if_true]

theorem wideningTimeout_over (hw : (portLanes s p).widenTo ≠ none) (ht : (portLanes s p).limitAt ≤ ticks s) :
    wideningTimeout p s = endWidening p s := by
  simp only [wideningTimeout, Option.isSome_iff_ne_none.2 hw, ht, decide_true, Bool.and_self, if_true]

end

/-! ### Eye scans -/

section
variable {s : State} {port : BitVec 7} {lane eye : BitVec 2} {hstep : BitVec 6} {voff dwell : BitVec 8} {v : BitVec 95}

/-- The command word of Table 12-7. -/
def scanWord (port : BitVec 7) (lane eye : BitVec 2) (hstep : BitVec 6) (voff dwell : BitVec 8) (v : BitVec 95) : Nat :=
  (port ++ lane ++ eye ++ hstep ++ voff ++ dwell ++ v).toNat

theorem scanWord_fields :
    fld (scanWord port lane eye hstep voff dwell v) 127 121 = port.toNat ∧
    fld (scanWord port lane eye hstep voff dwell v) 118 117 = eye.toNat ∧
    fld (scanWord port lane eye hstep voff dwell v) 102 95 = dwell.toNat ∧
    fld (scanWord port lane eye hstep voff dwell v) 94 0 = v.toNat := by
  refine ⟨?_, ?_, ?_, fld_toNat_append_low (n := 94) _ v⟩
  · simp only [scanWord, fld_toNat_append, Nat.reduceLeDiff, Nat.reduceSub, Nat.le_refl]
    exact fld_toNat_whole port
  · simp only [scanWord, fld_toNat_append, Nat.reduceLeDiff, Nat.reduceSub, Nat.le_refl]
    exact fld_toNat_append_low _ eye
  · simp only [scanWord, fld_toNat_append, Nat.reduceLeDiff, Nat.reduceSub, Nat.le_refl]
    exact fld_toNat_append_low _ dwell

theorem eyeScan_port (hp : port.toNat < 72) :
    eyeScan (scanWord port lane eye hstep voff dwell v) s =
      setScan (port.toNat / 8) (fun _ => {
        status := if (eye != 3 && dwell != 0 && v == 0) = true then 1 else 4
        cmd := scanWord port lane eye hstep voff dwell v }) s := by
  obtain ⟨hport, heye, hdwell, hv⟩ := scanWord_fields (port := port) (lane := lane) (eye := eye) (hstep := hstep)
    (voff := voff) (dwell := dwell) (v := v)
  have hlegal : (eye != 3 && dwell != 0 && v == 0) =
      !(decide (eye.toNat = 3) || decide (dwell.toNat = 0) || decide (v.toNat ≠ 0)) := by
    rw [Bool.eq_iff_iff]
    simp [← BitVec.toNat_inj, and_assoc]
  rw [eyeScan, hport, heye, hdwell, hv, hlegal, if_neg (by omega)]
  cases decide (eye.toNat = 3) || decide (dwell.toNat = 0) || decide (v.toNat ≠ 0) <;> rfl

end

theorem setScan_congr {s : State} {k : Nat} {f g : EyeScan → EyeScan}
    (h : f (sget {} s.px.scans k) = g (sget {} s.px.scans k)) : setScan k f s = setScan k g s :=
  congrArg (fun m => { s with px := { s.px with scans := m } }) (smod_congr h)

/-- Can a scan of a command end complete: CDR lock, in the peer's set, not looped back? -/
def scanUsable (s : State) (cmd : Nat) : Bool :=
  let p := fld cmd 127 121
  let l := fld cmd 120 119
  (laneOf (portLanes s p) l).cdr && bit (portLanes s p).peerTxSet l && rc s 0x5030 p == 0

theorem eyeScanDone_running {s : State} {k errors : Nat} (h : (sget {} s.px.scans k).status = 1) :
    eyeScanDone k errors s =
      let cmd := (sget {} s.px.scans k).cmd
      let n := fld cmd 102 95 * 2 ^ 20
      setScan k (fun c => if scanUsable s cmd then { c with
        status := 2, compared := n, errors := min errors n } else { c with status := 3 }) s := by
  refine setScan_congr ?_
  simp only [h, ne_eq, not_true_eq_false, if_false, scanUsable]
  exact if_congr (by simp) rfl rfl

/-- Settles O23, command by command. -/
theorem laneSetsAndEyeScans : Obligations.LaneSetsAndEyeScans := by
  intro s
  refine ⟨fun p h1 h2 => ⟨fun hb he => ?dwell, fun v hm hb hd => ?depth, fun hm hb => ?restore,
      fun hw => ⟨fun h ht => ?warm, fun ht => ?timeout⟩⟩,
    fun port lane eye hstep voff dwell v hd hp => effect_inCX hd (eyeScan_port hp),
    fun k errors hd h => effect_inDomain hd (eyeScanDone_running h)⟩
  all_goals refine effect_inLanes h1 h2 ?_
  case dwell => exact lullDwell_over hb he
  case depth => exact lullDepth_deep hm hb v.isLt hd
  case restore => exact laneRestore_held hm hb
  case warm => exact warmUp_over hw h ht
  case timeout => exact wideningTimeout_over hw ht

end Sys2Proof.Machine
end

section
/-!
SUPPORT. The lock commands of host clients, patrol scrub and the stacks (14_ordering_and_locks.md, R427 to R429;
15_context_memory.md, R433, R437, R443, R445).
-/
namespace Sys2Proof.Machine

section
variable {s : State} {fn : Nat} {w : LockWord} {used : Bool} {f : State → State} {p : Party} {l : Nat}

/-! ### The frame (R416, R427) -/

section
variable {o : Out3} {t : State} (hx : o = lockCommand fn w used f s) (hb : barsLive s fn = true)
include hx hb

theorem effect_lock_fault (hw : lockWordOk s fn w used = false) : Effect o (fun t => t = bump 0x8631 0 s) := by
  have hfault : lockCommand fn w used f s = fin (bump 0x8631 0 s) := by simp [lockCommand, hb, hw]
  rw [hx, hfault]
  exact effect_fin rfl

variable (hw : lockWordOk s fn w used = true)
include hw

theorem effect_lock_denied (ht : tenantOk s fn (lockTenant s w.lock) = false) :
    Effect o (fun t => t = lockResult w 11 s) := by
  have hdenied : lockCommand fn w used f s = fin (lockResult w 11 s) := by simp [lockCommand, hb, hw, ht]
  rw [hx, hdenied]
  exact effect_fin rfl

theorem effect_lock_taken (ht : tenantOk s fn (lockTenant s w.lock) = true) (h : f s = t) :
    Effect o (fun u => u = t) := by
  have htaken : lockCommand fn w used f s = fin (f s) := by simp [lockCommand, hb, hw, ht]
  rw [hx, htaken]
  exact effect_fin h

end

/-! ### What each command does (R428, R429) -/

/-- Does a party of the host? -/
def isHostParty : Party → Bool
  | .host _ _ => true
  | _ => false

theorem noWaiterSlot_iff : noWaiterSlot s l = true ↔ 8192 - 384 ≤ hostWaiters s ∨
    ((∃ x, (lockOf s l).holder = some x ∧ ∃ f k, x.party = .host f k) ∧
      8191 - 384 ≤ ((lockOf s l).waiters.filter fun v => isHostParty v.party).length) := by
  simp only [noWaiterSlot, Bool.or_eq_true, Bool.and_eq_true, decide_eq_true_eq]
  refine or_congr_right (and_congr_left' ?_)
  cases hh : (lockOf s l).holder with
  | none => simp
  | some x =>
    obtain ⟨party, own, eff, eqn, orphan, mt⟩ := x
    cases party <;> simp

/-- The effects of the four commands, where a function may use the lock. -/
def hostAcquire (w : LockWord) (p : Party) (s : State) : State :=
  if (waitsFor s p).isSome then lockResult w 9 s
  else if partyHolds s w.lock p then lockResult w 4 s
  else if (lockOf s w.lock).holder.isNone then grantNow w p (bump 0x8630 0 s)
  else if noWaiterSlot s w.lock then lockResult w 8 s
  else enqueueWaiter w.lock p w.priority w.eqn (bump 0x8630 0 s)

def hostTry (w : LockWord) (p : Party) (s : State) : State :=
  if partyHolds s w.lock p then lockResult w 4 s
  else if (lockOf s w.lock).holder.isNone then grantNow w p s
  else lockResult w 1 (bump 0x8633 0 s)

def hostRelease (w : LockWord) (p : Party) (s : State) : State :=
  if partyHolds s w.lock p then giveUp w.lock p false s else lockResult w 3 s

def hostCancel (w : LockWord) (p : Party) (s : State) : State :=
  if partyHolds s w.lock p then lockResult w 6 s
  else if (lockOf s w.lock).waiters.any (fun v => v.party == p) then lockResult w 5 (removeWaiter w.lock p s)
  else lockResult w 7 s

section
variable {fn : Fin 514} {prio : BitVec 4} {token : BitVec 16} {eqn : BitVec 20} {v : BitVec 8} {lock : BitVec 12}

/-- The fields of a lock command. -/
def lockFields (prio : BitVec 4) (token : BitVec 16) (eqn : BitVec 20) (v : BitVec 8) (lock : BitVec 12) : LockWord :=
  ⟨prio.toNat, token.toNat, eqn.toNat, v.toNat, lock.toNat⟩

theorem exec_lockAcquire : exec (.lockAcquire fn prio token eqn v lock) s =
    lockCommand fn (lockFields prio token eqn v lock) true
      (hostAcquire (lockFields prio token eqn v lock) (.host fn token.toNat)) s := rfl

theorem exec_lockTry : exec (.lockTry fn prio token eqn v lock) s =
    lockCommand fn (lockFields prio token eqn v lock) true
      (hostTry (lockFields prio token eqn v lock) (.host fn token.toNat)) s := rfl

theorem exec_lockRelease : exec (.lockRelease fn prio token eqn v lock) s =
    lockCommand fn (lockFields prio token eqn v lock) false
      (hostRelease (lockFields prio token eqn v lock) (.host fn token.toNat)) s := rfl

theorem exec_lockCancel : exec (.lockCancel fn prio token eqn v lock) s =
    lockCommand fn (lockFields prio token eqn v lock) false
      (hostCancel (lockFields prio token eqn v lock) (.host fn token.toNat)) s := rfl

end

section
variable (hnone : waitsFor s p = none) (hp : partyHolds s w.lock p = false)
include hnone hp

theorem hostAcquire_free (hf : (lockOf s w.lock).holder = none) :
    hostAcquire w p s = grantNow w p (bump 0x8630 0 s) := by simp [hostAcquire, hnone, hp, hf]

theorem hostAcquire_full (hh : (lockOf s w.lock).holder.isSome = true) (hr : noWaiterSlot s w.lock = true) :
    hostAcquire w p s = lockResult w 8 s := by
  simp [hostAcquire, hnone, hp, Option.isSome_iff_ne_none.1 hh, hr]

theorem hostAcquire_queued (hh : (lockOf s w.lock).holder.isSome = true) (hr : noWaiterSlot s w.lock = false) :
    hostAcquire w p s = enqueueWaiter w.lock p w.priority w.eqn (bump 0x8630 0 s) := by
  simp [hostAcquire, hnone, hp, Option.isSome_iff_ne_none.1 hh, hr]

end

theorem hostAcquire_waits (h : (waitsFor s p).isSome = true) : hostAcquire w p s = lockResult w 9 s := if_pos h

theorem hostAcquire_own (hnone : waitsFor s p = none) (hp : partyHolds s w.lock p = true) :
    hostAcquire w p s = lockResult w 4 s := by simp [hostAcquire, hnone, hp]

theorem hostTry_own (hp : partyHolds s w.lock p = true) : hostTry w p s = lockResult w 4 s := if_pos hp

theorem hostTry_free (hp : partyHolds s w.lock p = false) (hf : (lockOf s w.lock).holder = none) :
    hostTry w p s = grantNow w p s := by simp [hostTry, hp, hf]

theorem hostTry_held (hp : partyHolds s w.lock p = false) (hh : (lockOf s w.lock).holder.isSome = true) :
    hostTry w p s = lockResult w 1 (bump 0x8633 0 s) := by simp [hostTry, hp, Option.isSome_iff_ne_none.1 hh]

theorem hostRelease_own (hp : partyHolds s w.lock p = true) : hostRelease w p s = giveUp w.lock p false s := if_pos hp
theorem hostRelease_other (hp : partyHolds s w.lock p = false) : hostRelease w p s = lockResult w 3 s := by
  simp [hostRelease, hp]

theorem hostCancel_own (hp : partyHolds s w.lock p = true) : hostCancel w p s = lockResult w 6 s := if_pos hp

theorem hostCancel_waiter (hp : partyHolds s w.lock p = false)
    (hw : (lockOf s w.lock).waiters.any (fun v => v.party == p) = true) :
    hostCancel w p s = lockResult w 5 (removeWaiter w.lock p s) := by
  simp only [hostCancel, hp, hw, Bool.false_eq_true, if_false, if_true]

theorem hostCancel_none (hp : partyHolds s w.lock p = false)
    (hw : (lockOf s w.lock).waiters.any (fun v => v.party == p) = false) :
    hostCancel w p s = lockResult w 7 s := by
  simp only [hostCancel, hp, hw, Bool.false_eq_true, if_false]

end

/-! ### Patrol scrub (R443) -/

section
variable {s : State} {k : Fin 2} {ecc : Ecc}

/-- The granule that a scrub of a stack reads next, and the state with the pass advanced. -/
def scrubGranule (s : State) (k : Fin 2) : Nat := k.val * (stackBytes / 32) + (stack s k.val).scrub
def scrubAdvanced (s : State) (k : Fin 2) : State :=
  bumpStack k.val 6 1 (setStack k.val (fun t => { t with
    scrub := (t.scrub + 1) % (stackBytes / 32)
    passAt := if t.scrub = 0 then ticks s else t.passAt
    passTicks := if t.scrub = 0 then rc s 0x8830 0 * 2 ^ 32 else t.passTicks }) s)

theorem exec_scrubRead_due (hw : stackWorks s k.val = true) (hd : scrubDue s (stack s k.val) = true) :
    exec (.scrubRead k ecc) s =
      if isPoisoned (scrubAdvanced s k) (scrubGranule s k) then fin (scrubAdvanced s k)
      else match ecc with
        | .clean => fin (scrubAdvanced s k)
        | .correctable =>
          fin (cmRecord 1 k.val (granLocal (scrubGranule s k)) 1 (bump 0x8840 k.val (scrubAdvanced s k)))
        | .uncorrectable => fin (poisonGranule (scrubGranule s k) 1 (scrubAdvanced s k)) := by
  have hx : exec (.scrubRead k ecc) s = execScrubRead k ecc s := rfl
  rw [hx, execScrubRead]
  simp only [hw, hd, Bool.not_true, Bool.or_self, Bool.false_eq_true, if_false]
  rfl

/-! ### Stacks (R433, R445) -/

theorem exec_stackTrainingComplete {ok : Bool} (ht : (stack s k.val).state = .training)
    (hd : domOn s (dHB k.val) = true) :
    exec (.stackTrainingComplete k ok) s =
      fin (when_ (ok && (k = 0 || !stackWorks s 0)) mirrorPlaced
        (setStack k.val (fun t => { t with state := if ok then .working else .absent }) s)) := by
  have hx : exec (.stackTrainingComplete k ok) s = execStackTrainingComplete k ok s := rfl
  rw [hx, execStackTrainingComplete]
  simp only [ht, hd, beq_self_eq_true, Bool.and_self, if_true]

end

/-- Settles O36, command by command. -/
theorem hostLocksAndContextMemory : Obligations.HostLocksAndContextMemory := by
  intro s
  refine ⟨fun fn prio token eqn v lock hb => ⟨fun hw => ⟨?_, ?_⟩, fun hw => ⟨?_, ?_⟩,
      fun ht => ⟨fun hw => ⟨?_, ?_⟩, fun hw => ⟨?_, ?_⟩⟩, fun hw ht => ?used, fun hw ht => ?unused⟩,
    fun k => ⟨fun hw => ⟨fun hd => ?scrub, ?lost⟩, fun ht hd => ⟨?trained, ?absent⟩⟩⟩
  · exact effect_lock_fault exec_lockAcquire hb hw
  · exact effect_lock_fault exec_lockTry hb hw
  · exact effect_lock_fault exec_lockRelease hb hw
  · exact effect_lock_fault exec_lockCancel hb hw
  · exact effect_lock_denied exec_lockAcquire hb hw ht
  · exact effect_lock_denied exec_lockTry hb hw ht
  · exact effect_lock_denied exec_lockRelease hb hw ht
  · exact effect_lock_denied exec_lockCancel hb hw ht
  case used =>
    have acquires {t : State} : _ → _ := effect_lock_taken (t := t) exec_lockAcquire hb hw ht
    have tries {t : State} : _ → _ := effect_lock_taken (t := t) exec_lockTry hb hw ht
    exact ⟨fun h => acquires (hostAcquire_waits h), fun hnone => ⟨fun hp => acquires (hostAcquire_own hnone hp),
        fun hp => ⟨fun hf => acquires (hostAcquire_free hnone hp hf),
          fun hh => ⟨fun hr => acquires (hostAcquire_full hnone hp hh (noWaiterSlot_iff.2 hr)),
            fun hr => acquires (hostAcquire_queued hnone hp hh
              (Bool.eq_false_iff.2 fun hs => hr (noWaiterSlot_iff.1 hs)))⟩⟩⟩,
      fun hp => tries (hostTry_own hp),
      fun hp => ⟨fun hf => tries (hostTry_free hp hf), fun hh => tries (hostTry_held hp hh)⟩⟩
  case unused =>
    have releases {t : State} : _ → _ := effect_lock_taken (t := t) exec_lockRelease hb hw ht
    have cancels {t : State} : _ → _ := effect_lock_taken (t := t) exec_lockCancel hb hw ht
    exact ⟨fun hp => ⟨releases (hostRelease_own hp), cancels (hostCancel_own hp)⟩,
      fun hp => ⟨releases (hostRelease_other hp), fun ha => cancels (hostCancel_waiter hp ha),
        fun ha => cancels (hostCancel_none hp ha)⟩⟩
  case scrub =>
    have hx {ecc : Ecc} := exec_scrubRead_due (ecc := ecc) hw hd
    refine ⟨fun hp ecc => ?poisoned, fun hp => ⟨?clean, ?correctable, ?uncorrectable⟩⟩
    case poisoned =>
      change isPoisoned (scrubAdvanced s k) (scrubGranule s k) = true at hp
      rw [hx, if_pos hp]
      exact effect_fin rfl
    all_goals
      change isPoisoned (scrubAdvanced s k) (scrubGranule s k) = false at hp
      rw [hx, if_neg (ne_true_of_eq_false hp)]
      exact effect_fin rfl
  case lost =>
    have hx : exec (.stackLost k) s = fin (later (.stackLost k.val) s) := if_pos hw
    rw [hx]
    exact effect_fin rfl
  case trained =>
    rw [exec_stackTrainingComplete ht hd]
    exact effect_fin (if_congr (by simp) rfl rfl)
  case absent =>
    rw [exec_stackTrainingComplete ht hd]
    exact effect_fin rfl

end Sys2Proof.Machine
end

section

/-! SUPPORT. The refutation of O37. The statement lets RESUME of every HALTED admin SQ resume the queue; the model
answers 2 where the halt is CONTEXT_LOST, whose context is gone. -/

namespace Sys2Proof.Machine

/-- Function 0 of a served link with its admin SQ halted because its context was lost (R461). -/
def adminContextLost : State := {
  pr := { domains := (List.range 30).map fun d => (d, .on) }
  hl := { links := [(0, { up := true, perstN := true })] }
  qm := { queues := [(0, { state := .halted, type := qSEND, cqn := 1, admin := true, haltReason := hCONTEXTLOST })] } }

theorem adminContextLost_served : barsLive adminContextLost 0 = true ∧ admBusy adminContextLost 0 = false ∧
    (queue adminContextLost (adminQn adminContextLost 0)).state = .halted ∧
    (queue adminContextLost (adminQn adminContextLost 0)).destroying = none := by decide +kernel

/-- AQ_CONTROL.RESULT that function 0 shows. -/
def shownResult (s : State) : Nat := (hostFn s 0).adm.result

theorem shownResult_resume_contextLost : shownResult (settle (aqControl 0 3 adminContextLost)) = 2 := by decide +kernel

theorem shownResult_resumed : shownResult (settle (setAdm 0 (fun a => { a with result := 0 })
    (resume (adminQn adminContextLost 0) false adminContextLost))) = 0 := by decide +kernel

/-- Refutes O37: RESUME of an admin SQ halted by CONTEXT_LOST shows 2 and leaves the queue halted, where the
statement has it resumed with result 0. -/
theorem not_hostRegistersTakeEffect : ¬ Obligations.HostRegistersTakeEffect := by
  intro h
  obtain ⟨hb, hbusy, hhalted, hkept⟩ := adminContextLost_served
  obtain ⟨-, -, actions, -⟩ := h adminContextLost 0 hb
  obtain ⟨-, -, -, -, -, -, -, resumes, -⟩ := actions hbusy
  obtain ⟨⟨t, ht, rfl⟩, -⟩ := resumes hhalted hkept
  have hsame : settle (aqControl 0 3 adminContextLost) = settle (setAdm 0 (fun a => { a with result := 0 })
      (resume (adminQn adminContextLost 0) false adminContextLost)) := by injection ht
  have := congrArg shownResult hsame
  rw [shownResult_resume_contextLost, shownResult_resumed] at this
  exact absurd this (by decide)

end Sys2Proof.Machine
end

section

/-! SUPPORT. The host links, the functions and the sideband (16_register_window.md, R450, R451, R454;
17_module_and_connectors.md, R482 to R484; 19_reset_and_boot.md, R511). -/

namespace Sys2Proof.Machine

section
variable {s : State}

/-! ### Links and functions -/

theorem hostLinkUp_trains {k width rate : Nat} {flit : Bool} (hp : (hostLink s k).perstN = true)
    (ht : (hostLink s k).training = true) (hu : (hostLink s k).up = false) (hd : domOn s (dHL k) = true)
    (hl : linkTrains width rate flit = true) :
    hostLinkUp k width rate flit s = openMailboxes (setLink k (fun l => { l with
      up := true, training := false, width := width, rate := rate, flit := flit }) s) := by
  simp [hostLinkUp, hp, ht, hu, hd, hl]

theorem hostLinkDown_up {k : Nat} (hu : (hostLink s k).up = true) :
    hostLinkDown k s = setLink k (fun l => { l with
      training := l.perstN && l.refclk && domOn s (dHL k) }) (linkLost k s) := if_pos hu

theorem functionReset_enabled {fn : Nat} (he : fnEnabled s fn = true) (hf : (hostFn s fn).flr = false) :
    functionReset fn s = fnReset fn true (bump 0xA031 (fnLink fn) s) := by
  simp [functionReset, he, hf]

theorem functionResetDone_quiet {fn : Nat} (hf : (hostFn s fn).flr = true) (hq : fnQuiet s fn = true) :
    functionResetDone fn s = openMailboxes (setFn fn (fun f => { f with flr := false }) s) := by
  simp [functionResetDone, hf, hq]

/-! ### Frames of the sideband -/

variable {addr data : Nat}

theorem sbRead_bad_data (hs : sbServes s = true) (hd : data ≠ 0) : sbRead addr data s = sbCommit 5 addr 0 s := by
  simp [sbRead, hs, hd]

theorem sbRead_register {v : Nat} (hs : sbServes s = true) (hv : sbRegister s addr = some v) :
    sbRead addr 0 s = sbCommit 0xA addr v s := by simp [sbRead, hs, hv]

theorem sbRead_no_register (hs : sbServes s = true) (hv : sbRegister s addr = none) :
    sbRead addr 0 s = sbCommit 6 addr 0 s := by simp [sbRead, hs, hv]

theorem sbWrite_scratch (hs : sbServes s = true) :
    sbWrite 0x030 data s = sbCommit 0xA 0x030 data { s with sb := { s.sb with scratch := data } } := by
  simp [sbWrite, hs]

theorem sbWrite_register {v : Nat} (hs : sbServes s = true) (ha : addr ≠ 0x030) (hv : sbRegister s addr = some v) :
    sbWrite addr data s = sbCommit 3 addr 0 s := by simp [sbWrite, hs, ha, hv]

theorem sbRegister_scratch : sbRegister s 0x030 = some s.sb.scratch := rfl

theorem sbWrite_no_register (hs : sbServes s = true) (hv : sbRegister s addr = none) :
    sbWrite addr data s = sbCommit 6 addr 0 s := by
  have ha : addr ≠ 0x030 := fun h => by simp [h, sbRegister_scratch] at hv
  simp [sbWrite, hs, ha, hv]

theorem sbNop_plain (hs : sbServes s = true) : sbNop 0 0 0 s = sbCommit 0xA 0 0 s := by simp [sbNop, hs]

theorem sbNop_bad {op : Nat} (hs : sbServes s = true) (h : ¬ (op = 0 ∧ addr = 0 ∧ data = 0)) :
    sbNop op addr data s = sbCommit 5 addr 0 s := by
  simp only [not_and] at h
  simpa [sbNop, hs] using fun a b c => absurd c (h a b)

/-- A frame whose OP is neither READ nor WRITE is taken as a NOP. -/
theorem exec_sbNop {op : BitVec 4} {a : BitVec 12} {d : BitVec 16} (h1 : op ≠ 1) (h2 : op ≠ 2) :
    exec (.sbNop op a d) s = fin (sbNop op.toNat a.toNat d.toNat s) := by
  have hx : exec (.sbNop op a d) s = execSbNop op a d s := rfl
  rw [hx, execSbNop, if_neg h1, if_neg h2]

end

/-- Settles O38, command by command. -/
theorem linksFunctionsAndSideband : Obligations.LinksFunctionsAndSideband := by
  intro s
  refine ⟨fun k => ⟨?up, ?down, effect_fin rfl, fun refclk => effect_fin rfl⟩,
    fun fn => ⟨?reset, ?resetDone⟩, ?sideband⟩
  case up =>
    intro width rate flit hp ht hu hd hl
    exact effect_fin (hostLinkUp_trains hp ht hu hd hl)
  case down => exact fun hu => effect_fin (hostLinkDown_up hu)
  case reset => exact fun he hf => effect_fin (functionReset_enabled he hf)
  case resetDone => exact fun hf hq => effect_fin (functionResetDone_quiet hf hq)
  case sideband =>
    intro a d hs answer
    refine ⟨fun v hv => ⟨?read, ?readOnly⟩, ?badData, fun hn => ⟨?noRegister, ?noWrite⟩, ?scratch, ?nop, ?badNop,
      ⟨rfl, rfl⟩, ?undefinedOp, ?abort⟩
    case read => exact effect_fin (sbRead_register hs hv)
    case readOnly =>
      intro ha
      exact effect_fin (sbWrite_register hs (fun h => ha (BitVec.eq_of_toNat_eq h)) hv)
    case badData => exact fun hd => effect_fin (sbRead_bad_data hs fun h => hd (BitVec.eq_of_toNat_eq h))
    case noRegister => exact effect_fin (sbRead_no_register hs hn)
    case noWrite => exact effect_fin (sbWrite_no_register hs hn)
    case scratch =>
      rintro rfl
      exact effect_fin (sbWrite_scratch hs)
    case nop =>
      rintro rfl
      rw [exec_sbNop (by decide) (by decide)]
      exact effect_fin (sbNop_plain hs)
    case badNop =>
      intro h
      rw [exec_sbNop (by decide) (by decide)]
      refine effect_fin (sbNop_bad hs ?_)
      rintro ⟨-, ha, hd⟩
      exact h.elim (fun h => h (BitVec.eq_of_toNat_eq ha)) fun h => h (BitVec.eq_of_toNat_eq hd)
    case undefinedOp =>
      intro op h0 h1 h2
      rw [exec_sbNop h1 h2]
      exact effect_fin (sbNop_bad hs fun h => h0 (BitVec.eq_of_toNat_eq h.1))
    case abort => exact effect_fin (if_pos hs)

end Sys2Proof.Machine
end

section

/-! SUPPORT. The input, the power domains and the planned departure (18_power_and_hotplug.md, R487, R488, R490, R493,
R496 to R498; 09_routing.md, R264). -/

namespace Sys2Proof.Machine

section
variable {s : State} {d vin : Nat}

/-! ### The input -/

theorem inputGoodAt_unshed (hv : 39000 ≤ vin) (h : domOn s 0 = false ∨ s.pr.shed = false) :
    inputGoodAt vin s = { s with pr := { s.pr with inputGood := true } } := by
  have h : ¬ (domOn s 0 && s.pr.shed) = true := by
    rw [Bool.and_eq_true]
    exact fun hb => h.elim (by simp [hb.1]) (by simp [hb.2])
  rw [inputGoodAt, if_neg (Nat.not_lt.2 hv), if_neg h]

theorem inputGoodAt_shed (hv : 39000 ≤ vin) (hd : domOn s 0 = true) (hs : s.pr.shed = true) :
    inputGoodAt vin s = takeReset 2 1 true { s with pr := { s.pr with inputGood := true, shed := false } } := by
  rw [inputGoodAt, if_neg (Nat.not_lt.2 hv), if_pos (by simp [hd, hs])]

theorem exec_inputOvervoltage {v : BitVec 32} (hv : 63000 < v.toNat) :
    exec (.inputOvervoltage v) s =
      inAO (fun s => raiseFault 1 0 v.toNat (if s.pr.shed then s else shed 2 v.toNat s)) s := by
  have hx : exec (.inputOvervoltage v) s = execInputOvervoltage v s := rfl
  simp only [hx, execInputOvervoltage, hv, if_true]

/-! ### Domains -/

theorem domainStart_due (hn : nextStart s = some d) (hs : startSpaced s = true) :
    domainStart d s = setDomain d .ramping { s with pr := { s.pr with
      lateStart := s.pr.lateStart.filter fun x => x != d
      startAt := some (ticks s)
      rampAt := mput s.pr.rampAt d (ticks s) } } := by simp [domainStart, hn, hs]

theorem domainGood_ramped (h0 : d ≠ 0) (hr : domState s d = .ramping) (hp : parentOn s d = true)
    (hm : mayStart s d = true) (ht : s.pr.kept.contains d = false ∨
      startOrder.find? (fun x => s.pr.kept.contains x && parentOn s x && mayStart s x) = some d) :
    domainGood d s = milestoneSix (domainUp d
      (setDomain d .on { s with pr := { s.pr with kept := s.pr.kept.filter fun x => x != d } })) := by
  refine if_pos ?_
  simpa only [hr, hp, hm, Bool.and_eq_true, bne_iff_ne, Bool.or_eq_true, beq_iff_eq, Bool.not_eq_true',
    and_true, true_and] using ⟨h0, ht⟩

theorem domainRampTimeout_late (h0 : d ≠ 0) (hr : domState s d = .ramping) (hk : s.pr.kept.contains d = false)
    (ht : sget 0 s.pr.rampAt d + ticksOf 5 1000 ≤ ticks s) :
    domainRampTimeout d s = unitRaise 2 d 0 (leaveOn d true s) := by
  refine if_pos ?_
  simp [-List.contains_eq_mem, h0, hr, hk, ht]

theorem domainRestart_isolated (h0 : d ≠ 0) (hd : d < 30) (hr : s.rs.phase = .running)
    (hi : domState s d = .isolated) : domainRestart d s = startLast d (setDomain d .off s) := by
  simp [domainRestart, h0, hd, hr, hi]

/-! ### Departure -/

theorem departRequest_joined (h : s.pr.departure = .joined) :
    departRequest s = later .departStart { s with pr := { s.pr with
      departure := .draining, drainAt := ticks s + rc s 0x3101 0 } } := by simp [departRequest, h]

theorem departQuiet_draining (h : s.pr.departure = .draining) (hq : fabricQuiet s = true) :
    departQuiet s = foldSt (fun p t => if (portRoute t p).state = .up then
        sendLinkCtl p 1 ((now s + (s.pr.drainAt - ticks s)) % 2 ^ 64) t else t) (rangeFrom 0 72)
      { s with pr := { s.pr with departure := .departing } } := by
  simp only [departQuiet, h, hq, beq_self_eq_true, Bool.and_self, if_true, beq_iff_eq]

theorem departDrained_drained (h : s.pr.departure = .departing) (hd : (rangeFrom 0 72).all (portDrained s) = true) :
    departDrained s = sectorsOff 1 (foldSt (fun p s => linkCtlNow p 2 0 s) (linkedPorts s) s) := by
  rw [departDrained, h, hd]
  exact if_pos rfl

theorem drainLimit_past (h : s.pr.departure = .draining ∨ s.pr.departure = .departing) (ht : s.pr.drainAt ≤ ticks s) :
    drainLimit s = sectorsOff 2 (discardHeld (foldSt (fun p s => linkCtlNow p 2 1 s) (linkedPorts s) s)) := by
  refine if_pos ?_
  simpa only [Bool.and_eq_true, Bool.or_eq_true, beq_iff_eq, decide_eq_true_eq] using ⟨h, ht⟩

theorem effect_fullService {f : State → State} {P : State → Prop} (h : fullService s = true) (hp : P (f s)) :
    Effect (if fullService s then fin (f s) else .next s) P := by
  rw [if_pos h]
  exact effect_fin hp

end

/-- Settles O39, command by command. -/
theorem inputDomainsAndDeparture : Obligations.InputDomainsAndDeparture := by
  intro s
  refine ⟨fun vin => ⟨?good, ?restart, fun hd => ⟨?low, ?high⟩⟩,
    fun d hd => ⟨?start, fun h0 hr => ⟨?rampedUp, ?late⟩, ?isolated⟩, ?request, fun hd => ⟨?quiet, ?drained, ?limit⟩,
    fun port p hd => ⟨?depart, ?departDone⟩⟩
  case good => exact fun hv h => effect_fin (inputGoodAt_unshed hv h)
  case restart => exact fun hv hd hs => effect_fin (inputGoodAt_shed hv hd hs)
  case low => exact fun hv hs => effect_inAO hd (if_pos (by simp [hv, hs]))
  case high =>
    intro hv
    rw [exec_inputOvervoltage hv]
    exact effect_inAO hd rfl
  case start => exact fun hn hs => effect_inAO hd (domainStart_due hn hs)
  case rampedUp =>
    exact fun hp hm ht => effect_inAO hd (domainGood_ramped (fun h => h0 (Fin.ext h)) hr hp hm ht)
  case late => exact fun hk ht => effect_inAO hd (domainRampTimeout_late (fun h => h0 (Fin.ext h)) hr hk ht)
  case isolated =>
    intro h0 hr hi
    have hn : (BitVec.ofNat 8 d.val).toNat = d.val := by
      rw [BitVec.toNat_ofNat, Nat.mod_eq_of_lt (by omega)]
    refine effect_inAO hd ?_
    rw [hn]
    exact domainRestart_isolated (fun h => h0 (Fin.ext h)) d.isLt hr hi
  case request => exact fun hf hj => effect_fullService hf (departRequest_joined hj)
  case quiet => exact fun h hq => effect_inAO hd (departQuiet_draining h hq)
  case drained => exact fun h hq => effect_inAO hd (departDrained_drained h hq)
  case limit => exact fun h ht => effect_inAO hd (drainLimit_past h ht)
  case depart =>
    intro hw
    obtain ⟨ht, hk⟩ := Bool.and_eq_true_iff.1 hw
    exact effect_portCommand (ok := fun p => kKIND p == 1) (g := fun _ t => portDepart port t) ht hk hd rfl
  case departDone =>
    intro hw
    obtain ⟨ht, hk⟩ := Bool.and_eq_true_iff.1 hw
    exact effect_portCommand (ok := fun p => kKIND p == 2) (g := fun _ t => portDepartDone port t) ht hk hd rfl

end Sys2Proof.Machine
end

section

/-! SUPPORT. The reset sources (19_reset_and_boot.md, R504 to R506): what `takeReset` does in each phase. -/

namespace Sys2Proof.Machine

section
variable {s : State} {code detail : Nat} {i : Instr} {P : State → Prop}

/-! ### A warm source -/

theorem takeReset_warm (ho : s.rs.phase ≠ .off) (hc : s.rs.phase ≠ .resetCold) (hw : s.rs.phase ≠ .resetWarm) :
    takeReset code detail false s = recordCause code detail (now s) (assertWarm (bump 0x3402 code s)) := by
  unfold takeReset
  split <;> first | contradiction | rfl

theorem takeReset_warm_in_cold (h1 : code ≠ 1) (hc : s.rs.phase = .resetCold) :
    takeReset code detail false s = bump 0x3402 code s := by
  unfold takeReset
  rw [hc]
  exact if_neg h1

theorem takeReset_warm_in_warm (hw : s.rs.phase = .resetWarm) : takeReset code detail false s =
    if code < s.rs.cause % 256 then recordCause code detail s.rs.instant (bump 0x3402 code s)
    else bump 0x3402 code s := by
  unfold takeReset
  rw [hw]
  exact if_congr decide_eq_true_iff rfl rfl

/-! ### A cold source -/

theorem takeReset_cold (h1 : code ≠ 1) (ho : s.rs.phase ≠ .off) (hc : s.rs.phase ≠ .resetCold) :
    takeReset code detail true s = recordCause code detail 0 (assertCold (bump 0x3402 code s)) := by
  unfold takeReset
  cases hp : s.rs.phase <;> first | contradiction | exact if_neg h1

theorem takeReset_cold_in_cold (h1 : code = 1 → s.rs.cause % 256 = 2) (hc : s.rs.phase = .resetCold) :
    takeReset code detail true s =
    if code < s.rs.cause % 256 then recordCause code detail 0 (bump 0x3402 code s) else bump 0x3402 code s := by
  have hn : ¬ (decide (code = 1) && s.rs.cause % 256 != 2) = true := by simpa using h1
  unfold takeReset
  rw [hc]
  exact (if_neg hn).trans (if_congr decide_eq_true_iff rfl rfl)

theorem takeReset_powerOn (ho : s.rs.phase = .off) :
    takeReset 1 0 true s = recordCause 1 0 0 (assertCold (bump 0x3402 1 s)) := by
  unfold takeReset
  rw [ho]
  exact if_pos rfl

theorem takeReset_powerOn_after_brownOut (hc : s.rs.phase = .resetCold) (hb : s.rs.cause % 256 = 2) :
    takeReset 1 0 true s = recordCause 1 0 0 (bump 0x3402 1 s) := by
  rw [takeReset_cold_in_cold (fun _ => hb) hc, if_pos (by omega)]

theorem startTimeout_due (ht : s.rs.timerRunning = true) (hl : s.rs.startLimit ≤ ticks s) :
    startTimeout s = takeReset 4 2 false s := by simp [startTimeout, ht, hl]

theorem exec_resetHoldExpiry_due (hr : s.fc.holdRunning = true) (ha : s.fc.holdAt ≤ ticks s) :
    exec .resetHoldExpiry s = fin (takeReset 5 3 false s) := if_pos (by simp [hr, ha])

/-- An instruction that finishes in one state has what that state has. -/
theorem effect_of_exec {t u : State} (hx : exec i s = fin t) (h : t = u) : Effect (exec i s) (fun t => t = u) := by
  rw [hx]
  exact effect_fin h

end

/-- Settles O40, source by source: each is `takeReset` with its code and DETAIL. -/
theorem resetsAreTaken : Obligations.ResetsAreTaken := by
  intro s lower warm cold
  have warms {i : Instr} {code detail : Nat} (h1 : code ≠ 1) (hx : exec i s = fin (takeReset code detail false s)) :
      warm i code detail :=
    ⟨fun ho hc hw => effect_of_exec hx (takeReset_warm ho hc hw),
      fun hc => effect_of_exec hx (takeReset_warm_in_cold h1 hc),
      fun hw => ⟨fun hl => effect_of_exec hx ((takeReset_warm_in_warm hw).trans (if_pos hl)),
        fun hl => effect_of_exec hx ((takeReset_warm_in_warm hw).trans (if_neg hl))⟩⟩
  have colds {i : Instr} {code detail : Nat} (h1 : code ≠ 1) (hx : exec i s = fin (takeReset code detail true s)) :
      cold i code detail :=
    ⟨fun ho hc => effect_of_exec hx (takeReset_cold h1 ho hc),
      fun hc => ⟨fun hl => effect_of_exec hx ((takeReset_cold_in_cold (absurd · h1) hc).trans (if_pos hl)),
        fun hl => effect_of_exec hx ((takeReset_cold_in_cold (absurd · h1) hc).trans (if_neg hl))⟩⟩
  refine ⟨fun hi => ⟨?powerOn, ?afterBrownOut⟩, colds (by decide) rfl, colds (by decide) rfl, colds (by decide) rfl,
    warms (by decide) rfl, fun pll => warms (by decide) rfl, fun hr => ⟨?watchdog, ?mismatch, ?busHang⟩,
    fun hr => ⟨?requestWarm, ?requestCold⟩, fun ht hl => ?timeout, fun hr ha => ?hold⟩
  case powerOn => exact fun ho => effect_of_exec (if_pos hi) (takeReset_powerOn ho)
  case afterBrownOut => exact fun hc hb => effect_of_exec (if_pos hi) (takeReset_powerOn_after_brownOut hc hb)
  case watchdog => exact warms (by decide) (if_pos hr)
  case mismatch => exact warms (by decide) (if_pos hr)
  case busHang => exact warms (by decide) (if_pos hr)
  case requestWarm => exact warms (by decide) (if_pos hr)
  case requestCold => exact colds (by decide) (if_pos hr)
  case timeout => exact warms (by decide) (congrArg fin (startTimeout_due ht hl))
  case hold => exact warms (by decide) (exec_resetHoldExpiry_due hr ha)

end Sys2Proof.Machine
end

section

/-! SUPPORT. The boot ROM and the start of the management firmware (19_reset_and_boot.md, R507 to R517). -/

namespace Sys2Proof.Machine

section
variable {s : State}

/-! ### Release -/

theorem resetRelease_cold {sel clk slot : Nat} (hp : s.rs.phase = .resetCold) : resetRelease sel clk slot s =
    bootRom (setDomain 0 .on { s with sb := { s.sb with bootSel := sel, clkMode := clk, slotId := slot } }) := by
  unfold resetRelease
  rw [hp]

theorem resetRelease_warm {sel clk slot : Nat} (hp : s.rs.phase = .resetWarm)
    (ht : s.rs.assertedAt + ticksOf 60 1000000 ≤ ticks s) : resetRelease sel clk slot s = bootRom (endSafe s) := by
  unfold resetRelease
  rw [hp]
  exact if_pos ht

/-! ### The boot ROM -/

/-- The jump to image `k`: the start is counted and timed (R512, R514). -/
def launched (k : Nat) (s : State) : State := { s with rs := { s.rs with
  phase := .verified, source := k, failedStarts := s.rs.failedStarts + 1, milestone := 2
  timerRunning := true, jumpAt := ticks s, startLimit := ticks s + ticksOf (persisted s 0x3420) 1000 } }

theorem launchImage_spent {k : Nat} (h : startsSpent s = true) : launchImage k s = enterDoldrums s := if_pos h

theorem launchImage_left {k : Nat} (h : startsSpent s = false) : launchImage k s = launched k s :=
  if_neg (ne_true_of_eq_false h)

theorem trySlots_left {a b bits : Nat} (h : startsSpent s = false) : trySlots a b bits s =
    if slotGood s a = true then launched a s
    else if slotGood s b = true then launchImage b (fallback bits b s)
    else enterDoldrums (fallback (Nat.lor bits 4) 4 s) := by rw [trySlots, launchImage_left h]

/-- What the boot ROM selects by BOOT_SEL with starts left (Table 19-7). -/
def selectedBoot (s : State) : State :=
  if s.sb.bootSel = 0 then trySlots 0 1 1 s
  else if s.sb.bootSel = 1 then trySlots 1 0 1 s
  else { romLoad s with rs := { (romLoad s).rs with
    phase := .waiting, source := s.sb.bootSel
    waitUntil := ticks (romLoad s) + persisted (romLoad s) 0x3414 * 2 ^ 32 } }

theorem bySelection_eq : bySelection s = selectedBoot s := rfl

/-- The slot to boot once: the update's own before the one that BOOT_ONCE recorded (R517, R535). -/
def bootOnceSlot (s : State) : Option Nat :=
  match s.rs.updateBoot with
  | some t => some t
  | none => s.ms.bootOnce

/-- What the boot ROM forgets before it looks at the count of failed starts. -/
def romStart (s : State) : State :=
  { s with rs := { s.rs with updateBoot := none, fallbacks := 0 }, ms := { s.ms with bootOnce := none } }

/-- Milestone 1: the boot ROM goes on to select. -/
def romSelecting (s : State) : State := { romStart s with rs := { (romStart s).rs with milestone := 1 } }

theorem startsSpent_romSelecting : startsSpent (romSelecting s) = startsSpent (romStart s) := rfl

theorem bootRom_spent (h : startsSpent (romStart s) = true) : bootRom s = enterDoldrums (romStart s) := if_pos h

theorem bootRom_left (h : startsSpent (romStart s) = false) : bootRom s = match bootOnceSlot s with
    | some t =>
      if slotGood (romSelecting s) t then
        launchImage t { romSelecting s with rs := { (romSelecting s).rs with fallbacks := 8 } }
      else bySelection (romSelecting s)
    | none => bySelection (romSelecting s) := if_neg (ne_true_of_eq_false h)

theorem bootRom_once {k : Nat} (h : startsSpent (romStart s) = false) (ho : bootOnceSlot s = some k)
    (hg : slotGood (romSelecting s) k = true) :
    bootRom s = launched k { romSelecting s with rs := { (romSelecting s).rs with fallbacks := 8 } } := by
  rw [bootRom_left h, ho]
  exact (if_pos hg).trans (launchImage_left h)

theorem bootRom_selects (h : startsSpent (romStart s) = false)
    (ho : bootOnceSlot s = none ∨ ∃ k, bootOnceSlot s = some k ∧ slotGood (romSelecting s) k = false) :
    bootRom s = selectedBoot (romSelecting s) := by
  rw [bootRom_left h]
  obtain hn | ⟨k, hk, hg⟩ := ho
  · rw [hn, bySelection_eq]
  · rw [hk]
    exact if_neg (ne_true_of_eq_false hg)

/-! ### The wait for a bundle, milestone 8, Doldrums -/

theorem bundleExpiry_over (hp : s.rs.phase = .waiting) (ht : s.rs.waitUntil ≤ ticks s) : bundleExpiry s =
    let s1 := setUpdate (fun u => { u with state := .idle, cells := [] }) (updateDrop s)
    if slotGood s1 0 = true then launchImage 0 (fallback 2 0 s1)
    else if slotGood s1 1 = true then launchImage 1 (fallback 2 1 s1)
    else enterDoldrums (fallback 6 4 s1) := if_pos (by simp [hp, ht])

theorem operational_six (hp : s.rs.phase = .running) (hm : s.rs.milestone = 6) : operational s =
    let ms := (ticks s - s.rs.jumpAt) * 1000 / 2 ^ 32
    logEvent 2 0 2 2 (beBytes 4 ms ++ beBytes 1 s.rs.source) { s with rs := { s.rs with
      milestone := 8, failedStarts := 0, timerRunning := false, duration := ms } } := if_pos (by simp [hp, hm])

theorem doldrumsExit_doldrums (hp : s.rs.phase = .doldrums) : doldrumsExit s = later (.reset 5 1 false)
    (logEvent 2 0 3 2 (beBytes 1 2) { s with rs := { s.rs with failedStarts := 0 } }) := if_pos (by simp [hp])

end

/-- Settles O41, command by command. -/
theorem startsGoThroughTheirMilestones : Obligations.StartsGoThroughTheirMilestones := by
  intro s launched try_ selected
  refine ⟨fun sel clk slot => ⟨?cold, ?warm⟩, ⟨bootRom_spent, fun hs => ⟨fun k => bootRom_once hs, ?select⟩⟩,
    fun k => ⟨launchImage_spent, launchImage_left⟩, fun hp ht => effect_fin (bundleExpiry_over hp ht),
    fun _ => effect_fin rfl, fun hp hm => effect_fin (operational_six hp hm),
    fun hp => effect_fin (doldrumsExit_doldrums hp)⟩
  case cold => exact fun hp => effect_fin (resetRelease_cold hp)
  case warm => exact fun hp ht => effect_fin (resetRelease_warm hp ht)
  case select =>
    intro ho
    have hleft : startsSpent (romSelecting s) = false := hs
    refine (bootRom_selects hs ho).trans ?_
    rw [selectedBoot, trySlots_left hleft, trySlots_left hleft]
    rfl

end Sys2Proof.Machine
end

section

/-! SUPPORT. Sensor scans, telemetry, the event log and firmware updates (20_management.md, R524, R525, R528, R532 to
R535, R540; 19_reset_and_boot.md, R513, R517). -/

namespace Sys2Proof.Machine

section
variable {s : State} {target source session length : Nat}

/-! ### Scans, samples and bursts -/

theorem exec_sensorScan_due {x : Scan} (hf : fullService s = true) (hd : scanDue s = true) :
    exec (.sensorScan x) s =
      fin (scanOptics x (scanSensors x { s with ms := { s.ms with scanAt := some (ticks s) } })) :=
  if_pos (by simp [hf, hd])

theorem telemetryDue_reached (h : s.ms.nextSample ≤ now s / rc s 0x2010 0) : telemetryDue s =
    telemetry (now s / rc s 0x2010 0 * rc s 0x2010 0) false
      { s with ms := { s.ms with nextSample := now s / rc s 0x2010 0 + 1 } } := if_pos h

theorem logFlush_burst {b : LogBurst}
    (hb : (s.ms.bursts.find? fun b => b.second < now s / 2 ^ 32 && b.omitted != 0) = some b) :
    logFlush s = logWrite {
      stamp := now s, seq := 0, severity := b.severity, tfree := timeFree s, cls := b.cls
      source := b.source, code := 0xFFFF, data := beBytes 2 b.code ++ beBytes 4 b.omitted }
      { s with ms := { s.ms with
        bursts := s.ms.bursts.filter fun x => !(x.cls == b.cls && x.source == b.source && x.code == b.code) } } := by
  have ho : b.omitted ≠ 0 := bne_iff_ne.1 (Bool.and_eq_true_iff.1 (List.find?_some hb :)).2
  unfold logFlush
  dsimp only
  rw [hb]
  exact if_neg ho

/-! ### The update object -/

/-- While updates are served an update command does what its operation does. -/
theorem effect_updateServed {f : State → State} {P : State → Prop}
    (hp : s.rs.phase = .running ∨ s.rs.phase = .doldrums ∨ s.rs.phase = .waiting) (h : P (f s)) :
    Effect (updateServed f s) P := by
  have hx : updateServed f s = fin (f s) := by
    unfold updateServed
    obtain hp | hp | hp := hp <;> rw [hp]
  rw [hx]
  exact effect_fin h

theorem updShow_eq {outcome reason : Nat} : updShow target outcome reason s = setUpdate (fun u => { u with
    target := if u.state = .idle then target else u.target, outcome := outcome, reason := reason }) s := by
  simp [updShow, setUpdate]

/-- The outcome of a command that finds an update in progress leaves the target shown. -/
theorem updOutcome_eq {outcome reason : Nat} :
    updOutcome outcome reason s = updShow s.ms.update.target outcome reason s := by
  simp [updOutcome, updShow, setUpdate]

/-! ### BEGIN and ERASE -/

theorem updateBegin_busy (h : s.ms.update.state ≠ .idle) :
    updateBegin session target length s = updShow s.ms.update.target 2 1 s := by
  rw [← updOutcome_eq]
  exact if_pos (bne_iff_ne.2 h)

theorem updateBegin_no_target (h : s.ms.update.state = .idle) (ht : isTarget target = false) :
    updateBegin session target length s = updShow target 2 11 s := by
  simp [updateBegin, h, ht]

theorem updateBegin_used (h : s.ms.update.state = .idle) (ht : isTarget target = true)
    (hu : inUse s target = true ∧ intoRam s target = false) :
    updateBegin session target length s = updShow target 2 2 s := by
  simp [updateBegin, h, ht, hu.1, hu.2]

/-- Is a length a whole number of words that the target holds (R533)? -/
def LengthFits (target length : Nat) : Prop := length % 4 = 0 ∧ length ≠ 0 ∧ length ≤ areaSize target

theorem not_lengthFits_iff :
    ¬ LengthFits target length ↔ length % 4 ≠ 0 ∨ length = 0 ∨ areaSize target < length := by
  simp only [LengthFits]; omega

theorem updateBegin_bad_length (h : s.ms.update.state = .idle) (ht : isTarget target = true)
    (hu : ¬ (inUse s target = true ∧ intoRam s target = false)) (hl : ¬ LengthFits target length) :
    updateBegin session target length s = updShow target 2 3 s := by
  have hu : (inUse s target && !intoRam s target) = false := by simpa using hu
  rw [not_lengthFits_iff] at hl
  simp [updateBegin, h, ht, hu, hl, or_assoc]

theorem updateBegin_receives (h : s.ms.update.state = .idle) (ht : isTarget target = true)
    (hu : ¬ (inUse s target = true ∧ intoRam s target = false)) (hl : LengthFits target length) :
    updateBegin session target length s = setUpdate (fun _ => {
        state := .receiving, target := target, owner := session, length := length })
      (setArea (if intoRam s target = true then 128 else target) (fun _ => {}) s) := by
  have hu : (inUse s target && !intoRam s target) = false := by simpa using hu
  have hl := mt not_lengthFits_iff.2 (not_not.2 hl)
  simp [updateBegin, h, ht, hu, hl, or_assoc]

theorem updateErase_busy (h : s.ms.update.state ≠ .idle) :
    updateErase target s = updShow s.ms.update.target 2 1 s := by
  rw [← updOutcome_eq]
  exact if_pos (bne_iff_ne.2 h)

theorem updateErase_no_target (h : s.ms.update.state = .idle) (ht : isTarget target = false) :
    updateErase target s = updShow target 2 11 s := by simp [updateErase, h, ht]

theorem updateErase_used (h : s.ms.update.state = .idle) (ht : isTarget target = true) (hu : inUse s target = true) :
    updateErase target s = updShow target 2 2 s := by simp [updateErase, h, ht, hu]

theorem updateErase_free (h : s.ms.update.state = .idle) (ht : isTarget target = true) (hu : inUse s target = false) :
    updateErase target s = updShow target 0 0 (setArea target (fun _ => {}) s) := by simp [updateErase, h, ht, hu]

/-! ### FINISH, ABORT and the end of verification -/

theorem updateFinish_owner (h : s.ms.update.state = .receiving) (ho : s.ms.update.owner = session) :
    updateFinish session s = setUpdate (fun u => { u with state := .verifying, verdict := finishChecks s u }) s :=
  if_pos (by simp [h, ho])

theorem updateFinish_other (h : s.ms.update.state ≠ .receiving ∨ s.ms.update.owner ≠ session) :
    updateFinish session s = s := if_neg (by simpa [Classical.or_iff_not_imp_left] using h)

theorem updateDrop_receiving (h : s.ms.update.state = .receiving) : updateDrop s =
    logUpdate 4 s.ms.update.target 9 s.ms.update.received
      (setUpdate (fun u => { u with state := .idle, outcome := 4, reason := 9, cells := [] }) s) :=
  if_pos (by simp [h])

theorem updateDrop_other (h : s.ms.update.state ≠ .receiving) : updateDrop s = s := if_neg (by simp [h])

theorem updateAbort_owner (ho : s.ms.update.owner = session) : updateAbort session s = updateDrop s :=
  if_pos (by simp [ho])

theorem updateAbort_other (h : s.ms.update.state ≠ .receiving ∨ s.ms.update.owner ≠ session) :
    updateAbort session s = s := by
  by_cases ho : s.ms.update.owner = session
  · rw [updateAbort_owner ho, updateDrop_other (h.resolve_right (not_not.2 ho))]
  · exact if_neg (by simp [ho])

theorem updateVerify_fails (h : s.ms.update.state = .verifying) (hv : s.ms.update.verdict ≠ 0) : updateVerify s =
    logUpdate 3 s.ms.update.target s.ms.update.verdict s.ms.update.received
      (setUpdate (fun u => { u with
        state := .idle, outcome := 3, reason := s.ms.update.verdict, cells := [] }) s) := by
  simp only [updateVerify, h, bne_self_eq_false, Bool.false_eq_true, if_false, if_neg hv]

/-- The area that a verified image goes to: SRAM while the boot ROM waits for a bundle (R513). -/
def imageArea (s : State) : Nat := if intoRam s s.ms.update.target = true then 128 else s.ms.update.target

theorem updateVerify_valid (h : s.ms.update.state = .verifying) (hv : s.ms.update.verdict = 0) : updateVerify s =
    doldrumsUpdate s.ms.update.target (logUpdate 1 s.ms.update.target s.ms.update.verdict s.ms.update.received
      (setUpdate (fun u => { u with state := .idle, outcome := 1, reason := s.ms.update.verdict, cells := [] })
        (setArea (imageArea s) (fun _ => { valid := true, bytes := updateImage s.ms.update }) s))) := by
  simp only [updateVerify, h, bne_self_eq_false, Bool.false_eq_true, if_false, if_pos hv, imageArea]

/-! ### COPY and BOOT_ONCE -/

theorem updateCopy_busy (h : s.ms.update.state ≠ .idle) :
    updateCopy source target s = updShow s.ms.update.target 2 1 s := by
  rw [← updOutcome_eq]
  exact if_pos (bne_iff_ne.2 h)

theorem updateCopy_no_slot (h : s.ms.update.state = .idle) (hs : ¬ (source < 2 ∧ target < 2)) :
    updateCopy source target s = updShow target 2 11 s := by
  have hs : 2 ≤ source ∨ 2 ≤ target := by omega
  simp [updateCopy, h, hs]

theorem updateCopy_used (h : s.ms.update.state = .idle) (hs : source < 2 ∧ target < 2) (hu : inUse s target = true) :
    updateCopy source target s = updShow target 2 2 s := by
  simp [updateCopy, h, hu, Nat.not_le.2 hs.1, Nat.not_le.2 hs.2]

theorem updateCopy_invalid (h : s.ms.update.state = .idle) (hs : source < 2 ∧ target < 2) (hu : inUse s target = false)
    (ha : (area s source).valid = false ∨ verifyImage s false (area s source).bytes ≠ 0) :
    updateCopy source target s = updShow target 2 10 s := by
  simp [updateCopy, h, hu, Nat.not_le.2 hs.1, Nat.not_le.2 hs.2, ha]

theorem updateCopy_copies (h : s.ms.update.state = .idle) (hs : source < 2 ∧ target < 2) (hu : inUse s target = false)
    (hv : (area s source).valid = true) (hi : verifyImage s false (area s source).bytes = 0) :
    updateCopy source target s = doldrumsUpdate target (logUpdate 1 target 0 (area s source).bytes.length
      (setUpdate (fun u => { u with
        target := target, outcome := 1, reason := 0, received := (area s source).bytes.length })
        (setArea target (fun _ => area s source) s))) := by
  simp [updateCopy, h, hu, Nat.not_le.2 hs.1, Nat.not_le.2 hs.2, hv, hi]

theorem bootOnce_valid (ht : target < 2) (hv : (area s target).valid = true) :
    bootOnce target s = updShow target 0 0 { s with ms := { s.ms with bootOnce := some target } } :=
  if_pos (by simp [ht, hv])

theorem bootOnce_invalid (h : 2 ≤ target ∨ (area s target).valid = false) :
    bootOnce target s = updShow target 2 10 s := by
  refine if_neg ?_
  simp only [Bool.and_eq_true, decide_eq_true_eq, not_and, Bool.not_eq_true]
  exact fun ht => h.resolve_left (Nat.not_le.2 ht)

end

/-- Settles O42, command by command. -/
theorem sensorsLogAndUpdates : Obligations.SensorsLogAndUpdates := by
  intro s
  refine ⟨fun hf => ⟨?scan, ?sample⟩, fun hd b hb => ?burst, ?updates⟩
  case scan =>
    intro x hd
    rw [exec_sensorScan_due hf hd]
    exact effect_fin rfl
  case sample => exact fun h => effect_fullService hf (telemetryDue_reached h)
  case burst => exact effect_inAO hd (logFlush_burst hb)
  case updates =>
    intro hp u shown shows barred
    have served {f : State → State} {t : State} (h : f s = t) : Effect (updateServed f s) (fun u => u = t) :=
      effect_updateServed hp h
    have answers {f : State → State} {target outcome reason : Nat} (h : f s = updShow target outcome reason s) :
        Effect (updateServed f s) (fun t => t = shown target outcome reason s) := served (h.trans updShow_eq)
    have verified {t : State} (h : updateVerify s = t) :
        Effect (exec .updateVerifyComplete s) (fun u => u = bundleBoot t) :=
      served (f := fun s => bundleBoot (updateVerify s)) (congrArg bundleBoot h)
    refine ⟨fun session target length => ⟨?busy, ?idle⟩, fun session => ⟨?owner, ?other⟩, fun hv => ⟨?fails, ?valid⟩,
      fun source target => ⟨?copyBusy, fun hi => ⟨?noSlot, ?copyUsed, fun hs hu => ⟨?copyInvalid, ?copies⟩⟩⟩,
      fun target => ⟨?once, ?notOnce⟩⟩
    case busy => exact fun h => ⟨answers (updateBegin_busy h), answers (updateErase_busy h)⟩
    case idle =>
      have hfits : length.toNat % 4 = 0 ∧ length ≠ 0 ∧ length.toNat ≤ areaSize target.toNat ↔
          LengthFits target.toNat length.toNat := by
        rw [LengthFits, Ne, Ne, ← BitVec.toNat_inj]
        rfl
      refine fun hi => ⟨fun ht => ⟨answers (updateBegin_no_target hi ht), answers (updateErase_no_target hi ht)⟩,
        fun ht => ⟨fun hu => answers (updateBegin_used hi ht hu),
          fun hu hl => answers (updateBegin_bad_length hi ht hu (mt hfits.2 hl)),
          fun hu hl => served (updateBegin_receives hi ht hu (hfits.1 hl)),
          fun hu => answers (updateErase_used hi ht hu),
          fun hu => served ((updateErase_free hi ht hu).trans updShow_eq)⟩⟩
    case owner =>
      exact fun h ho => ⟨served (updateFinish_owner h ho),
        served ((updateAbort_owner ho).trans (updateDrop_receiving h))⟩
    case other => exact fun h => ⟨served (updateFinish_other h), served (updateAbort_other h)⟩
    case fails => exact fun h => verified (updateVerify_fails hv h)
    case valid => exact fun h => verified (updateVerify_valid hv h)
    case copyBusy => exact fun h => answers (updateCopy_busy h)
    case noSlot => exact fun hs => answers (updateCopy_no_slot hi hs)
    case copyUsed => exact fun hs hu => answers (updateCopy_used hi hs hu)
    case copyInvalid => exact fun h => answers (updateCopy_invalid hi hs hu h)
    case copies => exact fun h hv => served (updateCopy_copies hi hs hu h hv)
    case once => exact fun ht hv => served ((bootOnce_valid ht hv).trans updShow_eq)
    case notOnce => exact fun h => answers (bootOnce_invalid h)

end Sys2Proof.Machine
end

section

/-! SUPPORT. The fault collector and BREEZE (21_faults.md, R544, R546, R547, R555 to R557; 18_power_and_hotplug.md,
R490). -/

namespace Sys2Proof.Machine

section
variable {s : State} {n inst data : Nat}

/-! ### Raises -/

theorem unitRaise_event (h : isCondition n = false) : unitRaise n inst data s = takeRaise n inst data s := by
  rw [unitRaise, if_neg (ne_true_of_eq_false h)]

theorem unitRaise_condition (h : isCondition n = true) : unitRaise n inst data s =
    takeRaise n inst data { s with fc := { s.fc with active := mput s.fc.active (n * 65536 + inst) data } } := by
  rw [unitRaise, if_pos h]

/-- Only sources 2 and 21 do more than raise. -/
theorem faultRaise_plain (h2 : n ≠ 2) (h21 : n ≠ 21) : faultRaise n inst data s = unitRaise n inst data s := by
  simp [faultRaise, when_, h2, h21]

theorem faultRaise_regulator (hi : inst ≠ 0) (hd : inst < 30) :
    faultRaise 2 inst data s = unitRaise 2 inst data (leaveOn inst true s) := by
  simp [faultRaise, when_, hi, hd]

theorem faultRaise_regulator_no_domain (hi : inst = 0 ∨ 30 ≤ inst) :
    faultRaise 2 inst data s = unitRaise 2 inst data s := by
  have hi : inst ≠ 0 → ¬ inst < 30 := by omega
  simp only [faultRaise, when_, Nat.reduceBEq, Bool.false_and, Bool.false_eq_true, if_false]
  rw [if_neg (by simpa using hi)]

theorem faultRaise_link (hi : inst < 2) :
    faultRaise 21 inst data s = unitRaise 21 inst data (bump 0xA033 inst s) := by
  simp [faultRaise, when_, hi]

theorem faultRaise_no_link (hi : 2 ≤ inst) : faultRaise 21 inst data s = unitRaise 21 inst data s := by
  simp [faultRaise, when_, Nat.not_lt.2 hi]

theorem isCondition_ne {m : Nat} (h : isCondition n = true) (hm : isCondition m = false) : n ≠ m := by
  rintro rfl
  exact absurd (h.symm.trans hm) (by decide)

/-! ### BREEZE -/

/-- The state after a boundary has taken a keepalive that running firmware or the recovery service wrote (R555). -/
def keepaliveTaken (written : Bool) (s : State) : State :=
  if written = true ∧ (s.rs.phase = .running ∨ s.rs.phase = .doldrums) then
    { s with fc := { s.fc with keepalive := true, keepaliveAt := ticks s } }
  else s

variable {written : Bool}

theorem keepaliveTaken_eq : (if written && (s.rs.phase == .running || s.rs.phase == .doldrums) then
    { s with fc := { s.fc with keepalive := true, keepaliveAt := ticks s } } else s) = keepaliveTaken written s :=
  if_congr (by simp) rfl rfl

theorem ticks_keepaliveTaken : ticks (keepaliveTaken written s) = ticks s := by
  unfold keepaliveTaken; split <;> rfl

theorem boundaryAt_keepaliveTaken : (keepaliveTaken written s).fc.boundaryAt = s.fc.boundaryAt := by
  unfold keepaliveTaken; split <;> rfl

theorem safe_keepaliveTaken : (keepaliveTaken written s).fc.safe = s.fc.safe := by
  unfold keepaliveTaken; split <;> rfl

theorem breeze_keepaliveTaken : (keepaliveTaken written s).fc.breeze = s.fc.breeze := by
  unfold keepaliveTaken; split <;> rfl

theorem breeze_def : breeze written s =
    if boundaryDue (keepaliveTaken written s) then
      { keepaliveTaken written s with fc := { (keepaliveTaken written s).fc with
        boundaryAt := some (ticks s)
        breeze := if keepaliveFresh (keepaliveTaken written s) && !s.fc.safe then !s.fc.breeze else s.fc.breeze } }
    else keepaliveTaken written s := by
  simp only [breeze, keepaliveTaken_eq, ticks_keepaliveTaken, safe_keepaliveTaken, breeze_keepaliveTaken]

/-- A boundary is early within 475 µs of the last one. -/
theorem boundaryDue_keepaliveTaken : boundaryDue (keepaliveTaken written s) = false ↔
    ∃ b, s.fc.boundaryAt = some b ∧ ticks s < b + ticksOf 475 1000000 := by
  rw [boundaryDue, boundaryAt_keepaliveTaken, ticks_keepaliveTaken]
  cases s.fc.boundaryAt with
  | none => simp
  | some b => simp

theorem keepaliveFresh_iff : keepaliveFresh (keepaliveTaken written s) = true ↔
    (keepaliveTaken written s).fc.keepalive = true ∧
      ticks s ≤ (keepaliveTaken written s).fc.keepaliveAt + ticksOf 2 1000 := by
  rw [keepaliveFresh, ticks_keepaliveTaken, Bool.and_eq_true, decide_eq_true_eq]

theorem breeze_early (h : ∃ b, s.fc.boundaryAt = some b ∧ ticks s < b + ticksOf 475 1000000) :
    breeze written s = keepaliveTaken written s := by
  rw [breeze_def, boundaryDue_keepaliveTaken.2 h]
  rfl

theorem breeze_due (h : ¬ ∃ b, s.fc.boundaryAt = some b ∧ ticks s < b + ticksOf 475 1000000) :
    breeze written s = { keepaliveTaken written s with fc := { (keepaliveTaken written s).fc with
        boundaryAt := some (ticks s)
        breeze :=
          if keepaliveFresh (keepaliveTaken written s) && !s.fc.safe then !s.fc.breeze else s.fc.breeze } } := by
  rw [breeze_def, if_pos (Bool.eq_true_of_not_eq_false (mt boundaryDue_keepaliveTaken.1 h))]

theorem breeze_toggles (h : ¬ ∃ b, s.fc.boundaryAt = some b ∧ ticks s < b + ticksOf 475 1000000)
    (ha : keepaliveFresh (keepaliveTaken written s) = true) (hs : s.fc.safe = false) :
    breeze written s = { keepaliveTaken written s with fc := { (keepaliveTaken written s).fc with
        boundaryAt := some (ticks s), breeze := !s.fc.breeze } } := by
  rw [breeze_due h, ha, hs]
  rfl

theorem breeze_rests (h : ¬ ∃ b, s.fc.boundaryAt = some b ∧ ticks s < b + ticksOf 475 1000000)
    (ha : keepaliveFresh (keepaliveTaken written s) ≠ true ∨ s.fc.safe = true) :
    breeze written s = { keepaliveTaken written s with fc := { (keepaliveTaken written s).fc with
        boundaryAt := some (ticks s) } } := by
  have hn : ¬ (keepaliveFresh (keepaliveTaken written s) && !s.fc.safe) = true := by
    simpa [Classical.or_iff_not_imp_left] using ha
  rw [breeze_due h, if_neg hn, ← breeze_keepaliveTaken (written := written)]

/-- What the expiry of the keepalive does to it. -/
def keepaliveExpired (s : State) : State :=
  if keepaliveFresh s then s else { s with fc := { s.fc with keepalive := false } }

theorem exec_breezeKeepaliveExpiry : exec .breezeKeepaliveExpiry s = inAO keepaliveExpired s := rfl

theorem keepaliveFresh_past (h : s.fc.keepaliveAt + ticksOf 2 1000 < ticks s) : keepaliveFresh s = false := by
  rw [keepaliveFresh, decide_eq_false (Nat.not_le.2 h), Bool.and_false]

theorem keepaliveExpired_past (h : s.fc.keepaliveAt + ticksOf 2 1000 < ticks s) :
    keepaliveExpired s = { s with fc := { s.fc with keepalive := false } } :=
  if_neg (ne_true_of_eq_false (keepaliveFresh_past h))

end

/-- Settles O43, command by command. -/
theorem faultsAndBreeze : Obligations.FaultsAndBreeze := by
  intro s
  refine ⟨fun hf => ⟨fun src => ⟨effect_fullService hf rfl, effect_fullService hf rfl⟩, effect_fullService hf rfl,
    effect_fullService hf rfl, effect_fullService hf rfl⟩, fun hd => ⟨fun src inst data => ⟨?event, ?condition⟩,
    fun written => ⟨?early, fun hb => ⟨?toggles, ?rests⟩⟩, ?expiry⟩⟩
  case event =>
    intro hc
    refine ⟨fun h2 h21 => ?plain, fun h2 hi hlt => ?regulator, fun h2 hi => ?noDomain, fun h21 hlt => ?link,
      fun h21 hge => ?noLink⟩
    case plain => exact effect_inAO hd ((faultRaise_plain h2 h21).trans (unitRaise_event hc))
    case regulator =>
      refine effect_inAO hd ?_
      rw [h2, faultRaise_regulator (fun h => hi (BitVec.eq_of_toNat_eq h)) hlt, unitRaise_event rfl]
    case noDomain =>
      refine effect_inAO hd ?_
      rw [h2, faultRaise_regulator_no_domain (hi.imp_left (congrArg BitVec.toNat)), unitRaise_event rfl]
    case link =>
      refine effect_inAO hd ?_
      rw [h21, faultRaise_link hlt, unitRaise_event rfl]
    case noLink =>
      refine effect_inAO hd ?_
      rw [h21, faultRaise_no_link hge, unitRaise_event rfl]
  case condition =>
    exact fun hc => effect_inAO hd
      ((faultRaise_plain (isCondition_ne hc rfl) (isCondition_ne hc rfl)).trans (unitRaise_condition hc))
  case early => exact fun h => effect_inAO hd (breeze_early h)
  case toggles => exact fun ha hs => effect_inAO hd (breeze_toggles hb (keepaliveFresh_iff.2 ha) hs)
  case rests => exact fun h => effect_inAO hd (breeze_rests hb (h.imp_left (mt keepaliveFresh_iff.1)))
  case expiry =>
    intro h
    rw [exec_breezeKeepaliveExpiry]
    exact effect_inAO hd (keepaliveExpired_past h)

end Sys2Proof.Machine
end

section

/-! SUPPORT. The queue of commands (95_what_each_step_holds.md): no operation changes it. One lemma per operation, in
the order of the model's files, so that `simp` reads the queue through any of them; the operations that take other
operations as arguments ask that those leave the queue too. -/

namespace Sys2Proof.Machine

section
variable {s : State}

/-! ### Conditions, folds and pairs -/

theorem pending_of_pair {α : Type} {p : α × State} {a : α} {t : State} {r : List Instr} (e : p = (a, t))
    (h : p.2.pending = r) : t.pending = r := by rw [← h, e]

@[simp] theorem ite_pending {c : Prop} [Decidable c] {t u : State} :
    (if c then t else u).pending = if c then t.pending else u.pending := apply_ite ..

@[simp] theorem ite_snd_pending {α : Type} {c : Prop} [Decidable c] {t u : α × State} :
    (if c then t else u).2.pending = if c then t.2.pending else u.2.pending :=
  apply_ite (fun p : α × State => p.2.pending) ..

@[simp] theorem foldSt_pending {α : Type} {f : α → State → State} {l : List α}
    (h : ∀ a s, (f a s).pending = s.pending) : (foldSt f l s).pending = s.pending :=
  foldSt_keeps (p := fun t => t.pending = s.pending) (fun a t ht => (h a t).trans ht) l s rfl

@[simp] theorem forRange_pending {lo n : Nat} {f : Nat → State → State}
    (h : ∀ a s, (f a s).pending = s.pending) : (forRange lo n f s).pending = s.pending := foldSt_pending h

@[simp] theorem foldl_pending {α : Type} {f : State → α → State} {l : List α}
    (h : ∀ s a, (f s a).pending = s.pending) : (l.foldl f s).pending = s.pending :=
  foldl_keeps (p := fun t => t.pending = s.pending) (fun t a ht => (h t a).trans ht) l s rfl

@[simp] theorem foldl_snd_pending {α β : Type} {f : β × State → α → β × State} {l : List α} {p : β × State}
    (h : ∀ p a, (f p a).2.pending = p.2.pending) : (l.foldl f p).2.pending = p.2.pending :=
  foldl_keeps (p := fun t => t.2.pending = p.2.pending) (fun t a ht => (h t a).trans ht) l p rfl

@[simp] theorem when_pending {c : Bool} {f : State → State} (h : ∀ s, (f s).pending = s.pending) :
    (when_ c f s).pending = s.pending := by
  unfold when_
  split <;> simp [h]

/-! ### Counters, host memory, translation and context memory -/

@[simp] theorem bumpMod_pending {n by_} : (bumpMod n by_ s).pending = s.pending := by simp [bumpMod]
@[simp] theorem bumpG15_pending {k by_} : (bumpG15 k by_ s).pending = s.pending := by simp [bumpG15]
@[simp] theorem bumpPort_pending {port e by_} : (bumpPort port e by_ s).pending = s.pending := by simp [bumpPort]
@[simp] theorem bumpPortVc_pending {port vc e by_} : (bumpPortVc port vc e by_ s).pending = s.pending := by
  simp [bumpPortVc]
@[simp] theorem bumpEngine_pending {engine e by_} : (bumpEngine engine e by_ s).pending = s.pending := by
  simp [bumpEngine]
@[simp] theorem bumpHost_pending {link e by_} : (bumpHost link e by_ s).pending = s.pending := by simp [bumpHost]
@[simp] theorem bumpStack_pending {k e by_} : (bumpStack k e by_ s).pending = s.pending := by simp [bumpStack]
@[simp] theorem draw_pending {bound} : (draw bound s).2.pending = s.pending := by simp [draw]
@[simp] theorem forgetPeers_pending : (forgetPeers s).pending = s.pending := by simp [forgetPeers]
@[simp] theorem postEvent_pending {eqn code subject detail data} :
    (postEvent eqn code subject detail data s).pending = s.pending := by
  simp [postEvent]
@[simp] theorem raiseFault_pending {source inst data} : (raiseFault source inst data s).pending = s.pending := by
  simp [raiseFault]
@[simp] theorem markStarted_pending {qn entry} : (markStarted qn entry s).pending = s.pending := by simp [markStarted]
@[simp] theorem complete_pending {qn entry c} : (complete qn entry c s).pending = s.pending := by simp [complete]
@[simp] theorem bumpFnBy_pending {fn k n} : (bumpFnBy fn k n s).pending = s.pending := by simp [bumpFnBy]
@[simp] theorem bumpFn_pending {fn k} : (bumpFn fn k s).pending = s.pending := by simp [bumpFn]
@[simp] theorem countTlp_pending {fn} : (countTlp fn s).pending = s.pending := by simp [countTlp]
@[simp] theorem countRead_pending {fn n} : (countRead fn n s).pending = s.pending := by simp [countRead]
@[simp] theorem countWrite_pending {fn n} : (countWrite fn n s).pending = s.pending := by simp [countWrite]
@[simp] theorem sendVector_pending {fn v} : (sendVector fn v s).pending = s.pending := by simp [sendVector]
@[simp] theorem raiseVector_pending {fn v} : (raiseVector fn v s).pending = s.pending := by simp [raiseVector]
@[simp] theorem flushVectors_pending {fn} : (flushVectors fn s).pending = s.pending := by simp [flushVectors]

@[simp] theorem sendReads_pending {k n} : (sendReads k n s).pending = s.pending := by
  induction n generalizing s with
  | zero => rfl
  | succ n ih =>
    rw [sendReads]
    dsimp only
    (repeat' split) <;> simp [ih]

@[simp] theorem pumpReads_pending {k} : (pumpReads k s).pending = s.pending := by simp [pumpReads]
@[simp] theorem issueRead_pending {r} : (issueRead r s).pending = s.pending := by simp [issueRead]
@[simp] theorem issueWrite_pending {fn addr bs poison data} :
    (issueWrite fn addr bs poison data s).pending = s.pending := by
  simp [issueWrite]
@[simp] theorem zeroRead_pending {link c} : (zeroRead link c s).pending = s.pending := by simp [zeroRead]
@[simp] theorem faultEvent_pending {a kind level flags id} :
    (faultEvent a kind level flags id s).pending = s.pending := by
  simp [faultEvent]
@[simp] theorem releaseRec_pending {k} : (releaseRec k s).pending = s.pending := by simp [releaseRec]
@[simp] theorem failAcc_pending {a kind level flags} : (failAcc a kind level flags s).pending = s.pending := by
  simp [failAcc]
@[simp] theorem followOn_pending {a} : (followOn a s).pending = s.pending := by unfold followOn; split <;> simp
@[simp] theorem holdAcc_pending {a kind level flags} : (holdAcc a kind level flags s).pending = s.pending := by
  unfold holdAcc
  dsimp only
  (repeat' split) <;> simp -implicitDefEqProofs
@[simp] theorem deadSpace_pending {a} : (deadSpace a s).pending = s.pending := by simp [deadSpace]
@[simp] theorem accFault_pending {a kind level flags} : (accFault a kind level flags s).pending = s.pending := by
  unfold accFault
  dsimp only
  (repeat' split) <;> simp
@[simp] theorem performAcc_pending {a host} : (performAcc a host s).pending = s.pending := by
  unfold performAcc
  dsimp only
  (repeat' split) <;> simp
@[simp] theorem useLeaf_pending {a entry} : (useLeaf a entry s).pending = s.pending := by
  unfold useLeaf
  split <;> simp

@[simp] theorem cachePut_pending {α : Type} {n} {x : α} {l} : (cachePut n x l s).2.pending = s.pending := by
  simp [cachePut]

@[simp] theorem tlbPut_pending {asid page entry} : (tlbPut asid page entry s).pending = s.pending := rfl
@[simp] theorem walkPut_pending {asid level addr entry} : (walkPut asid level addr entry s).pending = s.pending := rfl
@[simp] theorem readEntry_pending {a level table} : (readEntry a level table s).pending = s.pending := by
  simp [readEntry]

@[simp] theorem walkFrom_pending {a} : (walkFrom a s).pending = s.pending := by
  unfold walkFrom
  (repeat' split) <;> simp

@[simp] theorem preCheck_pending {a} {go : State → State} (h : ∀ s, (go s).pending = s.pending) :
    (preCheck a go s).pending = s.pending := by
  simp [preCheck, h]

@[simp] theorem startAcc_pending {a} : (startAcc a s).pending = s.pending := by
  refine preCheck_pending fun s => ?_
  split <;> simp

@[simp] theorem freshWalk_pending {a} : (freshWalk a s).pending = s.pending := by simp [freshWalk]
@[simp] theorem walkNext_pending {c} : (walkNext c s).pending = s.pending := by unfold walkNext; split <;> simp

@[simp] theorem entryRead_pending {a level entry} : (entryRead a level entry s).pending = s.pending := by
  unfold entryRead
  (repeat' split) <;> simp -implicitDefEqProofs

@[simp] theorem readCompletion_pending {key r} : (readCompletion key r s).pending = s.pending := by
  unfold readCompletion
  dsimp only
  (repeat' split) <;> simp
@[simp] theorem partEnds_pending {key} : (partEnds key s).pending = s.pending := by unfold partEnds; split <;> simp
@[simp] theorem invalidate_pending {issuer asid token tlb walk all pages page} :
    (invalidate issuer asid token tlb walk all pages page s).pending = s.pending := by
  simp [invalidate]
@[simp] theorem faultResume_pending {asid id} : (faultResume asid id s).pending = s.pending := by
  unfold faultResume
  split <;> simp
@[simp] theorem faultFail_pending {asid id} : (faultFail asid id s).pending = s.pending := by
  unfold faultFail
  split <;> simp -implicitDefEqProofs
@[simp] theorem transEffect_pending {c} : (transEffect c s).pending = s.pending := by simp [transEffect]
@[simp] theorem transCommand_pending {issuer word} : (transCommand issuer word s).pending = s.pending := by
  simp [transCommand]

@[simp] theorem releaseHeld_pending {issuer n} : (releaseHeld issuer n s).pending = s.pending := by
  induction n generalizing s with
  | zero => rfl
  | succ n ih =>
    rw [releaseHeld]
    (repeat' split) <;> simp [ih]

@[simp] theorem invalidateDone_pending {issuer} : (invalidateDone issuer s).pending = s.pending := by
  unfold invalidateDone
  split <;> simp
@[simp] theorem discardCaches_pending {asid} : (discardCaches asid s).pending = s.pending := by simp [discardCaches]
@[simp] theorem closeSpace_pending {asid} : (closeSpace asid s).pending = s.pending := by simp [closeSpace]
@[simp] theorem closeDying_pending : (closeDying s).pending = s.pending := by simp [closeDying]
@[simp] theorem asCommand_pending {writer v} : (asCommand writer v s).pending = s.pending := by
  unfold asCommand
  dsimp only
  (repeat' split) <;> simp
@[simp] theorem asCloseComplete_pending {asid} : (asCloseComplete asid s).pending = s.pending := by
  simp [asCloseComplete]
@[simp] theorem dropWaiters_pending {p} : (dropWaiters p s).pending = s.pending := by simp [dropWaiters]
@[simp] theorem takeWaiter_pending {k p} : (takeWaiter k p s).pending = s.pending := by simp [takeWaiter]
@[simp] theorem localWaitExpiry_pending {k} : (localWaitExpiry k s).pending = s.pending := by
  unfold localWaitExpiry
  dsimp only
  (repeat' split) <;> simp
@[simp] theorem pump_pending {qn} : (pump qn s).pending = s.pending := by
  unfold pump
  dsimp only
  (repeat' split) <;> simp
@[simp] theorem appendPending_pending {qn e} : (appendPending qn e s).pending = s.pending := by simp [appendPending]
@[simp] theorem appendEntry_pending {qn bits kick} : (appendEntry qn bits kick s).pending = s.pending := by
  simp [appendEntry]
@[simp] theorem raiseQueue_pending {qn} : (raiseQueue qn s).pending = s.pending := by simp [raiseQueue]
@[simp] theorem afterEntry_pending {qn kick} : (afterEntry qn kick s).pending = s.pending := by simp [afterEntry]
@[simp] theorem moderationTimeout_pending {qn} : (moderationTimeout qn s).pending = s.pending := by
  simp [moderationTimeout]
@[simp] theorem queueEvent_pending {qn code subject detail data} :
    (queueEvent qn code subject detail data s).pending = s.pending := by
  simp [queueEvent]
@[simp] theorem eventArrive_pending {eqn code subject detail data kick} :
    (eventArrive eqn code subject detail data kick s).pending = s.pending := by
  simp [eventArrive]
@[simp] theorem releaseSlots_pending {cqn n} : (releaseSlots cqn n s).pending = s.pending := by simp [releaseSlots]
@[simp] theorem writeCompletion_pending {cqn user opcode index qn sqHead c recvOf ack} :
    (writeCompletion cqn user opcode index qn sqHead c recvOf ack s).pending = s.pending := by
  simp [writeCompletion]
@[simp] theorem recvDone_pending {qn entry user opcode c ack} :
    (recvDone qn entry user opcode c ack s).pending = s.pending := by
  unfold recvDone
  split <;> simp
@[simp] theorem adminDone_pending {aqn entry c} : (adminDone aqn entry c s).pending = s.pending := by simp [adminDone]
@[simp] theorem adminHalt_pending {fn reason index} : (adminHalt fn reason index s).pending = s.pending := by
  simp [adminHalt]
@[simp] theorem haltQueue_pending {qn reason detail index} :
    (haltQueue qn reason detail index s).pending = s.pending := by
  unfold haltQueue
  dsimp only
  (repeat' split) <;> simp -implicitDefEqProofs
@[simp] theorem haltEntry_pending {qn reason detail desc} :
    (haltEntry qn reason detail desc s).pending = s.pending := by
  simp [haltEntry]
@[simp] theorem fetchNext_pending {qn} : (fetchNext qn s).pending = s.pending := by simp [fetchNext]
@[simp] theorem visit_pending {qn} : (visit qn s).pending = s.pending := by simp [visit]

theorem nextData_pending {el pass f x} (h : nextData s el pass f = some x) : x.2.pending = s.pending := by
  unfold nextData at h
  dsimp only at h
  (repeat' split at h) <;> cases h
  rfl

@[simp] theorem fetchVisit_pending : (fetchVisit s).pending = s.pending := by
  have hadmin {el f} {y : Nat × State} (h : ((nextAdminFn el f).map fun x : Nat × Nat =>
      (x.2, { s with qm := { s.qm with aturn := some (x.1 + 1) } })) = some y) : y.2.pending = s.pending := by
    obtain ⟨x, -, rfl⟩ := Option.map_eq_some_iff.1 h
    rfl
  unfold fetchVisit
  dsimp only
  split
  case h_2 => rfl
  case h_1 qn t ht =>
    rw [visit_pending]
    have hnext {el pass f} (h : nextData s el pass f = some (qn, t)) : t.pending = s.pending := nextData_pending h
    rcases Option.or_eq_some_iff.1 ht with h | ⟨-, h⟩
    · split at h
      · rcases Option.or_eq_some_iff.1 h with h | ⟨-, h⟩
        · exact hadmin h
        · exact hnext h
      · exact hnext h
    · rcases Option.or_eq_some_iff.1 h with h | ⟨-, h⟩
      · exact hadmin h
      · exact hnext h

@[simp] theorem accept_pending {qn desc frags} : (accept qn desc frags s).pending = s.pending := by simp [accept]
@[simp] theorem readFrag_pending {qn desc k} : (readFrag qn desc k s).pending = s.pending := by simp [readFrag]
@[simp] theorem ringRead_pending {qn n era r} : (ringRead qn n era r s).pending = s.pending := by
  unfold ringRead
  dsimp only
  (repeat' split) <;> simp
@[simp] theorem fragRead_pending {qn k era r} : (fragRead qn k era r s).pending = s.pending := by
  unfold fragRead
  dsimp only
  (repeat' split) <;> simp
@[simp] theorem entryWritten_pending {qn last era r} : (entryWritten qn last era r s).pending = s.pending := by
  unfold entryWritten
  dsimp only
  (repeat' split) <;> simp
@[simp] theorem markDone_pending {qn entry c} : (markDone qn entry c s).pending = s.pending := by simp [markDone]
@[simp] theorem dropHandles_pending {qn p} : (dropHandles qn p s).pending = s.pending := by simp [dropHandles]
@[simp] theorem retireOne_pending {qn} : (retireOne qn s).pending = s.pending := by
  unfold retireOne
  dsimp only
  (repeat' split) <;> simp
@[simp] theorem doorbellDiscard_pending {fn} : (doorbellDiscard fn s).pending = s.pending := by simp [doorbellDiscard]
@[simp] theorem doorbellIgnore_pending {fn} : (doorbellIgnore fn s).pending = s.pending := by simp [doorbellIgnore]

@[simp] theorem atSlot_pending {fn slot} {f : Nat → State → State} (h : ∀ q s, (f q s).pending = s.pending) :
    (atSlot fn slot f s).pending = s.pending := by
  unfold atSlot; dsimp only
  (repeat' split) <;> simp [h]

@[simp] theorem doorbellTail_pending {fn gen resv index qn} :
    (doorbellTail fn gen resv index qn s).pending = s.pending := by
  simp [doorbellTail]
@[simp] theorem headTo_pending {qn index} : (headTo qn index s).pending = s.pending := by simp [headTo]
@[simp] theorem doorbellHead_pending {fn gen resv index arm qn} :
    (doorbellHead fn gen resv index arm qn s).pending = s.pending := by
  simp [doorbellHead]
@[simp] theorem keyRightsWrite_pending {fn gen resv rights qn} :
    (keyRightsWrite fn gen resv rights qn s).pending = s.pending := by
  simp [keyRightsWrite]
@[simp] theorem breakResv_pending {g} : (breakResv g s).pending = s.pending := by simp [breakResv]
@[simp] theorem cmRecord_pending {kind k granule source} :
    (cmRecord kind k granule source s).pending = s.pending := by
  simp [cmRecord]
@[simp] theorem poisonGranule_pending {g source} : (poisonGranule g source s).pending = s.pending := by
  simp -implicitDefEqProofs [poisonGranule]
@[simp] theorem clearGranule_pending {g} : (clearGranule g s).pending = s.pending := by simp [clearGranule]
@[simp] theorem readGranule_pending {g source ecc} : (readGranule g source ecc s).2.pending = s.pending := by
  unfold readGranule
  split <;> simp

@[simp] theorem readGranules_pending {l src ecc} : (readGranules l src ecc s).2.pending = s.pending := by
  induction l generalizing ecc s with
  | nil => rfl
  | cons g r ih => simp [readGranules, ih]

@[simp] theorem cmRead_pending {off n ecc} : (cmRead off n ecc s).2.2.pending = s.pending := by simp [cmRead]

@[simp] theorem writeGranule_pending {g off bs ecc} : (writeGranule g off bs ecc s).pending = s.pending := by
  unfold writeGranule; dsimp only
  (repeat' split) <;> simp

@[simp] theorem writeGranules_pending {l off bs ecc} : (writeGranules l off bs ecc s).pending = s.pending := by
  induction l generalizing ecc s with
  | nil => rfl
  | cons g r ih => simp [writeGranules, ih]

@[simp] theorem breakRange_pending {off n} : (breakRange off n s).pending = s.pending := by simp [breakRange]
@[simp] theorem cmWrite_pending {off bs ecc} : (cmWrite off bs ecc s).pending = s.pending := by simp [cmWrite]
@[simp] theorem cmWritePoison_pending {off n} : (cmWritePoison off n s).pending = s.pending := by simp [cmWritePoison]

@[simp] theorem clearSome_pending {l n} : (clearSome l n s).pending = s.pending := by
  induction l generalizing n s with
  | nil => cases n <;> rfl
  | cons g r ih =>
    cases n with
    | zero => rfl
    | succ n => simp [clearSome, ih]

@[simp] theorem poolWrote_pending {k p n} : (poolWrote k p n s).pending = s.pending := by simp [poolWrote]

@[simp] theorem adminStart_pending {fn p} {f : Nat → SendOp → State → State}
    (h : ∀ a o s, (f a o s).pending = s.pending) : (adminStart fn p f s).pending = s.pending := by
  unfold adminStart; dsimp only
  (repeat' split) <;> simp [h]

@[simp] theorem onTarget_pending {fn aqn o onLost onEnd} {f : Nat → Queue → State → State}
    (h : ∀ n q s, (f n q s).pending = s.pending) : (onTarget fn aqn o onLost onEnd f s).pending = s.pending := by
  simp [onTarget, h]

@[simp] theorem placeStack_pending : (placeStack s).2.pending = s.pending := by simp [placeStack]
@[simp] theorem queueCreate_pending {fn} : (queueCreate fn s).pending = s.pending := by simp [queueCreate]
@[simp] theorem queueResize_pending {fn} : (queueResize fn s).pending = s.pending := by simp [queueResize]
@[simp] theorem queueHalt_pending {fn} : (queueHalt fn s).pending = s.pending := by simp [queueHalt]
@[simp] theorem queueDrain_pending {fn} : (queueDrain fn s).pending = s.pending := by simp [queueDrain]
@[simp] theorem drainEnd_pending {qn} : (drainEnd qn s).pending = s.pending := by
  unfold drainEnd
  dsimp only
  (repeat' split) <;> simp
@[simp] theorem resume_pending {qn skip} : (resume qn skip s).pending = s.pending := by simp [resume]
@[simp] theorem queueResume_pending {fn skip} : (queueResume fn skip s).pending = s.pending := by simp [queueResume]
@[simp] theorem queueQuery_pending {fn} : (queueQuery fn s).pending = s.pending := by simp [queueQuery]
@[simp] theorem queryWritten_pending {aqn n r} : (queryWritten aqn n r s).pending = s.pending := by
  simp [queryWritten]
@[simp] theorem queueModify_pending {fn} : (queueModify fn s).pending = s.pending := by simp [queueModify]

/-! ### Faults, routing and flow control -/

@[simp] theorem setVc_pending {p v f} : (setVc p v f s).pending = s.pending := by simp [setVc]
@[simp] theorem noteWait_pending {p v} : (noteWait p v s).pending = s.pending := by
  simp -implicitDefEqProofs [noteWait]
@[simp] theorem enqueue_pending {port flow from_ pk} : (enqueue port flow from_ pk s).pending = s.pending := by
  simp -implicitDefEqProofs [enqueue]
@[simp] theorem grantPools_pending {p} : (grantPools p s).pending = s.pending := by simp [grantPools]
@[simp] theorem zeroCredits_pending {p} : (zeroCredits p s).pending = s.pending := by simp [zeroCredits]
@[simp] theorem freeCells_pending {p v n} : (freeCells p v n s).pending = s.pending := by simp [freeCells]
@[simp] theorem poolChange_pending {p v old new} : (poolChange p v old new s).pending = s.pending := by
  simp [poolChange]
@[simp] theorem leaveIngress_pending {from_ pk} : (leaveIngress from_ pk s).pending = s.pending := by
  unfold leaveIngress
  split <;> simp
@[simp] theorem leaveQueued_pending {q} : (leaveQueued q s).pending = s.pending := by simp [leaveQueued]
@[simp] theorem injectPacket_pending {pk} : (injectPacket pk s).pending = s.pending := by simp [injectPacket]
@[simp] theorem deliver_pending {pk} : (deliver pk s).pending = s.pending := by simp -implicitDefEqProofs [deliver]
@[simp] theorem logWrite_pending {e} : (logWrite e s).pending = s.pending := by simp [logWrite]
@[simp] theorem closeBurst_pending {b} : (closeBurst b s).pending = s.pending := by simp [closeBurst]
@[simp] theorem openBurst_pending {e second} : (openBurst e second s).pending = s.pending := by simp [openBurst]
@[simp] theorem logEvent_pending {cls source code severity data} :
    (logEvent cls source code severity data s).pending = s.pending := by
  unfold logEvent
  dsimp only
  (repeat' split) <;> simp
@[simp] theorem leaveOne_pending {d isolated} : (leaveOne d isolated s).pending = s.pending := by
  unfold leaveOne
  split <;> simp -implicitDefEqProofs
@[simp] theorem leaveOn_pending {d isolated} : (leaveOn d isolated s).pending = s.pending := by simp [leaveOn]
@[simp] theorem startLast_pending {d} : (startLast d s).pending = s.pending := by simp [startLast]
@[simp] theorem evalFaultN_pending : (evalFaultN s).pending = s.pending := by simp [evalFaultN]
@[simp] theorem enterSafe_pending {src} : (enterSafe src s).pending = s.pending := by simp [enterSafe]
@[simp] theorem notice_pending {k src inst sev data} : (notice k src inst sev data s).pending = s.pending := by
  simp [notice]

@[simp] theorem takeRaise_pending {src inst data} : (takeRaise src inst data s).pending = s.pending := by
  unfold takeRaise
  cases isolates src inst <;> simp -implicitDefEqProofs

@[simp] theorem unitRaise_pending {src inst data} : (unitRaise src inst data s).pending = s.pending := by
  simp [unitRaise]
@[simp] theorem faultRaise_pending {src inst data} : (faultRaise src inst data s).pending = s.pending := by
  simp -implicitDefEqProofs [faultRaise]
@[simp] theorem reraise_pending {src} : (reraise src s).pending = s.pending := by simp [reraise]
@[simp] theorem clearSource_pending {src} : (clearSource src s).pending = s.pending := by simp [clearSource]
@[simp] theorem clearAll_pending : (clearAll s).pending = s.pending := by simp [clearAll]
@[simp] theorem unfreeze_pending : (unfreeze s).pending = s.pending := by simp [unfreeze]
@[simp] theorem emptyHistory_pending : (emptyHistory s).pending = s.pending := by simp [emptyHistory]
@[simp] theorem clearCommand_pending {v} : (clearCommand v s).pending = s.pending := by simp [clearCommand]
@[simp] theorem shed_pending {code vin} : (shed code vin s).pending = s.pending := by simp [shed]
@[simp] theorem sendLinkCtl_pending {p kind arg} : (sendLinkCtl p kind arg s).pending = s.pending := by
  simp [sendLinkCtl]
@[simp] theorem sendHealth_pending {p} : (sendHealth p s).pending = s.pending := by simp [sendHealth]

@[simp] theorem healthAll_pending : (healthAll s).pending = s.pending := by
  refine forRange_pending fun p s => ?_
  split <;> simp

@[simp] theorem setPortState_pending {p st} : (setPortState p st s).pending = s.pending := by simp [setPortState]
@[simp] theorem clearMasks_pending {p} : (clearMasks p s).pending = s.pending := by simp [clearMasks]
@[simp] theorem vaneUpdate_pending : (vaneUpdate s).pending = s.pending := by simp [vaneUpdate]
@[simp] theorem unroutable_pending {inject pk} : (unroutable inject pk s).pending = s.pending := by simp [unroutable]
@[simp] theorem routePacket_pending {from_ pk} : (routePacket from_ pk s).pending = s.pending := by
  unfold routePacket
  dsimp only
  (repeat' split) <;> simp
@[simp] theorem portTrained_pending {p node} : (portTrained p node s).pending = s.pending := by simp [portTrained]
@[simp] theorem portDown_pending {p} : (portDown p s).pending = s.pending := by unfold portDown; split <;> simp
@[simp] theorem portBack_pending {p} : (portBack p s).pending = s.pending := by unfold portBack; split <;> simp
@[simp] theorem portFlushed_pending {p} : (portFlushed p s).pending = s.pending := by
  unfold portFlushed
  split <;> simp -implicitDefEqProofs
@[simp] theorem portDepart_pending {p} : (portDepart p s).pending = s.pending := by unfold portDepart; split <;> simp
@[simp] theorem portDepartDone_pending {p} : (portDepartDone p s).pending = s.pending := by
  unfold portDepartDone
  split <;> simp
@[simp] theorem healthArrive_pending {p arg} : (healthArrive p arg s).pending = s.pending := by simp [healthArrive]
@[simp] theorem accruePort_pending {p} : (accruePort p s).pending = s.pending := by simp [accruePort]
@[simp] theorem refreshGates_pending {p} : (refreshGates p s).pending = s.pending := by simp [refreshGates]
@[simp] theorem newGates_pending {p entries base} : (newGates p entries base s).pending = s.pending := by
  simp [newGates]
@[simp] theorem gatesRestart_pending : (gatesRestart s).pending = s.pending := by simp [gatesRestart]
@[simp] theorem gatesStep_pending {a b} : (gatesStep a b s).pending = s.pending := by
  simp -implicitDefEqProofs [gatesStep]

@[simp] theorem countHeld_pending {p} : (countHeld p s).pending = s.pending := by
  refine foldSt_pending fun q s => ?_
  (repeat' split) <;> simp

@[simp] theorem assignTags_pending {p} : (assignTags p s).pending = s.pending := by simp [assignTags]
@[simp] theorem settleTags_pending {p} : (settleTags p s).pending = s.pending := by simp [settleTags]
@[simp] theorem chargeStart_pending {p q} : (chargeStart p q s).pending = s.pending := by simp [chargeStart]
@[simp] theorem shapersChanged_pending {p old} : (shapersChanged p old s).pending = s.pending := by
  simp [shapersChanged]
@[simp] theorem police_pending {tenant len pre again} : (police tenant len pre again s).2.pending = s.pending := by
  simp [police]
@[simp] theorem policersChanged_pending {old} : (policersChanged old s).pending = s.pending := by
  simp [policersChanged]
@[simp] theorem sampleOne_pending {stamp late p v} : (sampleOne stamp late p v s).pending = s.pending := by
  simp [sampleOne]
@[simp] theorem sample_pending {stamp late} : (sample stamp late s).pending = s.pending := by simp [sample]
@[simp] theorem sampleDue_pending {skip} : (sampleDue skip s).pending = s.pending := by simp [sampleDue]
@[simp] theorem sampleFrom_pending : (sampleFrom s).pending = s.pending := by simp [sampleFrom]
@[simp] theorem sampleStep_pending {a b} : (sampleStep a b s).pending = s.pending := by simp [sampleStep]
@[simp] theorem evalMarker_pending {p payload} : (evalMarker p payload s).2.pending = s.pending := by
  unfold evalMarker
  dsimp only
  (repeat' split) <;> simp
@[simp] theorem applyReply_pending {p payload} : (applyReply p payload s).pending = s.pending := by simp [applyReply]
@[simp] theorem setMsg_pending {f rsn g} : (setMsg f rsn g s).pending = s.pending := by simp [setMsg]
@[simp] theorem openSrc_pending {k} : (openSrc k s).2.pending = s.pending := by
  unfold openSrc
  dsimp only
  (repeat' split) <;> simp
@[simp] theorem putFailed_pending {qn entry dest status reason} :
    (putFailed qn entry dest status reason s).pending = s.pending := by
  simp [putFailed]
@[simp] theorem connError_pending {c status} : (connError c status s).pending = s.pending := by simp [connError]
@[simp] theorem dropMsg_pending {f rsn} : (dropMsg f rsn s).pending = s.pending := by simp [dropMsg]
@[simp] theorem gather_pending {f m} : (gather f m s).pending = s.pending := by simp [gather]
@[simp] theorem inject_pending {f k m colour} : (inject f k m colour s).pending = s.pending := by
  simp -implicitDefEqProofs [inject]
@[simp] theorem tryInject_pending {f rsn} : (tryInject f rsn s).pending = s.pending := by
  unfold tryInject
  dsimp only
  (repeat' split) <;> simp
@[simp] theorem goOn_pending {f rsn} : (goOn f rsn s).pending = s.pending := by unfold goOn; split <;> simp

@[simp] theorem kickFlow_pending {f} : (kickFlow f s).pending = s.pending := by
  unfold kickFlow
  split
  · rfl
  · refine foldSt_pending fun m s => ?_
    (repeat' split) <;> simp

@[simp] theorem startIn_pending {k m} : (startIn k m s).pending = s.pending := by
  unfold startIn
  dsimp only
  split
  · exact openSrc_pending
  · cases m.owner <;> simp only [goOn_pending, setSrc_pending, ite_pending, openSrc_pending, ite_self]

@[simp] theorem startMsg_pending {k m} : (startMsg k m s).pending = s.pending := by simp [startMsg]
@[simp] theorem kickWaiting_pending : (kickWaiting s).pending = s.pending := by simp [kickWaiting]
@[simp] theorem sendSkip_pending {k m} : (sendSkip k m s).pending = s.pending := by simp [sendSkip]
@[simp] theorem lateFailure_pending {k m qn entry status reason} :
    (lateFailure k m qn entry status reason s).pending = s.pending := by
  simp [lateFailure]
@[simp] theorem failMsg_pending {f rsn status reason} : (failMsg f rsn status reason s).pending = s.pending := by
  unfold failMsg
  dsimp only
  (repeat' split) <;> simp -implicitDefEqProofs
@[simp] theorem resendMsg_pending {f rsn} : (resendMsg f rsn s).pending = s.pending := by
  unfold resendMsg
  split <;> simp
@[simp] theorem retransmit_pending {f rsn} : (retransmit f rsn s).pending = s.pending := by
  unfold retransmit
  split <;> simp
@[simp] theorem msgReadDone_pending {f rsn r} : (msgReadDone f rsn r s).pending = s.pending := by
  unfold msgReadDone
  dsimp only
  (repeat' split) <;> simp
@[simp] theorem windowUpdate_pending {f delay count squall sentAt} :
    (windowUpdate f delay count squall sentAt s).pending = s.pending := by
  unfold windowUpdate
  split <;> simp -implicitDefEqProofs
@[simp] theorem flushReported_pending {f x qn start} : (flushReported f x qn start s).pending = s.pending := by
  simp [flushReported]
@[simp] theorem endMsg_pending {f rsn status length} : (endMsg f rsn status length s).pending = s.pending := by
  unfold endMsg
  dsimp only
  (repeat' split) <;> simp -implicitDefEqProofs
@[simp] theorem msgLeft_pending {f pk} : (msgLeft f pk s).pending = s.pending := by
  unfold msgLeft
  dsimp only
  (repeat' split) <;> simp

@[simp] theorem packetLeft_pending {pk} : (packetLeft pk s).pending = s.pending := by
  unfold packetLeft
  (repeat' split) <;> simp

@[simp] theorem packetUnroutable_pending {pk} : (packetUnroutable pk s).pending = s.pending := by
  unfold packetUnroutable
  (repeat' split) <;> simp

@[simp] theorem packetLost_pending {pk} : (packetLost pk s).pending = s.pending := by
  unfold packetLost
  dsimp only
  (repeat' split) <;> simp
@[simp] theorem lossInterval_pending {f rsn skips} : (lossInterval f rsn skips s).pending = s.pending := by
  unfold lossInterval
  split <;> simp

@[simp] theorem retryInterval_pending {codes f rsn} : (retryInterval codes f rsn s).pending = s.pending := by
  unfold retryInterval
  (repeat' split) <;> simp

@[simp] theorem reevaluate_pending {f rsn} : (reevaluate f rsn s).pending = s.pending := by
  unfold reevaluate
  split <;> simp
@[simp] theorem refusedRetry_pending {f rsn code interval} :
    (refusedRetry f rsn code interval s).pending = s.pending := by
  unfold refusedRetry
  split <;> simp
@[simp] theorem baseReset_pending {node} : (baseReset node s).pending = s.pending := by
  unfold baseReset
  split <;> simp
@[simp] theorem sinkNext_pending {f rsn} : (sinkNext f rsn s).pending = s.pending := by
  unfold sinkNext
  dsimp only
  (repeat' split) <;> simp
@[simp] theorem sinkDone_pending {f rsn r} : (sinkDone f rsn r s).pending = s.pending := by
  unfold sinkDone
  dsimp only
  (repeat' split) <;> simp
@[simp] theorem respData_pending {f rsn off data poison} :
    (respData f rsn off data poison s).pending = s.pending := by
  unfold respData
  dsimp only
  (repeat' split) <;> simp

/-! ### Remote accesses, engines and locks -/

@[simp] theorem look_pending {o cl off n dep l} : (look o cl off n dep l s).2.pending = s.pending := by
  induction l generalizing s with
  | nil => rfl
  | cons f r ih => simp [look, ih]

@[simp] theorem observe_pending {o cl off n dep} : (observe o cl off n dep s).2.pending = s.pending := by
  simp [observe]
@[simp] theorem launchStore_pending {o cl off old} : (launchStore o cl off old s).pending = s.pending := by
  simp [launchStore]
@[simp] theorem perform_pending {p} : (perform p s).pending = s.pending := by simp [perform]
@[simp] theorem performRange_pending {cl off n} : (performRange cl off n s).pending = s.pending := by
  simp [performRange]
@[simp] theorem seeRange_pending {o cl off n} : (seeRange o cl off n s).pending = s.pending := by simp [seeRange]
@[simp] theorem fenceCluster_pending {e c} : (fenceCluster e c s).pending = s.pending := by simp [fenceCluster]
@[simp] theorem fenceArrays_pending {e c} : (fenceArrays e c s).pending = s.pending := by simp [fenceArrays]
@[simp] theorem setPc_pending {e c v} : (setPc e c v s).pending = s.pending := by simp [setPc]

@[simp] theorem cmemWrite_pending {k off bs} : (cmemWrite k off bs s).pending = s.pending := by simp [cmemWrite]

@[simp] theorem cmemStore_pending {e c k off bs} : (cmemStore e c k off bs s).pending = s.pending := by
  simp [cmemStore]
@[simp] theorem contextStore_pending {e c off bs ecc} : (contextStore e c off bs ecc s).pending = s.pending := by
  simp [contextStore]

@[simp] theorem ldmWrite_pending {e off bs} : (ldmWrite e off bs s).pending = s.pending := by simp [ldmWrite]

@[simp] theorem samplePeriod_pending {e} : (samplePeriod e s).pending = s.pending := by simp [samplePeriod]
@[simp] theorem sampleIssue_pending {e c word kind} : (sampleIssue e c word kind s).pending = s.pending := by
  simp [sampleIssue]
@[simp] theorem sampleAccess_pending {e c p addr} : (sampleAccess e c p addr s).pending = s.pending := by
  simp [sampleAccess]
@[simp] theorem sampleWrite_pending {e c t} : (sampleWrite e c t s).pending = s.pending := by simp [sampleWrite]
@[simp] theorem retire_pending {e c} : (retire e c s).pending = s.pending := by
  unfold retire
  dsimp only
  (repeat' split) <;> simp
@[simp] theorem nextPc_pending {e c} : (nextPc e c s).pending = s.pending := by simp [nextPc]
@[simp] theorem finish_pending {e c rd v} : (finish e c rd v s).pending = s.pending := by simp [finish]
@[simp] theorem endItem_pending {e c comp} : (endItem e c comp s).pending = s.pending := by
  unfold endItem
  dsimp only
  (repeat' split) <;> simp -implicitDefEqProofs
@[simp] theorem endItems_pending {e} : (endItems e s).pending = s.pending := by simp [endItems]
@[simp] theorem orphanEngine_pending {e} : (orphanEngine e s).pending = s.pending := by simp [orphanEngine]
@[simp] theorem haltEngine_pending {e cause} : (haltEngine e cause s).pending = s.pending := by simp [haltEngine]
@[simp] theorem takeTrap_pending {e c cause faultaddr resume} :
    (takeTrap e c cause faultaddr resume s).pending = s.pending := by
  simp [takeTrap]
@[simp] theorem trapHere_pending {e c cause faultaddr} : (trapHere e c cause faultaddr s).pending = s.pending := by
  simp [trapHere]
@[simp] theorem switchTo_pending {e c} : (switchTo e c s).pending = s.pending := by simp [switchTo]
@[simp] theorem takeInterrupt_pending {e c} : (takeInterrupt e c s).pending = s.pending := by simp [takeInterrupt]
@[simp] theorem block_pending {e c wt} : (block e c wt s).pending = s.pending := by simp [block]
@[simp] theorem aluDone_pending {e c rd dep o} : (aluDone e c rd dep o s).pending = s.pending := by simp [aluDone]
@[simp] theorem setEvent_pending {e c i} : (setEvent e c i s).pending = s.pending := by
  unfold setEvent
  dsimp only
  (repeat' split) <;> simp
@[simp] theorem loadDone_pending {e c rd size signed pair bs} :
    (loadDone e c rd size signed pair bs s).pending = s.pending := by
  simp [loadDone]
@[simp] theorem hostAccess_pending {e c addr n data probe} :
    (hostAccess e c addr n data probe s).pending = s.pending := by
  simp [hostAccess]
@[simp] theorem remoteAccess_pending {e c w ea addr n store data} :
    (remoteAccess e c w ea addr n store data s).pending = s.pending := by
  simp [remoteAccess]

@[simp] theorem sramRead_pending {w ecc cluster addr bs} {done : List Byte → State → State}
    (h : ∀ x s, (done x s).pending = s.pending) : (sramRead w ecc cluster addr bs done s).pending = s.pending := by
  cases ecc <;> simp [sramRead, h]

@[simp] theorem localLoad_pending {w ecc dep addr n} {done : List Byte → State → State}
    (h : ∀ x s, (done x s).pending = s.pending) : (localLoad w ecc dep addr n done s).pending = s.pending := by
  unfold localLoad; dsimp only
  split <;> simp [h]

@[simp] theorem loadParts_pending {w dep l} {done : List Byte → State → State}
    (h : ∀ x s, (done x s).pending = s.pending) : (loadParts w dep l done s).pending = s.pending := by
  unfold loadParts
  split <;> simp [h]

@[simp] theorem remoteStore_pending {e c k ea a bs rest} :
    (remoteStore e c k ea a bs rest s).pending = s.pending := by
  simp [remoteStore]
@[simp] theorem arrayStore_pending {e c addr bs ecc} : (arrayStore e c addr bs ecc s).pending = s.pending := by
  unfold arrayStore
  split <;> simp
@[simp] theorem storeParts_pending {w l bs} : (storeParts w l bs s).pending = s.pending := by
  unfold storeParts
  split <;> simp
@[simp] theorem noteWrote_pending {e c addr} : (noteWrote e c addr s).pending = s.pending := by simp [noteWrote]
@[simp] theorem unblock_pending {e c} : (unblock e c s).pending = s.pending := by simp [unblock]

@[simp] theorem storeLeft_pending {e c id} : (storeLeft e c id s).pending = s.pending := by
  unfold storeLeft
  (repeat' split) <;> simp

@[simp] theorem pairProbed_pending {e c addr bs half} : (pairProbed e c addr bs half s).pending = s.pending := by
  unfold pairProbed
  dsimp only
  (repeat' split) <;> simp
@[simp] theorem engineResult_pending {e c r} : (engineResult e c r s).pending = s.pending := by
  unfold engineResult
  dsimp only
  (repeat' split) <;> simp
@[simp] theorem fenceLeft_pending {e c no left} : (fenceLeft e c no left s).pending = s.pending := by simp [fenceLeft]
@[simp] theorem fenceCheck_pending {e c} : (fenceCheck e c s).pending = s.pending := by
  unfold fenceCheck
  dsimp only
  (repeat' split) <;> simp

@[simp] theorem fenceAck_pending {e c no ok addr ack} : (fenceAck e c no ok addr ack s).pending = s.pending := by
  unfold fenceAck; dsimp only
  (repeat' split) <;> simp

@[simp] theorem fenceRead_pending {e c no link addr r} : (fenceRead e c no link addr r s).pending = s.pending := by
  simp [fenceRead]

@[simp] theorem fenceFlushed_pending {e c no addr dest tenant ok} :
    (fenceFlushed e c no addr dest tenant ok s).pending = s.pending := by
  unfold fenceFlushed; dsimp only
  (repeat' split) <;> simp

@[simp] theorem remoteDone_pending {e c store r addr} : (remoteDone e c store r addr s).pending = s.pending := by
  unfold remoteDone
  dsimp only
  (repeat' split) <;> simp -implicitDefEqProofs
@[simp] theorem lockEvent_pending {eqn code token l detail data} :
    (lockEvent eqn code token l detail data s).pending = s.pending := by
  simp [lockEvent]
@[simp] theorem signalInherit_pending {l h eff} : (signalInherit l h eff s).pending = s.pending := by
  unfold signalInherit
  split <;> simp

@[simp] theorem recomputeHeld_pending {p l} : (recomputeHeld p l s).pending = s.pending := by
  unfold recomputeHeld
  dsimp only
  refine (foldSt_pending fun l t => ?_).trans (foldSt_pending fun l t => setLock_pending ..)
  split <;> simp

@[simp] theorem propagate_pending {n p l} : (propagate n p l s).pending = s.pending := by
  induction n generalizing p l s with
  | zero => rfl
  | succ n ih =>
    rw [propagate]
    dsimp only
    (repeat' split) <;> simp [ih]

@[simp] theorem reprioritise_pending {l} : (reprioritise l s).pending = s.pending := by
  unfold reprioritise
  split <;> simp
@[simp] theorem deliverGrant_pending {l w orphan} : (deliverGrant l w orphan s).pending = s.pending := by
  unfold deliverGrant
  dsimp only
  (repeat' split) <;> simp
@[simp] theorem dropGrant_pending {l} : (dropGrant l s).pending = s.pending := by unfold dropGrant; split <;> simp
@[simp] theorem handoff_pending {l orphan} : (handoff l orphan s).pending = s.pending := by
  unfold handoff
  dsimp only
  (repeat' split) <;> simp -implicitDefEqProofs
@[simp] theorem giveUp_pending {l p orphan} : (giveUp l p orphan s).pending = s.pending := by simp [giveUp]
@[simp] theorem takeLock_pending {l p own eqn} : (takeLock l p own eqn s).pending = s.pending := by simp [takeLock]
@[simp] theorem enqueueWaiter_pending {l p own eqn} : (enqueueWaiter l p own eqn s).pending = s.pending := by
  simp [enqueueWaiter]
@[simp] theorem removeWaiter_pending {l p} : (removeWaiter l p s).pending = s.pending := by simp [removeWaiter]
@[simp] theorem orphanParties_pending {ps} : (orphanParties ps s).pending = s.pending := by simp [orphanParties]
@[simp] theorem orphanFn_pending {fn} : (orphanFn fn s).pending = s.pending := by simp [orphanFn]

/-! ### Matching -/

@[simp] theorem setRMsg_pending {f rsn g} : (setRMsg f rsn g s).pending = s.pending := by simp [setRMsg]
@[simp] theorem sendRefusal_pending {p code interval} : (sendRefusal p code interval s).2.pending = s.pending := by
  simp [sendRefusal]
@[simp] theorem setFlush_pending {f rsn g} : (setFlush f rsn g s).pending = s.pending := by simp [setFlush]
@[simp] theorem flushReads_pending {f h} : (flushReads f h s).pending = s.pending := by
  simp -implicitDefEqProofs [flushReads]
@[simp] theorem finishRsn_pending {f d} : (finishRsn f d s).pending = s.pending := by
  unfold finishRsn
  dsimp only
  (repeat' split) <;> simp
@[simp] theorem ackMsg_pending {f rsn count code} : (ackMsg f rsn count code s).pending = s.pending := by
  unfold ackMsg
  split <;> simp
@[simp] theorem refuseMsg_pending {f rsn code interval} : (refuseMsg f rsn code interval s).pending = s.pending := by
  unfold refuseMsg
  split <;> simp -implicitDefEqProofs
@[simp] theorem addRMsg_pending {f dup p} : (addRMsg f dup p s).pending = s.pending := by simp [addRMsg]
@[simp] theorem frontIn_pending {f x p} : (frontIn f x p s).2.pending = s.pending := by
  unfold frontIn
  dsimp only
  (repeat' split) <;> simp -implicitDefEqProofs
@[simp] theorem front_pending {p} : (front p s).2.pending = s.pending := by
  unfold front
  dsimp only
  (repeat' split) <;> simp
@[simp] theorem flowExpiry_pending {f} : (flowExpiry f s).pending = s.pending := by unfold flowExpiry; split <;> simp

@[simp] theorem flushArrive_pending {f p} : (flushArrive f p s).pending = s.pending := by
  unfold flushArrive
  cases tgtFlow s f <;> simp only [ackMsg_pending, flushReads_pending, setTgt_pending, ite_pending, ite_self]

@[simp] theorem flushRead_pending {f rsn r} : (flushRead f rsn r s).pending = s.pending := by
  unfold flushRead
  (repeat' split) <;> simp

@[simp] theorem listWrote_pending {d} : (listWrote d s).pending = s.pending := by simp [listWrote]
@[simp] theorem dataWrote_pending {d n} : (dataWrote d n s).pending = s.pending := by simp [dataWrote]
@[simp] theorem domEvent_pending {d code detail data} : (domEvent d code detail data s).pending = s.pending := by
  simp [domEvent]
@[simp] theorem domOpen_pending {v} : (domOpen v s).pending = s.pending := by simp [domOpen]
@[simp] theorem dropGet_pending {pid} : (dropGet pid s).pending = s.pending := by
  unfold dropGet
  dsimp only
  (repeat' split) <;> simp
@[simp] theorem placingEnd_pending {pid} : (placingEnd pid s).pending = s.pending := by
  unfold placingEnd
  split <;> simp
@[simp] theorem placingInfo_pending {pid x} : (placingInfo pid x s).pending = s.pending := by simp [placingInfo]
@[simp] theorem noteLink_pending {f rsn link} : (noteLink f rsn link s).pending = s.pending := by simp [noteLink]

@[simp] theorem placingNext_pending {pid n} : (placingNext pid n s).pending = s.pending := by
  induction n generalizing s with
  | zero => rfl
  | succ n ih =>
    rw [placingNext]
    dsimp only
    (repeat' split) <;> simp [ih]

@[simp] theorem placingGo_pending {pid} : (placingGo pid s).pending = s.pending := by unfold placingGo; split <;> simp
@[simp] theorem placingDone_pending {pid info r} : (placingDone pid info r s).pending = s.pending := by
  unfold placingDone
  dsimp only
  (repeat' split) <;> simp
@[simp] theorem placingData_pending {pid c} : (placingData pid c s).pending = s.pending := by simp [placingData]
@[simp] theorem fetchFailed_pending {pid} : (fetchFailed pid s).pending = s.pending := by simp [fetchFailed]
@[simp] theorem bind_pending {d r u unexpected stored} : (bind d r u unexpected stored s).pending = s.pending := by
  simp [bind]
@[simp] theorem ackStored_pending {d u} : (ackStored d u s).pending = s.pending := by simp [ackStored]
@[simp] theorem refuseU_pending {u code} : (refuseU u code s).pending = s.pending := by simp [refuseU]
@[simp] theorem arrive_pending {d u held} : (arrive d u held s).pending = s.pending := by
  unfold arrive
  split <;> simp -implicitDefEqProofs
@[simp] theorem atTurn_pending {d u held} : (atTurn d u held s).pending = s.pending := by simp [atTurn]

@[simp] theorem releaseSeq_pending {d p n} : (releaseSeq d p n s).pending = s.pending := by
  induction n generalizing s with
  | zero => rfl
  | succ n ih =>
    rw [releaseSeq]
    dsimp only
    (repeat' split) <;> simp [ih]

@[simp] theorem muRetry_pending {u} : (muRetry u s).pending = s.pending := by simp [muRetry]
@[simp] theorem ordered_pending {kind f p} : (ordered kind f p s).pending = s.pending := by simp [ordered]
@[simp] theorem laterPacket_pending {f p} : (laterPacket f p s).pending = s.pending := by
  unfold laterPacket
  dsimp only
  (repeat' split) <;> simp
@[simp] theorem recvGone_pending {r status} : (recvGone r status s).pending = s.pending := by simp [recvGone]
@[simp] theorem post_pending {d r} : (post d r s).pending = s.pending := by
  unfold post
  dsimp only
  (repeat' split) <;> simp
@[simp] theorem cancel_pending {qn o} : (cancel qn o s).pending = s.pending := by unfold cancel; split <;> simp

@[simp] theorem takeRecvOp_pending {qn p} {f : SendOp → State → State} (h : ∀ o s, (f o s).pending = s.pending) :
    (takeRecvOp qn p f s).pending = s.pending := by
  unfold takeRecvOp; dsimp only
  (repeat' split) <;> simp [h]

@[simp] theorem recvPost_pending {qn} : (recvPost qn s).pending = s.pending := by simp [recvPost]
@[simp] theorem recvCancel_pending {qn} : (recvCancel qn s).pending = s.pending := by simp [recvCancel]
@[simp] theorem domClose_pending {d lost} : (domClose d lost s).pending = s.pending := by simp [domClose]
@[simp] theorem domCommand_pending {v} : (domCommand v s).pending = s.pending := by simp [domCommand]
@[simp] theorem domCloseComplete_pending {d} : (domCloseComplete d s).pending = s.pending := by
  simp [domCloseComplete]
@[simp] theorem tsend_pending {qn} : (tsend qn s).pending = s.pending := by unfold tsend; split <;> simp
@[simp] theorem rgetNext_pending {p off buf poison} : (rgetNext p off buf poison s).pending = s.pending := by
  unfold rgetNext
  dsimp only
  (repeat' split) <;> simp
@[simp] theorem rgetRead_pending {p off buf poison r} : (rgetRead p off buf poison r s).pending = s.pending := by
  unfold rgetRead
  dsimp only
  (repeat' split) <;> simp
@[simp] theorem rgetArrive_pending {f p} : (rgetArrive f p s).pending = s.pending := by simp [rgetArrive]

/-! ### Requests at their target -/

@[simp] theorem startPlain_pending {qn p mk} : (startPlain qn p mk s).pending = s.pending := by
  unfold startPlain
  split <;> simp
@[simp] theorem startPut_pending {a0} : (startPut a0 s).pending = s.pending := by simp [startPut]
@[simp] theorem startPutImm_pending {a0} : (startPutImm a0 s).pending = s.pending := by simp [startPutImm]
@[simp] theorem startGet_pending {a0} : (startGet a0 s).pending = s.pending := by simp [startGet]
@[simp] theorem startFadd_pending {a0} : (startFadd a0 s).pending = s.pending := by simp [startFadd]
@[simp] theorem startSwap_pending {a0} : (startSwap a0 s).pending = s.pending := by simp [startSwap]
@[simp] theorem startCas64_pending {a0} : (startCas64 a0 s).pending = s.pending := by simp [startCas64]
@[simp] theorem startCas128_pending {a0} : (startCas128 a0 s).pending = s.pending := by simp [startCas128]
@[simp] theorem startFlush_pending {a0} : (startFlush a0 s).pending = s.pending := by simp [startFlush]
@[simp] theorem startConn_pending {qn p mk} : (startConn qn p mk s).pending = s.pending := by
  unfold startConn
  dsimp only
  (repeat' split) <;> simp
@[simp] theorem startCsend_pending {a0} : (startCsend a0 s).pending = s.pending := by simp [startCsend]
@[simp] theorem startCput_pending {a0} : (startCput a0 s).pending = s.pending := by simp [startCput]
@[simp] theorem startCget_pending {a0} : (startCget a0 s).pending = s.pending := by simp [startCget]
@[simp] theorem engineRemote_pending {e c tenant store ea dest key addr data size} :
    (engineRemote e c tenant store ea dest key addr data size s).pending = s.pending := by
  simp [engineRemote]
@[simp] theorem engineFlush_pending {owner dest tenant} : (engineFlush owner dest tenant s).pending = s.pending := by
  simp [engineFlush]
@[simp] theorem takeBuffer_pending {qn} : (takeBuffer qn s).2.pending = s.pending := by
  unfold takeBuffer
  split <;> simp
@[simp] theorem bufferDone_pending {b op c ack} : (bufferDone b op c ack s).pending = s.pending := by
  simp [bufferDone]

@[simp] theorem placedAll_pending {f m} : (placedAll f m s).pending = s.pending := by
  unfold placedAll
  dsimp only
  split
  · simp
  split
  · simp
  · split
    · case _ t ht => exact (refuseMsg_pending).trans (pending_of_pair ht takeBuffer_pending)
    · case _ b t ht => exact (bufferDone_pending).trans (pending_of_pair ht takeBuffer_pending)

@[simp] theorem placedMore_pending {f m n} : (placedMore f m n s).pending = s.pending := by
  unfold placedMore
  dsimp only
  (repeat' split) <;> simp
@[simp] theorem placeNext_pending {f p pos} : (placeNext f p pos s).pending = s.pending := by simp [placeNext]
@[simp] theorem placeDone_pending {p pos r} : (placeDone p pos r s).pending = s.pending := by
  unfold placeDone
  dsimp only
  (repeat' split) <;> simp
@[simp] theorem getNext_pending {p off buf poison} : (getNext p off buf poison s).pending = s.pending := by
  simp [getNext]
@[simp] theorem getRead_pending {p off buf poison r} : (getRead p off buf poison r s).pending = s.pending := by
  unfold getRead
  dsimp only
  (repeat' split) <;> simp
@[simp] theorem atomicDone_pending {p r} : (atomicDone p r s).pending = s.pending := by
  unfold atomicDone
  dsimp only
  (repeat' split) <;> simp
@[simp] theorem atomicGo_pending {f p} : (atomicGo f p s).pending = s.pending := by simp [atomicGo]

@[simp] theorem sendNext_pending {f rsn n} : (sendNext f rsn n s).pending = s.pending := by
  induction n generalizing s with
  | zero => rfl
  | succ n ih =>
    rw [sendNext]
    dsimp only
    (repeat' split) <;> simp [ih]

@[simp] theorem sendGo_pending {f rsn} : (sendGo f rsn s).pending = s.pending := by unfold sendGo; split <;> simp

@[simp] theorem sendPlaced_pending {f rsn r} : (sendPlaced f rsn r s).pending = s.pending := by
  unfold sendPlaced
  (repeat' split) <;> simp

@[simp] theorem flowGo_pending {f} : (flowGo f s).pending = s.pending := by
  unfold flowGo
  split
  · rfl
  · refine foldSt_pending fun m s => ?_
    (repeat' split) <;> try simp
    all_goals exact pending_of_pair ‹takeBuffer _ _ = _› takeBuffer_pending

@[simp] theorem takeRequest_pending {f first p} : (takeRequest f first p s).pending = s.pending := by
  unfold takeRequest
  dsimp only
  simp -implicitDefEqProofs
  (repeat' split) <;> simp -implicitDefEqProofs

@[simp] theorem orderGo_pending : (orderGo s).pending = s.pending := by
  refine foldSt_pending fun h s => ?_
  dsimp only
  (repeat' split) <;> simp

@[simp] theorem requestArrive_pending {p} : (requestArrive p s).pending = s.pending := by
  unfold requestArrive
  split
  · case _ t ht => exact pending_of_pair ht front_pending
  · case _ f first t ht =>
    have hp := pending_of_pair ht front_pending
    split <;> simp [hp]

@[simp] theorem answerArrive_pending {p ok} {f : Nat → State → State} (h : ∀ g s, (f g s).pending = s.pending) :
    (answerArrive p ok f s).pending = s.pending := by
  unfold answerArrive
  split <;> simp -implicitDefEqProofs [h]

@[simp] theorem ackArrive_pending {p} : (ackArrive p s).pending = s.pending := by
  refine answerArrive_pending fun f s => ?_
  dsimp only
  split <;> simp

@[simp] theorem refusalArrive_pending {p} : (refusalArrive p s).pending = s.pending := by simp [refusalArrive]
@[simp] theorem getDataArrive_pending {p} : (getDataArrive p s).pending = s.pending := by simp [getDataArrive]
@[simp] theorem atomicRespArrive_pending {p} : (atomicRespArrive p s).pending = s.pending := by
  simp [atomicRespArrive]
@[simp] theorem stallExpiry_pending {k} : (stallExpiry k s).pending = s.pending := by
  unfold stallExpiry
  dsimp only
  (repeat' split) <;> simp

@[simp] theorem refuseStalled_pending {k} : (refuseStalled k s).2.pending = s.pending := by
  unfold refuseStalled
  dsimp only
  refine (foldSt_pending fun a s => ?_).trans dropWaiters_pending
  (repeat' split) <;> simp

@[simp] theorem registerRegion_pending {fn} : (registerRegion fn s).pending = s.pending := by simp [registerRegion]
@[simp] theorem drainRegion_pending {k by_} : (drainRegion k by_ s).pending = s.pending := by simp [drainRegion]
@[simp] theorem deregister_pending {fn} : (deregister fn s).pending = s.pending := by simp [deregister]
@[simp] theorem regionDrained_pending {k} : (regionDrained k s).pending = s.pending := by
  unfold regionDrained
  dsimp only
  (repeat' split) <;> simp
@[simp] theorem openConn_pending {fn} : (openConn fn s).pending = s.pending := by simp [openConn]
@[simp] theorem freeConn_pending {c} : (freeConn c s).pending = s.pending := by simp [freeConn]
@[simp] theorem closeConn_pending {fn} : (closeConn fn s).pending = s.pending := by simp [closeConn]
@[simp] theorem connClosed_pending {c} : (connClosed c s).pending = s.pending := by
  unfold connClosed
  dsimp only
  (repeat' split) <;> simp
@[simp] theorem abandonAt_pending {f rsn} : (abandonAt f rsn s).pending = s.pending := by
  unfold abandonAt
  split <;> simp
@[simp] theorem abandonMsg_pending {qn entry} : (abandonMsg qn entry s).pending = s.pending := by
  unfold abandonMsg
  split <;> simp
@[simp] theorem closeConnForce_pending {fn} : (closeConnForce fn s).pending = s.pending := by
  refine adminStart_pending (fun a o s => ?_)
  dsimp only
  (repeat' split) <;> simp -implicitDefEqProofs
@[simp] theorem peersUnreachable_pending {nodes} : (peersUnreachable nodes s).pending = s.pending := by
  simp [peersUnreachable]

theorem armShot_pending {o i t} (h : armShot o i s = .armed t) : t.pending = s.pending := by
  unfold armShot at h
  (repeat' split at h) <;> cases h
  rfl

@[simp] theorem releaseShot_pending {owner} : (releaseShot owner s).pending = s.pending := by simp [releaseShot]
@[simp] theorem fireShot_pending {owner} : (fireShot owner s).2.pending = s.pending := by
  unfold fireShot
  split <;> simp -implicitDefEqProofs

/-! ### Optics and the link layer -/

@[simp] theorem setStep_pending {g n f} : (setStep g n f s).pending = s.pending := by simp [setStep]
@[simp] theorem dropStep_pending {g n} : (dropStep g n s).pending = s.pending := by simp [dropStep]
@[simp] theorem sendColl_pending {g tclass dest m} : (sendColl g tclass dest m s).pending = s.pending := by
  simp [sendColl]
@[simp] theorem sendCollAll_pending {g tclass m dests} : (sendCollAll g tclass m dests s).pending = s.pending := by
  simp [sendCollAll]

@[simp] theorem stagingStack_pending {need} : (stagingStack s need).2.pending = s.pending := by
  unfold stagingStack
  split <;> simp

@[simp] theorem sweepTransient_pending : (sweepTransient s).pending = s.pending := by simp [sweepTransient]
@[simp] theorem stagingGone_pending {k} : (stagingGone k s).pending = s.pending := by simp [stagingGone]
@[simp] theorem releaseGroup_pending {g} : (releaseGroup g s).pending = s.pending := by simp [releaseGroup]
@[simp] theorem setLane_pending {p l f} : (setLane p l f s).pending = s.pending := by simp [setLane]
@[simp] theorem refreshLasers_pending {p} : (refreshLasers p s).pending = s.pending := by simp [refreshLasers]
@[simp] theorem refreshAllLasers_pending : (refreshAllLasers s).pending = s.pending := by simp [refreshAllLasers]
@[simp] theorem startDwell_pending {p} : (startDwell p s).pending = s.pending := by simp [startDwell]
@[simp] theorem endWidening_pending {p} : (endWidening p s).pending = s.pending := by simp [endWidening]
@[simp] theorem setPeerGood_pending {p good} : (setPeerGood p good s).pending = s.pending := by simp [setPeerGood]
@[simp] theorem abortScan_pending {p lane} : (abortScan p lane s).pending = s.pending := by simp [abortScan]
@[simp] theorem startBringUp_pending {p} : (startBringUp p s).pending = s.pending := by simp [startBringUp]
@[simp] theorem lanesOff_pending {p} : (lanesOff p s).pending = s.pending := by simp [lanesOff]
@[simp] theorem applyTest_pending {p} : (applyTest p s).pending = s.pending := by simp [applyTest]
@[simp] theorem rateMatch_pending {p drift idle matched} :
    (rateMatch p drift idle matched s).2.pending = s.pending := by
  simp [rateMatch]
@[simp] theorem markLanes_pending {p next unsched lanes} :
    (markLanes p next unsched lanes s).pending = s.pending := by
  simp [markLanes]
@[simp] theorem sendMarker_pending {p next} : (sendMarker p next s).pending = s.pending := by simp [sendMarker]
@[simp] theorem changeSet_pending {p set why} : (changeSet p set why s).pending = s.pending := by simp [changeSet]
@[simp] theorem widenStep_pending {p} : (widenStep p s).pending = s.pending := by
  unfold widenStep
  dsimp only
  (repeat' split) <;> simp
@[simp] theorem widenMarkers_pending {p} : (widenMarkers p s).pending = s.pending := by simp [widenMarkers]
@[simp] theorem startWidening_pending {p set} : (startWidening p set s).pending = s.pending := by simp [startWidening]
@[simp] theorem lullEvaluate_pending {p} : (lullEvaluate p s).pending = s.pending := by
  unfold lullEvaluate
  dsimp only
  (repeat' split) <;> simp
@[simp] theorem refreshGood_pending {p} : (refreshGood p s).pending = s.pending := by
  simp -implicitDefEqProofs [refreshGood]
@[simp] theorem sendCodeword_pending {p bits} : (sendCodeword p bits s).pending = s.pending := by simp [sendCodeword]
@[simp] theorem streamCell_pending {p bits} : (streamCell p bits s).pending = s.pending := by simp [streamCell]
@[simp] theorem judgeScan_pending {k} : (judgeScan k s).pending = s.pending := by simp [judgeScan]
@[simp] theorem markerArrive_pending {p l m scheduled bips skew} :
    (markerArrive p l m scheduled bips skew s).pending = s.pending := by
  simp -implicitDefEqProofs [markerArrive]
@[simp] theorem laneLost_pending {p l cdr} : (laneLost p l cdr s).pending = s.pending := by simp [laneLost]
@[simp] theorem signalLost_pending {p l power} : (signalLost p l power s).pending = s.pending := by simp [signalLost]
@[simp] theorem bitSlip_pending {p l} : (bitSlip p l s).pending = s.pending := by simp [bitSlip]
@[simp] theorem eyeScan_pending {cmd} : (eyeScan cmd s).pending = s.pending := by simp [eyeScan]
@[simp] theorem eyeScanDone_pending {k errors} : (eyeScanDone k errors s).pending = s.pending := by simp [eyeScanDone]
@[simp] theorem countFec_pending {p e} : (countFec p e s).pending = s.pending := by simp [countFec]
@[simp] theorem codeword_pending {p errs cells} : (codeword p errs cells s).pending = s.pending := by
  simp -implicitDefEqProofs [codeword]
@[simp] theorem sendCell_pending {p kind vc sop eop seq cra crb payload} :
    (sendCell p kind vc sop eop seq cra crb payload s).pending = s.pending := by
  simp [sendCell]
@[simp] theorem sendIdle_pending {p} : (sendIdle p s).pending = s.pending := by simp [sendIdle]
@[simp] theorem takeReturn_pending {p v} : (takeReturn p v s).2.pending = s.pending := by simp [takeReturn]
@[simp] theorem sendSeq_pending {p kind vc sop eop payload} :
    (sendSeq p kind vc sop eop payload s).pending = s.pending := by
  simp [sendSeq]
@[simp] theorem packetStart_pending {p} : (packetStart p s).pending = s.pending := by
  unfold packetStart
  dsimp only
  (repeat' split) <;> simp
@[simp] theorem sendDataCell_pending {p g} : (sendDataCell p g s).pending = s.pending := by
  unfold sendDataCell
  dsimp only
  (repeat' split) <;> simp -implicitDefEqProofs
@[simp] theorem sendReplay_pending {p c} : (sendReplay p c s).pending = s.pending := by simp [sendReplay]

theorem sendControl_pending {p t} (h : sendControl p s = some t) : t.pending = s.pending := by
  unfold sendControl at h
  cases hr : (portLink s p).replies with
  | cons r l =>
    simp only [hr, Option.some.injEq] at h
    simp [← h]
  | nil =>
    simp only [hr] at h
    split at h
    · simp [← Option.some.inj h]
    · split at h
      · simp [← Option.some.inj h]
      · cases h

@[simp] theorem activeSlot_pending {p} : (activeSlot p s).pending = s.pending := by
  unfold activeSlot
  dsimp only
  (repeat' split) <;> try simp -implicitDefEqProofs
  all_goals exact (sendControl_pending ‹sendControl _ _ = _›).trans (by simp)

@[simp] theorem beginExchange_pending {p} : (beginExchange p s).pending = s.pending := by simp [beginExchange]
@[simp] theorem sendNotices_pending {p pks} : (sendNotices p pks s).pending = s.pending := by simp [sendNotices]
@[simp] theorem releaseBuffers_pending {p} : (releaseBuffers p s).pending = s.pending := by simp [releaseBuffers]
@[simp] theorem reroute_pending {p q} : (reroute p q s).pending = s.pending := by
  unfold reroute
  dsimp only
  (repeat' split) <;> simp
@[simp] theorem flush_pending {p} : (flush p s).pending = s.pending := by simp [flush]
@[simp] theorem flushRetrain_pending {p} : (flushRetrain p s).pending = s.pending := by
  unfold flushRetrain
  split <;> simp
@[simp] theorem linkDown_pending {p} : (linkDown p s).pending = s.pending := by
  unfold linkDown
  split <;> simp -implicitDefEqProofs
@[simp] theorem leaveHeld_pending {p} : (leaveHeld p s).pending = s.pending := by simp [leaveHeld]
@[simp] theorem disablePort_pending {p} : (disablePort p s).pending = s.pending := by
  unfold disablePort
  split <;> simp
@[simp] theorem enablePort_pending {p} : (enablePort p s).pending = s.pending := by unfold enablePort; split <;> simp
@[simp] theorem lanesLocked_pending {p} : (lanesLocked p s).pending = s.pending := by
  unfold lanesLocked
  dsimp only
  (repeat' split) <;> simp
@[simp] theorem ackTo_pending {p a} : (ackTo p a s).pending = s.pending := by simp [ackTo]
@[simp] theorem nakTo_pending {p a nak} : (nakTo p a nak s).pending = s.pending := by simp [nakTo]
@[simp] theorem replayAll_pending {p} : (replayAll p s).pending = s.pending := by simp [replayAll]
@[simp] theorem exchangeDone_pending {p} : (exchangeDone p s).pending = s.pending := by
  unfold exchangeDone
  dsimp only
  (repeat' split) <;> simp -implicitDefEqProofs
@[simp] theorem exchangeSlot_pending {p} : (exchangeSlot p s).pending = s.pending := by simp [exchangeSlot]
@[simp] theorem testSlot_pending {p} : (testSlot p s).pending = s.pending := by simp [testSlot]
@[simp] theorem cellSlot_pending {p} : (cellSlot p s).pending = s.pending := by simp [cellSlot]
@[simp] theorem applyCredit_pending {p c} : (applyCredit p c s).pending = s.pending := by simp [applyCredit]
@[simp] theorem releaseCell_pending {p c} : (releaseCell p c s).pending = s.pending := by
  simp -implicitDefEqProofs [releaseCell]

@[simp] theorem releaseFrom_pending {p n} : (releaseFrom p n s).pending = s.pending := by
  induction n generalizing s with
  | zero => rfl
  | succ n ih =>
    rw [releaseFrom]
    dsimp only
    split <;> simp [ih]

@[simp] theorem receiveSeq_pending {p c} : (receiveSeq p c s).pending = s.pending := by simp [receiveSeq]
@[simp] theorem receiveTrain_pending {p payload} : (receiveTrain p payload s).pending = s.pending := by
  simp [receiveTrain]
@[simp] theorem receiveCell_pending {p c matched} : (receiveCell p c matched s).pending = s.pending := by
  simp [receiveCell]
@[simp] theorem replayTimeout_pending {p} : (replayTimeout p s).pending = s.pending := by
  unfold replayTimeout
  dsimp only
  (repeat' split) <;> simp
@[simp] theorem silence_pending {p} : (silence p s).pending = s.pending := by simp [silence]
@[simp] theorem graceExpiry_pending {p} : (graceExpiry p s).pending = s.pending := by simp [graceExpiry]
@[simp] theorem heldRetry_pending {p} : (heldRetry p s).pending = s.pending := by simp [heldRetry]
@[simp] theorem retrain_pending {p} : (retrain p s).pending = s.pending := by unfold retrain; split <;> simp
@[simp] theorem roundTrip_pending {p sample} : (roundTrip p sample s).pending = s.pending := by simp [roundTrip]
@[simp] theorem judgeUncertainty_pending : (judgeUncertainty s).pending = s.pending := by simp [judgeUncertainty]

@[simp] theorem instantReached_pending {o} {fire : State → State} (h : ∀ s, (fire s).pending = s.pending) :
    (instantReached o fire s).pending = s.pending := by
  unfold instantReached
  split <;> simp -implicitDefEqProofs [h]

@[simp] theorem stepMt_pending {b} : (stepMt b s).pending = s.pending := by simp -implicitDefEqProofs [stepMt]
@[simp] theorem correct_pending {offset} : (correct offset s).pending = s.pending := by simp [correct]
@[simp] theorem trimRate_pending : (trimRate s).pending = s.pending := by simp [trimRate]
@[simp] theorem memsRate_pending : (memsRate s).pending = s.pending := by simp [memsRate]
@[simp] theorem tick_pending : (tick s).pending = s.pending := by simp [tick]
@[simp] theorem enterState_pending {st} : (enterState st s).pending = s.pending := by simp [enterState]
@[simp] theorem setPeer_pending {p f} : (setPeer p f s).pending = s.pending := by simp [setPeer]
@[simp] theorem judgePeers_pending : (judgePeers s).pending = s.pending := by simp [judgePeers]
@[simp] theorem followPeer_pending {p} : (followPeer p s).pending = s.pending := by
  unfold followPeer
  dsimp only
  (repeat' split) <;> simp

@[simp] theorem loseReference_pending : (loseReference s).pending = s.pending := by
  unfold loseReference
  (repeat' split) <;> simp

@[simp] theorem loseSource_pending : (loseSource s).pending = s.pending := by simp [loseSource]

@[simp] theorem chooseSource_pending : (chooseSource s).pending = s.pending := by
  unfold chooseSource
  (repeat' split) <;> simp

@[simp] theorem holdDownOver_pending : (holdDownOver s).pending = s.pending := by unfold holdDownOver; split <;> simp
@[simp] theorem judgeDelay_pending : (judgeDelay s).pending = s.pending := by simp [judgeDelay]
@[simp] theorem peersChanged_pending : (peersChanged s).pending = s.pending := by simp [peersChanged]
@[simp] theorem peerGone_pending {p} : (peerGone p s).pending = s.pending := by simp [peerGone]
@[simp] theorem epochLost_pending : (epochLost s).pending = s.pending := by simp [epochLost]
@[simp] theorem setMt_pending {mt} : (setMt mt s).pending = s.pending := by simp [setMt]
@[simp] theorem refreshOscillator_pending : (refreshOscillator s).pending = s.pending := by simp [refreshOscillator]
@[simp] theorem acceptedEdge_pending {refMs} : (acceptedEdge refMs s).pending = s.pending := by
  unfold acceptedEdge
  dsimp only
  (repeat' split) <;> simp
@[simp] theorem epochEdge_pending {spacing refMs} : (epochEdge spacing refMs s).pending = s.pending := by
  simp [epochEdge]
@[simp] theorem tcodeFrame_pending {frame startUs endUs} :
    (tcodeFrame frame startUs endUs s).pending = s.pending := by
  unfold tcodeFrame
  dsimp only
  (repeat' split) <;> simp
@[simp] theorem tcodeLost_pending : (tcodeLost s).pending = s.pending := by simp [tcodeLost]
@[simp] theorem refClkLost_pending : (refClkLost s).pending = s.pending := by simp [refClkLost]
@[simp] theorem timeExchange_pending {p} : (timeExchange p s).pending = s.pending := by simp [timeExchange]
@[simp] theorem notePeer_pending {p pk} : (notePeer p pk s).pending = s.pending := by simp [notePeer]
@[simp] theorem timeRequest_pending {p at_ pk} : (timeRequest p at_ pk s).pending = s.pending := by simp [timeRequest]

@[simp] theorem timeResponse_pending {p at_ pk} : (timeResponse p at_ pk s).pending = s.pending := by
  unfold timeResponse
  dsimp only
  simp -implicitDefEqProofs
  (repeat' split) <;> simp -implicitDefEqProofs

@[simp] theorem usableAdvertised_pending {p} : (usableAdvertised p s).pending = s.pending := by
  unfold usableAdvertised
  (repeat' split) <;> simp

@[simp] theorem measuredUpdate_pending : (measuredUpdate s).pending = s.pending := by simp [measuredUpdate]
@[simp] theorem timePulse_pending : (timePulse s).pending = s.pending := by simp [timePulse]
@[simp] theorem timePulseEnd_pending : (timePulseEnd s).pending = s.pending := by simp [timePulseEnd]

/-! ### Time, collectives and moves -/

@[simp] theorem startItem_pending {e c kind} : (startItem e c kind s).pending = s.pending := by simp [startItem]

@[simp] theorem dispatchItems_pending {n} : (dispatchItems n s).pending = s.pending := by
  induction n generalizing s with
  | zero => rfl
  | succ n ih =>
    rw [dispatchItems]
    dsimp only
    (repeat' split) <;> simp [ih]

@[simp] theorem serviceItem_pending {qn o} {f : (State → State) → State → State}
    (h : ∀ start s, (∀ s, (start s).pending = s.pending) → (f start s).pending = s.pending) :
    (serviceItem qn o f s).pending = s.pending := by
  unfold serviceItem
  (repeat' split) <;> simp [h]

@[simp] theorem enterPackage_pending {e c slot qn q op entry} :
    (enterPackage e c slot qn q op entry s).pending = s.pending := rfl
@[simp] theorem packageCall_pending {qn} : (packageCall qn s).pending = s.pending := by
  unfold packageCall
  dsimp only
  (repeat' split) <;> simp
@[simp] theorem packageEnd_pending {e c} : (packageEnd e c s).pending = s.pending := by
  unfold packageEnd
  dsimp only
  (repeat' split) <;> simp
@[simp] theorem actRefuse_pending {target reason instant} :
    (actRefuse target reason instant s).pending = s.pending := by
  simp [actRefuse]
@[simp] theorem dropAct_pending {target} : (dropAct target s).pending = s.pending := by simp [dropAct]
@[simp] theorem beginQuiesce_pending {target source instant remove} :
    (beginQuiesce target source instant remove s).pending = s.pending := by
  simp [beginQuiesce]

@[simp] theorem activate_pending {target source at_} : (activate target source at_ s).pending = s.pending := by
  unfold activate
  dsimp only
  split
  · rfl
  split
  · simp
  · split
    · simp
    · simp
    · simp -implicitDefEqProofs
    · case _ t ht => simpa using armShot_pending ht

@[simp] theorem activationCancel_pending {target} : (activationCancel target s).pending = s.pending := by
  unfold activationCancel
  split <;> simp
@[simp] theorem packageRemove_pending {target} : (packageRemove target s).pending = s.pending := by
  simp [packageRemove]
@[simp] theorem loadFirmware_pending {es} : (loadFirmware es s).pending = s.pending := by
  simp -implicitDefEqProofs [loadFirmware]
@[simp] theorem loadImage_pending {a} : (loadImage a s).pending = s.pending := by
  unfold loadImage
  dsimp only
  (repeat' split) <;> simp
@[simp] theorem resumeOld_pending {target} : (resumeOld target s).pending = s.pending := by simp [resumeOld]
@[simp] theorem quiesceComplete_pending {target} : (quiesceComplete target s).pending = s.pending := by
  unfold quiesceComplete
  split <;> simp
@[simp] theorem quiesceTimeout_pending {target} : (quiesceTimeout target s).pending = s.pending := by
  unfold quiesceTimeout
  split <;> simp
@[simp] theorem activationInstant_pending {target} : (activationInstant target s).pending = s.pending := by
  unfold activationInstant
  split <;> simp
@[simp] theorem activationCommand_pending {v} : (activationCommand v s).pending = s.pending := by
  simp [activationCommand]
@[simp] theorem failStart_pending {qn entry step reason peer} :
    (failStart qn entry step reason peer s).pending = s.pending := by
  simp [failStart]
@[simp] theorem groupEvent_pending {x code g reason node low} :
    (groupEvent x code g reason node low s).pending = s.pending := by
  simp [groupEvent]
@[simp] theorem createRead_pending {c} : (createRead c s).pending = s.pending := by simp [createRead]
@[simp] theorem dropCreate_pending {qn entry} : (dropCreate qn entry s).pending = s.pending := by simp [dropCreate]

@[simp] theorem startCreate_pending {qn} : (startCreate qn s).pending = s.pending := by
  unfold startCreate
  split
  · rfl
  split
  · rfl
  · exact serviceItem_pending fun start s h => by simp [h]

@[simp] theorem activateGroup_pending {g} : (activateGroup g s).pending = s.pending := by simp [activateGroup]
@[simp] theorem sendJoin_pending {g} : (sendJoin g s).pending = s.pending := by
  unfold sendJoin
  dsimp only
  (repeat' split) <;> simp
@[simp] theorem joinUp_pending {g} : (joinUp g s).pending = s.pending := by simp [joinUp]

@[simp] theorem createGo_pending {c} : (createGo c s).pending = s.pending := by
  unfold createGo
  dsimp only
  split
  · simp
  split
  · simp
  split
  · simp
  · split
    · case _ t ht => exact failStart_pending.trans (pending_of_pair ht (by simp))
    · case _ k t ht => exact (joinUp_pending.trans (setGroup_pending ..)).trans (pending_of_pair ht (by simp))

@[simp] theorem memberTable_pending {qn entry r} : (memberTable qn entry r s).pending = s.pending := by
  unfold memberTable
  dsimp only
  (repeat' split) <;> simp
@[simp] theorem abandonGroup_pending {g reason origin came} :
    (abandonGroup g reason origin came s).pending = s.pending := by
  simp [abandonGroup]
@[simp] theorem joinRetry_pending {g} : (joinRetry g s).pending = s.pending := by simp [joinRetry]
@[simp] theorem joinTimeout_pending {g} : (joinTimeout g s).pending = s.pending := by simp [joinTimeout]
@[simp] theorem endStep_pending {g n c} : (endStep g n c s).pending = s.pending := by
  unfold endStep
  dsimp only
  (repeat' split) <;> simp
@[simp] theorem failStep_pending {g n c} : (failStep g n c s).pending = s.pending := by simp [failStep]
@[simp] theorem loseStep_pending {g n} : (loseStep g n s).pending = s.pending := by simp [loseStep]
@[simp] theorem tellBroken_pending {g} : (tellBroken g s).pending = s.pending := by simp [tellBroken]
@[simp] theorem breakGroup_pending {g e keep} : (breakGroup g e keep s).pending = s.pending := by simp [breakGroup]
@[simp] theorem decideLoss_pending {g node reason} : (decideLoss g node reason s).pending = s.pending := by
  simp [decideLoss]
@[simp] theorem fetchFails_pending {g} : (fetchFails g s).pending = s.pending := by simp [fetchFails]
@[simp] theorem topLost_pending {g reason} : (topLost g reason s).pending = s.pending := by simp [topLost]
@[simp] theorem declareLost_pending {g node reason} : (declareLost g node reason s).pending = s.pending := by
  simp -implicitDefEqProofs [declareLost]
@[simp] theorem lostArrive_pending {g p} : (lostArrive g p s).pending = s.pending := by simp [lostArrive]
@[simp] theorem brokenArrive_pending {g p} : (brokenArrive g p s).pending = s.pending := by simp [brokenArrive]
@[simp] theorem abortHere_pending {g n reason origin} : (abortHere g n reason origin s).pending = s.pending := by
  simp [abortHere]

@[simp] theorem takeAbort_pending {g n reason origin} : (takeAbort g n reason origin s).pending = s.pending := by
  cases h : stepOf s g n with
  | some p => simp only [takeAbort, h, ite_pending, abortHere_pending, setStep_pending, ite_self]
  | none => simp only [takeAbort, h, ite_pending, setGroup_pending, ite_self]

@[simp] theorem topAbort_pending {g n reason origin sig} :
    (topAbort g n reason origin sig s).pending = s.pending := by
  simp [topAbort]
@[simp] theorem raiseAbort_pending {g n reason} : (raiseAbort g n reason s).pending = s.pending := by
  unfold raiseAbort
  split <;> simp -implicitDefEqProofs
@[simp] theorem abortArrive_pending {g p} : (abortArrive g p s).pending = s.pending := by simp [abortArrive]
@[simp] theorem stepTimeout_pending {g n} : (stepTimeout g n s).pending = s.pending := by
  unfold stepTimeout
  split <;> simp
@[simp] theorem heardFrom_pending {g node} : (heardFrom g node s).pending = s.pending := by simp [heardFrom]
@[simp] theorem startTimers_pending {g} : (startTimers g s).pending = s.pending := by simp [startTimers]
@[simp] theorem resultWrite_pending {g n} : (resultWrite g n s).pending = s.pending := by
  unfold resultWrite
  split <;> simp
@[simp] theorem finishStep_pending {g n fault} : (finishStep g n fault s).pending = s.pending := by
  unfold finishStep
  split <;> simp -implicitDefEqProofs
@[simp] theorem haveResult_pending {g n bs dests} : (haveResult g n bs dests s).pending = s.pending := by
  unfold haveResult
  split <;> simp
@[simp] theorem resultWritten_pending {g n r} : (resultWritten g n r s).pending = s.pending := by
  unfold resultWritten
  dsimp only
  (repeat' split) <;> simp
@[simp] theorem tryCombine_pending {g n} : (tryCombine g n s).pending = s.pending := by
  unfold tryCombine
  dsimp only
  (repeat' split) <;> simp
@[simp] theorem contribRead_pending {g n} : (contribRead g n s).pending = s.pending := by
  unfold contribRead
  split <;> simp
@[simp] theorem contribDone_pending {g n r} : (contribDone g n r s).pending = s.pending := by
  unfold contribDone
  dsimp only
  (repeat' split) <;> simp
@[simp] theorem launchStep_pending {g n late} : (launchStep g n late s).pending = s.pending := by
  unfold launchStep
  split <;> simp
@[simp] theorem collLaunch_pending {g n} : (collLaunch g n s).pending = s.pending := by simp [collLaunch]

@[simp] theorem openGoes_pending {g n x p} : (openGoes g n x p s).pending = s.pending := by
  have hread : (when_ (!p.ownDone) (contribRead g n) s).pending = s.pending := by simp -implicitDefEqProofs
  unfold openGoes
  dsimp only
  split
  · simp
  split
  · simp
  · split
    · exact launchStep_pending.trans ((when_pending fun t => bump_pending ..).trans hread)
    · case _ t ht => exact (armShot_pending ht).trans hread
    · exact raiseAbort_pending.trans hread
    · exact raiseAbort_pending.trans hread

@[simp] theorem openStep_pending {g qn op o} : (openStep g qn op o s).pending = s.pending := by simp [openStep]

@[simp] theorem startStep_pending {qn op} : (startStep qn op s).pending = s.pending := by
  unfold startStep
  split <;> simp
@[simp] theorem endGroup_pending {g quiet} : (endGroup g quiet s).pending = s.pending := by simp [endGroup]
@[simp] theorem startGroupDestroy_pending {qn} : (startGroupDestroy qn s).pending = s.pending := by
  unfold startGroupDestroy
  split <;> simp
@[simp] theorem groupsOfQueue_pending {qn} : (groupsOfQueue qn s).pending = s.pending := by simp [groupsOfQueue]
@[simp] theorem endAllGroups_pending : (endAllGroups s).pending = s.pending := by simp [endAllGroups]
@[simp] theorem stagingLost_pending {g} : (stagingLost g s).pending = s.pending := by simp [stagingLost]
@[simp] theorem joinArrive_pending {g p} : (joinArrive g p s).pending = s.pending := by simp [joinArrive]
@[simp] theorem readyArrive_pending {g p} : (readyArrive g p s).pending = s.pending := by simp [readyArrive]
@[simp] theorem abandonArrive_pending {g p} : (abandonArrive g p s).pending = s.pending := by simp [abandonArrive]
@[simp] theorem contribArrive_pending {g p} : (contribArrive g p s).pending = s.pending := by
  unfold contribArrive
  dsimp only
  (repeat' split) <;> simp
@[simp] theorem resultArrive_pending {g p} : (resultArrive g p s).pending = s.pending := by
  unfold resultArrive
  dsimp only
  (repeat' split) <;> simp
@[simp] theorem departArrive_pending {g p} : (departArrive g p s).pending = s.pending := by simp [departArrive]
@[simp] theorem fetchArrive_pending {g p} : (fetchArrive g p s).pending = s.pending := by
  unfold fetchArrive
  dsimp only
  (repeat' split) <;> simp

@[simp] theorem collArrive_pending {kind p} {f : Nat → Packet → State → State}
    (h : ∀ g p s, (f g p s).pending = s.pending) : (collArrive kind f p s).pending = s.pending := by
  simp [collArrive, h]

@[simp] theorem heartbeat_pending {g} : (heartbeat g s).pending = s.pending := by simp [heartbeat]
@[simp] theorem livenessTimeout_pending {g node} : (livenessTimeout g node s).pending = s.pending := by
  simp [livenessTimeout]
@[simp] theorem collUnreachable_pending {nodes} : (collUnreachable nodes s).pending = s.pending := by
  simp [collUnreachable]
@[simp] theorem collUnroutable_pending {p} : (collUnroutable p s).pending = s.pending := by simp [collUnroutable]
@[simp] theorem collLost_pending {p} : (collLost p s).pending = s.pending := by
  unfold collLost
  dsimp only
  (repeat' split) <;> simp
@[simp] theorem moveOver_pending {e c tag st} : (moveOver e c tag st s).pending = s.pending := by
  unfold moveOver
  dsimp only
  (repeat' split) <;> simp
@[simp] theorem sramReports_pending {cluster l} : (sramReports cluster l s).2.pending = s.pending := by
  simp [sramReports]
@[simp] theorem moveHost_pending {e c pos m} : (moveHost e c pos m s).pending = s.pending := by
  unfold moveHost
  dsimp only
  (repeat' split) <;> simp

@[simp] theorem moveHostDone_pending {e c tag pos r} : (moveHostDone e c tag pos r s).pending = s.pending := by
  unfold moveHostDone
  (repeat' split) <;> simp

@[simp] theorem moveAcked_pending {e c tag r} : (moveAcked e c tag r s).pending = s.pending := by
  unfold moveAcked
  split <;> simp

@[simp] theorem moveSent_pending {e c tag flush st} : (moveSent e c tag flush st s).pending = s.pending := by
  unfold moveSent
  (repeat' split) <;> simp

@[simp] theorem moveWrite_pending {e c m p bs bad ecc} : (moveWrite e c m p bs bad ecc s).pending = s.pending := by
  unfold moveWrite
  split <;> simp

@[simp] theorem moveRead_pending {e n p given} : (moveRead e n p given s).2.2.2.pending = s.pending := by
  cases p <;> simp [moveRead]

@[simp] theorem moveGo_pending {e c m given status} : (moveGo e c m given status s).pending = s.pending := by
  simp [moveGo]

/-! ### Trade lanes and the admin commands -/

@[simp] theorem freeLabel_pending {p} : (freeLabel p s).2.pending = s.pending := by simp [freeLabel]
@[simp] theorem freeLnum_pending : (freeLnum s).2.pending = s.pending := by simp [freeLnum]
@[simp] theorem laneSend_pending {port label flow from_ pk} :
    (laneSend port label flow from_ pk s).pending = s.pending := by
  simp [laneSend]
@[simp] theorem countInjected_pending {n} : (countInjected n s).pending = s.pending := by simp [countInjected]
@[simp] theorem sendRelease_pending {port label share tclass tenant origin lnum dest} :
    (sendRelease port label share tclass tenant origin lnum dest s).pending = s.pending := by
  simp [sendRelease]
@[simp] theorem sendReply_pending {port label tclass tenant origin lnum code hop} :
    (sendReply port label tclass tenant origin lnum code hop s).pending = s.pending := by
  simp [sendReply]
@[simp] theorem releaseOut_pending {may r} : (releaseOut may r s).pending = s.pending := by simp [releaseOut]
@[simp] theorem originRelease_pending {l x broken} : (originRelease l x broken s).pending = s.pending := by
  simp [originRelease]
@[simp] theorem kickReleases_pending : (kickReleases s).pending = s.pending := by simp [kickReleases]
@[simp] theorem freeLane_pending {l} : (freeLane l s).pending = s.pending := by simp [freeLane]

@[simp] theorem laneService_pending {qn op} {f : SendOp → (State → State) → State → State}
    (h : ∀ o start s, (∀ s, (start s).pending = s.pending) → (f o start s).pending = s.pending) :
    (laneService qn op f s).pending = s.pending := by
  unfold laneService
  split
  · rfl
  · exact serviceItem_pending fun start s hs => h _ start s hs

@[simp] theorem openRefused_pending {qn entry code} : (openRefused qn entry code s).pending = s.pending := by
  simp [openRefused]

@[simp] theorem laneOpen_pending {qn} : (laneOpen qn s).pending = s.pending := by
  refine laneService_pending fun o start s h => ?_
  dsimp only
  (repeat' split) <;> simp [h]

@[simp] theorem setSend_pending {l qn entry f} : (setSend l qn entry f s).pending = s.pending := by simp [setSend]
@[simp] theorem laneGather_pending {l} : (laneGather l s).pending = s.pending := by unfold laneGather; split <;> simp
@[simp] theorem laneEmit_pending {l} : (laneEmit l s).pending = s.pending := by
  unfold laneEmit
  dsimp only
  (repeat' split) <;> simp

@[simp] theorem laneSendStart_pending {qn} : (laneSendStart qn s).pending = s.pending := by
  refine laneService_pending fun o start s h => ?_
  dsimp only
  (repeat' split) <;> simp [h]

@[simp] theorem laneRead_pending {l r} : (laneRead l r s).pending = s.pending := by
  unfold laneRead
  dsimp only
  (repeat' split) <;> simp

@[simp] theorem laneClose_pending {qn} : (laneClose qn s).pending = s.pending := by
  refine laneService_pending fun o start s h => ?_
  dsimp only
  (repeat' split) <;> simp [h]

@[simp] theorem closeLane_pending {l} : (closeLane l s).pending = s.pending := by simp [closeLane]
@[simp] theorem closeLanes_pending {p} : (closeLanes p s).pending = s.pending := by simp [closeLanes]
@[simp] theorem breakLane_pending {l seq} : (breakLane l seq s).pending = s.pending := by simp [breakLane]
@[simp] theorem laneDataLost_pending {p} : (laneDataLost p s).pending = s.pending := by simp [laneDataLost]
@[simp] theorem farReport_pending : (farReport s).pending = s.pending := by simp [farReport]

@[simp] theorem lanesFlushed_pending {p} : (lanesFlushed p s).pending = s.pending := by
  unfold lanesFlushed
  dsimp only
  rw [farReport_pending]
  refine (foldSt_pending fun e s => ?_).trans (by simp -implicitDefEqProofs)
  (repeat' split) <;> simp

@[simp] theorem replyAtOrigin_pending {pk} : (replyAtOrigin pk s).pending = s.pending := by simp [replyAtOrigin]
@[simp] theorem setupTimeout_pending {l} : (setupTimeout l s).pending = s.pending := by simp [setupTimeout]
@[simp] theorem squallArrive_pending {pk} : (squallArrive pk s).pending = s.pending := by simp [squallArrive]
@[simp] theorem squallExpiry_pending {l} : (squallExpiry l s).pending = s.pending := by simp [squallExpiry]
@[simp] theorem setupCheck_pending {port pk} : (setupCheck port pk s).2.2.pending = s.pending := by
  unfold setupCheck
  dsimp only
  (repeat' split) <;> simp
@[simp] theorem setupArrive_pending {port pk} : (setupArrive port pk s).pending = s.pending := by
  unfold setupArrive
  dsimp only
  (repeat' split) <;> simp
@[simp] theorem replyArrive_pending {port pk} : (replyArrive port pk s).pending = s.pending := by
  unfold replyArrive
  dsimp only
  (repeat' split) <;> simp
@[simp] theorem dropLaneEntry_pending {port label} : (dropLaneEntry port label s).pending = s.pending := by
  unfold dropLaneEntry
  split <;> simp
@[simp] theorem farEnd_pending {origin lnum notify} : (farEnd origin lnum notify s).pending = s.pending := by
  simp [farEnd]
@[simp] theorem endLaneEntry_pending {port label} : (endLaneEntry port label s).pending = s.pending := by
  simp [endLaneEntry]

@[simp] theorem releaseArrive_pending {port pk} : (releaseArrive port pk s).pending = s.pending := by
  unfold releaseArrive
  (repeat' split) <;> simp

@[simp] theorem tentativeTimeout_pending {port label} : (tentativeTimeout port label s).pending = s.pending := by
  unfold tentativeTimeout
  split <;> simp
@[simp] theorem laneOut_pending {port pk} : (laneOut port pk s).pending = s.pending := by simp [laneOut]
@[simp] theorem lastDepart_pending {port label} : (lastDepart port label s).pending = s.pending := by
  simp [lastDepart]
@[simp] theorem squallMark_pending {port pk e} : (squallMark port pk e s).pending = s.pending := by simp [squallMark]
@[simp] theorem farRefuse_pending {pk far reason} : (farRefuse pk far reason s).pending = s.pending := by
  unfold farRefuse
  split <;> simp
@[simp] theorem lanePlaceNext_pending {pk pos far} : (lanePlaceNext pk pos far s).pending = s.pending := by
  simp [lanePlaceNext]
@[simp] theorem lanePlaced_pending {pk pos far r} : (lanePlaced pk pos far r s).pending = s.pending := by
  unfold lanePlaced
  split <;> simp
@[simp] theorem farArrive_pending {port pk e} : (farArrive port pk e s).pending = s.pending := by
  unfold farArrive
  dsimp only
  (repeat' split) <;> simp -implicitDefEqProofs

@[simp] theorem dataArrive_pending {port held pk} : (dataArrive port held pk s).pending = s.pending := by
  unfold dataArrive
  (repeat' split) <;> simp -implicitDefEqProofs

@[simp] theorem laneLeft_pending {pk} : (laneLeft pk s).pending = s.pending := by
  unfold laneLeft
  dsimp only
  (repeat' split) <;> simp
@[simp] theorem removePosted_pending {qn quiet} : (removePosted qn quiet s).pending = s.pending := by
  simp [removePosted]
@[simp] theorem abandonServices_pending {qn} : (abandonServices qn s).pending = s.pending := by simp [abandonServices]
@[simp] theorem serviceEnds_pending {qn entry comp} : (serviceEnds qn entry comp s).pending = s.pending := by
  unfold serviceEnds
  dsimp only
  (repeat' split) <;> simp
@[simp] theorem endWaiters_pending {qn} : (endWaiters qn s).pending = s.pending := by
  simp -implicitDefEqProofs [endWaiters]
@[simp] theorem abandonWork_pending {qn} : (abandonWork qn s).2.pending = s.pending := by simp [abandonWork]
@[simp] theorem interruptPending_pending {qn} : (interruptPending qn s).pending = s.pending := by
  unfold interruptPending
  split <;> simp
@[simp] theorem destroyForce_pending {qn by_} : (destroyForce qn by_ s).pending = s.pending := by simp [destroyForce]
@[simp] theorem queueDestroy_pending {fn force} : (queueDestroy fn force s).pending = s.pending := by
  simp [queueDestroy]
@[simp] theorem drainComplete_pending {qn} : (drainComplete qn s).pending = s.pending := by
  unfold drainComplete
  dsimp only
  (repeat' split) <;> simp
@[simp] theorem destroyComplete_pending {qn} : (destroyComplete qn s).pending = s.pending := by
  unfold destroyComplete
  dsimp only
  (repeat' split) <;> simp
@[simp] theorem destroyQueues_pending {lo n} : (destroyQueues lo n s).pending = s.pending := by simp [destroyQueues]
@[simp] theorem contextLost_pending {qn k own} : (contextLost qn k own s).pending = s.pending := by simp [contextLost]
@[simp] theorem dropConn_pending {c} : (dropConn c s).pending = s.pending := by simp [dropConn]
@[simp] theorem fnMoved_pending {fn lo n} : (fnMoved fn lo n s).pending = s.pending := by simp [fnMoved]
@[simp] theorem fnTeardown_pending {fn} : (fnTeardown fn s).pending = s.pending := by
  simp -implicitDefEqProofs [fnTeardown]
@[simp] theorem fnRegsReset_pending {fn flr} : (fnRegsReset fn flr s).pending = s.pending := by simp [fnRegsReset]
@[simp] theorem resetOne_pending {fn flr} : (resetOne fn flr s).pending = s.pending := by simp [resetOne]
@[simp] theorem fnReset_pending {fn flr} : (fnReset fn flr s).pending = s.pending := by simp [fnReset]
@[simp] theorem regionLost_pending {r k} : (regionLost r k s).pending = s.pending := by simp [regionLost]
@[simp] theorem flowLost_pending {f} : (flowLost f s).pending = s.pending := by unfold flowLost; split <;> simp
@[simp] theorem tgtLost_pending {f} : (tgtLost f s).pending = s.pending := by simp [tgtLost]
@[simp] theorem poisonStored_pending {k} : (poisonStored k s).pending = s.pending := by simp [poisonStored]
@[simp] theorem contextsLost_pending {k lost} : (contextsLost k lost s).pending = s.pending := by simp [contextsLost]
@[simp] theorem ringsMoved_pending {k} : (ringsMoved k s).pending = s.pending := by simp [ringsMoved]
@[simp] theorem stackGone_pending {k} : (stackGone k s).pending = s.pending := by simp [stackGone]

@[simp] theorem pickOne_pending {α : Type} {p : α → Bool} {m : SMap α} : (pickOne p m s).2.pending = s.pending := by
  simp [pickOne]

@[simp] theorem withPick_pending {r : Option Nat × State} {f : Nat → State → State}
    (h : ∀ k s, (f k s).pending = s.pending) : (withPick r f).pending = r.2.pending := by
  unfold withPick
  split <;> simp [h]

@[simp] theorem storePoisoned_pending {k} : (storePoisoned k s).pending = s.pending := by simp [storePoisoned]
@[simp] theorem recordPoisoned_pending : (recordPoisoned s).pending = s.pending := by simp [recordPoisoned]
@[simp] theorem stagingPoisoned_pending {k} : (stagingPoisoned k s).pending = s.pending := by simp [stagingPoisoned]
@[simp] theorem postedPoisoned_pending {k} : (postedPoisoned k s).pending = s.pending := by simp [postedPoisoned]
@[simp] theorem listPoisoned_pending {k has} : (listPoisoned k has s).pending = s.pending := by simp [listPoisoned]
@[simp] theorem matchPoisoned_pending {k off size} : (matchPoisoned k off size s).pending = s.pending := by
  simp [matchPoisoned]
@[simp] theorem granulePoisoned_pending {g} : (granulePoisoned g s).pending = s.pending := by
  unfold granulePoisoned
  dsimp only
  (repeat' split) <;> simp

/-! ### The dictionary, the host groups, power and resets -/

@[simp] theorem scanTemp_pending {k v} : (scanTemp k v s).pending = s.pending := by simp [scanTemp]
@[simp] theorem scanSensors_pending {x} : (scanSensors x s).pending = s.pending := by
  unfold scanSensors
  dsimp only
  (repeat' split) <;> simp
@[simp] theorem publish_pending {stamp} : (publish stamp s).pending = s.pending := by simp [publish]
@[simp] theorem telemetry_pending {stamp late} : (telemetry stamp late s).pending = s.pending := by simp [telemetry]
@[simp] theorem telemetryDue_pending : (telemetryDue s).pending = s.pending := by simp [telemetryDue]
@[simp] theorem telemetryFrom_pending : (telemetryFrom s).pending = s.pending := by simp [telemetryFrom]
@[simp] theorem telemetryStep_pending {a b} : (telemetryStep a b s).pending = s.pending := by simp [telemetryStep]
@[simp] theorem logFlush_pending : (logFlush s).pending = s.pending := by
  unfold logFlush
  dsimp only
  (repeat' split) <;> simp
@[simp] theorem updOutcome_pending {outcome reason} : (updOutcome outcome reason s).pending = s.pending := by
  simp [updOutcome]
@[simp] theorem updShow_pending {target outcome reason} : (updShow target outcome reason s).pending = s.pending := by
  simp [updShow]
@[simp] theorem logUpdate_pending {outcome target reason received} :
    (logUpdate outcome target reason received s).pending = s.pending := by
  simp [logUpdate]
@[simp] theorem updateBegin_pending {session target length} :
    (updateBegin session target length s).pending = s.pending := by
  simp [updateBegin]
@[simp] theorem updateFinish_pending {session} : (updateFinish session s).pending = s.pending := by
  simp [updateFinish]
@[simp] theorem updateDrop_pending : (updateDrop s).pending = s.pending := by simp [updateDrop]
@[simp] theorem updateAbort_pending {session} : (updateAbort session s).pending = s.pending := by simp [updateAbort]
@[simp] theorem doldrumsUpdate_pending {t} : (doldrumsUpdate t s).pending = s.pending := by simp [doldrumsUpdate]
@[simp] theorem updateVerify_pending : (updateVerify s).pending = s.pending := by simp [updateVerify]
@[simp] theorem updateCopy_pending {source target} : (updateCopy source target s).pending = s.pending := by
  simp [updateCopy]
@[simp] theorem bootOnce_pending {target} : (bootOnce target s).pending = s.pending := by simp [bootOnce]
@[simp] theorem updateErase_pending {target} : (updateErase target s).pending = s.pending := by simp [updateErase]
@[simp] theorem updateCommand_pending {session v} : (updateCommand session v s).pending = s.pending := by
  simp [updateCommand]
@[simp] theorem updateSegment_pending {off data} : (updateSegment off data s).pending = s.pending := by
  simp [updateSegment]
@[simp] theorem setState_pending {n st} : (setState n st s).pending = s.pending := by simp [setState]
@[simp] theorem openSet_pending {owner n} : (openSet owner n s).pending = s.pending := by
  unfold openSet
  split <;> simp
@[simp] theorem shadowPut_pending {owner n key v} : (shadowPut owner n key v s).2.pending = s.pending := by
  simp [shadowPut]
@[simp] theorem rcWrite_pending {owner n key bs} : (rcWrite owner n key bs s).2.pending = s.pending := by
  simp [rcWrite]
@[simp] theorem segStore_pending {owner n key total off bs} :
    (segStore owner n key total off bs s).2.pending = s.pending := by
  unfold segStore
  dsimp only
  (repeat' split) <;> simp
@[simp] theorem beforeApply_pending {ks} : (beforeApply ks s).pending = s.pending := by simp [beforeApply]
@[simp] theorem applyTime_pending {ks} : (applyTime ks s).pending = s.pending := by simp [applyTime]
@[simp] theorem applyPower_pending {ks} : (applyPower ks s).pending = s.pending := by simp [applyPower]
@[simp] theorem clearTests_pending {p} : (clearTests p s).pending = s.pending := by simp [clearTests]

@[simp] theorem followMap_pending {old} : (followMap old s).pending = s.pending := by
  refine forRange_pending fun p s => ?_
  dsimp only
  (repeat' split) <;> simp

@[simp] theorem applyRouting_pending {old all ks} : (applyRouting old all ks s).pending = s.pending := by
  simp [applyRouting]

@[simp] theorem applyFlow_pending {old ks} : (applyFlow old ks s).pending = s.pending := by
  unfold applyFlow
  dsimp only
  refine (when_pending fun s => sampleFrom_pending).trans ((when_pending fun s => policersChanged_pending).trans
    ((forRange_pending fun p s => by split <;> simp).trans (foldSt_pending fun k s => ?_)))
  split
  · refine forRange_pending fun p s => ?_
    split <;> simp
  · split <;> simp

@[simp] theorem applyLanes_pending {ks} : (applyLanes ks s).pending = s.pending := by simp [applyLanes]

@[simp] theorem applyRanges_pending {old ks} : (applyRanges old ks s).pending = s.pending := by
  simp -implicitDefEqProofs [applyRanges]

@[simp] theorem closeSession_pending {k} : (closeSession k s).pending = s.pending := by
  unfold closeSession
  split
  · rfl
  · dsimp only
    rw [ite_pending, updateDrop_pending, ite_self]
    refine foldSt_pending fun e t => ?_
    (repeat' split) <;> simp

@[simp] theorem closeSessions_pending {p} : (closeSessions p s).pending = s.pending := by simp [closeSessions]
@[simp] theorem takeSession_pending {c number} : (takeSession c number s).2.pending = s.pending := by
  simp [takeSession]
@[simp] theorem openMailbox_pending {fn} : (openMailbox fn s).pending = s.pending := by simp [openMailbox]
@[simp] theorem openMailboxes_pending : (openMailboxes s).pending = s.pending := by simp [openMailboxes]
@[simp] theorem applyYusto_pending {ks} : (applyYusto ks s).pending = s.pending := by simp [applyYusto]

@[simp] theorem applyUnits_pending {old all ks} : (applyUnits old all ks s).pending = s.pending := by
  simp -implicitDefEqProofs [applyUnits]

@[simp] theorem setLive_pending {key bs} : (setLive key bs s).pending = s.pending := by simp [setLive]
@[simp] theorem setLives_pending {vals} : (setLives vals s).pending = s.pending := by simp [setLives]
@[simp] theorem markTables_pending {ks} : (markTables ks s).pending = s.pending := by simp [markTables]
@[simp] theorem applySet_pending {n late} : (applySet n late s).pending = s.pending := by
  simp -implicitDefEqProofs [applySet]
@[simp] theorem applyFires_pending {n} : (applyFires n s).pending = s.pending := by simp [applyFires]
@[simp] theorem applyDue_pending {n} : (applyDue n s).pending = s.pending := by simp [applyDue]
@[simp] theorem commitResult_pending {n st} : (commitResult n st s).2.pending = s.pending := by simp [commitResult]
@[simp] theorem armTables_pending {n} : (armTables n s).pending = s.pending := by
  unfold armTables
  dsimp only
  (repeat' split) <;> simp
@[simp] theorem dropTables_pending {n} : (dropTables n s).pending = s.pending := by simp [dropTables]

@[simp] theorem commitGo_pending {n mt} : (commitGo n mt s).2.pending = s.pending := by
  unfold commitGo
  dsimp only
  split
  · simp
  · split
    · simp
    · simp
    · simp -implicitDefEqProofs
    · case _ t ht =>
      have ht := armShot_pending ht
      simpa using ht

@[simp] theorem commitAct_pending {owner n action mt} : (commitAct owner n action mt s).2.pending = s.pending := by
  unfold commitAct
  dsimp only
  (repeat' split) <;> simp
@[simp] theorem commitCommand_pending {owner v} : (commitCommand owner v s).pending = s.pending := by
  simp [commitCommand]
@[simp] theorem checkScan_pending : (checkScan s).pending = s.pending := by simp [checkScan]
@[simp] theorem persistComplete_pending : (persistComplete s).pending = s.pending := by simp [persistComplete]
@[simp] theorem endReads_pending {fns} : (endReads fns s).pending = s.pending := by simp [endReads]
@[simp] theorem linkLost_pending {k} : (linkLost k s).pending = s.pending := by simp [linkLost]
@[simp] theorem hostLinkDown_pending {k} : (hostLinkDown k s).pending = s.pending := by simp [hostLinkDown]
@[simp] theorem perstLow_pending {k} : (perstLow k s).pending = s.pending := by simp [perstLow]
@[simp] theorem perstHigh_pending {k refclk} : (perstHigh k refclk s).pending = s.pending := by simp [perstHigh]
@[simp] theorem hostLinkUp_pending {k width rate flit} : (hostLinkUp k width rate flit s).pending = s.pending := by
  simp [hostLinkUp]
@[simp] theorem functionReset_pending {fn} : (functionReset fn s).pending = s.pending := by simp [functionReset]
@[simp] theorem functionResetDone_pending {fn} : (functionResetDone fn s).pending = s.pending := by
  simp [functionResetDone]
@[simp] theorem configWrite_pending {fn r} : (configWrite fn r s).pending = s.pending := by
  unfold configWrite
  dsimp only
  (repeat' split) <;> simp
@[simp] theorem setAdm_pending {fn f} : (setAdm fn f s).pending = s.pending := by simp [setAdm]
@[simp] theorem setTr_pending {fn f} : (setTr fn f s).pending = s.pending := by simp [setTr]
@[simp] theorem aqResult_pending {fn code} : (aqResult fn code s).pending = s.pending := by simp [aqResult]
@[simp] theorem aqEnable_pending {fn} : (aqEnable fn s).pending = s.pending := by simp [aqEnable]
@[simp] theorem aqDisable_pending {fn} : (aqDisable fn s).pending = s.pending := by simp [aqDisable]
@[simp] theorem aqResume_pending {fn skip} : (aqResume fn skip s).pending = s.pending := by simp [aqResume]
@[simp] theorem aqResizeCq_pending {fn} : (aqResizeCq fn s).pending = s.pending := by simp [aqResizeCq]
@[simp] theorem aqAction_pending {fn action} : (aqAction fn action s).pending = s.pending := by simp [aqAction]
@[simp] theorem admDrop_pending {fn} : (admDrop fn s).pending = s.pending := by simp [admDrop]
@[simp] theorem trDrop_pending {fn} : (trDrop fn s).pending = s.pending := by simp [trDrop]
@[simp] theorem aqControl_pending {fn action} : (aqControl fn action s).pending = s.pending := by simp [aqControl]
@[simp] theorem admWrite_pending {fn off v} : (admWrite fn off v s).pending = s.pending := by simp [admWrite]
@[simp] theorem trWrite_pending {fn off v} : (trWrite fn off v s).pending = s.pending := by simp [trWrite]

@[simp] theorem groupTakesEffect_pending {fn translation} :
    (groupTakesEffect fn translation s).pending = s.pending := by
  unfold groupTakesEffect
  (repeat' split) <;> simp

@[simp] theorem bar2Discard_pending {fn} : (bar2Discard fn s).pending = s.pending := by simp [bar2Discard]
@[simp] theorem quadWrite_pending {fn q w} : (quadWrite fn q w s).pending = s.pending := by simp [quadWrite]
@[simp] theorem bar0Write_pending {fn off data} : (bar0Write fn off data s).pending = s.pending := by simp [bar0Write]
@[simp] theorem msixWrite_pending {fn off data} : (msixWrite fn off data s).pending = s.pending := by simp [msixWrite]
@[simp] theorem mbReqWrite_pending {fn off data} : (mbReqWrite fn off data s).pending = s.pending := by
  simp [mbReqWrite]
@[simp] theorem bar2Write_pending {fn off data} : (bar2Write fn off data s).pending = s.pending := by simp [bar2Write]
@[simp] theorem poisonedWrite_pending {fn} : (poisonedWrite fn s).pending = s.pending := by simp [poisonedWrite]
@[simp] theorem bar2Read_pending {fn off n} : (bar2Read fn off n s).2.pending = s.pending := by simp [bar2Read]
@[simp] theorem cxLeft_pending : (cxLeft s).pending = s.pending := by simp [cxLeft]
@[simp] theorem hlLeft_pending {k} : (hlLeft k s).pending = s.pending := by simp [hlLeft]
@[simp] theorem scLeft_pending {k} : (scLeft k s).pending = s.pending := by simp [scLeft]
@[simp] theorem oeLeft_pending {k} : (oeLeft k s).pending = s.pending := by simp [oeLeft]
@[simp] theorem ecLeft_pending {j} : (ecLeft j s).pending = s.pending := by simp [ecLeft]
@[simp] theorem loseStack_pending {k} : (loseStack k s).pending = s.pending := by simp [loseStack]
@[simp] theorem hbLeft_pending {k} : (hbLeft k s).pending = s.pending := by simp [hbLeft]
@[simp] theorem domainLeft_pending {d} : (domainLeft d s).pending = s.pending := by simp [domainLeft]
@[simp] theorem cxUp_pending : (cxUp s).pending = s.pending := by simp [cxUp]

@[simp] theorem sectorUp_pending {k} : (sectorUp k s).pending = s.pending := by
  refine foldSt_pending fun p s => ?_
  split <;> simp

@[simp] theorem domainUp_pending {d} : (domainUp d s).pending = s.pending := by simp [domainUp]
@[simp] theorem milestoneSix_pending : (milestoneSix s).pending = s.pending := by simp [milestoneSix]
@[simp] theorem domainStart_pending {d} : (domainStart d s).pending = s.pending := by simp [domainStart]
@[simp] theorem domainGood_pending {d} : (domainGood d s).pending = s.pending := by simp [domainGood]
@[simp] theorem domainRampTimeout_pending {d} : (domainRampTimeout d s).pending = s.pending := by
  simp [domainRampTimeout]
@[simp] theorem domainRestart_pending {d} : (domainRestart d s).pending = s.pending := by simp [domainRestart]
@[simp] theorem linkCtlNow_pending {p kind arg} : (linkCtlNow p kind arg s).pending = s.pending := by
  simp [linkCtlNow]
@[simp] theorem departRequest_pending : (departRequest s).pending = s.pending := by simp [departRequest]
@[simp] theorem departStart_pending : (departStart s).pending = s.pending := by simp [departStart]
@[simp] theorem departQuiet_pending : (departQuiet s).pending = s.pending := by simp [departQuiet]
@[simp] theorem sectorsOff_pending {outcome} : (sectorsOff outcome s).pending = s.pending := by simp [sectorsOff]
@[simp] theorem departDrained_pending : (departDrained s).pending = s.pending := by simp [departDrained]
@[simp] theorem discardHeld_pending : (discardHeld s).pending = s.pending := by
  simp -implicitDefEqProofs [discardHeld]
@[simp] theorem drainLimit_pending : (drainLimit s).pending = s.pending := by simp [drainLimit]
@[simp] theorem withdraw_pending : (withdraw s).pending = s.pending := by simp [withdraw]
@[simp] theorem dropPersist_pending : (dropPersist s).pending = s.pending := by simp [dropPersist]
@[simp] theorem bootChoice_pending : (bootChoice s).pending = s.pending := by
  unfold bootChoice
  dsimp only
  (repeat' split) <;> simp
@[simp] theorem bootLoad_pending : (bootLoad s).pending = s.pending := by simp [bootLoad]
@[simp] theorem romLoad_pending : (romLoad s).pending = s.pending := by unfold romLoad; split <;> simp
@[simp] theorem unitsReset_pending : (unitsReset s).pending = s.pending := by simp [unitsReset]
@[simp] theorem processorReset_pending : (processorReset s).pending = s.pending := by simp [processorReset]
@[simp] theorem assertWarm_pending : (assertWarm s).pending = s.pending := by simp [assertWarm]
@[simp] theorem assertCold_pending : (assertCold s).pending = s.pending := by simp [assertCold]
@[simp] theorem recordCause_pending {code detail instant} :
    (recordCause code detail instant s).pending = s.pending := by
  simp [recordCause]

@[simp] theorem takeReset_pending {code detail cold} : (takeReset code detail cold s).pending = s.pending := by
  unfold takeReset
  split <;> (repeat' split) <;> simp

@[simp] theorem enterDoldrums_pending : (enterDoldrums s).pending = s.pending := by simp [enterDoldrums]
@[simp] theorem launchImage_pending {source} : (launchImage source s).pending = s.pending := by simp [launchImage]
@[simp] theorem fallback_pending {bits source} : (fallback bits source s).pending = s.pending := by simp [fallback]
@[simp] theorem trySlots_pending {a b bits} : (trySlots a b bits s).pending = s.pending := by simp [trySlots]
@[simp] theorem bySelection_pending : (bySelection s).pending = s.pending := by simp [bySelection]
@[simp] theorem bootRom_pending : (bootRom s).pending = s.pending := by
  unfold bootRom
  dsimp only
  (repeat' split) <;> simp
@[simp] theorem endSafe_pending : (endSafe s).pending = s.pending := by simp [endSafe]
@[simp] theorem resetRelease_pending {bootSel clkMode slotId} :
    (resetRelease bootSel clkMode slotId s).pending = s.pending := by
  unfold resetRelease
  split <;> simp
@[simp] theorem bundleBoot_pending : (bundleBoot s).pending = s.pending := by simp [bundleBoot]
@[simp] theorem bundleExpiry_pending : (bundleExpiry s).pending = s.pending := by simp [bundleExpiry]
@[simp] theorem engineSource_pending : (engineSource s).2.pending = s.pending := by simp [engineSource]
@[simp] theorem reloadArmed_pending : (reloadArmed s).pending = s.pending := by simp [reloadArmed]
@[simp] theorem managementStart_pending : (managementStart s).pending = s.pending := by simp [managementStart]
@[simp] theorem operational_pending : (operational s).pending = s.pending := by simp [operational]
@[simp] theorem startTimeout_pending : (startTimeout s).pending = s.pending := by simp [startTimeout]
@[simp] theorem doldrumsExit_pending : (doldrumsExit s).pending = s.pending := by simp [doldrumsExit]

/-! ### Yusto and the queue of work -/

@[simp] theorem sendYusto_pending {c number push op status seq body} :
    (sendYusto c number push op status seq body s).pending = s.pending := by
  unfold sendYusto
  split <;> simp
@[simp] theorem pushTo_pending {k cls index body} : (pushTo k cls index body s).pending = s.pending := by
  unfold pushTo
  split <;> simp
@[simp] theorem pushAll_pending {cls index body} : (pushAll cls index body s).pending = s.pending := by simp [pushAll]
@[simp] theorem refuse_pending {st} : (refuse st s).2.pending = s.pending := by simp [refuse]

@[simp] theorem checkAccess_pending {x idx sub wantTable write} {go : ObjDef → State → Answer × State}
    (h : ∀ o s, (go o s).2.pending = s.pending) :
    (checkAccess x idx sub wantTable write s go).2.pending = s.pending := by
  unfold checkAccess; dsimp only
  (repeat' split) <;> simp [h]

@[simp] theorem yRead_pending {x idx sub shadow} : (yRead x idx sub shadow s).2.pending = s.pending := by simp [yRead]
@[simp] theorem rwWrite_pending {o idx sub bs} : (rwWrite o idx sub bs s).2.pending = s.pending := by
  simp -implicitDefEqProofs [rwWrite]
@[simp] theorem woAction_pending {x k idx sub v} : (woAction x k idx sub v s).pending = s.pending := by
  simp [woAction]
@[simp] theorem written_pending {idx sub} : (written idx sub s).pending = s.pending := by simp [written]

@[simp] theorem yWrite_pending {x k idx sub set bs} : (yWrite x k idx sub set bs s).2.pending = s.pending := by
  refine checkAccess_pending fun o s => ?_
  dsimp only
  (repeat' split) <;> simp -implicitDefEqProofs

@[simp] theorem yShape_pending {x idx} : (yShape x idx s).2.pending = s.pending := by unfold yShape; split <;> simp
@[simp] theorem ySegRead_pending {x k idx sub off len} : (ySegRead x k idx sub off len s).2.pending = s.pending := by
  simp [ySegRead]
@[simp] theorem stageWrite_pending {k total off bs} : (stageWrite k total off bs s).2.pending = s.pending := by
  simp [stageWrite]
@[simp] theorem ySegWrite_pending {x k idx sub set total off bs} :
    (ySegWrite x k idx sub set total off bs s).2.pending = s.pending := by
  simp [ySegWrite]
@[simp] theorem yCommit_pending {x k n action mt} : (yCommit x k n action mt s).2.pending = s.pending := by
  simp [yCommit]
@[simp] theorem yReport_pending {n first} : (yReport n first s).2.pending = s.pending := by simp [yReport]
@[simp] theorem ySubscribe_pending {x k mask lo hi} : (ySubscribe x k mask lo hi s).2.pending = s.pending := by
  unfold ySubscribe
  dsimp only
  (repeat' split) <;> simp
@[simp] theorem runBody_pending {k x b} : (runBody k x b s).2.pending = s.pending := by unfold runBody; split <;> simp
@[simp] theorem respond_pending {x r} : (respond x r s).pending = s.pending := by simp [respond]
@[simp] theorem runNext_pending {k seq b} : (runNext k seq b s).pending = s.pending := by
  unfold runNext
  split <;> simp

@[simp] theorem runHeld_pending {k n} : (runHeld k n s).pending = s.pending := by
  induction n generalizing s with
  | zero => rfl
  | succ n ih =>
    rw [runHeld]
    (repeat' split) <;> simp [ih]

@[simp] theorem inOrder_pending {k seq b} : (inOrder k seq b s).pending = s.pending := by
  unfold inOrder
  dsimp only
  (repeat' split) <;> simp
@[simp] theorem gapExpiry_pending {k} : (gapExpiry k s).pending = s.pending := by
  unfold gapExpiry
  dsimp only
  (repeat' split) <;> simp
@[simp] theorem inSession_pending {k number seq b} : (inSession k number seq b s).pending = s.pending := by
  unfold inSession
  split <;> simp
@[simp] theorem fabricSession_pending {c number} : (fabricSession c number s).2.pending = s.pending := by
  unfold fabricSession
  split <;> simp

@[simp] theorem yustoArrive_pending {h b} : (yustoArrive h b s).pending = s.pending := by
  unfold yustoArrive
  dsimp only
  (repeat' split) <;> try simp -implicitDefEqProofs
  all_goals exact pending_of_pair ‹fabricSession _ _ _ = _› (by simp)

@[simp] theorem mgmtArrive_pending {p} : (mgmtArrive p s).pending = s.pending := by
  unfold mgmtArrive
  split <;> simp -implicitDefEqProofs
@[simp] theorem mailboxSubmit_pending {fn len} : (mailboxSubmit fn len s).pending = s.pending := by
  simp [mailboxSubmit]
@[simp] theorem sessionOpen_pending {accepted port address} :
    (sessionOpen accepted port address s).pending = s.pending := by
  simp [sessionOpen]
@[simp] theorem sessionIdle_pending {k} : (sessionIdle k s).pending = s.pending := by
  unfold sessionIdle
  split <;> simp
@[simp] theorem sbCommit_pending {status addr data} : (sbCommit status addr data s).pending = s.pending := by
  simp -implicitDefEqProofs [sbCommit]

@[simp] theorem sbRead_pending {addr data} : (sbRead addr data s).pending = s.pending := by
  unfold sbRead
  (repeat' split) <;> simp

@[simp] theorem sbWrite_pending {addr data} : (sbWrite addr data s).pending = s.pending := by simp [sbWrite]
@[simp] theorem sbNop_pending {op addr data} : (sbNop op addr data s).pending = s.pending := by simp [sbNop]
@[simp] theorem sbAbort_pending : (sbAbort s).pending = s.pending := by simp [sbAbort]
@[simp] theorem deliverResult_pending {c r} : (deliverResult c r s).pending = s.pending := by
  unfold deliverResult
  split <;> simp
@[simp] theorem shotFires_pending {o} : (shotFires o s).pending = s.pending := by unfold shotFires; split <;> simp
@[simp] theorem schedulesFollow_pending : (schedulesFollow s).pending = s.pending := by simp [schedulesFollow]
@[simp] theorem originLost_pending {p} : (originLost p s).pending = s.pending := by simp [originLost]
@[simp] theorem originLeft_pending {p} : (originLeft p s).pending = s.pending := by simp [originLeft]
@[simp] theorem reachChanged_pending : (reachChanged s).pending = s.pending := by simp [reachChanged]
@[simp] theorem mtcmpStep_pending {a b} : (mtcmpStep a b s).pending = s.pending := by simp [mtcmpStep]
@[simp] theorem handle_pending {w} : (handle w s).pending = s.pending := by unfold handle; split <;> simp

@[simp] theorem drain_pending {n} : (drain n s).pending = s.pending := by
  induction n generalizing s with
  | zero => rfl
  | succ n ih =>
    rw [drain]
    split <;> simp [ih]

@[simp] theorem settle_pending : (settle s).pending = s.pending := by simp [settle]

/-! ### What the commands share -/

@[simp] theorem takeDelivered_pending {p} : (takeDelivered p s).pending = s.pending := by simp [takeDelivered]
@[simp] theorem takeIngress_pending {port p free} : (takeIngress port p free s).pending = s.pending := by
  simp [takeIngress]
@[simp] theorem trainingTime_pending {p} : (trainingTime p s).pending = s.pending := by simp [trainingTime]
@[simp] theorem cdrLock_pending {p l step power} : (cdrLock p l step power s).pending = s.pending := by simp [cdrLock]
@[simp] theorem codewordArrive_pending {p errs cells} : (codewordArrive p errs cells s).pending = s.pending := by
  simp [codewordArrive]
@[simp] theorem bringUpTimeout_pending {p} : (bringUpTimeout p s).pending = s.pending := by simp [bringUpTimeout]
@[simp] theorem bringUpRestart_pending {p} : (bringUpRestart p s).pending = s.pending := by
  unfold bringUpRestart
  split <;> simp
@[simp] theorem lullDwell_pending {p} : (lullDwell p s).pending = s.pending := by simp [lullDwell]
@[simp] theorem lullDepth_pending {p} : (lullDepth p s).pending = s.pending := by simp [lullDepth]
@[simp] theorem laneRestore_pending {p} : (laneRestore p s).pending = s.pending := by simp [laneRestore]
@[simp] theorem warmUp_pending {p} : (warmUp p s).pending = s.pending := by simp [warmUp]
@[simp] theorem wideningTimeout_pending {p} : (wideningTimeout p s).pending = s.pending := by simp [wideningTimeout]
@[simp] theorem peakingTrack_pending {p l up} : (peakingTrack p l up s).pending = s.pending := by
  unfold peakingTrack
  split <;> simp
@[simp] theorem laserLow_pending {p l output} : (laserLow p l output s).pending = s.pending := by simp [laserLow]
@[simp] theorem lockResult_pending {w code} : (lockResult w code s).pending = s.pending := by simp [lockResult]
@[simp] theorem grantNow_pending {w p} : (grantNow w p s).pending = s.pending := by simp [grantNow]
@[simp] theorem packetRoute_pending {src} : (packetRoute src s).pending = s.pending := by
  unfold packetRoute
  dsimp only
  (repeat' split) <;> simp
@[simp] theorem singleVcExpiry_pending {p v} : (singleVcExpiry p v s).pending = s.pending := by
  unfold singleVcExpiry
  dsimp only
  (repeat' split) <;> simp
@[simp] theorem healthInterval_pending : (healthInterval s).pending = s.pending := by simp [healthInterval]
@[simp] theorem vanePeriod_pending : (vanePeriod s).pending = s.pending := by simp [vanePeriod]

@[simp] theorem replicaCheck_pending {diffs} : (replicaCheck diffs s).pending = s.pending := by
  unfold replicaCheck
  refine (forRange_pending fun k s => ?_).trans (by simp)
  split <;> simp

@[simp] theorem fenceAsk_pending {e c no} : (fenceAsk e c no s).pending = s.pending := by
  simp -implicitDefEqProofs [fenceAsk]
@[simp] theorem readSpecial_pending {e c n} : (readSpecial e c n s).2.pending = s.pending := by
  unfold readSpecial
  split <;> simp
@[simp] theorem startMove_pending {e c rd desc} : (startMove e c rd desc s).pending = s.pending := by simp [startMove]
@[simp] theorem breeze_pending {written} : (breeze written s).pending = s.pending := by simp [breeze]
@[simp] theorem markerInterval_pending {p} : (markerInterval p s).pending = s.pending := by simp [markerInterval]
@[simp] theorem scanLaser_pending {k bias output} : (scanLaser k bias output s).pending = s.pending := by
  simp [scanLaser]
@[simp] theorem scanOptical_pending {k v} : (scanOptical k v s).pending = s.pending := by simp [scanOptical]

@[simp] theorem scanOptics_pending {x} : (scanOptics x s).pending = s.pending := by
  unfold scanOptics
  dsimp only
  refine (foldSt_pending fun t s => scanOptical_pending).trans ((foldSt_pending fun t s => ?_).trans
    (foldSt_pending fun t s => scanLaser_pending))
  exact (foldSt_pending fun l s => by simp).trans (setLanes_pending ..)

@[simp] theorem inputGoodAt_pending {vin} : (inputGoodAt vin s).pending = s.pending := by simp [inputGoodAt]
@[simp] theorem nop_pending {qn} : (nop qn s).pending = s.pending := by unfold nop; split <;> simp
@[simp] theorem hostReadCompletion_pending {link tag r} : (hostReadCompletion link tag r s).pending = s.pending := by
  unfold hostReadCompletion
  split <;> simp
@[simp] theorem idle_pending : (idle s).pending = s.pending := by simp [idle]

end

end Sys2Proof.Machine
end

section

/-! SUPPORT. The queue of commands (95_what_each_step_holds.md): no command changes what waits in it, so that a step
leaves exactly the rest of the queue. -/

namespace Sys2Proof.Machine

/-- A next state that the outcome answers has the queue `q`. -/
def Leaves (q : List Instr) : Out3 → Prop
  | .next t => t.pending = q
  | _ => True

section
variable {q : List Instr} {s : State}

@[simp] theorem leaves_next : Leaves q (.next s) ↔ s.pending = q := Iff.rfl
@[simp] theorem leaves_fault {f : Fault} : Leaves q (.fault f) := trivial
@[simp] theorem leaves_refused {r : Refusal} : Leaves q (.refused r) := trivial

@[simp] theorem leaves_ite {c : Prop} [Decidable c] {o1 o2 : Out3} :
    Leaves q (if c then o1 else o2) ↔ if c then Leaves q o1 else Leaves q o2 := by split <;> rfl

@[simp] theorem leaves_fin : Leaves q (fin s) ↔ s.pending = q := by simp [fin]

@[simp] theorem leaves_finO {o : Out3} (h : Leaves q o) : Leaves q (finO o) := by
  cases o with
  | next t => simpa [finO] using h
  | fault f => trivial
  | refused r => trivial

/-! ### What the commands share -/

/-- A command that is taken only under a condition. -/
theorem leaves_cond {c : Prop} [Decidable c] {t : State} (h : t.pending = s.pending) :
    Leaves s.pending (if c then fin t else .next s) := by simp [h]

@[simp] theorem leaves_inDomain {d : Nat} {f : State → State} (h : ∀ s, (f s).pending = s.pending) :
    Leaves s.pending (inDomain d f s) := by simp [inDomain, h]

@[simp] theorem leaves_inAO {f : State → State} (h : ∀ s, (f s).pending = s.pending) :
    Leaves s.pending (inAO f s) := leaves_inDomain h

@[simp] theorem leaves_inCX {f : State → State} (h : ∀ s, (f s).pending = s.pending) :
    Leaves s.pending (inCX f s) := leaves_inDomain h

@[simp] theorem leaves_inLanes {p : Nat} {f : State → State} (h : ∀ s, (f s).pending = s.pending) :
    Leaves s.pending (inLanes p f s) := by simp [inLanes, h]

@[simp] theorem leaves_packetCommand {type : Nat} {p : Packet} {f : Packet → State → State}
    (h : ∀ p s, (f p s).pending = s.pending) : Leaves s.pending (packetCommand type p f s) := by
  simp [packetCommand, h]

@[simp] theorem leaves_portCommand {type port : Nat} {ok : Packet → Bool} {p : Packet} {f : Packet → State → State}
    (h : ∀ p s, (f p s).pending = s.pending) : Leaves s.pending (portCommand type ok port p f s) := by
  simp [portCommand, h]

@[simp] theorem leaves_collCommand {kind : Nat} {p : Packet} {f : Nat → Packet → State → State}
    (h : ∀ g p s, (f g p s).pending = s.pending) : Leaves s.pending (collCommand kind p f s) := by
  simp [collCommand, h]

@[simp] theorem leaves_cellCommand {p : Nat} {c : RawCell} : Leaves s.pending (cellCommand p c s) := by
  simp [cellCommand]

@[simp] theorem leaves_updateServed {f : State → State} (h : ∀ s, (f s).pending = s.pending) :
    Leaves s.pending (updateServed f s) := by
  unfold updateServed
  split <;> simp [h]

@[simp] theorem leaves_lockCommand {fn : Nat} {w : LockWord} {used : Bool} {f : State → State}
    (h : ∀ s, (f s).pending = s.pending) : Leaves s.pending (lockCommand fn w used f s) := by
  simp [lockCommand, h]

@[simp] theorem leaves_yustoCommand {h : YHdr} {b : YBody} : Leaves s.pending (yustoCommand h b s) := by
  unfold yustoCommand
  exact leaves_fin.2 yustoArrive_pending

/-! ### Instructions of the engines -/

@[simp] theorem leaves_meRun {w : Issue} {word kind : Nat} {body : State → Out3}
    (h : ∀ s, Leaves s.pending (body s)) : Leaves s.pending (meRun w word kind body s) := by
  have hbody {t : State} (ht : t.pending = s.pending) : Leaves s.pending (body t) := ht ▸ h t
  unfold meRun
  dsimp only
  split
  · rfl
  split
  · simp
  split
  · simp
  split
  · simp
  · split
    · simp
    · exact hbody (by simp)
    · exact hbody (by simp)

@[simp] theorem leaves_unitOp {w : Issue} {rd ra selector : Nat} {body : State → Out3}
    (h : ∀ s, Leaves s.pending (body s)) : Leaves s.pending (unitOp w rd ra selector body s) :=
  leaves_finO (leaves_meRun fun s => by
    split
    · simp
    · exact h s)

variable {w : Issue} {word major size : Nat} {rd ra rb : Fin 32} {imm : BitVec 16} {sel : BitVec 12}

theorem leaves_aluRR {f : Word64 → Word64 → AluOut} : Leaves s.pending (aluRR w word rd ra rb f s) :=
  leaves_meRun fun s => by simp

theorem leaves_aluR {f : Word64 → AluOut} : Leaves s.pending (aluR w word rd ra f s) := leaves_meRun fun s => by simp

theorem leaves_aluK {v : Word64} : Leaves s.pending (aluK w word rd v s) := leaves_meRun fun s => by simp

theorem leaves_branch {off : BitVec 16} {p : Word64 → Word64 → Bool} :
    Leaves s.pending (branch w word ra rb off p s) := leaves_meRun fun s => by simp

@[simp] theorem leaves_doLoad {rd size : Nat} {signed pair : Bool} {dep addr : Nat} :
    Leaves s.pending (doLoad w rd size signed pair dep addr s) := by
  unfold doLoad
  dsimp only
  split
  · simp
  · split <;> simp

@[simp] theorem leaves_doStore {bs : List Byte} {pair : Bool} {addr : Nat} :
    Leaves s.pending (doStore w bs pair addr s) := by
  unfold doStore
  dsimp only
  split
  · simp
  · (repeat' split) <;> simp

theorem leaves_loadInstr {signed : Bool} : Leaves s.pending (loadInstr w major rd ra imm size signed s) :=
  leaves_finO (leaves_meRun fun _ => leaves_doLoad)

theorem leaves_storeInstr : Leaves s.pending (storeInstr w major rd ra imm size s) :=
  leaves_finO (leaves_meRun fun _ => leaves_doStore)

/-! ### Commands with an arm of their own -/

theorem leaves_execLrsv : Leaves s.pending (execLrsv w rd ra imm s) := by
  refine leaves_finO (leaves_meRun fun s => ?_)
  dsimp only
  split <;> simp

theorem leaves_execScnd : Leaves s.pending (execScnd w rd ra rb s) := by
  refine leaves_finO (leaves_meRun fun s => ?_)
  dsimp only
  split
  · simp
  · simp
  · split
    · split <;> simp
    · simp

theorem leaves_execDma : Leaves s.pending (execDma w rd ra s) := by
  refine leaves_unitOp fun s => ?_
  dsimp only
  split <;> simp

theorem leaves_execDmawait : Leaves s.pending (execDmawait w rd ra s) := by
  refine leaves_unitOp fun s => ?_
  dsimp only
  split
  · simp
  · split <;> simp

theorem leaves_execAcquire : Leaves s.pending (execAcquire w rd ra s) := by
  refine leaves_unitOp fun s => ?_
  dsimp only
  split
  · simp
  split
  · split <;> simp
  · split
    · simp
    · split <;> simp
      split <;> simp

theorem leaves_execRelease : Leaves s.pending (execRelease w rd ra s) := by
  refine leaves_unitOp fun s => ?_
  dsimp only
  split <;> simp

theorem leaves_execTryLock : Leaves s.pending (execTryLock w rd ra s) := by
  refine leaves_unitOp fun s => ?_
  dsimp only
  split <;> simp

variable {fn : Fin 514} {priority : BitVec 4} {token : BitVec 16} {eqn : BitVec 20} {rsvd : BitVec 8} {lock : BitVec 12}

theorem leaves_execLockAcquire : Leaves s.pending (execLockAcquire fn priority token eqn rsvd lock s) := by
  unfold execLockAcquire
  exact leaves_lockCommand fun s => by simp

theorem leaves_execLockTry : Leaves s.pending (execLockTry fn priority token eqn rsvd lock s) := by
  unfold execLockTry
  exact leaves_lockCommand fun s => by simp

theorem leaves_execLockRelease : Leaves s.pending (execLockRelease fn priority token eqn rsvd lock s) := by
  unfold execLockRelease
  exact leaves_lockCommand fun s => by simp

theorem leaves_execLockCancel : Leaves s.pending (execLockCancel fn priority token eqn rsvd lock s) := by
  unfold execLockCancel
  exact leaves_lockCommand fun s => by simp

theorem leaves_lockWrite {v : Nat} : Leaves s.pending (lockWrite fn v s) := by
  simp [lockWrite, leaves_execLockAcquire, leaves_execLockTry, leaves_execLockRelease, leaves_execLockCancel]

theorem leaves_bar2Command {off : Nat} {data : List Byte} : Leaves s.pending (bar2Command fn off data s) := by
  simp [bar2Command, leaves_lockWrite]

theorem leaves_execRegisterWrite {loc : RegLoc} {data : List Byte} {poisoned : Bool} :
    Leaves s.pending (execRegisterWrite fn loc data poisoned s) := by
  cases loc <;> simp [execRegisterWrite, leaves_bar2Command]

theorem leaves_execSourcePeerLost : Leaves s.pending (execSourcePeerLost s) :=
  leaves_inAO fun s => by cases s.tb.srcPort <;> simp

theorem leaves_execDmaMoveComplete {e : Fin 96} {c : Fin 4} {tag : BitVec 64} {given : MoveInput} {st : BitVec 8} :
    Leaves s.pending (execDmaMoveComplete e c tag given st s) := by
  unfold execDmaMoveComplete
  split <;> simp

theorem leaves_execIllegalInstruction {v : BitVec 32} : Leaves s.pending (execIllegalInstruction w v s) := by
  unfold execIllegalInstruction
  split
  · rfl
  · exact leaves_finO (leaves_meRun fun s => by simp)

theorem leaves_execScrubRead {k : Fin 2} {ecc : Ecc} : Leaves s.pending (execScrubRead k ecc s) := by
  cases ecc <;> simp [execScrubRead]

end

/-! ### Every command, every step -/

/-- No command changes the queue: by the operations that its arm runs. -/
theorem exec_leaves {s : State} (i : Instr) : Leaves s.pending (exec i s) := by
  cases i with
  | refClkLost | epochEdge | tcodeFrame | tcodeLost | usablePeerAdvertised | holdDownExpiry | measuredDelayUpdate
    | uncertaintyLimitCrossed | timePulse | timePulseEnd | sessionOpen | sessionIdleTimeout | seqGapWaitExpiry
    | domainStart | domainPowerGood | domainRampTimeout | domainRestart
    | departQuiesceComplete | departDrainComplete | drainLimitExpiry | logCoalesceFlush | faultRaise
    | breezeToggle =>
    exact leaves_inAO fun s => by simp
  | timeExchangeStart | domainOpen | domainClose | domainCloseComplete | asCreate | asModify | asDestroy
    | translationInvalidate | faultResume | faultFail | packetRoute | packetStart | singleVcWaitExpiry
    | healthInterval | vaneUpdate | queueSample | syncMarkerInterval | cellTransmit
    | idleCellReceive | replayTimeout | silenceLimitExpiry | graceExpiry | heldRetryExpiry | retrain | eyeScan
    | roundTripSample =>
    exact leaves_inCX fun s => by simp
  | datagramOutsideSession | apply | persistComplete | checkWordScan | budgetExhausted | interruptTaken
    | mtcmpReached | stackLost | departRequest | powerOnReset | watchdogExpiry | resetRequestWarm
    | resetRequestCold | lockup | resetHoldExpiry | telemetrySample | clearSource | clearAll | unfreeze | empty
    | faultInjection | sensorScan =>
    exact leaves_cond (by simp)
  | yustoRead | yustoWrite | yustoShape | segRead | segWrite | commit | commitCancel | commitDiscard | report
    | subscribe | subscribeCancel =>
    dsimp only [exec]
    exact leaves_yustoCommand
  | doorbellTail | doorbellHead | doorbellHeadArm | keyRightsWrite | fetchVisit | hostReadCompletion
    | descriptorRetire | moderationTimeout | nop | queueCreate | queueResize | queueHalt | queueDrain
    | drainComplete | queueResume | queueResumeSkip | queueDestroy | queueDestroyForce | destroyComplete
    | queueQuery | queueModify | recvPost | recvCancel | tsend | skipNoticeResend | lossIntervalExpiry
    | muRetryResend | rnrRetry | flowContextRetry | pageRetryResend | put | putImm | get | fadd64 | swap64 | cas64
    | cas128 | flush | csend | cput | cget | flowContextExpiry | baseDelayReset | stallExpiry | policerReevaluate
    | registerRegion | deregister | regionDrainComplete | openConn | closeConn | closeConnForce
    | connCloseComplete | groupCreate | groupDestroy | allreduce | broadcast | barrier | collectiveLaunch
    | joinRetry | joinTimeoutExpiry | heartbeatInterval | livenessTimeout | stepTimeoutExpiry | asCloseComplete
    | invalidateDone | localWaitExpiry | laneOpen | laneSend | laneClose | laneLastDepart | laneSetupTimeout
    | tentativeLaneTimeout | squallHoldExpiry | packageCall | activate | activationCancel | packageRemove
    | activationInstant | quiesceComplete | quiesceTimeout | mailboxSubmit | aqEnable | aqDisable | aqResume
    | aqResumeSkip | aqResizeCq | groupWriteTakesEffect | functionLevelReset | flrComplete | hostLinkDown
    | perstAssert | sbRead | sbWrite | sbFrameAbort | inputGood | brownOutReset | pinReset | resetWarm | resetCold
    | clockFailure | startTimeout | resetRelease | bundleWaitExpiry | managementFirmwareStart
    | operationalMilestone | doldrumsExit | hostLinkUp | perstDeassert | workItemDispatch =>
    exact leaves_fin.2 (by simp)
  | tsendArrive | rtsArrive | skipArrive | rgetArrive | putArrive | putImmArrive | getArrive | fadd64Arrive
    | swap64Arrive | cas64Arrive | cas128Arrive | flushArrive | csendArrive | cputArrive | cgetArrive | ackArrive
    | refusalArrive | getDataArrive | atomicRespArrive | squallNoticeArrive =>
    exact leaves_packetCommand fun p s => by simp
  | collJoin | collReady | collAbandon | collContrib | collResult | collAbort | collHeartbeat | collDepart
    | collLost | collBroken | collFetch =>
    exact leaves_collCommand fun g p s => by simp
  | dataCellReceive | creditCellReceive | syncMarkReceive | syncReplyReceive | trainCellReceive =>
    exact leaves_cellCommand
  | trainingTimeExpiry | alignmentMarkerReceive | codewordDecode | laneLockLoss | lossOfSignal | bringUpTimeout
    | bringUpRestart | lullDwellExpiry | lullExitDepth | laneRestoreHoldExpiry | warmUpExpiry | wideningTimeout
    | peakingTrack | bitSlip =>
    exact leaves_inLanes fun s => by simp
  | eyeScanComplete | laserOutputLowExpiry => exact leaves_inDomain fun s => by simp
  | add | sub | and | or | xor | andn | cmplt | cmpltu | min | max | minu | maxu | shl | shr | sar | rotl | rotr
    | add32 | sub32 | shl32 | shr32 | sar32 | rotl32 | rotr32 | mullo | mulhs | mulhu | mulhm | quos | quou | rmds
    | rmdu | mullo32 | quos32 | quou32 | rmds32 | rmdu32 | crc =>
    exact leaves_finO leaves_aluRR
  | neg | neg32 | addk | addk32 | andk | ork | xork | cmpltk | cmpltuk | shkShl | shkShr | shkSar | shkRotl
    | shkRotr | shkShl32 | shkShr32 | shkSar32 | shkRotl32 | shkRotr32 | kshor | clz | ctz | popc | bswap | clz32
    | ctz32 | popc32 =>
    exact leaves_finO leaves_aluR
  | khi => exact leaves_finO leaves_aluK
  | ld8 | ld8u | ld16 | ld16u | ld32 | ld32u | ld64 =>
    exact leaves_loadInstr
  | st8 | st16 | st32 | st64 =>
    exact leaves_storeInstr
  | brEq | brNe | brLt | brGe | brLtu | brGeu =>
    exact leaves_finO leaves_branch
  | updateBegin | updateFinish | updateAbort | updateCopy | bootOnce | updateErase =>
    exact leaves_updateServed fun s => by simp
  | ld2w | st2w | fenceO | fenceP | call | jump | callr | rds | wrs | trap | brk | ret | wait | yield | doneItem =>
    exact leaves_finO (leaves_meRun fun s => by simp)
  | mtread | wake => exact leaves_unitOp fun s => by simp
  | sourcePeerLost => exact leaves_execSourcePeerLost
  | registerWrite => exact leaves_execRegisterWrite
  | laneDataArrive => simp [exec, execLaneDataArrive]
  | dmaMoveComplete => exact leaves_execDmaMoveComplete
  | lrsv => exact leaves_execLrsv
  | scnd => exact leaves_execScnd
  | dma => exact leaves_execDma
  | dmawait => exact leaves_execDmawait
  | acquire => exact leaves_execAcquire
  | release => exact leaves_execRelease
  | tryLock => exact leaves_execTryLock
  | illegalInstruction => exact leaves_execIllegalInstruction
  | lockAcquire => exact leaves_execLockAcquire
  | lockRelease => exact leaves_execLockRelease
  | lockTry => exact leaves_execLockTry
  | lockCancel => exact leaves_execLockCancel
  | scrubRead => exact leaves_execScrubRead
  | inputLoss => simp -implicitDefEqProofs [exec, execInputLoss]
  | inputOvervoltage => simp -implicitDefEqProofs [exec, execInputOvervoltage]
  | epochLost => simp -implicitDefEqProofs [exec, execEpochLost]
  | slewEnd => simp -implicitDefEqProofs [exec, execSlewEnd]
  | calibrationComplete => simp -implicitDefEqProofs [exec, execCalibrationComplete]
  | breezeKeepaliveExpiry => simp -implicitDefEqProofs [exec, execBreezeKeepaliveExpiry]
  | gateBoundary => simp -implicitDefEqProofs [exec, execGateBoundary]
  | replicaCheck => simp -implicitDefEqProofs [exec, execReplicaCheck]
  | timeRequestArrive => simp -implicitDefEqProofs [exec, execTimeRequestArrive]
  | timeResponseArrive => simp -implicitDefEqProofs [exec, execTimeResponseArrive]
  | healthArrive => simp -implicitDefEqProofs [exec, execHealthArrive]
  | laneSetupArrive => simp -implicitDefEqProofs [exec, execLaneSetupArrive]
  | laneReplyArrive => simp -implicitDefEqProofs [exec, execLaneReplyArrive]
  | laneReleaseArrive => simp -implicitDefEqProofs [exec, execLaneReleaseArrive]
  | linkCtlDepartArrive => simp -implicitDefEqProofs [exec, execLinkCtlDepartArrive]
  | departDoneArrive => simp -implicitDefEqProofs [exec, execDepartDoneArrive]
  | sbNop => simp [exec, execSbNop]
  | stackTrainingComplete => exact leaves_cond (by simp -implicitDefEqProofs)
  | lossNoticeArrive => simp -implicitDefEqProofs [exec, execLossNoticeArrive]
  | cdrLockAcquired => simp -implicitDefEqProofs [exec, execCdrLockAcquired]
  | updateVerifyComplete => simp -implicitDefEqProofs [exec, execUpdateVerifyComplete]

/-- Settles O59: with a command waiting, the step runs it over the rest of the queue; with none, the idle cycle leaves
the queue empty. -/
theorem stepsTakeCommandsInOrder : Obligations.StepsTakeCommandsInOrder := by
  intro s t ht
  cases hp : s.pending with
  | nil =>
    simp only [step, hp] at ht
    cases ht
    exact idle_pending.trans hp
  | cons i r =>
    rw [step_cons hp] at ht
    have hleaves : Leaves r (exec i { s with pending := r }) := exec_leaves (s := { s with pending := r }) i
    rw [ht] at hleaves
    exact hleaves

end Sys2Proof.Machine
end
